-- ==== Sys2Proof/Word.lean ====
section
/-! DEFINITION. The word types of the module and the plainest operations on them. Records (slots, descriptors,
completions) are bit vectors numbered as 00 R1 numbers bytes: the byte at the lowest offset holds the least
significant bits, so bytes a to b of a record are bits [8b+7:8a]. -/

namespace Sys2Proof

/-- One byte. -/
abbrev Byte := BitVec 8
/-- A 16-bit value. -/
abbrev Half := BitVec 16
/-- A 32-bit value: counters, unit IDs, local addresses. -/
abbrev Word := BitVec 32
/-- A 64-bit value: registers and completion words. -/
abbrev DWord := BitVec 64
/-- Sparse byte memory: addresses strictly rising, no entry equal to the byte an unlisted address reads as. -/
abbrev Mem := List (Nat × Byte)
/-- A sparse table by key, keys strictly rising. -/
abbrev Tbl (α : Type) := List (Nat × α)

/-- Counters saturate at 0xFFFF_FFFF (04 R113, 06 R172, 07 R192, 08 R220, 10 R275, 12 R307). -/
def satAdd32 (c : Word) (n : Nat) : Word :=
  if c.toNat + n < 4294967295 then BitVec.ofNat 32 (c.toNat + n) else 0xFFFFFFFF

end Sys2Proof
end

