-- ==== Sys2Proof/Syntax.lean ====
section
/-! DEFINITION. The commands of the block: one constructor per row of the opcode table, with the operands a row carries.
Operands name parts of the module, or carry what a physical event shows (a decode, a comparison, a sensor value). -/

namespace Sys2Proof

/-- Half of a 64-bit BAR0 register an access covers (12 R307). -/
inductive RegHalf where
  | full | lo | hi
  deriving DecidableEq, Repr

/-- Where a register write goes: an atoll register (Table 3-3 offsets), a scalar core CSR (Table 5-1), a shoal, isle or
strait die register, a die's fault collector, or BAR0. -/
inductive RegName where
  | atoll (g : Fin 320) (off : Nat)
  | csr (g : Fin 320) (core : Fin 2) (num : Nat)
  | shoal (h : Fin 16) (off : Nat)
  | isle (d : Fin 8) (off : Nat)
  | strait (s : Fin 6) (off : Nat)
  | collector (node : Fin 32) (off : Nat)
  | bar0 (off : Nat) (half : RegHalf)
  deriving DecidableEq, Repr

/-- Result of the retire comparison of a lockstep pair, or of a sequencer's duplicated control (03 R74, Table 10-1). -/
inductive CompareOutcome where
  | pass
  | mismatch (point : Fin 6) (v0 v1 : DWord)
  deriving DecidableEq, Repr

/-- Result of the symbol decode of a word that is read (06 R148, R151). `linkEcc` is a DRAM read with link ECC events (Table
6-3): how many, the symbols its retried decode corrects, and whether no data came back. `miscorrected` is an error in three
symbols of a DRAM word that the decoder of mode 0 takes for another codeword, with the data of that codeword. -/
inductive Decoded where
  | clean
  | corrected (symbols : Nat)
  | uncorrectable (symbols : Nat)
  | linkEcc (events symbols : Nat) (lost : Bool)
  | miscorrected (symbols : Nat) (word : BitVec 512)
  deriving DecidableEq, Repr

/-- Who makes a lagoon access. A scalar core's load names its destination register. -/
inductive Requester where
  | core (c : Fin 2) (rd : Fin 32)
  | matrix (e : Fin 4)
  | vector (v : Fin 2)
  | bank
  | dma
  | manager
  deriving DecidableEq, Repr

/-- A neighbour request: a read of n bytes, or a write under a format tag. -/
inductive NbrAccess where
  | read (n : Nat)
  | write (tag : BitVec 5) (data : List Byte)
  deriving DecidableEq, Repr

/-- Result of a tile op's checks: `what` is 0 checksum row, 1 checksum column, 2 residue (Table 10-11). -/
inductive TileCheck where
  | pass
  | fail (what : Fin 3) (row col : Half)
  deriving DecidableEq, Repr

/-- Who issues a cache command: a sequencer's CACHE entry has put it at the port, or the manager core does. -/
inductive CacheIssuer where
  | seq (u : Fin 6)
  | manager
  deriving DecidableEq, Repr

/-- Where an arriving queue entry comes from: an incoming lane or the atoll's own units. -/
inductive EntrySource where
  | lane (i : Fin 8)
  | own
  deriving DecidableEq, Repr

/-- A word the SRAM scrubber reads. -/
inductive SramWord where
  | lagoon (g : Fin 320) (word : Nat)
  | staging (h : Fin 16) (word : Nat)
  deriving DecidableEq, Repr

/-- What starts a channel retirement (06 R168). -/
inductive RetireCause where
  | uncorrectable
  | corrections
  | command
  | resetCheck
  deriving DecidableEq, Repr

/-- What happens to the packet at the head of a router's input, or a packet put into the mesh. -/
inductive MeshEvent where
  | inject (src dst : Nat) (cls : Fin 4) (payload : List Byte)
  | forward
  | crcFail
  deriving DecidableEq, Repr

/-- An on-die or die-to-die link (07 R180). -/
inductive OnDieLink where
  | mesh (d : Fin 8) (x : Fin 10) (y : Fin 4) (dir : Fin 4)
  | isthmus (d : Fin 8) (row : Fin 4)
  | port (kind : Fin 4) (die : Fin 16) (group : Fin 7) (sub : Fin 6)
  | causeway (a b : Fin 32)
  deriving DecidableEq, Repr

/-- The body of a fabric codeword: its sequence control and its payload, as FEC and CRC leave them. -/
inductive FecResult where
  | good (corrected : Nat)
  | uncorrectable
  deriving DecidableEq, Repr

/-- A received fabric codeword (08 R195, R196). -/
structure Codeword where
  ctrl : BitVec 32
  body : List Byte
  fec : FecResult
  deriving DecidableEq, Repr

/-- Measurements of one port in a telemetry sample (08 R218). -/
structure PortSample where
  words : List Word
  deriving DecidableEq, Repr

/-- Names a running collective. -/
structure CollKey where
  jobTag : Word
  collId : Half
  step : Word
  deriving DecidableEq, Repr

/-- Result of a patrol micro-test or of a suite (10 R253-R256, Table 10-11). -/
inductive PatrolResult where
  | pass
  | fail (unit : Word) (test : Byte) (word : Word) (expected observed : DWord)
  deriving DecidableEq, Repr

/-- What the tests of a timeline find (14 R350, R353, Tables 14-2, 14-3, 14-5): failing units with the fault class of the
test, units that fail only at the raised clock, staging banks
(shoal die, bank) and bays that fail their test, channels that do not train or fail the check after self-refresh, trained
lanes of each link (bit 0 lane 0), hub checks, control processors that pass, running hub watchdogs, and the strap pins. -/
structure BringUp where
  failingUnits : List (Word × Half)
  raisedFails : List Word
  failingBanks : List (Nat × Nat)
  failingChannels : List Nat
  linkLanes : List (Nat × Nat)
  hubSecure : BitVec 2
  hubProcessors : BitVec 8
  hubWatchdogs : BitVec 2
  strap : BitVec 4
  deriving DecidableEq, Repr

/-- A core that takes broadcast firmware (14 R352). -/
inductive FwCore where
  | manager (node : Fin 32)
  | scalar (g : Fin 320) (core : Fin 2)
  deriving DecidableEq, Repr

/-- What a region asks the current ledger for (15 R372). -/
inductive LedgerTarget where
  | step (level : Fin 4)
  | off
  | on
  deriving DecidableEq, Repr

/-- An SPDM request message (16 R402). -/
structure SpdmRequest where
  session : Nat
  param1 : Byte
  param2 : Byte
  payload : List Byte
  authOk : Bool
  deriving DecidableEq, Repr

/-- A PLDM firmware update command (17 R407). -/
structure PldmFwCommand where
  code : Byte
  payload : List Byte
  deriving DecidableEq, Repr

/-- An I3C common command code with its data (17 R406). -/
structure I3cCcc where
  code : Byte
  data : List Byte
  deriving DecidableEq, Repr

/-- Rate the host link trained at (12 R301). -/
inductive HostRate where
  | gt64 | gt32 | lower
  deriving DecidableEq, Repr

/-- Whether the host may cache the line it reads, and whether it may come to hold it modified (12 R305). -/
inductive HostCacheUse where
  | uncached | shared | exclusive
  deriving DecidableEq, Repr

/-- An IDE_KM message (12 R301). -/
inductive IdeKm where
  | query
  | keyProg (slot : Byte) (key : BitVec 256)
  | setGo (slot : Byte)
  | setStop (slot : Byte)
  deriving DecidableEq, Repr

/-- The commands of spec/opcode_table.json, in its order. -/
inductive Instr where
  /-- R2: A write to a register that has no behaviour of its own sets its rw fields and clears its w1c bits per the
  access codes. -/
  | registerWrite (r : RegName) (v : DWord)
  /-- R74: A scalar core retires an ordinary RV64IMAC instruction, compared at retire in lockstep mode. -/
  | scalarInstruction (g : Fin 320) (core : Fin 2) (chk : CompareOutcome) (dec : Decoded)
  /-- R54: A unit loads from its own or a neighbour lagoon and completes with an access status. -/
  | lagoonLoad (g : Fin 320) (who : Requester) (addr : Word) (size : Nat) (sgn : Bool) (dec : Decoded)
  /-- R54: A unit stores to its own or a neighbour lagoon, with format tag and apex words updated per R25. -/
  | lagoonStore (g : Fin 320) (who : Requester) (addr : Word) (tag : BitVec 5) (data : List Byte)
  /-- R53: A target lagoon serves or refuses a neighbour request by comparing partitions. -/
  | neighbourRequest (target : Fin 320) (source : Fin 320) (offset : Nat) (req : NbrAccess) (dec : Decoded)
  /-- R119: CH.CONNECT takes a handle and sends CONNECT to the receiver's position. -/
  | chConnect (g : Fin 320) (core : Fin 2) (rd rs1 rs2 : Fin 32)
  /-- R120: The receiver checks a CONNECT, reserves capacity, takes a handle and answers. -/
  | connectRequest (g : Fin 320)
  /-- R120: The sender receives the answer and writes its handle or status to rd. -/
  | connectAnswer (g : Fin 320) (core : Fin 2)
  /-- R120: A connect unanswered for 100 µs frees the handle and returns −7. -/
  | connectTimeout (g : Fin 320) (core : Fin 2)
  /-- R123: CH.SEND sends a one-word or bulk message, or blocks while the channel is at capacity. -/
  | chSend (g : Fin 320) (core : Fin 2) (rd rs1 rs2 : Fin 32)
  /-- R123: CH.SEND with funct7 0x04–0x07 sends 1 to 4 words from private SRAM. -/
  | chSendTuple (g : Fin 320) (core : Fin 2) (wordsM1 : Fin 4) (rd rs1 rs2 : Fin 32)
  /-- R123: A blocked send completes once capacity or ring space frees. -/
  | chSendResume (g : Fin 320) (core : Fin 2)
  /-- R128: A send end's stall timer reaches CHANNEL_STALL_TIMEOUT, a record is written and the step aborts. -/
  | channelStall (g : Fin 320) (core : Fin 2)
  /-- R124: CH.RECV returns a word of the message being handled. -/
  | chRecv (g : Fin 320) (core : Fin 2) (rd rs1 : Fin 32)
  /-- R124: CH.HRET frees the slot, counts the message handled and resumes at CH_EPC. -/
  | chHret (g : Fin 320) (core : Fin 2)
  /-- R124: A core dispatches a handler for the lowest pending published port. -/
  | handlerDispatch (g : Fin 320) (core : Fin 2)
  /-- R125: A kind-1 port moves the ring head message into its local queue when the queue has room. -/
  | chQueueDelivery (g : Fin 320) (core : Fin 2) (port : Fin 16)
  /-- R117: Writing CH_PORT_CTRL with publish set checks and publishes a port. -/
  | chPortPublish (g : Fin 320) (core : Fin 2) (v : DWord)
  /-- R117: Clearing publish unpublishes a port, refused while channels are open. -/
  | chPortUnpublish (g : Fin 320) (core : Fin 2) (v : DWord)
  /-- R122: Writing CH_CLOSE closes a send end; the reservation is released once all messages are handled. -/
  | chClose (g : Fin 320) (core : Fin 2) (v : DWord)
  /-- R130: SYNC.WAIT returns once the object's count reaches the target. -/
  | syncWait (g : Fin 320) (core : Fin 2) (rd rs1 rs2 : Fin 32)
  /-- R130: SYNC.WAITANY waits on up to 8 objects and returns the lowest satisfied index. -/
  | syncWaitany (g : Fin 320) (core : Fin 2) (rd rs1 rs2 : Fin 32)
  /-- R130: SYNC.SIGNAL adds to an object's count and wakes satisfied waiters. -/
  | syncSignal (g : Fin 320) (core : Fin 2) (rs1 rs2 : Fin 32)
  /-- R130: SYNC.ARM sets an object's count and wakes satisfied waiters. -/
  | syncArm (g : Fin 320) (core : Fin 2) (rs1 rs2 : Fin 32)
  /-- R133: A wait beyond SYNC_WAIT_TIMEOUT returns −7 and writes a TIMEOUT record. -/
  | syncWaitTimeout (g : Fin 320) (core : Fin 2)
  /-- R69: TOP.ISSUE places a tile-op descriptor in an engine's issue queue. -/
  | topIssue (g : Fin 320) (core : Fin 2) (rd rs1 rs2 : Fin 32)
  /-- R70: TOP.POLL pops the next completion word of an engine. -/
  | topPoll (g : Fin 320) (core : Fin 2) (rd rs1 : Fin 32)
  /-- R73: TESS.EPOCH returns the epoch, catalogue record and descriptor fields of TESS_STATE. -/
  | tessEpoch (g : Fin 320) (core : Fin 2) (rd : Fin 32)
  /-- R66: An engine takes a tile op from its queue, checks it and starts its array phase. -/
  | tileOpStart (g : Fin 320) (e : Fin 4) (bad : Option Word)
  /-- R70: A tile op's checks pass, outputs are released and its completion word is delivered. -/
  | tileOpComplete (g : Fin 320) (e : Fin 4) (chk : TileCheck)
  /-- R60: Bank ADD adds source lines into destination lines. -/
  | bankAdd (g : Fin 320) (post : Option (BitVec 256)) (bad : Option Word)
  /-- R60: Bank MAX writes the maximum of destination and source. -/
  | bankMax (g : Fin 320) (post : Option (BitVec 256)) (bad : Option Word)
  /-- R60: Bank SCALE multiplies lines by a factor or adjusts MX scales. -/
  | bankScale (g : Fin 320) (post : Option (BitVec 256)) (bad : Option Word)
  /-- R60: Bank CONVERT converts a source run to the destination format. -/
  | bankConvert (g : Fin 320) (post : Option (BitVec 256)) (bad : Option Word)
  /-- R60: Bank APEX recomputes apex words and sets the tag of destination lines. -/
  | bankApex (g : Fin 320) (post : Option (BitVec 256)) (bad : Option Word)
  /-- R60: Bank ZERO writes zeros and sets the tag. -/
  | bankZero (g : Fin 320) (post : Option (BitVec 256)) (bad : Option Word)
  /-- R61: A bank operation completes with its completion word and optional signal. -/
  | bankOpComplete (g : Fin 320)
  /-- R63: A cache bay writes back every line dirty at command start. -/
  | bayFlush (g : Fin 320) (bay : Fin 24) (by_ : CacheIssuer)
  /-- R63: A cache bay discards every line. -/
  | bayInvalidate (g : Fin 320) (bay : Fin 24) (by_ : CacheIssuer)
  /-- R63: A cache bay flushes and then invalidates. -/
  | bayFlushInvalidate (g : Fin 320) (bay : Fin 24) (by_ : CacheIssuer)
  /-- R64: Fill data arrives from DRAM and is installed, poisoned when uncorrectable. -/
  | cacheFill (g : Fin 320) (line : Nat) (dec : Decoded)
  /-- R64: A DRAM read or write-back unanswered in 100 µs raises TIMEOUT. -/
  | cacheDramTimeout (g : Fin 320) (line : Nat)
  /-- R65: A bay mode change request sets busy and starts the change sequence. -/
  | bayModeChange (g : Fin 320) (bay : Fin 24) (toCache : Bool)
  /-- R65: After drain, write-back and zero fill, the bay's mode flips and completion is signalled. -/
  | bayModeChangeDone (g : Fin 320) (bay : Fin 24)
  /-- R72: Vector ADD. -/
  | vecAdd (g : Fin 320) (v : Fin 2) (bad : Option Word)
  /-- R72: Vector SUB. -/
  | vecSub (g : Fin 320) (v : Fin 2) (bad : Option Word)
  /-- R72: Vector MUL. -/
  | vecMul (g : Fin 320) (v : Fin 2) (bad : Option Word)
  /-- R72: Vector FMA with one rounding. -/
  | vecFma (g : Fin 320) (v : Fin 2) (bad : Option Word)
  /-- R72: Vector element-wise maximum. -/
  | vecMax (g : Fin 320) (v : Fin 2) (bad : Option Word)
  /-- R72: Vector element-wise minimum. -/
  | vecMin (g : Fin 320) (v : Fin 2) (bad : Option Word)
  /-- R72: Vector ABS. -/
  | vecAbs (g : Fin 320) (v : Fin 2) (bad : Option Word)
  /-- R72: Vector NEG. -/
  | vecNeg (g : Fin 320) (v : Fin 2) (bad : Option Word)
  /-- R72: Vector RECIP. -/
  | vecRecip (g : Fin 320) (v : Fin 2) (bad : Option Word)
  /-- R72: Vector RSQRT. -/
  | vecRsqrt (g : Fin 320) (v : Fin 2) (bad : Option Word)
  /-- R72: Vector SQRT. -/
  | vecSqrt (g : Fin 320) (v : Fin 2) (bad : Option Word)
  /-- R72: Vector LDEXP. -/
  | vecLdexp (g : Fin 320) (v : Fin 2) (bad : Option Word)
  /-- R72: Vector CMP_EQ. -/
  | vecCmpEq (g : Fin 320) (v : Fin 2) (bad : Option Word)
  /-- R72: Vector CMP_LT. -/
  | vecCmpLt (g : Fin 320) (v : Fin 2) (bad : Option Word)
  /-- R72: Vector CMP_LE. -/
  | vecCmpLe (g : Fin 320) (v : Fin 2) (bad : Option Word)
  /-- R72: Vector SELECT. -/
  | vecSelect (g : Fin 320) (v : Fin 2) (bad : Option Word)
  /-- R72: Vector CONVERT, including stochastic rounding. -/
  | vecConvert (g : Fin 320) (v : Fin 2) (bad : Option Word)
  /-- R72: Vector EXP. -/
  | vecExp (g : Fin 320) (v : Fin 2) (bad : Option Word)
  /-- R72: Vector LOG. -/
  | vecLog (g : Fin 320) (v : Fin 2) (bad : Option Word)
  /-- R72: Vector SIGMOID. -/
  | vecSigmoid (g : Fin 320) (v : Fin 2) (bad : Option Word)
  /-- R72: Vector TANH. -/
  | vecTanh (g : Fin 320) (v : Fin 2) (bad : Option Word)
  /-- R72: Vector GELU. -/
  | vecGelu (g : Fin 320) (v : Fin 2) (bad : Option Word)
  /-- R72: Vector SILU. -/
  | vecSilu (g : Fin 320) (v : Fin 2) (bad : Option Word)
  /-- R72: Vector STATS: per-segment grid sum and sum of squares. -/
  | vecStats (g : Fin 320) (v : Fin 2) (bad : Option Word)
  /-- R72: Per-segment grid sum from a lagoon source. -/
  | redSum (g : Fin 320) (v : Fin 2) (bad : Option Word)
  /-- R72: Per-segment grid sum of squares. -/
  | redSumsq (g : Fin 320) (v : Fin 2) (bad : Option Word)
  /-- R72: Per-segment grid dot product. -/
  | redDot (g : Fin 320) (v : Fin 2) (bad : Option Word)
  /-- R72: Per-segment maximum. -/
  | redMax (g : Fin 320) (v : Fin 2) (bad : Option Word)
  /-- R72: Per-segment minimum. -/
  | redMin (g : Fin 320) (v : Fin 2) (bad : Option Word)
  /-- R72: Per-segment index of the largest element. -/
  | redArgmax (g : Fin 320) (v : Fin 2) (bad : Option Word)
  /-- R252: A vector output line passes its residue check and is written. -/
  | vecLineRelease (g : Fin 320) (v : Fin 2) (residueOk : Bool)
  /-- R72: A vector operation completes with its completion word. -/
  | vectorOpComplete (g : Fin 320) (v : Fin 2)
  /-- R77: Sequencer NOP. -/
  | seqNop (g : Fin 320) (u : Fin 6) (chk : CompareOutcome)
  /-- R79: Sequencer ISSUE adjusts a template and issues it to the engine or bank port. -/
  | seqIssue (g : Fin 320) (u : Fin 6) (chk : CompareOutcome)
  /-- R78: Sequencer LOOP resets a counter and sets its limit. -/
  | seqLoop (g : Fin 320) (u : Fin 6) (chk : CompareOutcome)
  /-- R78: Sequencer ENDLOOP increments and branches or falls through. -/
  | seqEndloop (g : Fin 320) (u : Fin 6) (chk : CompareOutcome)
  /-- R77: Sequencer JUMP. -/
  | seqJump (g : Fin 320) (u : Fin 6) (chk : CompareOutcome)
  /-- R77: Sequencer BRSEL branches on the select register or halts with BRSEL_RANGE. -/
  | seqBrsel (g : Fin 320) (u : Fin 6) (chk : CompareOutcome)
  /-- R83: Sequencer TAKE applies a program token from a queue head. -/
  | seqTake (g : Fin 320) (u : Fin 6) (chk : CompareOutcome)
  /-- R85: Sequencer EMIT sends a token on an output port under the current epoch. -/
  | seqEmit (g : Fin 320) (u : Fin 6) (chk : CompareOutcome)
  /-- R130: Sequencer SIGNAL signals an atoll sync object. -/
  | seqSignal (g : Fin 320) (u : Fin 6) (chk : CompareOutcome)
  /-- R130: Sequencer WAIT waits for a sync object count. -/
  | seqWait (g : Fin 320) (u : Fin 6) (chk : CompareOutcome)
  /-- R77: Sequencer CACHE issues a bay cache command. -/
  | seqCache (g : Fin 320) (u : Fin 6) (chk : CompareOutcome)
  /-- R77: Sequencer OPWAIT waits for all its operations to complete. -/
  | seqOpwait (g : Fin 320) (u : Fin 6) (chk : CompareOutcome)
  /-- R77: Sequencer HALT sets the state HALTED. -/
  | seqHalt (g : Fin 320) (u : Fin 6) (chk : CompareOutcome)
  /-- R80: A completion word reaches the sequencer and is handled per Table 4-4. -/
  | seqCompletion (g : Fin 320) (u : Fin 6)
  /-- R102: An entry arriving on a lane or from own units is epoch-tested and queued, spilled, passed through or
  discarded. -/
  | laneEntryArrival (g : Fin 320) (src : EntrySource)
  /-- R102: An entry held for the next epoch is retested after 2 µs and discarded if still held. -/
  | epochHoldExpiry (g : Fin 320) (src : EntrySource)
  /-- R83: An EPOCH or HALT token reaching the queue head closes the queue or halts the consumer. -/
  | queueHeadToken (g : Fin 320) (q : Fin 32)
  /-- R92: A spill region refills the queue as space frees. -/
  | spillRefill (g : Fin 320) (q : Fin 32)
  /-- R88: A lane credit is returned when an entry leaves the input stage. -/
  | laneCreditReturn (g : Fin 320) (lane : Fin 8)
  /-- R93: The join watchdog exceeds JOIN_WATCHDOG and halts the join's sequencer. -/
  | joinStarve (g : Fin 320) (v : Fin 2)
  /-- R100: A validated reconfiguration is dispatched once its epoch value is at least 4 µs old. -/
  | reconfDispatch (p : Fin 32)
  /-- R104: RECONF reaches an atoll, which drains or flushes its old tessellation. -/
  | reconfArrival (g : Fin 320)
  /-- R105: A draining atoll reports QUIESCENT once all quiescence conditions hold. -/
  | quiescentReport (g : Fin 320)
  /-- R105: An atoll receives CHECK, stops issuing and answers with its activity flag. -/
  | check (g : Fin 320)
  /-- R105: The stream processor collects answers and proceeds to installation or restarts reporting. -/
  | checkAnswer (p : Fin 32)
  /-- R106: DRAIN_TIMEOUT passes, records are written and atolls complete in flush mode. -/
  | drainTimeout (p : Fin 32)
  /-- R104: An atoll sends EPOCH tokens, loads and checks the descriptor and sets up its tessellation. -/
  | descriptorInstall (g : Fin 320) (bad : Option Nat)
  /-- R104: The stream processor collects READY from barrier atolls and broadcasts GO after the last. -/
  | ready (p : Fin 32) (g : Fin 320)
  /-- R104: A HELD atoll receives GO and fires its first operation. -/
  | go (g : Fin 320)
  /-- R158: A scalar store to offset 0x38 posts a memory command to the atoll's DMA port. -/
  | dmaPortPost (g : Fin 320) (core : Fin 2) (v : DWord)
  /-- R161: A load from 0x0000_A000_0040 pops the atoll's memory completion queue. -/
  | dmaCompletionPop (g : Fin 320) (core : Fin 2) (rd : Fin 32)
  /-- R159: DMA COPY moves rows between module physical addresses. -/
  | dmaCopy (h : Fin 16) (u : Fin 4) (bad : Option Nat)
  /-- R159: DMA REMOTE_WRITE sends rows to a remote module's window. -/
  | dmaRemoteWrite (h : Fin 16) (u : Fin 4) (bad : Option Nat)
  /-- R162: Stream unit GATHER copies indexed rows. -/
  | gather (h : Fin 16) (u : Fin 4) (bad : Option Nat)
  /-- R162: Stream unit SCATTER writes rows to indexed positions. -/
  | scatter (h : Fin 16) (u : Fin 4) (bad : Option Nat)
  /-- R163: Stream unit REDUCE_SUM sums rows on the apex grid. -/
  | reduceSum (h : Fin 16) (u : Fin 4) (bad : Option Nat)
  /-- R162: Stream unit MX_COMPRESS converts rows to MX. -/
  | mxCompress (h : Fin 16) (u : Fin 4) (bad : Option Nat)
  /-- R162: Stream unit MX_DECOMPRESS converts MX rows to plain elements. -/
  | mxDecompress (h : Fin 16) (u : Fin 4) (bad : Option Nat)
  /-- R163: Stream unit FACTOR_STATS computes row and column statistics. -/
  | factorStats (h : Fin 16) (u : Fin 4) (bad : Option Nat)
  /-- R161: A memory command completes and its word goes to the atoll queue or stream processor. -/
  | memoryCommandComplete (h : Fin 16) (u : Fin 4) (residueOk : Bool)
  /-- R160: A memory command making no progress for DMA_TIMEOUT ends with TIMEOUT. -/
  | dmaTimeout (h : Fin 16) (u : Fin 4)
  /-- R152: The scrubber reads and decodes a DRAM word within DRAM_SCRUB_PERIOD. -/
  | dramScrub (ch : Fin 128) (word : Nat) (dec : Decoded)
  /-- R152: The scrubber reads and decodes a lagoon or staging word in an idle bank cycle. -/
  | lagoonScrub (w : SramWord) (dec : Decoded)
  /-- R152: A bank with no idle cycle for 1,024 cycles gives one to the scrubber. -/
  | scrubForcedCycle (w : SramWord) (dec : Decoded)
  /-- R155: BANK_POWER powers a staging bank down or up. -/
  | bankPower (m : Fin 34)
  /-- R155: A draining bank switches off once accepted requests complete. -/
  | bankDrainDone (h : Fin 16) (b : Fin 16)
  /-- R155: Requests still open 10 µs into the drain end with TIMEOUT. -/
  | bankDrainTimeout (h : Fin 16) (b : Fin 16)
  /-- R156: A request to an OFF bank ends with BANK_OFF and is counted. -/
  | bankOffRequest (h : Fin 16) (b : Fin 16)
  /-- R157: After a ledger grant the bank is zero-filled and turns ON. -/
  | bankPowerUpDone (h : Fin 16) (b : Fin 16)
  /-- R164: WINDOW_OPEN opens a window for remote writes. -/
  | windowOpen (m : Fin 34)
  /-- R166: WINDOW_CLOSE clears open and advances the generation in all table copies. -/
  | windowClose (m : Fin 34)
  /-- R166: A close completes once accepted packets are written. -/
  | windowCloseComplete (w : Fin 1024)
  /-- R164: WINDOW_QUERY returns a window entry. -/
  | windowQuery (m : Fin 34)
  /-- R165: A REMOTE_WRITE packet is checked against the window table and written or dropped. -/
  | remoteWriteArrival (x : Fin 6)
  /-- R168: A trigger starts retirement of an LPDDR5X channel. -/
  | channelRetirementStart (ch : Fin 128) (cause : RetireCause)
  /-- R169: One 4 KiB page is copied with correction to a spare slice and remapped. -/
  | retirementPageMove (badWords : List Nat) (unreadable : Bool)
  /-- R169: All pages moved; the controller is fenced and the channel is RETIRED. -/
  | channelRetirementDone
  /-- R168: Service command CHANNEL_RETIRE requests retirement of a channel. -/
  | channelRetire (m : Fin 34)
  /-- R177: A router accepts a mesh packet and forwards it along its deterministic route. -/
  | meshPacket (d : Fin 8) (x : Fin 10) (y : Fin 4) (ev : MeshEvent)
  /-- R180: Sixteen failed replays retrain the link. -/
  | linkRetrain (l : OnDieLink)
  /-- R180: A retraining ends; a crossing that failed is fenced and traffic reroutes. -/
  | linkRetrainDone (l : OnDieLink) (ok : Bool)
  /-- R186: A causeway node receives a message and forwards, delivers or discards it. -/
  | causewayMessage (node : Fin 32) (header : Word) (payload : List Word) (crcOk : Bool)
  /-- R184: The active hub rewrites causeway route tables after a link fence. -/
  | causewayRouteRewrite
  /-- R187: A die switches from OSC0 to OSC1 after OSC0 stops or departs. -/
  | oscFailover (node : Fin 32)
  /-- R187: Both oscillators fail and the sequencer asserts FAULT_N. -/
  | oscillatorsLost
  /-- R189: A half's mesh clock changes step. -/
  | meshClockStep (d : Fin 8) (half : Fin 2) (step : BitVec 4)
  /-- R190: A region stops, retunes and restarts its arithmetic clock at a new step. -/
  | arithmeticStepChange (d : Fin 8) (r : Fin 10)
  /-- R190: An atoll's gated arithmetic clock ungates when given a position or patrol. -/
  | arithmeticUngate (g : Fin 320)
  /-- R196: A fabric codeword is decoded and accepted, or discarded with a nak. -/
  | codewordReceive (l : Fin 96) (cw : Codeword)
  /-- R196: The oldest unacknowledged codeword waits too long and is replayed. -/
  | replayTimeout (l : Fin 96)
  /-- R197: LINK_RETRY_LIMIT retries in one millisecond retrain a lane. -/
  | linkRetryLimit (l : Fin 96)
  /-- R197: A VC without credit for 10 ms retrains both lanes. -/
  | linkCreditTimeout (l : Fin 96)
  /-- R197: A lane loses signal or block lock and retrains. -/
  | laneSignalLoss (l : Fin 96) (lane : Fin 2)
  /-- R197: A lane retraining ends; a failing lane is fenced and the link narrows or goes DOWN. -/
  | laneRetrainDone (l : Fin 96) (lane : Fin 2) (ok : Bool)
  /-- R198: Bring-up link training ends with the link at width 2, width 1 or DOWN. -/
  | linkTraining (l : Fin 96) (lane0 lane1 : Bool)
  /-- R204: A link sends LINK_CONTROL at least every 100 µs or on change. -/
  | linkControlSend (l : Fin 96)
  /-- R204: A received LINK_CONTROL updates peer state, usability and format match. -/
  | linkControl (l : Fin 96)
  /-- R211: A strait die routes an arriving packet locally, onto a link or discards it. -/
  | fabricPacketArrival (x : Fin 6)
  /-- R206: A message incomplete 100 µs after its first cell is discarded. -/
  | reassemblyTimeout (x : Fin 6)
  /-- R207: A sender receives an ACK for a sequenced message. -/
  | ack (x : Fin 6)
  /-- R207: No ACK within FABRIC_ACK_TIMEOUT: resend, or end with TIMEOUT after the retries. -/
  | fabricAckTimeout (x : Fin 6)
  /-- R132: A scope-3 SYNC_SIGNAL is applied to a module-level object or dropped. -/
  | syncSignalArrival (x : Fin 6)
  /-- R216: A multicast branch without allowance for MCAST_TIMEOUT is dropped. -/
  | mcastBranchTimeout (l : Fin 96)
  /-- R217: A multicast message closes, missing targets get unicast copies and the completion record is written. -/
  | mcastClose (x : Fin 6)
  /-- R218: A strait die writes a congestion map or port counter record. -/
  | telemetrySample (x : Fin 6) (port : Fin 18) (meas : PortSample)
  /-- R222: A queued collective starts when fewer than 8 run. -/
  | collectiveStart
  /-- R228: Collective REDUCE_SCATTER. -/
  | reduceScatter (k : CollKey)
  /-- R228: Collective ALL_REDUCE. -/
  | allReduce (k : CollKey)
  /-- R227: Collective ALL_GATHER. -/
  | allGather (k : CollKey)
  /-- R239: Collective REDUCE_UPDATE applies the update rule to the owned shard. -/
  | reduceUpdate (k : CollKey)
  /-- R243: Collective REDUCE_UPDATE_GATHER updates and gathers the working weights. -/
  | reduceUpdateGather (k : CollKey)
  /-- R244: LOCAL_UPDATE runs the update rule on the shoal update engines. -/
  | localUpdate (k : CollKey) (bad : Option Nat)
  /-- R247: DENSITY_PROFILE computes row and column statistics over strips. -/
  | densityProfile (k : CollKey) (bad : Option Nat)
  /-- R228: An owner combines an arriving COLL_APEX and sends GRANT after all members. -/
  | collApex (x : Fin 6)
  /-- R230: An owner receives JOIN and may send its gather shard. -/
  | collJoin (x : Fin 6)
  /-- R228: A member receives GRANT and sends its chunk data. -/
  | collGrant (x : Fin 6)
  /-- R229: A member receives DONE and advances its chunk window. -/
  | collDone (x : Fin 6)
  /-- R228: COLL_DATA is accumulated, or written for gathers; a complete chunk is rounded and written. -/
  | collData (x : Fin 6) (residueOk : Bool)
  /-- R232: An early packet held for COLL_TIMEOUT is discarded. -/
  | earlyPoolExpiry (x : Fin 6)
  /-- R234: A collective making no progress for COLL_TIMEOUT ends with TIMEOUT. -/
  | collTimeout (k : CollKey)
  /-- R253: An engine idle 64 cycles runs a known-answer micro-test. -/
  | gapPatrolMicrotest (unit : Word) (test : Fin 16) (r : PatrolResult)
  /-- R253: Running short of period time, an engine pauses its queue for one micro-test. -/
  | gapPatrolForcedSlot (unit : Word) (test : Fin 16) (r : PatrolResult)
  /-- R254: A site is scheduled for its full known-answer suite. -/
  | fullPatrol (g : Fin 320)
  /-- R255: The suite ends at the region's step and at the raised clock. -/
  | fullPatrolComplete (g : Fin 320) (atStep raised : PatrolResult)
  /-- R264: A spare is chosen and pre-copy with write mirroring begins. -/
  | migrationStart (p : Fin 32) (pos : Fin 256)
  /-- R264: After pre-copy the position freezes, final state is copied and maps switch. -/
  | migrationCutOver (p : Fin 32) (pos : Fin 256)
  /-- R260: A fence entry is written to the identity store within 1 s. -/
  | fenceMapWrite
  /-- R265: A fence notice aborts the step, reinstalls descriptors and re-places fenced positions. -/
  | stepRollback (p : Fin 32)
  /-- R265: Once every atoll is HELD, GO is sent and streams restart at STEP_BEGIN. -/
  | rollbackRestart (p : Fin 32)
  /-- R270: A die's collector sends a record to the hub log over causeway class 2. -/
  | faultCollectorDrain (node : Fin 32)
  /-- R271: When ring space frees, a coalesce entry leaves as its first and last records. -/
  | coalesceRelease (node : Fin 32)
  /-- R272: Wear scores are recomputed every 60 s. -/
  | wearScoreUpdate
  /-- R273: Scores are checkpointed to the identity store every 60 minutes. -/
  | wearCheckpoint
  /-- R284: A tile op not done in 64 µs fences the engine. -/
  | matrixEngineWatchdog (g : Fin 320) (e : Fin 4)
  /-- R284: A vector or bank operation without progress for 64 µs fences the unit. -/
  | vectorEngineWatchdog (g : Fin 320) (w : Fin 3)
  /-- R284: No retire for 1 ms fences the atoll and rolls back the step. -/
  | scalarWatchdog (g : Fin 320) (core : Fin 2)
  /-- R284: A sequencer in WAIT_SYNC for SEQ_WAIT_WATCHDOG rolls back the step. -/
  | seqWaitWatchdog (g : Fin 320) (u : Fin 6)
  /-- R284: A stream unit, update engine or network interface stuck 10 ms is fenced. -/
  | blockWatchdog (unit : Word)
  /-- R285: A manager core sends its 1 ms heartbeat to the active hub. -/
  | managerHeartbeat (node : Fin 32)
  /-- R285: Three missed heartbeats fence the manager core and the hub takes over the die. -/
  | heartbeatMiss (node : Fin 32)
  /-- R286: A hub sends its liveness message every 100 µs. -/
  | hubLiveness (h : Fin 2)
  /-- R286: A hub watchdog not restarted within HUB_WATCHDOG expires. -/
  | hubWatchdog (h : Fin 2)
  /-- R286: The standby declares the active hub failed and takes over. -/
  | hubFailover
  /-- R287: No hub liveness for 3 ms: strait die floods aborts and asserts module reset. -/
  | bothHubsLost
  /-- R291: The active hub updates the heartbeat word every 1 ms. -/
  | heartbeatWordUpdate
  /-- R292: The active hub posts the status report every 10 ms. -/
  | statusReport
  /-- R295: A new flood is filtered, forwarded on usable links and its partitions reset. -/
  | abortFlood (x : Fin 6)
  /-- R293: JOB_ABORT sends a flood and resets local partitions with the tag. -/
  | jobAbort (m : Fin 34)
  /-- R296: DUMP takes a crash dump of unit state. -/
  | dump (m : Fin 34)
  /-- R297: A unit not answering within DUMP_UNIT_TIMEOUT is skipped. -/
  | dumpUnitTimeout
  /-- R298: DUMP_READ copies dump bytes to host memory. -/
  | dumpRead (m : Fin 34)
  /-- R298: DUMP_RELEASE marks the dump read. -/
  | dumpRelease (m : Fin 34)
  /-- R277: RESET_UNIT resets a core or engine. -/
  | resetUnit (m : Fin 34)
  /-- R278: RESET_ATOLL runs the atoll reset of Table 11-2. -/
  | resetAtoll (m : Fin 34)
  /-- R278: Outbound drain ends, open work is abandoned and the atoll state is cleared. -/
  | atollDrainTimeout (g : Fin 320)
  /-- R279: An atoll not stopped 50 µs into a step abort is reset by Icrax. -/
  | stepAbortStall (g : Fin 320)
  /-- R280: RESET_PARTITION starts a partition reset. -/
  | resetPartition (m : Fin 34)
  /-- R280: After atoll resets, windows, channels, objects and collectives are cleared and the reset completes. -/
  | partitionResetDone (p : Fin 32)
  /-- R316: RESET_MODULE starts module reset 100 µs after completing. -/
  | resetModule (m : Fin 34)
  /-- R281: Module reset begins and runs the module-reset timeline. -/
  | moduleReset (tests : BringUp)
  /-- R260: FENCE_CLEAR removes a non-factory fence entry. -/
  | fenceClear (m : Fin 34)
  /-- R319: UNIT_FENCE fences a unit by service command. -/
  | unitFence (m : Fin 34)
  /-- R290: SERVICE_CLEAR ends out of service and resets the module. -/
  | serviceClear (m : Fin 34)
  /-- R319: DIAG_RUN runs bring-up known-answer tests on a unit. -/
  | diagRun (m : Fin 34) (fail : Option Word)
  /-- R309: A doorbell write copies the slots named, sets busy and starts their commands. -/
  | mbDoorbell (m : Fin 33) (slots : BitVec 8)
  /-- R308: The host advances the completion ring head. -/
  | mbCqHead (m : Fin 33) (head : DWord)
  /-- R308: The host advances the event ring head. -/
  | mbEqHead (m : Fin 33) (head : DWord)
  /-- R311: A finished command's completion is posted once the ring has room. -/
  | completionPost (m : Fin 34)
  /-- R317: The hub posts an event into an event ring. -/
  | eventPost
  /-- R320: QUERY returns status and counts. -/
  | query (m : Fin 34)
  /-- R321: GET_PARAM reads a parameter. -/
  | getParam (m : Fin 34)
  /-- R321: SET_PARAM writes a parameter. -/
  | setParam (m : Fin 34)
  /-- R413: CORRELATE latches two local counts for clock correlation. -/
  | correlate (m : Fin 34)
  /-- R319: LOG_READ returns hub log records. -/
  | logRead (m : Fin 34)
  /-- R319: FENCE_MAP_READ returns fence map entries. -/
  | fenceMapRead (m : Fin 34)
  /-- R319: SUSPECT_READ returns a suspect report. -/
  | suspectRead (m : Fin 34)
  /-- R319: TELEMETRY_READ returns telemetry records. -/
  | telemetryRead (m : Fin 34)
  /-- R319: WEAR_READ returns wear scores. -/
  | wearRead (m : Fin 34)
  /-- R319: LINK_STATE_READ returns a strait die's LINK_STATE registers. -/
  | linkStateRead (m : Fin 34)
  /-- R361: MODULE_ID_SET assigns the module ID on all strait dies. -/
  | moduleIdSet (m : Fin 34)
  /-- R210: ROUTE_WRITE writes route table entries atomically. -/
  | routeWrite (m : Fin 34)
  /-- R215: MCAST_WRITE writes a multicast group entry. -/
  | mcastWrite (m : Fin 34)
  /-- R220: LINK_CONFIG_WRITE sets a link's group, dateline and enable. -/
  | linkConfigWrite (m : Fin 34)
  /-- R305: A host CXL.mem read of HDM, tracked by the snoop filter. -/
  | hostMemRead (addr : Nat) (cache : HostCacheUse) (dec : Decoded)
  /-- R303: A host CXL.mem write of HDM. -/
  | hostMemWrite (addr : Nat) (data : List Byte)
  /-- R305: A BIRsp arrives and releases the waiting access. -/
  | birsp (line : Nat)
  /-- R305: No BIRsp within HOST_BI_TIMEOUT ends the access with TIMEOUT. -/
  | hostBiTimeout (line : Nat)
  /-- R306: The hub answers an H2D snoop with RspIHitI. -/
  | h2dSnoop (addr : Nat)
  /-- R302: PERST# resets the CXL controller, configuration space and mailbox state. -/
  | perst (level : Bool)
  /-- R326: PARTITION_CREATE creates a partition and places its positions. -/
  | partitionCreate (m : Fin 34)
  /-- R327: PARTITION_RESIZE changes a partition's height and resources. -/
  | partitionResize (m : Fin 34)
  /-- R328: PARTITION_DESTROY resets and releases a partition. -/
  | partitionDestroy (m : Fin 34)
  /-- R332: STREAM_OPEN opens a command stream. -/
  | streamOpen (m : Fin 34)
  /-- R319: STREAM_CLOSE stops fetching and completes when started commands finish. -/
  | streamClose (m : Fin 34)
  /-- R344: STREAM_RESUME restarts a stopped stream at an index. -/
  | streamResume (m : Fin 34)
  /-- R330: DIRECTORY_WRITE writes directory entries, copying descriptors into the catalogue region. -/
  | directoryWrite (m : Fin 34) (bad : Option Nat)
  /-- R97: RECORD_WRITE writes a catalogue record. -/
  | recordWrite (m : Fin 34)
  /-- R97: LIST_WRITE writes position pairs into list memory. -/
  | listWrite (m : Fin 34)
  /-- R331: A catalogue write held by a reconfiguration in progress writes once it ends. -/
  | catalogueWriteRelease
  /-- R325: SYNC_ALLOC allocates module-level objects. -/
  | syncAlloc (m : Fin 34)
  /-- R325: SYNC_FREE frees module-level objects. -/
  | syncFree (m : Fin 34)
  /-- R334: The stream processor fetches the next ring entry. -/
  | streamFetch (p : Fin 32) (st : Fin 4) (ok : Bool)
  /-- R334: An invalid entry is polled again every STREAM_POLL_INTERVAL. -/
  | streamPoll (p : Fin 32) (st : Fin 4) (ok : Bool)
  /-- R335: The stream processor writes the status line. -/
  | streamStatusWrite (p : Fin 32) (st : Fin 4)
  /-- R337: A fetched command whose conditions hold is dispatched. -/
  | streamCommandStart (p : Fin 32) (st : Fin 4)
  /-- R338: STEP_BEGIN records the step-start state and opens the step. -/
  | stepBegin (p : Fin 32) (st : Fin 4)
  /-- R339: STEP_COMMIT closes the step and retires its collectives. -/
  | stepCommit (p : Fin 32) (st : Fin 4)
  /-- R98: RECONFIGURE validates and installs one descriptor on a position. -/
  | reconfigure (p : Fin 32) (st : Fin 4)
  /-- R98: CATALOGUE_SWITCH validates a record and installs its descriptors. -/
  | catalogueSwitch (p : Fin 32) (st : Fin 4)
  /-- R336: TILE_BATCH issues a list of tile ops to an atoll's engines. -/
  | tileBatch (p : Fin 32) (st : Fin 4)
  /-- R336: BARRIER completes when earlier commands of the named streams complete. -/
  | barrier (p : Fin 32) (st : Fin 4)
  /-- R336: Stream SYNC ARM sets a module-level object's count. -/
  | streamSyncArm (p : Fin 32) (st : Fin 4)
  /-- R336: Stream SYNC SIGNAL signals an object. -/
  | streamSyncSignal (p : Fin 32) (st : Fin 4)
  /-- R336: Stream SYNC WAIT waits for an object count. -/
  | streamSyncWait (p : Fin 32) (st : Fin 4)
  /-- R238: UPDATE_PARAM writes an update parameter record to every update engine. -/
  | updateParam (p : Fin 32) (st : Fin 4)
  /-- R336: FENCE_QUERY writes the fence query record. -/
  | fenceQuery (p : Fin 32) (st : Fin 4)
  /-- R336: MARKER writes a marker record. -/
  | marker (p : Fin 32) (st : Fin 4)
  /-- R348: Input above 40 V starts the power sequencer and the power-on timeline. -/
  | powerOn (tests : BringUp)
  /-- R352: A core checks a broadcast firmware block and starts a complete sealed image. -/
  | firmwareBlockReceive (core : FwCore) (last : Bool) (crcOk sealOk : Bool)
  /-- R356: At the end of a timeline the health map decides ready, holding or out of service. -/
  | bringupStateDecision
  /-- R390: The active hub rewrites a standby running another version and restarts it. -/
  | standbyImageSync
  /-- R368: A regulator phase is lost, fenced and its region may derate or go dark. -/
  | phaseLoss (node : Fin 32) (r : Fin 13) (phase : Fin 9)
  /-- R369: A derated isle region over 6.0 A for 1 ms lowers its step ceiling. -/
  | regionCurrentDerate (d : Fin 8) (r : Fin 10) (milliamps : Half)
  /-- R373: A region requests a higher reservation from the current ledger. -/
  | ledgerRequest (node : Fin 32) (r : Fin 13) (target : LedgerTarget)
  /-- R373: The ledger grants the head request when budget, ramp and neighbour conditions hold. -/
  | ledgerGrant
  /-- R373: After LEDGER_NEIGHBOUR_WAIT, neighbours are capped at 75 % duty and the head is granted. -/
  | ledgerNeighbourWait
  /-- R374: A ramping region advances to its next issue-duty stage. -/
  | rampStage (node : Fin 32) (r : Fin 13)
  /-- R377: Measured input power is compared with the budget and issue duty adjusted. -/
  | inputPowerCheck (deciwatts : Half) (below10ms : Bool)
  /-- R379: Junction sensors are read and thermal actions applied or reversed. -/
  | thermalSample (node : Fin 32) (r : Fin 13) (eighths : BitVec 12) (cool10ms : Bool)
  /-- R379: 105 °C for 100 ms with all actions applied takes the fatal path. -/
  | thermal (node : Fin 32) (r : Fin 13)
  /-- R380: A sensor at 115 °C makes the sequencer switch off and latch. -/
  | thermalTrip
  /-- R381: Three candidate windows of rising path resistance raise DROOP_SIGNATURE. -/
  | droopSignature (node : Fin 32) (r : Fin 13) (before after : Word)
  /-- R382: A bus converter is lost and the ledger lowers reservations. -/
  | busConverterLoss (c : Fin 5)
  /-- R383: Icrax samples ageing monitors every 60 s. -/
  | ageingSample (node : Fin 32) (r : Fin 13) (slack : Nat)
  /-- R383: Each region's set point is re-planned from its lowest slack. -/
  | ageingReplan
  /-- R394: A core accepts a seal key load from the active hub. -/
  | sealKeyLoad (core : FwCore) (source : Fin 32) (roleBit : Bool) (key : BitVec 256)
  /-- R396: FW_STAGE writes image bytes into inactive slots and verifies on last. -/
  | fwStage (m : Fin 34)
  /-- R398: FW_ACTIVATE mode 0 runs the hub handover. -/
  | fwActivateHitless (m : Fin 34)
  /-- R397: FW_ACTIVATE mode 1 names the staged slot and resets the module. -/
  | fwActivateReset (m : Fin 34)
  /-- R397: FW_ACTIVATE mode 2 names the staged slot only. -/
  | fwActivateDeferred (m : Fin 34)
  /-- R397: FW_ACTIVATE mode 3 blows fuses to raise the rollback floor. -/
  | fwRaiseFloor (m : Fin 34)
  /-- R396: FW_STATUS returns firmware state. -/
  | fwStatus (m : Fin 34)
  /-- R398: After mirroring, freeze and delta transfer make the standby active. -/
  | handover
  /-- R400: At a die's quiet point the manager runtime is replaced. -/
  | managerUpdate (node : Fin 32) (resumed : Bool)
  /-- R400: A die with no quiet point within FW_QUIET_TIMEOUT is deferred. -/
  | fwQuietTimeout (node : Fin 32)
  /-- R402: SPDM GET_VERSION. -/
  | spdmGetVersion (r : SpdmRequest)
  /-- R402: SPDM GET_CAPABILITIES. -/
  | spdmGetCapabilities (r : SpdmRequest)
  /-- R402: SPDM NEGOTIATE_ALGORITHMS. -/
  | spdmNegotiateAlgorithms (r : SpdmRequest)
  /-- R402: SPDM GET_DIGESTS. -/
  | spdmGetDigests (r : SpdmRequest)
  /-- R403: SPDM GET_CERTIFICATE returns slot 0 chain. -/
  | spdmGetCertificate (r : SpdmRequest)
  /-- R402: SPDM CHALLENGE. -/
  | spdmChallenge (r : SpdmRequest)
  /-- R404: SPDM GET_MEASUREMENTS returns measurement blocks. -/
  | spdmGetMeasurements (r : SpdmRequest)
  /-- R402: SPDM KEY_EXCHANGE. -/
  | spdmKeyExchange (r : SpdmRequest)
  /-- R402: SPDM FINISH. -/
  | spdmFinish (r : SpdmRequest)
  /-- R402: SPDM HEARTBEAT. -/
  | spdmHeartbeat (r : SpdmRequest)
  /-- R402: SPDM KEY_UPDATE. -/
  | spdmKeyUpdate (r : SpdmRequest)
  /-- R402: SPDM END_SESSION. -/
  | spdmEndSession (r : SpdmRequest)
  /-- R402: SPDM CHUNK_SEND. -/
  | spdmChunkSend (r : SpdmRequest)
  /-- R402: SPDM CHUNK_GET. -/
  | spdmChunkGet (r : SpdmRequest)
  /-- R402: Any other SPDM request gets ERROR UnsupportedRequest. -/
  | spdmUnsupported (r : SpdmRequest)
  /-- R408: A vendor-defined MCTP message carries an admin-mailbox command. -/
  | mctpMailboxCommand (req : BitVec 2048)
  /-- R406: MCTP Set Endpoint ID sets the endpoint ID. -/
  | setEndpointId (eid : Byte)
  /-- R406: PLDM GetTID. -/
  | getTid
  /-- R406: PLDM SetTID. -/
  | setTid (tid : Byte)
  /-- R406: PLDM GetPLDMTypes. -/
  | getPldmTypes
  /-- R406: PLDM GetPLDMCommands. -/
  | getPldmCommands (type : Byte)
  /-- R406: PLDM GetPLDMVersion. -/
  | getPldmVersion (type : Byte)
  /-- R410: PLDM GetPDR returns sensor PDRs. -/
  | getPdr (record : Word)
  /-- R412: PLDM SetEventReceiver sets where events are sent. -/
  | setEventReceiver (enable : Bool) (addr : Byte)
  /-- R412: PLDM PollForPlatformEventMessage returns a queued event. -/
  | pollForPlatformEventMessage
  /-- R407: A PLDM firmware update command feeds the staging session. -/
  | pldmFirmwareUpdate (c : PldmFwCommand)
  /-- R407: PLDM ActivateFirmware maps to FW_ACTIVATE mode 2. -/
  | activateFirmware
  /-- R412: A queued event is sent, retried every 100 ms up to 3 times. -/
  | platformEventMessage (answered : Bool)
  /-- R410: A sensor value is refreshed and threshold events raised. -/
  | sensorRefresh (id : Nat) (v : Int)
  /-- R406: The I3C target handles a supported CCC such as SETDASA, ENTDAA or ENEC. -/
  | i3cCcc (c : I3cCcc)
  /-- R406: The target answers the SMBus Alert Response Address. -/
  | smbusAlertResponse
  /-- R438: MGMT_SCL low for 25 ms abandons the SMBus transfer. -/
  | smbusTimeout
  /-- R438: MGMT_SCL high 100 µs in a transfer abandons it. -/
  | i3cIdleTimeout
  /-- R414: A filtered FREEZE_N fall stops every domain and puts DRAM in self-refresh. -/
  | freeze (noticeFirst : Bool)
  /-- R417: TAP IDCODE instruction. -/
  | idcode
  /-- R417: TAP SAMPLE/PRELOAD instruction. -/
  | samplePreload (preload : DWord)
  /-- R417: TAP EXTEST, effective only while frozen. -/
  | extest
  /-- R417: TAP DBG_SEL selects a unit read on the debug path. -/
  | dbgSel (v : DWord)
  /-- R418: TAP DBG_DATA captures one word of the selected unit. -/
  | dbgData (answered : Bool)
  /-- R417: TAP FREEZE_STATE reads the freeze register. -/
  | freezeState
  /-- R417: TAP BYPASS, also for unlisted codes. -/
  | bypass (code : Byte)
  /-- R431: Input below turn-off for 100 µs switches every rail off. -/
  | inputUndervoltage
  /-- R431: Input above the trip for 10 µs switches off and latches. -/
  | inputOvervoltage
  /-- R440: A filtered MOD_RESET_N fall begins module reset. -/
  | modResetNFall
  /-- R440: A filtered MOD_RESET_N rise starts the waiting timeline. -/
  | modResetNRise (tests : BringUp)
  /-- R440: MOD_RESET_N low for 2 s switches off every rail and clears any latched trip. -/
  | coldResetRequest
  /-- R433: The CXL host link trains up at a rate and width, or goes down, which enables or disables CXL.mem and
  CXL.cache and stops MSI-X delivery. -/
  | hostLinkTraining (rate : HostRate) (width : Nat)
  /-- R304: The host commits or uncommits the HDM decoder in the CXL component registers, which sets the HDM range and
  blocks DRAM map changes. -/
  | hdmDecoderCommit (commit : Bool) (base size : Nat) (ways granularity : Nat)
  /-- R301: A command on the CXL primary mailbox is executed if it is one of the listed commands, or answered
  Unsupported. -/
  | cxlMailboxCommand (opcode : Half) (payload : List Byte)
  /-- R301: An IDE_KM message within a secured SPDM session programs, activates or stops CXL IDE keys. -/
  | ideKm (session : Nat) (c : IdeKm)
  /-- R318: Clearing an MSI-X function or vector mask sends the pending message and clears its pending bit, as PCI
  Express defines. -/
  | msixVectorUnmask (v : Option (Fin 67))
  /-- R64: A flush or a mode-change write-back that exceeds its 200 µs bound raises TIMEOUT and fences the bay. -/
  | bayFlushTimeout (g : Fin 320) (bay : Fin 24)
  /-- R398: A restarted hub finishes building its mirrors and becomes the warm standby, and a state-change event is
  posted. -/
  | standbyMirrorReady
  /-- R406: An MCTP message of a type other than those supported is answered with an MCTP control error. -/
  | mctpUnsupportedMessage (type : Byte)
  /-- R417: TRST_N assertion, or TMS held high, puts the TAP into test-logic reset, which selects IDCODE. -/
  | testLogicReset
  deriving DecidableEq, Repr

end Sys2Proof
end

