-- ==== Sys2Proof/Machine/Formats.lean ====
section
/-! DEFINITION. Element formats (02 R19, R20, Table 3-6), their exact values, rounding and output encodings
(02 R33-R36, Table 2-6) and the stochastic rounding bits (02 R38). All arithmetic is exact: a finite value is a sign,
a magnitude and a power of two. -/

namespace Sys2Proof.Machine

/-- The element formats of Table 3-6, codes 0x00 to 0x11. -/
inductive Fmt where
  | raw | fp32 | fp16 | bf16 | e4m3 | e5m2 | mxE4M3 | mxE5M2 | mxE3M2 | mxE2M3 | mxE2M1 | mxInt8
  | int8 | uint8 | int4 | uint4 | int32 | grid192
  deriving DecidableEq, Repr

/-- Table 3-6: the format a 5-bit code names; 0x12 to 0x1F name none. -/
def Fmt.ofCode (n : Nat) : Option Fmt :=
  [.raw, .fp32, .fp16, .bf16, .e4m3, .e5m2, .mxE4M3, .mxE5M2, .mxE3M2, .mxE2M3, .mxE2M1, .mxInt8,
   .int8, .uint8, .int4, .uint4, .int32, .grid192][n]?

/-- The code of a format (Table 3-6). -/
def Fmt.code : Fmt → Nat
  | .raw => 0 | .fp32 => 1 | .fp16 => 2 | .bf16 => 3 | .e4m3 => 4 | .e5m2 => 5 | .mxE4M3 => 6 | .mxE5M2 => 7
  | .mxE3M2 => 8 | .mxE2M3 => 9 | .mxE2M1 => 10 | .mxInt8 => 11 | .int8 => 12 | .uint8 => 13 | .int4 => 14
  | .uint4 => 15 | .int32 => 16 | .grid192 => 17

/-- Element width in bits (Table 3-6). -/
def Fmt.bits : Fmt → Nat
  | .raw => 8 | .fp32 | .int32 => 32 | .fp16 | .bf16 => 16 | .mxE3M2 | .mxE2M3 => 6
  | .mxE2M1 | .int4 | .uint4 => 4 | .grid192 => 192 | _ => 8

/-- The MX formats, codes 0x06 to 0x0B (02 R20). -/
def Fmt.isMX : Fmt → Bool
  | .mxE4M3 | .mxE5M2 | .mxE3M2 | .mxE2M3 | .mxE2M1 | .mxInt8 => true
  | _ => false

/-- An element format: one of codes 0x01 to 0x10. -/
def Fmt.isElement : Fmt → Bool
  | .raw | .grid192 => false
  | _ => true

/-- emax of Table 2-1. -/
def Fmt.emax : Fmt → Int
  | .fp32 | .bf16 => 127 | .fp16 | .e5m2 | .mxE5M2 => 15 | .e4m3 | .mxE4M3 => 8 | .mxE3M2 => 4
  | .mxE2M3 | .mxE2M1 => 2 | .mxInt8 => 0 | .int8 | .uint8 => 7 | .int4 | .uint4 => 3 | .int32 => 31
  | .raw | .grid192 => 0

/-- log2 of u, the smallest positive (subnormal) magnitude of Table 2-1. -/
def Fmt.uExp : Fmt → Int
  | .fp32 => -149 | .fp16 => -24 | .bf16 => -133 | .e4m3 | .mxE4M3 => -9 | .e5m2 | .mxE5M2 => -16
  | .mxE3M2 => -4 | .mxE2M3 => -3 | .mxE2M1 => -1 | .mxInt8 => -6
  | _ => 0

/-- Mantissa bits of a floating format (Table 2-1); none for the fixed-point and integer formats. -/
def Fmt.mant : Fmt → Option Nat
  | .fp32 => some 23 | .fp16 => some 10 | .bf16 => some 7 | .e4m3 | .mxE4M3 => some 3 | .e5m2 | .mxE5M2 => some 2
  | .mxE3M2 => some 2 | .mxE2M3 => some 3 | .mxE2M1 => some 1
  | _ => none

/-- Encoding of the largest finite magnitude (Table 2-1); for signed integers the positive side. -/
def Fmt.maxBits : Fmt → Nat
  | .fp32 => 0x7F7FFFFF | .fp16 => 0x7BFF | .bf16 => 0x7F7F | .e4m3 | .mxE4M3 => 0x7E | .e5m2 | .mxE5M2 => 0x7B
  | .mxE3M2 | .mxE2M3 => 0x1F | .mxE2M1 => 0x7 | .mxInt8 | .int8 => 127 | .uint8 => 255 | .int4 => 7 | .uint4 => 15
  | .int32 => 2147483647 | .raw | .grid192 => 0

/-- Largest negative magnitude of a two's-complement format: MXINT8 outputs saturate symmetrically (02 R22). -/
def Fmt.maxNeg : Fmt → Nat
  | .int8 => 128 | .int4 => 8 | .int32 => 2147483648 | .mxInt8 => 127
  | _ => 0

/-- Unsigned integer formats. -/
def Fmt.isUnsigned : Fmt → Bool
  | .uint8 | .uint4 => true
  | _ => false

/-- A decoded element. A finite value is (-1)^neg x mag x 2^exp; a zero keeps its sign where the format has one. -/
inductive Val where
  | fin (neg : Bool) (mag : Nat) (exp : Int)
  | inf (neg : Bool)
  | nan
  deriving DecidableEq, Repr

/-- The value +0. -/
def Val.zero : Val := .fin false 0 0

/-- A finite value from a signed mantissa. -/
def Val.ofInt (m : Int) (e : Int) : Val := .fin (decide (m < 0)) m.natAbs e

/-- Decode of a floating encoding with p mantissa bits and smallest exponent u. -/
def decFloat (w p : Nat) (u : Int) (b : Nat) : Val :=
  let neg := b / 2 ^ (w - 1) % 2 == 1
  let body := b % 2 ^ (w - 1)
  let ex := body / 2 ^ p
  let fr := body % 2 ^ p
  if ex = 0 then .fin neg fr u else .fin neg (2 ^ p + fr) (u + (ex - 1 : Nat))

/-- Two's-complement value of the low w bits. -/
def signedOf (w b : Nat) : Int :=
  let x := b % 2 ^ w
  if x < 2 ^ (w - 1) then (x : Int) else (x : Int) - 2 ^ w

/-- 02 R19, R20, R449: the element an encoding stands for, an MX element before its block scale. -/
def Fmt.dec (f : Fmt) (b : Nat) : Val :=
  let body := b % 2 ^ (f.bits - 1)
  let neg := b / 2 ^ (f.bits - 1) % 2 == 1
  match f with
  | .fp32 => if body > 0x7F800000 then .nan else if body = 0x7F800000 then .inf neg else decFloat 32 23 (-149) b
  | .fp16 => if body > 0x7C00 then .nan else if body = 0x7C00 then .inf neg else decFloat 16 10 (-24) b
  | .bf16 => if body > 0x7F80 then .nan else if body = 0x7F80 then .inf neg else decFloat 16 7 (-133) b
  | .e4m3 | .mxE4M3 => if body = 0x7F then .nan else decFloat 8 3 (-9) b
  | .e5m2 | .mxE5M2 => if body > 0x7C then .nan else if body = 0x7C then .inf neg else decFloat 8 2 (-16) b
  | .mxE3M2 => decFloat 6 2 (-4) b
  | .mxE2M3 => decFloat 6 3 (-3) b
  | .mxE2M1 => decFloat 4 1 (-1) b
  | .mxInt8 => .ofInt (signedOf 8 b) (-6)
  | .int8 => .ofInt (signedOf 8 b) 0
  | .int4 => .ofInt (signedOf 4 b) 0
  | .int32 => .ofInt (signedOf 32 b) 0
  | .uint8 => .fin false (b % 256) 0
  | .uint4 => .fin false (b % 16) 0
  | .raw | .grid192 => .zero

/-- 02 R20: an element under its block scale byte; scale 0xFF makes the block NaN. -/
def Val.scaled (v : Val) (scale : Nat) : Val :=
  if scale = 255 then .nan else
  match v with
  | .fin n m e => .fin n m (e + (scale : Int) - 127)
  | x => x

/-- Rounding modes of R33 and R34; a stochastic rounding carries its 24 random bits. -/
inductive Rounding where
  | rne
  | stoch (rnd : Nat)
  deriving DecidableEq, Repr

/-- Keep m / 2^k rounded: ties to even (R33), or up when rnd < f24 (R34). -/
def roundShift (md : Rounding) (m k : Nat) : Nat :=
  let lo := m / 2 ^ k
  let rem := m % 2 ^ k
  match md with
  | .rne => if 2 * rem > 2 ^ k ∨ (2 * rem = 2 ^ k ∧ lo % 2 = 1) then lo + 1 else lo
  | .stoch r => if r < rem * 2 ^ 24 / 2 ^ k then lo + 1 else lo

/-- floor(log2) of a positive magnitude m x 2^e. -/
def log2Val (m : Nat) (e : Int) : Int := (Nat.log2 m : Int) + e

/-- The rounded magnitude of m x 2^e: q, in units of 2^x, with the unit 2^x of its binade (R33, R34).
p = none is fixed point. -/
def roundMag (p : Option Nat) (u : Int) (md : Rounding) (m : Nat) (e : Int) : Nat × Int :=
  let q : Int := match p with
    | some p => max (log2Val m e - p) u
    | none => u
  if m = 0 then (0, u)
  else if q ≤ e then (m * 2 ^ (e - q).toNat, q)
  else (roundShift md m (q - e).toNat, q)

/-- Whether an exact magnitude exceeds max units of 2^u (fixed point), or the largest finite float. -/
def exactExceeds (m : Nat) (e : Int) (mx : Nat) (ux : Int) : Bool :=
  if e ≥ ux then decide (m * 2 ^ (e - ux).toNat > mx) else decide (m > mx * 2 ^ (ux - e).toNat)

/-- The largest finite magnitude of a format as (units, exponent). -/
def Fmt.maxMag (f : Fmt) (neg : Bool) : Nat × Int :=
  match f.mant with
  | some p =>
    let ex := f.maxBits / 2 ^ p
    (2 ^ p + f.maxBits % 2 ^ p, f.uExp + (ex - 1 : Nat))
  | none => (if neg ∧ ¬ f.isUnsigned then f.maxNeg else f.maxBits, f.uExp)

/-- Table 2-6: the overflow result. -/
def Fmt.overflow (f : Fmt) (neg : Bool) : Nat :=
  let s := if neg then 2 ^ (f.bits - 1) else 0
  match f with
  | .fp32 => s + 0x7F800000 | .fp16 => s + 0x7C00 | .bf16 => s + 0x7F80
  | .e4m3 | .mxE4M3 => s + 0x7E | .e5m2 | .mxE5M2 => s + 0x7B
  | .mxE3M2 | .mxE2M3 => s + 0x1F | .mxE2M1 => s + 7
  | .mxInt8 => if neg then 0x81 else 0x7F
  | .int8 => if neg then 0x80 else 0x7F | .uint8 => if neg then 0 else 0xFF
  | .int4 => if neg then 8 else 7 | .uint4 => if neg then 0 else 15
  | .int32 => if neg then 0x80000000 else 0x7FFFFFFF
  | .raw | .grid192 => 0

/-- Table 2-6: the NaN result (an MX block becomes NaN as a whole, R36). -/
def Fmt.nanBits : Fmt → Nat
  | .fp32 => 0x7FC00000 | .fp16 => 0x7E00 | .bf16 => 0x7FC0 | .e4m3 => 0x7F | .e5m2 => 0x7E
  | _ => 0

/-- Table 2-6: the infinity results. -/
def Fmt.infBits (f : Fmt) (neg : Bool) : Nat :=
  match f with
  | .e5m2 => if neg then 0xFC else 0x7C
  | f => if f.isMX then 0 else f.overflow neg

/-- R33-R35: a finite exact value in a format, rounded and saturated. -/
def Fmt.encFin (f : Fmt) (md : Rounding) (neg : Bool) (m : Nat) (e : Int) : Nat :=
  let (r, q) := roundMag f.mant f.uExp md m e
  match f.mant with
  | some p =>
    let s := if neg then 2 ^ (f.bits - 1) else 0
    let b := (q - f.uExp).toNat * 2 ^ p + r
    let ovf : Bool := match md with
      | .rne => decide (b > f.maxBits)
      | .stoch _ => let (mm, me) := f.maxMag neg; exactExceeds m e mm me
    if ovf then f.overflow neg else if r = 0 then s else s + b
  | none =>
    let (mx, _) := f.maxMag neg
    if neg ∧ f.isUnsigned ∧ r ≠ 0 then f.overflow true
    else
      let ovf : Bool := match md with
        | .rne => decide (r > mx)
        | .stoch _ => exactExceeds m e mx f.uExp
      if ovf then f.overflow neg
      else if neg ∧ r ≠ 0 then 2 ^ f.bits - r else r

/-- R32-R35: any value in a non-MX format. -/
def Fmt.enc (f : Fmt) (md : Rounding) : Val → Nat
  | .fin n m e => f.encFin md n m e
  | .inf n => f.infBits n
  | .nan => f.nanBits

/-- Zero in the sense of a mask or a term. -/
def Val.isZero : Val → Bool
  | .fin _ m _ => m == 0
  | _ => false

/-- A value that is NaN or an infinity. -/
def Val.isSpecial : Val → Bool
  | .fin _ _ _ => false
  | _ => true

/-- R36: the shared scale byte of a block of exact values: floor(log2 max) - emax, clamped to -127..127; 0x00 when all
are zero; 0xFF when any is NaN or an infinity. -/
def mxScale (f : Fmt) (vs : List Val) : Nat :=
  if vs.any Val.isSpecial then 255 else
  let top := vs.foldl (fun (a : Option Int) v => match v with
    | .fin _ m e => if m = 0 then a else
        match a with
        | none => some (log2Val m e)
        | some x => some (max x (log2Val m e))
    | _ => a) none
  match top with
  | none => 0
  | some x => (min (max (x - f.emax) (-127)) 127 + 127).toNat

/-- R36: one element of an MX block whose scale byte is known: v / 2^scale, rounded and saturated. -/
def mxElem (f : Fmt) (md : Rounding) (scale : Nat) (v : Val) : Nat :=
  if scale = 255 then 0 else
  match v with
  | .fin n m e => f.encFin md n m (e - ((scale : Int) - 127))
  | _ => 0

/-- R38: the 24 random bits of an element. -/
def rnd24 (seed : DWord) (tensor : Word) (index : DWord) : Nat :=
  let h := seed ^^^ (tensor.setWidth 64 * 0x9E3779B97F4A7C15)
  let h := h ^^^ (index * 0xD1B54A32D192ED03)
  let h := h ^^^ (h >>> 30)
  let h := h * 0xBF58476D1CE4E5B9
  let h := h ^^^ (h >>> 27)
  let h := h * 0x94D049BB133111EB
  let h := h ^^^ (h >>> 31)
  (h >>> 40).toNat

/-- The rounding of an element: R33, or R34 with the bits of R38. -/
def Rounding.of (stochastic : Bool) (seed : DWord) (tensor : Word) (index : DWord) : Rounding :=
  if stochastic then .stoch (rnd24 seed tensor index) else .rne

end Sys2Proof.Machine
end

