-- ==== Sys2Proof/Machine/Grid.lean ====
section
/-! DEFINITION. Apex words (02 R24), the accumulation grid (02 R27-R32), GRID192 (02 R37), exact IEEE operations on
decoded values (02 R21, R23) and the matrix checksum quantities (02 R45). -/

namespace Sys2Proof.Machine

/-- The apex word 0xF000, not computed (R24). -/
def apexNone : Half := 0xF000

/-- Apex word fields (Table 2-3). -/
def apexExp (a : Half) : Int := signedOf 13 a.toNat
/-- The empty exponent: no finite non-zero value. -/
def apexEmpty (a : Half) : Bool := apexExp a == -4096
/-- Build an apex word; an exponent of none is empty. -/
def apexMk (nan pinf ninf : Bool) (e : Option Int) : Half :=
  BitVec.ofNat 16 ((if nan then 0x8000 else 0) + (if pinf then 0x4000 else 0) + (if ninf then 0x2000 else 0)
    + (match e with
       | some x => (x + 8192).toNat % 8192
       | none => 0x1000))
/-- Flag bits of an apex word. -/
def apexNan (a : Half) : Bool := a.getLsbD 15
/-- +Inf flag. -/
def apexPinf (a : Half) : Bool := a.getLsbD 14
/-- -Inf flag. -/
def apexNinf (a : Half) : Bool := a.getLsbD 13

/-- R24: two apex words combine: the larger exponent, the OR of each flag; 0xF000 as data makes the result 0xF000. -/
def apexCombine (a b : Half) : Half :=
  if a = apexNone ∨ b = apexNone then apexNone else
  let e := max (apexExp a) (apexExp b)
  apexMk (apexNan a || apexNan b) (apexPinf a || apexPinf b) (apexNinf a || apexNinf b)
    (if e = -4096 then none else some e)

/-- R25: the apex word of a block of values. -/
def apexOf (vs : List Val) : Half :=
  let st := vs.foldl (fun (a : Bool × Bool × Bool × Option Int) v => match v with
    | .nan => (true, a.2)
    | .inf false => (a.1, true, a.2.2)
    | .inf true => (a.1, a.2.1, true, a.2.2.2)
    | .fin _ m e => if m = 0 then a else
        (a.1, a.2.1, a.2.2.1, match a.2.2.2 with
          | none => some (log2Val m e)
          | some x => some (max x (log2Val m e)))) (false, false, false, none)
  apexMk st.1 st.2.1 st.2.2.1 st.2.2.2

/-- An accumulator of the grid with its flags (R30-R32). -/
structure Acc where
  sum : Int
  nan : Bool
  pinf : Bool
  ninf : Bool
  deriving DecidableEq, Repr

/-- The empty accumulator. -/
def Acc.zero : Acc := { sum := 0, nan := false, pinf := false, ninf := false }

/-- Sum of two accumulators on one grid, flags combined (R31, R32). -/
def Acc.add (a b : Acc) : Acc :=
  { sum := a.sum + b.sum, nan := a.nan || b.nan, pinf := a.pinf || b.pinf, ninf := a.ninf || b.ninf }

/-- A signed exact value (m x 2^e). -/
abbrev Exact := Int × Int

/-- Exact addition. -/
def Exact.add (a b : Exact) : Exact :=
  if a.1 = 0 then b else if b.1 = 0 then a else
  let e := min a.2 b.2
  (a.1 * 2 ^ (a.2 - e).toNat + b.1 * 2 ^ (b.2 - e).toNat, e)

/-- R30: floor(S / 2^unit), toward minus infinity. -/
def Exact.floorTo (a : Exact) (unit : Int) : Int :=
  if a.2 ≥ unit then a.1 * 2 ^ (a.2 - unit).toNat else a.1 / 2 ^ (unit - a.2).toNat

/-- A finite value as an exact number; specials are 0. -/
def Val.exact : Val → Exact
  | .fin n m e => (if n then -(m : Int) else (m : Int), e)
  | _ => (0, 0)

/-- A term of a product under Table 2-2: NaN wins, Inf x 0 is NaN, Inf x non-zero is a signed infinity. -/
def Val.mul (a b : Val) : Val :=
  match a, b with
  | .nan, _ => .nan
  | _, .nan => .nan
  | .inf n, .inf m => .inf (n != m)
  | .inf n, .fin m x _ => if x = 0 then .nan else .inf (n != m)
  | .fin m x _, .inf n => if x = 0 then .nan else .inf (n != m)
  | .fin n x e, .fin m y f => .fin (n != m) (x * y) (e + f)

/-- Flags a special term sets. -/
def Acc.flagOf : Val → Acc
  | .nan => { Acc.zero with nan := true }
  | .inf false => { Acc.zero with pinf := true }
  | .inf true => { Acc.zero with ninf := true }
  | _ => .zero

/-- The exact sum of a block's terms, special terms counting 0. -/
def sumExact (ts : List Val) : Exact := ts.foldl (fun a t => Exact.add a t.exact) (0, 0)

/-- The flags of a block's terms. -/
def flagsOf (ts : List Val) : Acc := ts.foldl (fun a t => a.add (Acc.flagOf t)) Acc.zero

/-- The grid unit's exponent: E_ref - 159 (R30). -/
def gridUnit (eref : Int) : Int := eref - 159

/-- R30: one K-block's products summed exactly, then truncated to the grid. -/
def blockAcc (eref : Int) (ts : List Val) : Acc :=
  { flagsOf ts with sum := (sumExact ts).floorTo (gridUnit eref) }

/-- R40, R41: terms truncated each on its own, then added. -/
def termsAcc (eref : Int) (ts : List Val) : Acc :=
  ts.foldl (fun a t => a.add { Acc.flagOf t with sum := t.exact.floorTo (gridUnit eref) }) Acc.zero

/-- R32: the final value of an accumulator. -/
def Acc.value (a : Acc) (eref : Int) : Val :=
  if a.nan ∨ (a.pinf ∧ a.ninf) then .nan
  else if a.pinf then .inf false else if a.ninf then .inf true
  else Val.ofInt a.sum (gridUnit eref)

/-- The largest of the bounds present. -/
def maxBound (bs : List (Option Int)) : Option Int :=
  bs.foldl (fun a b => match a, b with
    | none, x => x
    | some x, none => some x
    | some x, some y => some (max x y)) none

/-- R27: the exponent bound an apex word contributes; empty or NaN contributes none. -/
def apexBound (a : Half) : Option Int := if apexNan a ∨ apexEmpty a then none else some (apexExp a)

/-- R27: the bound of an MX block from its scale byte. -/
def mxBound (f : Fmt) (scale : Nat) : Option Int :=
  if scale = 255 then none else some ((scale : Int) - 127 + f.emax)

/-- R27: the bound of a product of two blocks. -/
def prodBound (a b : Option Int) : Option Int :=
  match a, b with
  | some x, some y => some (x + y + 1)
  | _, _ => none

/-- R37: the 24 bytes of a GRID192 element; 0 when any flag is set. -/
def Acc.gridBits (a : Acc) : BitVec 192 :=
  if a.nan ∨ a.pinf ∨ a.ninf then 0 else BitVec.ofInt 192 a.sum

/-- The signed value of a GRID192 element. -/
def gridInt (b : BitVec 192) : Int := b.toInt

/-- IEEE sum of two exact values with their signs (R21): exact, signed zeros as roundTiesToEven gives. -/
def Val.addE (a b : Val) : Val :=
  match a, b with
  | .nan, _ => .nan
  | _, .nan => .nan
  | .inf n, .inf m => if n = m then .inf n else .nan
  | .inf n, _ => .inf n
  | _, .inf n => .inf n
  | .fin n x e, .fin m y f =>
    let r := Exact.add (Val.exact (.fin n x e)) (Val.exact (.fin m y f))
    if r.1 = 0 then .fin (if x = 0 ∧ y = 0 then n && m else false) 0 0 else Val.ofInt r.1 r.2

/-- Negation. -/
def Val.neg : Val → Val
  | .fin n m e => .fin (!n) m e
  | .inf n => .inf (!n)
  | .nan => .nan

/-- Magnitude. -/
def Val.abs : Val → Val
  | .fin _ m e => .fin false m e
  | .inf _ => .inf false
  | .nan => .nan

/-- Order of two non-NaN values, zeros equal: -1, 0 or 1. -/
def Val.cmp (a b : Val) : Int :=
  match a, b with
  | .inf n, .inf m => if n = m then 0 else if n then -1 else 1
  | .inf n, _ => if n then -1 else 1
  | _, .inf n => if n then 1 else -1
  | x, y => (Exact.add x.exact (-y.exact.1, y.exact.2)).1.sign

/-- IEEE 754-2019 maximum: NaN propagates, -0 < +0 (R21, R23). -/
def Val.maximum (a b : Val) : Val :=
  match a, b with
  | .nan, _ => .nan
  | _, .nan => .nan
  | .fin n x e, .fin m y f =>
    if x = 0 ∧ y = 0 then .fin (n && m) 0 0
    else if Val.cmp (.fin n x e) (.fin m y f) ≥ 0 then .fin n x e else .fin m y f
  | x, y => if Val.cmp x y ≥ 0 then x else y

/-- IEEE 754-2019 minimum. -/
def Val.minimum (a b : Val) : Val :=
  match a, b with
  | .nan, _ => .nan
  | _, .nan => .nan
  | .fin n x e, .fin m y f =>
    if x = 0 ∧ y = 0 then .fin (n || m) 0 0
    else if Val.cmp (.fin n x e) (.fin m y f) ≤ 0 then .fin n x e else .fin m y f
  | x, y => if Val.cmp x y ≤ 0 then x else y

/-- Integer square root and whether it is exact, on a magnitude with an even exponent and enough bits that one rounding
of the result plus its sticky bit is the correctly rounded square root (R21, Table 3-14 SQRT). -/
def Val.sqrt : Val → Val
  | .nan => .nan
  | .inf false => .inf false
  | .inf true => .nan
  | .fin n m e =>
    if m = 0 then .fin n 0 0
    else if n then .nan
    else
      let k : Nat := if e % 2 = 0 then 128 else 129
      let big := m * 2 ^ k
      let r := Nat.sqrt big
      let st := if r * r = big then 0 else 1
      .fin false (2 * r + st) ((e - k) / 2 - 1)

/-- LDEXP: a x 2^trunc(b), exact before output rounding (Table 3-14); an infinite b makes the factor an infinity or 0. The
exponent step is capped where every output format has long overflowed or vanished. -/
def Val.ldexp (a b : Val) : Val :=
  match a, b with
  | .nan, _ => .nan
  | _, .nan => .nan
  | x, .inf true => x.mul .zero
  | x, .inf false => x.mul (.inf false)
  | .inf n, _ => .inf n
  | .fin n m e, .fin bn bm be =>
    let t : Nat := if be ≥ 0 then bm * 2 ^ be.toNat else bm / 2 ^ (-be).toNat
    let t : Int := min t 4096
    .fin n m (if bn then e - t else e + t)

/-- R45: the element integer x / u, NaN and infinity counting 0. -/
def Fmt.elemInt (f : Fmt) (v : Val) : Int := v.exact.floorTo f.uExp

end Sys2Proof.Machine
end

