-- ==== Sys2Proof/Machine/StAtoll.lean ====
section
/-! DEFINITION. State of one atoll: lagoon, bays, engines, sequencers, queues and lanes, scalar cores with their
channels, synchronisation objects and DMA port (03, 04, 05, 06 R158). -/

namespace Sys2Proof.Machine

/-- Metadata of one 128-byte lagoon line (03 R55): format tag, poison bit per 32-byte word, eight apex slots. -/
structure LineMeta where
  tag : BitVec 5
  poison : BitVec 4
  apex : BitVec 128
  deriving DecidableEq, Repr

/-- Eight apex slots that all read 0xF000 (02 R24). -/
def apexReset : BitVec 128 := 0xF000F000F000F000F000F000F000F000

/-- Metadata after a mode change: tag 0x00, no poison, slots 0xF000 (Table 3-11 step 4). -/
def LineMeta.reset : LineMeta := { tag := 0, poison := 0, apex := apexReset }

/-- A neighbour map register (Table 3-3). -/
structure NbrMap where
  target : BitVec 9
  routed : Bool
  valid : Bool
  deriving DecidableEq, Repr

/-- A bay mode change in progress (Table 3-11). -/
structure BayChange where
  bay : Nat
  toCache : Bool
  deriving DecidableEq, Repr

/-- Kinds of cache command (Table 3-9). -/
inductive CacheCmdKind where
  | flush | invalidate | flushInvalidate
  deriving DecidableEq, Repr

/-- A cache command at a bay: its kind, issuer (a sequencer, or none for the manager core) and whether it has started. -/
structure CacheCmd where
  bay : Nat
  kind : CacheCmdKind
  seq : Option Nat
  started : Bool
  deriving DecidableEq, Repr

/-- A line of a cache-mode bay (03 R62): window line index, state bits and its 256 bytes. -/
structure CacheLine where
  index : Nat
  dirty : Bool
  poisoned : Bool
  filling : Bool
  data : Mem
  deriving DecidableEq, Repr

/-- Who issued an operation and takes its completion (03 R70): a sequencer with its operation number, a scalar core, or
entry k of a stream's TILE_BATCH. -/
inductive OpSource where
  | seq (u id : Nat)
  | core (c : Nat)
  | batch (p st idx k : Nat)
  deriving DecidableEq, Repr

/-- A tile op in an issue queue: its descriptor (Table 3-12), issuer, whether it replays from a fenced sibling, and the cycles that
its earlier runs used (Table 3-10). -/
structure TileOp where
  desc : BitVec 512
  src : OpSource
  seed : DWord
  origin : Nat
  replayed : Bool
  spent : Nat
  deriving DecidableEq, Repr

/-- A tile op in its engine: the status its checks gave, the refused offset, the apex pass and the array cycles. -/
structure TileRun where
  op : TileOp
  status : Nat
  offset : Nat
  apexPass : Bool
  cycles : Nat
  deriving DecidableEq, Repr

/-- A matrix engine: a 4-entry issue queue and the op in flight (03 R69). -/
structure Engine where
  queue : List TileOp
  cur : Option TileRun
  deriving DecidableEq, Repr

/-- Reset engine. -/
def Engine.reset : Engine := { queue := [], cur := none }

/-- A bank operation at the bank command port, and its outcome once its lines are done (03 R60, R61). -/
structure BankOp where
  cmd : BitVec 256
  src : OpSource
  outcome : Option (Nat × Nat × Bool)
  deriving DecidableEq, Repr

/-- A vector operation waiting for a vector engine or running on it (03 R72): elements already taken from queues, output
elements written, entries peeked under a repeat count, and how it ends. -/
structure VecOp where
  desc : BitVec 320
  src : OpSource
  epoch : BitVec 4
  seed : DWord
  buf : List (List Nat)
  taken : List Nat
  done : Nat
  status : Nat
  offset : Nat
  apexPass : Bool
  stop : Bool
  cycles : Nat
  deriving DecidableEq, Repr

/-- A vector engine: waiting operations and the one running. -/
structure VecEngine where
  queue : List VecOp
  cur : Option VecOp
  deriving DecidableEq, Repr

/-- Reset vector engine. -/
def VecEngine.reset : VecEngine := { queue := [], cur := none }

/-- What a sequencer waits for before its next entry. -/
inductive SeqBlock where
  | none
  | completion (id : Nat)
  | sync (obj : Nat) (target : Word)
  | queue (port : Nat)
  | ops
  | cache (bay : Nat)
  deriving DecidableEq, Repr

/-- SEQ_STATUS state codes (Table 4-16). -/
inductive SeqState where
  | stopped | running | waitQueue | waitSync | halted | ended | error | held
  deriving DecidableEq, Repr

/-- A unit sequencer (Table 4-1) with its status (Table 4-16). -/
structure Sequencer where
  prog : List DWord
  templates : List (BitVec 1024)
  ctrs : Tbl (Nat × Nat)
  select : BitVec 13
  inBind : List Nat
  ctrBind : List (Option Nat)
  outBind : List Nat
  rep : Tbl Nat
  served : Tbl Nat
  state : SeqState
  error : Nat
  opStatus : Nat
  pc : Nat
  block : SeqBlock
  issued : Nat
  openOps : List Nat
  inbox : List (Nat × DWord)
  deriving DecidableEq, Repr

/-- A cleared, STOPPED sequencer. -/
def Sequencer.reset : Sequencer :=
  { prog := [], templates := [], ctrs := [], select := 0, inBind := [0, 0, 0, 0], ctrBind := [none, none, none, none],
    outBind := [0, 0, 0, 0], rep := [], served := [], state := .stopped, error := 0, opStatus := 0, pc := 0,
    block := .none, issued := 0, openOps := [], inbox := [] }

/-- A queue entry: 256 data bits, token flag and epoch (04 R86). -/
structure QEntry where
  data : BitVec 256
  token : Bool
  epoch : BitVec 4
  deriving DecidableEq, Repr

/-- A queue with its spill region (04 R86, R91): the region's bay, first line and line count, and which of its slots
hold entries. The entries themselves stand in the lagoon. -/
structure Queue where
  enable : Bool
  closed : Bool
  ents : List QEntry
  spill : Option (Nat × Nat × Nat)
  spHead : Nat
  spCount : Nat
  deriving DecidableEq, Repr

/-- A disabled, empty queue. -/
def Queue.reset : Queue := { enable := false, closed := false, ents := [], spill := none, spHead := 0, spCount := 0 }

/-- The reconfiguration an atoll takes part in (Table 4-13): the command, its mode, the new epoch, the directory entry it
installs from, the record number, and how far it is. -/
structure AtollReconf where
  cmd : Nat
  flush : Bool
  epoch : BitVec 4
  entry : BitVec 128
  number : Nat
  record : BitVec 14
  barrier : Bool
  reported : Bool
  flag : Bool
  stopped : Bool
  timedOut : Bool
  arrived : DWord
  deriving DecidableEq, Repr

/-- TESS_STATE.state (Table 4-16). -/
inductive TessState where
  | unconfigured | running | draining | loading | held
  deriving DecidableEq, Repr

/-- A channel handle (05 R116, R119-R123). -/
structure Handle where
  send : Bool
  peerPos : Nat
  peerCore : Nat
  peerHandle : Nat
  port : Nat
  bulk : Bool
  cap : Nat
  out : Nat
  seq : Nat
  connecting : Bool
  closing : Bool
  dead : Bool
  since : DWord
  deriving DecidableEq, Repr

/-- A message in a port's ring: channel, sequence number, slot number (small) or byte offset (bulk), word count or
record and body length, and its sender's end (05 R118, R126). -/
structure PortMsg where
  chan : Nat
  seq : Nat
  at_ : Nat
  words : Nat
  recLen : Nat
  bodyLen : Nat
  deriving DecidableEq, Repr

/-- A channel port (Table 5-1): its registers, the messages in its ring in order, and its write point. -/
structure ChPort where
  sizeM1 : Nat
  base : Word
  handler : Nat
  queue : Nat
  kind : Nat
  publish : Bool
  error : Nat
  msgs : List PortMsg
  wr : Nat
  deriving DecidableEq, Repr

/-- An unpublished port. -/
def ChPort.reset : ChPort :=
  { sizeM1 := 0, base := 0, handler := 0, queue := 0, kind := 0, publish := false, error := 0, msgs := [], wr := 0 }

/-- What blocks a scalar core at an instruction. -/
inductive CoreBlock where
  | none
  | wait (rd : Nat) (objs : List (DWord × Word)) (any : Bool) (since : DWord)
  | send (rd h : Nat) (words : List DWord) (bulkRef : Option DWord) (since : DWord)
  | connect (rd h : Nat) (since : DWord)
  deriving DecidableEq, Repr

/-- A CONNECT on its way to a receiver, or its answer on its way back (Table 5-4). -/
structure ConnReq where
  fromPos : Nat
  fromCore : Nat
  fromHandle : Nat
  part : Nat
  core : Nat
  port : Nat
  reserved : Bool
  cap : Nat
  deriving DecidableEq, Repr

/-- The answer to a CONNECT: the receive handle and ring kind, or a negative status. -/
structure ConnAns where
  handle : Nat
  result : Int
  peerHandle : Nat
  bulk : Bool
  deriving DecidableEq, Repr

/-- A scalar core (03 R73-R75, Table 5-1): RV64 registers, private SRAM, machine-mode CSRs by number, channel state. `reservation`
is the address and the value of a load-reserved; `topDone` the completion queue of 8 per engine (R70). -/
structure Core where
  pc : DWord
  x : Tbl DWord
  csr : Tbl DWord
  sram : Mem
  running : Bool
  block : CoreBlock
  reservation : Option (DWord × DWord)
  access : DWord
  sel : BitVec 4
  ports : Tbl ChPort
  mask : Bool
  active : Option (Nat × PortMsg)
  epc : DWord
  handles : Tbl Handle
  answers : List ConnAns
  topDone : Tbl (List DWord)
  deriving DecidableEq, Repr

/-- A core after reset: stopped until the runtime starts it, registers 0 (log entry 10). -/
def Core.reset : Core :=
  { pc := 0, x := [], csr := [], sram := [], running := false, block := .none, reservation := none, access := 0,
    sel := 0, ports := [], mask := false, active := none, epc := 0, handles := [], answers := [], topDone := [] }

/-- Who waits on a synchronisation object (05 R130): a scalar core's wait entry, a sequencer, or a stream's SYNC WAIT. -/
inductive Waiter where
  | core (g c k : Nat)
  | seq (g u : Nat)
  | stream (p st idx : Nat)
  deriving DecidableEq, Repr

/-- A waiter on an object: object number, target, who. -/
structure WaitEntry where
  obj : Nat
  target : Word
  who : Waiter
  deriving DecidableEq, Repr

/-- A store held at the bank because its line holds operands of a tile op in flight (03 R59). -/
structure HeldWrite where
  offset : Nat
  tag : BitVec 5
  data : List Byte
  deriving DecidableEq, Repr

/-- An atoll site with everything on it. -/
structure Atoll where
  assigned : Bool
  partition : BitVec 5
  bayCache : BitVec 24
  bayBusy : BitVec 24
  cacheBase : BitVec 40
  split : Bool
  nbr : List NbrMap
  lagoon : Mem
  lineMeta : Tbl LineMeta
  heldWrites : List HeldWrite
  changes : List BayChange
  cache : Tbl CacheLine
  plru : Tbl (BitVec 7)
  cacheCmds : List CacheCmd
  engines : Tbl Engine
  bankOps : List BankOp
  vecs : Tbl VecEngine
  seqs : Tbl Sequencer
  queues : Tbl Queue
  laneEn : BitVec 8
  ptEn : BitVec 8
  laneOut : BitVec 8
  ptRoute : BitVec 32
  laneIn : Tbl (List QEntry)
  laneHold : Tbl DWord
  credits : Tbl Nat
  creditBack : Tbl Nat
  ownIn : List (Nat × QEntry)
  ownHold : Option DWord
  descValid : Bool
  descriptor : BitVec 14
  record : BitVec 14
  tess : TessState
  epoch : BitVec 4
  epochDiscard : Word
  flushDiscard : Word
  ptDiscard : Word
  chDiscard : Word
  discardNoted : Bool
  reconf : Option AtollReconf
  objs : Tbl Word
  waits : List WaitEntry
  connIn : List ConnReq
  cores : Tbl Core
  dmaBuf : BitVec 512
  dmaDone : List DWord
  inReset : Bool
  destInReset : Word
  patrolFull : DWord
  patrolGap : Tbl DWord
  gapDone : Tbl Nat
  suite : Bool
  corrected : Word
  frozen : Bool
  aborting : Bool
  goSent : Bool
  descOffset : Nat
  deriving DecidableEq, Repr

end Sys2Proof.Machine
end

