-- ==== Sys2Proof/Machine/StPart.lean ====
section
/-! DEFINITION. State of partitions, command streams, reconfigurations, mailboxes, faults and recovery (10-13). -/

namespace Sys2Proof.Machine

/-- A fetched stream command (Table 13-6): absolute index, 64 bytes, for a TILE_BATCH the ops still to issue and the ops still
to complete, for a BARRIER the (stream, index) of the commands it waits for, and for a SYNC WAIT when it started. -/
structure SCmd where
  idx : Nat
  img : BitVec 512
  toIssue : List (BitVec 512)
  left : Nat
  waitsFor : List (Nat × Nat)
  since : DWord
  deriving DecidableEq, Repr

/-- A command stream (13 R332-R345, Table 13-5). -/
structure Stream where
  open_ : Bool
  stopped : Bool
  closing : Bool
  ringHost : Bool
  statusHost : Bool
  sizeLog2 : Nat
  ring : DWord
  statusAddr : DWord
  fetched : Nat
  done : Nat
  retired : Nat
  waiting : List SCmd
  started : List SCmd
  finished : List Nat
  status : Half
  causeKind : Nat
  stoppedAt : Nat
  fieldOffset : Half
  cause : Half
  unitWord : DWord
  moved : BitVec 256
  statusDue : Bool
  deriving DecidableEq, Repr

/-- A closed stream. -/
def Stream.reset : Stream :=
  { open_ := false, stopped := false, closing := false, ringHost := false, statusHost := false, sizeLog2 := 6, ring := 0,
    statusAddr := 0, fetched := 0, done := 0, retired := 0, waiting := [], started := [], finished := [], status := 0,
    causeKind := 0, stoppedAt := 0, fieldOffset := 0xFFFF, cause := 0, unitWord := 0, moved := 0,
    statusDue := false }

/-- Why a step rolls back (10 R265): the fault class, the address compared by R267 where it is a symbol fault, the
position fenced where one is, and the record's sequence number. -/
structure Trigger where
  cls : Half
  addr : Option DWord
  position : Option Nat
  recordSeq : Word
  seqWatch : Bool := false
  deriving DecidableEq, Repr

/-- Step-start state (13 R338): recorded stream indices, object counts of scopes 0-2, and channel sequence numbers. -/
structure StepStart where
  indices : Tbl Nat
  atollObjs : Tbl (Tbl Word)
  moduleObjs : Tbl Word
  chanSeq : Tbl Nat
  deriving DecidableEq, Repr

/-- A rollback in progress after its step 2 (Table 10-7): positions to re-place with the migration spare that one was heading to,
the mailbox status its streams stop with instead of replaying (R267), and the descriptor and record number that each atoll of the
partition carried (kept here because an atoll reset of R279 forgets its own). -/
structure Rollback where
  replace : List Nat
  spares : Tbl Nat
  outside : Bool
  stop : Option Nat
  cause : Trigger
  descs : Tbl (Nat × Nat)
  deriving DecidableEq, Repr

/-- A migration in progress (Table 10-4): `patrol` frees a site for its full patrol, or with `back` returns to it. -/
structure Migration where
  position : Nat
  source : Nat
  spare : Nat
  patrol : Bool
  back : Bool
  deriving DecidableEq, Repr

/-- A partition (13 Table 13-1). -/
structure Part where
  jobTag : Word
  x0 : Nat
  y0 : Nat
  w : Nat
  h : Nat
  split : Bool
  staging : BitVec 256
  dram : List (Nat × Nat)
  posAtoll : Tbl Nat
  epoch : BitVec 4
  epochTimes : Tbl DWord
  inReset : Bool
  aborting : Bool
  stepOpen : Bool
  replaying : Bool
  step : Word
  seed : DWord
  commitStep : Word
  start : Option StepStart
  rollbacks : Tbl Nat
  replayLimit : Nat
  firstSymbol : Option DWord
  stalled : Bool
  seqWatch : Bool
  triggers : List Trigger
  rollback : Option Rollback
  migrations : List Migration
  migrateWanted : List Nat
  params : Tbl DWord
  updSlots : Tbl (BitVec 384)
  installer : Tbl (Nat × Nat)
  streams : Tbl Stream
  runtime : Word
  deriving DecidableEq, Repr

/-- A reconfiguration command in progress (04 R104, 13 R331): who issued it, its mode, and per pair the position, the
directory entry number and the entry as they stood at validation, with the reports, answers, ends and READYs so far. -/
structure Reconf where
  id : Nat
  part : Nat
  stream : Nat
  idx : Nat
  flush : Bool
  barrier : Bool
  record : BitVec 14
  pairs : List (Nat × Nat × BitVec 128)
  epoch : Option (BitVec 4)
  quiescent : List Nat
  answers : List (Nat × Bool)
  checking : Bool
  go : Bool
  ends : List (Nat × Nat)
  readyList : List Nat
  deriving DecidableEq, Repr

/-- An error record (Table 10-9). -/
structure ErrRec where
  unit : Word
  cls : Half
  opKind : Nat
  opCode : Nat
  count : DWord
  temp : Half
  volt : Half
  jobTag : Word
  seq : Word
  part : Option Nat
  scope : Nat
  actions : Nat
  detail : BitVec 224
  coalesce : Word
  deriving DecidableEq, Repr

/-- A coalesce entry (10 R271). -/
structure CoalEntry where
  first : ErrRec
  last : ErrRec
  count : Nat
  deriving DecidableEq, Repr

/-- A die's fault collector (10 R270, R275). -/
structure Collector where
  ring : List ErrRec
  coal : List CoalEntry
  overflow : Word
  seq : Word
  deriving DecidableEq, Repr

/-- An empty collector. -/
def Collector.reset : Collector := { ring := [], coal := [], overflow := 0, seq := 0 }

/-- A fence map entry (Table 10-6). -/
structure FenceEntry where
  unit : Word
  cls : Half
  source : BitVec 2
  retry : Bool
  boot : Word
  recordSeq : Word
  deriving DecidableEq, Repr

/-- A touch log entry of a unit (10 R257). -/
structure Touch where
  part : Nat
  jobTag : Word
  firstStep : Word
  lastStep : Word
  deriving DecidableEq, Repr

/-- A suspect report (Table 10-3). -/
structure Suspect where
  unit : Word
  full : Bool
  reportId : Half
  since : DWord
  detected : DWord
  recordSeq : Word
  entries : List Touch
  deriving DecidableEq, Repr

/-- Wear events of a scored unit with their local counts, whether each of the last 10 full patrols failed at the raised clock
only, and its score (10 R272). -/
structure Wear where
  corrected : List DWord
  retries : List DWord
  retrains : List DWord
  patrols : List Bool
  score : Nat
  deriving DecidableEq, Repr

/-- An abort flood (Table 11-10). -/
structure Flood where
  jobTag : Word
  origin : Nat
  number : Half
  boot : Word
  reason : Nat
  originReset : Bool
  step : Word
  recordSeq : Word
  deriving DecidableEq, Repr

/-- The crash dump buffer (11 R296-R298): sections taken so far, units still to read, and the header's content. -/
structure Dump where
  cause : Nat
  complete : Bool
  taking : Bool
  start : DWord
  stop : DWord
  recordSeq : Word
  sections : List (BitVec 128 × List Byte)
  toRead : List Word
  unread : Bool
  deriving DecidableEq, Repr

/-- Fault, recovery and patrol state (10, 11). -/
structure FaultSt where
  fenced : List Word
  fenceQueue : List FenceEntry
  fenceMap : List FenceEntry
  clearPending : List Word
  collectors : Tbl Collector
  log : List (Nat × ErrRec)
  logNext : Nat
  suspects : List Suspect
  reportNext : Half
  touch : Tbl (List Touch)
  wear : Tbl Wear
  wearCheckpoint : Tbl Wear
  escalations : List DWord
  fatal : Bool
  fatalSeq : Word
  atollResets : List (Nat × DWord)
  moduleResets : List DWord
  outOfService : Bool
  boot : Word
  fenceGen : Word
  notices : Word
  floodNumber : Half
  floodFilter : List (Nat × Word × Half × DWord)
  floodsOut : List Flood
  hbLast : Tbl Nat
  mgrFenced : List Nat
  patrolLast : Tbl DWord
  patrolDone : Tbl (List Nat)
  suites : List Nat
  suiteHome : Tbl (Nat × Nat)
  dump : Option Dump
  resetPending : Option (Bool × DWord)
  abortPending : List Nat
  beat : Word
  hbWord : DWord
  deriving DecidableEq, Repr

/-- A started mailbox command (12 R309-R316): its slot image, the order it started in, whether a long command has been
accepted, and whether a PERST# discards its completion. -/
structure MbCmd where
  slot : Nat
  img : BitVec 2048
  order : Nat
  accepted : Bool
  discard : Bool
  word : Nat
  deriving DecidableEq, Repr

/-- A completion that waits for room in the ring (12 R311). -/
structure MbFin where
  slot : Nat
  compl : BitVec 256
  irq : Bool
  frees : Bool
  data : List Byte
  deriving DecidableEq, Repr

/-- A mailbox page (12 R308, Table 12-4) with its commands. -/
structure Mailbox where
  slots : Tbl (BitVec 2048)
  busy : BitVec 8
  cqHead : Nat
  cqTail : Nat
  eqHead : Nat
  eqTail : Nat
  eqLost : Word
  irqMask : BitVec 2
  cq : Tbl (BitVec 256)
  eq_ : Tbl (BitVec 1024)
  eqSeq : Half
  started : List MbCmd
  running : List MbCmd
  fin : List MbFin
  deriving DecidableEq, Repr

/-- A mailbox at its reset values (12 R302). -/
def Mailbox.reset : Mailbox :=
  { slots := [], busy := 0, cqHead := 0, cqTail := 0, eqHead := 0, eqTail := 0, eqLost := 0, irqMask := 0, cq := [],
    eq_ := [], eqSeq := 0, started := [], running := [], fin := [] }

/-- An event the hub has to post: type, content bytes and the mailboxes it goes to (Table 12-9). -/
structure Event where
  type : Nat
  content : List Byte
  mailboxes : List Nat
  deriving DecidableEq, Repr

end Sys2Proof.Machine
end

