-- ==== Sys2Proof/Machine/StMem.lean ====
section
/-! DEFINITION. State of the shoal dies and DRAM (06), of the on-module networks and clocks (07), and of the host port
(12 R300-R308). -/

namespace Sys2Proof.Machine

/-- Who issued a memory command (06 R158): an atoll's DMA port or a stream. -/
inductive MemSource where
  | port (g : Nat)
  | stream (p st idx : Nat)
  deriving DecidableEq, Repr

/-- A memory command (Tables 6-5, 6-7) with its partition and the seed of the step it was issued in. -/
structure MemCmd where
  img : BitVec 512
  src : MemSource
  part : Nat
  seed : DWord
  order : Nat
  deriving DecidableEq, Repr

/-- `accepted` lists the staging banks (16 * shoal + bank) that took its requests before they closed (R155).
A memory command running on a stream unit: how it ends (Table 6-6), the outputs its residue checks have yet to release
(address, tag, bytes), the address of a failing word and, for REMOTE_WRITE, the bytes not yet acknowledged. -/
structure MemRun where
  cmd : MemCmd
  status : Nat
  offset : Nat
  bytesDone : Nat
  apexLow : Bool
  unacked : Nat
  writes : List (Nat × Nat × List Byte)
  addr : Option DWord
  accepted : List Nat := []
  deriving DecidableEq, Repr

/-- A stream unit (06 R137): its queue and the command running. -/
structure StreamUnit where
  queue : List MemCmd
  cur : Option MemRun
  deriving DecidableEq, Repr

/-- An idle stream unit. -/
def StreamUnit.reset : StreamUnit := { queue := [], cur := none }

/-- A staging bank's state (Table 6-11). -/
inductive BankState where
  | on | closing | draining | off
  deriving DecidableEq, Repr

/-- A channel's state (Table 6-11). -/
inductive ChanState where
  | healthy | retiring | retired | notTrained | unbacked
  deriving DecidableEq, Repr

/-- A shoal die (06 R137, Table 6-11): staging bytes and poisoned words, bank states, counters and stream units. -/
structure Shoal where
  staging : Mem
  stPoison : List Nat
  badBanks : Tbl Nat
  banks : Tbl BankState
  lateNoted : List Nat
  corrected : Word
  uncorrectable : Word
  linkEcc : Word
  late : Word
  units : Tbl StreamUnit
  deriving DecidableEq, Repr

/-- A shoal die after reset. -/
def Shoal.reset : Shoal :=
  { staging := [], stPoison := [], badBanks := [], banks := [], lateNoted := [], corrected := 0, uncorrectable := 0,
    linkEcc := 0, late := 0, units := [] }

/-- The DRAM map of R142: healthy channels in ascending order, and the slice sizes and DRAM_SIZE in bytes. -/
structure DramMap where
  chans : List Nat
  inter : Nat
  local_ : Nat
  spare : Nat
  size : Nat
  deriving DecidableEq, Repr

/-- `closing` is the count at which a close that waits began.
A window entry (Table 6-9); `reserved` keeps the owner of a window a partition reset closed (06 R167). -/
structure Window where
  open_ : Bool
  partition : Nat
  reserved : Bool
  generation : Word
  base : BitVec 40
  size : BitVec 40
  jobTag : Word
  dropCount : Word
  noted : Bool
  closing : Option DWord
  deriving DecidableEq, Repr

/-- A window that was never opened. -/
def Window.reset : Window :=
  { open_ := false, partition := 0, reserved := false, generation := 0, base := 0, size := 0, jobTag := 0,
    dropCount := 0, noted := false, closing := none }

/-- A channel retirement (06 R168, Table 6-10): the channel, pages moved and left, and what its fence entry will name. -/
structure Retire where
  chan : Nat
  moved : Nat
  pagesLeft : Nat
  cls : Half
  seq : Word
  source : BitVec 2
  deriving DecidableEq, Repr

/-- Memory of the module (06). DRAM bytes are keyed by module physical address; a page's home after a retirement is in
`remap`, channel-local page to spare place. -/
structure MemSt where
  dram : Mem
  dramPoison : List Nat
  map : DramMap
  chanState : Tbl ChanState
  pagesLeft : Tbl Nat
  chanCorrected : Tbl (List DWord)
  remap : Tbl (Nat × Nat)
  spareUsed : Tbl Nat
  retiring : Option Retire
  retireQueue : List Nat
  shoals : Tbl Shoal
  windows : Tbl Window
  modObjs : Tbl Word
  objOwner : Tbl Nat
  modWaits : List WaitEntry
  directory : Tbl (BitVec 128)
  records : Tbl (BitVec 512)
  listMem : Tbl Word
  catWaiting : List (Nat × MbCmd)
  deriving DecidableEq, Repr

/-- A mesh packet (07 R174, R176): routers it comes from and goes to, virtual channel, buffer class, the router input whose buffer
holds it (0 N, 1 S, 2 E, 3 W, 4 attachment, 5 local atoll), the local count at its injection (its age counts from there),
payload. -/
structure MPkt where
  src : Nat
  dst : Nat
  vc : Nat
  upper : Bool
  input : Nat
  since : DWord
  payload : List Byte
  deriving DecidableEq, Repr

/-- A causeway message (07 R186). -/
structure CMsg where
  header : Word
  payload : List Word
  deriving DecidableEq, Repr

/-- On-module networks and clocks (07). Links are named by number as `Ops` numbers them. -/
structure NetSt where
  routers : Tbl (List MPkt)
  served : Tbl Nat
  ejected : Tbl (List MPkt)
  failed : List (OnDieLink × Nat)
  retries : List (OnDieLink × DWord)
  retraining : List OnDieLink
  linkFenced : List OnDieLink
  retryLast : List (OnDieLink × DWord)
  isleRetry : Tbl Word
  isleRetrain : Tbl Word
  dieRetry : Tbl Word
  causeWaiting : Tbl (List CMsg)
  causeRoute : Tbl (Tbl Nat)
  causeDelivered : Tbl (List CMsg)
  meshStep : Tbl (BitVec 4)
  osc0 : Bool
  osc1 : Bool
  onOsc1 : List Nat
  switchAt : DWord
  arith : Tbl Nat
  ungated : List Nat
  deriving DecidableEq, Repr

/-- An access that waits for a back-invalidation answer (12 R305): the line asked for, whether it is asked with BISnpInv, the
host read it holds up (none: a device access), and whether HOST_BI_TIMEOUT has passed. -/
structure BiWait where
  line : Nat
  inv : Bool
  hostRead : Option (Nat × HostCacheUse)
  since : DWord
  expired : Bool
  deriving DecidableEq, Repr

/-- A message or response that left the module towards the host (log entry 9). -/
inductive HostOut where
  | msix (v : Nat)
  | memData (addr : Nat) (data : List Byte)
  | memPoison (addr : Nat)
  | biSnpInv (line : Nat)
  | biSnpData (line : Nat)
  | rspIHitI (addr : Nat)
  | cxlMailbox (code : Half) (data : List Byte)
  | ideRsp (code : Byte)
  deriving DecidableEq, Repr

/-- The host port (12 R300-R306, R318). -/
structure HostSt where
  linkUp : Bool
  rate : HostRate
  width : Nat
  perst : Bool
  hdmCommitted : Bool
  hdmBase : Nat
  hdmSize : Nat
  hdmWays : Nat
  hdmGran : Nat
  sf : Tbl (Nat × Bool)
  sfPlru : Tbl Nat
  biWaits : List BiWait
  biTimeouts : Word
  memResets : Word
  msixEnable : Bool
  msixMask : Bool
  vecUnmasked : List Nat
  msixTable : Tbl DWord
  vecPending : List Nat
  mem : Mem
  memPoison : List Nat
  out : List HostOut
  ideKeys : List (Nat × Nat × BitVec 256)
  ideState : Tbl Nat
  deriving DecidableEq, Repr

end Sys2Proof.Machine
end

