-- ==== Sys2Proof/Machine/StFab.lean ====
section
/-! DEFINITION. State of the strait links and the fabric (08) and of the collectives (09). -/

namespace Sys2Proof.Machine

/-- A fabric packet: its routing word (Table 8-5) and the bytes after it. -/
structure FPkt where
  word : DWord
  data : List Byte
  deriving DecidableEq, Repr

/-- A packet at a link output: the link it came in on, as it arrived, and as it leaves. -/
structure OutPkt where
  src : Option Nat
  pkt : FPkt
  out : FPkt
  deriving DecidableEq, Repr

/-- A codeword in the replay buffer; the packet whose last byte it carries. -/
structure TxCw where
  seq : Nat
  body : List Byte
  credit : Nat
  pkt : Option OutPkt
  deriving DecidableEq, Repr

/-- A fabric link (08 R194-R199, Table 8-22). Retries of the last millisecond name their lane; allowances are in 64-byte
units by credit code 1 to 7; `freed` counts bytes freed and not yet returned. -/
structure FLink where
  fencedLanes : BitVec 2
  retraining : BitVec 2
  state : Nat
  peerLink : Nat
  peerModule : Nat
  peerIdValid : Bool
  peerFwd : Bool
  peerFormat : Option Bool
  retrains : Nat
  group : Nat
  dateline : Bool
  enable : Bool
  txNext : Nat
  replay : List TxCw
  waiting : List OutPkt
  allowance : Tbl Nat
  tookVc2 : Bool
  rxNext : Nat
  seeking : Bool
  nakDue : Bool
  owed : List Nat
  freed : Tbl Nat
  tail : List Byte
  retries : List (DWord × Nat)
  lastRetry : Option DWord
  lastFec : Option DWord
  trainedAt : DWord
  controlIn : List (List Byte)
  deriving DecidableEq, Repr

/-- A packet that waits at a strait die, with the link it came in on (none: the module's own), and whether it still holds that
link's input buffer (one routed again does not). -/
structure Arrived where
  link : Option Nat
  held : Bool
  pkt : FPkt
  deriving DecidableEq, Repr

/-- A message being put together from cells (08 R206). -/
structure Reasm where
  src : Nat
  vc : Nat
  mcast : Bool
  dest : Nat
  msgId : Nat
  since : DWord
  head : Option DWord
  cells : Tbl (List Byte)
  kind : Nat
  dend : Nat
  deriving DecidableEq, Repr

/-- A message taken from the fabric (Table 8-6). -/
structure FMsg where
  src : Nat
  srcEnd : Nat
  dend : Nat
  vc : Nat
  kind : Nat
  seq : Nat
  mcast : Bool
  copy : Bool
  group : Nat
  payload : List Byte
  deriving DecidableEq, Repr

/-- A receive filter (08 R206): the latest sequence number, and the last 512 seen with their ACK status, none while the
message waits. -/
structure Filter where
  seen : List (Nat × Option Nat)
  deriving DecidableEq, Repr

/-- `accepted` says that the first message of `remoteIn` has passed its window check (06 R165, R166).
A strait die (Tables 8-22, 9-15): counters, arriving packets, messages waiting for their rows, telemetry ring. -/
structure Strait where
  fecCorrected : Word
  retry : Word
  retrain : Word
  noRoute : Word
  hopDrop : Word
  badPacket : Word
  duplicate : Word
  mcastDrop : Word
  syncDrop : Word
  collDrop : Word
  earlyDrop : Word
  stepSkew : Word
  nonfinite : Word
  telemetry : List (BitVec 512)
  lost : Word
  head : Nat
  sample : Nat
  arrivals : List Arrived
  reasm : List Reasm
  remoteIn : List FMsg
  syncIn : List FMsg
  ackIn : List FMsg
  collIn : List FMsg
  floodIn : List (Nat × FPkt)
  early : List (FMsg × DWord)
  accepted : Bool
  deriving DecidableEq, Repr

/-- A strait die after cold reset. -/
def Strait.reset : Strait :=
  { fecCorrected := 0, retry := 0, retrain := 0, noRoute := 0, hopDrop := 0, badPacket := 0, duplicate := 0,
    mcastDrop := 0, syncDrop := 0, collDrop := 0, earlyDrop := 0, stepSkew := 0, nonfinite := 0, telemetry := [],
    lost := 0, head := 0, sample := 0, arrivals := [], reasm := [], remoteIn := [], syncIn := [], ackIn := [],
    collIn := [], floodIn := [], early := [], accepted := false }

/-- A link after cold reset: DOWN, enabled (Table 8-22). -/
def FLink.reset : FLink :=
  { fencedLanes := 0, retraining := 0, state := 0, peerLink := 0, peerModule := 0, peerIdValid := false,
    peerFwd := false, peerFormat := none, retrains := 0, group := 0, dateline := false, enable := true, txNext := 0,
    replay := [], waiting := [], allowance := [], tookVc2 := false, rxNext := 0, seeking := false, nakDue := false,
    owed := [], freed := [], tail := [], retries := [], lastRetry := none, lastFec := none, trainedAt := 0,
    controlIn := [] }

/-- Who waits for the acknowledgement of a message: a memory command (by its order), a scope-3 signal, or a collective. -/
inductive MsgOwner where
  | dma (order : Nat)
  | signal
  | coll (k : CollKey)
  deriving DecidableEq, Repr

/-- A sequenced message of the module (08 R205, R207, R217): `dest` is a module or a group, `targets` the modules of a group
by index, `acked` the target indices that have acknowledged. -/
structure TxMsg where
  mcast : Bool
  copy : Option Nat
  dest : Nat
  vc : Nat
  kind : Nat
  srcEnd : Nat
  dend : Nat
  seq : Nat
  sync : Bool
  payload : List Byte
  owner : MsgOwner
  tries : Nat
  targets : List Nat
  acked : List Nat
  ticket : Nat
  deriving DecidableEq, Repr

/-- The fabric side of the module (08). `synced` says of a destination whether its first message has been acknowledged;
`sent` are the codewords put on links (log entry 9): link, control field, body. -/
structure FabSt where
  links : Tbl FLink
  straits : Tbl Strait
  filters : Tbl Filter
  routes : Tbl Word
  groups : Tbl (BitVec 128)
  txSeq : Tbl Nat
  synced : Tbl Bool
  waiting : List TxMsg
  unacked : List TxMsg
  mcastDone : List (BitVec 512)
  sent : List (Nat × BitVec 20 × List Byte)
  deriving DecidableEq, Repr

/-- The fabric after cold reset (08 R205, R206, R210). -/
def FabSt.reset : FabSt :=
  { links := [], straits := [], filters := [], routes := [], groups := [], txSeq := [], synced := [], waiting := [],
    unacked := [], mcastDone := [], sent := [] }

/-- A chunk accumulator (09 R228, R229): the apex words per member, whether GRANT went out, the blocks received per member,
and the grid sum of every element. `elems` holds (sum, NaN, +Inf, -Inf) as an accumulator keeps them. -/
structure ChunkAcc where
  words : Tbl (List Half)
  granted : Bool
  blocksFrom : Tbl (List Nat)
  elems : List (Int × Bool × Bool × Bool)
  deriving DecidableEq, Repr

/-- A collective (09 R222): its issuer, descriptor, members, COLL_WINDOW at its start and progress. Per owner rank:
`asked` the chunks COLL_APEX was sent for, `doneAt` the chunks done, `given` the chunks contributed, `arrived` the blocks
of its shard gathered. `sentTo` lists the ranks the own shard was gathered to, `finished` the completion word. -/
structure Coll where
  key : CollKey
  part : Nat
  st : Nat
  idx : Nat
  img : BitVec 1024
  members : List Nat
  running : Bool
  window : Nat
  asked : Tbl Nat
  doneAt : Tbl (List Nat)
  given : Tbl (List Nat)
  accs : Tbl ChunkAcc
  written : List Nat
  joined : List Nat
  sentTo : List Nat
  arrived : Tbl (List Nat)
  tiles : List Nat
  skew : Bool
  low : Bool
  nonfinite : Bool
  seed : DWord
  finished : Option DWord
  deriving DecidableEq, Repr

/-- Collectives accepted by the module, in queue order; finished ones stay until their step commits (Table 9-8). -/
structure CollSt where
  list : List Coll
  deriving DecidableEq, Repr

/-- No collectives. -/
def CollSt.reset : CollSt := { list := [] }

end Sys2Proof.Machine
end

