-- ==== Sys2Proof/Machine/StSys.lean ====
section
/-! DEFINITION. State of power delivery and ageing (15), firmware and attestation (16), and the management plane, the test
access port and the pins (17, 19). A region is keyed by causeway node * 16 + region number. -/

namespace Sys2Proof.Machine

/-- REGION_POWER `state` (Table 15-6). -/
inductive RegionState where
  | off | waiting | ramping | on | dark | fenced
  deriving DecidableEq, Repr

/-- A request to the current ledger (15 R373): a region to be on at a step, or a staging bank to be powered. -/
inductive LedgerReq where
  | region (key : Nat) (step : Nat)
  | bank (h b : Nat)
  deriving DecidableEq, Repr

/-- Regions, ledger and ageing (15). `lost` holds phases lost, `ceiling`, `thermal`, `granted` the three step limits of R376,
`thDuty` the duty stages of R379, `pwDuty` those of R377, `hot` the thermal actions applied; `highRuns` counts re-plans in a
row with 8 taps or more. `trip` is the trip flag of the identity store: 0 thermal, 1 input overvoltage. -/
structure PowerSt where
  lost : Tbl (BitVec 9)
  state : Tbl RegionState
  ceiling : Tbl Nat
  thermal : Tbl Nat
  granted : Tbl Nat
  thDuty : Tbl Nat
  pwDuty : Nat
  capped : List Nat
  temp : Tbl (BitVec 12)
  current : Tbl Half
  setpoint : Tbl Nat
  queue : List LedgerReq
  ramping : List (Nat × Nat)
  measured : Nat
  converters : BitVec 5
  slack : Tbl Nat
  highRuns : Tbl Nat
  droop : Tbl Nat
  trip : Option Nat
  deriving DecidableEq, Repr

/-- Power before the input rises. -/
def PowerSt.reset : PowerSt :=
  { lost := [], state := [], ceiling := [], thermal := [], granted := [], thDuty := [], pwDuty := 0, capped := [],
    temp := [], current := [], setpoint := [], queue := [], ramping := [], measured := 0, converters := 0x1F,
    slack := [], highRuns := [], droop := [], trip := none }

/-- What an Icrax image header states (Table 16-3): versions, and the versions of its manager and scalar components. -/
structure FwInfo where
  version : Word
  security : Nat
  hMajor : Nat
  hMinor : Nat
  manager : Word
  scalar : Word
  deriving DecidableEq, Repr

/-- The image a module leaves the factory with (no version is stated: log entry 4). -/
def FwInfo.factory : FwInfo := { version := 0, security := 0, hMajor := 0, hMinor := 0, manager := 0, scalar := 0 }

/-- A firmware store slot (Table 16-1): its 32 MiB and, when the image is valid, what its header states. -/
structure FwSlot where
  mem : Mem
  info : Option FwInfo
  deriving DecidableEq, Repr

/-- A hub's firmware: slots 0 and 1, the slot booted and the slot its slot record names, its rollback floor, and the image it
runs. -/
structure FwHub where
  slot0 : FwSlot
  slot1 : FwSlot
  booted : Nat
  next : Nat
  floor : Nat
  running : FwInfo
  deriving DecidableEq, Repr

/-- A hub with the factory image in slot 0. -/
def FwHub.reset : FwHub :=
  { slot0 := { mem := [], info := some FwInfo.factory }, slot1 := { mem := [], info := none }, booted := 0, next := 0,
    floor := 0, running := FwInfo.factory }

/-- A hitless activation (Table 16-7): the image, the step reached, the dies still to visit, those deferred and returned to,
and those updated. -/
structure Activation where
  info : FwInfo
  step : Nat
  todo : List Nat
  deferred : List Nat
  second : Bool
  updated : Nat
  deriving DecidableEq, Repr

/-- What a core has taken of a broadcast (14 R352): good blocks, requests for a repeat of the block it waits for, and whether a
complete sealed image runs or the core has given up. -/
structure FwCoreSt where
  blocks : Nat
  asks : Nat
  running : Bool
  failed : Bool
  deriving DecidableEq, Repr

/-- An SPDM session (16 R402): its number, whether FINISH has been taken, and its key update count. -/
structure SpdmSession where
  id : Nat
  finished : Bool
  keyGen : Nat
  deriving DecidableEq, Repr

/-- Firmware, seal and attestation (16). `session` is an open staging session: through PLDM or not, and the bytes it holds.
`scalars` are the scalar runtimes held, current first. `spdmStage` is 0 none, 1 versions, 2 capabilities, 3 algorithms, `spdmTransfer` the
largest message that the requester takes in one piece (0: any). -/
structure FwSt where
  hubs : Tbl FwHub
  revoked : BitVec 4
  session : Option (Bool × Nat)
  staged : Option FwInfo
  activation : Option Activation
  doneDeferred : Bool
  managers : Tbl Word
  scalars : List Word
  cores : Tbl FwCoreSt
  sealKeys : Tbl (BitVec 256)
  role : BitVec 2
  jtagUsed : Bool
  freezeUsed : Bool
  spdmStage : Nat
  spdmTransfer : Nat
  sessions : List SpdmSession
  sessionNext : Nat
  chunkIn : Option (Nat × List Byte)
  chunkOut : Option (Nat × List Byte)
  deriving DecidableEq, Repr

/-- Firmware state before the first power-on (log entry 4). -/
def FwSt.reset : FwSt :=
  { hubs := [], revoked := 0, session := none, staged := none, activation := none,
    doneDeferred := false, managers := [], scalars := [0], cores := [], sealKeys := [], role := 0, jtagUsed := false,
    freezeUsed := false, spdmStage := 0, spdmTransfer := 0, sessions := [], sessionNext := 1, chunkIn := none,
    chunkOut := none }

/-- A queued PLDM event (17 R411, R412): class, data, whether it is a status report, and its sends so far. -/
structure PldmEvent where
  cls : Nat
  data : List Byte
  status : Bool
  tries : Nat
  id : Nat
  deriving DecidableEq, Repr

/-- A message or bus event that left the management connector, or bits shifted out of the TAP (log entry 9). -/
inductive MgmtOut where
  | mctp (type : Byte) (data : List Byte)
  | inBand
  | ccc (code : Byte) (data : List Byte)
  | alertAddress (addr : Byte)
  | tap (width : Nat) (value : BitVec 128)
  deriving DecidableEq, Repr

/-- The management plane and the TAP (17, 19). `ir` is the TAP instruction; `dbg` the unit, next word and words left of a
DBG_SEL; `boundary` the boundary register's update stage. -/
structure MgmtSt where
  i3c : Bool
  dynAddr : Option Byte
  ibi : Bool
  mwl : Half
  mrl : Half
  eid : Byte
  tid : Byte
  receiver : Option Byte
  queue : List PldmEvent
  eventId : Nat
  statusCount : Nat
  sensors : Tbl Int
  available : Tbl Bool
  levels : Tbl Nat
  pldmFw : Nat
  out : List MgmtOut
  ir : Byte
  boundary : DWord
  extest : Bool
  dbg : Option (Word × Nat × Nat)
  stopped : BitVec 32
  notice : Bool
  modResetLow : Bool
  resetHeld : Bool
  deriving DecidableEq, Repr

/-- The management plane before power-good: no address but the static one, IDCODE selected (Table 17-6); the pulled-up reset and
freeze inputs read high (Table 19-4). -/
def MgmtSt.reset : MgmtSt :=
  { i3c := false, dynAddr := none, ibi := false, mwl := 0, mrl := 0, eid := 0, tid := 0,
    receiver := none, queue := [], eventId := 0, statusCount := 0, sensors := [], available := [], levels := [],
    pldmFw := 0, out := [], ir := 0x01, boundary := 0, extest := false, dbg := none, stopped := 0, notice := false,
    modResetLow := false, resetHeld := false }

end Sys2Proof.Machine
end

