-- ==== Sys2Proof/Machine/State.lean ====
section
/-! DEFINITION. The state of the module, its faults and refusals, and the state right after reset. -/

namespace Sys2Proof.Machine

/-- Where the module is in its life (14, 11 R281, R290, 19 R443). -/
inductive LifeState where
  | off | tripped | bringup | moduleReset | holding | recovery | noProcessor | ready | outOfService | stopped
  deriving DecidableEq, Repr

/-- Lifecycle and hubs (11 R286, 14 R348-R360). -/
structure LifeSt where
  state : LifeState
  powered : Bool
  activeHub : Nat
  usable : BitVec 2
  standby : Bool
  liveLast : Tbl Nat
  strap : BitVec 4
  moduleId : Option (BitVec 13)
  frozen : Bool
  frozenCount : DWord
  tests : Option BringUp
  failingHub : Bool
  deriving DecidableEq, Repr

/-- The state of the whole module, with the queue of commands waiting. -/
structure State where
  pending : List Instr
  count : DWord
  freeCtr : Nat
  life : LifeSt
  params : Tbl DWord
  atolls : Tbl Atoll
  parts : Tbl Part
  reconfs : List Reconf
  reconfNext : Nat
  mem : MemSt
  net : NetSt
  flt : FaultSt
  host : HostSt
  mailboxes : Tbl Mailbox
  cmdOrder : Nat
  events : List Event
  fab : FabSt
  coll : CollSt
  power : PowerSt
  fw : FwSt
  mgmt : MgmtSt
  deriving DecidableEq, Repr

/-- Why a command faults. -/
inductive Fault where
  /-- Raised by a meaning whose operands name no part of the module (a register that Tables 0-5 to 19 do not list):
  safe, the model stops where the module has no such access. -/
  | noSuchPart
  deriving DecidableEq, Repr

/-- Why a command is refused. -/
inductive Refusal where
  /-- Raised by Dispatch for a row that has no meaning yet: safe, the model stops. -/
  | notModelled (mnemonic : String)
  deriving DecidableEq, Repr

/-- Physical neighbour of site g in direction 0 N, 1 S, 2 E, 3 W (03 R51), where one exists. -/
def physNeighbour (g dir : Nat) : Option Nat :=
  let die := g / 40
  let row := die / 4
  let col := die % 4
  let half := g % 40 / 20
  let site := g % 20
  let x := half * 5 + site % 5
  let y := site / 5
  let at_ (d x y : Nat) : Nat := d * 40 + x / 5 * 20 + y * 5 + x % 5
  match dir with
  | 0 => if y > 0 then some (at_ die x (y - 1)) else if row = 1 then some (at_ (die - 4) x 3) else none
  | 1 => if y < 3 then some (at_ die x (y + 1)) else if row = 0 then some (at_ (die + 4) x 0) else none
  | 2 => if x < 9 then some (at_ die (x + 1) y) else if col < 3 then some (at_ (die + 1) 0 y) else none
  | _ => if x > 0 then some (at_ die (x - 1) y) else if col > 0 then some (at_ (die - 1) 9 y) else none

/-- Reset value of a neighbour map register (Table 3-3). -/
def NbrMap.reset (g dir : Nat) : NbrMap :=
  match physNeighbour g dir with
  | some n => { target := BitVec.ofNat 9 n, routed := false, valid := true }
  | none => { target := 0, routed := false, valid := false }

/-- An atoll right after reset (Tables 3-3, 4-16, 5-12). -/
def Atoll.reset (g : Nat) : Atoll :=
  { assigned := false, partition := 0, bayCache := 0, bayBusy := 0, cacheBase := 0, split := false,
    nbr := [NbrMap.reset g 0, NbrMap.reset g 1, NbrMap.reset g 2, NbrMap.reset g 3], lagoon := [], lineMeta := [],
    heldWrites := [], changes := [], cache := [], plru := [], cacheCmds := [], engines := [], bankOps := [], vecs := [],
    seqs := [], queues := [], laneEn := 0, ptEn := 0, laneOut := 0, ptRoute := 0, laneIn := [], laneHold := [],
    credits := [], creditBack := [], ownIn := [], ownHold := none, descValid := false, descriptor := 0,
    record := 0x3FFF, tess := .unconfigured, epoch := 0, epochDiscard := 0, flushDiscard := 0, ptDiscard := 0,
    chDiscard := 0, discardNoted := false, reconf := none, objs := [], waits := [], connIn := [],
    cores := [], dmaBuf := 0, dmaDone := [], inReset := false, destInReset := 0,
    patrolFull := 0, patrolGap := [], gapDone := [], suite := false, corrected := 0, frozen := false,
    aborting := false, goSent := false, descOffset := 0 }

/-- A DRAM map over no channels. -/
def DramMap.empty : DramMap := { chans := [], inter := 0, local_ := 0, spare := 0, size := 0 }

/-- Memory after power-on, before bring-up builds its map. -/
def MemSt.reset : MemSt :=
  { dram := [], dramPoison := [], map := DramMap.empty, chanState := [], pagesLeft := [], chanCorrected := [],
    remap := [], spareUsed := [], retiring := none, retireQueue := [], shoals := [], windows := [], modObjs := [],
    objOwner := [], modWaits := [], directory := [], records := [], listMem := [], catWaiting := [] }

/-- Networks after power-on: both oscillators run, OSC0 selected (07 R187), every step 0. -/
def NetSt.reset : NetSt :=
  { routers := [], served := [], ejected := [], failed := [], retries := [], retraining := [], linkFenced := [], retryLast := [], isleRetry := [],
    isleRetrain := [], dieRetry := [], causeWaiting := [], causeRoute := [], causeDelivered := [], meshStep := [], osc0 := true,
    osc1 := true, onOsc1 := [], switchAt := 0, arith := [], ungated := [] }

/-- Fault and recovery state of a module as it leaves the factory with nothing fenced (log entry 4). -/
def FaultSt.reset : FaultSt :=
  { fenced := [], fenceQueue := [], fenceMap := [], clearPending := [], collectors := [], log := [], logNext := 0,
    suspects := [], reportNext := 0, touch := [], wear := [], wearCheckpoint := [], escalations := [], fatal := false, fatalSeq := 0,
    atollResets := [], moduleResets := [], outOfService := false, boot := 0, fenceGen := 0, notices := 0,
    floodNumber := 0, floodFilter := [], floodsOut := [], hbLast := [], mgrFenced := [], patrolLast := [],
    patrolDone := [], suites := [], suiteHome := [], dump := none, resetPending := none, abortPending := [], beat := 0, hbWord := 0 }

/-- The host port before its link trains. MSI-X is disabled and every vector masked (PRESUMED, log entry 10). -/
def HostSt.reset : HostSt :=
  { linkUp := false, rate := .gt64, width := 0, perst := true, hdmCommitted := false, hdmBase := 0, hdmSize := 0,
    hdmWays := 1, hdmGran := 256, sf := [], sfPlru := [], biWaits := [], biTimeouts := 0, memResets := 0,
    msixEnable := false, msixMask := false, vecUnmasked := [], msixTable := [], vecPending := [], mem := [], memPoison := [], out := [],
    ideKeys := [], ideState := [] }

/-- The module without input power. -/
def LifeSt.reset : LifeSt :=
  { state := .off, powered := false, activeHub := 0, usable := 0, standby := false, liveLast := [], strap := 0,
    moduleId := none, frozen := false, frozenCount := 0, tests := none,
    failingHub := false }

/-- The machine right after reset: without power, nothing placed, no command waiting (log entry 4). -/
def State.reset : State :=
  { pending := [], count := 0, freeCtr := 0, life := LifeSt.reset, params := [], atolls := [], parts := [],
    reconfs := [], reconfNext := 0, mem := MemSt.reset, net := NetSt.reset, flt := FaultSt.reset,
    host := HostSt.reset, mailboxes := [], cmdOrder := 0, events := [], fab := FabSt.reset,
    coll := CollSt.reset, power := PowerSt.reset, fw := FwSt.reset, mgmt := MgmtSt.reset }

end Sys2Proof.Machine
end

