-- ==== Sys2Proof/Machine/Ops.lean ====
section
/-! DEFINITION. Shared operations: sparse tables, byte memory, record fields, access to the parts of the state, unit
identifiers, parameters, fault records, fences, notices, escalations and the idle tick. -/

namespace Sys2Proof.Machine

/-! ### Sparse tables -/

/-- Look up a key. -/
def Tbl.get? {α : Type} : Tbl α → Nat → Option α
  | [], _ => none
  | (k, v) :: t, a => if k = a then some v else if a < k then none else Tbl.get? t a

/-- Look up with a default. -/
def Tbl.getD {α : Type} (t : Tbl α) (a : Nat) (d : α) : α := (Tbl.get? t a).getD d

/-- Set a key, keys staying in rising order. -/
def Tbl.set {α : Type} : Tbl α → Nat → α → Tbl α
  | [], a, v => [(a, v)]
  | (k, w) :: t, a, v => if k = a then (a, v) :: t else if a < k then (a, v) :: (k, w) :: t else (k, w) :: Tbl.set t a v

/-- Remove a key. -/
def Tbl.erase {α : Type} (t : Tbl α) (a : Nat) : Tbl α := t.filter fun e => e.1 != a

/-! ### Byte memory, canonical: addresses strictly rising, no zero byte listed (log entry 5) -/

/-- The canonical form. -/
abbrev Memory.wf (m : Mem) : Prop := m.Pairwise (fun a b => a.1 < b.1) ∧ ∀ e ∈ m, e.2 ≠ 0

/-- Read one byte; an unlisted byte reads 0. -/
def Mem.read : Mem → Nat → Byte
  | [], _ => 0
  | (k, v) :: t, a => if k = a then v else if a < k then 0 else Mem.read t a

/-- Put a non-zero byte, keeping the order. -/
def Mem.put : Mem → Nat → Byte → Mem
  | [], a, v => [(a, v)]
  | (k, w) :: t, a, v => if k = a then (a, v) :: t else if a < k then (a, v) :: (k, w) :: t else (k, w) :: Mem.put t a v

/-- Write one byte; a zero removes the entry. -/
def Mem.write (m : Mem) (a : Nat) (v : Byte) : Mem :=
  if v = 0 then m.filter fun e => e.1 != a else Mem.put m a v

/-- Read n bytes from a. -/
def Mem.readBytes (m : Mem) (a n : Nat) : List Byte := (List.range n).map fun i => Mem.read m (a + i)

/-- Write bytes from a up. -/
def Mem.writeBytes : Mem → Nat → List Byte → Mem
  | m, _, [] => m
  | m, a, b :: bs => Mem.writeBytes (Mem.write m a b) (a + 1) bs

/-- Zero the bytes a to a + n - 1. -/
def Mem.clear (m : Mem) (a n : Nat) : Mem := m.filter fun e => decide (e.1 < a) || decide (a + n ≤ e.1)

/-- Little-endian value of a byte list (00 R1). -/
def leNat : List Byte → Nat
  | [] => 0
  | b :: bs => b.toNat + 256 * leNat bs

/-- Little-endian bytes of a value. -/
def leBytes : Nat → Nat → List Byte
  | 0, _ => []
  | n + 1, v => BitVec.ofNat 8 v :: leBytes n (v / 256)

/-- Read an n-byte little-endian value. -/
def Mem.readNat (m : Mem) (a n : Nat) : Nat := leNat (Mem.readBytes m a n)

/-- Write an n-byte little-endian value. -/
def Mem.writeNat (m : Mem) (a n v : Nat) : Mem := Mem.writeBytes m a (leBytes n v)

/-! ### Record fields -/

/-- Bits [lo+n-1:lo] of a value. -/
def bits (v lo n : Nat) : Nat := v / 2 ^ lo % 2 ^ n

/-- Bits [lo+n-1:lo] of the field that starts at byte `off` of a record. -/
def fld {w : Nat} (r : BitVec w) (off lo n : Nat) : Nat := bits r.toNat (8 * off + lo) n

/-- One flag bit. -/
def flag {w : Nat} (r : BitVec w) (off lo : Nat) : Bool := fld r off lo 1 == 1

/-- A record built from (byte offset, value) pairs that do not overlap. -/
def pack (fs : List (Nat × Nat)) : Nat := fs.foldl (fun a f => a + f.2 * 2 ^ (8 * f.1)) 0

/-- The same as n bytes. -/
def packBytes (n : Nat) (fs : List (Nat × Nat)) : List Byte := leBytes n (pack fs)

/-- 1 or 0. -/
def b2n (b : Bool) : Nat := if b then 1 else 0

/-- Replace bits [lo+n-1:lo] of a value. -/
def setBits (v lo n x : Nat) : Nat := v - bits v lo n * 2 ^ lo + x % 2 ^ n * 2 ^ lo

/-- One check of a command or descriptor: the offset it reports, and whether the record fails it. -/
structure Chk where
  off : Nat
  range : Bool
  bad : Nat → Bool

/-- A reserved field: bits lo to lo+n-1 from byte off must be 0 (00 R4). -/
def Chk.rsv (off lo n : Nat) : Chk := { off := off, range := false, bad := fun r => bits r (8 * off + lo) n != 0 }

/-- A field at most mx, numeric (OUT_OF_RANGE, 12 R313 step 4). -/
def Chk.max (off lo n mx : Nat) : Chk := { off := off, range := true, bad := fun r => decide (bits r (8 * off + lo) n > mx) }

/-- A field at least mn. -/
def Chk.min (off lo n mn : Nat) : Chk := { off := off, range := true, bad := fun r => decide (bits r (8 * off + lo) n < mn) }

/-- A code field at most mx, higher codes not used (BAD_FIELD). -/
def Chk.code (off lo n mx : Nat) : Chk := { off := off, range := false, bad := fun r => decide (bits r (8 * off + lo) n > mx) }

/-- A field aligned to a multiple of k (an address outside its permitted space). -/
def Chk.align (off n k : Nat) : Chk := { off := off, range := true, bad := fun r => bits r (8 * off) n % k != 0 }

/-- Any other check. -/
def Chk.test (off : Nat) (range : Bool) (bad : Nat → Bool) : Chk := { off := off, range := range, bad := bad }

/-- Reserved bytes a to b: one check per byte. -/
def Chk.bytes (a b : Nat) : List Chk := (List.range (b + 1 - a)).map fun i => Chk.rsv (a + i) 0 8

/-- The first check that fails. -/
def firstBad (r : Nat) (cs : List Chk) : Option Chk := cs.find? fun c => c.bad r

/-! ### Parts of the state -/

/-- Atoll g. -/
def State.atoll (s : State) (g : Nat) : Atoll := Tbl.getD s.atolls g (Atoll.reset g)
/-- Replace atoll g. -/
def State.setAtoll (s : State) (g : Nat) (a : Atoll) : State := { s with atolls := Tbl.set s.atolls g a }
/-- Change atoll g. -/
def State.modAtoll (s : State) (g : Nat) (f : Atoll → Atoll) : State := s.setAtoll g (f (s.atoll g))
/-- Partition p, where it exists. -/
def State.part? (s : State) (p : Nat) : Option Part := Tbl.get? s.parts p
/-- Change partition p where it exists. -/
def State.modPart (s : State) (p : Nat) (f : Part → Part) : State :=
  match s.part? p with
  | some x => { s with parts := Tbl.set s.parts p (f x) }
  | none => s
/-- Shoal die h. -/
def State.shoal (s : State) (h : Nat) : Shoal := Tbl.getD s.mem.shoals h Shoal.reset
/-- Change shoal die h. -/
def State.modShoal (s : State) (h : Nat) (f : Shoal → Shoal) : State :=
  { s with mem := { s.mem with shoals := Tbl.set s.mem.shoals h (f (s.shoal h)) } }
/-- Mailbox m. -/
def State.mbox (s : State) (m : Nat) : Mailbox := Tbl.getD s.mailboxes m Mailbox.reset
/-- Change mailbox m. -/
def State.modMbox (s : State) (m : Nat) (f : Mailbox → Mailbox) : State :=
  { s with mailboxes := Tbl.set s.mailboxes m (f (s.mbox m)) }
/-- Change the fault state. -/
def State.modFlt (s : State) (f : FaultSt → FaultSt) : State := { s with flt := f s.flt }
/-- Change memory. -/
def State.modMem (s : State) (f : MemSt → MemSt) : State := { s with mem := f s.mem }
/-- Change the networks. -/
def State.modNet (s : State) (f : NetSt → NetSt) : State := { s with net := f s.net }
/-- Change power. -/
def State.modPower (s : State) (f : PowerSt → PowerSt) : State := { s with power := f s.power }
/-- Change firmware state. -/
def State.modFw (s : State) (f : FwSt → FwSt) : State := { s with fw := f s.fw }
/-- Change the management plane. -/
def State.modMgmt (s : State) (f : MgmtSt → MgmtSt) : State := { s with mgmt := f s.mgmt }
/-- Change the lifecycle state. -/
def State.modLife (s : State) (f : LifeSt → LifeSt) : State := { s with life := f s.life }
/-- Change the host port. -/
def State.modHost (s : State) (f : HostSt → HostSt) : State := { s with host := f s.host }

/-- Core c of an atoll. -/
def Atoll.core (a : Atoll) (c : Nat) : Core := Tbl.getD a.cores c Core.reset
/-- Change core c. -/
def Atoll.modCore (a : Atoll) (c : Nat) (f : Core → Core) : Atoll :=
  { a with cores := Tbl.set a.cores c (f (a.core c)) }
/-- Engine e. -/
def Atoll.engine (a : Atoll) (e : Nat) : Engine := Tbl.getD a.engines e Engine.reset
/-- Change engine e. -/
def Atoll.modEngine (a : Atoll) (e : Nat) (f : Engine → Engine) : Atoll :=
  { a with engines := Tbl.set a.engines e (f (a.engine e)) }
/-- Vector engine v. -/
def Atoll.vec (a : Atoll) (v : Nat) : VecEngine := Tbl.getD a.vecs v VecEngine.reset
/-- Change vector engine v. -/
def Atoll.modVec (a : Atoll) (v : Nat) (f : VecEngine → VecEngine) : Atoll :=
  { a with vecs := Tbl.set a.vecs v (f (a.vec v)) }
/-- Sequencer u. -/
def Atoll.seq (a : Atoll) (u : Nat) : Sequencer := Tbl.getD a.seqs u Sequencer.reset
/-- Change sequencer u. -/
def Atoll.modSeq (a : Atoll) (u : Nat) (f : Sequencer → Sequencer) : Atoll :=
  { a with seqs := Tbl.set a.seqs u (f (a.seq u)) }
/-- Queue q. -/
def Atoll.queue (a : Atoll) (q : Nat) : Queue := Tbl.getD a.queues q Queue.reset
/-- Change queue q. -/
def Atoll.modQueue (a : Atoll) (q : Nat) (f : Queue → Queue) : Atoll :=
  { a with queues := Tbl.set a.queues q (f (a.queue q)) }
/-- Metadata of lagoon line l (0 to 196607). -/
def Atoll.meta_ (a : Atoll) (l : Nat) : LineMeta := Tbl.getD a.lineMeta l LineMeta.reset
/-- Read a register of core c; x0 is 0. -/
def Core.reg (c : Core) (r : Nat) : DWord := if r = 0 then 0 else Tbl.getD c.x r 0
/-- Write a register of a core; writes to x0 are discarded. -/
def Core.setReg (c : Core) (r : Nat) (v : DWord) : Core := if r = 0 then c else { c with x := Tbl.set c.x r v }
/-- Stream st of a partition. -/
def Part.stream (p : Part) (st : Nat) : Stream := Tbl.getD p.streams st Stream.reset
/-- Change stream st. -/
def Part.modStream (p : Part) (st : Nat) (f : Stream → Stream) : Part :=
  { p with streams := Tbl.set p.streams st (f (p.stream st)) }
/-- Channel port i of a core. -/
def Core.port (c : Core) (i : Nat) : ChPort := Tbl.getD c.ports i ChPort.reset
/-- Change channel port i. -/
def Core.modPort (c : Core) (i : Nat) (f : ChPort → ChPort) : Core := { c with ports := Tbl.set c.ports i (f (c.port i)) }
/-- Window w. -/
def State.window (s : State) (w : Nat) : Window := Tbl.getD s.mem.windows w Window.reset
/-- Change window w. -/
def State.modWindow (s : State) (w : Nat) (f : Window → Window) : State :=
  s.modMem fun m => { m with windows := Tbl.set m.windows w (f (s.window w)) }

/-- Whether the module runs (powered, clocked, not in the middle of a timeline). -/
def State.running (s : State) : Bool := decide (s.life.state = .ready) && !s.life.frozen

/-- The cores of an atoll that retire together: core 0 alone in lockstep mode stands for the pair (03 R74). -/
def Atoll.coreIdx (a : Atoll) (c : Nat) : Nat := if a.split then c else 0

/-- The partition that owns atoll g (Table 3-3 ATOLL_PARTITION). -/
def State.partOf (s : State) (g : Nat) : Option Nat :=
  let a := s.atoll g
  if a.assigned then some a.partition.toNat else none

/-- The position an atoll carries in its partition. -/
def State.positionOf (s : State) (g : Nat) : Option (Nat × Nat) :=
  match s.partOf g with
  | none => none
  | some p =>
    match s.part? p with
    | none => none
    | some x => (x.posAtoll.find? fun e => e.2 == g).map fun e => (p, e.1)

/-- The atoll that carries position pos of partition p. -/
def State.atollAt (s : State) (p pos : Nat) : Option Nat := (s.part? p).bind fun x => Tbl.get? x.posAtoll pos

/-- R105: an atoll that has reported QUIESCENT notes activity. -/
def Atoll.active (a : Atoll) : Atoll :=
  { a with reconf := a.reconf.map fun r => if r.reported then { r with flag := true } else r }

/-! ### Unit identifiers (00 R6) -/

/-- A unit ID from its fields (Table 0-6). -/
def mkUnit (dieKind die half site kind index sub : Nat) : Word :=
  BitVec.ofNat 32 (dieKind * 2 ^ 29 + die * 2 ^ 24 + half * 2 ^ 23 + site * 2 ^ 18 + kind * 2 ^ 14 + index * 2 ^ 10 + sub)

/-- A unit of atoll g. -/
def atollUnit (g kind index sub : Nat) : Word := mkUnit 0 (g / 40) (g % 40 / 20) (g % 20) kind index sub
/-- The site of atoll g as a whole. -/
def siteUnit (g : Nat) : Word := atollUnit g 0 0 0x3FF
/-- Matrix engine e of atoll g. -/
def engineUnit (g e : Nat) : Word := atollUnit g 1 e 0x3FF
/-- Vector engine v of atoll g. -/
def vecUnit (g v : Nat) : Word := atollUnit g 2 v 0x3FF
/-- Scalar core or pair of atoll g. -/
def scalarUnit (g c : Nat) (split : Bool) : Word := atollUnit g 3 (if split then c else 15) 0x3FF
/-- Sequencer u of atoll g. -/
def seqUnit (g u : Nat) : Word := atollUnit g 4 u 0x3FF
/-- Bay b of atoll g: the lagoon's unit of its first bank. -/
def bayUnit (g b : Nat) : Word := atollUnit g 5 0 (b * 8)
/-- The bank arithmetic units of atoll g. -/
def bankUnits (g : Nat) : Word := atollUnit g 5 1 0x3FF
/-- A shoal die unit. -/
def shoalUnit (h kind index sub : Nat) : Word := mkUnit 1 h 0 0 kind index sub
/-- A strait die unit. -/
def straitUnit (x kind index sub : Nat) : Word := mkUnit 2 x 0 0 kind index sub
/-- Stream unit u of shoal h. -/
def streamUnitId (h u : Nat) : Word := shoalUnit h 9 u 0x3FF
/-- Fields of a unit ID. -/
def uDieKind (u : Word) : Nat := bits u.toNat 29 3
/-- Die number. -/
def uDie (u : Word) : Nat := bits u.toNat 24 5
/-- Half. -/
def uHalf (u : Word) : Nat := bits u.toNat 23 1
/-- Site. -/
def uSite (u : Word) : Nat := bits u.toNat 18 5
/-- Unit kind. -/
def uKind (u : Word) : Nat := bits u.toNat 14 4
/-- Unit index. -/
def uIndex (u : Word) : Nat := bits u.toNat 10 4
/-- Sub-unit. -/
def uSub (u : Word) : Nat := bits u.toNat 0 10
/-- The atoll site a unit lies in. -/
def uAtoll (u : Word) : Option Nat :=
  if uDieKind u = 0 ∧ uSite u < 20 ∧ uDie u < 8 ∧ uKind u ≤ 7 then some (uDie u * 40 + uHalf u * 20 + uSite u) else none
/-- The causeway node of a unit's die (07 R184). -/
def uNode (u : Word) : Nat :=
  match uDieKind u with
  | 0 => uDie u
  | 1 => 8 + uDie u
  | 2 => 24 + uDie u
  | _ => 30 + uDie u

/-- Whether a unit is fenced, by its own entry or as part of a fenced whole. -/
def State.isFenced (s : State) (u : Word) : Bool := s.flt.fenced.contains u

/-- A site is healthy while no unit in it is fenced (10 R259). -/
def State.siteHealthy (s : State) (g : Nat) : Bool := s.flt.fenced.all fun u => uAtoll u != some g

/-- Healthy atoll sites (10 R259). -/
def State.healthyCount (s : State) : Nat := (List.range 320).countP fun g => s.siteHealthy g

/-- Active count (01 R17). -/
def State.activeCount (s : State) : Nat := min s.healthyCount 256

/-- LPDDR5X devices that pass: all four channels HEALTHY (06 R141). -/
def State.devicesPassing (s : State) : Nat :=
  (List.range 32).countP fun d => (List.range 4).all fun c => Tbl.getD s.mem.chanState (4 * d + c) .healthy == .healthy

/-! ### Parameters (12 R321, Table 12-11) -/

/-- A parameter: number, partition scope, range, step of the range, default. -/
structure ParamSpec where
  number : Nat
  partScope : Bool
  lo : Nat
  hi : Nat
  stp : Nat
  dflt : Nat

/-- The parameter tables 4-17, 5-13, 6-12, 8-23, 9-16, 10-17, 11-16, 12-12, 13-10, 14-8, 15-8, 16 and 17. -/
def paramTable : List ParamSpec := [
  ⟨0x0400, true, 256, 1048576, 1, 4096⟩, ⟨0x0401, true, 8, 10000, 1, 64⟩, ⟨0x0402, false, 0, 512, 16, 64⟩,
  ⟨0x0500, true, 10, 1000000, 1, 1000⟩, ⟨0x0501, true, 10, 10000000, 1, 1000000⟩,
  ⟨0x0600, false, 0, 8, 1, 1⟩, ⟨0x0601, false, 0, 56, 4, 0⟩, ⟨0x0602, false, 0, 1, 1, 0⟩,
  ⟨0x0603, false, 1, 168, 1, 24⟩, ⟨0x0604, false, 10, 3600, 1, 60⟩, ⟨0x0605, false, 100, 1000000, 1, 10000⟩,
  ⟨0x0606, true, 10, 1000000, 1, 1000⟩,
  ⟨0x0800, false, 0, 1, 1, 0⟩, ⟨0x0801, false, 50, 100000, 1, 500⟩, ⟨0x0802, false, 0, 7, 1, 3⟩,
  ⟨0x0803, false, 10, 10000, 1, 100⟩, ⟨0x0804, false, 0, 7, 1, 2⟩, ⟨0x0805, false, 2, 63, 1, 40⟩,
  ⟨0x0806, false, 0, 1, 1, 0⟩, ⟨0x0807, false, 1, 1000, 1, 10⟩, ⟨0x0808, false, 1, 1000, 1, 16⟩,
  ⟨0x0900, false, 1, 8, 1, 4⟩, ⟨0x0901, true, 1, 10000, 1, 100⟩,
  ⟨0x0A00, false, 10, 100, 1, 100⟩, ⟨0x0A01, false, 10, 60, 1, 60⟩, ⟨0x0A02, false, 1, 8, 1, 4⟩,
  ⟨0x0A03, true, 1, 8, 1, 3⟩,
  ⟨0x0B00, false, 1, 1000, 1, 10⟩, ⟨0x0B01, true, 1, 100000, 1, 1000⟩, ⟨0x0B02, false, 2, 100, 1, 10⟩,
  ⟨0x0B03, false, 1, 16, 1, 4⟩, ⟨0x0B04, false, 1, 1440, 1, 60⟩, ⟨0x0B05, false, 1, 10, 1, 3⟩,
  ⟨0x0B06, false, 1, 168, 1, 24⟩, ⟨0x0B07, false, 10, 10000, 1, 100⟩, ⟨0x0B08, false, 0, 1, 1, 1⟩,
  ⟨0x0C00, false, 10, 100000, 1, 1000⟩,
  ⟨0x0D00, true, 1, 256, 1, 64⟩, ⟨0x0D01, true, 1, 1000, 1, 2⟩, ⟨0x0D02, true, 1, 1000, 1, 10⟩,
  ⟨0x0E00, false, 224, 256, 1, 224⟩, ⟨0x0E01, false, 64, 96, 1, 64⟩,
  ⟨0x0F00, false, 540, 700, 1, 700⟩, ⟨0x0F01, false, 80, 95, 1, 95⟩, ⟨0x0F02, false, 100, 10000, 1, 1000⟩,
  ⟨0x0F03, false, 1, 16, 1, 8⟩, ⟨0x0F04, false, 5, 50, 1, 15⟩, ⟨0x0F05, false, 1, 720, 1, 24⟩,
  ⟨0x1000, false, 1, 600, 1, 60⟩, ⟨0x1001, false, 0, 255, 1, 30⟩, ⟨0x1100, false, 0, 100, 1, 10⟩]

/-- The specification of a parameter number. -/
def paramSpec? (n : Nat) : Option ParamSpec := paramTable.find? fun p => p.number == n

/-- The default of a parameter. -/
def paramDefault (n : Nat) : Nat := ((paramSpec? n).map ParamSpec.dflt).getD 0

/-- The current value of a module-scope parameter. -/
def State.param (s : State) (n : Nat) : Nat := (Tbl.getD s.params n (BitVec.ofNat 64 (paramDefault n))).toNat

/-- The current value of a partition-scope parameter; an absent partition has the default. -/
def State.pparam (s : State) (p n : Nat) : Nat :=
  match s.part? p with
  | some x => (Tbl.getD x.params n (BitVec.ofNat 64 (paramDefault n))).toNat
  | none => paramDefault n

/-! ### Fault records (10 R269-R271) -/

/-- Fault classes (Table 10-10). -/
def clsAbft : Half := 0x0001
/-- RESIDUE_MISMATCH. -/
def clsResidue : Half := 0x0002
/-- LOCKSTEP_MISMATCH. -/
def clsLockstep : Half := 0x0003
/-- PATROL_FAIL. -/
def clsPatrol : Half := 0x0004
/-- SYMBOL_CORRECTED. -/
def clsCorrected : Half := 0x0005
/-- SYMBOL_UNCORRECTABLE. -/
def clsUncorrectable : Half := 0x0006
/-- LINK_FEC_CORRECTED. -/
def clsFec : Half := 0x0007
/-- LINK_RETRY. -/
def clsRetry : Half := 0x0008
/-- LINK_RETRAIN. -/
def clsRetrain : Half := 0x0009
/-- LINK_NARROW. -/
def clsNarrow : Half := 0x000A
/-- HEARTBEAT_MISS. -/
def clsHeartbeat : Half := 0x000B
/-- WATCHDOG. -/
def clsWatchdog : Half := 0x000C
/-- CHANNEL_STALL. -/
def clsStall : Half := 0x000D
/-- JOIN_STARVE. -/
def clsStarve : Half := 0x000E
/-- EPOCH_DISCARD. -/
def clsEpoch : Half := 0x000F
/-- STEP_SKEW. -/
def clsSkew : Half := 0x0010
/-- WINDOW_CLOSED. -/
def clsWindow : Half := 0x0011
/-- BANK_OFF. -/
def clsBankOff : Half := 0x0012
/-- DEST_IN_RESET. -/
def clsDestReset : Half := 0x0013
/-- DROOP_SIGNATURE. -/
def clsDroop : Half := 0x0014
/-- PHASE_LOSS. -/
def clsPhase : Half := 0x0015
/-- AGEING_MARGIN. -/
def clsAgeing : Half := 0x0016
/-- THERMAL. -/
def clsThermal : Half := 0x0017
/-- TIMEOUT. -/
def clsTimeout : Half := 0x0018

/-- Action bits of a record (Table 10-9). -/
def actCounted : Nat := 1
/-- fenced. -/
def actFenced : Nat := 2
/-- sibling. -/
def actSibling : Nat := 4
/-- replaced. -/
def actReplaced : Nat := 8
/-- rolled_back. -/
def actRolled : Nat := 16
/-- stream_stopped. -/
def actStopped : Nat := 32
/-- suspect. -/
def actSuspect : Nat := 64
/-- absorbed. -/
def actAbsorbed : Nat := 128
/-- escalated. -/
def actEscalated : Nat := 256
/-- fatal. -/
def actFatal : Nat := 512
/-- coalesced. -/
def actCoalesced : Nat := 1024
/-- poisoned. -/
def actPoisoned : Nat := 2048
/-- retiring. -/
def actRetiring : Nat := 4096

/-- What a raising rule states of a record; the detail lists (record byte offset, value). -/
structure RecIn where
  unit : Word
  cls : Half
  opKind : Nat := 0
  opCode : Nat := 0
  part : Option Nat := none
  scope : Nat := 0
  actions : Nat := 0
  detail : List (Nat × Nat) := []

/-- Detail bytes 32-59 from (record byte offset, value) pairs. -/
def detailBits (d : List (Nat × Nat)) : BitVec 224 := BitVec.ofNat 224 (pack (d.map fun e => (e.1 - 32, e.2)))

/-- The 512 bits of a record (Table 10-9). -/
def ErrRec.bits (r : ErrRec) : BitVec 512 :=
  BitVec.ofNat 512 (pack [(0, r.unit.toNat), (4, r.cls.toNat), (6, r.opKind * 4096 + r.opCode), (8, r.count.toNat),
    (16, r.temp.toNat), (18, r.volt.toNat), (20, r.jobTag.toNat), (24, r.seq.toNat),
    (28, (match r.part with
          | some p => 0x80000000 + p * 2 ^ 24
          | none => 0) + r.scope * 2 ^ 20 + r.actions),
    (32, r.detail.toNat), (60, r.coalesce.toNat)])

/-- The collector of a die. -/
def State.collector (s : State) (node : Nat) : Collector := Tbl.getD s.flt.collectors node Collector.reset

/-- R270, R271: store a record: in the ring, else in its coalesce entry or a free one, else only counted. -/
def Collector.push (c : Collector) (r : ErrRec) : Collector :=
  if c.ring.length < 64 then { c with ring := c.ring ++ [r] }
  else if c.coal.any fun e => e.first.unit == r.unit && e.first.cls == r.cls then
    { c with coal := c.coal.map fun e =>
        if e.first.unit == r.unit && e.first.cls == r.cls then { e with last := r, count := e.count + 1 } else e }
  else if c.coal.length < 32 then { c with coal := c.coal ++ [{ first := r, last := r, count := 1 }] }
  else { c with overflow := satAdd32 c.overflow 1 }

/-- The wear entry of a unit. -/
def Wear.zero : Wear := { corrected := [], retries := [], retrains := [], patrols := [], score := 0 }

/-- Counts of local time from t to now; a time kept across a power-off stands before 0, modulo 2^64 (11 R288). -/
def ageOf (now t : DWord) : Nat := (now - t).toNat

/-- The events of the last 24 hours of powered time. -/
def lastDay (now : DWord) (l : List DWord) : List DWord := l.filter fun t => decide (ageOf now t < 8640000000000)

/-- The scored unit a unit counts for (R272): a lagoon bank for its bay, a lane for its link. -/
def wearUnit (u : Word) : Word :=
  if bits u.toNat 14 4 = 5 ∧ bits u.toNat 10 4 = 0 then u - BitVec.ofNat 32 (bits u.toNat 0 10 % 8)
  else if bits u.toNat 14 4 = 11 then u ||| 0x3FF
  else u

/-- R272: n events that feed a wear score: 0 corrected symbols, 1 retries, 2 retrainings. -/
def wearEvents (w : Tbl Wear) (unit : Word) (kind n : Nat) (now : DWord) : Tbl Wear :=
  let u := wearUnit unit
  let x := Tbl.getD w u.toNat Wear.zero
  let more (l : List DWord) : List DWord := lastDay now l ++ List.replicate n now
  if kind = 0 then Tbl.set w u.toNat { x with corrected := more x.corrected }
  else if kind = 1 then Tbl.set w u.toNat { x with retries := more x.retries }
  else Tbl.set w u.toNat { x with retrains := more x.retrains }

/-- R272: records that feed a wear score. -/
def bumpWear (w : Tbl Wear) (u : Word) (cls : Half) (now : DWord) : Tbl Wear :=
  if cls = clsCorrected then wearEvents w u 0 1 now
  else if cls = clsRetry then wearEvents w u 1 1 now
  else if cls = clsRetrain then wearEvents w u 2 1 now
  else w

/-- The sequence number the next record of a unit's die takes. -/
def State.nextSeq (s : State) (u : Word) : Word := (s.collector (uNode u)).seq

/-- The regulator region that feeds a unit (Table 15-1, 15 R367). -/
def regionOf (u : Word) : Nat :=
  if uKind u = 14 then uSub u % 16 else
  match uDieKind u with
  | 0 =>
    if uSite u ≥ 20 ∨ uKind u = 6 ∨ uKind u = 7 ∨ uKind u ≥ 13 then 12
    else if uKind u = 5 ∧ uIndex u = 0 then 10 + uHalf u
    else (uHalf u * 5 + uSite u % 5) / 2 + 5 * (uSite u / 5 / 2)
  | 1 => if uKind u = 8 then 3 else if uKind u = 15 then 2 else if uKind u = 0 then 1 else 0
  | 2 => if uKind u = 11 then 2 else if uKind u = 15 then 3 else 0
  | _ => if uKind u = 15 then 1 else 0

/-- A region's key: causeway node * 16 + region. -/
def regionKey (u : Word) : Nat := uNode u * 16 + regionOf u

/-- Junction temperature and supply of a unit's region at detection (10 R269, 15 R367, R378, log entry 11). -/
def State.sensed (s : State) (u : Word) : Half × Half :=
  ((Tbl.getD s.power.temp (regionKey u) 0).signExtend 16, BitVec.ofNat 16 (Tbl.getD s.power.setpoint (regionKey u) 0))

/-- R269: every fault yields one error record in its die's collector. -/
def State.raise (s : State) (r : RecIn) : State :=
  let node := uNode r.unit
  let c := s.collector node
  let tv := s.sensed r.unit
  let e : ErrRec :=
    { unit := r.unit, cls := r.cls, opKind := r.opKind, opCode := r.opCode % 4096, count := s.count, temp := tv.1,
      volt := tv.2, jobTag := ((r.part.bind fun p => s.part? p).map Part.jobTag).getD 0, seq := c.seq, part := r.part,
      scope := r.scope, actions := r.actions, detail := detailBits r.detail, coalesce := 0 }
  let c' := c.push e
  s.modFlt fun f => { f with collectors := Tbl.set f.collectors node { c' with seq := c.seq + 1 },
                             wear := bumpWear f.wear r.unit r.cls s.count }

/-! ### Events and notices (11 R292, 12 R317) -/

/-- Hand an event to the hub for posting. -/
def State.postEvent (s : State) (e : Event) : State := { s with events := s.events ++ [e] }

/-- R292, Table 11-9: a fault notice to the admin mailbox and the partition named. -/
def State.notice (s : State) (p kind status : Nat) (seq : Word) (report : Half := 0) : State :=
  let x := s.part? p
  let step := (x.map fun y => if y.stepOpen ∨ y.replaying then y.step.toNat else 0).getD 0
  s.postEvent
    { type := 2, mailboxes := [0, p + 1],
      content := packBytes 32 [(0, ((x.map Part.jobTag).getD 0).toNat), (4, p), (5, kind), (6, status), (8, step),
      (12, seq.toNat), (16, s.count.toNat), (24, report.toNat)] }

/-! ### Fences (10 R258-R260), escalations (10 R268), in-service holding (14 R359) -/

/-- Ask for a module reset; a counted one stands over an uncounted one (11 R281, R290). -/
def State.askReset (s : State) (counted : Bool) : State :=
  s.modFlt fun f => { f with resetPending :=
    match f.resetPending with
    | some (c, t) => some (c || counted, t)
    | none => some (counted, s.count) }

/-- Post the notice of kind 7 to every partition. -/
def State.noticeAll (s : State) (kind : Nat) (seq : Word) : State :=
  s.parts.foldl (fun t e => t.notice e.1 kind 0 seq) s

/-- R293: queue an abort flood for one job tag. -/
def State.flood (s : State) (jobTag : Word) (reason : Nat) (rst : Bool) (step seq : Word) : State :=
  let n := s.flt.floodNumber + 1
  let m := (s.life.moduleId.map BitVec.toNat).getD 0
  s.modFlt fun f => { f with floodNumber := n, floodsOut := f.floodsOut ++
    [{ jobTag := jobTag, origin := m, number := n, boot := f.boot, reason := reason, originReset := rst, step := step,
       recordSeq := seq }] }

/-- One flood per job tag in use (R293). -/
def State.floodAll (s : State) (reason : Nat) (rst : Bool) (seq : Word) : State :=
  (s.parts.foldl (fun (a : List Word × State) e =>
    if a.1.contains e.2.jobTag ∨ e.2.jobTag = 0 then a
    else (e.2.jobTag :: a.1, a.2.flood e.2.jobTag reason rst (if e.2.stepOpen then e.2.step else 0) seq)) ([], s)).2

/-- R359: after a fence or retirement a ready module compares its health map with 224 sites and 28 devices. -/
def State.checkHealth (s : State) : State :=
  if s.life.state = .ready ∧ s.flt.resetPending = none ∧ (s.healthyCount < 224 ∨ s.devicesPassing < 28) then
    (s.noticeAll 7 0).askReset false
  else s

/-- R259: fence one unit at once; its fence map entry is written later (R260). Fences are sticky (R258). -/
def State.fenceUnit (s : State) (u : Word) (cls : Half) (seq : Word) (source : BitVec 2 := 1) (retry : Bool := false) :
    State :=
  if s.isFenced u then s
  else (s.modFlt fun f => { f with fenced := f.fenced ++ [u], fenceQueue := f.fenceQueue ++
      [{ unit := u, cls := cls, source := source, retry := retry, boot := f.boot, recordSeq := seq }] }).checkHealth

/-- R268: one more escalation; the third within 1 s of local count is fatal: floods, notices, then a counted reset. -/
def State.escalate (s : State) (seq : Word) : State :=
  let recent := (s.flt.escalations.filter fun t => decide (s.count.toNat - t.toNat < 100000000)) ++ [s.count]
  let t := s.modFlt fun f => { f with escalations := recent }
  if recent.length ≥ 3 ∧ ¬ s.flt.fatal then
    (((t.modFlt fun f => { f with fatal := true, fatalSeq := seq }).floodAll 1 true seq).noticeAll 7 seq).askReset true
  else t

/-- R265: a rollback trigger reaches a partition's stream processor. -/
def State.trigger (s : State) (p : Nat) (t : Trigger) : State := s.modPart p fun x => { x with triggers := x.triggers ++ [t] }

/-- Table 10-5: a whole-atoll fence of the site: the site is fenced and the step of the position it carries rolls
back. -/
def State.fenceAtoll (s : State) (g : Nat) (u : Word) (cls : Half) (seq : Word) (addr : Option DWord := none) : State :=
  let s' := (s.fenceUnit u cls seq).fenceUnit (siteUnit g) cls seq
  match s.positionOf g with
  | some (p, pos) => s'.trigger p { cls := cls, addr := addr, position := some pos, recordSeq := seq }
  | none => s'

/-- R262: an engine fence that no sibling can take up escalates to the atoll. -/
def State.escalateAtoll (s : State) (g : Nat) (cls : Half) (seq : Word) : State :=
  match s.positionOf g with
  | some (p, pos) => (s.trigger p { cls := cls, addr := none, position := some pos, recordSeq := seq }).escalate seq
  | none => s

/-- Table 10-5: an engine-level fence asks for migration of the position within 10 ms. -/
def State.wantMigration (s : State) (g : Nat) : State :=
  match s.positionOf g with
  | some (p, pos) => s.modPart p fun x =>
      if x.migrateWanted.contains pos then x else { x with migrateWanted := x.migrateWanted ++ [pos] }
  | none => s

/-! ### Touch log (10 R257) -/

/-- The unit whose log a unit's touches stand in: its site for a unit of an atoll. -/
def touchKey (u : Word) : Nat :=
  match uAtoll u with
  | some g => (siteUnit g).toNat
  | none => u.toNat

/-- R257: unit u serves partition p in its present step, 0 when none is open; a log holds 32 entries. -/
def State.touchUnit (s : State) (u : Word) (p : Nat) : State :=
  match s.part? p with
  | none => s
  | some x =>
    let step : Word := if x.stepOpen ∨ x.replaying then x.step else 0
    let l := Tbl.getD s.flt.touch (touchKey u) []
    let mine (t : Touch) : Bool := t.part == p && t.jobTag == x.jobTag
    let l' := if l.any mine then l.map fun t =>
        if mine t ∧ step ≠ 0 then { t with firstStep := if t.firstStep = 0 then step else t.firstStep, lastStep := step } else t
      else l.drop (l.length - 31) ++ [{ part := p, jobTag := x.jobTag, firstStep := step, lastStep := step }]
    s.modFlt fun f => { f with touch := Tbl.set f.touch (touchKey u) l' }

/-! ### Time -/

/-- Whether the local count advances: the module is powered and an oscillator runs (00 R7, 07 R187). -/
def State.ticks (s : State) : Bool := s.life.powered && (s.net.osc0 || s.net.osc1)

/-- An idle step: one tick of the 100 MHz reference (log entry 1). -/
def idleTick (s : State) : State := if s.ticks then { s with count := s.count + 1 } else s

/-- A next free-value index (log entry 7). -/
def State.freshen (s : State) : State := { s with freeCtr := s.freeCtr + 1 }

end Sys2Proof.Machine
end

