-- ==== Sys2Proof/Machine/Flags.lean ====
section
/-! DEFINITION. Status values and completion words: lagoon access statuses (Table 3-5), operation statuses (Table 3-10),
reconfiguration statuses (Table 4-15), mailbox statuses (Table 12-7), and the words that carry them. -/

namespace Sys2Proof.Machine

/-- Access and operation statuses (Tables 3-5, 3-10, 6-6 share codes 0 to 11 as the tables give them). -/
def stOk : Nat := 0
/-- Access: BAD_ADDRESS (Table 3-5). -/
def acBadAddress : Nat := 1
/-- Access: UNREACHABLE. -/
def acUnreachable : Nat := 2
/-- Access: DEST_IN_RESET. -/
def acDestReset : Nat := 3
/-- Access: BAY_MODE. -/
def acBayMode : Nat := 4
/-- Access: SYMBOL_UNCORRECTABLE. -/
def acSymbol : Nat := 5
/-- An access status as the matching operation status of Table 3-10: one higher, OK staying DONE. -/
def opOfAccess (a : Nat) : Nat := if a = 0 then 0 else a + 1
/-- Operation: BAD_DESCRIPTOR. -/
def opBadDesc : Nat := 1
/-- Operation: BAD_ADDRESS. -/
def opBadAddress : Nat := 2
/-- Operation: UNREACHABLE. -/
def opUnreachable : Nat := 3
/-- Operation: DEST_IN_RESET. -/
def opDestReset : Nat := 4
/-- Operation: BAY_MODE. -/
def opBayMode : Nat := 5
/-- Operation: SYMBOL_UNCORRECTABLE. -/
def opSymbol : Nat := 6
/-- Operation: ABANDONED. -/
def opAbandoned : Nat := 7
/-- Memory command: WINDOW_CLOSED. -/
def opWindowClosed : Nat := 8
/-- Memory command: BANK_CLOSED. -/
def opBankClosed : Nat := 9
/-- Memory command: BANK_OFF. -/
def opBankOff : Nat := 10
/-- Memory command: TIMEOUT. -/
def opTimeout : Nat := 11

/-- The 64-bit completion word of Table 3-10; a refused offset shows only with BAD_DESCRIPTOR. -/
def opWord (cycles offset : Nat) (replayed apexLow apexPass : Bool) (status ticket : Nat) : DWord :=
  BitVec.ofNat 64 (cycles % 2 ^ 32 * 2 ^ 32 + (if status = opBadDesc then offset % 64 else 0) * 2 ^ 26
    + b2n replayed * 2 ^ 25 + b2n apexLow * 2 ^ 24 + b2n apexPass * 2 ^ 23 + status % 128 * 2 ^ 16 + ticket % 65536)

/-- The status field of a completion word. -/
def wordStatus (w : DWord) : Nat := bits w.toNat 16 7

/-- The 64-bit memory command completion word of Table 6-6. -/
def memWord (bytes offset : Nat) (apexLow : Bool) (status ticket : Nat) : DWord :=
  BitVec.ofNat 64 (bytes % 2 ^ 32 * 2 ^ 32 + (if status = opBadDesc then offset % 64 else 0) * 2 ^ 26
    + b2n apexLow * 2 ^ 24 + status % 128 * 2 ^ 16 + ticket % 65536)

/-- Mailbox status codes (Table 12-7). -/
def mbDone : Nat := 0x0000
/-- ACCEPTED. -/
def mbAccepted : Nat := 0x0001
/-- BAD_OPCODE. -/
def mbBadOpcode : Nat := 0x0100
/-- BAD_LENGTH. -/
def mbBadLength : Nat := 0x0101
/-- BAD_FIELD. -/
def mbBadField : Nat := 0x0102
/-- OUT_OF_RANGE. -/
def mbOutOfRange : Nat := 0x0103
/-- BUSY. -/
def mbBusy : Nat := 0x0200
/-- NO_RESOURCE. -/
def mbNoResource : Nat := 0x0201
/-- FENCED. -/
def mbFenced : Nat := 0x0300
/-- PARTITION_IN_RESET. -/
def mbInReset : Nat := 0x0301
/-- DATA_UNCORRECTABLE. -/
def mbDataBad : Nat := 0x0302
/-- AUTH_FAIL. -/
def mbAuthFail : Nat := 0x0400
/-- VERSION_REFUSED. -/
def mbVersion : Nat := 0x0401
/-- TIMEOUT. -/
def mbTimeout : Nat := 0x0500
/-- OUT_OF_SERVICE. -/
def mbOutOfService : Nat := 0x0600

/-- A negative channel or sync status as a register value (Table 5-7). -/
def negStatus (n : Nat) : DWord := BitVec.ofInt 64 (-(n : Int))

end Sys2Proof.Machine
end

