-- ==== Sys2Proof/Machine/Lagoon.lean ====
section
/-! DEFINITION. The lagoon: local addresses and reach (03 R48-R54), metadata and apex words on writes (02 R25, 03 R55),
operand holds (03 R59), poison and decode outcomes (06 R151, R153), and scalar core exceptions. -/

namespace Sys2Proof.Machine

/-- Elements of a byte run under a format: element i at bits [w*i+w-1 : w*i] (Table 3-6). -/
def elemsOf (f : Fmt) (bs : List Byte) (n : Nat) : List Nat :=
  let v := leNat bs
  (List.range n).map fun i => bits v (i * f.bits) f.bits

/-- Bytes of a 32-element block (02 R25). -/
def Fmt.blockBytes (f : Fmt) : Nat := 4 * f.bits

/-- Blocks in a 128-byte line (03 R55). -/
def Fmt.lineBlocks (f : Fmt) : Nat := if f.isElement then 128 / f.blockBytes else 0

/-- R25: the apex word of block j of a line under a format; x is taken without the block scale for MX. -/
def blockApex (f : Fmt) (line : List Byte) (j : Nat) : Half :=
  apexOf ((elemsOf f ((line.drop (j * f.blockBytes)).take f.blockBytes) 32).map f.dec)

/-- Slot j of the apex slots. -/
def apexSlot (a : BitVec 128) (j : Nat) : Half := BitVec.ofNat 16 (bits a.toNat (16 * j) 16)
/-- Set slot j. -/
def setSlot (a : BitVec 128) (j : Nat) (h : Half) : BitVec 128 := BitVec.ofNat 128 (setBits a.toNat (16 * j) 16 h.toNat)

/-- Slots of a line recomputed whole under a tag: slots beyond the block count, and every slot of raw bytes and GRID192,
read 0xF000. -/
def lineApex (f : Fmt) (line : List Byte) : BitVec 128 :=
  (List.range f.lineBlocks).foldl (fun a j => setSlot a j (blockApex f line j)) apexReset

/-- R25: the metadata of a line after a write of n bytes at byte o of the line under a tag, from the line's new bytes. A
word wholly written loses its poison. -/
def LineMeta.written (m : LineMeta) (tag : BitVec 5) (o n : Nat) (line : List Byte) : LineMeta :=
  let f := (Fmt.ofCode tag.toNat).getD .raw
  let old := (Fmt.ofCode m.tag.toNat).getD .raw
  let touched (g : Fmt) (j : Nat) : Bool := decide (o < (j + 1) * g.blockBytes) && decide (j * g.blockBytes < o + n)
  let poison := BitVec.ofNat 4 ((List.range 4).foldl (fun a w =>
    if o ≤ 32 * w ∧ 32 * w + 32 ≤ o + n then setBits a w 1 0 else a) m.poison.toNat)
  let ta : BitVec 5 × BitVec 128 :=
    if n = 128 then (tag, lineApex f line)
    else if f = .raw then
      (m.tag, (List.range old.lineBlocks).foldl (fun a j => if touched old j then setSlot a j apexNone else a) m.apex)
    else if tag = m.tag then
      (tag, (List.range f.lineBlocks).foldl (fun a j => if touched f j then setSlot a j (blockApex f line j) else a) m.apex)
    else (tag, lineApex f line)
  { tag := ta.1, poison := poison, apex := ta.2 }

/-- Store bytes inside one 128-byte line, with metadata. -/
def Atoll.storeLine (a : Atoll) (off : Nat) (tag : BitVec 5) (data : List Byte) : Atoll :=
  let lag := Mem.writeBytes a.lagoon off data
  let l := off / 128
  { a with lagoon := lag,
           lineMeta := Tbl.set a.lineMeta l ((a.meta_ l).written tag (off % 128) data.length (Mem.readBytes lag (l * 128) 128)) }

/-- Store bytes from `off` up, line by line; `fuel` bounds the number of lines. -/
def Atoll.storeLines : Nat → Atoll → Nat → BitVec 5 → List Byte → Atoll
  | 0, a, _, _, _ => a
  | k + 1, a, off, tag, data =>
    if data.isEmpty then a
    else
      let n := 128 - off % 128
      Atoll.storeLines k (a.storeLine off tag (data.take n)) (off + n) tag (data.drop n)

/-- Store a byte run under a tag. -/
def Atoll.store (a : Atoll) (off : Nat) (tag : BitVec 5) (data : List Byte) : Atoll :=
  Atoll.storeLines (data.length + 1) a off tag data

/-- Whether any 32-byte word of a lagoon range is poisoned. -/
def Atoll.poisoned (a : Atoll) (off n : Nat) : Bool :=
  (List.range ((off + n + 31) / 32 - off / 32)).any fun i =>
    let w := off / 32 + i
    (a.meta_ (w / 4)).poison.getLsbD (w % 4)

/-- Poison one 32-byte word. -/
def Atoll.poisonWord (a : Atoll) (w : Nat) : Atoll :=
  let m := a.meta_ (w / 4)
  { a with lineMeta := Tbl.set a.lineMeta (w / 4) { m with poison := m.poison ||| BitVec.ofNat 4 (2 ^ (w % 4)) } }

/-- Target field of a local address (Table 3-2). -/
def laTarget (addr : Word) : Nat := bits addr.toNat 29 3
/-- Offset field of a local address. -/
def laOffset (addr : Word) : Nat := bits addr.toNat 0 29

/-- Bay of a lagoon offset (03 R49). -/
def bayOf (off : Nat) : Nat := off / 0x100000

/-- A lagoon bay that answers BAY_MODE: in cache mode or switching (Table 3-5). -/
def Atoll.bayBlocked (a : Atoll) (b : Nat) : Bool := a.bayCache.getLsbD b || a.bayBusy.getLsbD b

/-- The atoll a neighbour map leads to (03 R52). -/
def State.mapped (s : State) (g dir : Nat) : Option Nat :=
  let m := (s.atoll g).nbr.getD dir (NbrMap.reset g dir)
  if !m.valid then none else if m.routed then some m.target.toNat else physNeighbour g dir

/-- The status of a neighbour request at its target (03 R53, Table 3-5). -/
def State.nbrStatus (s : State) (source target off : Nat) : Nat :=
  let a := s.atoll target
  if s.partOf source = none ∨ s.partOf target ≠ s.partOf source then acUnreachable
  else if a.inReset then acDestReset
  else if a.bayBlocked (bayOf off) then acBayMode
  else stOk

/-- Resolve a lagoon local address range: the atoll and offset it names, or its access status (R48-R54). Target 5 is
resolved by `cacheBayOf`. -/
def State.resolve (s : State) (g : Nat) (addr : Word) (n : Nat) : Except Nat (Nat × Nat) :=
  let t := laTarget addr
  let off := laOffset addr
  if t > 4 then .error acBadAddress
  else if off + n > 0x1800000 then .error acBadAddress
  else if t = 0 then
    if (s.atoll g).bayBlocked (bayOf off) ∨ (s.atoll g).bayBlocked (bayOf (off + n - 1)) then .error acBayMode
    else .ok (g, off)
  else
    match s.mapped g (t - 1) with
    | none => .error acUnreachable
    | some tg =>
      let st := s.nbrStatus g tg off
      let st := if st = 0 then s.nbrStatus g tg (off + n - 1) else st
      if st = 0 then .ok (tg, off) else .error st

/-- Byte ranges of the operands a tile op holds: rows of A, columns of B and their scale bytes, as (local address,
length) (R59, R67). -/
def tileOperands (d : BitVec 512) : List (Word × Nat) :=
  let m := fld d 36 0 7 + 1
  let n := fld d 37 0 7 + 1
  let k := fld d 38 0 11 + 1
  let fa := (Fmt.ofCode (fld d 40 0 5)).getD .raw
  let fb := (Fmt.ofCode (fld d 41 0 5)).getD .raw
  let rowLen (f : Fmt) : Nat := if f.bits = 6 then k / 5 * 128 + k % 5 * 24 else k * f.blockBytes
  let blocksPer (f : Fmt) (st : Nat) : Nat := if f.bits = 6 then st * 5 / 4 else st * 8 / f.bits
  let rows (base st cnt : Nat) (f : Fmt) := (List.range cnt).map fun i => (BitVec.ofNat 32 (base + i * st * 32), rowLen f)
  let scales (base st cnt : Nat) (f : Fmt) :=
    if f.isMX then (List.range cnt).map fun i => (BitVec.ofNat 32 (base + i * blocksPer f st), k) else []
  rows (fld d 0 0 32) (fld d 28 0 16) m fa ++ rows (fld d 4 0 32) (fld d 30 0 16) n fb
    ++ scales (fld d 16 0 32) (fld d 28 0 16) m fa ++ scales (fld d 20 0 32) (fld d 30 0 16) n fb

/-- Whether a tile op in flight on atoll g holds a line of lagoon t that [off, off+n) touches (R59). -/
def State.heldBy (s : State) (g t off n : Nat) : Bool :=
  (List.range 4).any fun e =>
    match ((s.atoll g).engine e).cur with
    | none => false
    | some r => (tileOperands r.op.desc).any fun x =>
        match s.resolve g x.1 x.2 with
        | .ok (tg, o) => tg == t && decide (o / 128 * 128 < off + n) && decide (off < (o + x.2 + 127) / 128 * 128)
        | .error _ => false

/-- R59: writes to lines that hold operands of a tile op in flight wait at the bank. -/
def State.writeHeld (s : State) (t off n : Nat) : Bool :=
  s.heldBy t t off n || (List.range 4).any fun d =>
    match s.mapped t d with
    | some g => s.heldBy g t off n
    | none => false

/-- A write that reaches lagoon t: held at the bank (R59), or stored with its tag (R25). -/
def State.lagoonWrite (s : State) (t off : Nat) (tag : BitVec 5) (data : List Byte) : State :=
  if s.writeHeld t off data.length then
    s.modAtoll t fun a => { a with heldWrites := a.heldWrites ++ [{ offset := off, tag := tag, data := data }] }
  else s.modAtoll t fun a => a.store off tag data

/-- Writes of lagoon t that no operand holds any more proceed, in arrival order. -/
def State.releaseHeld (s : State) (t : Nat) : State :=
  (s.atoll t).heldWrites.foldl (fun st w => st.lagoonWrite t w.offset w.tag w.data)
    (s.modAtoll t fun a => { a with heldWrites := [] })

/-- The ends of a tile op of atoll g may free writes held at its own and its neighbours' banks. -/
def State.releaseAround (s : State) (g : Nat) : State :=
  (List.range 4).foldl (fun st d =>
    match st.mapped g d with
    | some t => st.releaseHeld t
    | none => st) (s.releaseHeld g)

/-- R151: the code of SRAM words corrects one symbol: an outcome with more is uncorrectable. -/
def sramSettled (d : Decoded) : Decoded :=
  match d with
  | .corrected n => if n > 1 then .uncorrectable n else d
  | .miscorrected n _ => .uncorrectable n
  | .linkEcc .. => .clean
  | _ => d

/-- `op_kind` of a record of a decode (Table 10-9): scrub for a scrub, else that of the operation that read. -/
def decodeKind (src : Nat) (op : Nat × Nat) : Nat := if src = 1 then 11 else op.1

/-- Table 6-3 for a lagoon word: a corrected decode is counted and recorded; an uncorrectable one poisons the word, fences
its bay and triggers the rollback of Table 10-5. `src` is the detail's source code. -/
def State.lagoonDecode (s : State) (t off : Nat) (d : Decoded) (src : Nat) (op : Nat × Nat := (0, 0)) : State :=
  let bay := bayOf off
  let u := atollUnit t 5 0 (bay * 8 + off / 128 % 8)
  match sramSettled d with
  | .clean | .linkEcc .. | .miscorrected .. => s
  | .corrected n =>
    (s.modAtoll t fun a => { a with corrected := satAdd32 a.corrected 1 }).raise
      { unit := u, cls := clsCorrected, opKind := decodeKind src op, opCode := op.2, part := s.partOf t, actions := actCounted,
        detail := [(32, off), (40, n), (41, src)] }
  | .uncorrectable n =>
    let s1 := s.modAtoll t fun a => a.poisonWord (off / 32)
    let seq := s1.nextSeq u
    let carried := (s.positionOf t).isSome
    let s2 := s1.raise
      { unit := u, cls := clsUncorrectable, opKind := decodeKind src op, opCode := op.2, part := s.partOf t, scope := 3,
        actions := actPoisoned + actFenced + (if carried then actReplaced + actRolled else 0)
          + (if s.siteHealthy t then 0 else actAbsorbed),
        detail := [(32, off), (40, n), (41, src), (44, 1), (48, off / 128 % 65536)] }
    let s3 := s2.fenceUnit u clsUncorrectable seq
    match s.positionOf t with
    | some (p, pos) => s3.trigger p
        { cls := clsUncorrectable, addr := some (BitVec.ofNat 64 off), position := some pos, recordSeq := seq }
    | none => s3

/-- A read of lagoon t with the decode its words give: a poisoned or uncorrectable word ends SYMBOL_UNCORRECTABLE. -/
def State.lagoonRead (s : State) (t off n : Nat) (d : Decoded) (op : Nat × Nat := (0, 0)) : State × Nat × List Byte :=
  if (s.atoll t).poisoned off n then (s, acSymbol, [])
  else
    match sramSettled d with
    | .uncorrectable _ => (s.lagoonDecode t off d 0 op, acSymbol, [])
    | _ => (s.lagoonDecode t off d 0 op, stOk, Mem.readBytes (s.atoll t).lagoon off n)

/-- Length of the instruction at a core's pc: 4 bytes when its low two bits are 11, else 2 (PRESUMED, log entry 10). -/
def Core.instrLen (c : Core) : Nat := if bits (Mem.read c.sram c.pc.toNat).toNat 0 2 = 3 then 4 else 2

/-- A scalar core takes an exception: mepc, mcause and mtval written, interrupts off with the old enable kept, and the pc at
the trap vector (RISC-V machine mode, PRESUMED, log entry 10). -/
def Core.takeTrap (c : Core) (cause : Nat) (tval : DWord) : Core :=
  let ms := Tbl.getD c.csr 0x300 0
  let ms' := BitVec.ofNat 64 (setBits (setBits (setBits ms.toNat 7 1 (bits ms.toNat 3 1)) 3 1 0) 11 2 3)
  { c with csr := Tbl.set (Tbl.set (Tbl.set (Tbl.set c.csr 0x300 ms') 0x341 c.pc) 0x342 (BitVec.ofNat 64 cause)) 0x343 tval,
           pc := BitVec.ofNat 64 ((Tbl.getD c.csr 0x305 0).toNat / 4 * 4), block := .none }

/-- A load or store access fault: CSR 0xFC0 takes the access status (R54). -/
def Core.accessFault (c : Core) (store : Bool) (addr : DWord) (status : Nat) : Core :=
  { c with access := BitVec.ofNat 64 status }.takeTrap (if store then 7 else 5) addr

/-- Sign- or zero-extension of an n-byte value. -/
def extendBytes (sgn : Bool) (n v : Nat) : DWord :=
  if sgn then BitVec.ofInt 64 (signedOf (8 * n) v) else BitVec.ofNat 64 (v % 2 ^ (8 * n))

/-- Retire a core's instruction of `len` bytes. -/
def Core.advance (c : Core) (len : Nat) : Core := { c with pc := c.pc + BitVec.ofNat 64 len, block := .none }

end Sys2Proof.Machine
end

