-- ==== Sys2Proof/Machine/Phys.lean ====
section
/-! DEFINITION. Module physical addresses (06 R138-R146): the address map, reach, the DRAM map and channels, staging banks,
the catalogue region view, reads and writes, and the decode outcomes of DRAM and staging words (06 R147-R153). -/

namespace Sys2Proof.Machine

/-- 1 MiB. -/
def mib : Nat := 1048576

/-- R142: the DRAM map over the healthy channels with the parameters in force. -/
def buildMap (chans : List Nat) (spareChannels localSize : Nat) : DramMap :=
  let h := chans.length
  if h = 0 then DramMap.empty else
  let l := localSize * 128 * mib
  let sp := (spareChannels * 7680 + h - 1) / h * mib
  if l + sp > 7680 * mib then { chans := chans, inter := 0, local_ := l, spare := 7680 * mib - l, size := h * l }
  else { chans := chans, inter := 7680 * mib - l - sp, local_ := l, spare := sp, size := h * (7680 * mib - sp) }

/-- R143, R144: the channel and channel-local address of a DRAM address. -/
def DramMap.locate (m : DramMap) (a : Nat) : Nat × Nat :=
  let h := m.chans.length
  if a < h * m.inter then
    let p := a / 4096
    let r := p / h
    (m.chans.getD ((p + r) % h) 0, r * 4096 + a % 4096)
  else
    let rec go : Nat → Nat → Nat → Nat × Nat
      | 0, _, _ => (0, 0)
      | fuel + 1, sh, o =>
        let d := m.chans.filter fun c => c / 8 == sh
        if o < d.length * m.local_ then
          let q := o / 4096
          let r := q / d.length
          (d.getD ((q + r) % d.length) 0, m.inter + r * 4096 + o % 4096)
        else go fuel (sh + 1) (o - d.length * m.local_)
    go 16 0 (a - h * m.inter)

/-- The channel that serves a DRAM address now: its own, or its page's new home after a retirement (R169, R170). -/
def State.dramChannel (s : State) (a : Nat) : Nat :=
  let cl := s.mem.map.locate a
  match Tbl.get? s.mem.remap (cl.1 * 2 ^ 40 + cl.2 / 4096) with
  | some home => home.1
  | none => cl.1

/-- A channel's state. -/
def State.chan (s : State) (c : Nat) : ChanState := Tbl.getD s.mem.chanState c .healthy

/-- CATALOGUE_REGION_SIZE in bytes. -/
def State.catSize (s : State) : Nat := s.param 0x0402 * mib

/-- R154: shoal and staging offset of a catalogue-region offset. -/
def State.catPlace (s : State) (o : Nat) : Nat × Nat :=
  (o / 4096 % 16, 64 * mib - s.catSize / 16 + o / 65536 * 4096 + o % 4096)

/-- Whether a staging bank holds any byte of the catalogue region (R154). -/
def State.bankInCat (s : State) (b : Nat) : Bool := decide ((b + 1) * 4 * mib > 64 * mib - s.catSize / 16)

/-- What an address of Table 6-2 names. -/
inductive Place where
  | dram (a : Nat)
  | lagoon (g off : Nat)
  | staging (h off : Nat)
  deriving DecidableEq, Repr

/-- State of a staging bank. -/
def State.bank (s : State) (h b : Nat) : BankState := Tbl.getD (s.shoal h).banks b .on

/-- Whether partition p owns a DRAM byte. -/
def Part.ownsDram (x : Part) (a : Nat) : Bool :=
  x.dram.any fun r => decide (r.1 * 2097152 ≤ a) && decide (a < (r.1 + r.2) * 2097152)

/-- Whether partition p owns a staging bank. -/
def Part.ownsBank (x : Part) (h b : Nat) : Bool := x.staging.getLsbD (16 * h + b)

/-- R138-R140, Table 6-6: resolve an address for a partition (none: the hub), for a read or a write. -/
def State.place (s : State) (who : Option Nat) (addr : Nat) (wr : Bool) : Except Nat Place :=
  let x := who.bind s.part?
  let isHub := who.isNone
  if addr < s.mem.map.size then
    if isHub ∨ (x.map fun p => p.ownsDram addr).getD false then .ok (.dram addr) else .error opUnreachable
  else if 0xF000000000 ≤ addr ∧ addr < 0xF200000000 then
    let o := addr - 0xF000000000
    let pos := o / 0x2000000
    let off := o % 0x2000000
    if off ≥ 0x1800000 then .error opBadAddress else
    match x.bind fun p => Tbl.get? p.posAtoll pos with
    | none => .error opUnreachable
    | some g =>
      let a := s.atoll g
      if a.inReset then .error opDestReset
      else if a.bayBlocked (bayOf off) then .error opBayMode
      else .ok (.lagoon g off)
  else if 0xF200000000 ≤ addr ∧ addr < 0xF480000000 then
    let o := addr - 0xF200000000
    let off := o % 0x2000000
    if off ≥ 0x1800000 then .error opBadAddress
    else if isHub then .ok (.lagoon (o / 0x2000000) off) else .error opUnreachable
  else if 0xF800000000 ≤ addr ∧ addr < 0xF840000000 then
    let o := addr - 0xF800000000
    let h := o / 0x4000000
    let off := o % 0x4000000
    let b := off / 0x400000
    if !(isHub ∨ (x.map fun p => p.ownsBank h b).getD false) then .error opUnreachable
    else
      match s.bank h b with
      | .on => .ok (.staging h off)
      | .off => .error opBankOff
      | _ => .error opBankClosed
  else if 0xF900000000 ≤ addr ∧ addr < 0xF920000000 then
    let o := addr - 0xF900000000
    if o ≥ s.catSize then .error opBadAddress
    else if wr ∧ ¬ isHub then .error opUnreachable
    else .ok (.staging (s.catPlace o).1 (s.catPlace o).2)
  else .error opBadAddress

/-- Whether a partition may reach every byte of a range, for STREAM_OPEN and windows (R140, R164). -/
def State.reaches (s : State) (p addr n : Nat) (wr : Bool) : Bool :=
  (List.range ((addr + n + 4095) / 4096 - addr / 4096)).all fun i =>
    match s.place (some p) (max addr ((addr / 4096 + i) * 4096)) wr with
    | .ok _ => true
    | .error e => e != opUnreachable && e != opBadAddress

/-- R156: a request to an OFF bank is counted, the first after each switch-off also recorded. -/
def State.bankLate (s : State) (addr : Nat) : State :=
  let o := addr - 0xF800000000
  let h := o / 0x4000000
  let b := o % 0x4000000 / 0x400000
  let sh := s.shoal h
  let s1 := s.modShoal h fun x => { x with late := satAdd32 x.late 1, lateNoted := if x.lateNoted.contains b then x.lateNoted else x.lateNoted ++ [b] }
  if sh.lateNoted.contains b then s1
  else s1.raise { unit := shoalUnit h 0 0 0x3FF, cls := clsBankOff, actions := actCounted, detail := [(32, b)] }

/-- Read up to 128 bytes at a place that lies in one 128-byte line. -/
def State.readPlace (s : State) (pl : Place) (n : Nat) : Nat × List Byte :=
  match pl with
  | .dram a =>
    if s.mem.dramPoison.contains (a / 64) ∨ s.mem.dramPoison.contains ((a + n - 1) / 64) ∨ s.chan (s.dramChannel a) = .unbacked
    then (opSymbol, []) else (stOk, Mem.readBytes s.mem.dram a n)
  | .lagoon g off =>
    if (s.atoll g).poisoned off n then (opSymbol, []) else (stOk, Mem.readBytes (s.atoll g).lagoon off n)
  | .staging h off =>
    let sh := s.shoal h
    if Tbl.getD sh.badBanks (off / 0x400000) 0 = 3 ∨
        (List.range ((off + n + 31) / 32 - off / 32)).any fun i => sh.stPoison.contains (off / 32 + i) then (opSymbol, [])
    else (stOk, Mem.readBytes sh.staging off n)

/-- Write bytes of one DRAM run: whole 64-byte words lose their poison, merges keep it (R149, R150). Writes to an unbacked
channel are dropped and counted (R171). -/
def State.dramWrite (s : State) (a : Nat) (data : List Byte) : State :=
  let c := s.dramChannel a
  if s.chan c = .unbacked then s.modShoal (c / 8) fun x => { x with uncorrectable := satAdd32 x.uncorrectable 1 }
  else s.modMem fun m => { m with
    dram := Mem.writeBytes m.dram a data,
    dramPoison := m.dramPoison.filter fun w => !(decide (a ≤ w * 64) && decide (w * 64 + 64 ≤ a + data.length)) }

/-- Write up to 128 bytes at a place in one line, under a format tag for lagoon lines. -/
def State.writePlace (s : State) (pl : Place) (tag : BitVec 5) (data : List Byte) : State :=
  match pl with
  | .dram a => s.dramWrite a data
  | .lagoon g off => s.lagoonWrite g off tag data
  | .staging h off => s.modShoal h fun x => { x with
      staging := Mem.writeBytes x.staging off data,
      stPoison := x.stPoison.filter fun w => !(decide (off ≤ w * 32) && decide (w * 32 + 32 ≤ off + data.length)) }

/-- A read of n bytes, cut at 128-byte lines: the state (late counts), a status, and the bytes before any failure. -/
def State.physRead : Nat → State → Option Nat → Nat → Nat → State × Nat × List Byte
  | 0, s, _, _, _ => (s, stOk, [])
  | k + 1, s, who, addr, n =>
    if n = 0 then (s, stOk, []) else
    let m := min n (128 - addr % 128)
    match s.place who addr false with
    | .error e => ((if e = opBankOff then s.bankLate addr else s), e, [])
    | .ok pl =>
      let (st, bs) := s.readPlace pl m
      if st ≠ stOk then (s, st, [])
      else
        let (s', st', bs') := State.physRead k s who (addr + m) (n - m)
        (s', st', bs ++ bs')

/-- Read n bytes by module physical address. -/
def State.pread (s : State) (who : Option Nat) (addr n : Nat) : State × Nat × List Byte :=
  State.physRead (n / 128 + 2) s who addr n

/-- A write cut at 128-byte lines: the state, a status, and the bytes written before any failure. -/
def State.physWrite : Nat → State → Option Nat → Nat → BitVec 5 → List Byte → State × Nat × Nat
  | 0, s, _, _, _, _ => (s, stOk, 0)
  | k + 1, s, who, addr, tag, data =>
    if data.isEmpty then (s, stOk, 0) else
    let m := min data.length (128 - addr % 128)
    match s.place who addr true with
    | .error e => ((if e = opBankOff then s.bankLate addr else s), e, 0)
    | .ok pl =>
      let s1 := s.writePlace pl tag (data.take m)
      let (s', st, w) := State.physWrite k s1 who (addr + m) tag (data.drop m)
      (s', st, m + w)

/-- Write bytes by module physical address. -/
def State.pwrite (s : State) (who : Option Nat) (addr : Nat) (tag : BitVec 5) (data : List Byte) : State × Nat × Nat :=
  State.physWrite (data.length / 128 + 2) s who addr tag data

/-! ### The host's cached lines (12 R305) -/

/-- Whether the snoop filter tracks a line; its value says whether the host may hold it modified. -/
def HostSt.tracked (h : HostSt) (line : Nat) : Option Bool := (h.sf.find? fun e => e.2.1 == line).map fun e => e.2.2

/-- The tracked lines of a byte range that an access has to snoop: every one for a write, the modified ones for a read. -/
def HostSt.toSnoop (h : HostSt) (a n : Nat) (wr : Bool) : List Nat :=
  if n = 0 then [] else
  (h.sf.filter fun e => decide (a / 64 ≤ e.2.1) && decide (e.2.1 ≤ (a + n - 1) / 64) && (wr || e.2.2)).map fun e => e.2.1

/-- Send a back-invalidation for a line, once. -/
def HostSt.snoop (h : HostSt) (line : Nat) (inv : Bool) (host : Option (Nat × HostCacheUse)) (now : DWord) : HostSt :=
  if h.biWaits.any fun w => w.line == line && w.hostRead == host && w.inv == inv then h
  else { h with biWaits := h.biWaits ++ [{ line := line, inv := inv, hostRead := host, since := now, expired := false }],
                out := h.out ++ [if inv then .biSnpInv line else .biSnpData line] }

/-- Whether a device access may go on: clear, waiting for BIRsp with its snoops sent, or timed out. -/
inductive BiOut where
  | clear
  | waits (s : State)
  | timeout (s : State)

/-- R305: a device access to DRAM ranges (address, length, write) checks the snoop filter. -/
def State.biCheck (s : State) (rs : List (Nat × Nat × Bool)) : BiOut :=
  let want := (rs.map fun r => (s.host.toSnoop r.1 r.2.1 r.2.2).map fun l => (l, r.2.2)).flatten
  if want.isEmpty then .clear
  else
    match s.host.biWaits.find? fun w => w.expired && w.hostRead.isNone && want.any fun x => x.1 == w.line with
    | some w => .timeout (s.modHost fun h => { h with biWaits := h.biWaits.filter (· != w) })
    | none => .waits (s.modHost fun h => want.foldl (fun k x => k.snoop x.1 x.2 none s.count) h)

/-- Run a device access once its lines are clear; a timed-out one ends through `late`. -/
def State.biThen (s : State) (rs : List (Nat × Nat × Bool)) (late : State → State) (go : State → State) : State :=
  match s.biCheck rs with
  | .clear => go s
  | .waits s1 => s1
  | .timeout s1 => late s1

/-- R168: put a channel in line for retirement, unless it is retiring, waiting or gone. -/
def State.wantRetire (s : State) (c : Nat) : State :=
  if s.chan c = .healthy ∧ ¬ s.mem.retireQueue.contains c then
    s.modMem fun m => { m with retireQueue := m.retireQueue ++ [c] }
  else s

/-- Unit of an LPDDR5X channel's controller (Table 0-7). -/
def chanUnit (c : Nat) : Word := shoalUnit (c / 8) 8 (c % 8) c

/-- Symbols in error that the decoder of DRAM_CODE_MODE corrects (R148). -/
def State.dramCorrects (s : State) : Nat := if s.param 0x0602 = 1 then 1 else 2

/-- The outcome after the link ECC's retry (Table 6-3), lost data counting as an uncorrectable word, under the code mode in
force: more symbols than it corrects are uncorrectable, and mode 1 miscorrects no error in three (R148). -/
def State.dramSettled (s : State) (d : Decoded) : Decoded :=
  let fix (n : Nat) : Decoded := if n = 0 then .clean else if n ≤ s.dramCorrects then .corrected n else .uncorrectable n
  match d with
  | .linkEcc _ n lost => if lost then .uncorrectable n else fix n
  | .corrected n => fix n
  | .miscorrected n w => if s.dramCorrects = 2 ∧ n = 2 then .miscorrected n w else .uncorrectable 3
  | d => d

/-- The word that a decode of a DRAM word gives: that of another codeword when it is miscorrected (R148). -/
def State.dramTaken (s : State) (a : Nat) (d : Decoded) : State :=
  match d with
  | .miscorrected _ w => s.modMem fun m => { m with dram := Mem.writeBytes m.dram (a / 64 * 64) (leBytes 64 w.toNat) }
  | _ => s

/-- Table 6-3: link ECC events count and feed the channel's wear score. -/
def State.linkEcc (s : State) (c : Nat) (d : Decoded) : State :=
  match d with
  | .linkEcc n _ _ => (s.modShoal (c / 8) fun x => { x with linkEcc := satAdd32 x.linkEcc n }).modFlt fun f =>
      { f with wear := wearEvents f.wear (chanUnit c) 1 n s.count }
  | _ => s

/-- Table 6-3 for a DRAM word at address a. -/
def State.dramDecode (s : State) (who : Option Nat) (a : Nat) (d : Decoded) (src : Nat) (op : Nat × Nat := (0, 0)) :
    State :=
  let c := s.dramChannel a
  let u := chanUnit c
  let s := (s.linkEcc c d).dramTaken a (s.dramSettled d)
  match s.dramSettled d with
  | .clean | .linkEcc .. => s
  | .corrected n | .miscorrected n _ =>
    let recent := ((Tbl.getD s.mem.chanCorrected c []).filter fun t => decide (s.count.toNat - t.toNat < 360000000000)) ++ [s.count]
    let s1 := (s.modShoal (c / 8) fun x => { x with corrected := satAdd32 x.corrected 1 }).modMem fun m =>
      { m with chanCorrected := Tbl.set m.chanCorrected c recent }
    let s2 := s1.raise { unit := u, cls := clsCorrected, opKind := decodeKind src op, opCode := op.2, part := who, actions := actCounted,
                         detail := [(32, a), (40, n), (41, src)] }
    if recent.length > s.param 0x0605 then s2.wantRetire c else s2
  | .uncorrectable n =>
    let s1 := (s.modShoal (c / 8) fun x => { x with uncorrectable := satAdd32 x.uncorrectable 1 }).modMem fun m =>
      { m with dramPoison := if m.dramPoison.contains (a / 64) then m.dramPoison else m.dramPoison ++ [a / 64] }
    (s1.raise { unit := u, cls := clsUncorrectable, opKind := decodeKind src op, opCode := op.2, part := who, scope := 5,
                actions := actPoisoned + actRetiring,
                detail := [(32, a / 64 * 64), (40, n), (41, src)] }).wantRetire c

/-- Whether a staging bank is owned by no partition. -/
def State.bankFree (s : State) (h b : Nat) : Bool :=
  (s.parts.all fun e => !e.2.ownsBank h b) && !s.bankInCat b

/-- Table 6-3 and Table 10-5 for a staging word: poisoned; a second uncorrectable word of the bank fences it, its contents
moving to a free bank of the shoal (code 2, its home code 4) or becoming unbacked (code 3). -/
def State.stagingDecode (s : State) (h off : Nat) (d : Decoded) (src : Nat) (op : Nat × Nat := (0, 0)) : State :=
  let b := off / 0x400000
  let u := shoalUnit h 0 0 0x3FF
  let addr := 0xF800000000 + h * 0x4000000 + off
  match sramSettled d with
  | .clean | .linkEcc .. | .miscorrected .. => s
  | .corrected n =>
    (s.modShoal h fun x => { x with corrected := satAdd32 x.corrected 1 }).raise
      { unit := u, cls := clsCorrected, opKind := decodeKind src op, opCode := op.2, actions := actCounted, detail := [(32, addr), (40, n), (41, src)] }
  | .uncorrectable n =>
    let seen := Tbl.getD (s.shoal h).badBanks b 0
    let home := (List.range 16).find? fun x => x != b && s.bankFree h x && Tbl.getD (s.shoal h).badBanks x 0 == 0
    let s1 := s.modShoal h fun x => { x with
      uncorrectable := satAdd32 x.uncorrectable 1,
      stPoison := if x.stPoison.contains (off / 32) then x.stPoison else x.stPoison ++ [off / 32],
      badBanks :=
        if seen = 0 then Tbl.set x.badBanks b 1
        else if seen = 1 then
          match home with
          | some y => Tbl.set (Tbl.set x.badBanks b 2) y 4
          | none => Tbl.set x.badBanks b 3
        else x.badBanks }
    s1.raise { unit := u, cls := clsUncorrectable, opKind := decodeKind src op, opCode := op.2, scope := if seen = 1 then 4 else 1,
               actions := actPoisoned + (if seen = 1 then actFenced else 0),
               detail := [(32, addr), (40, n), (41, src)] }

/-- The decode outcome of the word at a place. -/
def State.placeDecode (s : State) (who : Option Nat) (pl : Place) (d : Decoded) (src : Nat) (op : Nat × Nat := (0, 0)) : State :=
  match pl with
  | .dram a => s.dramDecode who a d src op
  | .lagoon g off => s.lagoonDecode g off d src op
  | .staging h off => s.stagingDecode h off d src op

end Sys2Proof.Machine
end

