-- ==== Sys2Proof/Machine/AtollMem.lean ====
section
/-! DEFINITION. Lagoon loads and stores, neighbour requests, cache-mode bays and bay mode changes (03 R48-R65). -/

namespace Sys2Proof.Machine

/-! ### Cache-mode bays (03 R62-R65) -/

/-- Cache-mode bays in ascending number. -/
def Atoll.cacheBays (a : Atoll) : List Nat := (List.range 24).filter fun b => a.bayCache.getLsbD b

/-- R62: bay, set and line index of a cache-window offset; none when no bay is in cache mode. -/
def Atoll.cacheSet (a : Atoll) (off : Nat) : Option (Nat × Nat × Nat) :=
  let bs := a.cacheBays
  if bs.isEmpty then none
  else
    let l := off / 256
    some (bs.getD (l % bs.length) 0, l / bs.length % 512, l)

/-- Key of a way of a set. -/
def wayKey (bay set way : Nat) : Nat := (bay * 512 + set) * 8 + way

/-- The way of a set that holds a line. -/
def Atoll.findWay (a : Atoll) (bay set l : Nat) : Option Nat :=
  (List.range 8).find? fun w =>
    match Tbl.get? a.cache (wayKey bay set w) with
    | some c => c.index == l
    | none => false

/-- Tree pseudo-LRU over eight ways (R62): node 0 is the root, bit 1 points right. -/
def plruVictim (t : BitVec 7) : Nat :=
  let b (i : Nat) : Nat := b2n (t.getLsbD i)
  let n1 := 1 + b 0
  let n2 := 2 * n1 + 1 + b n1
  (n2 - 3) * 2 + b n2

/-- An access to a way turns the nodes on its path away from it. -/
def plruTouch (t : BitVec 7) (w : Nat) : BitVec 7 :=
  let n1 := 1 + w / 4
  let n2 := 3 + w / 2
  let s (v i : Nat) (up : Bool) : Nat := setBits v i 1 (b2n up)
  BitVec.ofNat 7 (s (s (s t.toNat 0 (w / 4 == 0)) n1 (w / 2 % 2 == 0)) n2 (w % 2 == 0))

/-- A line's bytes written back to DRAM at CACHE_WINDOW_BASE (R62, R140). -/
def State.writeBack (s : State) (g : Nat) (c : CacheLine) : State :=
  let a := s.atoll g
  (s.pwrite (s.partOf g) (a.cacheBase.toNat + c.index * 256) 0 (Mem.readBytes c.data 0 256)).1

/-- The DRAM range the eviction that makes room in a set writes back. -/
def State.evictRange (s : State) (g bay set : Nat) : List (Nat × Nat × Bool) :=
  let a := s.atoll g
  match (List.range 8).find? fun w => (Tbl.get? a.cache (wayKey bay set w)).isNone with
  | some _ => []
  | none =>
    match Tbl.get? a.cache (wayKey bay set (plruVictim (Tbl.getD a.plru (bay * 512 + set) 0))) with
    | some c => if c.dirty then [(a.cacheBase.toNat + c.index * 256, 256, true)] else []
    | none => []

/-- Make room for a line in its set: the lowest free way, or the pseudo-LRU victim, written back when dirty. -/
def State.cacheAlloc (s : State) (g bay set : Nat) : State × Nat :=
  let a := s.atoll g
  match (List.range 8).find? fun w => (Tbl.get? a.cache (wayKey bay set w)).isNone with
  | some w => (s, w)
  | none =>
    let w := plruVictim (Tbl.getD a.plru (bay * 512 + set) 0)
    match Tbl.get? a.cache (wayKey bay set w) with
    | some c =>
      let s1 := if c.dirty then s.writeBack g c else s
      (s1.modAtoll g fun x => { x with cache := Tbl.erase x.cache (wayKey bay set w) }, w)
    | none => (s, w)

/-- Put a line in a way and note the access. -/
def Atoll.setLine (a : Atoll) (bay set w : Nat) (c : CacheLine) : Atoll :=
  { a with cache := Tbl.set a.cache (wayKey bay set w) c,
           plru := Tbl.set a.plru (bay * 512 + set) (plruTouch (Tbl.getD a.plru (bay * 512 + set) 0) w) }

/-- A bay whose cache commands keep accesses waiting: one being invalidated (Table 3-9). -/
def Atoll.bayWaits (a : Atoll) (b : Nat) : Bool :=
  a.cacheCmds.any fun c => c.bay == b && c.started && c.kind != .flush

/-- Outcome of a cache-window access: it waits (a fill is on its way, or the bay is invalidating), or ends with a status. -/
inductive CacheOut where
  | waits (s : State)
  | ends (s : State) (status : Nat) (data : List Byte)

/-- R62-R64: a read of n bytes of one cache line. A miss starts a fill and waits for CACHE_FILL. -/
def State.cacheRead (s : State) (g off n : Nat) : CacheOut :=
  let a := s.atoll g
  match a.cacheSet off with
  | none => .ends s acBayMode []
  | some (bay, set, l) =>
    if a.bayBusy.getLsbD bay ∧ ¬ a.bayWaits bay then .ends s acBayMode []
    else if a.bayWaits bay then .waits s
    else
      match a.findWay bay set l with
      | some w =>
        let c := Tbl.getD a.cache (wayKey bay set w) { index := l, dirty := false, poisoned := false, filling := false, data := [] }
        if c.filling then .waits s
        else if c.poisoned then .ends s acSymbol []
        else .ends (s.modAtoll g fun x => x.setLine bay set w c) stOk (Mem.readBytes c.data (off % 256) n)
      | none =>
        match s.place (s.partOf g) (a.cacheBase.toNat + l * 256) false with
        | .ok (.dram _) =>
          match s.biCheck (s.evictRange g bay set) with
          | .waits s0 | .timeout s0 => .waits s0
          | _ =>
            let (s1, w) := s.cacheAlloc g bay set
            .waits (s1.modAtoll g fun x => x.setLine bay set w
              { index := l, dirty := false, poisoned := false, filling := true, data := [] })
        | _ => .ends s acUnreachable []

/-- A write into one cache line: a write of the whole line needs no fill (R62). -/
def State.cacheWrite (s : State) (g off : Nat) (data : List Byte) : CacheOut :=
  let a := s.atoll g
  match a.cacheSet off with
  | none => .ends s acBayMode []
  | some (bay, set, l) =>
    if a.bayBusy.getLsbD bay ∧ ¬ a.bayWaits bay then .ends s acBayMode []
    else if a.bayWaits bay then .waits s
    else
      match a.findWay bay set l with
      | some w =>
        let c := Tbl.getD a.cache (wayKey bay set w) { index := l, dirty := false, poisoned := false, filling := false, data := [] }
        if c.filling then .waits s
        else if c.poisoned ∧ data.length < 256 then .ends s acSymbol []
        else .ends (s.modAtoll g fun x => x.setLine bay set w
          { c with dirty := true, poisoned := false, data := Mem.writeBytes c.data (off % 256) data }) stOk []
      | none =>
        match s.place (s.partOf g) (a.cacheBase.toNat + l * 256) true with
        | .ok (.dram _) =>
          match s.biCheck (s.evictRange g bay set) with
          | .waits s0 | .timeout s0 => .waits s0
          | _ =>
            let (s1, w) := s.cacheAlloc g bay set
            if data.length = 256 then
              .ends (s1.modAtoll g fun x => x.setLine bay set w
                { index := l, dirty := true, poisoned := false, filling := false, data := Mem.writeBytes [] 0 data }) stOk []
            else .waits (s1.modAtoll g fun x => x.setLine bay set w
              { index := l, dirty := false, poisoned := false, filling := true, data := [] })
        | _ => .ends s acUnreachable []

/-! ### Loads and stores (03 R48-R55) -/

/-- Table 10-10 DEST_IN_RESET: an absorbed request is counted at its target, with one record per reset. -/
def State.absorb (s : State) (t : Nat) : State :=
  let a := s.atoll t
  let s1 := s.modAtoll t fun x => { x with destInReset := satAdd32 x.destInReset 1 }
  if a.destInReset = 0 then
    s1.raise { unit := siteUnit t, cls := clsDestReset, part := s.partOf t, actions := actCounted, detail := [(36, 1)] }
  else s1

/-- How a load ends for its requester: a core writes rd or takes an access fault (R54); the others only see the status. -/
def State.endLoad (s : State) (g : Nat) (who : Requester) (addr : Word) (size : Nat) (sgn : Bool) (st : Nat)
    (data : List Byte) : State :=
  match who with
  | .core c rd =>
    s.modAtoll g fun a => a.modCore (a.coreIdx c) fun k =>
      if st = 0 then (k.setReg rd (extendBytes sgn size (leNat data))).advance k.instrLen
      else k.accessFault false (BitVec.ofNat 64 (2 ^ 32 + addr.toNat)) st
  | _ => s

/-- The same for a store. -/
def State.endStore (s : State) (g : Nat) (who : Requester) (addr : Word) (st : Nat) : State :=
  match who with
  | .core c _ =>
    s.modAtoll g fun a => a.modCore (a.coreIdx c) fun k =>
      if st = 0 then k.advance k.instrLen else k.accessFault true (BitVec.ofNat 64 (2 ^ 32 + addr.toNat)) st
  | _ => s

/-- Whether atoll g's units run: the module ready, and the atoll neither in reset, frozen for a patrol (10 R254) nor held by a
step abort (Table 10-7). -/
def State.unitRuns (s : State) (g : Nat) : Bool :=
  let a := s.atoll g
  s.running && !a.inReset && !a.frozen && !a.aborting

/-- R54: a load from the own lagoon, a neighbour's, or the cache window. -/
def State.load (s : State) (g : Nat) (who : Requester) (addr : Word) (size : Nat) (sgn : Bool) (dec : Decoded) : State :=
  if laTarget addr = 5 then
    match s.cacheRead g (laOffset addr) size with
    | .waits s' => s'
    | .ends s' st data => s'.endLoad g who addr size sgn st data
  else
    match s.resolve g addr size with
    | .error st =>
      let s' := if st = acDestReset then
          match s.mapped g (laTarget addr - 1) with
          | some t => s.absorb t
          | none => s
        else s
      s'.endLoad g who addr size sgn st []
    | .ok (t, off) =>
      let (s', st, data) := s.lagoonRead t off size dec (9, 0x03)
      s'.endLoad g who addr size sgn st data

/-- R54, R25, R59: a store to the own lagoon, a neighbour's, or the cache window. -/
def State.storeTo (s : State) (g : Nat) (who : Requester) (addr : Word) (tag : BitVec 5) (data : List Byte) : State :=
  if laTarget addr = 5 then
    match s.cacheWrite g (laOffset addr) data with
    | .waits s' => s'
    | .ends s' st _ => s'.endStore g who addr st
  else
    match s.resolve g addr data.length with
    | .error st =>
      let s' := if st = acDestReset then
          match s.mapped g (laTarget addr - 1) with
          | some t => s.absorb t
          | none => s
        else s
      s'.endStore g who addr st
    | .ok (t, off) => (s.lagoonWrite t off tag data).endStore g who addr stOk

/-- LAGOON_LOAD (R54). A load of no bytes or of more than a line is no access and leaves the state unchanged. -/
def execLagoonLoad (g : Fin 320) (who : Requester) (addr : Word) (size : Nat) (sgn : Bool) (dec : Decoded) (s : State) :
    Host.Outcome State Fault Refusal :=
  .next (if s.unitRuns g ∧ 0 < size ∧ size ≤ 128 then s.load g who addr size sgn dec else s)

/-- LAGOON_STORE (R54, R25). -/
def execLagoonStore (g : Fin 320) (who : Requester) (addr : Word) (tag : BitVec 5) (data : List Byte) (s : State) :
    Host.Outcome State Fault Refusal :=
  .next (if s.unitRuns g ∧ 0 < data.length ∧ data.length ≤ 256 then s.storeTo g who addr tag data else s)

/-- NEIGHBOUR_REQUEST (R53): the target serves a request of its own partition; a refused one reads and writes nothing, and
one absorbed in reset is counted. -/
def execNeighbourRequest (target source : Fin 320) (offset : Nat) (req : NbrAccess) (dec : Decoded) (s : State) :
    Host.Outcome State Fault Refusal :=
  .next (
    if !s.running || (s.atoll target).frozen then s
    else if offset ≥ 0x1800000 then s
    else
      let st := s.nbrStatus source target offset
      if st = acDestReset then s.absorb target
      else if st ≠ stOk then s
      else
        match req with
        | .read n => if 0 < n ∧ n ≤ 128 then (s.lagoonRead target offset n dec (9, 0)).1 else s
        | .write tag data => s.lagoonWrite target offset tag data)

/-! ### Cache commands and fills -/

/-- Every line of a bay, as (key, line). -/
def Atoll.bayLines (a : Atoll) (bay : Nat) : List (Nat × CacheLine) :=
  a.cache.filter fun e => e.1 / 4096 == bay

/-- BAY_FLUSH's effect: every dirty line written back, staying valid and clean (Table 3-9). -/
def State.flushBay (s : State) (g bay : Nat) : State :=
  ((s.atoll g).bayLines bay).foldl (fun st e =>
    if e.2.dirty then (st.writeBack g e.2).modAtoll g fun x =>
      { x with cache := Tbl.set x.cache e.1 { e.2 with dirty := false } }
    else st) s

/-- The DRAM ranges a flush of a bay writes. -/
def Atoll.flushRanges (a : Atoll) (bay : Nat) : List (Nat × Nat × Bool) :=
  ((a.bayLines bay).filter fun e => e.2.dirty).map fun e => (a.cacheBase.toNat + e.2.index * 256, 256, true)

/-- BAY_INVALIDATE's effect: every line of the bay discarded. -/
def State.dropBay (s : State) (g bay : Nat) : State :=
  s.modAtoll g fun x => { x with cache := x.cache.filter fun e => e.1 / 4096 != bay }

/-- Whether a cache command of this kind and issuer may run: a sequencer's is at the port, the manager's needs none. -/
def Atoll.hasCacheCmd (a : Atoll) (bay : Nat) (k : CacheCmdKind) (who : CacheIssuer) : Bool :=
  match who with
  | .seq u => a.cacheCmds.any fun c => c.bay == bay && c.kind == k && c.seq == some u.val
  | .manager => true

/-- The command leaves the port, and a sequencer that waits for it goes on. -/
def Atoll.endCacheCmd (a : Atoll) (bay : Nat) (k : CacheCmdKind) (who : CacheIssuer) : Atoll :=
  match who with
  | .seq u =>
    let a1 := { a with cacheCmds := a.cacheCmds.filter fun c => !(c.bay == bay && c.kind == k && c.seq == some u.val) }
    a1.modSeq u fun q => if q.block = .cache bay then { q with block := .none } else q
  | .manager => a

/-- Run a cache command on a cache-mode bay; one on a scratchpad bay holds no line and only completes. -/
def State.cacheCommand (s : State) (g bay : Nat) (k : CacheCmdKind) (who : CacheIssuer) : State :=
  if s.unitRuns g ∧ (s.atoll g).hasCacheCmd bay k who then
    s.biThen (if k = .invalidate then [] else (s.atoll g).flushRanges bay) (fun t => t) fun s =>
    let s1 :=
      match k with
      | .flush => s.flushBay g bay
      | .invalidate => s.dropBay g bay
      | .flushInvalidate => (s.flushBay g bay).dropBay g bay
    s1.modAtoll g fun x => x.endCacheCmd bay k who
  else s

/-- BAY_FLUSH (R63). -/
def execBayFlush (g : Fin 320) (bay : Fin 24) (by_ : CacheIssuer) (s : State) : Host.Outcome State Fault Refusal :=
  .next (s.cacheCommand g bay .flush by_)

/-- BAY_INVALIDATE (R63). -/
def execBayInvalidate (g : Fin 320) (bay : Fin 24) (by_ : CacheIssuer) (s : State) : Host.Outcome State Fault Refusal :=
  .next (s.cacheCommand g bay .invalidate by_)

/-- BAY_FLUSH_INVALIDATE (R63). -/
def execBayFlushInvalidate (g : Fin 320) (bay : Fin 24) (by_ : CacheIssuer) (s : State) :
    Host.Outcome State Fault Refusal :=
  .next (s.cacheCommand g bay .flushInvalidate by_)

/-- CACHE_FILL (R64): the line a read waits for arrives from DRAM; data marked uncorrectable installs it poisoned. -/
def execCacheFill (g : Fin 320) (line : Nat) (dec : Decoded) (s : State) : Host.Outcome State Fault Refusal :=
  .next (
    let a := s.atoll g
    match a.cacheSet (line * 256) with
    | none => s
    | some (bay, set, l) =>
      match a.findWay bay set l with
      | none => s
      | some w =>
        match Tbl.get? a.cache (wayKey bay set w) with
        | none => s
        | some c =>
          if ¬ c.filling ∨ ¬ s.unitRuns g then s
          else
            let addr := a.cacheBase.toNat + l * 256
            s.biThen [(addr, 256, false)] (fun t => t.modAtoll g fun x => { x with cache := Tbl.erase x.cache (wayKey bay set w) }) fun s =>
            let s1 := match s.place (s.partOf g) addr false with
              | .ok pl => s.placeDecode (s.partOf g) pl dec 0 (9, 0)
              | .error _ => s
            let (_, st, data) := s1.pread (s.partOf g) addr 256
            let bad := st != stOk
            s1.modAtoll g fun x => x.setLine bay set w
              { c with filling := false, poisoned := bad, data := if bad then [] else Mem.writeBytes [] 0 data })

/-- CACHE_DRAM_TIMEOUT (R64): no answer within 100 µs raises TIMEOUT with cause 1; the fill is given up. -/
def execCacheDramTimeout (g : Fin 320) (line : Nat) (s : State) : Host.Outcome State Fault Refusal :=
  .next (
    let a := s.atoll g
    match a.cacheSet (line * 256) with
    | none => s
    | some (bay, set, l) =>
      match a.findWay bay set l with
      | none => s
      | some w =>
        match Tbl.get? a.cache (wayKey bay set w) with
        | none => s
        | some c =>
          if ¬ c.filling ∨ ¬ s.unitRuns g then s
          else
            (s.modAtoll g fun x => { x with cache := Tbl.erase x.cache (wayKey bay set w) }).raise
              { unit := bayUnit g bay, cls := clsTimeout, part := s.partOf g, actions := actCounted,
                detail := [(32, 1), (33, a.cacheBase.toNat + l * 256)] })

/-- BAY_FLUSH_TIMEOUT (R64): a flush past its bound raises TIMEOUT and fences the bay. -/
def execBayFlushTimeout (g : Fin 320) (bay : Fin 24) (s : State) : Host.Outcome State Fault Refusal :=
  .next (
    let a := s.atoll g
    let flushing := a.cacheCmds.any fun c => c.bay == bay.val && c.kind != .invalidate
    let changing := a.changes.any fun c => c.bay == bay.val && !c.toCache
    if s.unitRuns g ∧ (flushing ∨ changing) then
      let u := bayUnit g bay
      let seq := s.nextSeq u
      let s1 := (s.raise { unit := u, cls := clsTimeout, part := s.partOf g, scope := 3, actions := actFenced,
                           detail := [(32, 1), (33, bay)] }).fenceUnit u clsTimeout seq
      let s2 := s1.modAtoll g fun x => { x with
        cacheCmds := x.cacheCmds.filter fun c => c.bay != bay.val }
      match s.positionOf g with
      | some (p, pos) => s2.trigger p { cls := clsTimeout, addr := none, position := some pos, recordSeq := seq }
      | none => s2
    else s)

/-! ### Bay mode changes (03 R65, Table 3-11) -/

/-- Table 5-11: channels whose ring lies in a bay that changes mode: the port unpublishes, its messages are discarded and
counted, its receive ends are gone and their senders dead (Table 5-7, -2); a closing send end is free. -/
def State.bayUnpublish (s : State) (g bay : Nat) : State :=
  let cores := (s.atoll g).cores
  let hit (p : ChPort) : Bool := p.publish && bayOf (laOffset p.base) == bay
  let into (k : Core) (h : Handle) : Bool := !h.send && hit (k.port h.port)
  let lost := cores.foldl (fun n c => n + (c.2.ports.foldl (fun m p => if hit p.2 then m + p.2.msgs.length else m) 0)) 0
  let ends := (cores.map fun c => (c.2.handles.map Prod.snd).filter (into c.2)).flatten
  let kill (t : State) (x : Handle) : State :=
    match (s.partOf g).bind fun p => t.atollAt p x.peerPos with
    | none => t
    | some h => t.modAtoll h fun b => b.modCore x.peerCore fun k => match Tbl.get? k.handles x.peerHandle with
        | none => k
        | some y => { k with handles := if y.closing then Tbl.erase k.handles x.peerHandle
                                        else Tbl.set k.handles x.peerHandle { y with dead := true } }
  (ends.foldl kill s).modAtoll g fun a => { a with
    chDiscard := satAdd32 a.chDiscard lost,
    cores := a.cores.map fun c => (c.1, { c.2 with
      handles := c.2.handles.filter fun e => !into c.2 e.2,
      ports := c.2.ports.map fun p => (p.1, if hit p.2 then { p.2 with publish := false, msgs := [], wr := 0 } else p.2) }) }

/-- BAY_MODE_CHANGE (R65 step 1): `busy` is set; new requests end with BAY_MODE from here on. -/
def execBayModeChange (g : Fin 320) (bay : Fin 24) (toCache : Bool) (s : State) : Host.Outcome State Fault Refusal :=
  .next (
    let a := s.atoll g
    if s.unitRuns g ∧ a.bayCache.getLsbD bay ≠ toCache ∧ ¬ a.changes.any (fun c => c.bay == bay.val) then
      (s.bayUnpublish g bay).modAtoll g fun x => { x with
        bayBusy := x.bayBusy ||| BitVec.ofNat 24 (2 ^ bay.val),
        changes := x.changes ++ [{ bay := bay, toCache := toCache }] }
    else s)

/-- Zero fill of a bay with tag 0x00 and slots 0xF000 (Table 3-11 step 4). -/
def Atoll.zeroBay (a : Atoll) (bay : Nat) : Atoll :=
  { a with lagoon := Mem.clear a.lagoon (bay * 0x100000) 0x100000,
           lineMeta := a.lineMeta.filter fun e => e.1 / 8192 != bay,
           cache := a.cache.filter fun e => e.1 / 4096 != bay }

/-- Steps 2-5 of Table 3-11 for one bay: write-back when leaving cache mode, tags cleared, data zero-filled, the `cache`
bit changed and `busy` cleared. -/
def State.finishBayChange (s : State) (g : Nat) (c : BayChange) : State :=
  let s1 := if c.toCache then s else s.flushBay g c.bay
  s1.modAtoll g fun x =>
    let y := x.zeroBay c.bay
    { y with
      bayBusy := y.bayBusy &&& ~~~ BitVec.ofNat 24 (2 ^ c.bay),
      bayCache := if c.toCache then y.bayCache ||| BitVec.ofNat 24 (2 ^ c.bay) else y.bayCache &&& ~~~ BitVec.ofNat 24 (2 ^ c.bay),
      changes := y.changes.filter fun d => d.bay != c.bay }

/-- BAY_MODE_CHANGE_DONE (R65 steps 2-5). -/
def execBayModeChangeDone (g : Fin 320) (bay : Fin 24) (s : State) : Host.Outcome State Fault Refusal :=
  .next (
    match (s.atoll g).changes.find? fun c => c.bay == bay.val with
    | some c =>
      if s.unitRuns g then
        s.biThen (if c.toCache then [] else (s.atoll g).flushRanges c.bay) (fun t => t) fun t => t.finishBayChange g c
      else s
    | none => s)

end Sys2Proof.Machine
end

