-- ==== Sys2Proof/Machine/Operands.lean ====
section
/-! DEFINITION. Operand forms: object names (Table 5-9), port names (Table 5-3), position pairs, core addresses, ring
slots and stream ring entries. -/

namespace Sys2Proof.Machine

/-- Scope of an object name (Table 5-9). -/
def objScope (n : DWord) : Nat := bits n.toNat 62 2
/-- Object number. -/
def objNumber (n : DWord) : Nat := bits n.toNat 0 13
/-- Position, scope 1. -/
def objPosition (n : DWord) : Nat := bits n.toNat 16 8
/-- Module, scope 3. -/
def objModule (n : DWord) : Nat := bits n.toNat 32 13

/-- R132: fields a scope does not use, and reserved bits, must be 0; an object of scopes 0 and 1 is 0 to 63, of scope 2
and 3 is 0 to 8191. -/
def objNameOk (n : DWord) : Bool :=
  let v := n.toNat
  bits v 45 17 == 0 && bits v 24 8 == 0 && bits v 13 3 == 0 &&
  (match objScope n with
   | 0 => bits v 16 8 == 0 && bits v 32 13 == 0 && decide (objNumber n < 64)
   | 1 => bits v 32 13 == 0 && decide (objNumber n < 64)
   | 2 => bits v 16 8 == 0 && bits v 32 13 == 0 && decide (objNumber n < 8192)
   | _ => bits v 16 8 == 0 && decide (objNumber n < 8192))

/-- Position of a position pair (04 Table 4-12). -/
def pairPosition (w : Word) : Nat := bits w.toNat 24 8
/-- Directory entry number of a position pair. -/
def pairDescriptor (w : Word) : Nat := bits w.toNat 0 14

/-- Slot of an absolute stream index in its ring (13 R332). -/
def ringSlot (sizeLog2 idx : Nat) : Nat := idx % 2 ^ sizeLog2
/-- The `phase` bit that makes the command with an absolute index valid: 1 for an even lap (13 R332). -/
def ringPhase (sizeLog2 idx : Nat) : Bool := idx / 2 ^ sizeLog2 % 2 == 0

/-- The local address a core address of the lagoon space names (03 R48). -/
def coreLocal (a : DWord) : Option Word :=
  if 0x100000000 ≤ a.toNat ∧ a.toNat < 0x200000000 then some (BitVec.ofNat 32 (a.toNat - 0x100000000)) else none

end Sys2Proof.Machine
end

