-- ==== Sys2Proof/Machine/Sync.lean ====
section
/-! DEFINITION. Synchronisation objects (05 R130-R133), and how a stream command completes or a stream stops
(13 R336, R339-R343), which signal one another. -/

namespace Sys2Proof.Machine

/-- Count of an atoll object. -/
def Atoll.obj (a : Atoll) (o : Nat) : Word := Tbl.getD a.objs o 0
/-- Count of a module-level object. -/
def State.modObj (s : State) (o : Nat) : Word := Tbl.getD s.mem.modObjs o 0

/-- Count behind an object name as seen from atoll g (scopes 0 and 2, the scopes that wait). -/
def State.objCount (s : State) (g : Nat) (name : DWord) : Word :=
  if objScope name = 0 then (s.atoll g).obj (objNumber name) else s.modObj (objNumber name)

/-- R130: a SIGNAL adds, saturating. -/
def signalCount (c : Word) (inc : Nat) : Word := satAdd32 c inc

/-- Drop every wait entry of core c of atoll g. -/
def State.dropWaits (s : State) (g c : Nat) : State :=
  let keep (e : WaitEntry) : Bool := match e.who with
    | .core g' c' _ => !(g' == g && c' == c)
    | _ => true
  (s.modAtoll g fun a => { a with waits := a.waits.filter keep }).modMem fun m => { m with modWaits := m.modWaits.filter keep }

/-- Wake a blocked core whose wait is met: rd takes the lowest index met for WAITANY, 0 for WAIT (R130). -/
def State.wakeCore (s : State) (g c : Nat) : State :=
  match ((s.atoll g).core c).block with
  | .wait rd objs any _ =>
    match objs.findIdx? fun o => decide (o.2.toNat ≤ (s.objCount g o.1).toNat) with
    | some k =>
      (s.dropWaits g c).modAtoll g fun a => a.modCore c fun x =>
        (x.setReg rd (if any then BitVec.ofNat 64 k else 0)).advance 4
    | none => s
  | _ => s

/-- Wake a sequencer that waits on an object: it goes on at the next entry. -/
def State.wakeSeq (s : State) (g u : Nat) : State :=
  s.modAtoll g fun a => a.active.modSeq u fun q =>
    match q.block with
    | .sync _ _ => { q with block := .none, state := .running, pc := q.pc + 1 }
    | _ => q

/-- Whether a stop or a trigger belongs to a step: one is open, or its replay has not begun (13 R341). -/
def Part.inStep (x : Part) : Bool := x.stepOpen || x.replaying

/-- Advance `done` over finished indices; fuel bounds the walk. -/
def Stream.walkDone : Nat → Stream → Stream
  | 0, x => x
  | k + 1, x =>
    if x.finished.contains x.done then
      Stream.walkDone k { x with done := (x.done + 1) % 2 ^ 32, finished := x.finished.filter (· != x.done) }
    else x

/-- R340: outside a step `retired` of stream st equals `done`; inside it stays at the recorded index. A stream that a partition
reset stopped keeps its `retired` until its resume or a commit (R345). -/
def Part.retire (x : Part) (st : Nat) : Part :=
  if x.inStep then x else x.modStream st fun y => { y with retired := y.done }

/-- R343: a stream stops; its started commands run on, later ones do not start, and a notice of kind 3 is posted. -/
def State.stopStream (s : State) (p st status kind at_ off cause : Nat) (word : DWord) (seq : Word := 0)
    (quiet : Bool := false) : State :=
  match s.part? p with
  | none => s
  | some x =>
    let y := x.stream st
    if !y.open_ || y.stopped then s
    else
      let s1 := s.modPart p fun x => x.modStream st fun y => { y with
        stopped := true, waiting := [], status := BitVec.ofNat 16 status, causeKind := kind, stoppedAt := at_,
        fieldOffset := BitVec.ofNat 16 off, cause := BitVec.ofNat 16 cause, unitWord := word, statusDue := true }
      if quiet then s1 else s1.notice p 3 status seq

/-- R342: a rollback trigger outside a step stops every RUNNING stream with FENCED at its `done` index, its started
commands ending ABANDONED. -/
def State.stopAllFenced (s : State) (p cause : Nat) (seq : Word) : State :=
  match s.part? p with
  | none => s
  | some x => (List.range 4).foldl (fun t st =>
      let y := x.stream st
      if y.open_ ∧ ¬ y.stopped then
        (t.stopStream p st mbFenced 3 y.done 0xFFFF cause 0 seq).modPart p fun z => z.modStream st fun q =>
          { q with started := [], finished := [] }
      else t) s

/-- Table 13-9: mailbox status of a stop on a unit status of Tables 3-10, 6-6 and 9-9. -/
def stopStatus (unit : Nat) : Nat :=
  if unit = opBadDesc then mbBadField
  else if unit = opBadAddress ∨ unit = opUnreachable ∨ unit = opBayMode then mbOutOfRange
  else if unit = opDestReset then mbBusy
  else if unit = opWindowClosed ∨ unit = opBankClosed ∨ unit = opBankOff then mbNoResource
  else if unit = opTimeout then mbTimeout
  else if unit = opSymbol then mbDataBad
  else if unit = 12 then mbBusy
  else if unit = 14 then mbOutOfRange
  else mbFenced

/-- How a stream command's completion is judged: DONE, a stop with given statuses, or a rollback trigger (R343). -/
inductive Verdict where
  | done
  | stop (status kind cause off : Nat) (word : DWord)
  | rollback (t : Trigger) (status : Nat) (word : DWord)

/-- The verdict on a unit completion word: SYMBOL_UNCORRECTABLE and ABANDONED roll an open step back. -/
def unitVerdict (w : DWord) (addr : Option DWord) (seq : Word) : Verdict :=
  let st := wordStatus w
  if st = 0 then .done
  else if st = opSymbol ∨ st = opAbandoned ∨ st = 13 then
    .rollback { cls := if st = opSymbol then clsUncorrectable else 0, addr := addr, position := none, recordSeq := seq } st w
  else .stop (stopStatus st) 2 st 0xFFFF w

/-- Apply a completed command's verdict (R342, R343). -/
def State.judge (s : State) (p st idx : Nat) (v : Verdict) : State :=
  match s.part? p with
  | none => s
  | some x =>
    match v with
    | .done => s
    | .stop status kind cause off w => s.stopStream p st status kind idx off cause w
    | .rollback t unit w =>
      if x.inStep then s.trigger p t
      else if unit = opSymbol ∧ x.triggers.isEmpty then s.stopStream p st mbDataBad 2 idx 0xFFFF unit w
      else s.stopAllFenced p t.cls.toNat t.recordSeq

/-- A started command leaves the started list and counts as completed. -/
def State.finishCmd (s : State) (p st idx : Nat) : State :=
  s.modPart p fun x => (x.modStream st fun y =>
    Stream.walkDone 65536 { y with started := y.started.filter (·.idx != idx), finished := y.finished ++ [idx], statusDue := true }).retire st

mutual

/-- Complete a started stream command: its verdict, and its `notify` signal of 1 (R336). -/
def State.completeCmdN : Nat → State → Nat → Nat → Nat → Verdict → State
  | 0, s, _, _, _, _ => s
  | k + 1, s, p, st, idx, v =>
    match (s.part? p).bind fun x => (x.stream st).started.find? (·.idx == idx) with
    | none => s
    | some c =>
      let s1 := (s.finishCmd p st idx).judge p st idx v
      if flag c.img 1 0 then State.signalModN k s1 (fld c.img 60 0 13) 1 else s1

/-- R130: signal a module-level object and wake, in waiting order, every waiter whose target is met. -/
def State.signalModN : Nat → State → Nat → Nat → State
  | 0, s, _, _ => s
  | k + 1, s, o, inc =>
    let s1 := s.modMem fun m => { m with modObjs := Tbl.set m.modObjs o (signalCount (s.modObj o) inc) }
    State.wakeModN k s1 o (s1.mem.modWaits.filter fun w => w.obj == o && decide (w.target.toNat ≤ (s1.modObj o).toNat))

/-- Wake a list of waiters of a module-level object. -/
def State.wakeModN : Nat → State → Nat → List WaitEntry → State
  | 0, s, _, _ => s
  | _ + 1, s, _, [] => s
  | k + 1, s, o, w :: ws =>
    let s1 := match w.who with
      | .core g c _ => s.wakeCore g c
      | .seq g u => s.wakeSeq g u
      | .stream p st idx =>
        State.completeCmdN k (s.modMem fun m => { m with modWaits := m.modWaits.filter (· != w) }) p st idx .done
    State.wakeModN k s1 o ws

end

/-- Steps that bound one chain of wakes and notifications: every link of it removes a waiter. -/
def State.wakeFuel (s : State) : Nat := 4 * (s.mem.modWaits.length + 2)

/-- Complete a started stream command. -/
def State.completeCmd (s : State) (p st idx : Nat) (v : Verdict) : State := State.completeCmdN s.wakeFuel s p st idx v

/-- Signal a module-level object. -/
def State.signalMod (s : State) (o inc : Nat) : State := State.signalModN s.wakeFuel s o inc

/-- ARM a module-level object: its count is set and its waiters tested (R130). -/
def State.armMod (s : State) (o : Nat) (v : Word) : State :=
  let s1 := s.modMem fun m => { m with modObjs := Tbl.set m.modObjs o v }
  State.wakeModN s1.wakeFuel s1 o (s1.mem.modWaits.filter fun w => w.obj == o && decide (w.target.toNat ≤ v.toNat))

/-- Wake the waiters of an atoll object whose targets are met. -/
def State.wakeAtollObj (s : State) (g o : Nat) : State :=
  let c := (s.atoll g).obj o
  let met := (s.atoll g).waits.filter fun w => w.obj == o && decide (w.target.toNat ≤ c.toNat)
  met.foldl (fun t w =>
    match w.who with
    | .core g' c' _ => t.wakeCore g' c'
    | .seq g' u => (t.modAtoll g fun a => { a with waits := a.waits.filter (· != w) }).wakeSeq g' u
    | .stream .. => t) s

/-- SIGNAL of an atoll object. -/
def State.signalAtoll (s : State) (g o inc : Nat) : State :=
  (s.modAtoll g fun a => { a with objs := Tbl.set a.objs o (signalCount (a.obj o) inc) }).wakeAtollObj g o

/-- ARM of an atoll object. -/
def State.armAtoll (s : State) (g o : Nat) (v : Word) : State :=
  (s.modAtoll g fun a => { a with objs := Tbl.set a.objs o v }).wakeAtollObj g o

/-- An entry of a TILE_BATCH ends (13 R336): the command completes with the last op, or with the first that is not DONE. -/
def State.batchEnd (s : State) (p st idx : Nat) (w : DWord) : State :=
  match (s.part? p).bind fun x => (x.stream st).started.find? (·.idx == idx) with
  | none => s
  | some c =>
    if wordStatus w ≠ 0 ∨ c.left ≤ 1 then s.completeCmd p st idx (unitVerdict w none 0)
    else s.modPart p fun x => x.modStream st fun y => { y with
      started := y.started.map fun d => if d.idx == idx then { d with left := d.left - 1 } else d }

/-- R70: the delivery of an operation's completion word to its issuer, and the `notify` signal of 1 whatever the status. -/
def State.deliverOp (s : State) (g : Nat) (src : OpSource) (origin : Nat) (w : DWord) (notify : Bool) (obj : Nat) : State :=
  let s1 := match src with
    | .seq u id => s.modAtoll g fun a => a.modSeq u fun q => { q with inbox := q.inbox ++ [(id, w)] }
    | .core c => s.modAtoll g fun a => a.modCore c fun k => { k with
        topDone := Tbl.set k.topDone origin (Tbl.getD k.topDone origin [] ++ [w]) }
    | .batch p st idx _ => s.batchEnd p st idx w
  if notify then s1.signalAtoll g obj 1 else s1

end Sys2Proof.Machine
end

