-- ==== Sys2Proof/Machine/MbCore.lean ====
section
/-! DEFINITION. Mailbox commands (12 R308-R318): submission and the checks of R313, executors, order of commands on a common
target, completions, events and MSI-X vectors; the rows MB_DOORBELL, MB_CQ_HEAD, MB_EQ_HEAD, COMPLETION_POST, EVENT_POST. -/

namespace Sys2Proof.Machine

/-- Whether Icrax runs on the active hub (14 R351, R358, 17 R415); a failed active hub runs nothing until failover. -/
def State.hubRuns (s : State) : Bool :=
  s.life.powered && !s.life.frozen && !s.life.failingHub &&
    (decide (s.life.state = .ready) || decide (s.life.state = .holding) || decide (s.life.state = .outOfService))

/-- Whether the boot ROM serves the admin mailbox in recovery holding (14 R351). -/
def State.hubRecovers (s : State) : Bool := s.life.powered && !s.life.frozen && decide (s.life.state = .recovery)

/-- Whether anything answers mailbox commands. -/
def State.hubServes (s : State) : Bool := s.hubRuns || s.hubRecovers

/-! ### Interrupts and events -/

/-- R318: raise an MSI-X vector: lost while it cannot be sent, pending while masked. -/
def State.msix (s : State) (v : Nat) : State :=
  let h := s.host
  if !h.linkUp || h.perst || s.life.frozen || !h.msixEnable then s
  else if h.msixMask || !h.vecUnmasked.contains v then
    s.modHost fun h => { h with vecPending := if h.vecPending.contains v then h.vecPending else h.vecPending ++ [v] }
  else s.modHost fun h => { h with out := h.out ++ [.msix v] }

/-- R412: queue a PLDM event; a full queue loses its oldest status report, else its oldest event. -/
def State.queuePldm (s : State) (cls : Nat) (data : List Byte) (status : Bool) : State :=
  s.modMgmt fun g =>
    let q := if g.queue.length < 64 then g.queue
      else
        match g.queue.find? fun e => e.status with
        | some e => g.queue.erase e
        | none => g.queue.drop 1
    { g with queue := q ++ [{ cls := cls, data := data, status := status, tries := 0, id := g.eventId }],
             eventId := (g.eventId + 1) % 65536,
             out := if g.i3c && g.ibi then g.out ++ [.inBand] else g.out }

/-- Indices of the unread entries of an event ring, oldest first. -/
def Mailbox.unread (b : Mailbox) : List Nat := (List.range ((b.eqTail + 32 - b.eqHead) % 32)).map fun i => (b.eqHead + i) % 32

/-- The 128 bytes of an event (R317). -/
def eventEntry (e : Event) (seq : Half) (count : DWord) : BitVec 1024 :=
  BitVec.ofNat 1024 (pack [(0, e.type), (2, seq.toNat), (8, count.toNat), (16, leNat e.content % 2 ^ 896)])

/-- R317: put an event into a ring. A full ring keeps a status report out, and gives any other event the place of the oldest
unread status report, or of the oldest entry. `seq` numbers the events kept (log entry 26). -/
def Mailbox.putEvent (b : Mailbox) (e : Event) (count : DWord) : Mailbox :=
  let v := eventEntry e b.eqSeq count
  if (b.eqTail + 1) % 32 ≠ b.eqHead then
    { b with eq_ := Tbl.set b.eq_ b.eqTail v, eqTail := (b.eqTail + 1) % 32, eqSeq := b.eqSeq + 1 }
  else if e.type = 1 then { b with eqLost := satAdd32 b.eqLost 1 }
  else
    let old := (b.unread.find? fun i => fld (Tbl.getD b.eq_ i 0) 0 0 8 == 1).getD b.eqHead
    { b with eq_ := Tbl.set b.eq_ old v, eqSeq := b.eqSeq + 1, eqLost := satAdd32 b.eqLost 1 }

/-- Post one event into mailbox m; an event kept raises vector 2m + 1 unless its MB_IRQ_MASK bit is set. -/
def State.eventTo (s : State) (e : Event) (m : Nat) : State :=
  let b := s.mbox m
  let b' := b.putEvent e s.count
  let s1 := s.modMbox m fun _ => b'
  if b'.eqSeq = b.eqSeq ∨ b.irqMask.getLsbD 1 then s1 else s1.msix (2 * m + 1)

/-- R292, R317, R411: post an event to its mailboxes and to the PLDM queue. -/
def State.deliverEvent (s : State) (e : Event) : State :=
  let s1 := e.mailboxes.foldl (fun t m => t.eventTo e m) s
  let s2 := if e.type = 2 then s1.modFlt fun f => { f with notices := f.notices + 1 } else s1
  let s3 := if e.type = 4 then s2.msix 66 else s2
  let data := BitVec.ofNat 8 e.type :: e.content
  if e.type = 1 then
    let d := s3.param 0x1100
    let n := s3.mgmt.statusCount + 1
    if d = 0 then s3
    else if n ≥ d then (s3.modMgmt fun g => { g with statusCount := 0 }).queuePldm 0xF0 data true
    else s3.modMgmt fun g => { g with statusCount := n }
  else s3.queuePldm 0xF0 data false

/-! ### Checks of R313 -/

/-- The commands of Table 12-8: opcode, admin only, long. -/
def mbTable : List (Nat × Bool × Bool) := [
  (0x0001, false, false), (0x0002, false, false), (0x0003, false, false), (0x0004, false, false),
  (0x0100, false, false), (0x0101, true, false), (0x0102, false, false), (0x0103, true, false),
  (0x0104, true, false), (0x0105, true, true), (0x0106, true, true), (0x0107, true, false), (0x0108, true, true),
  (0x0200, false, false), (0x0201, false, true), (0x0202, false, true), (0x0203, true, false),
  (0x0204, true, false), (0x0205, true, false), (0x0206, true, false), (0x0207, true, true), (0x0208, true, false),
  (0x0300, true, true), (0x0301, true, true), (0x0302, true, true), (0x0303, false, false), (0x0304, false, true),
  (0x0305, false, false), (0x0306, false, false), (0x0307, false, false), (0x0308, false, false),
  (0x0309, false, false), (0x030A, false, false), (0x030B, false, false), (0x030C, false, false),
  (0x030D, false, false), (0x030E, false, true),
  (0x0400, true, false), (0x0401, true, false), (0x0402, true, false), (0x0403, true, false), (0x0404, true, false),
  (0x0500, true, true), (0x0501, true, true), (0x0502, true, false)]

/-- Opcode of a slot image. -/
def mbOp (r : BitVec 2048) : Nat := fld r 0 0 16
/-- Payload length. -/
def mbLen (r : BitVec 2048) : Nat := fld r 4 0 16
/-- Header `partition`. -/
def mbPartition (r : BitVec 2048) : Nat := fld r 6 0 5

/-- Commands whose header names a target partition (R310, R319): QUERY, the parameter commands, the resets of a partition's
parts, and group 0x03. -/
def mbNamesPart (op : Nat) : Bool := decide (1 ≤ op ∧ op ≤ 3) || decide (0x200 ≤ op ∧ op ≤ 0x202) || decide (op / 256 = 3)

/-- R408: opcodes that the management mailbox admits. -/
def mbManagement (op : Nat) : Bool := decide (1 ≤ op ∧ op ≤ 4) || decide (0x100 ≤ op ∧ op ≤ 0x104)

/-- R313 step 1. -/
def mbOpcodeOk (m op : Nat) : Bool :=
  match mbTable.find? fun e => e.1 == op with
  | none => false
  | some e => if m = 33 then mbManagement op else m == 0 || !e.2.1

/-- Whether a parameter has module scope. -/
def paramModule (n : Nat) : Bool := ((paramSpec? n).map fun p => !p.partScope).getD false

/-- R313 step 2, R315, R351: the status that refuses an opcode in the module's state. -/
def State.mbAdmit (s : State) (r : BitVec 2048) : Option Nat :=
  let op := mbOp r
  let g := op / 256
  match s.life.state with
  | .holding =>
    if op = 1 ∨ op = 2 ∨ op = 4 ∨ (op = 3 ∧ paramModule (fld r 16 0 16)) ∨ g = 1 ∨ op = 0x203 ∨ op = 0x205 ∨ op = 0x206 ∨
        g = 4 ∨ g = 5 then none
    else some mbNoResource
  | .recovery => if op = 1 ∨ op = 0x203 ∨ g = 5 then none else some mbNoResource
  | .outOfService =>
    if op = 1 ∨ (g = 1 ∧ op ≠ 0x105) ∨ g = 5 ∨ op = 0x208 then none else some mbOutOfService
  | .ready => none
  | _ => some mbNoResource

/-- R313 step 3: the lengths an opcode allows. A DIRECTORY_WRITE of one entry may carry `src` up to byte 47; list lengths follow
`count` (log entry 27). -/
def mbLengthOk (r : BitVec 2048) : Bool :=
  let n := mbLen r
  let per (k base unit lo hi : Nat) : Bool :=
    if lo ≤ k ∧ k ≤ hi then n == base + unit * k
    else decide (n ≥ base + unit * lo ∧ n ≤ base + unit * hi ∧ (n - base) % unit = 0)
  let op := mbOp r
  if op = 2 ∨ op = 0x100 ∨ op = 0x305 then n == 8
  else if op = 3 ∨ op = 0x106 then n == 16
  else if (0x101 ≤ op ∧ op ≤ 0x104) ∨ op = 0x108 ∨ op = 0x200 ∨ op = 0x201 ∨ (0x204 ≤ op ∧ op ≤ 0x207) ∨ op = 0x304 ∨
      (0x30A ≤ op ∧ op ≤ 0x30E) ∨ op = 0x400 ∨ op = 0x403 ∨ op = 0x404 ∨ op = 0x501 then n == 4
  else if op = 0x300 ∨ op = 0x301 then n == 112
  else if op = 0x303 then n == 28
  else if op = 0x306 then (n == 32 && fld r 18 0 8 == 1) || per (fld r 18 0 8) 8 16 1 13
  else if op = 0x307 then n == 72
  else if op = 0x308 then per (fld r 20 0 8) 8 4 1 54
  else if op = 0x309 ∨ op = 0x500 then n == 24
  else if op = 0x401 then per (fld r 18 0 8) 4 4 1 59
  else if op = 0x402 then n == 20
  else n == 0

/-- One field check of a slot: the offset and status it reports, and whether the slot fails it. -/
structure MbChk where
  off : Nat
  st : Nat
  bad : Bool
  deriving DecidableEq, Repr

/-- Reserved bits lo to lo + n - 1 from byte off. -/
def rv (r : BitVec 2048) (off lo n : Nat) : MbChk := ⟨off, mbBadField, fld r off lo n != 0⟩
/-- Reserved bytes a to b. -/
def rvb (r : BitVec 2048) (a b : Nat) : List MbChk := (List.range (b + 1 - a)).map fun i => rv r (a + i) 0 8
/-- A value outside its range. -/
def oor (off : Nat) (bad : Bool) : MbChk := ⟨off, mbOutOfRange, bad⟩
/-- A code not used. -/
def bf (off : Nat) (bad : Bool) : MbChk := ⟨off, mbBadField, bad⟩

/-- Whether a 32-bit value is a unit ID of Tables 0-6 to 0-8. -/
def unitValid (u : Word) : Bool :=
  let k := uKind u
  let i := uIndex u
  let w := uSub u == 0x3FF
  let phases (top : Nat) : Bool := decide (k = 14) && decide (i ≤ 8) && decide (uSub u ≤ top)
  match uDieKind u with
  | 0 =>
    decide (uDie u < 8) &&
    (if uSite u = 31 then uHalf u == 0 && k == 0 && i == 0 && w
     else if k = 13 then uHalf u == 0 && uSite u == 0 && i == 0 && w
     else if k = 14 then uHalf u == 0 && uSite u == 0 && phases 12
     else if k = 15 then uHalf u == 0 && uSite u == 0 &&
       ((i == 0 && decide (uSub u ≤ 5)) || (decide (1 ≤ i ∧ i ≤ 3) && decide (uSub u ≤ 3)) ||
        (i == 6 && decide (uSub u ≤ 1)))
     else decide (uSite u < 20) &&
       ((k == 0 && i == 0 && w) || (k == 1 && decide (i ≤ 3) && w) || (k == 2 && decide (i ≤ 1) && w) ||
        (k == 3 && (decide (i ≤ 1) || i == 15) && w) || (k == 4 && decide (i ≤ 5) && w) ||
        (k == 5 && i == 0 && (decide (uSub u ≤ 191) || w)) || (k == 5 && i == 1 && w) || (k == 6 && i == 0 && w) ||
        (k == 7 && decide (i ≤ 3) && w)))
  | 1 =>
    decide (uDie u < 16) && uHalf u == 0 && uSite u == 0 &&
    ((k == 0 && i == 0 && w) || (k == 8 && decide (i ≤ 7) && uSub u == uDie u * 8 + i) ||
     (k == 9 && decide (i ≤ 3) && w) || (k == 10 && i == 0 && w) || (k == 13 && i == 0 && w) || phases 5 ||
     (k == 15 && i == 6 && decide (uSub u ≤ 1)))
  | 2 =>
    decide (uDie u < 6) && uHalf u == 0 && uSite u == 0 &&
    ((k == 0 && i == 0 && w) || (k == 10 && i == 0 && w) || (k == 11 && (decide (uSub u ≤ 1) || w)) ||
     (k == 12 && i == 0 && w) || (k == 13 && i == 0 && w) || phases 3 ||
     (k == 15 && (((i == 4 || i == 5) && uSub u == 0) || (i == (if uDie u < 3 then 2 else 1) && decide (uSub u ≤ 1)))))
  | 3 =>
    decide (uDie u < 2) && uHalf u == 0 && uSite u == 0 &&
    ((k == 0 && i == 0 && w) || (k == 13 && decide (i ≤ 3) && w) || phases 2 || (k == 15 && i == (if uDie u = 0 then 2 else 1) && decide (uSub u ≤ 1)))
  | _ => false

/-- The rows of Table 4-11 in a DIRECTORY_WRITE entry k of partition p. A `length` is required of an entry that is not absent
(log entry 27). -/
def dirChecks (r : BitVec 2048) (p k : Nat) : List MbChk :=
  let b := 24 + 16 * k
  let w := fld r b 0 2
  [bf b (w == 3), rv r b 2 6, oor (b + 1) (fld r (b + 1) 0 5 != p), rv r (b + 1) 5 3,
   oor (b + 2) (w != 0 && (decide (fld r (b + 2) 0 11 < 16) || decide (fld r (b + 2) 0 11 > 1536))), rv r (b + 2) 11 5,
   bf (b + 4) (w != 1 && fld r (b + 4) 0 8 != 0)] ++ rvb r (b + 5) (b + 7) ++ [rv r (b + 8) 29 3] ++
  rvb r (b + 12) (b + 15)

/-- The layout of Table 13-3. -/
def createChecks (s : State) (r : BitVec 2048) (resize : Option Part) : List MbChk × List MbChk :=
  let x0 := fld r 20 0 6
  let y0 := fld r 21 0 3
  let w := fld r 22 0 6 + 1
  let h := fld r 23 0 3 + 1
  let dram := (List.range 8).map fun i =>
    oor (64 + 8 * i) (fld r (68 + 8 * i) 0 32 != 0 &&
      decide ((fld r (64 + 8 * i) 0 32 + fld r (68 + 8 * i) 0 32) * 2097152 > s.mem.map.size))
  let same (f : Part → Nat) (v : Nat) : Bool := ((resize.map f).getD v) != v
  ([oor 20 (same Part.x0 x0), rv r 20 6 2, oor 21 (same Part.y0 y0), rv r 21 3 5, oor 22 (same Part.w w), rv r 22 6 2,
    rv r 23 3 5, rv r 24 1 7] ++ rvb r 25 31,
   [if resize.isSome then oor 23 (decide (y0 + h > 8) || decide (w * h > 256))
    else oor 22 (decide (x0 + w > 40) || decide (y0 + h > 8) || decide (w * h > 256))] ++ dram)

/-- Table 4-12 in a RECORD_WRITE of partition p. -/
def recordChecks (r : BitVec 2048) (p : Nat) : List MbChk × List MbChk :=
  let listed := flag r 24 1
  let cnt := fld r 26 0 8 + 1
  ([rv r 24 3 13, oor 27 (fld r 27 0 5 != p), rv r 27 5 3, rv r 28 18 14] ++ rvb r 32 35 ++
     (List.range 13).map fun k => rv r (36 + 4 * k) 14 10,
   [bf 24 (!listed && fld r 28 0 18 != 0), oor 24 (!listed && decide (cnt > 13)),
    bf 24 ((List.range 13).any fun k => (listed || decide (cnt ≤ k)) && fld r (36 + 4 * k) 0 32 != 0),
    oor 26 (listed && decide (fld r 28 0 18 + cnt > 262144))])

/-- 08 R200: the highest module ID, route destination and multicast source of the fabric format. -/
def State.moduleMax (s : State) : Nat := if s.param 0x0800 = 0 then 511 else 8191

/-- R313 step 4: header and payload fields in ascending offset, then relations between fields (R448). -/
def State.mbFields (s : State) (m : Nat) (r : BitVec 2048) : List MbChk × List MbChk :=
  let op := mbOp r
  let p := mbPartition r
  let hdr := [oor 6 (if m = 0 ∨ m = 33 then !mbNamesPart op && p != 0 else p != m - 1), rv r 6 5 3, rv r 7 1 7] ++
    rvb r 8 15
  let num := fld r 16 0 16
  let body : List MbChk × List MbChk :=
    if op = 2 then ([oor 16 (paramSpec? num).isNone] ++ rvb r 18 23, [])
    else if op = 3 then
      ([oor 16 (paramSpec? num).isNone,
        ⟨16, mbBadOpcode, if m = 33 then decide (num < 0x1100 ∨ num > 0x11FF) else m != 0 && paramModule num⟩] ++
       rvb r 18 23 ++
       [oor 24 (((paramSpec? num).map fun q =>
          decide (fld r 24 0 64 < q.lo) || decide (fld r 24 0 64 > q.hi) ||
            (fld r 24 0 64 - q.lo) % q.stp != 0).getD false)], [])
    else if op = 0x100 then ([oor 20 (fld r 20 0 8 == 0 || decide (fld r 20 0 8 > 3))] ++ rvb r 21 23, [])
    else if op = 0x101 then (rvb r 18 19, [])
    else if op = 0x102 then ([oor 18 (decide (fld r 18 0 8 > 31)), rv r 19 0 8], [])
    else if op = 0x103 then
      ([oor 16 (decide (fld r 16 0 8 > 5)), rv r 17 0 8, oor 18 (decide (fld r 18 0 16 > 511)),
        oor 20 (fld r 20 0 8 == 0 || decide (fld r 20 0 8 > 3))], [])
    else if op = 0x106 then
      ([oor 16 (fld r 16 0 64 % 64 != 0), oor 24 (fld r 24 0 32 % 64 != 0),
        oor 28 (fld r 28 0 32 % 64 != 0 || fld r 28 0 32 == 0 || decide (fld r 28 0 32 > 16777216))],
       [oor 24 (decide (fld r 24 0 32 + fld r 28 0 32 > 16777216))])
    else if op = 0x108 then
      let u := BitVec.ofNat 32 (fld r 16 0 32)
      ([oor 16 (!unitValid u || (uAtoll u).isNone || decide (uKind u > 3))], [])
    else if op = 0x200 then
      let u := BitVec.ofNat 32 (fld r 16 0 32)
      ([oor 16 (!unitValid u || uKind u == 0 || decide (uKind u > 4) ||
          ((uAtoll u).map fun g => s.partOf g != some p).getD true)], [])
    else if op = 0x201 then
      ([oor 16 ((s.part? p).isSome && (s.atollAt p (fld r 16 0 8)).isNone)] ++ rvb r 17 19, [])
    else if op = 0x204 then ([oor 16 (fld r 16 0 32 == 0)], [])
    else if op = 0x205 ∨ op = 0x206 then ([oor 16 (!unitValid (BitVec.ofNat 32 (fld r 16 0 32)))], [])
    else if op = 0x207 then ([oor 16 (decide (fld r 16 0 8 > 127))] ++ rvb r 17 19, [])
    else if op = 0x300 then createChecks s r none
    else if op = 0x301 then
      match s.part? p with
      | some x => createChecks s r (some x)
      | none => ([], [])
    else if op = 0x303 then
      ([rv r 16 2 6, rv r 17 2 6, oor 18 (decide (fld r 18 0 5 < 6) || decide (fld r 18 0 5 > 16)), rv r 18 5 3] ++
       rvb r 19 23 ++
       [bf 24 (!flag r 17 0 && fld r 24 40 24 != 0), oor 24 (fld r 24 0 12 != 0), oor 32 (fld r 32 0 6 != 0)], [])
    else if op = 0x304 then ([oor 16 (decide (fld r 16 0 8 > 3))] ++ rvb r 17 19, [])
    else if op = 0x305 then
      ([oor 16 (decide (fld r 16 0 8 > 3))] ++ rvb r 17 19 ++
       [oor 20 (((s.part? p).map fun x =>
          let y := x.stream (fld r 16 0 8)
          decide ((fld r 20 0 32 + 2 ^ 32 - y.retired) % 2 ^ 32 > (y.fetched + 2 ^ 32 - y.retired) % 2 ^ 32)).getD false)],
       [])
    else if op = 0x306 then
      let n := fld r 18 0 8
      ([oor 16 (decide (fld r 16 0 16 > 16383)), oor 18 (n == 0 || decide (n > 13))] ++ rvb r 19 23 ++
       ((List.range n).map fun k => dirChecks r p k).flatten,
       [oor 16 (decide (fld r 16 0 16 + n > 16384)),
        oor 24 (n == 1 && fld r 24 0 2 == 2 && decide (fld r 32 0 29 + fld r 26 0 11 * 32 > s.catSize))])
    else if op = 0x307 then
      ([oor 16 (decide (fld r 16 0 16 > 16382))] ++ rvb r 18 23 ++ (recordChecks r p).1, (recordChecks r p).2)
    else if op = 0x308 then
      let n := fld r 20 0 8
      ([oor 16 (decide (fld r 16 0 32 > 262143)), oor 20 (n == 0 || decide (n > 54))] ++ rvb r 21 23 ++
       (List.range n).map fun k => rv r (24 + 4 * k) 14 10,
       [oor 16 (decide (fld r 16 0 32 + n > 262144))])
    else if op = 0x309 then
      ([oor 16 (decide (num > 1023) && num != 0xFFFF)] ++ rvb r 18 23 ++
       [oor 24 (fld r 24 0 7 != 0), rv r 24 40 24, oor 32 (fld r 32 0 7 != 0), rv r 32 40 24], [])
    else if op = 0x30A ∨ op = 0x30B then ([oor 16 (decide (num > 1023))] ++ rvb r 18 19, [])
    else if op = 0x30C then
      ([oor 16 (decide (num > 8191) && num != 0xFFFF), oor 18 (fld r 18 0 16 == 0 || decide (fld r 18 0 16 > 64))],
       [oor 16 (num != 0xFFFF && decide (num + fld r 18 0 16 > 8192))])
    else if op = 0x30D then
      ([oor 16 (decide (num > 8191)), oor 18 (fld r 18 0 16 == 0 || decide (fld r 18 0 16 > 64))],
       [oor 16 (decide (num + fld r 18 0 16 > 8192))])
    else if op = 0x30E then
      ([oor 16 (decide (fld r 16 0 8 > 15)), oor 17 (decide (fld r 17 0 8 > 15)), bf 18 (flag r 18 1 && m != 0),
        rv r 18 2 6, rv r 19 0 8], [])
    else if op = 0x400 then
      ([oor 16 (s.param 0x0800 == 0 && decide (fld r 16 0 13 > 511)), rv r 16 13 3] ++ rvb r 18 19, [])
    else if op = 0x401 then
      let n := fld r 18 0 8
      ([oor 16 (decide (num > s.moduleMax)), oor 18 (n == 0 || decide (n > 59)), rv r 19 0 8] ++
       ((List.range n).map fun k =>
         let b := 20 + 4 * k
         [oor b (decide (fld r b 0 7 > 95)), oor (b + 1) (decide (fld r (b + 1) 0 7 > 95)),
          oor (b + 2) (decide (fld r (b + 2) 0 7 > 95)), rv r (b + 3) 2 6]).flatten,
       [oor 18 (decide (num + n > s.moduleMax + 1))])
    else if op = 0x402 then
      ([oor 16 (decide (num > 4095))] ++ rvb r 18 19 ++ [oor 32 (decide (fld r 32 0 13 > s.moduleMax)), rv r 32 15 1], [])
    else if op = 0x403 then
      ([oor 16 (decide (fld r 16 0 8 > 95)), rv r 17 0 8, rv r 18 1 3, rv r 19 0 8], [])
    else if op = 0x404 then ([oor 16 (decide (fld r 16 0 8 > 5))] ++ rvb r 17 19, [])
    else if op = 0x500 then
      ([oor 16 (fld r 16 0 64 % 64 != 0), oor 24 (fld r 24 0 32 % 64 != 0),
        oor 28 (fld r 28 0 32 % 64 != 0 || fld r 28 0 32 == 0 || decide (fld r 28 0 32 > 4194304)), rv r 32 2 6] ++
       rvb r 33 39, [oor 24 (decide (fld r 24 0 32 + fld r 28 0 32 > 33554432))])
    else if op = 0x501 then ([rv r 16 2 6] ++ rvb r 17 19, [])
    else ([], [])
  (hdr ++ body.1, body.2)

/-- R313 steps 1 to 4: the first failure's status and offset. -/
def State.mbCheck (s : State) (m : Nat) (r : BitVec 2048) : Option (Nat × Nat) :=
  if !mbOpcodeOk m (mbOp r) then some (mbBadOpcode, 0)
  else
    match s.mbAdmit r with
    | some st => some (st, 0xFFFF)
    | none =>
      if !mbLengthOk r then some (mbBadLength, 4)
      else
        let (single, rel) := s.mbFields m r
        match (single ++ rel).find? fun c => c.bad with
        | some c => some (c.st, c.off)
        | none => none

/-! ### Completions -/

/-- The 32 bytes of a completion (Table 12-6). -/
def mbCompletion (c : MbCmd) (st off : Nat) (final : Bool) (result : Nat) (data : List Byte) : BitVec 256 :=
  BitVec.ofNat 256 (pack [(0, fld c.img 2 0 16), (2, st), (4, mbOp c.img), (6, c.slot),
    (7, b2n final + 2 * b2n (!data.isEmpty)), (8, off), (10, data.length),
    (16, if st = mbDone then result % 2 ^ 128 else 0)])

/-- Put a completion in line for posting (R311), unless a PERST# discards it (R302). -/
def State.mbFin (s : State) (m : Nat) (c : MbCmd) (st off : Nat) (final frees : Bool) (result : Nat) (data : List Byte) :
    State :=
  if c.discard then s
  else s.modMbox m fun b => { b with fin := b.fin ++
    [{ slot := c.slot, compl := mbCompletion c st off final result data, irq := flag c.img 7 0, frees := frees,
       data := data }] }

/-- The final completion of a command: it leaves its executor. -/
def State.mbEnd (s : State) (m : Nat) (c : MbCmd) (st : Nat) (off : Nat := 0xFFFF) (result : Nat := 0)
    (data : List Byte := []) : State :=
  (s.modMbox m fun b => { b with started := b.started.filter (·.order != c.order),
                                 running := b.running.filter (·.order != c.order) }).mbFin m c st off true (!c.accepted)
    result data

/-- R312: accept a long command and go on, or refuse it with BUSY at the limit of 8. -/
def State.mbLong (s : State) (m : Nat) (c : MbCmd) (go : State → MbCmd → State) : State :=
  if ((s.mbox m).running.filter fun x => x.accepted).length ≥ 8 then s.mbEnd m c mbBusy
  else
    let c' := { c with accepted := true }
    go ((s.modMbox m fun b => { b with started := b.started.filter (·.order != c.order),
                                       running := b.running ++ [c'] }).mbFin m c mbAccepted 0xFFFF false true 0 []) c'

/-! ### Executors, targets and order -/

/-- Commands that hold an executor, of mailboxes lo to hi. -/
def State.mbBusyCount (s : State) (lo hi : Nat) : Nat :=
  (List.range (hi + 1 - lo)).foldl (fun n i => n + (s.mbox (lo + i)).started.length + (s.mbox (lo + i)).running.length) 0

/-- R314, R409: whether an executor is free for a command of mailbox m. Admin commands take the four admin executors first; a
management command has those four alone (log entry 28). -/
def State.mbExecutorFree (s : State) (m : Nat) : Bool :=
  let adm := s.mbBusyCount 0 0 + s.mbBusyCount 33 33
  let common := s.mbBusyCount 1 32 + (adm - 4)
  if m = 33 then decide (adm < 4) else if m = 0 then decide (adm < 4) || decide (common < 60) else decide (common < 60)

/-- Whether a BANK_POWER is for an unowned bank. -/
def mbUnowned (r : BitVec 2048) : Bool := mbOp r == 0x30E && flag r 18 1

/-- The partition a command acts on (R316). -/
def mbActsOn (m : Nat) (r : BitVec 2048) : Option Nat :=
  let op := mbOp r
  if op = 1 ∨ mbUnowned r then none
  else if op = 2 ∨ op = 3 then
    if paramModule (fld r 16 0 16) then (if 1 ≤ m ∧ m ≤ 32 then some (m - 1) else none) else some (mbPartition r)
  else if mbNamesPart op then some (mbPartition r)
  else if 1 ≤ m ∧ m ≤ 32 then some (m - 1)
  else none

/-- The common targets of a command (R316): partition p is p, parameter n is 0x10000 + n, link l is 0x20000 + l, then the route
table, the multicast table, the fence map and the dump buffer. -/
def mbTargets (m : Nat) (r : BitVec 2048) : List Nat :=
  let op := mbOp r
  (mbActsOn m r).toList ++
  (if op = 2 ∨ op = 3 then [0x10000 + fld r 16 0 16]
   else if op = 0x401 then [0x30000]
   else if op = 0x402 then [0x30001]
   else if op = 0x403 then [0x20000 + fld r 16 0 8]
   else if op = 0x101 ∨ op = 0x205 ∨ op = 0x206 then [0x30002]
   else if 0x105 ≤ op ∧ op ≤ 0x107 then [0x30003]
   else [])

/-- Every command that has started and not completed, with its mailbox. -/
def State.mbAll (s : State) : List (Nat × MbCmd) :=
  (s.mailboxes.map fun e => (e.2.started ++ e.2.running).map fun c => (e.1, c)).flatten

/-- R316: a command takes effect once no earlier command shares a target with it. -/
def State.mbTurn (s : State) (m : Nat) (c : MbCmd) : Bool :=
  s.mbAll.all fun e => !(decide (e.2.order < c.order) && (mbTargets e.1 e.2.img).any fun t => (mbTargets m c.img).contains t)

/-- Commands on partition p that have started and not completed. -/
def State.mbOnPart (s : State) (p : Nat) : List (Nat × MbCmd) := s.mbAll.filter fun e => mbActsOn e.1 e.2.img == some p

/-- R280, R293, R316: whether partition p is in reset, or a command or a job abort that resets it has started. -/
def State.partResetting (s : State) (p : Nat) : Bool :=
  ((s.part? p).map Part.inReset).getD false || s.flt.abortPending.contains p ||
    (s.mbOnPart p).any fun e => mbOp e.2.img == 0x202 || mbOp e.2.img == 0x302

/-- R313: a submitted command: checks 1 to 4, the reset of its partition, and an executor; then it waits for its row. -/
def State.mbStart (s : State) (m slot : Nat) (r : BitVec 2048) : State :=
  let c : MbCmd :=
    { slot := slot, img := r, order := s.cmdOrder, accepted := false, discard := false, word := s.count.toNat }
  let s1 := { s with cmdOrder := s.cmdOrder + 1 }
  match s.mbCheck m r with
  | some (st, off) => s1.mbFin m c st off true true 0 []
  | none =>
    if ((mbActsOn m r).map s.partResetting).getD false then s1.mbFin m c mbInReset 0xFFFF true true 0 []
    else if !s.mbExecutorFree m then s1.mbFin m c mbBusy 0xFFFF true true 0 []
    else s1.modMbox m fun b => { b with started := b.started ++ [c] }

/-- The first started command of mailbox m that meets a test and whose turn it is. -/
def State.mbNext (s : State) (m : Nat) (f : MbCmd → Bool) : Option MbCmd :=
  if !s.hubServes then none else (s.mbox m).started.find? fun c => f c && s.mbTurn m c

/-- An accepted long command of mailbox m. -/
def State.mbRunning (s : State) (m : Nat) (f : MbCmd → Bool) : Option MbCmd :=
  if !s.hubServes then none else (s.mbox m).running.find? f

/-- Run a mailbox command's row: the first started command with this opcode. -/
def State.mbRow (s : State) (m op : Nat) (go : MbCmd → State) : Host.Outcome State Fault Refusal :=
  .next (match s.mbNext m fun c => mbOp c.img == op with
    | none => s
    | some c => go c)

/-- Whether mailbox m is that of a partition that does not exist (R315). -/
def State.mbAbsent (s : State) (m : Nat) : Bool := decide (1 ≤ m ∧ m ≤ 32) && (s.part? (m - 1)).isNone

/-- The same for a command on both kinds of mailbox other than QUERY that names no partition: on the mailbox of an absent one it
gives NO_RESOURCE (R315). -/
def State.mbHomeRow (s : State) (m op : Nat) (go : MbCmd → State) : Host.Outcome State Fault Refusal :=
  s.mbRow m op fun c => if s.mbAbsent m then s.mbEnd m c mbNoResource else go c

/-- The same for a command on a partition: an absent one gives NO_RESOURCE (R315). -/
def State.mbPartRow (s : State) (m op : Nat) (go : MbCmd → Nat → Part → State) : Host.Outcome State Fault Refusal :=
  s.mbRow m op fun c =>
    match s.part? (mbPartition c.img) with
    | none => s.mbEnd m c mbNoResource
    | some x => go c (mbPartition c.img) x

/-! ### The rows of the doorbell, the heads and the rings -/

/-- MB_DOORBELL (R309): free slots named start in ascending order. Ignored in bring-up, module reset and, on a partition
mailbox, in recovery holding. -/
def execMbDoorbell (m : Fin 33) (slots : BitVec 8) (s : State) : Host.Outcome State Fault Refusal :=
  .next (if !s.hubServes || s.host.perst || (s.hubRecovers && m.val != 0) then s
    else (List.range 8).foldl (fun t i =>
      if slots.getLsbD i && !(t.mbox m).busy.getLsbD i then
        let r := Tbl.getD (t.mbox m).slots i 0
        (t.modMbox m fun b => { b with busy := b.busy ||| BitVec.ofNat 8 (2 ^ i) }).mbStart m i r
      else t) s)

/-- Whether the host reaches BAR0 as the module serves it (R302, R303, R349). -/
def State.bar0Open (s : State) : Bool := s.hubServes && !s.host.perst

/-- A head write that stays within the unread entries moves the head; any other is ignored (R308). -/
def headMove (head tail v : Nat) : Nat := if (v + 32 - head) % 32 ≤ (tail + 32 - head) % 32 then v else head

/-- MB_CQ_HEAD (R308). -/
def execMbCqHead (m : Fin 33) (head : DWord) (s : State) : Host.Outcome State Fault Refusal :=
  .next (if s.bar0Open then s.modMbox m fun b => { b with cqHead := headMove b.cqHead b.cqTail (head.toNat % 32) } else s)

/-- MB_EQ_HEAD (R308). -/
def execMbEqHead (m : Fin 33) (head : DWord) (s : State) : Host.Outcome State Fault Refusal :=
  .next (if s.bar0Open then s.modMbox m fun b => { b with eqHead := headMove b.eqHead b.eqTail (head.toNat % 32) } else s)

/-- Response data in a slot image from byte 16. -/
def slotData (r : BitVec 2048) (data : List Byte) : BitVec 2048 :=
  if data.isEmpty then r
  else BitVec.ofNat 2048 (setBits r.toNat 128 (8 * data.length) (leNat data))

/-- COMPLETION_POST (R311, R318): the oldest finished command's completion, once the ring has room; over MCTP it is the response
of R408. The second count of a CORRELATE is latched here (17 R413). -/
def execCompletionPost (m : Fin 34) (s : State) : Host.Outcome State Fault Refusal :=
  .next (if !s.hubServes then s
    else
      match (s.mbox m).fin with
      | [] => s
      | f :: rest =>
        let b := s.mbox m
        let stamp := if fld f.compl 4 0 16 = 4 ∧ fld f.compl 2 0 16 = mbDone then
            BitVec.ofNat 256 (setBits f.compl.toNat (8 * 24) 64 s.count.toNat) else f.compl
        if m.val = 33 then
          (s.modMbox m fun b => { b with fin := rest }).modMgmt fun g =>
            { g with out := g.out ++ [.mctp 0x7E (leBytes 32 stamp.toNat ++ f.data)] }
        else if (b.cqTail + 1) % 32 = b.cqHead then s
        else
          let s1 := s.modMbox m fun b => { b with
            fin := rest, cq := Tbl.set b.cq b.cqTail stamp, cqTail := (b.cqTail + 1) % 32,
            slots := if f.data.isEmpty then b.slots
              else Tbl.set b.slots f.slot (slotData (Tbl.getD b.slots f.slot 0) f.data),
            busy := if f.frees then b.busy &&& ~~~(BitVec.ofNat 8 (2 ^ f.slot)) else b.busy }
          if f.irq && !b.irqMask.getLsbD 0 then s1.msix (2 * m.val) else s1)

/-- EVENT_POST (R317): the oldest event that the hub has to post. -/
def execEventPost (s : State) : Host.Outcome State Fault Refusal :=
  .next (if !s.hubRuns then s
    else
      match s.events with
      | [] => s
      | e :: rest => ({ s with events := rest } : State).deliverEvent e)

end Sys2Proof.Machine
end

