-- ==== Sys2Proof/Config.lean ====
section
/-! DEFINITION. What the manual leaves open: functions and values that nothing in the model constrains (log entries 7 and
12). None has a body, so no proof can learn a value of one. -/

namespace Sys2Proof.Config

/-- 03 Table 3-14: RECIP of an FP32 operand, from fixed tables the manual does not print. -/
opaque recip : BitVec 32 → BitVec 32
/-- RSQRT. -/
opaque rsqrt : BitVec 32 → BitVec 32
/-- EXP. -/
opaque exp : BitVec 32 → BitVec 32
/-- LOG. -/
opaque log : BitVec 32 → BitVec 32
/-- SIGMOID. -/
opaque sigmoid : BitVec 32 → BitVec 32
/-- TANH. -/
opaque tanh : BitVec 32 → BitVec 32
/-- GELU, tanh form. -/
opaque gelu : BitVec 32 → BitVec 32
/-- SILU. -/
opaque silu : BitVec 32 → BitVec 32
/-- Scale byte of an MX block a vector source reads: the descriptor names no place for it (free counter, source, block). -/
opaque vecScale : Nat → Nat → Nat → BitVec 8
/-- A byte that a COPY with overlapping source and destination writes: no order is given between its bytes (06 R160). By free
counter and destination address. -/
opaque copyByte : Nat → Nat → BitVec 8
/-- Element index of the line or chunk whose residue check failed (Table 10-11): no command carries it. -/
opaque failedElement : Nat → Nat
/-- A value the manual does not state: by free counter and place of use (log entry 7 lists the places). -/
opaque unstated : Nat → Nat → BitVec 64
/-- Frequency of OSC0 relative to OSC1 over the last second, parts per billion (17 Table 17-4), by free counter. -/
opaque ppb : Nat → BitVec 32

/-- 16 R392: whether the signature field of an image verifies over the bytes before it with the key of its index. -/
opaque signatureOk : List (BitVec 8) → List (BitVec 8) → Bool
/-- R392: whether the public key that an image carries hashes to the fused value of its key index. -/
opaque keyHashOk : Nat → List (BitVec 8) → Bool
/-- R387, R403: the certificate chain of a hub. -/
opaque certChain : Nat → List (BitVec 8)

end Sys2Proof.Config
end

