-- ==== Sys2Proof/Machine/Approx.lean ====
section
/-! DEFINITION. The vector table functions (03 Table 3-14): the manual bounds their error in units in the last place and leaves
the bits open. A result is the free value of Config wherever that lies within the bound, and the nearest FP32 value where it
does not; the exact function is taken from series in 256-bit fixed point (log entry 15). -/

namespace Sys2Proof.Machine

/-- Fraction bits of the fixed point. -/
def apxBits : Nat := 256

/-- ln 2 in fixed point. -/
def apxLn2 : Int := 0xb17217f7d1cf79abc9e3b39803f2f6af40f343267298b62d8a0d175b8baafa2b
/-- sqrt(2 / pi) in fixed point, for the tanh form of GELU. -/
def apxGeluK : Int := 0xcc42299ea1b284687e59e2805d5c717fa7053e60a24e0db1808e369004c73a5d
/-- 0.044715 in fixed point. -/
def apxGeluC : Int := 0xb727136a400fba8826aa8eb463497b7414a4d2b2bfdb4cc25072085b18548a9

/-- A value in fixed point, kept within 4096 of zero. -/
def apxFix (a : Exact) : Int :=
  max (-4096 * 2 ^ apxBits) (min (4096 * 2 ^ apxBits) (Exact.floorTo a (-(apxBits : Int))))

/-- e^x of a fixed-point x. -/
def apxExp (x : Int) : Exact :=
  let k := x / apxLn2
  let r := x - k * apxLn2
  let one : Int := 2 ^ apxBits
  let s := (List.range 64).foldl (fun acc i => one + r * acc / (((64 - i : Nat) : Int) * one)) one
  (s, k - apxBits)

/-- ln of a positive magnitude m x 2^e. -/
def apxLog (m : Nat) (e : Int) : Exact :=
  let one : Int := 2 ^ apxBits
  let l := Nat.log2 m
  let z : Int := (m * 2 ^ apxBits / 2 ^ l : Nat)
  let t := (z - one) * one / (z + one)
  let t2 := t * t / one
  let acc := (List.range 90).foldl (fun acc i => one / ((2 * (89 - i : Nat) + 1 : Nat) : Int) + t2 * acc / one) 0
  (2 * t * acc / one + (l + e) * apxLn2, -(apxBits : Int))

/-- a / b of exact numbers with b > 0, to apxBits + 64 significant bits. -/
def apxDiv (a b : Exact) : Exact :=
  let k := apxBits + 64 + Nat.log2 b.1.natAbs
  (a.1 * 2 ^ k / b.1, a.2 - b.2 - k)

/-- 1 / (1 + e^-x) of a fixed-point x. -/
def apxSigmoid (x : Int) : Exact :=
  let d := apxExp (-(x.natAbs : Int))
  let den := Exact.add (1, 0) d
  if x ≥ 0 then apxDiv (1, 0) den else apxDiv d den

/-- tanh of a fixed-point x. -/
def apxTanh (x : Int) : Exact :=
  let d := apxExp (-(2 * x.natAbs : Int))
  let q := apxDiv (Exact.add (1, 0) (-d.1, d.2)) (Exact.add (1, 0) d)
  if x ≥ 0 then q else (-q.1, q.2)

/-- x times the sigmoid of s. -/
def apxGate (x : Exact) (s : Int) : Exact :=
  let g := apxSigmoid s
  (x.1 * g.1, x.2 + g.2)

/-- The argument 2 u of the tanh form of GELU, u = sqrt(2/pi) (x + 0.044715 x^3), since 0.5 (1 + tanh u) = sigmoid(2 u). -/
def apxGeluArg (x : Exact) : Int :=
  let c : Exact := (x.1 * x.1 * x.1 * apxGeluC, 3 * x.2 - apxBits)
  let y := Exact.add x c
  apxFix (2 * y.1 * apxGeluK, y.2 - apxBits)

/-- The free FP32 value where it lies within n units in the last place of the function's value y, else y rounded to nearest. -/
def ulpBounded (n : Nat) (free : BitVec 32) (y : Exact) : Val :=
  let near : Val := Fmt.dec .fp32 (Fmt.enc .fp32 .rne (Val.ofInt y.1 y.2))
  let u : Int := if y.1 = 0 then -149 else max (log2Val y.1.natAbs y.2 - 23) (-149)
  match Fmt.dec .fp32 free.toNat with
  | .fin k m e =>
    let f := Val.exact (.fin k m e)
    let d := Exact.add f (-y.1, y.2)
    let off := Exact.add (d.1.natAbs, d.2) (-(n : Int), u)
    if off.1 ≤ 0 then .fin k m e else near
  | _ => near

end Sys2Proof.Machine
end

