-- ==== Sys2Proof/Machine/TileOps.lean ====
section
/-! DEFINITION. Matrix engines: issue, the checks and the array phase of a tile op, its outputs and its completion
(02 R26-R39, R45-R47; 03 R59, R66-R71; 10 R261, R262). -/

namespace Sys2Proof.Machine

/-- Fields of a tile-op descriptor (Table 3-12). -/
structure TileDesc where
  aAddr : Nat
  bAddr : Nat
  cAddr : Nat
  auxAddr : Nat
  aScale : Nat
  bScale : Nat
  cScale : Nat
  aStride : Nat
  bStride : Nat
  cStride : Nat
  auxStride : Nat
  m : Nat
  n : Nat
  k : Nat
  fa : Fmt
  fb : Fmt
  fc : Fmt
  apexSrc : Nat
  stoch : Bool
  colDir : Bool
  notify : Bool
  tensor : Word
  seedIndex : DWord
  rowLength : Nat
  syncObj : Nat
  ticket : Nat

/-- Decode of the descriptor's fields. -/
def tileDesc (d : BitVec 512) : TileDesc :=
  let f (o : Nat) : Fmt := (Fmt.ofCode (fld d o 0 5)).getD .raw
  { aAddr := fld d 0 0 32, bAddr := fld d 4 0 32, cAddr := fld d 8 0 32, auxAddr := fld d 12 0 32,
    aScale := fld d 16 0 32, bScale := fld d 20 0 32, cScale := fld d 24 0 32, aStride := fld d 28 0 16,
    bStride := fld d 30 0 16, cStride := fld d 32 0 16, auxStride := fld d 34 0 16, m := fld d 36 0 7 + 1,
    n := fld d 37 0 7 + 1, k := fld d 38 0 11 + 1, fa := f 40, fb := f 41, fc := f 42, apexSrc := fld d 43 0 2,
    stoch := flag d 43 2, colDir := flag d 43 3, notify := flag d 43 4, tensor := BitVec.ofNat 32 (fld d 44 0 32),
    seedIndex := BitVec.ofNat 64 (fld d 48 0 64), rowLength := fld d 56 0 32, syncObj := fld d 60 0 6,
    ticket := fld d 62 0 16 }

/-- Array cycles per K-block and 32 x 32 tile of the slower operand (R47, R66). -/
def Fmt.arrayCost (f : Fmt) : Nat := if f.bits = 4 then 16 else if f.bits = 16 then 64 else 32

/-- Array cycles of a tile op; an apex-only op counts one per K-block and output tile (R66). -/
def TileDesc.cycles (t : TileDesc) : Nat :=
  let tiles := (t.m + 31) / 32 * ((t.n + 31) / 32) * t.k
  if t.apexSrc = 2 then tiles else tiles * max t.fa.arrayCost t.fb.arrayCost

/-- An operand format a matrix engine refuses (R66). -/
def badOperandFmt (c : Nat) : Bool := c == 0 || c == 1 || c ≥ 0x10

/-- Whether the aux field names an apex tile (Table 3-12). -/
def TileDesc.usesAux (t : TileDesc) : Bool := t.apexSrc == 1 || t.apexSrc == 2 || t.fc == .grid192

/-- A stride that does not cover whole blocks (R67). -/
def badStride (f : Fmt) (st : Nat) : Bool :=
  if f.bits = 6 then st % 4 != 0 else st * 32 % f.blockBytes != 0

/-- Single-field checks in ascending offset, then relations between fields (R66-R68, R71, 00 R448). -/
def tileChecks (d : BitVec 512) : List Chk :=
  let t := tileDesc d
  let fail (off : Nat) (b : Bool) : Chk := Chk.test off false fun _ => b
  [ Chk.align 0 32 32, Chk.align 4 32 32, Chk.align 8 32 32,
    fail 28 (t.aStride == 0), fail 30 (t.bStride == 0),
    Chk.rsv 36 7 1, Chk.rsv 37 7 1, Chk.rsv 38 11 5,
    fail 40 (badOperandFmt (fld d 40 0 5)), Chk.rsv 40 5 3, fail 41 (badOperandFmt (fld d 41 0 5)), Chk.rsv 41 5 3,
    fail 42 (fld d 42 0 5 == 0 || fld d 42 0 5 > 0x11), Chk.rsv 42 5 3,
    fail 43 (t.apexSrc == 3), Chk.rsv 43 5 3, Chk.rsv 60 6 10,
    fail 0 (t.fa.bits == 6 && t.aAddr % 128 != 0), fail 4 (t.fb.bits == 6 && t.bAddr % 128 != 0),
    fail 12 (t.usesAux && t.auxAddr % 32 != 0),
    fail 28 (badStride t.fa t.aStride), fail 30 (badStride t.fb t.bStride),
    fail 36 (decide (t.cycles > 1536)), fail 36 (decide (t.m * t.n * t.fc.bits > 65536 * 8)) ]

/-- Byte offset of element j of a row: 6-bit blocks lie five to a 128-byte line (Table 3-6). -/
def rowBit (f : Fmt) (j : Nat) : Nat := if f.bits = 6 then j / 160 * 1024 + j % 160 * 6 else j * f.bits

/-- Bytes a row of n elements covers. -/
def rowBytes (f : Fmt) (n : Nat) : Nat := if n = 0 then 0 else (rowBit f (n - 1) + f.bits + 7) / 8

/-- Blocks that a stride holds, S of R67. -/
def strideBlocks (f : Fmt) (st : Nat) : Nat := if f.bits = 6 then st * 5 / 4 else st * 8 / f.bits

/-- Address ranges the op reads and writes, in the order of the descriptor's fields. -/
def TileDesc.ranges (t : TileDesc) : List (Nat × Nat) :=
  let rows (base st cnt len : Nat) := (List.range cnt).map fun i => (base + i * st * 32, len)
  let aux := if t.usesAux then rows t.auxAddr t.auxStride t.m (2 * t.n) else []
  let out := t.apexSrc != 2
  let cs := if t.fc.isMX && out then
      if t.colDir then [(t.cScale, t.n * ((t.m + 31) / 32))]
      else (List.range t.m).map fun i => (t.cScale + i * strideBlocks t.fc t.cStride, (t.n + 31) / 32)
    else []
  rows t.aAddr t.aStride t.m (rowBytes t.fa (32 * t.k)) ++ rows t.bAddr t.bStride t.n (rowBytes t.fb (32 * t.k))
    ++ (if out then rows t.cAddr t.cStride t.m (rowBytes t.fc t.n) else []) ++ aux
    ++ (if t.fa.isMX then (List.range t.m).map fun i => (t.aScale + i * strideBlocks t.fa t.aStride, t.k) else [])
    ++ (if t.fb.isMX then (List.range t.n).map fun i => (t.bScale + i * strideBlocks t.fb t.bStride, t.k) else [])
    ++ cs

/-- The status a tile op's address gives: the cache window is never a scratchpad (R66). -/
def State.tileAddr (s : State) (g : Nat) (addr n : Nat) : Except Nat (Nat × Nat) :=
  if laTarget (BitVec.ofNat 32 addr) = 5 then .error acBayMode else s.resolve g (BitVec.ofNat 32 addr) n

/-- The first address status that is not OK, as a completion status. -/
def State.tileAddrs (s : State) (g : Nat) (rs : List (Nat × Nat)) : Nat :=
  rs.foldl (fun st r => if st ≠ 0 then st else
    match s.tileAddr g r.1 r.2 with
    | .ok _ => 0
    | .error e => opOfAccess e) 0

/-- Bytes at a local address that the checks have passed. -/
def State.tileBytes (s : State) (g addr n : Nat) : List Byte :=
  match s.tileAddr g addr n with
  | .ok (t, off) => Mem.readBytes (s.atoll t).lagoon off n
  | .error _ => []

/-- Whether a byte run that the op reads meets a poisoned word. -/
def State.tilePoison (s : State) (g addr n : Nat) : Bool :=
  match s.tileAddr g addr n with
  | .ok (t, off) => (s.atoll t).poisoned off n
  | .error _ => false

/-- Ranges the op reads: everything but C, its scales and a written apex tile. -/
def TileDesc.reads (t : TileDesc) : List (Nat × Nat) :=
  let rows (base st cnt len : Nat) := (List.range cnt).map fun i => (base + i * st * 32, len)
  rows t.aAddr t.aStride t.m (rowBytes t.fa (32 * t.k)) ++ rows t.bAddr t.bStride t.n (rowBytes t.fb (32 * t.k))
    ++ (if t.fa.isMX then (List.range t.m).map fun i => (t.aScale + i * strideBlocks t.fa t.aStride, t.k) else [])
    ++ (if t.fb.isMX then (List.range t.n).map fun i => (t.bScale + i * strideBlocks t.fb t.bStride, t.k) else [])
    ++ (if t.apexSrc = 1 then rows t.auxAddr t.auxStride t.m (2 * t.n) else [])

/-- One operand row or column: its blocks of decoded elements under their scales, and each block's apex word or MX
bound. -/
structure OperandRow where
  blocks : List (List Val)
  bounds : List (Option Int)
  flags : Half

/-- Read a row of A or column of B (R27, R67). -/
def State.operandRow (s : State) (g : Nat) (f : Fmt) (addr scale k : Nat) : OperandRow :=
  let row := s.tileBytes g addr (rowBytes f (32 * k))
  let v := leNat row
  let raw (b : Nat) : List Val := (List.range 32).map fun i => f.dec (bits v (rowBit f (32 * b + i)) f.bits)
  let scales := s.tileBytes g scale k
  let sc (b : Nat) : Nat := ((scales[b]?).getD 0).toNat
  if f.isMX then
    { blocks := (List.range k).map fun b => (raw b).map fun x => x.scaled (sc b),
      bounds := (List.range k).map fun b => mxBound f (sc b),
      flags := (List.range k).foldl (fun a b =>
        apexCombine a (apexOf ((raw b).map fun x => x.scaled (sc b)))) (apexMk false false false none) }
  else
    { blocks := (List.range k).map raw,
      bounds := (List.range k).map fun b => apexBound (apexOf (raw b)),
      flags := (List.range k).foldl (fun a b => apexCombine a (apexOf (raw b))) (apexMk false false false none) }

/-- R26: whether an apex word of the op's non-MX operands is 0xF000, or its line carries another tag. -/
def State.needsPass (s : State) (g : Nat) (f : Fmt) (addr st cnt k : Nat) : Bool :=
  !f.isMX && (List.range cnt).any fun i => (List.range k).any fun b =>
    let a := addr + i * st * 32 + rowBit f (32 * b) / 8
    match s.tileAddr g a f.blockBytes with
    | .ok (t, off) =>
      let m := (s.atoll t).meta_ (off / 128)
      m.tag.toNat != f.code || apexSlot m.apex (off % 128 / f.blockBytes) == apexNone
    | .error _ => true

/-- R28: the reference exponent of an output element, none when no block contributes a bound. -/
def eRef (a b : OperandRow) : Option Int := maxBound (List.zipWith prodBound a.bounds b.bounds)

/-- R30-R32: the accumulator of an output element on the grid of E_ref. -/
def dotAcc (eref : Int) (a b : OperandRow) : Acc :=
  (List.zipWith (fun x y => blockAcc eref (List.zipWith Val.mul x y)) a.blocks b.blocks).foldl Acc.add Acc.zero

/-- An output element: its accumulator, E_ref (none when nothing contributed), and apex flags of its operands. -/
structure TileElem where
  acc : Acc
  eref : Option Int
  low : Bool
  flags : Half

/-- The outputs of a tile op, row by row (R28-R32). -/
def State.tileElems (s : State) (g : Nat) (t : TileDesc) : List (List TileElem) :=
  let as := (List.range t.m).map fun i => s.operandRow g t.fa (t.aAddr + i * t.aStride * 32)
    (t.aScale + i * strideBlocks t.fa t.aStride) t.k
  let bs := (List.range t.n).map fun j => s.operandRow g t.fb (t.bAddr + j * t.bStride * 32)
    (t.bScale + j * strideBlocks t.fb t.bStride) t.k
  as.zipIdx.map fun (a, i) =>
    let aux := s.tileBytes g (t.auxAddr + i * t.auxStride * 32) (2 * t.n)
    bs.zipIdx.map fun (b, j) =>
      let own := eRef a b
      let sup : Int := apexExp (BitVec.ofNat 16 (leNat ((aux.drop (2 * j)).take 2)))
      let e := if t.apexSrc = 1 then some sup else own
      { acc := if t.apexSrc = 2 then Acc.zero else dotAcc (e.getD 0) a b,
        eref := if t.apexSrc = 1 then some sup else own,
        low := t.apexSrc = 1 && (match own with
          | some x => decide (sup < x)
          | none => false),
        flags := apexCombine a.flags b.flags }

/-- Bit i of a row written as bytes: covered bytes only, full 6-bit lines closed with zeros (02 R36, Table 3-6). -/
def rowData (f : Fmt) (es : List Nat) : List Byte :=
  let v := es.zipIdx.foldl (fun a (e, j) => a + e * 2 ^ rowBit f j) 0
  let n := rowBytes f es.length
  let n := if f.bits = 6 ∧ es.length % 160 = 0 then (n + 127) / 128 * 128 else n
  leBytes n v

/-- A byte run to write: local address and bytes, with its format tag. -/
abbrev TileOut := Nat × Nat × List Byte

/-- The byte runs a finished tile op writes (R29, R33-R37). -/
def tileOutputs (t : TileDesc) (seed : DWord) (es : List (List TileElem)) : List TileOut :=
  let low := es.any fun r => r.any TileElem.low
  let apexRow (f : TileElem → Half) (i : Nat) (r : List TileElem) : TileOut :=
    (t.auxAddr + i * t.auxStride * 32, 0, (r.map fun e => leBytes 2 (f e).toNat).flatten)
  if t.apexSrc = 2 then
    es.zipIdx.map fun (r, i) => apexRow (fun e => apexMk (apexNan e.flags) (apexPinf e.flags) (apexNinf e.flags) e.eref) i r
  else
    let es := if low then es.map fun r => r.map fun e => { e with acc := { Acc.zero with nan := true } } else es
    if t.fc = .grid192 then
      (es.zipIdx.map fun (r, i) =>
        (t.cAddr + i * t.cStride * 32, 0x11, (r.map fun e => leBytes 24 e.acc.gridBits.toNat).flatten))
      ++ es.zipIdx.map fun (r, i) => apexRow (fun e => apexMk e.acc.nan e.acc.pinf e.acc.ninf e.eref) i r
    else
      let vals := es.map fun r => r.map fun e => e.acc.value (e.eref.getD 0)
      let md (i j : Nat) : Rounding := Rounding.of t.stoch seed t.tensor
        (t.seedIndex + BitVec.ofNat 64 (i * t.rowLength + j))
      let row (i : Nat) (bits : List Nat) : TileOut := (t.cAddr + i * t.cStride * 32, t.fc.code, rowData t.fc bits)
      if ¬ t.fc.isMX then
        vals.zipIdx.map fun (r, i) => row i (r.zipIdx.map fun (v, j) => t.fc.enc (md i j) v)
      else if t.colDir then
        let col (j : Nat) : List Val := vals.map fun r => r.getD j .zero
        let sc (j k : Nat) : Nat := mxScale t.fc (((col j).drop (32 * k)).take 32)
        (vals.zipIdx.map fun (r, i) => row i (r.zipIdx.map fun (v, j) => mxElem t.fc (md i j) (sc j (i / 32)) v))
        ++ [(t.cScale, 0, ((List.range t.n).map fun j =>
              (List.range ((t.m + 31) / 32)).map fun k => BitVec.ofNat 8 (sc j k)).flatten)]
      else
        let sc (r : List Val) (k : Nat) : Nat := mxScale t.fc ((r.drop (32 * k)).take 32)
        (vals.zipIdx.map fun (r, i) => row i (r.zipIdx.map fun (v, j) => mxElem t.fc (md i j) (sc r (j / 32)) v))
        ++ vals.zipIdx.map fun (r, i) => (t.cScale + i * strideBlocks t.fc t.cStride, 0,
              (List.range ((t.n + 31) / 32)).map fun k => BitVec.ofNat 8 (sc r k))

/-- A run of an odd number of INT4 or UINT4 elements leaves the last byte's high half, which holds no element of the op,
as it is. -/
def keepNibble (lag : Mem) (off : Nat) (bs : List Byte) : List Byte :=
  bs.dropLast ++ (bs.getLast?.map fun b => b + Mem.read lag (off + bs.length - 1) / 16 * 16).toList

/-- Write the runs of a finished op; `odd` says that its rows hold an odd number of elements. -/
def State.writeRuns (s : State) (g : Nat) (odd : Bool) (outs : List TileOut) : State :=
  outs.foldl (fun st (o : TileOut) =>
    match st.tileAddr g o.1 o.2.2.length with
    | .ok (t, off) =>
      let bs := if odd && (o.2.1 == 0x0E || o.2.1 == 0x0F) then keepNibble (st.atoll t).lagoon off o.2.2 else o.2.2
      st.lagoonWrite t off (BitVec.ofNat 5 o.2.1) bs
    | .error _ => st) s

/-! ### Issue and polling (03 R69, R70, Table 3-15) -/

/-- R261: the engine that takes engine e's work: e itself, else the next healthy one in the order e+1, e+2, e+3. -/
def State.engineFor (s : State) (g e : Nat) : Option Nat :=
  ([0, 1, 2, 3].map fun i => (e + i) % 4).find? fun x => !s.isFenced (engineUnit g x)

/-- The seed of the step a partition has open (02 R38). -/
def State.stepSeed (s : State) (g : Nat) : DWord := (((s.partOf g).bind s.part?).map Part.seed).getD 0

/-- Put a tile op in an engine's queue, at its sibling where it is fenced; with every engine fenced it ends ABANDONED and
the fence escalates (R262). `none` when the queue is full and the issuer waits. -/
def State.issueTile (s : State) (g e : Nat) (desc : BitVec 512) (src : OpSource) : Option State :=
  match s.engineFor g e with
  | none =>
    let t := tileDesc desc
    some ((s.deliverOp g src e (opWord 0 0 false false false opAbandoned t.ticket) t.notify t.syncObj).escalateAtoll g clsAbft 0)
  | some x =>
    if ((s.atoll g).engine x).queue.length ≥ 4 then none
    else some (s.modAtoll g fun a => a.active.modEngine x fun y =>
      { y with queue := y.queue ++ [{ desc := desc, src := src, seed := s.stepSeed g, origin := e, replayed := false, spent := 0 }] })

/-- 64 bytes of a descriptor at a core address: private SRAM or the lagoon space (R54, Table 3-15). -/
def State.coreBytes (s : State) (g c : Nat) (addr : DWord) (n : Nat) : Except Nat (List Byte) :=
  if addr.toNat + n ≤ 0x10000 then .ok (Mem.readBytes ((s.atoll g).core c).sram addr.toNat n)
  else
    match coreLocal addr with
    | none => .error acBadAddress
    | some la =>
      match s.resolve g la n with
      | .error e => .error e
      | .ok (t, off) => if (s.atoll t).poisoned off n then .error acSymbol else .ok (Mem.readBytes (s.atoll t).lagoon off n)

/-- Whether core c of atoll g retires instructions: running, not blocked, and in lockstep mode core 0 for the pair. -/
def State.coreRuns (s : State) (g c : Nat) : Bool :=
  let a := s.atoll g
  let k := a.core c
  s.unitRuns g && k.running && k.block == .none && (a.split || c == 0)

/-- TOP.ISSUE: rd is 0, or -1 for an engine not 0-3; a full queue makes the core wait (R69). -/
def execTopIssue (g : Fin 320) (core : Fin 2) (rd rs1 rs2 : Fin 32) (s : State) : Host.Outcome State Fault Refusal :=
  .next (
    if !s.coreRuns g core then s
    else
      let k := (s.atoll g).core core
      let e := (k.reg rs2).toNat
      let ret (st : State) (v : DWord) : State := st.modAtoll g fun a => a.modCore core fun x => (x.setReg rd v).advance 4
      if e > 3 then ret s (negStatus 1)
      else
        match s.coreBytes g core (k.reg rs1) 64 with
        | .error st => s.modAtoll g fun a => a.modCore core fun x => x.accessFault false (k.reg rs1) st
        | .ok bs =>
          match s.issueTile g e (BitVec.ofNat 512 (leNat bs)) (.core core) with
          | some t => ret t 0
          | none => s)

/-- TOP.POLL: the core's next completion word of an engine, or 0 when none; an engine not 0-3 has none (Table 3-15). -/
def execTopPoll (g : Fin 320) (core : Fin 2) (rd rs1 : Fin 32) (s : State) : Host.Outcome State Fault Refusal :=
  .next (
    if !s.coreRuns g core then s
    else
      let k := (s.atoll g).core core
      let e := (k.reg rs1).toNat
      let q := Tbl.getD k.topDone e []
      s.modAtoll g fun a => a.modCore core fun x =>
        ({ x with topDone := Tbl.set x.topDone e (q.drop 1) }.setReg rd (q.headD 0)).advance 4)

/-- TESS.EPOCH: bits [46:32], [29:16] and [3:0] of TESS_STATE (R112, Table 4-16). -/
def Atoll.tessWord (a : Atoll) : DWord :=
  BitVec.ofNat 64 (b2n a.descValid * 2 ^ 46 + (if a.descValid then a.descriptor.toNat else 0) * 2 ^ 32
    + a.record.toNat * 2 ^ 16 + a.epoch.toNat)

/-- TESS.EPOCH (R112). -/
def execTessEpoch (g : Fin 320) (core : Fin 2) (rd : Fin 32) (s : State) : Host.Outcome State Fault Refusal :=
  .next (
    if !s.coreRuns g core then s
    else s.modAtoll g fun a => a.modCore core fun x => (x.setReg rd a.tessWord).advance 4)

/-! ### Start and completion -/

/-- The checks of a tile op, and its operands' poison: a status, a refused offset, the apex pass and array cycles; the
pass takes at most as many cycles as the array phase (R26), a free number. -/
def State.tileStart (s : State) (g : Nat) (op : TileOp) (bad : Option Word) : State × TileRun :=
  let t := tileDesc op.desc
  match firstBad op.desc.toNat (tileChecks op.desc) with
  | some c => (s, { op := op, status := opBadDesc, offset := c.off, apexPass := false, cycles := 0 })
  | none =>
    let st := s.tileAddrs g t.ranges
    if st ≠ 0 then (s, { op := op, status := st, offset := 0, apexPass := false, cycles := 0 })
    else if t.reads.any fun r => s.tilePoison g r.1 r.2 then
      (s, { op := op, status := opSymbol, offset := 0, apexPass := false, cycles := 0 })
    else
      match bad with
      | some a =>
        let s' := match s.tileAddr g a.toNat 1 with
          | .ok (tg, off) => s.lagoonDecode tg off (.uncorrectable 2) 0 (1, 0)
          | .error _ => s
        (s', { op := op, status := opSymbol, offset := 0, apexPass := false, cycles := 0 })
      | none =>
        let pass := s.needsPass g t.fa t.aAddr t.aStride t.m t.k || s.needsPass g t.fb t.bAddr t.bStride t.n t.k
        (if pass then s.freshen else s,
         { op := op, status := stOk, offset := 0, apexPass := pass,
           cycles := if pass then t.cycles + 1 + (Config.unstated s.freeCtr 6).toNat % t.cycles else t.cycles })

/-- TILE_OP_START (R66): an idle healthy engine takes the op at the head of its queue, checks it and holds its operands.
`bad` names an operand address whose word the read finds newly uncorrectable. -/
def execTileOpStart (g : Fin 320) (e : Fin 4) (bad : Option Word) (s : State) : Host.Outcome State Fault Refusal :=
  .next (
    let x := (s.atoll g).engine e
    match x.queue with
    | [] => s
    | op :: rest =>
      if x.cur.isSome ∨ ¬ s.unitRuns g ∨ s.isFenced (engineUnit g e) then s
      else
        let (s1, r) := s.tileStart g op bad
        s1.modAtoll g fun a => a.modEngine e fun y => { y with queue := rest, cur := some r })

/-- R261: engine e is fenced; its failed op replays from its held operands and its queue follows on the next healthy
sibling; with none left the ops end ABANDONED and the fence escalates (R262). `used` is the cycles of the run that failed. -/
def State.fenceEngine (s : State) (g e : Nat) (cls : Half) (seq : Word) (used : Nat) : State :=
  let x := (s.atoll g).engine e
  let ops := (match x.cur with
    | some r => [{ r.op with replayed := true, spent := r.op.spent + used }]
    | none => []) ++ x.queue
  let s1 := (s.fenceUnit (engineUnit g e) cls seq).modAtoll g fun a => a.modEngine e fun y => { y with queue := [], cur := none }
  match s1.engineFor g e with
  | some y => (s1.modAtoll g fun a => a.modEngine y fun z => { z with queue := z.queue ++ ops }).wantMigration g
  | none =>
    let s2 := ops.foldl (fun st op =>
      let t := tileDesc op.desc
      st.deliverOp g op.src op.origin (opWord op.spent 0 op.replayed false false opAbandoned t.ticket) t.notify t.syncObj) s1
    (s2.releaseAround g).escalateAtoll g cls seq

/-- Whether the issuer of an op can take its completion: a core's queue of 8 for the engine has room (R70). -/
def Atoll.canDeliver (a : Atoll) (src : OpSource) (origin : Nat) : Bool :=
  match src with
  | .core c => decide ((Tbl.getD (a.core c).topDone origin []).length < 8)
  | _ => true

/-- The end of a tile op whose checks passed: outputs written when DONE, writes held for its operands released, and the
completion delivered (R69-R71). -/
def State.finishTile (s : State) (g e : Nat) (r : TileRun) : State :=
  let t := tileDesc r.op.desc
  let es := if r.status = stOk then s.tileElems g t else []
  let low := es.any fun row => row.any TileElem.low
  let s1 := s.modAtoll g fun a => a.modEngine e fun y => { y with cur := none }
  let s2 := if r.status = stOk then s1.writeRuns g (t.n % 2 == 1) (tileOutputs t r.op.seed es) else s1
  let w := opWord (r.op.spent + r.cycles) r.offset r.op.replayed low r.apexPass r.status t.ticket
  (s2.releaseAround g).deliverOp g r.op.src r.op.origin w t.notify t.syncObj

/-- TILE_OP_COMPLETE (R46, R70): checks that pass release the outputs; a failed check is ABFT_MISMATCH and the op replays
on a sibling. A core whose completion queue is full holds the completion. -/
def execTileOpComplete (g : Fin 320) (e : Fin 4) (chk : TileCheck) (s : State) : Host.Outcome State Fault Refusal :=
  .next (
    match ((s.atoll g).engine e).cur with
    | none => s
    | some r =>
      if ¬ s.unitRuns g then s
      else
        match chk with
        | .pass => if (s.atoll g).canDeliver r.op.src r.op.origin then s.finishTile g e r else s
        | .fail what row col =>
          let t := tileDesc r.op.desc
          let u := engineUnit g e
          let seq := s.nextSeq u
          let sib := ([1, 2, 3].map fun i => (e.val + i) % 4).find? fun x => !s.isFenced (engineUnit g x)
          let s1 := s.raise
            { unit := u, cls := clsAbft, opKind := 1, part := s.partOf g, scope := 1,
              actions := actFenced + (if sib.isSome then actSibling + actReplaced else actRolled + actEscalated),
              detail := [(32, t.ticket), (34, sib.getD 0xFF), (35, what.val), (36, col.toNat), (38, row.toNat),
                (40, t.tensor.toNat)] }
          s1.fenceEngine g e clsAbft seq r.cycles)

/-- MATRIX_ENGINE_WATCHDOG (11 R284): a tile op 64 µs old: TIMEOUT with cause 0, the engine fenced, sibling replay. -/
def execMatrixEngineWatchdog (g : Fin 320) (e : Fin 4) (s : State) : Host.Outcome State Fault Refusal :=
  .next (
    match ((s.atoll g).engine e).cur with
    | none => s
    | some r =>
      if ¬ s.unitRuns g then s
      else
        let t := tileDesc r.op.desc
        let u := engineUnit g e
        let seq := s.nextSeq u
        (s.raise { unit := u, cls := clsTimeout, opKind := 1, part := s.partOf g, scope := 1,
                   actions := actFenced + actSibling, detail := [(32, 0), (33, t.ticket)] }).freshen.fenceEngine g e clsTimeout seq
          ((Config.unstated s.freeCtr 7).toNat % 2 ^ 32))

end Sys2Proof.Machine
end

