-- ==== Sys2Proof/Machine/BankOps.lean ====
section
/-! DEFINITION. Bank operations (03 R60, R61, Tables 3-7, 3-8): the command's checks, the operation on whole lines, and the
completion. -/

namespace Sys2Proof.Machine

/-- Fields of a bank operation command (Table 3-7). -/
structure BankCmd where
  op : Nat
  sf : Nat
  df : Nat
  notify : Bool
  dst : Nat
  src : Nat
  srcScale : Nat
  dstScale : Nat
  lines : Nat
  obj : Nat
  scale : Nat
  ticket : Nat

/-- Decode of the command's fields. -/
def bankCmd (c : BitVec 256) : BankCmd :=
  { op := fld c 0 0 8, sf := fld c 1 0 5, df := fld c 2 0 5, notify := flag c 3 0, dst := fld c 4 0 32, src := fld c 8 0 32,
    srcScale := fld c 12 0 32, dstScale := fld c 16 0 32, lines := fld c 20 0 13 + 1, obj := fld c 22 0 6,
    scale := fld c 24 0 32, ticket := fld c 28 0 16 }

/-- Destination format. -/
def BankCmd.fd (b : BankCmd) : Fmt := (Fmt.ofCode b.df).getD .raw
/-- Source format. -/
def BankCmd.fs (b : BankCmd) : Fmt := (Fmt.ofCode b.sf).getD .raw
/-- A GRID192 ADD. -/
def BankCmd.gridAdd (b : BankCmd) : Bool := b.op == 1 && b.df == 0x11

/-- Formats Table 3-8 gives each operation. -/
def BankCmd.pairOk (b : BankCmd) : Bool :=
  let flt := b.df == 1 || b.df == 2 || b.df == 3
  match b.op with
  | 1 => b.sf == b.df && (flt || b.df == 0x10 || b.df == 0x11)
  | 2 => b.sf == b.df && (flt || b.df == 0x10 || b.df == 0)
  | 3 => b.sf == b.df && (flt || b.fd.isMX)
  | 4 => decide (1 ≤ b.sf) && decide (b.sf ≤ 0x10) && decide (1 ≤ b.df) && decide (b.df ≤ 0x10)
  | 5 => decide (1 ≤ b.df) && decide (b.df ≤ 0x10)
  | _ => decide (b.df ≤ 0x11)

/-- p of an FP32 power of two 2^p (SCALE on MX formats). -/
def powerOfTwo (w : Nat) : Option Int :=
  match Fmt.dec .fp32 w with
  | .fin false m e => if m ≠ 0 ∧ 2 ^ Nat.log2 m = m then some ((Nat.log2 m : Int) + e) else none
  | _ => none

/-- Checks of a bank command: single fields in ascending offset, then the relations of R61. -/
def bankChecks (c : BitVec 256) : List Chk :=
  let b := bankCmd c
  let fail (off : Nat) (x : Bool) : Chk := Chk.test off false fun _ => x
  let same := b.op == 1 || b.op == 2 || b.op == 4
  [ fail 0 (b.op == 0 || b.op > 6), Chk.rsv 1 5 3, Chk.rsv 2 5 3, Chk.rsv 3 1 7,
    fail 4 (b.dst % 128 != 0 || b.dst / 2 ^ 29 != 0), fail 8 (same && b.src % 128 != 0),
    fail 12 (b.gridAdd && b.srcScale % 32 != 0), fail 16 (b.gridAdd && b.dstScale % 32 != 0),
    Chk.rsv 20 13 3, fail 20 (b.gridAdd && b.lines % 3 != 0), Chk.rsv 22 6 2, Chk.rsv 23 0 8,
    fail 24 (b.op == 3 && b.fd.isMX && (powerOfTwo b.scale).isNone), Chk.rsv 30 0 16,
    fail 1 (!b.pairOk), fail 4 (decide (b.dst % 0x100000 + b.lines * 128 > 0x100000)) ]

/-- Elements the destination lines hold (R60). -/
def BankCmd.count (b : BankCmd) : Nat :=
  if b.df = 0x11 then b.lines / 3 * 16 else if b.df = 0 then b.lines * 64 else b.lines * b.fd.lineBlocks * 32

/-- Outcome of reading a byte run: it waits for cache fills, or ends with an access status. -/
inductive RunOut where
  | waits (s : State)
  | ends (s : State) (status : Nat) (data : List Byte)

/-- Read n bytes at a local address line by line: lagoon lines under Table 3-5, cache-window lines through the cache. -/
def State.runRead : Nat → State → Nat → Nat → Nat → RunOut
  | 0, s, _, _, _ => .ends s stOk []
  | k + 1, s, g, addr, n =>
    if n = 0 then .ends s stOk []
    else
      let m := min n (128 - addr % 128)
      let tail (s1 : State) (bs : List Byte) : RunOut :=
        match State.runRead k s1 g (addr + m) (n - m) with
        | .ends s2 st more => .ends s2 st (bs ++ more)
        | w => w
      if laTarget (BitVec.ofNat 32 addr) = 5 then
        match s.cacheRead g (laOffset (BitVec.ofNat 32 addr)) m with
        | .waits s1 => .waits s1
        | .ends s1 st bs => if st = stOk then tail s1 bs else .ends s1 st []
      else
        match s.resolve g (BitVec.ofNat 32 addr) m with
        | .error e => .ends s e []
        | .ok (t, off) =>
          if (s.atoll t).poisoned off m then .ends s acSymbol []
          else tail s (Mem.readBytes (s.atoll t).lagoon off m)

/-- Read a run; a run that passes the end of its target is BAD_ADDRESS (R60). -/
def State.readRun (s : State) (g addr n : Nat) : RunOut :=
  let lim := if laTarget (BitVec.ofNat 32 addr) = 5 then 0x20000000 else 0x1800000
  if laOffset (BitVec.ofNat 32 addr) + n > lim then .ends s acBadAddress []
  else State.runRead (n / 128 + 2) s g addr n

/-- The elements of a packed run (Table 3-6). -/
def unpackRun (f : Fmt) (bs : List Byte) (n : Nat) : List Nat :=
  let v := leNat bs
  (List.range n).map fun i => bits v (rowBit f i) f.bits

/-- Pack elements into `len` bytes (Table 3-6). -/
def packRun (f : Fmt) (len : Nat) (es : List Nat) : List Byte :=
  leBytes len (es.zipIdx.foldl (fun a (e, j) => a + e * 2 ^ rowBit f j) 0)

/-- Split a list into runs of n. -/
def chunks {α : Type} : Nat → Nat → List α → List (List α)
  | 0, _, _ => []
  | k + 1, n, l => if l.isEmpty then [] else l.take n :: chunks k n (l.drop n)

/-- 32-element blocks. -/
def blocksOf {α : Type} (l : List α) : List (List α) := chunks (l.length / 32 + 1) 32 l

/-- Values of a run with its scale bytes. -/
def runVals (f : Fmt) (es : List Nat) (scales : List Byte) : List Val :=
  if f.isMX then ((blocksOf es).zipIdx.map fun (b, k) => b.map fun e => (f.dec e).scaled ((scales[k]?).getD 0).toNat).flatten
  else es.map f.dec

/-- Encode values in a format, MX blocks in element order: elements and scale bytes (R33, R36). -/
def encRun (f : Fmt) (md : Nat → Rounding) (vs : List Val) : List Nat × List Byte :=
  if f.isMX then
    let bl := (blocksOf vs).zipIdx.map fun (b, k) =>
      let sc := mxScale f b
      (b.zipIdx.map fun (v, i) => mxElem f (md (32 * k + i)) sc v, BitVec.ofNat 8 sc)
    ((bl.map Prod.fst).flatten, bl.map Prod.snd)
  else (vs.zipIdx.map fun (v, i) => f.enc (md i) v, [])

/-- SCALE of one MX block: its new elements and scale byte (Table 3-8). -/
def scaleBlock (f : Fmt) (p : Int) (es : List Nat) (sc : Byte) : List Nat × Byte :=
  let t : Int := (sc.toNat : Int) + p
  let vs := es.map f.dec
  if sc = 0xFF then (es, sc)
  else if 0 ≤ t ∧ t ≤ 254 then (es, BitVec.ofInt 8 t)
  else if vs.any Val.isSpecial then (es.map fun _ => 0, 0xFF)
  else if t > 254 then
    ((es.zip vs).map fun x => match x.2 with
      | .fin n m _ => if m = 0 then x.1 else f.overflow n
      | _ => x.1, 254)
  else (vs.map fun v => match v with
      | .fin n m e => f.encFin .rne n m (e + t)
      | _ => 0, 0)

/-- What a bank operation writes: (local address, tag, bytes) runs, with apex_low; or its access status. -/
inductive BankOut where
  | waits (s : State)
  | fails (s : State) (status : Nat)
  | writes (s : State) (runs : List TileOut) (apexLow : Bool)

/-- Read several runs in order; the first that waits or fails decides. -/
def State.readRuns : List (Nat × Nat) → State → Nat → State × Nat × Bool × List (List Byte)
  | [], s, _ => (s, stOk, false, [])
  | (a, n) :: rs, s, g =>
    match s.readRun g a n with
    | .waits s1 => (s1, stOk, true, [])
    | .ends s1 st bs =>
      if st ≠ stOk then (s1, st, false, [])
      else
        let (s2, st2, w, more) := State.readRuns rs s1 g
        (s2, st2, w, bs :: more)

/-- GRID192 ADD of one element: accumulator, apex word, and whether E_ref differs (R37). -/
def gridAddElem (a b : Nat) (da sa : Half) : Nat × Half × Bool :=
  if apexExp da = apexExp sa then
    ((a + b) % 2 ^ 192, apexMk (apexNan da || apexNan sa) (apexPinf da || apexPinf sa) (apexNinf da || apexNinf sa)
      (if apexEmpty da then none else some (apexExp da)), false)
  else
    (0, apexMk true (apexPinf da || apexPinf sa) (apexNinf da || apexNinf sa)
      (if apexEmpty da then none else some (apexExp da)), true)

/-- 16-bit words of a byte run. -/
def halves (bs : List Byte) (n : Nat) : List Half := (elemsOf .fp16 bs n).map (BitVec.ofNat 16)

/-- Table 3-8: the operation itself, from its operands. -/
def State.bankRun (s : State) (g : Nat) (b : BankCmd) : BankOut :=
  let f := b.fd
  let len := b.lines * 128
  let n := b.count
  let one (s1 : State) (bs : List Byte) : BankOut := .writes s1 [(b.dst, b.df, bs)] false
  let withRuns (rs : List (Nat × Nat)) (k : State → List (List Byte) → BankOut) : BankOut :=
    match State.readRuns rs s g with
    | (s1, st, w, data) => if w then .waits s1 else if st ≠ stOk then .fails s1 st else k s1 data
  let at_ (l : List (List Byte)) (i : Nat) : List Byte := (l[i]?).getD []
  match b.op with
  | 6 => one s (List.replicate len 0)
  | 5 => withRuns [(b.dst, len)] fun s1 d => one s1 (at_ d 0)
  | 4 =>
    let sl := rowBytes b.fs n
    withRuns ((b.src, sl) :: (if b.fs.isMX then [(b.srcScale, n / 32)] else [])) fun s1 d =>
      let (es, sc) := encRun f (fun _ => .rne) (runVals b.fs (unpackRun b.fs (at_ d 0) n) (at_ d 1))
      .writes s1 ((b.dst, b.df, packRun f len es) :: (if f.isMX then [(b.dstScale, 0, sc)] else [])) false
  | 3 =>
    if f.isMX then
      withRuns [(b.dst, len), (b.dstScale, n / 32)] fun s1 d =>
        let p := (powerOfTwo b.scale).getD 0
        let r := (blocksOf (unpackRun f (at_ d 0) n)).zipIdx.map fun (es, k) => scaleBlock f p es (((at_ d 1)[k]?).getD 0)
        .writes s1 [(b.dst, b.df, packRun f len (r.map Prod.fst).flatten), (b.dstScale, 0, r.map Prod.snd)] false
    else
      withRuns [(b.dst, len)] fun s1 d =>
        one s1 (packRun f len ((unpackRun f (at_ d 0) n).map fun e => f.enc .rne ((f.dec e).mul (Fmt.dec .fp32 b.scale))))
  | 2 =>
    withRuns [(b.dst, len), (b.src, len)] fun s1 d =>
      if b.df = 0 then
        one s1 ((List.zipWith apexCombine (halves (at_ d 0) n) (halves (at_ d 1) n)).map fun h => leBytes 2 h.toNat).flatten
      else one s1 (packRun f len (List.zipWith (fun x y => f.enc .rne ((f.dec x).maximum (f.dec y)))
        (unpackRun f (at_ d 0) n) (unpackRun f (at_ d 1) n)))
  | _ =>
    if b.df = 0x11 then
      withRuns [(b.dst, len), (b.src, len), (b.dstScale, 2 * n), (b.srcScale, 2 * n)] fun s1 d =>
        let es := List.zipWith (fun x y => gridAddElem x.1 y.1 x.2 y.2)
          ((unpackRun f (at_ d 0) n).zip (halves (at_ d 2) n)) ((unpackRun f (at_ d 1) n).zip (halves (at_ d 3) n))
        .writes s1 [(b.dst, 0x11, packRun f len (es.map fun e => e.1)),
          (b.dstScale, 0, (es.map fun e => leBytes 2 e.2.1.toNat).flatten)] (es.any fun e => e.2.2)
    else
      withRuns [(b.dst, len), (b.src, len)] fun s1 d =>
        one s1 (packRun f len (List.zipWith (fun x y =>
          if b.df = 0x10 then (x + y) % 2 ^ 32 else f.enc .rne ((f.dec x).addE (f.dec y)))
          (unpackRun f (at_ d 0) n) (unpackRun f (at_ d 1) n)))

/-- The access status of every byte run to write. -/
def State.runsOk (s : State) (g : Nat) (rs : List TileOut) : Nat :=
  rs.foldl (fun st r => if st ≠ 0 then st else
    match s.resolve g (BitVec.ofNat 32 r.1) r.2.2.length with
    | .ok _ => 0
    | .error e => e) 0

/-- R59: whether a run to write touches a line some tile op in flight holds. -/
def State.runsHeld (s : State) (g : Nat) (rs : List TileOut) : Bool :=
  rs.any fun r => match s.resolve g (BitVec.ofNat 32 r.1) r.2.2.length with
    | .ok (t, off) => s.writeHeld t off r.2.2.length
    | .error _ => false

/-- Write the runs of an operation. -/
def State.putRuns (s : State) (g : Nat) (rs : List TileOut) : State :=
  rs.foldl (fun st r => match st.resolve g (BitVec.ofNat 32 r.1) r.2.2.length with
    | .ok (t, off) => st.lagoonWrite t off (BitVec.ofNat 5 r.2.1) r.2.2
    | .error _ => st) s

/-- Whether an operation reads lines that it also writes, other than each line's own (R60). -/
def BankCmd.overlaps (b : BankCmd) : Bool :=
  let n := if b.op = 4 then rowBytes b.fs b.count else b.lines * 128
  (b.op == 1 || b.op == 2 || b.op == 4) && b.src / 2 ^ 29 == 0 && !(b.op != 4 && b.src == b.dst) &&
    decide (b.src < b.dst + b.lines * 128) && decide (b.dst < b.src + n)

/-- R60: each line is read, computed and written in one bank cycle; lines go in ascending order, so a later line reads what an
earlier one wrote (log entry 71). -/
def State.bankLines (s : State) (g : Nat) (b : BankCmd) : State × Bool :=
  let k := b.lines / (if b.df = 0x11 then 3 else 1)
  let cut (i : Nat) (r : TileOut) : TileOut :=
    let n := r.2.2.length / k
    (r.1 + n * i, r.2.1, (r.2.2.drop (n * i)).take n)
  (List.range k).foldl (fun (x : State × Bool) i =>
    match x.1.bankRun g b with
    | .writes s1 rs low => (s1.putRuns g (rs.map (cut i)), x.2 || low)
    | _ => x) (s, false)

/-- Put the outcome of the operation at the port's head: status, refused offset and apex_low. -/
def State.bankEnd (s : State) (g : Nat) (st off : Nat) (low : Bool) : State :=
  s.modAtoll g fun a => { a with bankOps := match a.bankOps with
    | [] => []
    | o :: r => { o with outcome := some (st, off, low) } :: r }

/-- A scalar core's store to the bank command port puts an operation at its end. -/
def State.bankPost (s : State) (g : Nat) (post : Option (BitVec 256)) : State :=
  match post with
  | some c => s.modAtoll g fun a => { a.active with bankOps := a.bankOps ++ [{ cmd := c, src := .core 0, outcome := none }] }
  | none => s

/-- Run the operation at the head of the port when it has operation code `code` (an unused code counts for every row).
`bad` names a local address whose word the read finds newly uncorrectable. -/
def State.bankHead (s : State) (g code : Nat) (bad : Option Word) : State :=
  match (s.atoll g).bankOps with
  | [] => s
  | o :: _ =>
    let b := bankCmd o.cmd
    if o.outcome.isSome ∨ ¬ s.unitRuns g ∨ s.isFenced (bankUnits g) ∨ (b.op ≠ code ∧ 1 ≤ b.op ∧ b.op ≤ 6) then s
    else
      match firstBad o.cmd.toNat (bankChecks o.cmd) with
      | some c => s.bankEnd g opBadDesc c.off false
      | none =>
        match s.resolve g (BitVec.ofNat 32 b.dst) (b.lines * 128) with
        | .error e => s.bankEnd g (opOfAccess e) 0 false
        | .ok _ =>
          match bad.map fun a => s.resolve g a 1 with
          | some (.ok (t, off)) => (s.lagoonDecode t off (.uncorrectable 2) 0 (3, b.op)).bankEnd g opSymbol 0 false
          | _ =>
            match s.bankRun g b with
            | .waits s1 => s1
            | .fails s1 e => s1.bankEnd g (opOfAccess e) 0 false
            | .writes s1 rs low =>
              let e := s1.runsOk g rs
              if e ≠ 0 then s1.bankEnd g (opOfAccess e) 0 false
              else if s1.runsHeld g rs then s1
              else if b.overlaps then
                let (s2, low2) := s1.bankLines g b
                s2.bankEnd g stOk 0 low2
              else (s1.putRuns g rs).bankEnd g stOk 0 low

/-- A row's post and run: the stored command goes to the port where its code is the row's. -/
def State.bankRow (s : State) (g code : Nat) (post : Option (BitVec 256)) (bad : Option Word) : State :=
  if !s.unitRuns g then s
  else ((s.bankPost g (post.filter fun c => fld c 0 0 8 == code))).bankHead g code bad

/-- BANK_ADD (Table 3-8 0x01). -/
def execBankAdd (g : Fin 320) (post : Option (BitVec 256)) (bad : Option Word) (s : State) :
    Host.Outcome State Fault Refusal := .next (s.bankRow g 1 post bad)
/-- BANK_MAX (0x02). -/
def execBankMax (g : Fin 320) (post : Option (BitVec 256)) (bad : Option Word) (s : State) :
    Host.Outcome State Fault Refusal := .next (s.bankRow g 2 post bad)
/-- BANK_SCALE (0x03). -/
def execBankScale (g : Fin 320) (post : Option (BitVec 256)) (bad : Option Word) (s : State) :
    Host.Outcome State Fault Refusal := .next (s.bankRow g 3 post bad)
/-- BANK_CONVERT (0x04). -/
def execBankConvert (g : Fin 320) (post : Option (BitVec 256)) (bad : Option Word) (s : State) :
    Host.Outcome State Fault Refusal := .next (s.bankRow g 4 post bad)
/-- BANK_APEX (0x05). -/
def execBankApex (g : Fin 320) (post : Option (BitVec 256)) (bad : Option Word) (s : State) :
    Host.Outcome State Fault Refusal := .next (s.bankRow g 5 post bad)
/-- BANK_ZERO (0x06). -/
def execBankZero (g : Fin 320) (post : Option (BitVec 256)) (bad : Option Word) (s : State) :
    Host.Outcome State Fault Refusal := .next (s.bankRow g 6 post bad)

/-- BANK_OP_COMPLETE (R61, R70): the completion word goes to the issuing sequencer, and `notify` signals. A scalar core has
no place to read it from and learns by `notify` (log entry 21). -/
def execBankOpComplete (g : Fin 320) (s : State) : Host.Outcome State Fault Refusal :=
  .next (
    match (s.atoll g).bankOps with
    | [] => s
    | o :: rest =>
      match o.outcome with
      | none => s
      | some (st, off, low) =>
        if !s.unitRuns g then s
        else
          let b := bankCmd o.cmd
          let s1 := s.modAtoll g fun a => { a with bankOps := rest }
          let w := opWord b.lines off false low false st b.ticket
          match o.src with
          | .core _ => if b.notify then s1.signalAtoll g b.obj 1 else s1
          | src => s1.deliverOp g src 0 w b.notify b.obj)

end Sys2Proof.Machine
end

