-- ==== Sys2Proof/Machine/Queues.lean ====
section
/-! DEFINITION. Queues, lanes, pass-through and spill (04 R82-R93), and how a sequencer halts (04 R81, 13 R343). -/

namespace Sys2Proof.Machine

/-! ### Queues and spill -/

/-- Kind of a control token (R82). -/
def QEntry.kind (e : QEntry) : Nat := bits e.data.toNat 13 3
/-- Argument of a control token. -/
def QEntry.arg (e : QEntry) : Nat := bits e.data.toNat 0 13
/-- A token entry. -/
def tokenEntry (tok : Nat) (epoch : BitVec 4) : QEntry := { data := BitVec.ofNat 256 (tok % 65536), token := true, epoch := epoch }

/-- Entries a spill region holds (R91). -/
def Queue.spillCap (q : Queue) : Nat := match q.spill with
  | some (_, _, n) => 3 * n
  | none => 0

/-- Entries a queue and its spill region can still take (R92). -/
def Queue.room (q : Queue) : Nat :=
  (if q.spCount = 0 then 16 - q.ents.length else 0) + (q.spillCap - q.spCount)

/-- Whether a queue or its spill region holds an entry. -/
def Queue.holds (q : Queue) : Bool := !q.ents.isEmpty || decide (q.spCount > 0)

/-- Lagoon offset of the line of a spill slot. -/
def Queue.spillLine (q : Queue) (slot : Nat) : Nat := match q.spill with
  | some (b, first, _) => b * 0x100000 + (first + slot / 3) * 128
  | none => 0

/-- R91: put an entry in a spill slot: 32 data bytes, a sideband byte, and zeros behind the sideband; raw bytes. -/
def Atoll.spillPut (a : Atoll) (q : Queue) (slot : Nat) (e : QEntry) : Atoll :=
  let l := q.spillLine slot
  let i := slot % 3
  let a1 := a.store (l + 32 * i) 0 (leBytes 32 e.data.toNat)
  let a2 := a1.store (l + 96 + i) 0 [BitVec.ofNat 8 (e.epoch.toNat + 16 * b2n e.token)]
  if i = 0 then a2.store (l + 99) 0 (List.replicate 29 0) else a2

/-- The entry in a spill slot. -/
def Atoll.spillGet (a : Atoll) (q : Queue) (slot : Nat) : QEntry :=
  let l := q.spillLine slot
  let i := slot % 3
  let sb := (Mem.read a.lagoon (l + 96 + i)).toNat
  { data := BitVec.ofNat 256 (Mem.readNat a.lagoon (l + 32 * i) 32), token := bits sb 4 1 == 1, epoch := BitVec.ofNat 4 sb }

/-- R92: an arrival enters the queue while it has room and nothing is spilled, else its spill region. -/
def Atoll.pushQueue (a : Atoll) (n : Nat) (e : QEntry) : Atoll :=
  let q := a.queue n
  if q.spCount = 0 ∧ q.ents.length < 16 then a.active.modQueue n fun x => { x with ents := x.ents ++ [e] }
  else if q.spCount < q.spillCap then
    (a.active.spillPut q ((q.spHead + q.spCount) % q.spillCap) e).modQueue n fun x => { x with spCount := x.spCount + 1 }
  else a

/-- Take the head entry off a queue. -/
def Atoll.popQueue (a : Atoll) (n : Nat) : Atoll := a.modQueue n fun q => { q with ents := q.ents.drop 1 }

/-- Discard what a queue and its spill region hold, counted in FLUSH_DISCARD_COUNT (R82, R104). -/
def Atoll.flushQueue (a : Atoll) (n : Nat) : Atoll :=
  let q := a.queue n
  { a.modQueue n fun x => { x with ents := [], spHead := 0, spCount := 0 } with
    flushDiscard := satAdd32 a.flushDiscard (q.ents.length + q.spCount) }

/-! ### Lanes -/

/-- Direction of a lane (R86). -/
def laneDir (i : Nat) : Nat := i / 2
/-- The lane at the other end: the opposite direction, the same l. -/
def lanePeer (i : Nat) : Nat := (if laneDir i % 2 = 0 then laneDir i + 1 else laneDir i - 1) * 2 + i % 2

/-- Credits left on outgoing lane i. -/
def Atoll.laneCredits (a : Atoll) (i : Nat) : Nat := Tbl.getD a.credits i 0

/-- R88: send an entry on outgoing lane i against a credit; it lands in the neighbour's input stage. -/
def State.sendLane (s : State) (g i : Nat) (e : QEntry) : State :=
  match s.mapped g (laneDir i) with
  | none => s
  | some t =>
    (s.modAtoll g fun a => { a.active with credits := Tbl.set a.credits i (a.laneCredits i - 1) }).modAtoll t fun a =>
      { (if a.ptEn.getLsbD (lanePeer i) then a.active else a) with laneIn := Tbl.set a.laneIn (lanePeer i) (Tbl.getD a.laneIn (lanePeer i) [] ++ [e]) }

/-- R88: an entry leaves the input stage of incoming lane i: its sender gets a credit back. -/
def State.leaveLane (s : State) (g i : Nat) : State :=
  let s1 := s.modAtoll g fun a => { a with
    laneIn := Tbl.set a.laneIn i ((Tbl.getD a.laneIn i []).drop 1), laneHold := Tbl.erase a.laneHold i }
  match s.mapped g (laneDir i) with
  | none => s1
  | some t => s1.modAtoll t fun a =>
      { a with creditBack := Tbl.set a.creditBack (lanePeer i) (Tbl.getD a.creditBack (lanePeer i) 0 + 1) }

/-- Whether an own unit may put one more entry for local queue n: room beyond what is already on its way. -/
def Atoll.ownRoom (a : Atoll) (n : Nat) : Bool :=
  decide ((a.ownIn.countP fun e => e.1 == n) < (a.queue n).room)

/-! ### How a sequencer halts -/

/-- SEQ_STATUS state code (Table 4-16). -/
def SeqState.code : SeqState → Nat
  | .stopped => 0 | .running => 1 | .waitQueue => 2 | .waitSync => 3 | .halted => 4 | .ended => 5 | .error => 6 | .held => 7

/-- SEQ_STATUS (Table 4-16). -/
def Sequencer.word (q : Sequencer) : DWord :=
  BitVec.ofNat 64 (q.opStatus % 256 * 2 ^ 24 + q.error % 256 * 2 ^ 16 + q.state.code * 256 + q.pc % 256)

/-- R81: a sequencer halts with an error and reports it: the stream that installed the position's tessellation stops
(R343). -/
def State.seqError (s : State) (g u code : Nat) : State :=
  let s1 := s.modAtoll g fun a => a.modSeq u fun q => { q with state := .error, error := code, block := .none }
  match s1.positionOf g with
  | none => s1
  | some (p, pos) =>
    match (s1.part? p).bind fun x => Tbl.get? x.installer pos with
    | none => s1
    | some (st, idx) =>
      let w := BitVec.ofNat 64 (((s1.atoll g).seq u).word.toNat + u * 2 ^ 32 + pos * 2 ^ 40)
      s1.stopStream p st (if code = 5 then mbTimeout else mbBadField) 5 idx 0xFFFF code w

/-- The sequencer port that reads queue n, as (sequencer, port) (R87). -/
def Atoll.readerOf (a : Atoll) (n : Nat) : Option (Nat × Nat) :=
  ((List.range 24).find? fun k => (a.seq (k / 4)).state != .stopped && (a.seq (k / 4)).inBind.getD (k % 4) 99 == n).map
    fun k => (k / 4, k % 4)

/-! ### Arrival, epoch test, head tokens -/

/-- An entry that passed its epoch test enters queue n; none when the queue and its spill region are full. A FLUSH token
acts on arrival. -/
def Atoll.accept (a : Atoll) (n : Nat) (e : QEntry) : Option Atoll :=
  if e.token ∧ e.kind = 4 then some (a.flushQueue n)
  else if (a.queue n).room = 0 then none else some (a.pushQueue n e)

/-- R102: an entry is discarded and counted; the first discard after an installation also writes a record. -/
def State.epochDiscard (s : State) (g queue : Nat) : State :=
  let a := s.atoll g
  let s1 := s.modAtoll g fun x => { x with epochDiscard := satAdd32 x.epochDiscard 1, discardNoted := true }
  if a.discardNoted then s1
  else s1.raise { unit := siteUnit g, cls := clsEpoch, part := s.partOf g, actions := actCounted, detail := [(32, queue)] }

/-- What the epoch test makes of an entry. -/
inductive EpochTest where
  | accept | hold | discard
  deriving DecidableEq, Repr

/-- R102. -/
def epochTest (own e : BitVec 4) : EpochTest := if e = own then .accept else if e = own + 1 then .hold else .discard

/-- An EPOCH token that arrives stale is discarded without counting (R103). -/
def State.discardEntry (s : State) (g queue : Nat) (e : QEntry) : State :=
  if e.token ∧ e.kind = 5 then s else s.epochDiscard g queue

/-- LANE_ENTRY_ARRIVAL from a lane (R89, R92, R102). -/
def State.laneArrival (s : State) (g i : Nat) : State :=
  let a := s.atoll g
  match Tbl.getD a.laneIn i [] with
  | [] => s
  | e :: _ =>
    if a.ptEn.getLsbD i then
      let j := bits a.ptRoute.toNat (4 * i) 3
      if a.laneCredits j > 0 ∧ (s.mapped g (laneDir j)).isSome then (s.leaveLane g i).sendLane g j e else s
    else
      match epochTest a.epoch e.epoch with
      | .hold => if (Tbl.get? a.laneHold i).isSome then s
                 else s.modAtoll g fun x => { x with laneHold := Tbl.set x.laneHold i s.count }
      | t =>
        if ¬ a.laneEn.getLsbD i ∨ ¬ (a.queue (24 + i)).enable then
          if e.token ∧ e.kind = 5 ∧ t = .discard then s.leaveLane g i
          else (s.leaveLane g i).modAtoll g fun x => { x with ptDiscard := satAdd32 x.ptDiscard 1 }
        else if t = .accept then
          match a.accept (24 + i) e with
          | some a' => (s.setAtoll g a').leaveLane g i
          | none => s
        else (s.leaveLane g i).discardEntry g (24 + i) e

/-- LANE_ENTRY_ARRIVAL from the atoll's own units. -/
def State.ownArrival (s : State) (g : Nat) : State :=
  let a := s.atoll g
  match a.ownIn with
  | [] => s
  | (n, e) :: rest =>
    let drop (t : State) : State := t.modAtoll g fun x => { x with ownIn := rest, ownHold := none }
    match epochTest a.epoch e.epoch with
    | .hold => if a.ownHold.isSome then s else s.modAtoll g fun x => { x with ownHold := some s.count }
    | .discard => (drop s).discardEntry g n e
    | .accept =>
      if ¬ (a.queue n).enable then (drop s).discardEntry g n e
      else
        match a.accept n e with
        | some a' => drop (s.setAtoll g a')
        | none => s

/-- LANE_ENTRY_ARRIVAL (R102). -/
def execLaneEntryArrival (g : Fin 320) (src : EntrySource) (s : State) : Host.Outcome State Fault Refusal :=
  .next (
    if s.running ∧ (s.atoll g).inReset then
      match src with
      | .lane i => if (Tbl.getD (s.atoll g).laneIn i []).isEmpty then s
          else (s.leaveLane g i).modAtoll g fun x => { x with ptDiscard := satAdd32 x.ptDiscard 1 }
      | .own => s
    else if !s.unitRuns g then s else
    match src with
    | .lane i => s.laneArrival g i
    | .own => s.ownArrival g)

/-- EPOCH_HOLD_EXPIRY (R102): an entry held for 2 µs is discarded. -/
def execEpochHoldExpiry (g : Fin 320) (src : EntrySource) (s : State) : Host.Outcome State Fault Refusal :=
  .next (
    let a := s.atoll g
    if !s.unitRuns g then s else
    match src with
    | .lane i =>
      match Tbl.get? a.laneHold i.val, Tbl.getD a.laneIn i.val [] with
      | some _, e :: _ =>
        if epochTest a.epoch e.epoch = .hold then (s.leaveLane g i).discardEntry g (24 + i.val) e
        else s.modAtoll g fun x => { x with laneHold := Tbl.erase x.laneHold i.val }
      | _, _ => s
    | .own =>
      match a.ownHold, a.ownIn with
      | some _, (n, e) :: rest =>
        if epochTest a.epoch e.epoch = .hold then
          (s.modAtoll g fun x => { x with ownIn := rest, ownHold := none }).discardEntry g n e
        else s.modAtoll g fun x => { x with ownHold := none }
      | _, _ => s)

/-- QUEUE_HEAD_TOKEN (R83): EPOCH closes the queue, HALT halts its consumer; both are removed. A consumer waiting on the
closed, empty queue ends. -/
def execQueueHeadToken (g : Fin 320) (q : Fin 32) (s : State) : Host.Outcome State Fault Refusal :=
  .next (
    let a := s.atoll g
    match (a.queue q).ents with
    | [] => s
    | e :: _ =>
      if !s.unitRuns g ∨ !e.token then s
      else if e.kind = 5 then
        s.modAtoll g fun x =>
          let y := (x.popQueue q).modQueue q fun z => { z with closed := true }
          match y.readerOf q with
          | some (u, p) =>
            if (y.seq u).block = .queue p ∧ ¬ (y.queue q).holds then
              y.modSeq u fun z => { z with state := .ended, block := .none }
            else y
          | none => y
      else if e.kind = 6 then
        s.modAtoll g fun x =>
          let y := x.popQueue q
          match y.readerOf q with
          | some (u, _) => y.modSeq u fun z => if z.state = .error then z else { z with state := .halted, block := .none }
          | none => y
      else s)

/-- SPILL_REFILL (R92): a queue with free space takes the oldest spilled entry. -/
def execSpillRefill (g : Fin 320) (q : Fin 32) (s : State) : Host.Outcome State Fault Refusal :=
  .next (
    let a := s.atoll g
    let x := a.queue q
    if s.unitRuns g ∧ x.spCount > 0 ∧ x.ents.length < 16 then
      s.modAtoll g fun b => b.modQueue q fun y => { y with
        ents := y.ents ++ [a.spillGet x x.spHead], spHead := (y.spHead + 1) % (max 1 y.spillCap), spCount := y.spCount - 1 }
    else s)

/-- LANE_CREDIT_RETURN (R88): a credit on its way back reaches the sender; a lane holds at most 16. -/
def execLaneCreditReturn (g : Fin 320) (lane : Fin 8) (s : State) : Host.Outcome State Fault Refusal :=
  .next (
    let a := s.atoll g
    let n := Tbl.getD a.creditBack lane.val 0
    if n = 0 then s
    else s.modAtoll g fun x => { x with
      creditBack := Tbl.set x.creditBack lane.val (n - 1),
      credits := Tbl.set x.credits lane.val (min 16 (x.laneCredits lane + 1)) })

end Sys2Proof.Machine
end

