-- ==== Sys2Proof/Machine/VecOps.lean ====
section
/-! DEFINITION. Vector engines (03 R72, Tables 3-13, 3-14; 02 R21, R23, R40; 04 R83, R84; 10 R252, R261, R262). A row
VEC_x or RED_x starts the operation at the head of the engine's queue; VEC_LINE_RELEASE forms and writes its next output
line or queue entry; VECTOR_OP_COMPLETE delivers its completion. -/

namespace Sys2Proof.Machine

/-- Fields of a vector operation descriptor (Table 3-13). -/
structure VecDesc where
  op : Nat
  kind : Nat → Nat
  dstKind : Nat
  sf : Nat
  df : Nat
  stoch : Bool
  src : Nat → Nat
  dst : Nat
  count : Nat
  tensor : Word
  seedIndex : DWord
  seg : Nat

/-- Decode of the descriptor's fields. -/
def vecDesc (d : BitVec 320) : VecDesc :=
  { op := fld d 0 0 8, kind := fun i => fld d 1 (2 * i) 2, dstKind := fld d 1 6 2, sf := fld d 2 0 5, df := fld d 3 0 5,
    stoch := flag d 3 5, src := fun i => fld d (4 + 4 * i) 0 32, dst := fld d 16 0 32, count := fld d 20 0 25 + 1,
    tensor := BitVec.ofNat 32 (fld d 24 0 32), seedIndex := BitVec.ofNat 64 (fld d 28 0 64), seg := fld d 36 0 25 + 1 }

/-- Source format. -/
def VecDesc.fs (v : VecDesc) : Fmt := (Fmt.ofCode v.sf).getD .raw
/-- Destination format. -/
def VecDesc.fd (v : VecDesc) : Fmt := (Fmt.ofCode v.df).getD .raw

/-- Codes of Table 3-14. -/
def vecCodes : List Nat :=
  [0, 1, 2, 3, 4, 5, 6, 7, 8, 9, 0x0A, 0x0B, 0x10, 0x11, 0x12, 0x13, 0x20, 0x30, 0x31, 0x32, 0x33, 0x34, 0x35, 0x40, 0x50,
   0x51, 0x52, 0x53, 0x54, 0x55]

/-- Sources an operation has (Table 3-14). -/
def vecArity (op : Nat) : Nat :=
  if op = 3 ∨ op = 0x13 then 3
  else if op = 0 ∨ op = 1 ∨ op = 2 ∨ op = 4 ∨ op = 5 ∨ op = 0x0B ∨ (0x10 ≤ op ∧ op ≤ 0x12) ∨ op = 0x52 then 2 else 1

/-- Reductions work per segment. -/
def vecReduces (op : Nat) : Bool := decide (op = 0x40) || decide (0x50 ≤ op)
/-- Operations whose sources are summed on the grid and must be lagoons (R40). -/
def vecSums (op : Nat) : Bool := op == 0x40 || op == 0x50 || op == 0x51 || op == 0x52

/-- Elements of an operation's output. -/
def VecDesc.outs (v : VecDesc) : Nat :=
  if v.op = 0x40 then v.count / v.seg * 2 else if vecReduces v.op then v.count / v.seg else v.count

/-- Queue number a queue source names (R86). -/
def VecDesc.srcQueue (v : VecDesc) (i : Nat) : Option Nat :=
  if v.kind i = 1 then some (24 + v.src i) else if v.kind i = 2 then some (v.src i) else none

/-- Checks of a vector descriptor run on atoll a by sequencer u: single fields in ascending offset, then relations (R72,
R86, R87, R448). -/
def vecChecks (a : Atoll) (u : Nat) (d : BitVec 320) : List Chk :=
  let v := vecDesc d
  let fail (off : Nat) (x : Bool) : Chk := Chk.test off false fun _ => x
  let n := vecArity v.op
  let badQ (i : Nat) : Bool := decide (i < n) &&
    (match v.kind i with
     | 1 => decide (v.src i > 7) || (a.readerOf (24 + v.src i)).elim true fun r => r.1 != u
     | 2 => decide (v.src i > 23) || (a.readerOf (v.src i)).elim true fun r => r.1 != u
     | _ => false)
  let badD : Bool := match v.dstKind with
    | 1 => decide (v.dst > 7) || !a.laneOut.getLsbD v.dst
    | 2 => decide (v.dst > 23) || !(a.queue v.dst).enable
    | _ => false
  [ fail 0 (!vecCodes.contains v.op), fail 1 (v.dstKind == 3),
    fail 2 (v.sf == 0 || decide (v.sf ≥ 0x11)), Chk.rsv 2 5 3, fail 3 (v.df == 0 || decide (v.df ≥ 0x11)), Chk.rsv 3 6 2,
    fail 4 (badQ 0), fail 8 (badQ 1), fail 12 (badQ 2), fail 16 badD, Chk.rsv 20 25 7, Chk.rsv 36 25 7,
    fail 1 (vecSums v.op && (v.kind 0 != 0 || (v.op == 0x52 && v.kind 1 != 0))),
    fail 20 (vecReduces v.op && v.count % v.seg != 0), fail 36 (!vecReduces v.op && v.seg != 1) ]

/-- Elements a 256-bit queue entry carries: whole 6-bit blocks, else as many as fit (log entry 22). -/
def entryElems (f : Fmt) : Nat := if f.bits = 6 then 32 else 256 / f.bits

/-! ### Values -/

/-- R72: an input converts to FP32 exactly; beyond its range it takes the overflow result. -/
def vecIn (v : Val) : Val := match v with
  | .fin n m e => if exactExceeds m e (2 ^ 24 - 1) 104 then .inf n else .fin n m e
  | x => x

/-- An FP32 table function of Table 3-14 within n ulp of y, with its special values: NaN gives NaN. -/
def vecTable (n : Nat) (f : BitVec 32 → BitVec 32) (y : Exact → Exact) (special : Val → Option Val) (a : Val) : Val :=
  match a with
  | .nan => .nan
  | a => (special a).getD (ulpBounded n (f (BitVec.ofNat 32 (Fmt.enc .fp32 .rne a))) (y a.exact))

/-- One. -/
def Val.one : Val := .fin false 1 0

/-- Order used by a comparison: some -1, 0 or 1; none with a NaN. -/
def vecCmp (a b : Val) : Option Int := if a = .nan ∨ b = .nan then none else some (a.cmp b)

/-- An element-wise operation on its operands' exact values (Table 3-14). -/
def vecElem (op : Nat) (a b c : Val) : Val :=
  let yes (t : Bool) : Val := if t then .one else .zero
  match op with
  | 0x00 => a.addE b
  | 0x01 => a.addE b.neg
  | 0x02 => a.mul b
  | 0x03 => (a.mul b).addE c
  | 0x04 => a.maximum b
  | 0x05 => a.minimum b
  | 0x06 => a.abs
  | 0x07 => a.neg
  | 0x08 => vecTable 1 Config.recip (fun x => if x.1 < 0 then let q := apxDiv (1, 0) (-x.1, x.2); (-q.1, q.2) else apxDiv (1, 0) x) (fun x => match x with
      | .inf n => some (.fin n 0 0)
      | .fin n m _ => if m = 0 then some (.inf n) else none
      | .nan => none) a
  | 0x09 => vecTable 1 Config.rsqrt (fun x => apxDiv (1, 0) (Val.sqrt (Val.ofInt x.1 x.2)).exact) (fun x => match x with
      | .inf n => some (if n then .nan else .zero)
      | .fin n m _ => if m = 0 then some (.inf n) else if n then some .nan else none
      | .nan => none) a
  | 0x0A => a.sqrt
  | 0x0B => a.ldexp b
  | 0x10 => yes (vecCmp a b == some 0)
  | 0x11 => yes (vecCmp a b == some (-1))
  | 0x12 => yes (vecCmp a b == some (-1) || vecCmp a b == some 0)
  | 0x13 => if a = .nan ∨ a.isZero then c else b
  | 0x30 => vecTable 1 Config.exp (fun x => apxExp (apxFix x)) (fun x => match x with
      | .inf n => some (if n then .zero else .inf false)
      | _ => none) a
  | 0x31 => vecTable 1 Config.log (fun x => apxLog x.1.natAbs x.2) (fun x => match x with
      | .inf n => some (if n then .nan else .inf false)
      | .fin n m _ => if m = 0 then some (.inf true) else if n then some .nan else none
      | .nan => none) a
  | 0x32 => vecTable 2 Config.sigmoid (fun x => apxSigmoid (apxFix x)) (fun x => match x with
      | .inf n => some (if n then .zero else .one)
      | _ => none) a
  | 0x33 => vecTable 2 Config.tanh (fun x => apxTanh (apxFix x)) (fun x => match x with
      | .inf n => some (.fin n 1 0)
      | .fin n m _ => if m = 0 then some (.fin n 0 0) else none
      | .nan => none) a
  | 0x34 => vecTable 4 Config.gelu (fun x => apxGate x (apxGeluArg x)) (fun x => match x with
      | .inf n => some (if n then .fin true 0 0 else .inf false)
      | .fin n m _ => if m = 0 then some (.fin n 0 0) else none
      | .nan => none) a
  | 0x35 => vecTable 2 Config.silu (fun x => apxGate x (apxFix x)) (fun x => match x with
      | .inf n => some (if n then .fin true 0 0 else .inf false)
      | .fin n m _ => if m = 0 then some (.fin n 0 0) else none
      | .nan => none) a
  | _ => a

/-- Index of the largest element: the first NaN when present, else the first of the largest under `maximum`'s order. -/
def vecArgmax (vs : List Val) : Nat :=
  match vs.findIdx? (· == .nan) with
  | some k => k
  | none =>
    let m := vs.foldl Val.maximum (vs.headD .zero)
    let same (v : Val) : Bool := v.cmp m == 0 && (v.maximum m == v || !v.isZero || (match v, m with
      | .fin n _ _, .fin k _ _ => n == k
      | _, _ => true))
    (vs.findIdx? same).getD 0

/-! ### Operands -/

/-- A lagoon source's elements i0 to i0+n-1: the state (cache fills), a wait, a status, and the encodings. -/
def State.vecLagoon (s : State) (g : Nat) (f : Fmt) (addr i0 n : Nat) : State × Bool × Nat × List Nat :=
  let lo := rowBit f i0 / 8
  let hi := (rowBit f (i0 + n - 1) + f.bits + 7) / 8
  match s.readRun g (addr + lo) (hi - lo) with
  | .waits s1 => (s1, true, stOk, [])
  | .ends s1 st bs =>
    let v := leNat bs
    (s1, false, st, (List.range n).map fun k => bits v (rowBit f (i0 + k) - 8 * lo) f.bits)

/-- The bound each element of a summed source contributes, from its block's apex word or MX scale (R27, R40), and whether
an apex word had to be computed (R26). -/
def State.vecBounds (s : State) (g : Nat) (f : Fmt) (addr i0 n ctr i : Nat) : List (Option Int) × Bool :=
  let b0 := i0 / 32
  let nb := (i0 + n + 31) / 32 - b0
  let one (k : Nat) : Option Int × Bool :=
    if f.isMX then (mxBound f (Config.vecScale ctr i (b0 + k)).toNat, false)
    else
      let a := addr + rowBit f (32 * (b0 + k)) / 8
      match s.tileAddr g a f.blockBytes with
      | .ok (t, off) =>
        let m := (s.atoll t).meta_ (off / 128)
        let w := apexOf ((elemsOf f (Mem.readBytes (s.atoll t).lagoon off f.blockBytes) 32).map f.dec)
        (apexBound w, m.tag.toNat != f.code || apexSlot m.apex (off % 128 / f.blockBytes) == apexNone)
      | .error _ => (none, false)
  let tab := (List.range nb).map one
  ((List.range n).map fun k => ((tab[(i0 + k) / 32 - b0]?).map Prod.fst).getD none, tab.any Prod.snd)

/-- The values of elements i0 on, MX elements under their free scale bytes. -/
def vecVals (f : Fmt) (ctr i i0 : Nat) (es : List Nat) : List Val :=
  es.zipIdx.map fun (e, k) =>
    let x := f.dec e
    vecIn (if f.isMX then x.scaled (Config.vecScale ctr i ((i0 + k) / 32)).toNat else x)

/-- A grid sum of terms with per-element bounds (R40): E_ref is the largest bound. -/
def gridSum (bounds : List (Option Int)) (terms : List Val) : Val :=
  match maxBound bounds with
  | some e => (termsAcc e terms).value e
  | none => { (flagsOf terms) with sum := 0 }.value 0

/-- Results of output elements d to d+m-1 from the input values of each source and, for summed sources, their bounds. -/
def vecResults (v : VecDesc) (d m : Nat) (ins : List (List Val)) (bounds : List (List (Option Int))) : List Val :=
  let at_ (i : Nat) : List Val := ins.getD i []
  let a := at_ 0
  let seg (l : List Val) (k : Nat) : List Val := (l.drop (k * v.seg)).take v.seg
  let bseg (i k : Nat) : List (Option Int) := ((bounds.getD i []).drop (k * v.seg)).take v.seg
  let sum (k : Nat) : Val := gridSum (bseg 0 k) (seg a k)
  let sq (k : Nat) : Val := gridSum ((bseg 0 k).map fun b => b.map fun e => 2 * e + 1) ((seg a k).map fun x => x.mul x)
  match v.op with
  | 0x40 => (List.range m).map fun k => if (d + k) % 2 = 0 then sum ((d + k) / 2 - d / 2) else sq ((d + k) / 2 - d / 2)
  | 0x50 => (List.range m).map sum
  | 0x51 => (List.range m).map sq
  | 0x52 => (List.range m).map fun k =>
      gridSum (List.zipWith prodBound (bseg 0 k) (bseg 1 k)) (List.zipWith Val.mul (seg a k) (seg (at_ 1) k))
  | 0x53 => (List.range m).map fun k => (seg a k).foldl Val.maximum ((seg a k).headD .zero)
  | 0x54 => (List.range m).map fun k => (seg a k).foldl Val.minimum ((seg a k).headD .zero)
  | 0x55 => (List.range m).map fun k => .fin false (vecArgmax (seg a k)) 0
  | op => a.zipIdx.map fun (x, k) => vecElem op x ((at_ 1).getD k .zero) ((at_ 2).getD k .zero)

/-- Input elements, as (first, count), that output elements d to d+m-1 need. -/
def VecDesc.inRange (v : VecDesc) (d m : Nat) : Nat × Nat :=
  if v.op = 0x40 then (d / 2 * v.seg, ((d + m + 1) / 2 - d / 2) * v.seg)
  else if vecReduces v.op then (d * v.seg, m * v.seg) else (d, m)

/-- How many output elements the next line or entry takes. -/
def VecDesc.lineElems (v : VecDesc) (d : Nat) : Nat :=
  let f := v.fd
  let n :=
    if v.dstKind = 0 then
      if f.bits = 6 then 160 - d % 160 else (128 - (v.dst + d * f.bits / 8) % 128) * 8 / f.bits
    else entryElems f
  let n := if f.isMX ∧ n > 32 then n / 32 * 32 else if f.isMX then 32 else n
  max 1 (min n (v.outs - d))

/-! ### Queue operands -/

/-- The port's repeat count (R84). -/
def Sequencer.repeatOf (q : Sequencer) (p : Nat) : Nat := Tbl.getD q.rep p 0

/-- What the head of a queue source offers. -/
inductive QHead where
  | entry (e : QEntry)
  | program
  | wait
  | ended

/-- Look at entry `skip` of queue n: a program token stops the operation, a head token or an empty queue waits, a closed
and empty queue ends it (R83). -/
def Atoll.lookQueue (a : Atoll) (n skip : Nat) : QHead :=
  let q := a.queue n
  match q.ents.drop skip with
  | e :: _ => if ¬ e.token then .entry e else if e.kind ≤ 3 then .program else .wait
  | [] => if q.closed ∧ ¬ q.holds then .ended else .wait

/-- The result of gathering a queue source's elements. -/
inductive Gather where
  | ready (a : Atoll) (o : VecOp)
  | wait (a : Atoll) (o : VecOp)
  | program
  | ended

/-- Take entries of source i's queue until `need` elements are in its buffer. With a repeat count entries stay in the
queue and are looked at in turn (R84); without one they leave it. -/
def gatherQueue : Nat → Atoll → VecOp → VecDesc → Nat → Nat → Bool → Nat → Gather
  | 0, a, o, _, _, _, _, _ => .wait a o
  | k + 1, a, o, v, i, qn, rep, need =>
    let have_ := (o.buf.getD i []).length
    if need ≤ have_ then .ready a o
    else
      let skip := if rep then o.taken.getD i 0 else 0
      match a.lookQueue qn skip with
      | .entry e =>
        let es := (List.range (entryElems v.fs)).map fun j => bits e.data.toNat (j * v.fs.bits) v.fs.bits
        let o1 := { o with buf := o.buf.set i (o.buf.getD i [] ++ es), taken := o.taken.set i (o.taken.getD i 0 + 1) }
        gatherQueue k (if rep then a else a.popQueue qn) o1 v i qn rep need
      | .program => .program
      | .wait => .wait a o
      | .ended => .ended

/-- A vector operation as issued (ISSUE of a sequencer). -/
def VecOp.issued (d : BitVec 320) (src : OpSource) (epoch : BitVec 4) (seed : DWord) : VecOp :=
  { desc := d, src := src, epoch := epoch, seed := seed, buf := [[], [], []], taken := [0, 0, 0], done := 0, status := 0,
    offset := 0, apexPass := false, stop := false, cycles := 0 }

/-- The sequencer an operation belongs to. -/
def VecOp.seqOf (o : VecOp) (v : Nat) : Nat := match o.src with
  | .seq u _ => u
  | _ => 4 + v

/-- Replace the running operation of vector engine v. -/
def Atoll.setVecCur (a : Atoll) (v : Nat) (o : Option VecOp) : Atoll := a.modVec v fun e => { e with cur := o }

/-- R261: the vector engine that does engine v's work: itself, else the other, else none. -/
def State.vecFor (s : State) (g v : Nat) : Option Nat := [v, 1 - v].find? fun x => !s.isFenced (vecUnit g x)

/-- Put a vector operation in the queue of the engine that takes it; with both fenced it ends ABANDONED and escalates. -/
def State.issueVec (s : State) (g v : Nat) (o : VecOp) : State :=
  match s.vecFor g v with
  | some x => s.modAtoll g fun a => a.active.modVec x fun e => { e with queue := e.queue ++ [o] }
  | none => (s.deliverOp g o.src 0 (opWord 0 0 false false false opAbandoned 0) false 0).escalateAtoll g clsResidue 0

/-- A VEC_x or RED_x row: an idle engine takes the operation of this code at its queue's head (an unused code counts for
every row) and checks it. -/
def State.vecStart (s : State) (g v code : Nat) (bad : Option Word) : State :=
  let e := (s.atoll g).vec v
  match e.queue with
  | [] => s
  | o :: rest =>
    let d := vecDesc o.desc
    if e.cur.isSome ∨ ¬ s.unitRuns g ∨ s.isFenced (vecUnit g v) ∨ (d.op ≠ code ∧ vecCodes.contains d.op) then s
    else
      let put (t : State) (st off : Nat) : State := t.modAtoll g fun a => a.modVec v fun y =>
        { y with queue := rest, cur := some { o with status := st, offset := off } }
      match firstBad o.desc.toNat (vecChecks (s.atoll g) (o.seqOf v) o.desc) with
      | some c => put s opBadDesc c.off
      | none =>
        match bad.map fun w => s.resolve g w 1 with
        | some (.ok (t, off)) => put (s.lagoonDecode t off (.uncorrectable 2) 0 (2, d.op)) opSymbol 0
        | _ => put s stOk 0

/-- R83, R84: the operation of engine v ends without a completion word. -/
def State.dropVec (s : State) (g v : Nat) : State := s.modAtoll g fun a => a.setVecCur v none

/-- Gather every queue source of an operation for input elements [i0, i0+n). -/
def State.gatherAll (s : State) (g v : Nat) (d : VecDesc) (i0 n : Nat) : List Nat → VecOp → State × Gather
  | [], o => (s, .ready (s.atoll g) o)
  | i :: is, o =>
    match d.srcQueue i with
    | none => s.gatherAll g v d i0 n is o
    | some q =>
      let a := s.atoll g
      let rep := match a.readerOf q with
        | some (u, p) => decide ((a.seq u).repeatOf p > 0)
        | none => false
      match gatherQueue (n + 2) a o d i q rep (i0 + n) with
      | .ready a' o' => (s.setAtoll g (a'.setVecCur v (some o'))).gatherAll g v d i0 n is o'
      | .wait a' o' => (s.setAtoll g (a'.setVecCur v (some o')), .wait a' o')
      | x => (s, x)

/-- Read every lagoon source: the state, a wait, a status and per source its encodings. -/
def State.vecSources (s : State) (g : Nat) (d : VecDesc) (o : VecOp) (i0 n : Nat) :
    List Nat → State × Bool × Nat × List (List Nat)
  | [] => (s, false, stOk, [])
  | i :: is =>
    let r : State × Bool × Nat × List Nat :=
      if d.kind i = 0 then
        if vecSums d.op ∧ laTarget (BitVec.ofNat 32 (d.src i)) = 5 then (s, false, acBayMode, [])
        else s.vecLagoon g d.fs (d.src i) i0 n
      else if d.kind i = 3 then (s, false, stOk, List.replicate n (d.src i))
      else (s, false, stOk, ((o.buf.getD i []).drop i0).take n)
    match r with
    | (s1, w, st, es) =>
      if w ∨ st ≠ stOk then (s1, w, st, [])
      else
        match s1.vecSources g d o i0 n is with
        | (s2, w2, st2, more) => (s2, w2, st2, es :: more)

/-- Outcome of writing an output line. -/
inductive Written where
  | done (s : State)
  | waits (s : State)
  | fails (s : State) (status : Nat)

/-- R86, R88: write the encodings of output elements d to d+m-1 to the destination. -/
def State.vecWrite (s : State) (g : Nat) (v : VecDesc) (o : VecOp) (d : Nat) (es : List Nat) : Written :=
  let f := v.fd
  let entry : QEntry := { data := BitVec.ofNat 256 (es.zipIdx.foldl (fun a (e, j) => a + e * 2 ^ (j * f.bits)) 0),
                          token := false, epoch := o.epoch }
  match v.dstKind with
  | 1 => if (s.atoll g).laneCredits v.dst > 0 ∧ (s.mapped g (laneDir v.dst)).isSome then .done (s.sendLane g v.dst entry)
         else .waits s
  | 2 => if (s.atoll g).ownRoom v.dst then .done (s.modAtoll g fun a => { a with ownIn := a.ownIn ++ [(v.dst, entry)] })
         else .waits s
  | _ =>
    let lo := rowBit f d / 8
    let len := (rowBit f (d + es.length - 1) + f.bits + 7) / 8 - lo
    let len := if f.bits = 6 ∧ (d + es.length) % 160 = 0 then len + 8 else len
    let data := leBytes len (es.zipIdx.foldl (fun a (e, j) => a + e * 2 ^ (rowBit f (d + j) - 8 * lo)) 0)
    let addr := BitVec.ofNat 32 (v.dst + lo)
    if laTarget addr = 5 then
      match s.cacheWrite g (laOffset addr) data with
      | .waits s1 => .waits s1
      | .ends s1 st _ => if st = stOk then .done s1 else .fails s1 st
    else
      match s.resolve g addr len with
      | .error e => .fails s e
      | .ok (t, off) =>
        let data := if (f = .int4 ∨ f = .uint4) ∧ (d + es.length) % 2 = 1 then keepNibble (s.atoll t).lagoon off data else data
        if s.writeHeld t off len then .waits s else .done (s.lagoonWrite t off (BitVec.ofNat 5 v.df) data)

/-- Lanes of the engine for an operation (R47, R72). -/
def VecDesc.lanes (v : VecDesc) : Nat :=
  if (v.fs = .bf16 ∨ v.fs = .fp16) ∧ (v.fd = .bf16 ∨ v.fd = .fp16) then 32 else 16

/-- Values of a source: a scalar is FP32 bits, others decode under the source format. -/
def VecDesc.vals (v : VecDesc) (ctr i i0 : Nat) (es : List Nat) : List Val :=
  if v.kind i = 3 then es.map (Fmt.dec .fp32) else vecVals v.fs ctr i i0 es

/-- Output encodings of values, rounded with the element index of R39; MX blocks in element order (R36). -/
def VecDesc.encode (v : VecDesc) (seed : DWord) (d : Nat) (vs : List Val) : List Nat :=
  (encRun v.fd (fun k => Rounding.of v.stoch seed v.tensor (v.seedIndex + BitVec.ofNat 64 (d + k))) vs).1

/-- The next line of the operation running on engine v, its residue check passing. -/
def State.vecLine (s : State) (g v : Nat) (o : VecOp) : State :=
  let d := vecDesc o.desc
  let m := d.lineElems o.done
  let (i0, n) := d.inRange o.done m
  let srcs := List.range (vecArity d.op)
  match s.gatherAll g v d i0 n srcs o with
  | (s1, .wait _ _) => s1
  | (s1, .program) => (s1.dropVec g v).seqError g (o.seqOf v) 2
  | (s1, .ended) => (s1.dropVec g v).modAtoll g fun a => a.modSeq (o.seqOf v) fun q => { q with state := .ended, block := .none }
  | (s1, .ready _ o1) =>
    match s1.vecSources g d o1 i0 n srcs with
    | (s2, w, st, encs) =>
      if w then s2
      else if st ≠ stOk then s2.modAtoll g fun a => a.setVecCur v (some { o1 with status := opOfAccess st })
      else
        let ctr := s2.freeCtr
        let bs := if vecSums d.op then srcs.map fun i => s2.vecBounds g d.fs (d.src i) i0 n ctr i else []
        let vals := encs.zipIdx.map fun (es, i) => d.vals ctr i i0 es
        let out := d.encode o1.seed o1.done (vecResults d o1.done m vals (bs.map Prod.fst))
        match s2.vecWrite g d o1 o1.done out with
        | .waits s3 => s3
        | .fails s3 e => s3.modAtoll g fun a => a.setVecCur v (some { o1 with status := opOfAccess e })
        | .done s3 =>
          s3.freshen.modAtoll g fun a => a.setVecCur v (some { o1 with
            done := o1.done + m, apexPass := o1.apexPass || bs.any Prod.snd, cycles := o1.cycles + (n + d.lanes - 1) / d.lanes })

/-- Whether an operation has taken queue entries in its current segment (R262). -/
def VecOp.consumed (o : VecOp) : Bool := o.taken.any fun n => n > 0

/-- R261, R262: engine v is fenced; its operation goes on at the other engine, from the first unwritten line or the start
of its segment; a reduction that has consumed queue entries, or no engine left, ends ABANDONED and escalates. -/
def State.fenceVec (s : State) (g v : Nat) (cls : Half) (seq : Word) : State :=
  let e := (s.atoll g).vec v
  let s1 := (s.fenceUnit (vecUnit g v) cls seq).modAtoll g fun a => a.modVec v fun y => { y with queue := [], cur := none }
  let stuck (o : VecOp) : Bool := vecReduces (vecDesc o.desc).op && o.consumed
  let ops := e.cur.toList ++ e.queue
  match s1.vecFor g v with
  | some x =>
    let (lost, go) := ops.partition stuck
    let s2 := (s1.modAtoll g fun a => a.modVec x fun y => { y with queue := go ++ y.queue }).wantMigration g
    lost.foldl (fun t o => (t.deliverOp g o.src 0 (opWord 0 0 false false false opAbandoned 0) false 0).escalateAtoll g cls seq) s2
  | none =>
    (ops.foldl (fun t o => t.deliverOp g o.src 0 (opWord 0 0 false false false opAbandoned 0) false 0) s1).escalateAtoll g cls seq

/-- VEC_LINE_RELEASE (R252): a line whose residue check passes is written; a failed check is RESIDUE_MISMATCH. -/
def execVecLineRelease (g : Fin 320) (v : Fin 2) (residueOk : Bool) (s : State) : Host.Outcome State Fault Refusal :=
  .next (
    match ((s.atoll g).vec v).cur with
    | none => s
    | some o =>
      if !s.unitRuns g ∨ o.status ≠ 0 ∨ o.done ≥ (vecDesc o.desc).outs then s
      else if residueOk then s.vecLine g v o
      else
        let u := vecUnit g v
        let seq := s.nextSeq u
        let sib := if s.isFenced (vecUnit g (1 - v.val)) then 0xFF else 1 - v.val
        (s.raise { unit := u, cls := clsResidue, opKind := 2, opCode := (vecDesc o.desc).op, part := s.partOf g, scope := 1,
                   actions := actFenced + (if sib = 0xFF then actRolled + actEscalated else actSibling + actReplaced),
                   detail := [(34, sib), (36, o.done)] }).fenceVec g v clsResidue seq)

/-- R84: at the end of a firing, entries that a repeat count kept leave their queue once it is used up. -/
def Atoll.serveRepeat (a : Atoll) (o : VecOp) (d : VecDesc) : Atoll :=
  (List.range (vecArity d.op)).foldl (fun b i =>
    match d.srcQueue i with
    | none => b
    | some q =>
      match b.readerOf q with
      | none => b
      | some (u, p) =>
        let r := (b.seq u).repeatOf p
        if r = 0 then b
        else
          let n := Tbl.getD (b.seq u).served p 0 + 1
          if n > r then
            (b.modQueue q fun x => { x with ents := x.ents.drop (o.taken.getD i 0) }).modSeq u fun z =>
              { z with served := Tbl.set z.served p 0 }
          else b.modSeq u fun z => { z with served := Tbl.set z.served p n }) a

/-- VECTOR_OP_COMPLETE (R72): the completion word goes to the issuing sequencer. -/
def execVectorOpComplete (g : Fin 320) (v : Fin 2) (s : State) : Host.Outcome State Fault Refusal :=
  .next (
    match ((s.atoll g).vec v).cur with
    | none => s
    | some o =>
      let d := vecDesc o.desc
      if !s.unitRuns g ∨ (o.status = 0 ∧ o.done < d.outs) then s
      else
        let s1 := s.modAtoll g fun a => (if o.status = 0 then a.serveRepeat o d else a).setVecCur v none
        s1.deliverOp g o.src 0 (opWord o.cycles o.offset false false o.apexPass o.status 0) false 0)

/-- VECTOR_ENGINE_WATCHDOG, vector engines and bank units (11 R284): `w` 0 and 1 name vector engines, 2 the bank units. -/
def State.vecWatchdog (s : State) (g v : Nat) : State :=
  match ((s.atoll g).vec v).cur with
  | none => s
  | some o =>
    let u := vecUnit g v
    let seq := s.nextSeq u
    (s.raise { unit := u, cls := clsTimeout, opKind := 2, opCode := (vecDesc o.desc).op, part := s.partOf g, scope := 1,
               actions := actFenced + actSibling, detail := [(32, 0)] }).fenceVec g v clsTimeout seq

/-- Table 3-14, code 0x00. -/
def execVecAdd (g : Fin 320) (v : Fin 2) (bad : Option Word) (s : State) : Host.Outcome State Fault Refusal :=
  .next (s.vecStart g v 0x00 bad)
/-- Table 3-14, code 0x01. -/
def execVecSub (g : Fin 320) (v : Fin 2) (bad : Option Word) (s : State) : Host.Outcome State Fault Refusal :=
  .next (s.vecStart g v 0x01 bad)
/-- Table 3-14, code 0x02. -/
def execVecMul (g : Fin 320) (v : Fin 2) (bad : Option Word) (s : State) : Host.Outcome State Fault Refusal :=
  .next (s.vecStart g v 0x02 bad)
/-- Table 3-14, code 0x03. -/
def execVecFma (g : Fin 320) (v : Fin 2) (bad : Option Word) (s : State) : Host.Outcome State Fault Refusal :=
  .next (s.vecStart g v 0x03 bad)
/-- Table 3-14, code 0x04. -/
def execVecMax (g : Fin 320) (v : Fin 2) (bad : Option Word) (s : State) : Host.Outcome State Fault Refusal :=
  .next (s.vecStart g v 0x04 bad)
/-- Table 3-14, code 0x05. -/
def execVecMin (g : Fin 320) (v : Fin 2) (bad : Option Word) (s : State) : Host.Outcome State Fault Refusal :=
  .next (s.vecStart g v 0x05 bad)
/-- Table 3-14, code 0x06. -/
def execVecAbs (g : Fin 320) (v : Fin 2) (bad : Option Word) (s : State) : Host.Outcome State Fault Refusal :=
  .next (s.vecStart g v 0x06 bad)
/-- Table 3-14, code 0x07. -/
def execVecNeg (g : Fin 320) (v : Fin 2) (bad : Option Word) (s : State) : Host.Outcome State Fault Refusal :=
  .next (s.vecStart g v 0x07 bad)
/-- Table 3-14, code 0x08. -/
def execVecRecip (g : Fin 320) (v : Fin 2) (bad : Option Word) (s : State) : Host.Outcome State Fault Refusal :=
  .next (s.vecStart g v 0x08 bad)
/-- Table 3-14, code 0x09. -/
def execVecRsqrt (g : Fin 320) (v : Fin 2) (bad : Option Word) (s : State) : Host.Outcome State Fault Refusal :=
  .next (s.vecStart g v 0x09 bad)
/-- Table 3-14, code 0x0A. -/
def execVecSqrt (g : Fin 320) (v : Fin 2) (bad : Option Word) (s : State) : Host.Outcome State Fault Refusal :=
  .next (s.vecStart g v 0x0A bad)
/-- Table 3-14, code 0x0B. -/
def execVecLdexp (g : Fin 320) (v : Fin 2) (bad : Option Word) (s : State) : Host.Outcome State Fault Refusal :=
  .next (s.vecStart g v 0x0B bad)
/-- Table 3-14, code 0x10. -/
def execVecCmpEq (g : Fin 320) (v : Fin 2) (bad : Option Word) (s : State) : Host.Outcome State Fault Refusal :=
  .next (s.vecStart g v 0x10 bad)
/-- Table 3-14, code 0x11. -/
def execVecCmpLt (g : Fin 320) (v : Fin 2) (bad : Option Word) (s : State) : Host.Outcome State Fault Refusal :=
  .next (s.vecStart g v 0x11 bad)
/-- Table 3-14, code 0x12. -/
def execVecCmpLe (g : Fin 320) (v : Fin 2) (bad : Option Word) (s : State) : Host.Outcome State Fault Refusal :=
  .next (s.vecStart g v 0x12 bad)
/-- Table 3-14, code 0x13. -/
def execVecSelect (g : Fin 320) (v : Fin 2) (bad : Option Word) (s : State) : Host.Outcome State Fault Refusal :=
  .next (s.vecStart g v 0x13 bad)
/-- Table 3-14, code 0x20. -/
def execVecConvert (g : Fin 320) (v : Fin 2) (bad : Option Word) (s : State) : Host.Outcome State Fault Refusal :=
  .next (s.vecStart g v 0x20 bad)
/-- Table 3-14, code 0x30. -/
def execVecExp (g : Fin 320) (v : Fin 2) (bad : Option Word) (s : State) : Host.Outcome State Fault Refusal :=
  .next (s.vecStart g v 0x30 bad)
/-- Table 3-14, code 0x31. -/
def execVecLog (g : Fin 320) (v : Fin 2) (bad : Option Word) (s : State) : Host.Outcome State Fault Refusal :=
  .next (s.vecStart g v 0x31 bad)
/-- Table 3-14, code 0x32. -/
def execVecSigmoid (g : Fin 320) (v : Fin 2) (bad : Option Word) (s : State) : Host.Outcome State Fault Refusal :=
  .next (s.vecStart g v 0x32 bad)
/-- Table 3-14, code 0x33. -/
def execVecTanh (g : Fin 320) (v : Fin 2) (bad : Option Word) (s : State) : Host.Outcome State Fault Refusal :=
  .next (s.vecStart g v 0x33 bad)
/-- Table 3-14, code 0x34. -/
def execVecGelu (g : Fin 320) (v : Fin 2) (bad : Option Word) (s : State) : Host.Outcome State Fault Refusal :=
  .next (s.vecStart g v 0x34 bad)
/-- Table 3-14, code 0x35. -/
def execVecSilu (g : Fin 320) (v : Fin 2) (bad : Option Word) (s : State) : Host.Outcome State Fault Refusal :=
  .next (s.vecStart g v 0x35 bad)
/-- Table 3-14, code 0x40. -/
def execVecStats (g : Fin 320) (v : Fin 2) (bad : Option Word) (s : State) : Host.Outcome State Fault Refusal :=
  .next (s.vecStart g v 0x40 bad)
/-- Table 3-14, code 0x50. -/
def execRedSum (g : Fin 320) (v : Fin 2) (bad : Option Word) (s : State) : Host.Outcome State Fault Refusal :=
  .next (s.vecStart g v 0x50 bad)
/-- Table 3-14, code 0x51. -/
def execRedSumsq (g : Fin 320) (v : Fin 2) (bad : Option Word) (s : State) : Host.Outcome State Fault Refusal :=
  .next (s.vecStart g v 0x51 bad)
/-- Table 3-14, code 0x52. -/
def execRedDot (g : Fin 320) (v : Fin 2) (bad : Option Word) (s : State) : Host.Outcome State Fault Refusal :=
  .next (s.vecStart g v 0x52 bad)
/-- Table 3-14, code 0x53. -/
def execRedMax (g : Fin 320) (v : Fin 2) (bad : Option Word) (s : State) : Host.Outcome State Fault Refusal :=
  .next (s.vecStart g v 0x53 bad)
/-- Table 3-14, code 0x54. -/
def execRedMin (g : Fin 320) (v : Fin 2) (bad : Option Word) (s : State) : Host.Outcome State Fault Refusal :=
  .next (s.vecStart g v 0x54 bad)
/-- Table 3-14, code 0x55. -/
def execRedArgmax (g : Fin 320) (v : Fin 2) (bad : Option Word) (s : State) : Host.Outcome State Fault Refusal :=
  .next (s.vecStart g v 0x55 bad)

end Sys2Proof.Machine
end

