-- ==== Sys2Proof/Machine/Channels.lean ====
section
/-! DEFINITION. Message channels (05 R115-R129, R134, Tables 5-1 to 5-7). -/

namespace Sys2Proof.Machine

/-! ### Ports -/

/-- A small ring is kind 0 or 1 (Table 5-1). -/
def ChPort.small (p : ChPort) : Bool := p.kind != 2
/-- Slots of a small ring (R118). -/
def ChPort.slots (p : ChPort) : Nat := (p.sizeM1 + 1) * 16
/-- Bytes of a bulk ring. -/
def ChPort.bytes (p : ChPort) : Nat := (p.sizeM1 + 1) * 128
/-- Bytes a ring occupies from `base`. -/
def ChPort.extent (p : ChPort) : Nat := if p.small then 40 * p.slots else p.bytes

/-- Channels open into a port: its receive handles. -/
def Core.channelsInto (k : Core) (port : Nat) : List (Nat × Handle) :=
  k.handles.filter fun e => !e.2.send && e.2.port == port

/-- CH_PORT_CTRL as it reads (Table 5-1). -/
def ChPort.ctrl (p : ChPort) : DWord :=
  BitVec.ofNat 64 (p.error * 2 ^ 32 + p.handler * 2 ^ 17 + p.queue * 256 + p.kind * 2 + b2n p.publish)
/-- CH_PORT_RING as it reads. -/
def ChPort.ringWord (p : ChPort) : DWord := BitVec.ofNat 64 (p.sizeM1 * 2 ^ 32 + p.base.toNat)

/-- Published rings of an atoll other than port (c, i), as (offset, bytes). -/
def Atoll.otherRings (a : Atoll) (c i : Nat) : List (Nat × Nat) :=
  (a.cores.map fun k => (k.2.ports.filter fun p => p.2.publish && !(k.1 == c && p.1 == i)).map
    fun p => (laOffset p.2.base, p.2.extent)).flatten

/-- The publish checks (Table 5-1 `error`): the lowest code that applies, 0 when they pass. -/
def Atoll.publishError (a : Atoll) (c i : Nat) (p : ChPort) : Nat :=
  if p.kind = 3 then 4 else
  let o := laOffset p.base
  let e := o + p.extent
  if laTarget p.base ≠ 0 ∨ e > 0x1800000 ∨ o % 128 ≠ 0 ∨ bayOf o ≠ bayOf (e - 1) ∨ a.bayBlocked (bayOf o) then 1
  else if (a.otherRings c i).any fun r => decide (o < r.1 + r.2) && decide (r.1 < e) then 2
  else if p.small ∧ p.sizeM1 > 255 then 3
  else if p.kind = 1 ∧ p.queue > 23 then 4
  else 0

/-- R117: a write of CH_PORT_CTRL for the selected port. -/
def Atoll.writePortCtrl (a : Atoll) (c : Nat) (v : DWord) : Atoll :=
  let k := a.core c
  let i := k.sel.toNat
  let p := k.port i
  let q : ChPort := { p with kind := bits v.toNat 1 2, queue := bits v.toNat 8 5, handler := bits v.toNat 17 15 }
  let want := bits v.toNat 0 1 == 1
  let set (x : ChPort) : Atoll := a.modCore c fun y => y.modPort i fun _ => x
  if p.publish then
    if want then
      if q.kind ≠ p.kind ∨ q.queue ≠ p.queue ∨ q.handler ≠ p.handler then set { p with error := 6 } else a
    else if (k.channelsInto i).isEmpty then set { q with publish := false, error := 0, msgs := [], wr := 0 }
    else set { p with error := 5 }
  else if want then
    let e := a.publishError c i q
    set { q with publish := e == 0, error := e, msgs := [], wr := 0 }
  else set { q with error := 0 }

/-- R117: a write of CH_PORT_RING; ignored with error 6 while the port is published. -/
def Atoll.writePortRing (a : Atoll) (c : Nat) (v : DWord) : Atoll :=
  a.modCore c fun k => k.modPort k.sel.toNat fun p =>
    if p.publish then { p with error := 6 }
    else { p with sizeM1 := bits v.toNat 32 13, base := BitVec.ofNat 32 (bits v.toNat 0 32) }

/-! ### Freeing and closing -/

/-- Change a handle of core c of atoll g. -/
def State.modHandle (s : State) (g c h : Nat) (f : Handle → Handle) : State :=
  s.modAtoll g fun a => a.modCore c fun k => match Tbl.get? k.handles h with
    | some x => { k with handles := Tbl.set k.handles h (f x) }
    | none => k

/-- Free a handle. -/
def State.freeHandle (s : State) (g c h : Nat) : State :=
  s.modAtoll g fun a => a.modCore c fun k => { k with handles := Tbl.erase k.handles h }

/-- R122: a closing channel whose messages are all handled releases its reservation and both handles. -/
def State.settleClose (s : State) (p : Nat) (g c h : Nat) : State :=
  match Tbl.get? ((s.atoll g).core c).handles h with
  | none => s
  | some x =>
    if x.send ∧ x.closing ∧ x.out = 0 then
      let s1 := s.freeHandle g c h
      match s.atollAt p x.peerPos with
      | some r => if x.dead then s1 else s1.freeHandle r x.peerCore x.peerHandle
      | none => s1
    else s

/-- R122: close the send end with this handle. -/
def State.closeSend (s : State) (g c h : Nat) : State :=
  match Tbl.get? ((s.atoll g).core c).handles h, s.partOf g with
  | some x, some p =>
    if x.send ∧ ¬ x.connecting then
      (s.modHandle g c h fun y => { y with closing := true, out := if y.dead then 0 else y.out }).settleClose p g c h
    else s
  | _, _ => s

/-- R124, R125: the message at the head of a port's ring is handled: its slot or record is freed, and the channel's
outstanding count falls by its units. -/
def State.handled (s : State) (g c port : Nat) : State :=
  let k := (s.atoll g).core c
  let p := k.port port
  match p.msgs with
  | [] => s
  | m :: rest =>
    let off := laOffset p.base + (if p.small then 32 * p.slots + 8 * m.at_ else m.at_)
    let hdr := if p.small then [BitVec.ofNat 8 m.chan, BitVec.ofNat 8 (m.words - 1)] else [0]
    let s1 := s.modAtoll g fun a => (a.store off 0 hdr).modCore c fun x => x.modPort port fun q => { q with msgs := rest }
    match Tbl.get? k.handles m.chan, s.partOf g with
    | some r, some pt =>
      match s.atollAt pt r.peerPos with
      | some sg =>
        (s1.modHandle sg r.peerCore r.peerHandle fun x => { x with out := x.out - (if p.small then 1 else m.recLen / 32) }).settleClose
          pt sg r.peerCore r.peerHandle
      | none => s1
    | _, _ => s1

/-! ### Connecting (R119-R121) -/

/-- Return a value in rd and retire the custom instruction. -/
def State.coreRet (s : State) (g c rd : Nat) (v : DWord) : State :=
  s.modAtoll g fun a => a.modCore c fun k => (k.setReg rd v).advance 4

/-- The lowest free handle. -/
def Core.freeHandle? (k : Core) : Option Nat := (List.range 64).find? fun h => (Tbl.get? k.handles h).isNone

/-- CH.CONNECT: local checks, then the lowest free handle is taken and CONNECT sent (Table 5-4 step 1). -/
def execChConnect (g : Fin 320) (core : Fin 2) (rd rs1 rs2 : Fin 32) (s : State) : Host.Outcome State Fault Refusal :=
  .next (
    if !s.coreRuns g core then s
    else
      let k := (s.atoll g).core core
      let nm := (k.reg rs1).toNat
      let cap := (k.reg rs2).toNat
      let ret (n : Nat) : State := s.coreRet g core rd (negStatus n)
      if nm / 65536 ≠ 0 ∨ bits nm 5 3 ≠ 0 then ret 2
      else if cap = 0 ∨ cap > 32768 then ret 3
      else
        match s.positionOf g with
        | none => ret 5
        | some (p, pos) =>
          match k.freeHandle? with
          | none => ret 4
          | some h =>
            match s.atollAt p (bits nm 8 8) with
            | none => ret 5
            | some r =>
              let x : Handle := { send := true, peerPos := bits nm 8 8, peerCore := bits nm 4 1, peerHandle := 0,
                                  port := bits nm 0 4, bulk := false, cap := cap, out := 0, seq := 0, connecting := true,
                                  closing := false, dead := false, since := s.count }
              (s.modAtoll g fun a => a.modCore core fun y =>
                { y with handles := Tbl.set y.handles h x, block := .connect rd h s.count }).modAtoll r fun a =>
                { a with connIn := a.connIn ++ [{ fromPos := pos, fromCore := core, fromHandle := h, part := p,
                                                  core := bits nm 4 1, port := bits nm 0 4, reserved := false, cap := cap }] })

/-- The receiver's checks of a connect (Table 5-4 step 2): a negative status, or the free receive handle. -/
def State.connectCheck (s : State) (g : Nat) (r : ConnReq) : Except Nat Nat :=
  let a := s.atoll g
  let k := a.core r.core
  let p := k.port r.port
  let used := (k.channelsInto r.port).foldl (fun n e => n + e.2.cap) 0
  if a.inReset then .error 6
  else if s.partOf g ≠ some r.part ∨ (r.core = 1 ∧ ¬ a.split) then .error 5
  else if ¬ p.publish then .error 2
  else if (p.small ∧ (r.cap > 4096 ∨ used + r.cap > p.slots)) ∨ (¬ p.small ∧ (used + r.cap) * 32 + 4128 > p.bytes) then .error 3
  else
    match k.freeHandle? with
    | none => .error 4
    | some h => .ok h

/-- CONNECT_REQUEST (Table 5-4 steps 2 and 3). -/
def execConnectRequest (g : Fin 320) (s : State) : Host.Outcome State Fault Refusal :=
  .next (
    match (s.atoll g).connIn with
    | [] => s
    | r :: rest =>
      if !s.running then s
      else
        let s1 := s.modAtoll g fun a => { a with connIn := rest }
        let bulk := !(((s.atoll g).core r.core).port r.port).small
        let answer (t : State) (res : Int) (peer : Nat) : State :=
          match t.atollAt r.part r.fromPos with
          | some f => t.modAtoll f fun a => a.modCore r.fromCore fun k =>
              { k with answers := k.answers ++ [{ handle := r.fromHandle, result := res, peerHandle := peer, bulk := bulk }] }
          | none => t
        match s.connectCheck g r with
        | .error n => answer (if n = 6 then s1.absorb g else s1) (-(n : Int)) 0
        | .ok h =>
          let x : Handle := { send := false, peerPos := r.fromPos, peerCore := r.fromCore, peerHandle := r.fromHandle,
                              port := r.port, bulk := bulk, cap := r.cap, out := 0, seq := 0, connecting := false,
                              closing := false, dead := false, since := s.count }
          answer (s1.modAtoll g fun a => a.modCore r.core fun k => { k with handles := Tbl.set k.handles h x }) 0 h)

/-- CONNECT_ANSWER (Table 5-4 step 4): the waiting core gets its handle or a negative status. -/
def execConnectAnswer (g : Fin 320) (core : Fin 2) (s : State) : Host.Outcome State Fault Refusal :=
  .next (
    let k := (s.atoll g).core core
    match k.answers with
    | [] => s
    | r :: rest =>
      if !s.unitRuns g then s
      else
        let s1 := s.modAtoll g fun a => a.modCore core fun x => { x with answers := rest }
        match k.block with
        | .connect rd h _ =>
          if h ≠ r.handle then s1
          else if r.result < 0 then (s1.freeHandle g core h).coreRet g core rd (BitVec.ofInt 64 r.result)
          else
            (s1.modHandle g core h fun x => { x with connecting := false, peerHandle := r.peerHandle, bulk := r.bulk }).coreRet
              g core rd (BitVec.ofNat 64 h)
        | _ => s1)

/-- Unit ID of a scalar core as its records name it. -/
def State.coreUnit (s : State) (g c : Nat) : Word := scalarUnit g c (s.atoll g).split

/-- CONNECT_TIMEOUT (R120): no answer within 100 µs frees the handle and returns -7. -/
def execConnectTimeout (g : Fin 320) (core : Fin 2) (s : State) : Host.Outcome State Fault Refusal :=
  .next (
    match ((s.atoll g).core core).block with
    | .connect rd h _ =>
      if !s.unitRuns g then s
      else
        ((s.freeHandle g core h).coreRet g core rd (negStatus 7)).raise
          { unit := s.coreUnit g core, cls := clsTimeout, opKind := 9, opCode := 0x0B, part := s.partOf g,
            actions := actCounted, detail := [(32, 9), (33, h)] }
    | _ => s)

/-! ### Sending (R123, R126) -/

/-- Outcome of one try of a send: sent, no room yet, a negative status, or an access fault at an address. -/
inductive SendOut where
  | sent (s : State)
  | blocked
  | status (n : Nat)
  | fault (addr : DWord) (status : Nat)

/-- Place for a bulk record (R126): none to wait, else whether a pad goes first, and the record's offset. -/
def ChPort.bulkPlace (p : ChPort) (recLen : Nat) : Option (Bool × Nat) :=
  let r := p.bytes
  let w := if p.wr ≥ r then 0 else p.wr
  match p.msgs with
  | [] => if w + recLen ≤ r then some (false, w) else if recLen ≤ w then some (true, 0) else none
  | m :: _ =>
    let o := m.at_
    if o ≥ w then (if w + recLen ≤ o then some (false, w) else none)
    else if p.wr < r ∧ w + recLen ≤ r then some (false, w)
    else if recLen ≤ o then some (decide (p.wr < r), 0)
    else none

/-- Bytes of a small message's slot header (Table 5-2). -/
def slotHeader (chan seq words : Nat) : List Byte := leBytes 8 (chan + (words - 1) * 256 + 2048 + seq * 2 ^ 48)

/-- Bytes of a bulk record header (Table 5-5). -/
def recordHeader (type chan seq recLen bodyLen : Nat) : List Byte :=
  packBytes 32 [(0, type), (1, chan), (2, seq), (4, recLen), (8, bodyLen)]

/-- One try to send on handle h of core c of atoll g: `words` of a small message, or the bulk reference in the single
word. -/
def State.trySend (s : State) (g c h : Nat) (words : List DWord) (tuple : Bool) : SendOut :=
  match (if h > 63 then none else Tbl.get? ((s.atoll g).core c).handles h), s.partOf g with
  | some x, some pt =>
    if ¬ x.send ∨ x.connecting ∨ x.closing then .status 1
    else
      match s.atollAt pt x.peerPos with
      | none => .status 5
      | some r =>
        let a := s.atoll r
        let k := a.core x.peerCore
        let p := k.port x.port
        if a.inReset then .status 6
        else if x.dead ∨ ¬ p.publish then .status 2
        else
          let base := laOffset p.base
          let next (t : State) (m : PortMsg) (wr units : Nat) : State :=
            (t.modAtoll r fun b => b.modCore x.peerCore fun y => y.modPort x.port fun q =>
              { q with msgs := q.msgs ++ [m], wr := wr }).modHandle g c h fun y =>
              { y with out := y.out + units, seq := (y.seq + 1) % 65536 }
          if x.bulk then
            if tuple then .status 10
            else
              let v := ((words[0]?).getD 0).toNat
              let la := bits v 0 32
              let len := bits v 32 13
              let body := (len + 31) / 32 * 32
              let rl := 32 + body
              if v / 2 ^ 45 ≠ 0 ∨ len = 0 ∨ len > 4096 ∨ rl / 32 > x.cap then .status 10
              else if laTarget (BitVec.ofNat 32 la) ≠ 0 ∨ la % 32 ≠ 0 then .fault (BitVec.ofNat 64 (2 ^ 32 + la)) acBadAddress
              else
                match s.resolve g (BitVec.ofNat 32 la) len with
                | .error e => .fault (BitVec.ofNat 64 (2 ^ 32 + la)) e
                | .ok (t, off) =>
                  if (s.atoll t).poisoned off len then .fault (BitVec.ofNat 64 (2 ^ 32 + la)) acSymbol
                  else if x.out + rl / 32 > x.cap then .blocked
                  else
                    match p.bulkPlace rl with
                    | none => .blocked
                    | some (pad, at_) =>
                      let data := recordHeader 1 x.peerHandle x.seq rl len ++ Mem.readBytes (s.atoll t).lagoon off len
                        ++ List.replicate (body - len) 0
                      let s1 := if pad then s.modAtoll r fun b =>
                          b.store (base + p.wr) 0 (recordHeader 2 0 0 (p.bytes - p.wr) 0) else s
                      let s2 := s1.modAtoll r fun b => b.store (base + at_) 0 data
                      .sent (next s2 { chan := x.peerHandle, seq := x.seq, at_ := at_, words := 1, recLen := rl, bodyLen := len }
                        (at_ + rl) (rl / 32))
          else if x.out ≥ x.cap then .blocked
          else
            let slot := p.wr % p.slots
            let data := ((List.range 4).map fun w => leBytes 8 ((words[w]?).getD 0).toNat).flatten
            let s1 := s.modAtoll r fun b => (b.store (base + 32 * slot) 0 data).store (base + 32 * p.slots + 8 * slot) 0
              (slotHeader x.peerHandle x.seq words.length)
            .sent (next s1 { chan := x.peerHandle, seq := x.seq, at_ := slot, words := words.length, recLen := 0, bodyLen := 0 }
              ((slot + 1) % p.slots) 1)
  | _, _ => .status 1

/-- Table 5-11: an arrival at an atoll in reset is absorbed and counted. -/
def State.absorbPeer (s : State) (g c h : Nat) : State :=
  match Tbl.get? ((s.atoll g).core c).handles h, s.partOf g with
  | some x, some p =>
    match s.atollAt p x.peerPos with
    | some r => s.absorb r
    | none => s
  | _, _ => s

/-- CH.SEND of words already read; `tuple` for the tuple form. -/
def State.coreSend (s : State) (g c rd : Nat) (h : DWord) (words : List DWord) (tuple : Bool) : State :=
  match s.trySend g c h.toNat words tuple with
  | .sent t => t.coreRet g c rd 0
  | .status n => (if n = 6 then s.absorbPeer g c h.toNat else s).coreRet g c rd (negStatus n)
  | .fault a st => s.modAtoll g fun x => x.modCore c fun k => k.accessFault false a st
  | .blocked => s.modAtoll g fun x => x.modCore c fun k =>
      { k with block := .send rd h.toNat words (if tuple then none else some ((words[0]?).getD 0)) s.count }

/-- CH.SEND, one-word form (R123, R126). -/
def execChSend (g : Fin 320) (core : Fin 2) (rd rs1 rs2 : Fin 32) (s : State) : Host.Outcome State Fault Refusal :=
  .next (
    if !s.coreRuns g core then s
    else
      let k := (s.atoll g).core core
      s.coreSend g core rd (k.reg rs1) [k.reg rs2] false)

/-- CH.SEND, tuple form: the words stand in private SRAM (R123). -/
def execChSendTuple (g : Fin 320) (core : Fin 2) (wordsM1 : Fin 4) (rd rs1 rs2 : Fin 32) (s : State) :
    Host.Outcome State Fault Refusal :=
  .next (
    if !s.coreRuns g core then s
    else
      let k := (s.atoll g).core core
      let n := wordsM1.val + 1
      let ad := (k.reg rs2).toNat
      if ad + 8 * n > 0x10000 then
        s.modAtoll g fun a => a.modCore core fun x => x.accessFault false (k.reg rs2) acBadAddress
      else
        s.coreSend g core rd (k.reg rs1) ((List.range n).map fun w => BitVec.ofNat 64 (Mem.readNat k.sram (ad + 8 * w) 8)) true)

/-- CH_SEND_RESUME: a blocked send that finds room completes (R123, R126). -/
def execChSendResume (g : Fin 320) (core : Fin 2) (s : State) : Host.Outcome State Fault Refusal :=
  .next (
    match ((s.atoll g).core core).block with
    | .send rd h words bulk _ =>
      if !s.unitRuns g then s
      else
        match s.trySend g core h words bulk.isNone with
        | .sent t => t.coreRet g core rd 0
        | .status n => s.coreRet g core rd (negStatus n)
        | _ => s
    | _ => s)

/-- CHANNEL_STALL (R128): the send stays blocked, and the partition's step rolls back. -/
def execChannelStall (g : Fin 320) (core : Fin 2) (s : State) : Host.Outcome State Fault Refusal :=
  .next (
    match ((s.atoll g).core core).block with
    | .send _ h _ _ _ =>
      match Tbl.get? ((s.atoll g).core core).handles h, s.partOf g with
      | some x, some p =>
        if !s.unitRuns g then s
        else
          let u := s.coreUnit g core
          let seq := s.nextSeq u
          (s.raise { unit := u, cls := clsStall, opKind := 9, opCode := 0x0B, part := some p, actions := actRolled,
                     detail := [(32, h), (34, x.peerPos * 256 + x.peerCore * 16 + x.port), (36, x.cap), (38, x.seq)] }).trigger p
            { cls := clsStall, addr := none, position := none, recordSeq := seq }
      | _, _ => s
    | _ => s)

/-! ### Handling (R124, R125) -/

/-- The lowest published handler port that holds a message. -/
def Core.nextPort (k : Core) : Option (Nat × PortMsg) :=
  (List.range 16).findSome? fun i =>
    let p := k.port i
    if p.publish ∧ p.kind ≠ 1 then p.msgs.head?.map fun m => (i, m) else none

/-- Whether a core may take a handler: at an instruction boundary or blocked in a wait or a send of the main program. -/
def CoreBlock.dispatchable : CoreBlock → Bool
  | .connect .. => false
  | _ => true

/-- HANDLER_DISPATCH (R124). -/
def execHandlerDispatch (g : Fin 320) (core : Fin 2) (s : State) : Host.Outcome State Fault Refusal :=
  .next (
    let a := s.atoll g
    let k := a.core core
    match k.nextPort with
    | none => s
    | some (i, m) =>
      if s.unitRuns g ∧ k.running ∧ (a.split ∨ core = 0) ∧ ¬ k.mask ∧ k.active = none ∧ k.block.dispatchable then
        (s.dropWaits g core).modAtoll g fun b => b.modCore core fun x =>
          { x with active := some (i, m), epc := x.pc, pc := BitVec.ofNat 64 ((k.port i).handler * 2), block := .none }
      else s)

/-- Word w of the message a core handles (R124, R126). -/
def Atoll.recvWord (a : Atoll) (c w : Nat) : DWord :=
  let k := a.core c
  match k.active with
  | none => 0
  | some (i, m) =>
    let p := k.port i
    if p.small then
      if w < m.words then BitVec.ofNat 64 (Mem.readNat a.lagoon (laOffset p.base + 32 * m.at_ + 8 * w) 8) else 0
    else if w = 0 then BitVec.ofNat 64 (p.base.toNat + m.at_ + 32) else if w = 1 then BitVec.ofNat 64 m.bodyLen else 0

/-- CH.RECV (R124). -/
def execChRecv (g : Fin 320) (core : Fin 2) (rd rs1 : Fin 32) (s : State) : Host.Outcome State Fault Refusal :=
  .next (
    if !s.coreRuns g core then s
    else s.coreRet g core rd ((s.atoll g).recvWord core (((s.atoll g).core core).reg rs1).toNat))

/-- CH.HRET (R124): the message is handled and the core resumes at CH_EPC. Outside a handler it only resumes there. -/
def execChHret (g : Fin 320) (core : Fin 2) (s : State) : Host.Outcome State Fault Refusal :=
  .next (
    if !s.coreRuns g core then s
    else
      let s1 := match ((s.atoll g).core core).active with
        | some (i, m) => if (((s.atoll g).core core).port i).msgs.head? = some m then s.handled g core i else s
        | none => s
      s1.modAtoll g fun a => a.modCore core fun k => { k with active := none, pc := k.epc })

/-- CH_QUEUE_DELIVERY (R125): the message at the ring's head moves into the port's local queue. -/
def execChQueueDelivery (g : Fin 320) (core : Fin 2) (port : Fin 16) (s : State) : Host.Outcome State Fault Refusal :=
  .next (
    let a := s.atoll g
    let p := (a.core core).port port
    match p.msgs with
    | [] => s
    | m :: _ =>
      if s.unitRuns g ∧ p.publish ∧ p.kind = 1 ∧ (a.queue p.queue).enable ∧ (a.queue p.queue).room > 0 then
        let e : QEntry := { data := BitVec.ofNat 256 (Mem.readNat a.lagoon (laOffset p.base + 32 * m.at_) 32), token := false,
                            epoch := a.epoch }
        (s.modAtoll g fun b => b.pushQueue p.queue e).handled g core port
      else s)

/-- CH_PORT_PUBLISH: a write of CH_PORT_CTRL with `publish` set (R117). -/
def execChPortPublish (g : Fin 320) (core : Fin 2) (v : DWord) (s : State) : Host.Outcome State Fault Refusal :=
  .next (
    if s.coreRuns g core ∧ v.getLsbD 0 then
      s.modAtoll g fun a => (a.writePortCtrl core v).modCore core fun k => k.advance 4
    else s)

/-- CH_PORT_UNPUBLISH: a write of CH_PORT_CTRL with `publish` clear (R117). -/
def execChPortUnpublish (g : Fin 320) (core : Fin 2) (v : DWord) (s : State) : Host.Outcome State Fault Refusal :=
  .next (
    if s.coreRuns g core ∧ ¬ v.getLsbD 0 then
      s.modAtoll g fun a => (a.writePortCtrl core v).modCore core fun k => k.advance 4
    else s)

/-- CH_CLOSE: a write of CSR 0x7C6 (R122). -/
def execChClose (g : Fin 320) (core : Fin 2) (v : DWord) (s : State) : Host.Outcome State Fault Refusal :=
  .next (
    if s.coreRuns g core then
      (s.closeSend g core (bits v.toNat 0 6)).modAtoll g fun a => a.modCore core fun k => k.advance 4
    else s)

end Sys2Proof.Machine
end

