-- ==== Sys2Proof/Machine/SeqOps.lean ====
section
/-! DEFINITION. Unit sequencers (04 R76-R85, R93, Tables 4-1 to 4-5): one row per program entry. -/

namespace Sys2Proof.Machine

/-- `op` of a program entry. -/
def entOp (e : DWord) : Nat := bits e.toNat 58 6

/-- Bits that Table 4-2 names for an op, beside the op itself. -/
def entMask (op : Nat) : Nat :=
  ([0, 0xFF, 0xFFFFFFF, 0xFF07, 0xFF00, 0xFFFF00, 0x3, 0xFFFF0003, 0xFFFF003F, 0xFFFFFFFF003F, 0x71F, 0, 0][op]?).getD 0

/-- R77: the entries that halt with BAD_ENTRY before they act. -/
def badEntry (q : Sequencer) (e : DWord) : Bool :=
  let op := entOp e
  let b (lo n : Nat) : Nat := bits e.toNat lo n
  let n := q.prog.length
  decide (op > 0x0C) || ((e.toNat % 2 ^ 58) &&& (2 ^ 58 - 1 - entMask op)) != 0
    || ((op == 3 || op == 4) && decide (b 8 8 ≥ n)) || (op == 5 && decide (b 8 8 + b 16 8 ≥ n))
    || (op == 1 && decide (b 0 6 ≥ q.templates.length))
    || (op == 0x0A && (decide (b 0 5 ≥ 24) || b 8 2 == 3))

/-- Go on to entry `pc`, halting with BAD_ENTRY past the last one (R77). -/
def State.seqGo (s : State) (g u pc : Nat) : State :=
  if pc < ((s.atoll g).seq u).prog.length then
    s.modAtoll g fun a => a.modSeq u fun q => { q with pc := pc, state := .running, block := .none }
  else s.seqError g u 1

/-- The next entry. -/
def State.seqNext (s : State) (g u : Nat) : State := s.seqGo g u (((s.atoll g).seq u).pc + 1)

/-- Counter value and limit. -/
def Sequencer.ctr (q : Sequencer) (c : Nat) : Nat × Nat := Tbl.getD q.ctrs c (0, 0)
/-- Set a counter. -/
def Sequencer.setCtr (q : Sequencer) (c v l : Nat) : Sequencer := { q with ctrs := Tbl.set q.ctrs c (v, l) }

/-- Adjustable fields of a body: (slot, byte offset, width in bits, step unit) (Table 4-3). -/
def adjustFields (kind : Nat) : List (Nat × Nat × Nat × Nat) :=
  match kind with
  | 0 => [(0, 0, 32, 32), (1, 4, 32, 32), (2, 8, 32, 32), (3, 12, 32, 32), (4, 16, 32, 1), (5, 20, 32, 1), (6, 24, 32, 1),
          (7, 48, 64, 1)]
  | 1 => [(0, 4, 32, 32), (1, 8, 32, 32), (2, 12, 32, 32), (3, 16, 32, 32), (7, 28, 64, 1)]
  | _ => [(0, 4, 32, 32), (1, 8, 32, 32), (4, 12, 32, 1), (5, 16, 32, 1)]

/-- R79: the body of a template with its fields adjusted: kind 0 tile op, 1 vector operation, 2 bank command. -/
def adjustBody (q : Sequencer) (t : BitVec 1024) (kind : Nat) : Nat :=
  let term (slot k : Nat) : Int :=
    let w := fld t (64 + 8 * slot + 4 * k) 0 32
    if bits w 3 1 = 0 then 0 else ((q.ctr (bits w 0 3)).1 : Int) * signedOf 28 (w / 16)
  (adjustFields kind).foldl (fun body (slot, off, w, unit) =>
    let v : Int := (bits body (8 * off) w : Int) + (term slot 0 + term slot 1) * unit
    setBits body (8 * off) w (v % 2 ^ w).toNat) (t.toNat % 2 ^ 512)

/-- ISSUE (R79): none when the engine's issue queue is full and the sequencer waits. -/
def State.seqIssue (s : State) (g u : Nat) (e : DWord) : Option State :=
  let a := s.atoll g
  let q := a.seq u
  let id := q.issued
  let t := (q.templates[bits e.toNat 0 6]?).getD 0
  let src : OpSource := .seq u id
  let s0 := s.modAtoll g fun x => x.modSeq u fun y => { y with issued := id + 1, openOps := y.openOps ++ [id] }
  if bits e.toNat 7 1 = 1 then
    some (s0.modAtoll g fun x => { x with
      bankOps := x.bankOps ++ [{ cmd := BitVec.ofNat 256 (adjustBody q t 2), src := src, outcome := none }] })
  else if u < 4 then s0.issueTile g u (BitVec.ofNat 512 (adjustBody q t 0)) src
  else some (s0.issueVec g (u - 4) (VecOp.issued (BitVec.ofNat 320 (adjustBody q t 1)) src a.epoch (s.stepSeed g)))

/-- TAKE (R83). -/
def State.seqTake (s : State) (g u p : Nat) : State :=
  let a := s.atoll g
  let q := a.seq u
  let qn := q.inBind.getD p 0
  let waitOn : State := s.modAtoll g fun x => x.modSeq u fun y => { y with state := .waitQueue, block := .queue p }
  match (a.queue qn).ents with
  | [] =>
    if (a.queue qn).closed ∧ ¬ (a.queue qn).holds then
      s.modAtoll g fun x => x.modSeq u fun y => { y with state := .ended, block := .none }
    else waitOn
  | e :: _ =>
    if ¬ e.token then s.seqError g u 2
    else if e.kind > 3 then waitOn
    else
      let pop := s.modAtoll g fun x => x.popQueue qn
      let upd (f : Sequencer → Sequencer) : State := (pop.modAtoll g fun x => x.modSeq u f).seqNext g u
      match e.kind with
      | 2 => upd fun y => { y with select := BitVec.ofNat 13 e.arg }
      | 3 => upd fun y => { y with rep := Tbl.set y.rep p e.arg, served := Tbl.set y.served p 0 }
      | k =>
        match q.ctrBind.getD p none with
        | none => pop.seqError g u 1
        | some c =>
          if k = 0 then upd fun y => y.setCtr c 0 (e.arg + 1)
          else upd fun y => let l := (y.ctr c).2; y.setCtr c (l - 1) l

/-- EMIT (R85): the state unchanged while the port has no room or credit. -/
def State.seqEmit (s : State) (g u : Nat) (e : DWord) : State :=
  let a := s.atoll g
  let ob := (a.seq u).outBind.getD (bits e.toNat 0 2) 0
  let tok := bits e.toNat 16 16
  let kind := tok / 8192
  if kind = 5 ∨ kind = 7 ∨ bits ob 7 1 = 0 then s.seqError g u 1
  else
    let en := tokenEntry tok a.epoch
    let d := bits ob 0 5
    if d ≥ 24 then
      if a.laneCredits (d - 24) > 0 ∧ (s.mapped g (laneDir (d - 24))).isSome then (s.sendLane g (d - 24) en).seqNext g u
      else s
    else if a.ownRoom d then (s.modAtoll g fun x => { x with ownIn := x.ownIn ++ [(d, en)] }).seqNext g u
    else s

/-- The action of an entry whose checks passed (Table 4-2). -/
def State.seqAct (s : State) (g u : Nat) (e : DWord) : State :=
  let a := s.atoll g
  let q := a.seq u
  let b (lo n : Nat) : Nat := bits e.toNat lo n
  match entOp e with
  | 0x00 => s.seqNext g u
  | 0x01 =>
    match s.seqIssue g u e with
    | none => s
    | some t =>
      if b 6 1 = 1 then t.modAtoll g fun x => x.modSeq u fun y => { y with block := .completion q.issued }
      else t.seqNext g u
  | 0x02 => (s.modAtoll g fun x => x.modSeq u fun y =>
      y.setCtr (b 0 3) 0 (if b 3 1 = 1 then (y.ctr (b 0 3)).2 else b 4 24 + 1)).seqNext g u
  | 0x03 =>
    let (v, l) := q.ctr (b 0 3)
    if v < l then
      let s1 := s.modAtoll g fun x => x.modSeq u fun y => y.setCtr (b 0 3) (v + 1) l
      if v + 1 < l then s1.seqGo g u (b 8 8) else s1.seqNext g u
    else s.seqNext g u
  | 0x04 => s.seqGo g u (b 8 8)
  | 0x05 => if q.select.toNat ≤ b 16 8 then s.seqGo g u (b 8 8 + q.select.toNat) else s.seqError g u 3
  | 0x06 => s.seqTake g u (b 0 2)
  | 0x07 => s.seqEmit g u e
  | 0x08 => (s.signalAtoll g (b 0 6) (b 16 16)).seqNext g u
  | 0x09 =>
    if b 16 32 ≤ (a.obj (b 0 6)).toNat then s.seqNext g u
    else s.modAtoll g fun x => { x.modSeq u fun y =>
        { y with state := .waitSync, block := .sync (b 0 6) (BitVec.ofNat 32 (b 16 32)) } with
        waits := x.waits ++ [{ obj := b 0 6, target := BitVec.ofNat 32 (b 16 32), who := .seq g u }] }
  | 0x0A =>
    let k : CacheCmdKind := if b 8 2 = 0 then .flush else if b 8 2 = 1 then .invalidate else .flushInvalidate
    let s1 := (s.modAtoll g fun x => { x with
      cacheCmds := x.cacheCmds ++ [{ bay := b 0 5, kind := k, seq := some u, started := true }] }).seqNext g u
    if b 10 1 = 1 then s1.modAtoll g fun x => x.modSeq u fun y =>
      if y.state = .running then { y with block := .cache (b 0 5) } else y
    else s1
  | 0x0B =>
    if q.openOps.isEmpty then s.seqNext g u
    else s.modAtoll g fun x => x.modSeq u fun y => { y with block := .ops }
  | _ => s.modAtoll g fun x => x.modSeq u fun y => { y with state := .halted }

/-- Whether sequencer u may start an entry: running or waiting on its queue, not stopped by a CHECK, a freeze or a step
abort (R105, Table 10-4). -/
def State.seqReady (s : State) (g u : Nat) : Bool :=
  let a := s.atoll g
  let q := a.seq u
  s.unitRuns g && !((a.reconf.map AtollReconf.stopped).getD false) &&
    (match q.block with
     | .none => q.state == .running
     | .queue _ => q.state == .waitQueue
     | _ => false)

/-- R250: the duplicated control of a sequencer disagrees: LOCKSTEP_MISMATCH, the whole atoll fenced. -/
def State.seqMismatch (s : State) (g u point : Nat) (v0 v1 : DWord) : State :=
  let un := seqUnit g u
  let seq := s.nextSeq un
  (s.raise { unit := un, cls := clsLockstep, part := s.partOf g, scope := 2, actions := actFenced + actReplaced + actRolled,
             detail := [(32, ((s.atoll g).seq u).pc), (40, point), (44, v0.toNat), (52, v1.toNat)] }).fenceAtoll g un clsLockstep seq

/-- One program entry of sequencer u: a row acts when the current entry has its op; an entry that names no op halts under
every row (R77). -/
def State.seqRow (s : State) (g u code : Nat) (chk : CompareOutcome) : State :=
  if !s.seqReady g u then s
  else
    let q := (s.atoll g).seq u
    match q.prog[q.pc]? with
    | none => s.seqError g u 1
    | some e =>
      if entOp e ≠ code ∧ entOp e ≤ 0x0C then s
      else
        match chk with
        | .mismatch _ v0 v1 => s.seqMismatch g u 5 v0 v1
        | .pass => if badEntry q e then s.seqError g u 1 else s.seqAct g u e

/-- SEQ_COMPLETION (R80, Table 4-4). -/
def execSeqCompletion (g : Fin 320) (u : Fin 6) (s : State) : Host.Outcome State Fault Refusal :=
  .next (
    let q := (s.atoll g).seq u
    match q.inbox with
    | [] => s
    | (id, w) :: rest =>
      if !s.unitRuns g then s
      else
        let op := q.openOps.filter (· != id)
        let s1 := s.modAtoll g fun a => a.modSeq u fun y => { y with inbox := rest, openOps := op }
        let st := wordStatus w
        if st = stOk then
          if q.block = .completion id ∨ (q.block = .ops ∧ op.isEmpty) then s1.seqNext g u else s1
        else if q.state = .error ∨ q.state = .stopped then s1
        else if st = opAbandoned then
          s1.modAtoll g fun a => a.modSeq u fun y => { y with state := .stopped, block := .none }
        else
          let s2 := s1.modAtoll g fun a => a.modSeq u fun y => { y with opStatus := st }
          if st = opSymbol then
            let s3 := s2.modAtoll g fun a => a.modSeq u fun y => { y with state := .error, error := 4, block := .none }
            match s3.positionOf g with
            | some (p, pos) =>
              let ins := ((s3.part? p).bind fun x => Tbl.get? x.installer pos).getD (0, 0)
              s3.judge p ins.1 ins.2 (unitVerdict w none 0)
            | none => s3
          else s2.seqError g u 4)

/-- A queue input of a join that is empty, and one that is full with its spill region full or absent (R93). -/
def Atoll.starved (a : Atoll) (o : VecOp) : Option (Nat × Nat) :=
  let d := vecDesc o.desc
  let qs := (List.range (vecArity d.op)).filterMap d.srcQueue
  match qs.find? fun n => !(a.queue n).holds, qs.find? fun n => decide ((a.queue n).ents.length ≥ 16) && (a.queue n).room == 0 with
  | some e, some f => some (e, f)
  | _, _ => none

/-- JOIN_STARVE (R93): the join's sequencer halts and the operation ends; nothing is fenced. -/
def execJoinStarve (g : Fin 320) (v : Fin 2) (s : State) : Host.Outcome State Fault Refusal :=
  .next (
    let a := s.atoll g
    match (a.vec v).cur with
    | none => s
    | some o =>
      match a.starved o with
      | none => s
      | some (e, f) =>
        if !s.unitRuns g then s
        else
          let u := o.seqOf v
          ((s.raise { unit := seqUnit g u, cls := clsStarve, opKind := 2, opCode := (vecDesc o.desc).op, part := s.partOf g,
                      actions := actStopped, detail := [(32, u), (33, e), (34, f)] }).dropVec g v).seqError g u 5)

/-- Table 4-2, op 0x00. -/
def execSeqNop (g : Fin 320) (u : Fin 6) (chk : CompareOutcome) (s : State) : Host.Outcome State Fault Refusal :=
  .next (s.seqRow g u 0x00 chk)
/-- Table 4-2, op 0x01. -/
def execSeqIssue (g : Fin 320) (u : Fin 6) (chk : CompareOutcome) (s : State) : Host.Outcome State Fault Refusal :=
  .next (s.seqRow g u 0x01 chk)
/-- Table 4-2, op 0x02. -/
def execSeqLoop (g : Fin 320) (u : Fin 6) (chk : CompareOutcome) (s : State) : Host.Outcome State Fault Refusal :=
  .next (s.seqRow g u 0x02 chk)
/-- Table 4-2, op 0x03. -/
def execSeqEndloop (g : Fin 320) (u : Fin 6) (chk : CompareOutcome) (s : State) : Host.Outcome State Fault Refusal :=
  .next (s.seqRow g u 0x03 chk)
/-- Table 4-2, op 0x04. -/
def execSeqJump (g : Fin 320) (u : Fin 6) (chk : CompareOutcome) (s : State) : Host.Outcome State Fault Refusal :=
  .next (s.seqRow g u 0x04 chk)
/-- Table 4-2, op 0x05. -/
def execSeqBrsel (g : Fin 320) (u : Fin 6) (chk : CompareOutcome) (s : State) : Host.Outcome State Fault Refusal :=
  .next (s.seqRow g u 0x05 chk)
/-- Table 4-2, op 0x06. -/
def execSeqTake (g : Fin 320) (u : Fin 6) (chk : CompareOutcome) (s : State) : Host.Outcome State Fault Refusal :=
  .next (s.seqRow g u 0x06 chk)
/-- Table 4-2, op 0x07. -/
def execSeqEmit (g : Fin 320) (u : Fin 6) (chk : CompareOutcome) (s : State) : Host.Outcome State Fault Refusal :=
  .next (s.seqRow g u 0x07 chk)
/-- Table 4-2, op 0x08. -/
def execSeqSignal (g : Fin 320) (u : Fin 6) (chk : CompareOutcome) (s : State) : Host.Outcome State Fault Refusal :=
  .next (s.seqRow g u 0x08 chk)
/-- Table 4-2, op 0x09. -/
def execSeqWait (g : Fin 320) (u : Fin 6) (chk : CompareOutcome) (s : State) : Host.Outcome State Fault Refusal :=
  .next (s.seqRow g u 0x09 chk)
/-- Table 4-2, op 0x0A. -/
def execSeqCache (g : Fin 320) (u : Fin 6) (chk : CompareOutcome) (s : State) : Host.Outcome State Fault Refusal :=
  .next (s.seqRow g u 0x0A chk)
/-- Table 4-2, op 0x0B. -/
def execSeqOpwait (g : Fin 320) (u : Fin 6) (chk : CompareOutcome) (s : State) : Host.Outcome State Fault Refusal :=
  .next (s.seqRow g u 0x0B chk)
/-- Table 4-2, op 0x0C. -/
def execSeqHalt (g : Fin 320) (u : Fin 6) (chk : CompareOutcome) (s : State) : Host.Outcome State Fault Refusal :=
  .next (s.seqRow g u 0x0C chk)

end Sys2Proof.Machine
end

