-- ==== Sys2Proof/Machine/Dma.lean ====
section
/-! DEFINITION. Memory commands: the atoll's DMA port, DMA descriptors and stream-unit commands (06 R158-R163). -/

namespace Sys2Proof.Machine

/-! ### Queues of the stream units -/

/-- Stream unit u of shoal h. -/
def State.sunit (s : State) (h u : Nat) : StreamUnit := Tbl.getD (s.shoal h).units u StreamUnit.reset
/-- Change stream unit u of shoal h. -/
def State.modUnit (s : State) (h u : Nat) (f : StreamUnit → StreamUnit) : State :=
  s.modShoal h fun x => { x with units := Tbl.set x.units u (f (s.sunit h u)) }

/-- Work queued on a stream unit. -/
def StreamUnit.load (x : StreamUnit) : Nat := x.queue.length + (if x.cur.isSome then 1 else 0)

/-- Healthy stream units of a shoal. -/
def State.freeUnits (s : State) (h : Nat) : List Nat := (List.range 4).filter fun u => !s.isFenced (streamUnitId h u)

/-- Work queued on a shoal die. -/
def State.shoalLoad (s : State) (h : Nat) : Nat := (List.range 4).foldl (fun n u => n + (s.sunit h u).load) 0

/-- The unit of a shoal with least work. -/
def State.lightest (s : State) (h : Nat) : Option Nat :=
  (s.freeUnits h).foldl (fun a u => match a with
    | none => some u
    | some v => if (s.sunit h u).load < (s.sunit h v).load then some u else some v) none

/-- R137, R158: the shoal and unit a command of isle die d goes to: the die with less queued work, the other when all its
units are fenced. -/
def State.unitForDie (s : State) (d : Nat) : Option (Nat × Nat) :=
  let a := 2 * d
  let b := 2 * d + 1
  let order := if s.shoalLoad b < s.shoalLoad a then [b, a] else [a, b]
  order.findSome? fun h => (s.lightest h).map fun u => (h, u)

/-- R158: the unit the stream processor assigns a command to: the healthy unit of the module with least queued work, the lowest
one among equals (log entry 43). -/
def State.unitForStream (s : State) : Option (Nat × Nat) :=
  ((List.range 16).filterMap fun h => (s.lightest h).map fun u => (h, u)).foldl (fun a x => match a with
    | none => some x
    | some y => if (s.sunit x.1 x.2).load < (s.sunit y.1 y.2).load then some x else some y) none

/-- Put a command at the end of a unit's queue. -/
def State.enqueueMem (s : State) (h u : Nat) (c : MemCmd) : State :=
  { s.modUnit h u (fun x => { x with queue := x.queue ++ [c] }) with cmdOrder := s.cmdOrder + 1 }

/-- Every command queued or running. -/
def State.openMem (s : State) : List MemCmd :=
  ((List.range 16).map fun h => ((List.range 4).map fun u =>
    (s.sunit h u).queue ++ (match (s.sunit h u).cur with
      | some r => [r.cmd]
      | none => [])).flatten).flatten

/-- Whether two commands have one issuer: a port, or a stream. -/
def MemSource.same : MemSource → MemSource → Bool
  | .port g, .port h => g == h
  | .stream p st _, .stream q su _ => p == q && st == su
  | _, _ => false

/-- `fence`: an earlier command of the same issuer has not completed. -/
def State.memFenced (s : State) (c : MemCmd) : Bool :=
  flag c.img 1 1 && s.openMem.any fun d => d.src.same c.src && decide (d.order < c.order)

/-- Commands of a port that no unit has started (R158). -/
def State.portPosted (s : State) (g : Nat) : Nat :=
  ((List.range 16).foldl (fun n h => n + (List.range 4).foldl (fun m u =>
    m + ((s.sunit h u).queue.countP fun c => c.src == .port g)) 0) 0)

/-- R158: the store of v to offset 0x38 posts the 64 bytes; it waits while the port holds 16. -/
def State.postDma (s : State) (g core : Nat) (v : DWord) : State :=
  let c := (s.atoll g).coreIdx core
  match s.partOf g, s.unitForDie (g / 40) with
  | some p, some (h, u) =>
    if ¬ s.coreRuns g c ∨ s.portPosted g ≥ 16 then s
    else
      let img := BitVec.ofNat 512 (setBits (s.atoll g).dmaBuf.toNat 448 64 v.toNat)
      (s.modAtoll g fun a => ({ a with dmaBuf := img }).modCore c fun k => k.advance k.instrLen).enqueueMem h u
        { img := img, src := .port g, part := p, seed := s.stepSeed g, order := s.cmdOrder }
  | _, _ => s

/-- DMA_PORT_POST (R158). -/
def execDmaPortPost (g : Fin 320) (core : Fin 2) (v : DWord) (s : State) : Host.Outcome State Fault Refusal :=
  .next (s.postDma g core v)

/-- R161: a load from offset 0x40 pops the completion queue, 0 when it is empty. -/
def State.popDma (s : State) (g core rd : Nat) : State :=
  let c := (s.atoll g).coreIdx core
  if ¬ s.coreRuns g c then s
  else s.modAtoll g fun a => ({ a with dmaDone := a.dmaDone.drop 1 }).modCore c fun k =>
    (k.setReg rd ((a.dmaDone[0]?).getD 0)).advance k.instrLen

/-- DMA_COMPLETION_POP (R161). -/
def execDmaCompletionPop (g : Fin 320) (core : Fin 2) (rd : Fin 32) (s : State) : Host.Outcome State Fault Refusal :=
  .next (s.popDma g core rd)

/-! ### Checks -/

/-- Ranges of rows: start address, stride, row length, rows. -/
structure Rows where
  base : Nat
  stride : Nat
  len : Nat
  n : Nat

/-- Whether an address lies in a row. -/
def Rows.has (r : Rows) (a : Nat) : Bool :=
  decide (r.base ≤ a) &&
  (let o := a - r.base
   if r.stride = 0 then decide (o < r.len) else decide (o / r.stride < r.n) && decide (o % r.stride < r.len)
     || (r.n == 1 && decide (o < r.len)))

/-- The rows as (address, length). -/
def Rows.list (r : Rows) : List (Nat × Nat) := (List.range r.n).map fun i => (r.base + i * r.stride, r.len)

/-- Whether two sets of rows share a byte, all of them starting and ending on 32-byte units. -/
def Rows.meets (a b : Rows) : Bool :=
  a.list.any fun x => (List.range ((x.2 + 31) / 32)).any fun k => b.has (x.1 + 32 * k)

/-- Largest sync_obj of an issuer: 63 for a port. -/
def MemSource.objMax : MemSource → Nat
  | .port _ => 63
  | _ => 8191

/-- Checks of a DMA descriptor (Table 6-5, R159). -/
def dmaChecks (src : MemSource) (d : BitVec 512) : List Chk :=
  let copy := fld d 0 0 8 == 1
  let rows := fld d 8 0 20 + 1
  let len := (fld d 4 0 19 + 1) * 32
  [Chk.rsv 1 2 6, Chk.rsv 2 5 3, Chk.rsv 3 0 8, Chk.rsv 4 19 13, Chk.rsv 8 20 12, Chk.rsv 12 0 32,
   Chk.align 16 40 32, Chk.rsv 16 40 24, Chk.align 24 40 32, Chk.rsv 24 40 24, Chk.align 32 32 32, Chk.align 36 32 32,
   Chk.rsv 40 13 3, Chk.test 40 false (fun _ => copy && fld d 40 0 13 != 0), Chk.rsv 42 10 6,
   Chk.test 42 false (fun _ => copy && fld d 42 0 10 != 0), Chk.test 44 false (fun _ => copy && fld d 44 0 32 != 0)]
  ++ Chk.bytes 48 59 ++
  [Chk.rsv 60 13 3, Chk.max 60 0 13 src.objMax,
   Chk.test 4 false fun _ => decide (rows * len > 4294967264) || (decide (rows > 1) && decide (fld d 36 0 32 < len))]

/-- The fields of a stream-unit command (Table 6-7). -/
structure SuCmd where
  op : Nat
  supplied : Bool
  stoch : Bool
  sf : Fmt
  df : Fmt
  sfCode : Nat
  dfCode : Nat
  cols : Nat
  rows : Nat
  stride : Nat
  src : Nat
  dst : Nat
  aux : Nat
  aux2 : Nat
  tensor : Word
  index : DWord

/-- Decode of Table 6-7. -/
def suCmd (d : BitVec 512) : SuCmd :=
  { op := fld d 0 0 8, supplied := flag d 1 2, stoch := flag d 1 3, sf := (Fmt.ofCode (fld d 2 0 5)).getD .raw,
    df := (Fmt.ofCode (fld d 3 0 5)).getD .raw, sfCode := fld d 2 0 5, dfCode := fld d 3 0 5,
    cols := fld d 4 0 24 + 1, rows := fld d 8 0 24 + 1, stride := fld d 12 0 32, src := fld d 16 0 40,
    dst := fld d 24 0 40, aux := fld d 32 0 40, aux2 := fld d 40 0 40, tensor := BitVec.ofNat 32 (fld d 48 0 32),
    index := BitVec.ofNat 64 (fld d 52 0 64) }

/-- Bytes of a source row. -/
def SuCmd.srcRow (c : SuCmd) : Nat := rowBytes c.sf c.cols
/-- Bytes of an output row. -/
def SuCmd.dstRow (c : SuCmd) : Nat := rowBytes c.df c.cols

/-- The source rows an operation reads (SCATTER's lie one after the other). -/
def SuCmd.srcRows (c : SuCmd) : Rows :=
  { base := c.src, stride := if c.op = 0x11 then c.srcRow else c.stride, len := c.srcRow, n := c.rows }

/-- The outputs of an operation as rows; SCATTER's table rows and GATHER's source rows lie where the indices say. -/
def SuCmd.outs (c : SuCmd) : List Rows :=
  let one (b n : Nat) : Rows := { base := b, stride := 0, len := n, n := 1 }
  match c.op with
  | 0x10 => [one c.dst (c.rows * c.srcRow)]
  | 0x11 => [{ base := c.dst, stride := c.stride, len := c.srcRow, n := c.aux2 }]
  | 0x20 => one c.dst c.dstRow :: (if c.df = .grid192 then [one c.aux (2 * c.cols)] else [])
  | 0x30 => [one c.dst (c.rows * c.dstRow), one c.aux2 (c.rows * (c.cols / 32))]
  | 0x31 => [one c.dst (c.rows * c.dstRow)]
  | _ => [one c.dst (rowBytes c.df (3 * c.rows)), one c.aux2 (rowBytes c.df (3 * c.cols))]

/-- Whether a code is a summing source format. -/
def sumSource (n : Nat) : Bool := (decide (1 ≤ n) && decide (n ≤ 5)) || (decide (0xC ≤ n) && decide (n ≤ 0x10))
/-- FP32, FP16 or BF16. -/
def floatCode (n : Nat) : Bool := decide (1 ≤ n) && decide (n ≤ 3)
/-- An MX code. -/
def mxCode (n : Nat) : Bool := decide (6 ≤ n) && decide (n ≤ 0xB)

/-- Source formats Table 6-8 gives. -/
def SuCmd.srcOk (c : SuCmd) : Bool :=
  match c.op with
  | 0x20 | 0x40 => sumSource c.sfCode
  | 0x30 => floatCode c.sfCode
  | 0x31 => mxCode c.sfCode
  | _ => decide (c.sfCode ≤ 0x11)

/-- Output formats Table 6-8 gives. -/
def SuCmd.dstOk (c : SuCmd) : Bool :=
  match c.op with
  | 0x20 => floatCode c.dfCode || c.dfCode == 0x11
  | 0x30 => mxCode c.dfCode
  | 0x31 | 0x40 => floatCode c.dfCode
  | _ => true

/-- Whether an operation reads or writes at `aux` (Table 6-8). -/
def SuCmd.usesAux (c : SuCmd) : Bool :=
  match c.op with
  | 0x20 => c.supplied || c.df == .grid192
  | 0x40 => c.supplied
  | 0x30 => false
  | _ => true

/-- Checks of a stream-unit command (R162, R448). -/
def suChecks (src : MemSource) (d : BitVec 512) : List Chk :=
  let c := suCmd d
  let t (off : Nat) (b : Bool) : Chk := Chk.test off false fun _ => b
  let mx := c.op == 0x30 || c.op == 0x31
  let srcRows : Rows := if c.op = 0x10 then { c.srcRows with n := c.aux2 } else c.srcRows
  [Chk.rsv 1 4 4, Chk.rsv 2 5 3, t 2 (!c.srcOk), Chk.rsv 3 5 3, t 3 (!c.dstOk), Chk.rsv 4 24 8, t 4 (mx && c.cols % 32 != 0),
   Chk.rsv 8 24 8, Chk.align 12 32 32, Chk.align 16 40 32, Chk.rsv 16 40 24, Chk.align 24 40 32, Chk.rsv 24 40 24,
   t 32 (c.usesAux && c.aux % 32 != 0), Chk.rsv 32 40 24, t 40 ((c.op == 0x30 || c.op == 0x40) && c.aux2 % 32 != 0), Chk.rsv 40 40 24, Chk.rsv 60 13 3,
   Chk.max 60 0 13 src.objMax,
   t 2 (c.srcRow % 32 != 0), t 3 (mx && c.dstRow % 32 != 0),
   t 2 (c.outs.any fun o => srcRows.list.any fun x => (List.range ((x.2 + 31) / 32)).any fun k => o.has (x.1 + 32 * k)),
   t 3 (match c.outs with
        | [a, b] => a.meets b
        | _ => false)]

/-! ### Reading and computing -/

/-- Outcome of the read pass of a command: how far it reads, and what it will write (address, tag, bytes). -/
structure Plan where
  status : Nat
  low : Bool
  addr : Option Nat
  writes : List (Nat × Nat × List Byte)

/-- Nothing written. -/
def Plan.fail (st : Nat) (a : Nat) : Plan := { status := st, low := false, addr := some a, writes := [] }

/-- Read a run in 32-byte units: the bytes before the first failure, its status and address. -/
def State.readUnits : Nat → State → Option Nat → Nat → Nat → State × Nat × Nat × List Byte
  | 0, s, _, a, _ => (s, stOk, a, [])
  | k + 1, s, who, a, n =>
    if n = 0 then (s, stOk, a, []) else
    let m := min n 32
    match s.pread who a m with
    | (s1, st, bs) =>
      if st ≠ stOk then (s1, st, a, [])
      else
        match State.readUnits k s1 who (a + m) (n - m) with
        | (s2, st2, a2, more) => (s2, st2, a2, bs ++ more)

/-- Read a run. -/
def State.readMem (s : State) (who : Option Nat) (a n : Nat) : State × Nat × Nat × List Byte :=
  State.readUnits (n / 32 + 2) s who a n

/-- Read rows in order: whole rows, the bytes of the row that fails, its status and address. -/
def State.readRows : List (Nat × Nat) → State → Option Nat → State × Nat × Nat × List (List Byte)
  | [], s, _ => (s, stOk, 0, [])
  | (a, n) :: rs, s, who =>
    match s.readMem who a n with
    | (s1, st, fa, bs) =>
      if st ≠ stOk then (s1, st, fa, [bs])
      else
        match State.readRows rs s1 who with
        | (s2, st2, fa2, more) => (s2, st2, fa2, bs :: more)

/-- COPY: every row read goes to its destination row; a byte whose source is itself overwritten by the command is free
(R160, log entry 7). -/
def State.planCopy (s : State) (c : MemCmd) : State × Plan :=
  let d := c.img
  let len := (fld d 4 0 19 + 1) * 32
  let n := fld d 8 0 20 + 1
  let src : Rows := { base := fld d 16 0 40, stride := fld d 32 0 32, len := len, n := n }
  let dst : Rows := { base := fld d 24 0 40, stride := fld d 36 0 32, len := len, n := n }
  match State.readRows src.list s (some c.part) with
  | (s1, st, fa, rows) =>
    let clash := src.meets dst
    let data := rows.zipIdx.map fun x =>
      (dst.base + x.2 * dst.stride, fld d 2 0 5,
       if clash then x.1.zipIdx.map fun b =>
         if dst.has (src.base + x.2 * src.stride + b.2) then Config.copyByte s.freeCtr (dst.base + x.2 * dst.stride + b.2) else b.1
       else x.1)
    (if clash then s1.freshen else s1,
      { status := st, low := false, addr := if st = stOk then none else some fa, writes := data.filter fun w => !w.2.2.isEmpty })

/-- The row indices of GATHER and SCATTER: the whole list, read before any row moves. -/
def State.readIndices (s : State) (who : Option Nat) (c : SuCmd) : State × Nat × Nat × List Nat :=
  match s.readMem who c.aux (4 * c.rows) with
  | (s1, st, fa, bs) => (s1, st, fa, elemsOf .int32 bs c.rows)

/-- An index names a row of the table: not negative and below the limit. -/
def SuCmd.indexOk (c : SuCmd) (x : Nat) : Bool := decide (x < 2147483648) && decide (x < c.aux2)

/-- GATHER and SCATTER. -/
def State.planMove (s : State) (m : MemCmd) : State × Plan :=
  let c := suCmd m.img
  let who := some m.part
  match s.readIndices who c with
  | (s1, st, fa, xs) =>
    if st ≠ stOk then (s1, Plan.fail st fa) else
    let good := xs.takeWhile c.indexOk
    let from_ (i x : Nat) : Nat × Nat := if c.op = 0x10 then (c.src + x * c.stride, c.srcRow) else (c.src + i * c.srcRow, c.srcRow)
    let dest (i x : Nat) : Nat := if c.op = 0x10 then c.dst + i * c.srcRow else c.dst + x * c.stride
    match State.readRows (good.zipIdx.map fun x => from_ x.2 x.1) s1 who with
    | (s2, st2, fa2, rows) =>
      let ws := (rows.zip good.zipIdx).map fun x => (dest x.2.2 x.2.1, c.dfCode, x.1)
      (s2, { status := if st2 ≠ stOk then st2 else if good.length < c.rows then opBadAddress else stOk, low := false,
             addr := if st2 ≠ stOk then some fa2 else none, writes := ws.filter fun w => !w.2.2.isEmpty })

/-- Rounding of an output element of a stream unit: R33, or R34 with its index (R39). -/
def SuCmd.md (c : SuCmd) (seed : DWord) (i : Nat) : Rounding := Rounding.of c.stoch seed c.tensor (c.index + BitVec.ofNat 64 i)

/-- Whether a term lies above a supplied apex. -/
def aboveApex (e : Int) (t : Val) : Bool :=
  match t with
  | .fin _ m x => m != 0 && decide (log2Val m x > e)
  | _ => false

/-- A sum under an E_ref: NaN, with the low mark, where a supplied apex lies below a term (R29, R163). -/
def suppliedSum (e : Int) (supplied : Bool) (ts : List Val) : Acc × Bool :=
  let a := termsAcc e ts
  if supplied && ts.any (aboveApex e) then ({ a with nan := true }, true) else (a, false)

/-- Columns of a list of rows. -/
def column (rows : List (List Val)) (j : Nat) : List Val := rows.map fun r => (r[j]?).getD .zero

/-- REDUCE_SUM (R163, R41). -/
def State.planReduce (s : State) (m : MemCmd) : State × Plan :=
  let c := suCmd m.img
  let who := some m.part
  match State.readRows c.srcRows.list s who with
  | (s1, st, fa, rows) =>
    if st ≠ stOk then (s1, Plan.fail st fa) else
    match if c.supplied then s1.readMem who c.aux (2 * ((c.cols + 31) / 32)) else (s1, stOk, 0, []) with
    | (s2, st2, fa2, tile) =>
      if st2 ≠ stOk then (s2, Plan.fail st2 fa2) else
      let vals := rows.map fun bs => (unpackRun c.sf bs c.cols).map c.sf.dec
      let apexOfBlock (b : Nat) : Half :=
        if c.supplied then BitVec.ofNat 16 (leNat ((tile.drop (2 * b)).take 2))
        else (vals.map fun r => apexOf ((r.drop (32 * b)).take 32)).foldl apexCombine (apexMk false false false none)
      let cols := (List.range c.cols).map fun j =>
        let e := apexExp (apexOfBlock (j / 32))
        (e, suppliedSum e c.supplied (column vals j))
      let low := cols.any fun x => x.2.2
      let out := if c.df = .grid192 then
          [(c.dst, 0x11, packRun .grid192 c.dstRow (cols.map fun x => x.2.1.gridBits.toNat)),
           (c.aux, 0, (cols.map fun x => leBytes 2 (apexMk x.2.1.nan x.2.1.pinf x.2.1.ninf
              (if x.1 = -4096 then none else some x.1)).toNat).flatten)]
        else [(c.dst, c.dfCode, packRun c.df c.dstRow (cols.zipIdx.map fun x =>
          c.df.enc (c.md m.seed x.2) (x.1.2.1.value x.1.1)))]
      (s2, { status := stOk, low := low, addr := none, writes := out })

/-- MX_COMPRESS (R36): row by row, element rows and their scale bytes. -/
def State.planCompress (s : State) (m : MemCmd) : State × Plan :=
  let c := suCmd m.img
  match State.readRows c.srcRows.list s (some m.part) with
  | (s1, st, fa, rows) =>
    let whole := if st = stOk then rows else rows.dropLast
    let ws := (whole.zipIdx.map fun x =>
      let r := encRun c.df (fun i => c.md m.seed (x.2 * c.cols + i)) ((unpackRun c.sf x.1 c.cols).map c.sf.dec)
      [(c.dst + x.2 * c.dstRow, c.dfCode, packRun c.df c.dstRow r.1), (c.aux2 + x.2 * (c.cols / 32), 0, r.2)]).flatten
    (s1, { status := st, low := false, addr := if st = stOk then none else some fa, writes := ws })

/-- MX_DECOMPRESS. -/
def State.planDecompress (s : State) (m : MemCmd) : State × Plan :=
  let c := suCmd m.img
  let who := some m.part
  match s.readMem who c.aux (c.rows * (c.cols / 32)) with
  | (s0, st0, fa0, scales) =>
    if st0 ≠ stOk then (s0, Plan.fail st0 fa0) else
    match State.readRows c.srcRows.list s0 who with
    | (s1, st, fa, rows) =>
      let whole := if st = stOk then rows else rows.dropLast
      let ws := whole.zipIdx.map fun x =>
        let vs := runVals c.sf (unpackRun c.sf x.1 c.cols) (scales.drop (x.2 * (c.cols / 32)))
        (c.dst + x.2 * c.dstRow, c.dfCode, packRun c.df c.dstRow
          (vs.zipIdx.map fun v => c.df.enc (c.md m.seed (x.2 * c.cols + v.2)) v.1))
      (s1, { status := st, low := false, addr := if st = stOk then none else some fa, writes := ws })

/-- The three statistics of a row or column (R246): sum, sum of squares and maximum, with their E_refs. -/
def factorStats (eSum eSq : Int) (supplied : Bool) (vs : List Val) : Acc × Acc × Val × Bool :=
  let a := suppliedSum eSum supplied vs
  let q := suppliedSum eSq supplied (vs.map fun v => v.mul v)
  let m := match vs with
    | [] => Val.zero
    | v :: r => r.foldl Val.maximum v
  (a.1, q.1, m, a.2 || q.2)

/-- E_refs of a row or column from its computed apex (R40). -/
def factorERef (vs : List Val) : Int × Int :=
  let e := apexExp (apexOf vs)
  (e, if e = -4096 then -4096 else 2 * e + 1)

/-- FACTOR_STATS (R163, R246): rows at `dst`, columns at `aux2`; a supplied tile holds a word per output element. -/
def State.planFactor (s : State) (m : MemCmd) : State × Plan :=
  let c := suCmd m.img
  let who := some m.part
  match State.readRows c.srcRows.list s who with
  | (s1, st, fa, rows) =>
    if st ≠ stOk then (s1, Plan.fail st fa) else
    match if c.supplied then s1.readMem who c.aux (2 * (3 * c.rows + 3 * c.cols)) else (s1, stOk, 0, []) with
    | (s2, st2, fa2, tile) =>
      if st2 ≠ stOk then (s2, Plan.fail st2 fa2) else
      let vals := rows.map fun bs => (unpackRun c.sf bs c.cols).map c.sf.dec
      let word (i : Nat) : Int := apexExp (BitVec.ofNat 16 (leNat ((tile.drop (2 * i)).take 2)))
      let group (base : Nat) (vs : List Val) : (Int × Int) × (Acc × Acc × Val × Bool) :=
        let e := if c.supplied then (word base, word (base + 1)) else factorERef vs
        (e, factorStats e.1 e.2 c.supplied vs)
      let outs (base : Nat) (gs : List ((Int × Int) × (Acc × Acc × Val × Bool))) : List Nat :=
        (gs.zipIdx.map fun x => [c.df.enc (c.md m.seed (base + 3 * x.2)) (x.1.2.1.value x.1.1.1),
          c.df.enc (c.md m.seed (base + 3 * x.2 + 1)) (x.1.2.2.1.value x.1.1.2),
          c.df.enc (c.md m.seed (base + 3 * x.2 + 2)) x.1.2.2.2.1]).flatten
      let rs := vals.zipIdx.map fun x => group (3 * x.2) x.1
      let cs := (List.range c.cols).map fun j => group (3 * c.rows + 3 * j) (column vals j)
      (s2, { status := stOk, low := (rs ++ cs).any fun x => x.2.2.2.2, addr := none,
             writes := [(c.dst, c.dfCode, packRun c.df (rowBytes c.df (3 * c.rows)) (outs 0 rs)),
                        (c.aux2, c.dfCode, packRun c.df (rowBytes c.df (3 * c.cols)) (outs (3 * c.rows) cs))] })

/-! ### Starting a command -/

/-- The DRAM a command reads, for the snoop filter; GATHER's rows count as their whole table. -/
def memReads (d : BitVec 512) : List (Nat × Nat × Bool) :=
  if fld d 0 0 8 ≤ 2 then
    (List.range (fld d 8 0 20 + 1)).map fun i => (fld d 16 0 40 + i * fld d 32 0 32, (fld d 4 0 19 + 1) * 32, false)
  else
    let c := suCmd d
    let n := if c.op = 0x10 then c.aux2 else c.rows
    ((List.range n).map fun i => (c.src + i * c.srcRows.stride, c.srcRow, false)) ++
    (match c.op with
     | 0x10 | 0x11 => [(c.aux, 4 * c.rows, false)]
     | 0x31 => [(c.aux, c.rows * (c.cols / 32), false)]
     | 0x20 => if c.supplied then [(c.aux, 2 * ((c.cols + 31) / 32), false)] else []
     | _ => if c.supplied then [(c.aux, 2 * (3 * c.rows + 3 * c.cols), false)] else [])

/-- The queue a unit takes its next command from: its own, that of a fenced unit of its die, or that of the sibling die when
all four of its units are fenced (R137). -/
def State.memQueue (s : State) (h u : Nat) : Option (Nat × Nat × MemCmd) :=
  let at_ (x v : Nat) : Option (Nat × Nat × MemCmd) := ((s.sunit x v).queue[0]?).map fun c => (x, v, c)
  let sib := if h % 2 = 0 then h + 1 else h - 1
  match at_ h u with
  | some c => some c
  | none =>
    match (List.range 4).findSome? fun v => if s.isFenced (streamUnitId h v) then at_ h v else none with
    | some c => some c
    | none => if (s.freeUnits sib).isEmpty then (List.range 4).findSome? fun v => at_ sib v else none

/-- Whether a row for operation `code` runs a command: an unused code counts for every row. -/
def memOpIs (code op : Nat) : Bool :=
  code == op || !(op == 1 || op == 2 || op == 0x10 || op == 0x11 || op == 0x20 || op == 0x30 || op == 0x31 || op == 0x40)

/-- A newly uncorrectable source word: decoded where it lies, poisoned from then on. -/
def State.badWord (s : State) (who : Option Nat) (bad : Option Nat) (op : Nat × Nat := (0, 0)) : State :=
  match bad with
  | none => s
  | some a =>
    match s.place who a false with
    | .ok pl => s.placeDecode who pl (.uncorrectable 3) 0 op
    | .error _ => s

/-- Take the command off its queue and put its run on the unit. -/
def State.startRun (s : State) (h u x v : Nat) (r : MemRun) : State :=
  ((s.modUnit x v fun q => { q with queue := q.queue.drop 1 }).modUnit h u fun q => { q with cur := some r }).touchUnit
    (streamUnitId h u) r.cmd.part

/-- A run that ends as a plan says. -/
def Plan.run (p : Plan) (c : MemCmd) (unacked : Nat := 0) : MemRun :=
  { cmd := c, status := p.status, offset := 0, bytesDone := 0, apexLow := p.low, unacked := unacked, writes := p.writes,
    addr := p.addr.map (BitVec.ofNat 64) }

/-- A command refused at a field. -/
def MemRun.refused (c : MemCmd) (off : Nat) : MemRun :=
  { cmd := c, status := opBadDesc, offset := off, bytesDone := 0, apexLow := false, unacked := 0, writes := [], addr := none }

/-- Start the next command of unit (h, u) when it has operation `code`: checks, then `go` for its read pass. -/
def State.memRow (s : State) (h u code : Nat) (bad : Option Nat)
    (go : State → MemCmd → State × MemRun) : State :=
  if ¬ s.running ∨ s.isFenced (streamUnitId h u) ∨ (s.sunit h u).cur.isSome then s
  else
    match s.memQueue h u with
    | none => s
    | some (x, v, c) =>
      let op := fld c.img 0 0 8
      if s.memFenced c ∨ ¬ memOpIs code op then s
      else
        let cs := if op = 1 ∨ op = 2 then dmaChecks c.src c.img else suChecks c.src c.img
        if op ≠ code then s.startRun h u x v (MemRun.refused c 0)
        else
          match firstBad c.img.toNat cs with
          | some k => s.startRun h u x v (MemRun.refused c k.off)
          | none =>
            s.biThen (memReads c.img)
              (fun t => t.startRun h u x v { MemRun.refused c 0 with status := opTimeout }) fun t =>
              match go (t.badWord (some c.part) bad (4, fld c.img 0 0 8)) c with
              | (t1, r) => t1.startRun h u x v r

/-- The same for the operations that run on the module alone. -/
def State.memLocal (s : State) (h u code : Nat) (bad : Option Nat) (plan : State → MemCmd → State × Plan) : State :=
  s.memRow h u code bad fun t c =>
    match plan t c with
    | (t1, p) => (t1, p.run c)

/-- DMA_COPY (R159, R160). -/
def execDmaCopy (h : Fin 16) (u : Fin 4) (bad : Option Nat) (s : State) : Host.Outcome State Fault Refusal :=
  .next (s.memLocal h u 1 bad State.planCopy)
/-- GATHER (Table 6-8). -/
def execGather (h : Fin 16) (u : Fin 4) (bad : Option Nat) (s : State) : Host.Outcome State Fault Refusal :=
  .next (s.memLocal h u 0x10 bad State.planMove)
/-- SCATTER. -/
def execScatter (h : Fin 16) (u : Fin 4) (bad : Option Nat) (s : State) : Host.Outcome State Fault Refusal :=
  .next (s.memLocal h u 0x11 bad State.planMove)
/-- REDUCE_SUM. -/
def execReduceSum (h : Fin 16) (u : Fin 4) (bad : Option Nat) (s : State) : Host.Outcome State Fault Refusal :=
  .next (s.memLocal h u 0x20 bad State.planReduce)
/-- MX_COMPRESS. -/
def execMxCompress (h : Fin 16) (u : Fin 4) (bad : Option Nat) (s : State) : Host.Outcome State Fault Refusal :=
  .next (s.memLocal h u 0x30 bad State.planCompress)
/-- MX_DECOMPRESS. -/
def execMxDecompress (h : Fin 16) (u : Fin 4) (bad : Option Nat) (s : State) : Host.Outcome State Fault Refusal :=
  .next (s.memLocal h u 0x31 bad State.planDecompress)
/-- FACTOR_STATS. -/
def execFactorStats (h : Fin 16) (u : Fin 4) (bad : Option Nat) (s : State) : Host.Outcome State Fault Refusal :=
  .next (s.memLocal h u 0x40 bad State.planFactor)

/-! ### Completion -/

/-- Write outputs in order until one fails: the state, the status and the bytes written. -/
def State.writeAll : List (Nat × Nat × List Byte) → State → Option Nat → State × Nat × Nat
  | [], s, _ => (s, stOk, 0)
  | (a, tag, bs) :: r, s, who =>
    match s.pwrite who a (BitVec.ofNat 5 tag) bs with
    | (s1, st, n) =>
      if st ≠ stOk then (s1, st, n)
      else
        match State.writeAll r s1 who with
        | (s2, st2, n2) => (s2, st2, n + n2)

/-- Put staging banks (16 * shoal + bank) that are closing or draining into a state. -/
def State.setBanks (s : State) (bs : List Nat) (st : BankState) : State :=
  bs.foldl (fun t k => if t.bank (k / 16) (k % 16) = .off then t
    else t.modShoal (k / 16) fun x => { x with banks := Tbl.set x.banks (k % 16) st }) s

/-- R155: write outputs, those into banks that accepted them before they closed included. -/
def State.writeAccepted (s : State) (bs : List Nat) (ws : List (Nat × Nat × List Byte)) (who : Option Nat) : State × Nat × Nat :=
  match State.writeAll ws (s.setBanks bs .on) who with
  | (t, st, n) => (t.setBanks bs .draining, st, n)

/-- R59: an output touches a lagoon line that some tile op in flight holds. -/
def State.outputsHeld (s : State) (who : Option Nat) (ws : List (Nat × Nat × List Byte)) : Bool :=
  ws.any fun w => (List.range ((w.2.2.length + 127) / 128 + 1)).any fun i =>
    match s.place who (w.1 + i * 128) true with
    | .ok (.lagoon g off) => s.writeHeld g (off / 128 * 128) 128
    | _ => false

/-- Whether a completion word can be delivered: a port's queue holds 8. -/
def State.canDeliverMem (s : State) (src : MemSource) : Bool :=
  match src with
  | .port g => decide ((s.atoll g).dmaDone.length < 8)
  | .stream .. => true

/-- R161: deliver a completion word. One whose atoll is in reset is lost and signals nothing. -/
def State.deliverMem (s : State) (r : MemRun) (w : DWord) : State :=
  match r.cmd.src with
  | .port g =>
    if (s.atoll g).inReset ∨ (s.atoll g).aborting then s
    else
      let s1 := s.modAtoll g fun a => { a with dmaDone := a.dmaDone ++ [w] }
      if flag r.cmd.img 1 0 then s1.signalAtoll g (fld r.cmd.img 60 0 6) 1 else s1
  | .stream p st idx => s.completeCmd p st idx (unitVerdict w r.addr 0)

/-- The completion word of a run (Table 6-6). -/
def MemRun.word (r : MemRun) : DWord := memWord r.bytesDone r.offset r.apexLow r.status (fld r.cmd.img 62 0 16)

/-- The run ends: its unit is free and its word is delivered. -/
def State.endMem (s : State) (h u : Nat) (r : MemRun) : State :=
  (s.modUnit h u fun q => { q with cur := none }).deliverMem r r.word

/-- Whether a command's source and destination overlap (Table 10-5). -/
def memOverlaps (d : BitVec 512) : Bool :=
  let len := (fld d 4 0 19 + 1) * 32
  let n := fld d 8 0 20 + 1
  fld d 0 0 8 == 1 && Rows.meets { base := fld d 16 0 40, stride := fld d 32 0 32, len := len, n := n }
    { base := fld d 24 0 40, stride := fld d 36 0 32, len := len, n := n }

/-- R265: the step of a partition rolls back on a fault of a memory or network block; with none open R342 applies. -/
def State.rollOrStop (s : State) (p : Nat) (t : Trigger) : State :=
  match s.part? p with
  | none => s
  | some x => if x.inStep then s.trigger p t else s.stopAllFenced p t.cls.toNat t.recordSeq

/-- Table 10-5: a stream unit is fenced: its command restarts on another unit, or ends ABANDONED and the step rolls back
when source and destination overlap. -/
def State.fenceStreamUnit (s : State) (h u : Nat) (cls : Half) (seq : Word) : State :=
  let s1 := s.fenceUnit (streamUnitId h u) cls seq
  match (s.sunit h u).cur with
  | none => s1
  | some r =>
    if memOverlaps r.cmd.img then
      let s2 := s1.endMem h u { r with status := opAbandoned, writes := [] }
      s2.rollOrStop r.cmd.part { cls := cls, addr := none, position := none, recordSeq := seq }
    else s1.modUnit h u fun q => { queue := r.cmd :: q.queue, cur := none }

/-- The unit that continues after a fence: the next healthy one of the die, 0xFF when none. -/
def State.nextUnit (s : State) (h u : Nat) : Nat := (((s.freeUnits h).filter (· != u)).head?).getD 0xFF

/-- MEMORY_COMMAND_COMPLETE (R161, R252): the residue checks release the outputs and the word is delivered; a failed check
fences the unit. -/
def execMemoryCommandComplete (h : Fin 16) (u : Fin 4) (residueOk : Bool) (s : State) : Host.Outcome State Fault Refusal :=
  .next (
    match (s.sunit h u).cur with
    | none => s
    | some r =>
      let who := some r.cmd.part
      if ¬ s.running ∨ s.isFenced (streamUnitId h u) ∨ r.unacked ≠ 0 ∨ ¬ s.canDeliverMem r.cmd.src
          ∨ s.outputsHeld who r.writes then s
      else if !residueOk then
        let unit := streamUnitId h u
        let seq := s.nextSeq unit
        let s1 := s.raise { unit := unit, cls := clsResidue, opKind := 4, opCode := fld r.cmd.img 0 0 8, part := who, scope := 1,
                            actions := actFenced + (if memOverlaps r.cmd.img then actRolled else actSibling),
                            detail := [(32, fld r.cmd.img 62 0 16), (34, s.nextUnit h u),
                                       (36, Config.failedElement s.freeCtr % 2 ^ 64)] }
        s1.freshen.fenceStreamUnit h u clsResidue seq
      else
        s.biThen (r.writes.map fun w => (w.1, w.2.2.length, true))
          (fun t => t.endMem h u { r with status := opTimeout }) fun t =>
          match t.writeAccepted r.accepted r.writes who with
          | (t1, st, n) => t1.endMem h u { r with bytesDone := r.bytesDone + n, status := if st ≠ stOk then st else r.status })

/-- Drop the messages of a memory command that are waiting or unacknowledged. -/
def State.dropDma (s : State) (order : Nat) : State :=
  { s with fab := { s.fab with waiting := s.fab.waiting.filter (fun m => m.owner != .dma order),
                               unacked := s.fab.unacked.filter (fun m => m.owner != .dma order) } }

/-- DMA_TIMEOUT (R160): a command that makes no progress ends with TIMEOUT and a record of cause 4. -/
def execDmaTimeout (h : Fin 16) (u : Fin 4) (s : State) : Host.Outcome State Fault Refusal :=
  .next (
    let late (t : State) (r : MemRun) : State :=
      ((t.raise { unit := streamUnitId h u, cls := clsTimeout, opKind := 4, opCode := fld r.cmd.img 0 0 8,
                  part := some r.cmd.part, actions := actCounted,
                  detail := [(32, 4), (34, fld r.cmd.img 62 0 16), (36, r.bytesDone % 2 ^ 32)] }).dropDma r.cmd.order).endMem h u
        { r with status := opTimeout, unacked := 0, writes := [] }
    if ¬ s.running ∨ s.isFenced (streamUnitId h u) then s
    else
      match (s.sunit h u).cur with
      | some r => if s.canDeliverMem r.cmd.src then late s r else s
      | none =>
        match s.memQueue h u with
        | none => s
        | some (x, v, c) =>
          if ¬ s.canDeliverMem c.src then s
          else late (s.modUnit x v fun q => { q with queue := q.queue.drop 1 }) (MemRun.refused c 0))

end Sys2Proof.Machine
end

