-- ==== Sys2Proof/Machine/Fabric.lean ====
section
/-! DEFINITION. Strait links and the fabric: codewords, replay and widths (08 R193-R199), packets and messages
(R200-R207), arbitration and routing (R209-R214), multicast branches (R215, R216), telemetry records (R218). -/

namespace Sys2Proof.Machine

/-! ### Access -/

/-- Global link l. -/
def State.link (s : State) (l : Nat) : FLink := Tbl.getD s.fab.links l FLink.reset
/-- Change the fabric. -/
def State.modFab (s : State) (f : FabSt → FabSt) : State := { s with fab := f s.fab }
/-- Change link l. -/
def State.modLink (s : State) (l : Nat) (f : FLink → FLink) : State :=
  s.modFab fun x => { x with links := Tbl.set x.links l (f (s.link l)) }
/-- Strait die d. -/
def State.strait (s : State) (d : Nat) : Strait := Tbl.getD s.fab.straits d Strait.reset
/-- Change strait die d. -/
def State.modStrait (s : State) (d : Nat) (f : Strait → Strait) : State :=
  s.modFab fun x => { x with straits := Tbl.set x.straits d (f (s.strait d)) }
/-- Cell format (FABRIC_FORMAT). -/
def State.cells (s : State) : Bool := s.param 0x0800 == 1
/-- The module's own ID. -/
def State.ownId (s : State) : Option Nat := s.life.moduleId.map BitVec.toNat
/-- R214: the module forwards packets: ready, or under a reset short of cold reset, with a valid ID. -/
def State.forwards (s : State) : Bool :=
  (s.life.state == .ready || s.life.state == .moduleReset) && s.life.moduleId.isSome && !s.life.frozen
/-- Unit of a fabric link or lane. -/
def linkUnit (l sub : Nat) : Word := straitUnit (l / 16) 11 (l % 16) sub

/-! ### Packets (Tables 8-5 to 8-8) -/

/-- Routing word. -/
def routeWord (vc kind : Nat) (mcast : Bool) (dest dend src cell msgId : Nat) : DWord :=
  BitVec.ofNat 64 (vc + kind * 4 + b2n mcast * 64 + dest * 256 + dend * 2 ^ 21 + src * 2 ^ 30 + cell * 2 ^ 43
    + msgId % 256 * 2 ^ 50)
/-- `vc`. -/
def FPkt.vc (p : FPkt) : Nat := bits p.word.toNat 0 2
/-- `kind`. -/
def FPkt.kind (p : FPkt) : Nat := bits p.word.toNat 2 4
/-- `mcast`. -/
def FPkt.mcast (p : FPkt) : Bool := bits p.word.toNat 6 1 == 1
/-- `class`. -/
def FPkt.cls (p : FPkt) : Nat := bits p.word.toNat 7 1
/-- `dest`. -/
def FPkt.dest (p : FPkt) : Nat := bits p.word.toNat 8 13
/-- `dest_endpoint`. -/
def FPkt.dend (p : FPkt) : Nat := bits p.word.toNat 21 9
/-- `src_module`. -/
def FPkt.src (p : FPkt) : Nat := bits p.word.toNat 30 13
/-- `cell_index`. -/
def FPkt.cell (p : FPkt) : Nat := bits p.word.toNat 43 7
/-- `msg_id`. -/
def FPkt.msgId (p : FPkt) : Nat := bits p.word.toNat 50 8
/-- `hops`. -/
def FPkt.hops (p : FPkt) : Nat := bits p.word.toNat 58 6
/-- Bytes of a packet. -/
def FPkt.size (p : FPkt) : Nat := 8 + p.data.length
/-- Its bytes on a link. -/
def FPkt.bytes (p : FPkt) : List Byte := leBytes 8 p.word.toNat ++ p.data
/-- Allowance a packet takes, in 64-byte units. -/
def FPkt.units (p : FPkt) : Nat := (p.size + 63) / 64
/-- Credit code of a VC and class (Table 8-2). -/
def creditCode (vc cls : Nat) : Nat := if vc = 3 then 7 else 1 + 2 * vc + cls
/-- Credit code of a packet. -/
def FPkt.code (p : FPkt) : Nat := creditCode p.vc p.cls

/-- VC of a kind (Table 8-7); none for unused kinds. -/
def kindVc (k : Nat) : Option Nat :=
  match k with
  | 0 => some 0 | 1 => some 1 | 2 => some 0 | 3 => some 2 | 4 => some 2 | 5 => some 2 | 7 => some 3 | 15 => some 3
  | _ => none
/-- Single-cell kinds. -/
def singleKind (k : Nat) : Bool := k == 1 || k == 7 || k == 15
/-- Kinds that may be multicast. -/
def mcastKind (k : Nat) : Bool := k == 3 || k == 5
/-- Collective kinds. -/
def collKind (k : Nat) : Bool := k == 3 || k == 4 || k == 5
/-- Endpoint a kind may name. -/
def kindEndOk (k e : Nat) : Bool :=
  match k with
  | 0 => e == 0x10
  | 2 => e == 0x11
  | 7 | 15 => e == 0
  | _ => decide (e < 6)

/-- Message header (Table 8-6). -/
def msgHeader (srcEnd len seq : Nat) (resent sync : Bool) (copy : Option Nat) : Nat :=
  srcEnd + (len - 1) % 4096 * 2 ^ 9 + seq % 65536 * 2 ^ 21 + b2n resent * 2 ^ 37 + b2n sync * 2 ^ 38
    + (match copy with
       | some g => 2 ^ 39 + g * 2 ^ 40
       | none => 0)

/-- R201: the packets of a message: one frame, or cells of 56 bytes. -/
def packetsOf (cells : Bool) (vc kind : Nat) (mcast : Bool) (dest dend src : Nat) (header : Nat) (payload : List Byte)
    (seq : Nat) : List FPkt :=
  let body := leBytes 8 header ++ payload
  let pad (n : Nat) (l : List Byte) : List Byte := l ++ List.replicate ((n - l.length % n) % n) 0
  if cells then
    (chunks (body.length / 56 + 1) 56 (pad 56 body)).zipIdx.map fun c =>
      { word := routeWord vc kind mcast dest dend src c.2 seq, data := c.1 }
  else [{ word := routeWord vc kind mcast dest dend src 0 seq, data := pad 8 body }]

/-! ### Link output (08 R195, R199, R202, R209) -/

/-- States in which a link carries traffic. -/
def FLink.carries (x : FLink) : Bool := x.state == 2 || x.state == 3 || x.state == 4 || x.state == 7 || x.state == 8
/-- States in which a link's codewords pass at all. -/
def FLink.alive (x : FLink) : Bool := x.carries || x.state == 5
/-- R211, R363: a usable link. -/
def State.linkUsable (s : State) (l : Nat) : Bool :=
  let x := s.link l
  x.carries && x.enable && x.peerFwd && x.peerIdValid && !(s.ownId == some x.peerModule)
/-- Full allowance (Table 8-4). -/
def fullAllowance : Tbl Nat := [(1, 1000), (2, 1000), (3, 260), (4, 260), (5, 1000), (6, 1000), (7, 80)]
/-- Allowance left of a code. -/
def FLink.left (x : FLink) (code : Nat) : Nat := Tbl.getD x.allowance code 0

/-- Send one codeword: sequence number, the last in-order number received, `nak` when owed, and one credit block. -/
def FLink.emit (x : FLink) (body : List Byte) (pkt : Option OutPkt) : FLink × (BitVec 20 × List Byte) :=
  let credit := (x.owed.head?).getD 0
  let ctrl := BitVec.ofNat 20 (x.txNext * 4096 + (x.rxNext + 255) % 256 * 16 + b2n x.nakDue * 8 + credit)
  ({ x with txNext := (x.txNext + 1) % 256, nakDue := false, owed := x.owed.drop 1,
            replay := x.replay ++ [{ seq := x.txNext, body := body, credit := credit, pkt := pkt }] }, (ctrl, body))

/-- A body filled up to 640 bytes: the word where the next packet would start, and the rest, are all ones. -/
def fillBody (b : List Byte) : List Byte := b ++ List.replicate (640 - b.length) 0xFF

/-- Bodies of a packet. -/
def bodiesOf (bs : List Byte) : List (List Byte) := (chunks (bs.length / 640 + 1) 640 bs).map fillBody

/-- Send a packet as codewords; its last one holds the packet for rerouting. -/
def State.emitPacket (s : State) (l : Nat) (p : OutPkt) : State :=
  let bs := bodiesOf p.out.bytes
  bs.zipIdx.foldl (fun t b =>
    match (t.link l).emit b.1 (if b.2 + 1 = bs.length then some p else none) with
    | (x, w) => (t.modLink l fun _ => x).modFab fun f => { f with sent := f.sent ++ [(l, w.1, w.2)] }) s

/-- R209: the next packet a link serves: VC 3, then VC 1, then VCs 2 and 0 in turn; the first of its VC and class, with
allowance and room in the window of 255. -/
def FLink.next (x : FLink) : Option OutPkt :=
  let first (vc : Nat) : Option OutPkt := x.waiting.find? fun p =>
    p.out.vc == vc && (x.waiting.find? fun q => q.out.code == p.out.code) == some p
      && decide (p.out.units ≤ x.left p.out.code) && decide (x.replay.length + (bodiesOf p.out.bytes).length ≤ 255)
  (if x.tookVc2 then [3, 1, 0, 2] else [3, 1, 2, 0]).findSome? first

/-- Send what may leave a link now. -/
def State.pumpLink : Nat → State → Nat → State
  | 0, s, _ => s
  | k + 1, s, l =>
    let x := s.link l
    if !x.carries then s else
    match x.next with
    | none => s
    | some p =>
      let y := { x with waiting := x.waiting.erase p, allowance := Tbl.set x.allowance p.out.code (x.left p.out.code - p.out.units),
                        tookVc2 := if p.out.vc = 2 then true else if p.out.vc = 0 then false else x.tookVc2 }
      State.pumpLink k ((s.modLink l fun _ => y).emitPacket l p) l

/-- Send everything that may leave. -/
def State.flushLink (s : State) (l : Nat) : State := State.pumpLink ((s.link l).waiting.length + 1) s l

/-- R202: an idle link sends a body of fill, which carries acknowledgements and credits (log entry 23). -/
def State.sendFill (s : State) (l : Nat) : State :=
  let x := s.link l
  if x.replay.length ≥ 255 then s
  else
    match x.emit (fillBody []) none with
    | (y, w) => (s.modLink l fun _ => y).modFab fun f => { f with sent := f.sent ++ [(l, w.1, w.2)] }

/-- Replay every unacknowledged codeword with fresh `ack` and `nak`. -/
def State.replayLink (s : State) (l : Nat) : State :=
  let x := s.link l
  let ws := x.replay.zipIdx.map fun c =>
    (l, BitVec.ofNat 20 (c.1.seq * 4096 + (x.rxNext + 255) % 256 * 16 + (if c.2 = 0 then b2n x.nakDue * 8 else 0) + c.1.credit), c.1.body)
  (s.modLink l fun x => if x.replay.isEmpty then x else { x with nakDue := false }).modFab fun f => { f with sent := f.sent ++ ws }

/-! ### Injecting and routing (08 R210-R213) -/

/-- A packet comes to a strait die. -/
def State.arrive (s : State) (d : Nat) (link : Option Nat) (p : FPkt) : State :=
  s.modStrait d fun x => { x with arrivals := x.arrivals ++ [{ link := link, held := link.isSome, pkt := p }] }

/-- Route table entry of a module. -/
def State.route (s : State) (m : Nat) : Nat := (Tbl.getD s.fab.routes m 0).toNat

/-- The links of an entry that are valid and usable, in the order primary, alt1, alt2. -/
def State.routeLinks (s : State) (e : Nat) : List Nat :=
  ([(7, 0), (15, 8), (23, 16)].filter fun x => bits e x.1 1 == 1 && s.linkUsable (bits e x.2 7)).map fun x => bits e x.2 7

/-- Sequence number that `spread` uses: a frame's own; a cell has only its low eight bits (log entry 24). -/
def FPkt.spreadSeq (cells : Bool) (p : FPkt) : Nat := if cells then p.msgId else bits (leNat (p.data.take 8)) 21 16

/-- R213: a packet as it leaves on a link: one hop more and its class for that link; a flood goes unchanged (R294, R295). -/
def State.leaving (s : State) (src : Option Nat) (l : Nat) (p : FPkt) : FPkt :=
  if p.kind = 7 then p else
  let x := s.link l
  let c0 := match src with
    | none => p.cls
    | some i => if (s.link i).group ≠ x.group then 0 else p.cls
  let c := if x.dateline then 1 else c0
  { p with word := BitVec.ofNat 64 (setBits (setBits p.word.toNat 7 1 c) 58 6 (p.hops + 1)) }

/-- Put a packet on a link's output. -/
def State.putLink (s : State) (src : Option Nat) (l : Nat) (p : FPkt) : State :=
  (s.modLink l fun x => { x with waiting := x.waiting ++ [{ src := src, pkt := p, out := s.leaving src l p }] }).flushLink l

/-- R211: route a packet towards its module. -/
def State.routePacket (s : State) (d : Nat) (src : Option Nat) (p : FPkt) : State :=
  let e := s.route p.dest
  let ls := s.routeLinks e
  match ls with
  | [] => s.modStrait d fun x => { x with noRoute := satAdd32 x.noRoute 1 }
  | l0 :: _ =>
    let l := if bits e 25 1 = 1 ∧ (p.vc = 0 ∨ p.vc = 2) then (ls[p.spreadSeq s.cells % ls.length]?).getD l0 else l0
    s.putLink src l p

/-- R197: a link that becomes unusable gives its unacknowledged and waiting packets back to be routed again; branches of a
multicast and floods keep their link and wait (R203, R216), and LINK_CONTROL, which is sent anew, goes. -/
def State.dropLink (s : State) (l : Nat) : State :=
  let x := s.link l
  let ps := ((x.replay.filterMap fun c => c.pkt) ++ x.waiting).filter fun p => p.pkt.kind != 15
  let branch (p : OutPkt) : Bool := p.pkt.mcast || p.pkt.kind == 7
  let clear (x : FLink) : FLink :=
    { x with replay := [], waiting := ps.filter branch, tail := [], seeking := false, nakDue := false, owed := [],
             freed := [], txNext := 0, rxNext := 0, allowance := fullAllowance }
  (s.modLink l clear).modStrait (l / 16) fun y =>
    { y with arrivals := ((ps.filter fun p => !branch p).map fun p => ({ link := p.src, held := false, pkt := p.pkt } : Arrived))
        ++ y.arrivals }

/-- Free the input buffer a packet of link l held; every 640 bytes of a VC and class give one credit block back (R199). -/
def FLink.free (x : FLink) (p : FPkt) : FLink :=
  let n := Tbl.getD x.freed p.code 0 + 64 * p.units
  { x with freed := Tbl.set x.freed p.code (n % 640), owed := x.owed ++ List.replicate (n / 640) p.code }

/-! ### Messages of the module (08 R205, R207) -/

/-- Key of a message's sequence: destination or group, and VC. -/
def seqKey (mcast : Bool) (dest vc : Nat) : Nat := (if mcast then 2 ^ 20 else 0) + dest * 4 + vc
/-- Key of a message. -/
def TxMsg.key (m : TxMsg) : Nat := seqKey m.mcast m.dest m.vc

/-- The die where a message's packets start: the sequencing die, or for a group the interface that sends. -/
def TxMsg.die (m : TxMsg) : Nat := if m.mcast then m.srcEnd % 6 else m.dest % 6

/-- Put a message's packets into the fabric. -/
def State.inject (s : State) (m : TxMsg) (resent : Bool) : State :=
  let own := (s.ownId).getD 0
  (packetsOf s.cells m.vc m.kind m.mcast m.dest m.dend own
    (msgHeader m.srcEnd m.payload.length m.seq resent m.sync m.copy) m.payload m.seq).foldl (fun t p => t.arrive m.die none p) s

/-- R205: whether a waiting message may go: fewer than 256 unacknowledged, and the destination's first message
acknowledged, or none sent to it yet. -/
def State.maySend (s : State) (m : TxMsg) : Bool :=
  decide ((s.fab.unacked.filter fun u => u.key == m.key).length < 256) &&
  (m.mcast || Tbl.getD s.fab.synced m.dest false || (Tbl.get? s.fab.synced m.dest).isNone)

/-- Send the waiting messages that may go, in order. -/
def State.pumpTx : Nat → State → State
  | 0, s => s
  | k + 1, s =>
    match s.fab.waiting.find? fun m => s.maySend m && (s.fab.waiting.find? fun o => o.key == m.key) == some m with
    | none => s
    | some m =>
      let seq := Tbl.getD s.fab.txSeq m.key 0
      let first := !m.mcast && (Tbl.get? s.fab.synced m.dest).isNone
      let m' := { m with seq := seq, sync := first }
      State.pumpTx k ((s.modFab fun f => { f with
        waiting := f.waiting.erase m, txSeq := Tbl.set f.txSeq m.key ((seq + 1) % 65536), unacked := f.unacked ++ [m'],
        synced := if first then Tbl.set f.synced m.dest false else f.synced }).inject m' false)

/-- Queue messages and send what may go. -/
def State.sendMsgs (s : State) (ms : List TxMsg) : State :=
  let t := s.modFab fun f => { f with waiting := f.waiting ++ ms }
  State.pumpTx (t.fab.waiting.length + 1) t

/-- A unicast message. -/
def TxMsg.to (dest vc kind srcEnd dend : Nat) (payload : List Byte) (owner : MsgOwner) : TxMsg :=
  { mcast := false, copy := none, dest := dest, vc := vc, kind := kind, srcEnd := srcEnd, dend := dend, seq := 0,
    sync := false, payload := payload, owner := owner, tries := 0, targets := [], acked := [], ticket := 0 }

/-- REMOTE_WRITE (R158, R159, Table 8-9): rows cut into messages of at most 4,064 data bytes. -/
def State.remoteWrite (s : State) (c : MemCmd) : State × MemRun :=
  let d := c.img
  let len := (fld d 4 0 19 + 1) * 32
  let n := fld d 8 0 20 + 1
  let dest := fld d 40 0 13
  match s.ownId with
  | none => (s, { MemRun.refused c 0 with status := opUnreachable })
  | some _ =>
    match State.readRows ((List.range n).map fun i => (fld d 16 0 40 + i * fld d 32 0 32, len)) s (some c.part) with
    | (s1, st, fa, rows) =>
      let tag := ((s.part? c.part).map fun x => x.jobTag.toNat).getD 0
      let msgs := (rows.zipIdx.map fun r => (chunks (r.1.length / 4064 + 1) 4064 r.1).zipIdx.map fun p =>
        let off := fld d 24 0 40 + r.2 * fld d 36 0 32 + p.2 * 4064
        TxMsg.to dest 0 0 (dest % 6) 0x10 (packBytes 32 [(0, fld d 42 0 10), (8, fld d 44 0 32), (12, tag), (16, off)] ++ p.1)
          (.dma c.order)).flatten
      (s1.sendMsgs msgs, { MemRun.refused c 0 with
        status := st, addr := if st = stOk then none else some (BitVec.ofNat 64 fa),
        unacked := rows.foldl (fun a r => a + r.length) 0 })

/-- DMA_REMOTE_WRITE (R159, R160). -/
def execDmaRemoteWrite (h : Fin 16) (u : Fin 4) (bad : Option Nat) (s : State) : Host.Outcome State Fault Refusal :=
  .next (s.memRow h u 2 bad State.remoteWrite)

/-! ### Receiving codewords (08 R195, R196) -/

/-- Packets of a received byte stream: what was left of the last body, then this one; the rest waits for the next body. -/
def parseBody (cells : Bool) : Nat → List Byte → List FPkt × List Byte
  | 0, _ => ([], [])
  | k + 1, bs =>
    if bs.isEmpty ∨ (8 ≤ bs.length ∧ bs.take 8 = List.replicate 8 0xFF) then ([], [])
    else if bs.length < 16 then ([], bs)
    else
      let kind := bits (leNat (bs.take 8)) 2 4
      let frame := 16 + (bits (leNat ((bs.drop 8).take 8)) 9 12 + 8) / 8 * 8
      let zeros := 64 ≤ bs.length ∧ (bs.drop 32).take 8 = List.replicate 8 0
      let n := if cells ∨ (kind = 15 ∧ zeros) then 64 else frame
      if bs.length < n then ([], bs)
      else
        match parseBody cells k (bs.drop n) with
        | (ps, t) => ({ word := BitVec.ofNat 64 (leNat (bs.take 8)), data := (bs.take n).drop 8 } :: ps, t)

/-- Retries of a link in the last n counts. -/
def State.retriesIn (s : State) (l n : Nat) : List (DWord × Nat) :=
  (s.link l).retries.filter fun r => decide (s.count.toNat - r.1.toNat < n)

/-- A LINK_* record of a link (Table 10-11). -/
def State.linkRecord (s : State) (l lane : Nat) (cls : Half) (actions scope : Nat) : State :=
  s.raise { unit := linkUnit l (if lane = 0xFF then 0x3FF else lane), cls := cls, opKind := 10, scope := scope, actions := actions,
            detail := [(32, lane), (33, (s.link l).state), (36, (s.retriesIn l 100000000).length)] }

/-- Whether a first-in-each-second record is due. -/
def dueRecord (now : DWord) (last : Option DWord) : Bool :=
  match last with
  | none => true
  | some t => decide (now.toNat / 100000000 ≠ t.toNat / 100000000)

/-- R196: one retry on a link. -/
def State.countRetry (s : State) (l lane : Nat) : State :=
  let x := s.link l
  let s1 := (s.modLink l fun x => { x with retries := (s.retriesIn l 100000000) ++ [(s.count, lane)] }).modStrait (l / 16) fun y =>
    { y with retry := satAdd32 y.retry 1 }
  if dueRecord s.count x.lastRetry then
    (s1.modLink l fun x => { x with lastRetry := some s.count }).linkRecord l 0xFF clsRetry actCounted 0
  else s1

/-- R196: corrected codewords are counted, the first of each second recorded. -/
def State.countFec (s : State) (l : Nat) : State :=
  let s1 := s.modStrait (l / 16) fun y => { y with fecCorrected := satAdd32 y.fecCorrected 1 }
  if dueRecord s.count (s.link l).lastFec then
    (s1.modLink l fun x => { x with lastFec := some s.count }).linkRecord l 0xFF clsFec actCounted 0
  else s1

/-- Codewords up to `ack` leave the replay buffer. -/
def FLink.ackTo (x : FLink) (ack : Nat) : FLink :=
  if x.replay.any fun c => c.seq == ack then { x with replay := (x.replay.dropWhile fun c => c.seq != ack).drop 1 } else x

/-- A good codeword: acknowledgement, credit, replay request and body. -/
def State.acceptCodeword (s : State) (l : Nat) (cw : Codeword) : State :=
  let c := cw.ctrl.toNat
  let x := s.link l
  let code := bits c 0 3
  let mism := x.state == 5
  match parseBody s.cells 1024 (x.tail ++ cw.body.take 640) with
  | (ps, tail) =>
    let lc := ps.filter fun p => p.kind == 15
    let rest := if mism then [] else ps.filter fun p => p.kind != 15
    let s1 := s.modLink l fun x =>
      { x.ackTo (bits c 4 8) with
        rxNext := (x.rxNext + 1) % 256, seeking := false, tail := tail,
        allowance := if code = 0 then x.allowance else Tbl.set x.allowance code (x.left code + 10),
        controlIn := x.controlIn ++ lc.map fun p => p.data }
    let s2 := lc.foldl (fun t p => t.modLink l fun x => x.free p) s1
    let s3 := rest.foldl (fun t p => t.arrive (l / 16) (some l) p) s2
    let s4 := if bits c 3 1 = 1 then s3.replayLink l else s3
    let n := s4.fab.sent.length
    let s5 := s4.flushLink l
    if s5.fab.sent.length = n then s5.sendFill l else s5

/-- CODEWORD_RECEIVE (R195, R196). -/
def execCodewordReceive (l : Fin 96) (cw : Codeword) (s : State) : Host.Outcome State Fault Refusal :=
  .next (
    let x := s.link l
    let seq := bits cw.ctrl.toNat 12 8
    let corrected := match cw.fec with
      | .good n => n
      | .uncorrectable => 0
    let bad : Bool := match cw.fec with
      | .good n => decide (n > 13)
      | .uncorrectable => true
    if ¬ x.alive ∨ s.life.frozen then s
    else
      let s1 := if corrected > 0 then s.countFec l else s
      if bad ∨ seq ≠ x.rxNext then
        if x.seeking then s1
        else
          let lane := match x.state with
            | 3 | 8 => 0
            | 4 | 7 => 1
            | _ => x.rxNext % 2
          ((s1.modLink l fun x => { x with seeking := true, nakDue := true, tail := x.tail }).countRetry l lane).sendFill l
      else s1.acceptCodeword l cw)

/-- REPLAY_TIMEOUT (R196): the oldest unacknowledged codeword waited too long: replay, counted as a retry. -/
def execReplayTimeout (l : Fin 96) (s : State) : Host.Outcome State Fault Refusal :=
  .next (
    let x := s.link l
    if x.alive ∧ ¬ x.replay.isEmpty ∧ ¬ s.life.frozen then
      (s.countRetry l (((x.replay.head?).map TxCw.seq).getD 0 % 2)).replayLink l
    else s)

/-! ### Widths (08 R197, R198) -/

/-- The state of a link whose lanes are not retraining (Table 8-22). -/
def FLink.widthState (x : FLink) (fmt : Bool) : Nat :=
  if !x.enable then 6
  else if x.fencedLanes = 3 then 0
  else if x.peerFormat = some (!fmt) then 5
  else if x.fencedLanes = 0 then 2 else if x.fencedLanes = 2 then 3 else 4

/-- Start retraining lanes (bit mask) of a link: a lane of two leaves the other carrying; else the link is unusable. -/
def State.retrain (s : State) (l mask lane : Nat) : State :=
  let x := s.link l
  let m := BitVec.ofNat 2 mask
  let re := (x.retraining ||| m) &&& ~~~ x.fencedLanes
  let st := if (re ||| x.fencedLanes) = 3 then 1 else if re = 1 then 7 else 8
  let s1 := (s.modLink l fun x => { x with retraining := re, retrains := min 255 (x.retrains + 1), state := st }).modStrait (l / 16)
    fun y => { y with retrain := satAdd32 y.retrain 1 }
  let s2 := s1.linkRecord l lane clsRetrain actCounted 0
  if st = 1 then s2.dropLink l else s2

/-- LINK_RETRY_LIMIT (R197): LINK_RETRY_LIMIT retries within one millisecond retrain the worse lane. -/
def execLinkRetryLimit (l : Fin 96) (s : State) : Host.Outcome State Fault Refusal :=
  .next (
    let x := s.link l
    let r := s.retriesIn l 100000
    if ¬ x.carries ∨ r.length < s.param 0x0808 ∨ s.life.frozen then s
    else
      let lane := if x.state = 3 ∨ x.state = 8 then 0 else if x.state = 4 ∨ x.state = 7 then 1
        else if (r.countP fun e => e.2 == 1) > (r.countP fun e => e.2 == 0) then 1 else 0
      s.retrain l (2 ^ lane) lane)

/-- LINK_CREDIT_TIMEOUT (R197): a VC got no credit for 10 ms while packets wait: both lanes retrain. -/
def execLinkCreditTimeout (l : Fin 96) (s : State) : Host.Outcome State Fault Refusal :=
  .next (
    let x := s.link l
    if x.carries ∧ (x.waiting.any fun p => decide (x.left p.out.code < p.out.units)) ∧ ¬ s.life.frozen then s.retrain l 3 0xFF else s)

/-- LANE_SIGNAL_LOSS (R197). -/
def execLaneSignalLoss (l : Fin 96) (lane : Fin 2) (s : State) : Host.Outcome State Fault Refusal :=
  .next (
    let x := s.link l
    if (x.carries ∨ x.state = 5) ∧ ¬ x.fencedLanes.getLsbD lane ∧ ¬ x.retraining.getLsbD lane then
      s.retrain l (2 ^ lane.val) lane
    else s)

/-- LANE_RETRAIN_DONE (R197): a lane that fails is fenced with a LINK_NARROW record; a link with no lane left is DOWN. -/
def execLaneRetrainDone (l : Fin 96) (lane : Fin 2) (ok : Bool) (s : State) : Host.Outcome State Fault Refusal :=
  .next (
    let x := s.link l
    if ¬ x.retraining.getLsbD lane then s
    else
      let bit := BitVec.ofNat 2 (2 ^ lane.val)
      let y := { x with retraining := x.retraining &&& ~~~ bit, fencedLanes := if ok then x.fencedLanes else x.fencedLanes ||| bit }
      let st := if y.retraining = 0 then y.widthState s.cells
        else if (y.retraining ||| y.fencedLanes) = 3 then 1 else if y.retraining = 1 then 7 else 8
      let s1 := s.modLink l fun _ => { y with state := st, trainedAt := if x.state = 1 ∧ st ≠ 1 then s.count else x.trainedAt }
      let s2 := if ok then s1 else s1.linkRecord l (if st = 0 then 0 else lane) clsNarrow (actCounted + actFenced) 6
      if st = 0 then s2.dropLink l else s2.flushLink l)

/-- R198: training ends with the link at width 2, width 1 or DOWN. -/
def State.trainLink (s : State) (l : Nat) (lane0 lane1 : Bool) : State :=
  let x := s.link l
  let f := BitVec.ofNat 2 (b2n (!lane0) + 2 * b2n (!lane1))
  let y := { x with fencedLanes := f, retraining := 0, replay := [], tail := [], txNext := 0, rxNext := 0, seeking := false,
                    nakDue := false, owed := [], freed := [], allowance := fullAllowance, trainedAt := s.count,
                    peerFormat := none, peerFwd := false, peerIdValid := false }
  let s1 := s.modLink l fun _ => { y with state := y.widthState s.cells }
  if f = 0 then s1 else s1.linkRecord l (if f = 3 then 0 else if f = 1 then 0 else 1) clsNarrow (actCounted + actFenced) 6

/-- LINK_TRAINING: a link that is DOWN or training. -/
def execLinkTraining (l : Fin 96) (lane0 lane1 : Bool) (s : State) : Host.Outcome State Fault Refusal :=
  .next (if ¬ s.life.powered ∨ (s.link l).state > 1 then s else s.trainLink l lane0 lane1)

/-! ### LINK_CONTROL (08 R204) -/

/-- LINK_CONTROL of a link (Table 8-12), cell form where R204 asks for it. -/
def State.controlPacket (s : State) (l : Nat) : FPkt :=
  let pay := packBytes 16 [(0, b2n s.forwards + 2 * b2n s.life.moduleId.isSome + 4 * b2n s.cells), (2, (s.ownId).getD 0), (4, l)]
  let x := s.link l
  let body := leBytes 8 (msgHeader 0 16 0 false false none) ++ pay
  let early := decide (s.count.toNat - x.trainedAt.toNat < 100000)
  { word := routeWord 3 15 false 0 0 ((s.ownId).getD 0) 0 0,
    data := if s.cells ∨ early ∨ x.state = 5 then body ++ List.replicate 32 0 else body }

/-- LINK_CONTROL_SEND (R204). -/
def execLinkControlSend (l : Fin 96) (s : State) : Host.Outcome State Fault Refusal :=
  .next (
    let x := s.link l
    let p := s.controlPacket l
    if ¬ x.alive ∨ s.life.frozen ∨ x.replay.length ≥ 255 ∨ x.left 7 < p.units then s
    else (s.modLink l fun x => { x with allowance := Tbl.set x.allowance 7 (x.left 7 - p.units) }).emitPacket l
      { src := none, pkt := p, out := p })

/-- LINK_CONTROL (R204): peer state; a peer of the other format puts the link in MISMATCH until the formats agree. -/
def execLinkControl (l : Fin 96) (s : State) : Host.Outcome State Fault Refusal :=
  .next (
    match (s.link l).controlIn with
    | [] => s
    | b :: r =>
      let pay := (b.drop 8).take 16
      let h := leNat (b.take 8)
      let v := leNat pay
      let bad := bits h 52 12 != 0 || bits h 9 12 > 47 || bits v 3 13 != 0 || bits v 29 3 != 0 || bits v 39 89 != 0
      let s1 := s.modLink l fun x => { x with controlIn := r }
      if bad then s1.modStrait (l.val / 16) fun y => { y with badPacket := satAdd32 y.badPacket 1 }
      else
        let s2 := s1.modLink l fun x =>
          let y := { x with peerFwd := bits v 0 1 == 1, peerIdValid := bits v 1 1 == 1, peerFormat := some (bits v 2 1 == 1),
                            peerModule := if bits v 1 1 = 1 then bits v 16 13 else 0, peerLink := bits v 32 7 }
          { y with state := if y.carries ∨ y.state = 5 then (if y.retraining = 0 then y.widthState s.cells else y.state) else y.state }
        if (s2.link l).state = 5 ∧ (s.link l).state ≠ 5 then s2.dropLink l else s2.flushLink l)

/-! ### Packet arrival (08 R203, R206, R211, R214, R215) -/

/-- Count a bad packet at die d. -/
def State.badPacket (s : State) (d : Nat) : State := s.modStrait d fun x => { x with badPacket := satAdd32 x.badPacket 1 }

/-- R203, single packet: kind, VC, endpoint, length of single-cell kinds, multicast, reserved header bits. -/
def FPkt.bad (cells : Bool) (p : FPkt) : Bool :=
  let h := leNat (p.data.take 8)
  let first := !cells || p.cell == 0
  kindVc p.kind != some p.vc || (p.mcast && !mcastKind p.kind) || !kindEndOk p.kind p.dend
    || (first && (bits h 52 12 != 0 || (singleKind p.kind && decide (bits h 9 12 > 47)))) || (singleKind p.kind && p.cell != 0)

/-- Reserved fields and lengths of a message's payload (Tables 8-9 to 8-11, 9-5). -/
def msgBad (kind : Nat) (p : List Byte) : Bool :=
  let v := leNat (p.take 32)
  let n := p.length
  match kind with
  | 0 => n < 64 || n > 4096 || n % 32 != 0 || bits v 10 54 != 0 || bits v 168 24 != 0 || bits v 192 64 != 0 || bits v 128 5 != 0
  | 1 => n != 16 || bits v 18 6 != 0 || bits v 31 1 != 0 || bits v 41 7 != 0 || bits v 60 4 != 0 || bits v 96 32 != 0
  | 2 => n != 16 || bits v 13 3 != 0 || bits v 64 64 != 0
  | _ => n < 24 || bits v 29 3 != 0 || bits v 45 3 != 0 || bits v 50 6 != 0 || bits v 61 3 != 0 || bits v 102 2 != 0
      || bits v 110 2 != 0 || bits v 112 16 != 0 || (kind == 3 && bits v 48 2 == 3)

/-- Key of a receive filter. -/
def FMsg.filterKey (m : FMsg) : Nat := if m.mcast ∨ m.copy then 2 ^ 20 + m.group * 4 + m.vc else m.src * 4 + m.vc

/-- This module's index in a group (Table 8-15). -/
def State.targetIndex (s : State) (g : Nat) : Nat := fld (Tbl.getD s.fab.groups g 0) 14 0 8

/-- Remember the outcome of a message. -/
def State.remember (s : State) (m : FMsg) (status : Nat) : State :=
  s.modFab fun f =>
    let x : Filter := Tbl.getD f.filters m.filterKey { seen := [] }
    let others := x.seen.filter fun e => e.1 != m.seq
    let y : Filter := { x with seen := (others ++ [(m.seq, some status)]).drop (others.length + 1 - 512) }
    { f with filters := Tbl.set f.filters m.filterKey y }

/-- Send the ACK of a message from die d (Table 8-10), and remember its status. -/
def State.ackMsg (s : State) (d : Nat) (m : FMsg) (status nbytes : Nat) : State :=
  let grp := m.mcast || m.copy
  let pay := packBytes 16 [(0, m.seq), (2, m.vc), (3, status), (4, if grp then s.targetIndex m.group else 0), (5, b2n grp),
    (6, if grp then m.group else 0), (8, if status = 0 then nbytes else 0)]
  (packetsOf s.cells 1 1 false m.src m.srcEnd ((s.ownId).getD 0) (msgHeader m.dend 16 0 false false none) pay 0).foldl
    (fun t p => t.arrive d none p) (s.remember m status)

/-- A whole message at its filter die (R206, Table 8-14). -/
def State.deliverMsg (s : State) (d : Nat) (m : FMsg) (sync : Bool) : State :=
  if msgBad m.kind m.payload then s.badPacket d
  else if m.kind = 1 then s.modStrait (m.dend % 6) fun x => { x with ackIn := x.ackIn ++ [m] }
  else
    let fresh := sync || (Tbl.get? s.fab.filters m.filterKey).isNone
    let x : Filter := if fresh then { seen := [] } else Tbl.getD s.fab.filters m.filterKey { seen := [] }
    match x.seen.find? fun e => e.1 == m.seq with
    | some (_, o) =>
      let s1 := s.modStrait d fun y => { y with duplicate := satAdd32 y.duplicate 1 }
      match o with
      | some st => s1.ackMsg d m st (if m.kind = 0 then m.payload.length - 32 else 0)
      | none => s1
    | none =>
      let noted : Filter :=
        if collKind m.kind then x else { seen := (x.seen ++ [(m.seq, none)]).drop (x.seen.length + 1 - 512) }
      let s1 := s.modFab fun f => { f with filters := Tbl.set f.filters m.filterKey noted }
      if s.life.state = .moduleReset then s1.ackMsg d m opDestReset 0
      else if collKind m.kind then s1.modStrait (m.dend % 6) fun y => { y with collIn := y.collIn ++ [m] }
      else if m.kind = 0 then s1.modStrait d fun y => { y with remoteIn := y.remoteIn ++ [m] }
      else s1.modStrait (leNat (m.payload.take 2) % 8192 % 6) fun y => { y with syncIn := y.syncIn ++ [m] }

/-- A message from its header and payload. -/
def mkMsg (p : FPkt) (h : Nat) (payload : List Byte) : FMsg × Bool :=
  let copy := bits h 39 1 == 1
  ({ src := p.src, srcEnd := bits h 0 9, dend := p.dend, vc := p.vc, kind := p.kind, seq := bits h 21 16, mcast := p.mcast,
     copy := copy, group := if p.mcast then p.dest else if copy then bits h 40 12 else 0,
     payload := payload.take (bits h 9 12 + 1) }, bits h 38 1 == 1)

/-- R206: take a packet for this module: frames and single cells at once, other cells through reassembly. -/
def State.takeLocal (s : State) (d : Nat) (p : FPkt) : State :=
  let fd := if p.kind = 1 then d else p.src % 6
  let h := leNat (p.data.take 8)
  if ¬ s.cells ∨ singleKind p.kind then
    match mkMsg p h (p.data.drop 8) with
    | (m, sy) => s.deliverMsg fd m sy
  else
    let is_ (r : Reasm) : Bool := r.src == p.src && r.vc == p.vc && r.mcast == p.mcast && r.dest == p.dest && r.msgId == p.msgId
    let old : Reasm := ((s.strait fd).reasm.find? is_).getD
      { src := p.src, vc := p.vc, mcast := p.mcast, dest := p.dest, msgId := p.msgId, since := s.count, head := none, cells := [],
        kind := p.kind, dend := p.dend }
    let r := { old with cells := Tbl.set old.cells p.cell p.data,
                        head := if p.cell = 0 then some (BitVec.ofNat 64 h) else old.head }
    let need := match r.head with
      | some x => (bits x.toNat 9 12 + 1 + 8 + 55) / 56
      | none => 0
    let s1 := s.modStrait fd fun x => { x with reasm := x.reasm.filter fun q => !is_ q }
    if need > 0 ∧ (List.range need).all (fun i => (Tbl.get? r.cells i).isSome) then
      let body := ((List.range need).map fun i => Tbl.getD r.cells i []).flatten
      match mkMsg p ((r.head.map BitVec.toNat).getD 0) (body.drop 8) with
      | (m, sy) => s1.deliverMsg fd m sy
    else s1.modStrait fd fun x => { x with reasm := x.reasm ++ [r] }

/-- R215, R216: replicate a multicast packet onto its links and to this module. -/
def State.replicate (s : State) (d : Nat) (src : Option Nat) (p : FPkt) : State :=
  let e := Tbl.getD s.fab.groups p.dest 0
  if ¬ flag e 12 14 ∨ fld e 12 0 13 ≠ p.src ∨ p.dest ≥ 4096 then s.badPacket d
  else
    let s1 := (List.range 96).foldl (fun t l => if e.getLsbD l then t.putLink src l p else t) s
    if flag e 12 13 then s1.takeLocal d p else s1

/-- FABRIC_PACKET_ARRIVAL (R211). -/
def execFabricPacketArrival (d : Fin 6) (s : State) : Host.Outcome State Fault Refusal :=
  .next (
    match (s.strait d).arrivals with
    | [] => s
    | a :: rest =>
      if ¬ s.life.powered ∨ s.life.frozen then s
      else
        let p := a.pkt
        let s0 := s.modStrait d fun x => { x with arrivals := rest }
        let s1 := match a.held, a.link with
          | true, some l => s0.modLink l fun x => x.free p
          | _, _ => s0
        if p.bad s.cells then s1.badPacket d
        else if p.kind = 7 then
          s1.modStrait d fun x => { x with floodIn := x.floodIn ++ [((a.link).getD 0, p)] }
        else if a.link.isSome ∧ p.hops = s.param 0x0805 then
          s1.modStrait d fun x => { x with hopDrop := satAdd32 x.hopDrop 1 }
        else if p.mcast then
          if s.forwards then s1.replicate d a.link p else s1.badPacket d
        else if s.ownId = some p.dest ∨ bits (s.route p.dest) 24 1 = 1 then
          if s.forwards then s1.takeLocal d p else s1.badPacket d
        else if s.forwards then s1.routePacket d a.link p
        else s1)

/-- REASSEMBLY_TIMEOUT (R206): the oldest incomplete message is discarded and counted. -/
def execReassemblyTimeout (d : Fin 6) (s : State) : Host.Outcome State Fault Refusal :=
  .next (
    match (s.strait d).reasm with
    | [] => s
    | _ :: r => (s.modStrait d fun x => { x with reasm := r }).badPacket d)

/-- MCAST_BRANCH_TIMEOUT (R216): a branch without allowance is dropped and counted. -/
def execMcastBranchTimeout (l : Fin 96) (s : State) : Host.Outcome State Fault Refusal :=
  .next (
    let x := s.link l
    match x.waiting.find? fun p => p.out.mcast && (!x.carries || decide (x.left p.out.code < p.out.units)) with
    | none => s
    | some p => ((s.modLink l fun x => { x with waiting := x.waiting.erase p }).modStrait (l.val / 16) fun y =>
        { y with mcastDrop := satAdd32 y.mcastDrop 1 }).flushLink l)

/-! ### Windows and scope-3 signals (06 R165, 05 R132) -/

/-- REMOTE_WRITE_ARRIVAL (R165, R167): checked against the window table; written, or dropped with WINDOW_CLOSED. -/
def execRemoteWriteArrival (d : Fin 6) (s : State) : Host.Outcome State Fault Refusal :=
  .next (
    match (s.strait d).remoteIn with
    | [] => s
    | m :: rest =>
      if ¬ s.running then s
      else
        let w := leNat (m.payload.take 2)
        let gen := leNat ((m.payload.drop 8).take 4)
        let tag := leNat ((m.payload.drop 12).take 4)
        let off := leNat ((m.payload.drop 16).take 5)
        let data := m.payload.drop 32
        let x := s.window w
        let s0 := s.modStrait d fun y => { y with remoteIn := rest, accepted := false }
        let inReset := ((s.part? x.partition).map Part.inReset).getD true
        if ¬ (s.strait d).accepted ∧
            (!x.open_ ∨ inReset ∨ x.generation.toNat ≠ gen ∨ x.jobTag.toNat ≠ tag ∨ off + data.length > x.size.toNat) then
          let s1 := s0.modWindow w fun y => { y with dropCount := satAdd32 y.dropCount 1, noted := true }
          let s2 := if x.noted then s1 else
            s1.raise { unit := straitUnit d 0 0 0x3FF, cls := clsWindow, part := if x.open_ then some x.partition else none,
                       actions := actCounted,
                       detail := [(32, w), (36, gen), (40, x.generation.toNat), (44, m.src)] }
          s2.ackMsg d m opWindowClosed 0
        else
          let a := x.base.toNat + off
          (s.modStrait d fun y => { y with accepted := true }).biThen [(a, data.length, true)]
            (fun t => (t.modStrait d fun y => { y with remoteIn := rest, accepted := false }).ackMsg d m opTimeout 0) fun t =>
            if t.outputsHeld (some x.partition) [(a, 0, data)] then t
            else
              match (t.modStrait d fun y => { y with remoteIn := rest, accepted := false }).pwrite (some x.partition) a 0 data with
              | (t1, st, n) => t1.ackMsg d m st n)

/-- SYNC_SIGNAL_ARRIVAL (05 R132): applied when the object belongs to a partition of the job tag; else dropped and counted.
The ACK says DONE either way. -/
def execSyncSignalArrival (d : Fin 6) (s : State) : Host.Outcome State Fault Refusal :=
  .next (
    match (s.strait d).syncIn with
    | [] => s
    | m :: rest =>
      if ¬ s.running then s
      else
        let v := leNat m.payload
        let o := bits v 0 13
        let s0 := (s.modStrait d fun y => { y with syncIn := rest }).ackMsg (m.src % 6) m stOk 0
        match (Tbl.get? s.mem.objOwner o).bind s.part? with
        | some x =>
          if x.jobTag.toNat = bits v 32 32 ∧ ¬ x.inReset then s0.signalMod o (bits v 16 16)
          else s0.modStrait d fun y => { y with syncDrop := satAdd32 y.syncDrop 1 }
        | none => s0.modStrait d fun y => { y with syncDrop := satAdd32 y.syncDrop 1 })

/-- Send a scope-3 signal of a partition (R132, Table 8-11). -/
def State.sendSignal (s : State) (p dest obj inc : Nat) : State :=
  let tag := ((s.part? p).map fun x => x.jobTag.toNat).getD 0
  s.sendMsgs [TxMsg.to dest 0 2 (dest % 6) 0x11 (packBytes 16 [(0, obj), (2, inc % 65536), (4, tag)]) .signal]

/-! ### Telemetry (08 R218) -/

/-- Store a record in a die's ring of 512; the oldest is overwritten and counted as lost. -/
def Strait.record (x : Strait) (r : BitVec 512) : Strait :=
  if x.telemetry.length < 512 then { x with telemetry := x.telemetry ++ [r], head := (x.head + 1) % 512 }
  else { x with telemetry := x.telemetry.drop 1 ++ [r], head := (x.head + 1) % 512, lost := satAdd32 x.lost 1 }

/-- LINK_STATE `state` of a die's port; ring ports read 2. -/
def State.portState (s : State) (d p : Nat) : Nat := if p < 16 then (s.link (16 * d + p)).state else 2

/-- TELEMETRY_SAMPLE (R218, Tables 8-17, 8-18): mode 0 takes 18 port words (util, stall, depth in bits [15:4]); mode 1 the
ten measurements of one port. The sample number advances with each map, and with port 17 of each period. -/
def execTelemetrySample (d : Fin 6) (port : Fin 18) (meas : PortSample) (s : State) : Host.Outcome State Fault Refusal :=
  .next (
    if ¬ s.life.powered ∨ s.life.frozen then s
    else
      let w (i : Nat) : Nat := ((meas.words[i]?).getD 0).toNat
      let n := (s.strait d).sample
      if s.param 0x0806 = 0 then
        let ports := (List.range 18).map fun p => (16 + 2 * p, bits (w p) 4 12 * 16 + s.portState d p)
        s.modStrait d fun x => { x.record (BitVec.ofNat 512 (pack ([(0, s.count.toNat), (8, d.val), (10, n)] ++ ports))) with
          sample := (n + 1) % 65536 }
      else
        let r := pack [(0, s.count.toNat), (8, d.val), (9, port.val + 128), (10, n), (16, w 0 + w 1 * 2 ^ 32), (24, w 2 + w 3 * 2 ^ 32),
          (32, w 4), (36, w 5 + w 6 * 2 ^ 32), (44, w 7), (48, w 8 % 65536), (50, w 9 % 65536)]
        s.modStrait d fun x => { x.record (BitVec.ofNat 512 r) with
          sample := if port.val = 17 then (n + 1) % 65536 else n })

end Sys2Proof.Machine
end

