-- ==== Sys2Proof/Machine/CollMath.lean ====
section
/-! DEFINITION. Collective descriptors and shards (09 R222-R227), and the arithmetic of the parameter update and the density
profile (09 R237-R247). -/

namespace Sys2Proof.Machine

/-- Fields of a collective descriptor (Table 9-1). -/
structure CollDesc where
  op : Nat
  notify : Bool
  supplied : Bool
  stoch : Bool
  sf : Nat
  df : Nat
  n : Nat
  rank : Nat
  id : Nat
  group : Nat
  unit : Nat
  blocks : Nat
  src : Nat
  dst : Nat
  maddr : Nat
  apex : Nat
  state : Nat
  tensor : Word
  index : DWord
  step : Nat
  record : Nat
  obj : Nat
  ticket : Nat

/-- Decode of Table 9-1. -/
def collDesc (d : BitVec 1024) : CollDesc :=
  { op := fld d 0 0 8, notify := flag d 1 0, supplied := flag d 1 1, stoch := flag d 1 2, sf := fld d 2 0 5, df := fld d 3 0 5,
    n := fld d 4 0 13 + 1, rank := fld d 6 0 13, id := fld d 8 0 16, group := fld d 10 0 12, unit := fld d 12 0 20 + 1,
    blocks := fld d 16 0 36 + 1, src := fld d 24 0 40, dst := fld d 32 0 40, maddr := fld d 40 0 40, apex := fld d 48 0 40,
    state := fld d 56 0 40, tensor := BitVec.ofNat 32 (fld d 64 0 32), index := BitVec.ofNat 64 (fld d 68 0 64),
    step := fld d 76 0 32, record := fld d 80 0 4, obj := fld d 82 0 13, ticket := fld d 84 0 16 }

/-- Reducing operations. -/
def CollDesc.reduces (c : CollDesc) : Bool := c.op == 1 || c.op == 2 || c.op == 4 || c.op == 5
/-- Update operations. -/
def CollDesc.updates (c : CollDesc) : Bool := c.op == 4 || c.op == 5 || c.op == 6
/-- Source format. -/
def CollDesc.fs (c : CollDesc) : Fmt := (Fmt.ofCode c.sf).getD .raw
/-- Format of the reduced chunk: FP32 for update operations (Table 9-4 step 6). -/
def CollDesc.fd (c : CollDesc) : Fmt := if c.op = 4 ∨ c.op = 5 then .fp32 else (Fmt.ofCode c.df).getD .raw

/-- R224: first block of the shard of rank k, and the block after its last. -/
def CollDesc.shard (c : CollDesc) (k : Nat) : Nat × Nat :=
  let u := c.blocks / c.unit
  (k * u / c.n * c.unit, (k + 1) * u / c.n * c.unit)
/-- Chunks of the shard of rank k. -/
def CollDesc.chunkCount (c : CollDesc) (k : Nat) : Nat := ((c.shard k).2 - (c.shard k).1 + 31) / 32
/-- First block and number of blocks of chunk x of rank k's shard. -/
def CollDesc.chunk (c : CollDesc) (k x : Nat) : Nat × Nat :=
  ((c.shard k).1 + 32 * x, min 32 ((c.shard k).2 - (c.shard k).1 - 32 * x))

/-- Bytes of a 32-element block in memory. -/
def blockMem (f : Fmt) : Nat := 4 * f.bits

/-- Source formats of Table 9-3. -/
def contribution (n : Nat) : Bool := (decide (1 ≤ n) && decide (n ≤ 5)) || n == 0xC || n == 0x10 || n == 0x11

/-- Wire bytes of a block: contributions (Table 9-3) and reduced or updated data; gathers take Table 9-17. -/
def wireBytes (gather : Bool) (f : Fmt) : Nat :=
  if f = .grid192 then (if gather then 864 else 800) else if f.isMX then blockMem f + 1 else blockMem f

/-- Blocks one body holds (Table 9-6). -/
def bodyBlocks (w : Nat) : Nat := min 32 (4072 / w)

/-- Checks of single fields and relations of a collective descriptor (R222, R223, R448). -/
def collChecks (d : BitVec 1024) : List Chk :=
  let c := collDesc d
  let t (off : Nat) (b : Bool) : Chk := Chk.test off false fun _ => b
  let ops := [1, 2, 3, 4, 5, 6]
  [t 0 (!ops.contains c.op), t 1 (c.op == 3 && (c.supplied || c.stoch)), Chk.rsv 1 3 5, Chk.rsv 2 5 3,
   t 2 (c.reduces && !contribution c.sf), t 2 (c.op == 3 && (c.sf == 0 || c.sf > 0x11)), Chk.rsv 3 5 3,
   t 3 ((c.op == 1 || c.op == 2) && !floatCode c.df), Chk.rsv 4 13 3, t 4 (c.op == 6 && c.n != 1), Chk.rsv 6 13 3,
   t 6 (c.op == 6 && c.rank != 0), t 8 (c.op == 6 && c.id != 0), Chk.rsv 10 12 4, t 10 (c.op == 6 && c.group != 0),
   Chk.rsv 12 20 12, Chk.rsv 16 36 28, Chk.rsv 24 40 24, Chk.rsv 32 40 24, Chk.rsv 40 40 24, Chk.rsv 48 40 24,
   Chk.rsv 56 40 24, Chk.rsv 80 4 4, Chk.rsv 81 0 8, Chk.rsv 82 13 3] ++ Chk.bytes 86 127 ++
  [t 2 (c.op == 3 && c.df != c.sf), t 4 (c.rank ≥ c.n),
   t 10 (c.op != 6 && c.group != 0xFFF && (c.group + c.n - 1 > 4094 || c.n - 1 > 256)), t 12 (c.blocks % c.unit != 0)]

/-- Fields of a density-profile descriptor (Table 9-13) as the stream-unit command whose result it equals (R247). -/
def densityCmd (d : BitVec 1024) : SuCmd :=
  { op := 0x40, supplied := false, stoch := flag d 1 2, sf := (Fmt.ofCode (fld d 2 0 5)).getD .raw,
    df := (Fmt.ofCode (fld d 3 0 5)).getD .raw, sfCode := fld d 2 0 5, dfCode := fld d 3 0 5, cols := fld d 4 0 24 + 1,
    rows := fld d 8 0 24 + 1, stride := fld d 12 0 32, src := fld d 16 0 40, dst := fld d 24 0 40, aux := fld d 40 0 40,
    aux2 := fld d 32 0 40, tensor := BitVec.ofNat 32 (fld d 64 0 32), index := BitVec.ofNat 64 (fld d 68 0 64) }

/-- Checks of a density-profile descriptor (R245). -/
def densityChecks (d : BitVec 1024) : List Chk :=
  let c := densityCmd d
  let units := fld d 48 0 6 + 1
  let t (off : Nat) (b : Bool) : Chk := Chk.test off false fun _ => b
  let one (b n : Nat) : Rows := { base := b, stride := 0, len := n, n := 1 }
  let ro := one c.dst (rowBytes c.df (3 * c.rows))
  let co := one c.aux2 (rowBytes c.df (3 * c.cols))
  let sc := one c.aux (units * c.cols * 64)
  let hit (a b : Rows) : Bool := decide (a.base < b.base + b.len) && decide (b.base < a.base + a.len)
  let srcHit (o : Rows) : Bool := c.srcRows.list.any fun x => hit o (one x.1 x.2)
  [t 0 (fld d 0 0 8 != 0x10), Chk.rsv 1 1 1, Chk.rsv 1 3 5, Chk.rsv 2 5 3, t 2 (!sumSource c.sfCode), Chk.rsv 3 5 3,
   t 3 (!floatCode c.dfCode), Chk.rsv 4 24 8, Chk.rsv 8 24 8, Chk.align 12 32 32, Chk.rsv 16 40 24, Chk.rsv 24 40 24,
   Chk.rsv 32 40 24, Chk.rsv 40 40 24, Chk.rsv 48 6 2] ++ Chk.bytes 49 63 ++ Chk.bytes 76 81 ++ [Chk.rsv 82 13 3] ++
  Chk.bytes 86 127 ++
  [t 2 (c.srcRow % 32 != 0), t 2 (srcHit ro || srcHit co), t 3 (hit ro co), t 3 (hit ro sc || hit co sc)]

/-! ### FP32 operations of the update (R239) -/

/-- Round to FP32. -/
def f32 (v : Val) : Val := Fmt.dec .fp32 (Fmt.enc .fp32 .rne v)
/-- Product. -/
def f32mul (a b : Val) : Val := f32 (a.mul b)
/-- Sum. -/
def f32add (a b : Val) : Val := f32 (a.addE b)
/-- Difference. -/
def f32sub (a b : Val) : Val := f32 (a.addE b.neg)
/-- One rounding of a x b + c. -/
def f32fma (a b c : Val) : Val := f32 ((a.mul b).addE c)
/-- RECIP of Table 3-14. -/
def f32recip (a : Val) : Val := f32 (vecElem 0x08 a .zero .zero)
/-- RSQRT of Table 3-14. -/
def f32rsqrt (a : Val) : Val := f32 (vecElem 0x09 a .zero .zero)
/-- Grid sum of squares, rounded once. -/
def f32sumsq (vs : List Val) : Val :=
  let e := (factorERef vs).2
  f32 ((termsAcc e (vs.map fun v => v.mul v)).value e)
/-- Grid sum, rounded once. -/
def f32sum (vs : List Val) : Val :=
  let e := (factorERef vs).1
  f32 ((termsAcc e vs).value e)

/-- The shard state header (Table 9-10). -/
structure ShardState where
  factored : Bool
  momentum : Bool
  workFmt : Nat
  cols : Nat
  tileRows : Nat
  rcpCols : Val
  rcpRows : Val
  grad : Nat
  set0 : Nat
  set1 : Nat

/-- Decode of Table 9-10. -/
def shardState (bs : List Byte) : ShardState :=
  let v := leNat bs
  let f (off lo n : Nat) : Nat := bits v (8 * off + lo) n
  { factored := f 1 0 1 == 1, momentum := f 1 1 1 == 1, workFmt := f 2 0 5, cols := f 4 0 24, tileRows := f 8 0 16,
    rcpCols := Fmt.dec .fp32 (f 12 0 32), rcpRows := Fmt.dec .fp32 (f 16 0 32), grad := f 24 0 40, set0 := f 32 0 40,
    set1 := f 40 0 40 }

/-- Round an offset up to a 128-byte boundary. -/
def up128 (n : Nat) : Nat := (n + 127) / 128 * 128

/-- Offsets of the areas of a set (Table 9-11) for E elements and T tiles: master, work, m, v_row, v_col, v. -/
structure SetMap where
  master : Nat
  work : Nat
  m : Nat
  vRow : Nat
  vCol : Nat
  v : Nat

/-- Table 9-11. -/
def setMap (h : ShardState) (e t : Nat) : SetMap :=
  let work := up128 (128 + 4 * e)
  let m := up128 (work + 2 * e)
  let vr := if h.momentum then up128 (m + 4 * e) else m
  let vc := if h.factored then up128 (vr + 4 * t * h.tileRows) else vr
  let v := if h.factored then up128 (vc + 4 * t * h.cols) else vr
  { master := 128, work := work, m := m, vRow := vr, vCol := vc, v := v }

/-- The update parameter record (Table 9-12), FP32 fields as values. -/
structure UpdRec where
  first : Nat
  last : Nat
  lr : Val
  beta1 : Val
  oneB1 : Val
  beta2 : Val
  oneB2 : Val
  eps1 : Val
  decay : Val
  clip : Val
  gscale : Val

/-- Decode of Table 9-12. -/
def updRec (r : BitVec 384) : UpdRec :=
  let f (off : Nat) : Val := Fmt.dec .fp32 (fld r off 0 32)
  { first := fld r 0 0 32, last := fld r 4 0 32, lr := f 8, beta1 := f 12, oneB1 := f 16, beta2 := f 20, oneB2 := f 24,
    eps1 := f 28, decay := f 32, clip := f 36, gscale := f 40 }

/-- Source data of one tile: gradients, weights, moments and statistics. -/
structure TileIn where
  g : List Val
  master : List Val
  m : List Val
  vRow : List Val
  vCol : List Val
  v : List Val

/-- What the update of a tile writes: weights, working copy (values), first moment, statistics. -/
structure TileNew where
  master : List Val
  m : List Val
  vRow : List Val
  vCol : List Val
  v : List Val

/-- Element of a list of values. -/
def nth (l : List Val) (i : Nat) : Val := (l[i]?).getD .zero

/-- R239: update_tile, with c1 and c2 of begin_step. -/
def updateTile (h : ShardState) (r : UpdRec) (c1 c2 : Val) (x : TileIn) : TileNew :=
  let g := x.g.map fun v => f32mul v r.gscale
  let cols := h.cols
  let row (i : Nat) : List Val := (g.drop (i * cols)).take cols
  let col (j : Nat) : List Val := (List.range h.tileRows).map fun i => nth g (i * cols + j)
  let stat (old : Val) (vs : List Val) (rcp : Val) : Val :=
    f32fma r.beta2 old (f32mul r.oneB2 (f32add (f32mul (f32sumsq vs) rcp) r.eps1))
  let vr := if h.factored then (List.range h.tileRows).map fun i => stat (nth x.vRow i) (row i) h.rcpCols else []
  let vc := if h.factored then (List.range cols).map fun j => stat (nth x.vCol j) (col j) h.rcpRows else []
  let rm := f32recip (f32mul (f32sum vr) h.rcpRows)
  let elem (k : Nat) : Val × Val × Val :=
    let gk := nth g k
    let vs := f32fma r.beta2 (nth x.v k) (f32mul r.oneB2 (f32add (f32mul gk gk) r.eps1))
    let v := if h.factored then f32mul (f32mul (f32mul (nth vr (k / cols)) (nth vc (k % cols))) rm) c2 else f32mul vs c2
    let m := if h.momentum then f32fma r.beta1 (nth x.m k) (f32mul r.oneB1 gk) else .zero
    let n := if h.momentum then f32mul m c1 else gk
    let u := f32mul n (f32rsqrt v)
    let u := (r.clip.neg).maximum (r.clip.minimum u)
    let w := nth x.master k
    (f32sub w (f32mul r.lr (f32fma r.decay w u)), m, vs)
  let es := (List.range g.length).map elem
  { master := es.map fun e => e.1, m := if h.momentum then es.map fun e => e.2.1 else [], vRow := vr, vCol := vc,
    v := if h.factored then [] else es.map fun e => e.2.2 }

/-- R239: begin_step: pow1, pow2, c1, c2 from the source header's pow1 and pow2. -/
def beginStep (r : UpdRec) (p1 p2 : Val) : Val × Val × Val × Val :=
  let a := f32mul p1 r.beta1
  let b := f32mul p2 r.beta2
  (a, b, f32recip (f32sub .one a), f32recip (f32sub .one b))

/-- FP32 values of a byte run. -/
def f32vals (bs : List Byte) (n : Nat) : List Val := (elemsOf .fp32 bs n).map (Fmt.dec .fp32)
/-- Bytes of FP32 values. -/
def f32bytes (vs : List Val) : List Byte := packRun .fp32 (4 * vs.length) (vs.map (Fmt.enc .fp32 .rne))

end Sys2Proof.Machine
end

