-- ==== Sys2Proof/Machine/Collectives.lean ====
section
/-! DEFINITION. Collectives: start, the two rounds, packets, the update and completion (09 R222-R249), and the
acknowledgements and resends of sequenced messages (08 R207, R217). -/

namespace Sys2Proof.Machine

/-! ### Access -/

/-- The collective of a key that has not been retired. -/
def State.coll? (s : State) (k : CollKey) : Option Coll := s.coll.list.find? fun c => c.key == k
/-- Change the collective of a key. -/
def State.modColl (s : State) (k : CollKey) (f : Coll → Coll) : State :=
  { s with coll := { s.coll with list := s.coll.list.map fun c => if c.key == k then f c else c } }
/-- Fields of its descriptor. -/
def Coll.d (c : Coll) : CollDesc := collDesc c.img
/-- Ranks of the other members in rank order. -/
def Coll.others (c : Coll) : List Nat := (List.range c.members.length).filter (· != c.d.rank)
/-- Module of a rank. -/
def Coll.member (c : Coll) (k : Nat) : Nat := (c.members[k]?).getD 0
/-- A running, unfinished collective. -/
def Coll.live (c : Coll) : Bool := c.running && c.finished.isNone
/-- Unit of a network interface. -/
def niUnit (d : Nat) : Word := straitUnit d 12 0 0x3FF

/-! ### Packets (Tables 9-5, 9-6) -/

/-- Collective header. -/
def collHeader (c : Coll) (owner ctrl format chunk first blocks : Nat) : List Byte :=
  packBytes 24 [(0, c.key.collId.toNat), (2, owner), (4, c.d.rank), (6, ctrl), (7, format), (8, chunk), (12, first), (13, blocks),
    (16, c.key.jobTag.toNat), (20, c.key.step.toNat)]

/-- A collective message to one rank. -/
def Coll.unicast (c : Coll) (kind to_ owner ctrl format chunk first blocks : Nat) (body : List Byte) : TxMsg :=
  { TxMsg.to (c.member to_) 2 kind (chunk % 6) (chunk % 6) (collHeader c owner ctrl format chunk first blocks ++ body)
      (.coll c.key) with ticket := c.d.ticket }

/-- A message of the owner of rank `d.rank` to every other member: by its group, or one by one (R228). -/
def Coll.toAll (c : Coll) (kind ctrl format chunk first blocks : Nat) (body : List Byte) : List TxMsg :=
  let d := c.d
  if d.n = 1 then []
  else if d.group = 0xFFF then c.others.map fun k => c.unicast kind k d.rank ctrl format chunk first blocks body
  else [{ c.unicast kind 0 d.rank ctrl format chunk first blocks body with
          mcast := true, dest := d.group + d.rank, targets := c.others.map c.member }]

/-- Split a run of blocks of one chunk into bodies: (first, blocks, bytes). -/
def bodies (w first : Nat) (data : List (List Byte)) : List (Nat × Nat × List Byte) :=
  (chunks (data.length + 1) (bodyBlocks w) data).zipIdx.map fun x => (first + x.2 * bodyBlocks w, x.1.length, x.1.flatten)

/-! ### Reading contributions -/

/-- Apex words of a contribution's blocks [b, b + n) of `src` (Table 9-3). -/
def Coll.apexWords (c : Coll) (s : State) (b n : Nat) : State × Nat × List Half :=
  let d := c.d
  let who := some c.part
  if d.fs = .grid192 then
    match s.readMem who (d.src + d.blocks * 768 + b * 64) (n * 64) with
    | (s1, st, _, bs) => (s1, st, (chunks (n + 1) 32 (halves bs (32 * n))).map fun l => l.foldl apexCombine (apexMk false false false none))
  else
    match s.readMem who (d.src + b * blockMem d.fs) (n * blockMem d.fs) with
    | (s1, st, _, bs) => (s1, st, (chunks (n + 1) (blockMem d.fs) bs).map fun l => apexOf ((unpackRun d.fs l 32).map d.fs.dec))

/-- Flag bytes of 32 per-element apex words (Table 9-3). -/
def flagBytes (hs : List Half) : List Byte :=
  hs.map fun h => BitVec.ofNat 8 (b2n (apexNan h) + 2 * b2n (apexPinf h) + 4 * b2n (apexNinf h))

/-- Wire form of blocks [b, b + n) of a tensor of `total` blocks at `base` (Tables 9-3, 9-17); MX scale bytes at `scales`. -/
def Coll.wire (c : Coll) (s : State) (gather : Bool) (f : Fmt) (base total scales b n : Nat) : State × Nat × List (List Byte) :=
  let who := some c.part
  match s.readMem who (base + b * blockMem f) (n * blockMem f) with
  | (s1, st, _, bs) =>
    if st ≠ stOk then (s1, st, []) else
    let els := chunks (n + 1) (blockMem f) bs
    if f = .grid192 then
      match s1.readMem who (base + total * 768 + b * 64) (n * 64) with
      | (s2, st2, _, ap) =>
        if st2 ≠ stOk then (s2, st2, []) else
        (s2, stOk, (els.zip (chunks (n + 1) 64 ap)).map fun x =>
          x.1 ++ flagBytes (halves x.2 32) ++ (if gather then x.2 else []))
    else if f.isMX then
      match s1.readMem who (scales + b) n with
      | (s2, st2, _, sc) => if st2 ≠ stOk then (s2, st2, []) else (s2, stOk, (els.zip sc).map fun x => x.1 ++ [x.2])
    else (s1, stOk, els)

/-- Write gathered blocks: elements, scale bytes or apex words at block b of the tensor at `base`. -/
def Coll.unwire (c : Coll) (s : State) (f : Fmt) (base total scales b : Nat) (blocks : List (List Byte)) : State × Nat :=
  let who := some c.part
  let runs : List (Nat × Nat × List Byte) := (blocks.zipIdx.map fun x =>
    let at_ := base + (b + x.2) * blockMem f
    if f = .grid192 then [(at_, 0x11, x.1.take 768), (base + total * 768 + (b + x.2) * 64, 0, x.1.drop 800)]
    else if f.isMX then [(at_, f.code, x.1.take (blockMem f)), (scales + b + x.2, 0, x.1.drop (blockMem f))]
    else [(at_, f.code, x.1)]).flatten
  match State.writeAll runs s who with
  | (s1, st, _) => (s1, st)

/-! ### Ending a collective (R236, Tables 9-8, 9-9) -/

/-- The completion word (Table 9-9). -/
def Coll.word (c : Coll) (status offset : Nat) : DWord :=
  BitVec.ofNat 64 ((c.written.length % 2 ^ 32) * 2 ^ 32 + (if status = 1 then offset % 64 else 0) * 2 ^ 26 + b2n c.nonfinite * 2 ^ 25
    + b2n c.low * 2 ^ 24 + status * 2 ^ 16 + c.d.ticket)

/-- A collective ends: its word goes to the stream processor, its messages are dropped, accumulators freed. -/
def State.endColl (s : State) (k : CollKey) (status : Nat) : State :=
  match s.coll? k with
  | none => s
  | some c =>
    if c.finished.isSome then s else
    let w := c.word status 0
    let mine (m : TxMsg) : Bool := m.owner == .coll k
    let s1 := (s.modColl k fun x => { x with finished := some w, accs := [] }).modFab fun f =>
      { f with waiting := f.waiting.filter (fun m => !mine m), unacked := f.unacked.filter (fun m => !mine m) }
    let s2 := s1.completeCmd c.part c.st c.idx (unitVerdict w none 0)
    if c.d.notify then s2.signalMod c.d.obj 1 else s2

/-- Table 9-8: a fault in a network interface or update engine ends every running collective with ABORTED, and their
partitions' steps roll back. -/
def State.abortColls (s : State) (cls : Half) (seq : Word) : State :=
  (s.coll.list.filter Coll.live).foldl (fun t c =>
    (t.endColl c.key 13).rollOrStop c.part { cls := cls, addr := none, position := none, recordSeq := seq }) s

/-- An uncorrectable word ends the collective, and the step rolls back (through the completion's verdict). -/
def State.failColl (s : State) (k : CollKey) (st : Nat) : State :=
  s.endColl k (if st = opSymbol then 6 else if st = opDestReset then 4 else if st = opTimeout then 11 else 3)

/-! ### The owner's rounds (Table 9-4) -/

/-- Chunk accumulator x. -/
def Coll.acc (c : Coll) (x : Nat) : ChunkAcc := Tbl.getD c.accs x { words := [], granted := false, blocksFrom := [], elems := [] }
/-- Change accumulator x. -/
def Coll.modAcc (c : Coll) (x : Nat) (f : ChunkAcc → ChunkAcc) : Coll := { c with accs := Tbl.set c.accs x (f (c.acc x)) }

/-- A member's chunk 0-based window start of owner k: its lowest chunk not done. -/
def Coll.winStart (c : Coll) (k : Nat) : Nat :=
  let done := if k = c.d.rank then c.written else Tbl.getD c.doneAt k []
  ((List.range (c.d.chunkCount k + 1)).find? fun x => !done.contains x).getD (c.d.chunkCount k)

/-- Note the apex words of one member for an own chunk (step 2). -/
def Coll.noteApex (c : Coll) (x rank : Nat) (ws : List Half) : Coll :=
  if c.written.contains x then c
  else c.modAcc x fun a => if (Tbl.get? a.words rank).isSome then a else { a with words := Tbl.set a.words rank ws }

/-- R229: send COLL_APEX for the chunks of every owner's window not asked yet; the own ones stay local. -/
def State.askWindow (s : State) (k : CollKey) : State :=
  match s.coll? k with
  | none => s
  | some c0 =>
    (List.range c0.d.n).foldl (fun t owner =>
      match t.coll? k with
      | none => t
      | some c =>
        if !c.live then t else
        let lo := Tbl.getD c.asked owner 0
        let hi := min (c.winStart owner + c.window) (c.d.chunkCount owner)
        (List.range (hi - lo)).foldl (fun u i =>
          match u.coll? k with
          | none => u
          | some c =>
            if !c.live then u else
            let x := lo + i
            let ch := c.d.chunk owner x
            match if c.d.supplied then (u, stOk, []) else c.apexWords u ch.1 ch.2 with
            | (u1, st, ws) =>
              if st ≠ stOk then u1.failColl k st
              else
                let u2 := u1.modColl k fun y => { y with asked := Tbl.set y.asked owner (x + 1) }
                if owner = c.d.rank then u2.modColl k fun y => y.noteApex x owner ws
                else u2.sendMsgs [c.unicast 4 owner owner 0 0 x 0 ws.length (ws.map fun h => leBytes 2 h.toNat).flatten]) t) s

/-- E_ref exponents of an own chunk: supplied, or the combined words (step 3). -/
def Coll.eRefs (c : Coll) (s : State) (x : Nat) : State × Nat × List Half :=
  let n := (c.d.chunk c.d.rank x).2
  if c.d.supplied then
    match s.readMem (some c.part) (c.d.apex + 64 * x) (2 * n) with
    | (s1, st, _, bs) => (s1, st, halves bs n)
  else (s, stOk, (List.range n).map fun b => (c.acc x).words.foldl (fun h w => apexCombine h ((w.2[b]?).getD apexNone)) (apexMk false false false none))

/-- Elements of one wire block of a contribution as accumulator terms under E_ref e (R226); the member's own apex word
decides E_ref of a GRID block. -/
def contribTerms (c : CollDesc) (e : Int) (own : Option Int) (wire : List Byte) : List Acc × Bool :=
  if c.fs = .grid192 then
    let fl := wire.drop 768
    let off := own.isSome && own != some e
    ((List.range 32).map fun i =>
      let b := ((fl[i]?).getD 0)
      ({ sum := gridInt (BitVec.ofNat 192 (leNat ((wire.drop (24 * i)).take 24))), nan := b.getLsbD 0 || off, pinf := b.getLsbD 1,
         ninf := b.getLsbD 2 } : Acc), off)
  else
    let vs := (unpackRun c.fs wire 32).map c.fs.dec
    let r := vs.map fun v => suppliedSum e c.supplied [v]
    (r.map fun x => x.1, r.any fun x => x.2)

/-- Step 5: blocks of one member are added into an own chunk's accumulator. -/
def Coll.addBlocks (c : Coll) (refs : List Half) (x rank first : Nat) (wire : List (List Byte)) : Coll :=
  let a := c.acc x
  let got := Tbl.getD a.blocksFrom rank []
  let fresh := (wire.zipIdx.map fun w => (first + w.2, w.1)).filter fun w => !got.contains w.1
  let n := (c.d.chunk c.d.rank x).2
  let elems := if a.elems.length = 32 * n then a.elems else List.replicate (32 * n) (0, false, false, false)
  let r := fresh.foldl (fun (p : List (Int × Bool × Bool × Bool) × Bool) w =>
    let e := apexExp ((refs[w.1]?).getD apexNone)
    let own := if c.d.supplied then none else ((Tbl.getD a.words rank [])[w.1]?).map apexExp
    match contribTerms c.d e own w.2 with
    | (ts, low) =>
      (p.1.zipIdx.map fun q =>
        if q.2 / 32 = w.1 then
          let t := (ts[q.2 % 32]?).getD Acc.zero
          (q.1.1 + t.sum, q.1.2.1 || t.nan, q.1.2.2.1 || t.pinf, q.1.2.2.2 || t.ninf)
        else q.1, p.2 || low)) (elems, false)
  { c.modAcc x fun a => { a with elems := r.1, blocksFrom := Tbl.set a.blocksFrom rank (got ++ fresh.map fun w => w.1) } with
    low := c.low || r.2 }

/-- Step 6: the rounded blocks of a complete own chunk. -/
def Coll.rounded (c : Coll) (refs : List Half) (x : Nat) : List (List Byte) :=
  let d := c.d
  let b0 := (d.chunk d.rank x).1
  let vals := (c.acc x).elems.zipIdx.map fun q =>
    let e := apexExp ((refs[q.2 / 32]?).getD apexNone)
    let md := if d.updates then Rounding.rne else Rounding.of d.stoch c.seed d.tensor (d.index + BitVec.ofNat 64 (32 * b0 + q.2))
    d.fd.enc md (({ sum := q.1.1, nan := q.1.2.1, pinf := q.1.2.2.1, ninf := q.1.2.2.2 } : Acc).value e)
  (chunks (vals.length + 1) 32 vals).map fun b => packRun d.fd (blockMem d.fd) b

/-- Where an own chunk is written (step 6): `dst`, or the shard's gradient area. -/
def Coll.resultAt (c : Coll) (grad x : Nat) : Nat :=
  let d := c.d
  if d.updates then grad + 32 * x * 128
  else if d.op = 2 then d.dst + (d.chunk d.rank x).1 * blockMem d.fd
  else d.dst + 32 * x * blockMem d.fd

/-- The shard state of an update operation. -/
def Coll.header (c : Coll) (s : State) : State × Nat × ShardState :=
  if c.d.updates then
    match s.readMem (some c.part) c.d.state 64 with
    | (s1, st, _, bs) => (s1, st, shardState bs)
  else (s, stOk, shardState [])

/-- Steps 3 to 8 for one own chunk, as far as they can go now. -/
def State.ownChunk (s : State) (k : CollKey) (x : Nat) : State :=
  match s.coll? k with
  | none => s
  | some c =>
    let d := c.d
    let n := (d.chunk d.rank x).2
    if ¬ c.live ∨ c.written.contains x ∨ (c.acc x).words.length < d.n then s
    else
      match c.eRefs s x with
      | (s1, st, refs) =>
        if st ≠ stOk then s1.failColl k st else
        let s2 := if (c.acc x).granted then s1 else
          (s1.modColl k fun y => y.modAcc x fun a => { a with granted := true }).sendMsgs (c.toAll 3 1 0 x 0 0 [])
        match s2.coll? k with
        | none => s2
        | some c2 =>
          let own := Tbl.getD (c2.acc x).blocksFrom d.rank []
          match if own.length < n then c2.wire s2 false d.fs d.src d.blocks 0 (d.chunk d.rank x).1 n else (s2, stOk, []) with
          | (s3, st3, wire) =>
            if st3 ≠ stOk then s3.failColl k st3 else
            let c3 := c2.addBlocks refs x d.rank 0 wire
            let s4 := s3.modColl k fun _ => c3
            let full := (List.range d.n).all fun r => (Tbl.getD (c3.acc x).blocksFrom r []).length ≥ n
            if !full then s4
            else
              match c3.header s4 with
              | (s5, st5, h) =>
                if st5 ≠ stOk then s5.failColl k st5 else
                let data := c3.rounded refs x
                let at_ := c3.resultAt h.grad x
                s5.biThen [(at_, data.flatten.length, true)] (fun t => t.failColl k opTimeout) fun t =>
                match t.pwrite (some c.part) at_ (BitVec.ofNat 5 d.fd.code) data.flatten with
                | (t1, st6, _) =>
                  if st6 ≠ stOk then t1.failColl k st6 else
                  let t2 := t1.modColl k fun y => { y with written := y.written ++ [x], accs := Tbl.erase y.accs x }
                  if d.op = 2 then
                    t2.sendMsgs ((bodies (wireBytes false d.fd) 0 data).map fun b => c.toAll 5 0 d.fd.code x b.1 b.2.1 b.2.2).flatten
                  else t2.sendMsgs (c.toAll 3 2 0 x 0 0 [])

/-- Everything an owner and member can do now without a packet: own chunks in order, then the windows. -/
def State.pushColl : Nat → State → CollKey → State
  | 0, s, _ => s
  | n + 1, s, k =>
    match s.coll? k with
    | none => s
    | some c =>
      if ¬ c.live ∨ ¬ c.d.reduces then s
      else
        let s1 := (c.accs.foldl (fun t a => t.ownChunk k a.1) s).askWindow k
        if s1.coll.list = s.coll.list then s1 else State.pushColl n s1 k

/-- Bound of the pushes that can follow one another. -/
def State.push (s : State) (k : CollKey) : State :=
  State.pushColl (((s.coll? k).map fun c => 2 * c.d.chunkCount c.d.rank + 4).getD 0) s k

/-! ### Starting (R222, R230, R232) -/

/-- The memory a collective reads and writes at its start, for the snoop filter. -/
def Coll.ranges (c : Coll) : List (Nat × Nat × Bool) :=
  let d := c.d
  let f := d.fs
  let own := (d.shard d.rank).2 - (d.shard d.rank).1
  if d.op = 0x10 then []
  else [(d.src, (if d.op = 3 then own else d.blocks) * blockMem f, false)]

/-- ALL_GATHER: the own shard goes to its place in `dst`. -/
def State.gatherOwn (s : State) (k : CollKey) : State :=
  match s.coll? k with
  | none => s
  | some c =>
    let d := c.d
    let lo := (d.shard d.rank).1
    let n := (d.shard d.rank).2 - lo
    match c.wire s true d.fs d.src n d.apex 0 n with
    | (s1, st, ws) =>
      if st ≠ stOk then s1.failColl k st else
      match c.unwire s1 d.fs d.dst d.blocks d.state lo ws with
      | (s2, st2) => if st2 ≠ stOk then s2.failColl k st2 else s2.modColl k fun y =>
          { y with written := List.range (d.chunkCount d.rank) }

/-- COLLECTIVE_START (R222): the first waiting collective starts when fewer than 8 run. -/
def execCollectiveStart (s : State) : Host.Outcome State Fault Refusal :=
  .next (
    match s.coll.list.find? fun c => !c.running with
    | none => s
    | some c =>
      if ¬ s.running ∨ (s.coll.list.countP Coll.live) ≥ 8 then s
      else
        s.biThen c.ranges (fun t => t.failColl c.key opTimeout) fun t =>
        let s1 := t.modColl c.key fun y => { y with running := true, window := s.param 0x0900 }
        let s2 := if c.d.op = 3 then
            (s1.gatherOwn c.key).sendMsgs (c.others.map fun k => c.unicast 3 k k 0 0 0 0 0 [])
          else s1
        let is_ (m : FMsg) : Bool :=
          bits (leNat m.payload) 0 16 == c.key.collId.toNat && bits (leNat m.payload) 128 32 == c.key.jobTag.toNat
            && bits (leNat m.payload) 160 32 == c.key.step.toNat
        let s3 := (List.range 6).foldl (fun u d => u.modStrait d fun x => { x with
          collIn := (x.early.filter fun e => is_ e.1).map Prod.fst ++ x.collIn, early := x.early.filter fun e => !is_ e.1 }) s2
        s3.push c.key)

/-! ### Packets (Table 9-7) -/

/-- A collective packet's header fields. -/
structure CollHdr where
  key : CollKey
  owner : Nat
  sender : Nat
  ctrl : Nat
  format : Nat
  chunk : Nat
  first : Nat
  blocks : Nat

/-- Decode of Table 9-5. -/
def collHdr (p : List Byte) : CollHdr :=
  let v := leNat (p.take 24)
  { key := { jobTag := BitVec.ofNat 32 (bits v 128 32), collId := BitVec.ofNat 16 (bits v 0 16), step := BitVec.ofNat 32 (bits v 160 32) },
    owner := bits v 16 13, sender := bits v 32 13, ctrl := bits v 48 2, format := bits v 56 5, chunk := bits v 64 32,
    first := bits v 96 6, blocks := bits v 104 6 }

/-- Count a dropped collective packet at die d. -/
def State.collDrop (s : State) (d : Nat) : State := s.modStrait d fun x => { x with collDrop := satAdd32 x.collDrop 1 }

/-- A packet at the front of die d's interface, taken when it is of the row's kind; `go` applies a matching one and says
whether it was taken. -/
def State.collPacket (s : State) (d kind : Nat) (ctrl : Option Nat) (go : State → Coll → CollHdr → List Byte → State × Bool) : State :=
  match (s.strait d).collIn with
  | [] => s
  | m :: rest =>
    let h := collHdr m.payload
    if ¬ s.running ∨ m.kind ≠ kind ∨ (ctrl.isSome ∧ ctrl ≠ some h.ctrl) then s
    else
      let s0 := s.modStrait d fun x => { x with collIn := rest }
      let fd := m.src % 6
      let owner := s.parts.find? fun e => e.2.jobTag == h.key.jobTag
      if (owner.map fun e => e.2.inReset).getD false then s0.ackMsg fd m opDestReset 0
      else
        match s.coll? h.key with
        | some c =>
          if !c.running then
            if kind = 5 then s0.collDrop d
            else if (s0.strait d).early.length < 4096 then
              (s0.modStrait d fun x => { x with early := x.early ++ [(m, s.count)] }).ackMsg fd m stOk 0
            else s0.collDrop d
          else if c.finished.isSome then s0.ackMsg fd m stOk 0
          else
            match go s0 c h (m.payload.drop 24) with
            | (s1, took) => if took then s1.ackMsg fd m stOk 0 else s1.collDrop d
        | none =>
          if kind = 5 then s0.collDrop d
          else if (s0.strait d).early.length < 4096 then
            (s0.modStrait d fun x => { x with early := x.early ++ [(m, s.count)] }).ackMsg fd m stOk 0
          else s0.collDrop d

/-- COLL_APEX (R228 step 2): the owner notes the member's words, and grants after the last. -/
def execCollApex (d : Fin 6) (s : State) : Host.Outcome State Fault Refusal :=
  .next (s.collPacket d 4 none fun t c h body =>
    let n := (c.d.chunk c.d.rank h.chunk).2
    if h.owner ≠ c.d.rank ∨ h.sender ≥ c.d.n ∨ h.chunk ≥ c.d.chunkCount c.d.rank then (t, false)
    else if c.d.op = 3 then ((t.modColl c.key fun y => { y with joined := y.joined ++ [h.sender] }), true)
    else if h.blocks ≠ (if c.d.supplied then 0 else n) then (t, false)
    else ((t.modColl c.key fun y => { y with joined := y.joined ++ [h.sender] }.noteApex h.chunk h.sender (halves body h.blocks)).push c.key, true))

/-- COLL_JOIN (R230). -/
def execCollJoin (d : Fin 6) (s : State) : Host.Outcome State Fault Refusal :=
  .next (s.collPacket d 3 (some 0) fun t c h _ =>
    if h.owner ≠ c.d.rank ∨ h.sender ≥ c.d.n then (t, false)
    else (t.modColl c.key fun y => { y with joined := if y.joined.contains h.sender then y.joined else y.joined ++ [h.sender] }, true))

/-- COLL_GRANT (R228 steps 3, 4): the member sends its chunk in its form. -/
def execCollGrant (d : Fin 6) (s : State) : Host.Outcome State Fault Refusal :=
  .next (s.collPacket d 3 (some 1) fun t c h _ =>
    if h.owner = c.d.rank ∨ h.sender ≠ h.owner ∨ h.chunk ≥ c.d.chunkCount h.owner then (t, false)
    else if (Tbl.getD c.given h.owner []).contains h.chunk then (t, true)
    else
      let ch := c.d.chunk h.owner h.chunk
      match c.wire t false c.d.fs c.d.src c.d.blocks 0 ch.1 ch.2 with
      | (t1, st, ws) =>
        if st ≠ stOk then (t1.failColl c.key st, true)
        else ((t1.modColl c.key fun y => { y with given := Tbl.set y.given h.owner (Tbl.getD y.given h.owner [] ++ [h.chunk]) }).sendMsgs
          ((bodies (wireBytes false c.d.fs) 0 ws).map fun b => c.unicast 5 h.owner h.owner 0 c.d.sf h.chunk b.1 b.2.1 b.2.2), true))

/-- COLL_DONE (R229): the member's window moves on. -/
def execCollDone (d : Fin 6) (s : State) : Host.Outcome State Fault Refusal :=
  .next (s.collPacket d 3 (some 2) fun t c h _ =>
    if h.owner = c.d.rank ∨ h.sender ≠ h.owner ∨ h.chunk ≥ c.d.chunkCount h.owner then (t, false)
    else
      let done := Tbl.getD c.doneAt h.owner []
      ((t.modColl c.key fun y => { y with doneAt := Tbl.set y.doneAt h.owner (if done.contains h.chunk then done else done ++ [h.chunk]) }).push
        c.key, true))

/-- Format of the blocks a gather brings. -/
def Coll.gatherFmt (c : Coll) (s : State) : Fmt :=
  if c.d.op = 3 then c.d.fs else if c.d.op = 5 then (Fmt.ofCode (c.header s).2.2.workFmt).getD .raw else c.d.fd

/-- COLL_DATA (R228 steps 4 to 7, R227, R243, R252): accumulated at its owner, or written at its place by a member; a failed
residue check fences the interface and ends the module's collectives with ABORTED. -/
def execCollData (d : Fin 6) (residueOk : Bool) (s : State) : Host.Outcome State Fault Refusal :=
  .next (
    if ¬ residueOk ∧ (((s.strait d).collIn.head?).map FMsg.kind) = some 5 ∧ ¬ s.isFenced (niUnit d) ∧ s.running then
      let m := ((s.strait d).collIn.head?).map FMsg.payload
      let h := collHdr (m.getD [])
      let u := niUnit d
      let seq := s.nextSeq u
      let s1 := (s.raise { unit := u, cls := clsResidue, opKind := 6, opCode := ((s.coll? h.key).map fun c => c.d.op).getD 0,
                           part := (s.coll? h.key).map Coll.part, scope := 7, actions := actFenced + actRolled,
                           detail := [(32, h.key.collId.toNat), (34, 0xFF), (36, Config.failedElement s.freeCtr % 2 ^ 64)] }).freshen
      (s1.fenceUnit u clsResidue seq).abortColls clsResidue seq
    else s.collPacket d 5 none fun t c h body =>
      if h.owner = c.d.rank then
        let n := (c.d.chunk c.d.rank h.chunk).2
        let w := wireBytes false c.d.fs
        let ws := chunks 33 w body
        if ¬ c.d.reduces ∨ h.format ≠ c.d.sf ∨ h.sender ≥ c.d.n ∨ h.chunk ≥ c.d.chunkCount c.d.rank ∨ h.first + h.blocks > n
            ∨ body.length ≠ h.blocks * w then (t, false)
        else if c.written.contains h.chunk then (t, true)
        else if (c.acc h.chunk).words.length < c.d.n then (t, false)
        else
          match c.eRefs t h.chunk with
          | (t1, st, refs) =>
            if st ≠ stOk then (t1.failColl c.key st, true)
            else ((t1.modColl c.key fun y => y.addBlocks refs h.chunk h.sender h.first ws).push c.key, true)
      else
        let f := c.gatherFmt t
        let w := wireBytes true f
        let ch := c.d.chunk h.owner h.chunk
        if c.d.op = 1 ∨ c.d.op = 4 ∨ c.d.op = 6 ∨ h.sender ≠ h.owner ∨ h.format ≠ f.code ∨ h.owner ≥ c.d.n
            ∨ h.chunk ≥ c.d.chunkCount h.owner ∨ h.first + h.blocks > ch.2 ∨ body.length ≠ h.blocks * w then (t, false)
        else
          let got := Tbl.getD c.arrived h.owner []
          let new := (List.range h.blocks).map fun i => 32 * h.chunk + h.first + i
          match c.unwire t f c.d.dst c.d.blocks c.d.state (ch.1 + h.first) (chunks 33 w body) with
          | (t1, st) =>
            if st ≠ stOk then (t1.failColl c.key st, true)
            else
              let all := got ++ new.filter fun b => !got.contains b
              let full := (List.range ch.2).all fun i => all.contains (32 * h.chunk + i)
              let done := Tbl.getD c.doneAt h.owner []
              ((t1.modColl c.key fun y => { y with
                arrived := Tbl.set y.arrived h.owner all,
                doneAt := if c.d.op = 2 ∧ full ∧ ¬ done.contains h.chunk then Tbl.set y.doneAt h.owner (done ++ [h.chunk]) else y.doneAt }).push
                c.key, true))

/-- EARLY_POOL_EXPIRY (R232): the oldest early packet is discarded and counted. -/
def execEarlyPoolExpiry (d : Fin 6) (s : State) : Host.Outcome State Fault Refusal :=
  .next (
    match (s.strait d).early with
    | [] => s
    | _ :: r => s.modStrait d fun x => { x with early := r, earlyDrop := satAdd32 x.earlyDrop 1 })

/-! ### The update (R237-R243) -/

/-- Elements and tiles of an update op's own shard. -/
def Coll.shardSize (c : Coll) : Nat × Nat :=
  let lo := (c.d.shard c.d.rank).1
  let hi := (c.d.shard c.d.rank).2
  (32 * (hi - lo), (hi - lo) / c.d.unit)

/-- Read FP32 values. -/
def State.readF32 (s : State) (who : Option Nat) (a n : Nat) : State × Nat × List Val :=
  match s.readMem who a (4 * n) with
  | (s1, st, _, bs) => (s1, st, f32vals bs n)

/-- Read several FP32 runs: the first failure decides. -/
def State.readF32s : List (Nat × Nat) → State → Option Nat → State × Nat × List (List Val)
  | [], s, _ => (s, stOk, [])
  | (a, n) :: r, s, who =>
    match s.readF32 who a n with
    | (s1, st, vs) =>
      if st ≠ stOk then (s1, st, [])
      else
        match State.readF32s r s1 who with
        | (s2, st2, more) => (s2, st2, vs :: more)

/-- The update record of a collective's slot. -/
def State.updRec (s : State) (p slot : Nat) : UpdRec :=
  Sys2Proof.Machine.updRec (((s.part? p).map fun x => Tbl.getD x.updSlots slot 0).getD 0)

/-- Update tile i of an update op's shard (R239, R241): its target areas are written; a non-finite tile copies its source. -/
def State.runTile (s : State) (k : CollKey) (die i : Nat) : State :=
  match s.coll? k with
  | none => s
  | some c =>
    let who := some c.part
    match c.header s with
    | (s1, st, h) =>
      if st ≠ stOk then s1.failColl k st else
      let (e, t) := c.shardSize
      let mp := setMap h e t
      let src := if (c.d.step + 2 ^ 32 - 1) % 2 = 0 then h.set0 else h.set1
      let dst := if c.d.step % 2 = 0 then h.set0 else h.set1
      let n := 32 * c.d.unit
      let r := s1.updRec c.part c.d.record
      let z (b : Bool) (x : Nat) : Nat := if b then x else 0
      match State.readF32s [(h.grad + 4 * n * i, n), (src + mp.master + 4 * n * i, n), (src + mp.m + 4 * n * i, z h.momentum n),
          (src + mp.vRow + 4 * h.tileRows * i, z h.factored h.tileRows), (src + mp.vCol + 4 * h.cols * i, z h.factored h.cols),
          (src + mp.v + 4 * n * i, z (!h.factored) n), (src + 4, 2)] s1 who with
      | (s2, st2, ls) =>
        if st2 ≠ stOk then s2.failColl k st2 else
        let g (j : Nat) : List Val := (ls[j]?).getD []
        let x : TileIn := { g := g 0, master := g 1, m := g 2, vRow := g 3, vCol := g 4, v := g 5 }
        let b := beginStep r (nth (g 6) 0) (nth (g 6) 1)
        let skip := (x.g.map fun v => f32mul v r.gscale).any Val.isSpecial
        let y : TileNew := if skip then { master := x.master, m := x.m, vRow := x.vRow, vCol := x.vCol, v := x.v }
          else updateTile h r b.2.2.1 b.2.2.2 x
        let wf := (Fmt.ofCode h.workFmt).getD .fp16
        match if skip then s2.readMem who (src + mp.work + 2 * n * i) (2 * n) else (s2, stOk, 0, []) with
        | (s2, stw, _, oldWork) =>
          if stw ≠ stOk then s2.failColl k stw else
          let work := if skip then oldWork else packRun wf (2 * n) (y.master.map (wf.enc .rne))
          let ws := [(dst + mp.master + 4 * n * i, 1, f32bytes y.master), (dst + mp.work + 2 * n * i, h.workFmt, work)]
            ++ (if h.momentum then [(dst + mp.m + 4 * n * i, 1, f32bytes y.m)] else [])
            ++ (if h.factored then [(dst + mp.vRow + 4 * h.tileRows * i, 1, f32bytes y.vRow), (dst + mp.vCol + 4 * h.cols * i, 1, f32bytes y.vCol)]
                else [(dst + mp.v + 4 * n * i, 1, f32bytes y.v)])
          match State.writeAll ws s2 who with
          | (s3, st3, _) =>
            if st3 ≠ stOk then s3.failColl k st3 else
            let s4 := if skip then s3.modStrait die fun q => { q with nonfinite := satAdd32 q.nonfinite 1 } else s3
            s4.modColl k fun q => { q with tiles := q.tiles ++ [i], nonfinite := q.nonfinite || skip }

/-- After the last tile the target header takes pow1, pow2 and last_step (R239). -/
def State.endUpdate (s : State) (k : CollKey) : State :=
  match s.coll? k with
  | none => s
  | some c =>
    let who := some c.part
    match c.header s with
    | (s1, st, h) =>
      if st ≠ stOk then s1.failColl k st else
      let src := if (c.d.step + 2 ^ 32 - 1) % 2 = 0 then h.set0 else h.set1
      let dst := if c.d.step % 2 = 0 then h.set0 else h.set1
      match s1.readF32 who (src + 4) 2 with
      | (s2, st2, ps) =>
        if st2 ≠ stOk then s2.failColl k st2 else
        let b := beginStep (s2.updRec c.part c.d.record) (nth ps 0) (nth ps 1)
        match State.writeAll [(dst + 4, 1, f32bytes [b.1, b.2.1]), (dst, 0, leBytes 4 c.d.step)] s2 who with
        | (s3, st3, _) => if st3 ≠ stOk then s3.failColl k st3 else s3

/-- R242: a source whose last_step is not t - 1 raises STEP_SKEW, recorded and counted once; no target area is written. -/
def State.skewCheck (s : State) (k : CollKey) : State :=
  match s.coll? k with
  | none => s
  | some c =>
    if c.skew then s else
    match c.header s with
    | (s1, st, h) =>
      if st ≠ stOk then s1.failColl k st else
      let src := if (c.d.step + 2 ^ 32 - 1) % 2 = 0 then h.set0 else h.set1
      match s1.readMem (some c.part) src 4 with
      | (s2, st2, _, bs) =>
        if st2 ≠ stOk then s2.failColl k st2 else
        let l := leNat bs
        if (l + 1) % 2 ^ 32 = c.d.step then s2
        else
          ((s2.modColl k fun y => { y with skew := true }).raise
            { unit := straitUnit 0 10 0 0x3FF, cls := clsSkew, opKind := 6, opCode := c.d.op, part := some c.part, actions := actCounted,
              detail := [(32, c.d.state), (40, c.d.step), (44, l)] }).modStrait 0 fun q => { q with stepSkew := satAdd32 q.stepSkew 1 }

/-- Chunks of the own shard that tile i covers are all written. -/
def Coll.tileReady (c : Coll) (i : Nat) : Bool :=
  (List.range c.d.unit).all fun b => c.written.contains ((i * c.d.unit + b) / 32)

/-- R243: send the blocks of a tile's working weights to the other members, chunk by chunk. -/
def State.sendTile (s : State) (k : CollKey) (i : Nat) : State :=
  match s.coll? k with
  | none => s
  | some c =>
    match c.header s with
    | (s1, st, h) =>
      if st ≠ stOk then s1.failColl k st else
      let (e, t) := c.shardSize
      let mp := setMap h e t
      let set_ := if (if c.skew then c.d.step + 2 ^ 32 - 1 else c.d.step) % 2 = 0 then h.set0 else h.set1
      let wf := (Fmt.ofCode h.workFmt).getD .fp16
      let b0 := i * c.d.unit
      let parts := (List.range (c.d.chunkCount c.d.rank)).filterMap fun x =>
        let lo := max b0 (32 * x)
        let hi := min (b0 + c.d.unit) (32 * x + 32)
        if lo < hi then some (x, lo, hi) else none
      parts.foldl (fun u p =>
        match c.wire u true wf (set_ + mp.work) e 0 p.2.1 (p.2.2 - p.2.1) with
        | (u1, st1, ws) =>
          if st1 ≠ stOk then u1.failColl k st1 else
          match c.unwire u1 wf c.d.dst c.d.blocks 0 ((c.d.shard c.d.rank).1 + p.2.1) ws with
          | (u2, st2) =>
            if st2 ≠ stOk then u2.failColl k st2 else
            u2.sendMsgs ((bodies (wireBytes true wf) (p.2.1 % 32) ws).map fun b => c.toAll 5 0 wf.code p.1 b.1 b.2.1 b.2.2).flatten) s1

/-- Tiles whose gradient is complete are updated, and gathered where the operation gathers. -/
def State.runTiles (s : State) (k : CollKey) : State :=
  match s.coll? k with
  | none => s
  | some c0 =>
    (List.range c0.shardSize.2).foldl (fun t i =>
      match t.coll? k with
      | none => t
      | some c =>
        if ¬ c.live ∨ c.tiles.contains i ∨ ¬ c.tileReady i then t
        else
          let last := (i * c.d.unit + c.d.unit - 1) / 32
          let t1 := if c.skew then t.modColl k fun y => { y with tiles := y.tiles ++ [i] } else t.runTile k (last % 6) i
          let t2 := if c.d.op = 5 then t1.sendTile k i else t1
          match t2.coll? k with
          | some c2 => if c2.live ∧ ¬ c2.skew ∧ c2.tiles.length = c2.shardSize.2 then t2.endUpdate k else t2
          | none => t2) s

/-- R227, R230: an owner sends its shard to the members that have joined, or to its group once all have. -/
def State.gatherSend (s : State) (k : CollKey) : State :=
  match s.coll? k with
  | none => s
  | some c =>
    let d := c.d
    let ready := c.others.filter fun r => c.joined.contains r && !c.sentTo.contains r
    let go := if d.group = 0xFFF then ready else if c.others.all (fun r => c.joined.contains r) then ready else []
    if go.isEmpty ∨ ¬ c.live then s
    else
      let lo := (d.shard d.rank).1
      let n := (d.shard d.rank).2 - lo
      match c.wire s true d.fs d.src n d.apex 0 n with
      | (s1, st, ws) =>
        if st ≠ stOk then s1.failColl k st else
        let perChunk := (chunks (ws.length + 1) 32 ws).zipIdx
        let msgs := (perChunk.map fun x => (bodies (wireBytes true d.fs) 0 x.1).map fun b =>
          if d.group = 0xFFF then go.map fun r => c.unicast 5 r d.rank 0 d.sf x.2 b.1 b.2.1 b.2.2
          else c.toAll 5 0 d.sf x.2 b.1 b.2.1 b.2.2).flatten.flatten
        (s1.modColl k fun y => { y with sentTo := y.sentTo ++ go }).sendMsgs msgs

/-- R236: whether a collective has completed on this member. -/
def State.collComplete (s : State) (c : Coll) : Bool :=
  let d := c.d
  let mine (m : TxMsg) : Bool := m.owner == .coll c.key
  let written := (List.range (d.chunkCount d.rank)).all fun x => c.written.contains x
  let given := !d.reduces || c.others.all fun k => (Tbl.getD c.given k []).length ≥ d.chunkCount k
  let gathers := d.op == 2 || d.op == 3 || d.op == 5
  let arrived := !gathers || c.others.all fun k => (Tbl.getD c.arrived k []).length ≥ (d.shard k).2 - (d.shard k).1
  let sent := d.op != 3 || (d.shard d.rank).1 == (d.shard d.rank).2 || c.others.all fun k => c.sentTo.contains k
  let tiles := !(d.op == 4 || d.op == 5) || c.tiles.length ≥ c.shardSize.2
  written && given && arrived && sent && tiles && !s.fab.waiting.any mine && !s.fab.unacked.any mine

/-- A running collective of one operation goes as far as it can, and completes when R236 holds. -/
def State.collRow (s : State) (k : CollKey) (op : Nat) : State :=
  match s.coll? k with
  | none => s
  | some c =>
    if ¬ s.running ∨ ¬ c.live ∨ c.d.op ≠ op then s
    else
      let s1 := if op = 3 then s.gatherSend k else if c.d.updates then ((s.skewCheck k).push k).runTiles k else s.push k
      match s1.coll? k with
      | none => s1
      | some c1 => if c1.live ∧ s1.collComplete c1 then s1.endColl k (if c1.skew then 12 else 0) else s1

/-- REDUCE_SCATTER (R228). -/
def execReduceScatter (k : CollKey) (s : State) : Host.Outcome State Fault Refusal := .next (s.collRow k 1)
/-- ALL_REDUCE (R228). -/
def execAllReduce (k : CollKey) (s : State) : Host.Outcome State Fault Refusal := .next (s.collRow k 2)
/-- ALL_GATHER (R227, R230). -/
def execAllGather (k : CollKey) (s : State) : Host.Outcome State Fault Refusal := .next (s.collRow k 3)
/-- REDUCE_UPDATE (R239). -/
def execReduceUpdate (k : CollKey) (s : State) : Host.Outcome State Fault Refusal := .next (s.collRow k 4)
/-- REDUCE_UPDATE_GATHER (R243). -/
def execReduceUpdateGather (k : CollKey) (s : State) : Host.Outcome State Fault Refusal := .next (s.collRow k 5)

/-- LOCAL_UPDATE (R244): the rule of R239 to R242 over every tile, g from `grad`. -/
def execLocalUpdate (k : CollKey) (bad : Option Nat) (s : State) : Host.Outcome State Fault Refusal :=
  .next (
    match s.coll? k with
    | none => s
    | some c =>
      if ¬ s.running ∨ ¬ c.live ∨ c.d.op ≠ 6 then s
      else
        let s1 := (s.badWord (some c.part) bad (6, 6)).skewCheck k
        match s1.coll? k with
        | none => s1
        | some c1 =>
          if !c1.live then s1
          else if c1.skew then s1.endColl k 12
          else
            let s2 := (List.range c1.shardSize.2).foldl (fun t i =>
              if ((t.coll? k).map Coll.live).getD false then t.runTile k 0 i else t) s1
            let s3 := if ((s2.coll? k).map Coll.live).getD false then
                (s2.endUpdate k).modColl k fun y => { y with written := List.range (c.d.chunkCount 0) } else s2
            s3.endColl k 0)

/-- GRID partials of a strip's columns in `scratch` (R247 pass 2). -/
def densityPartial (eSum eSq : Int) (vs : List Val) : List Byte :=
  let r := factorStats eSum eSq false vs
  let fl (a : Acc) : Nat := b2n a.nan + 2 * b2n a.pinf + 4 * b2n a.ninf
  leBytes 24 (BitVec.ofInt 192 r.1.sum).toNat ++ leBytes 24 (BitVec.ofInt 192 r.2.1.sum).toNat ++
    [BitVec.ofNat 8 (fl r.1), BitVec.ofNat 8 (fl r.2.1)] ++ leBytes 14 (Fmt.enc .fp32 .rne r.2.2.1)

/-- DENSITY_PROFILE (R245-R247): partials in `scratch`, then the outputs of one FACTOR_STATS over the whole tensor. -/
def execDensityProfile (k : CollKey) (bad : Option Nat) (s : State) : Host.Outcome State Fault Refusal :=
  .next (
    match s.coll? k with
    | none => s
    | some c =>
      let d := densityCmd c.img
      let units := fld c.img 48 0 6 + 1
      if ¬ s.running ∨ ¬ c.live ∨ c.d.op ≠ 0x10 then s
      else
        let who := some c.part
        s.biThen (((List.range d.rows).map fun i => (d.src + i * d.stride, d.srcRow, false)) ++
            [(d.dst, rowBytes d.df (3 * d.rows), true), (d.aux2, rowBytes d.df (3 * d.cols), true), (d.aux, units * d.cols * 64, true)])
          (fun t => t.failColl k opTimeout) fun t0 =>
        match State.readRows d.srcRows.list (t0.badWord who bad (6, 0x10)) who with
        | (s1, st, _, rows) =>
          if st ≠ stOk then s1.failColl k st else
          let vals := rows.map fun bs => (unpackRun d.sf bs d.cols).map d.sf.dec
          let rs := vals.map fun r => (factorERef r, r)
          let cs := (List.range d.cols).map fun j => (factorERef (column vals j), column vals j)
          let enc (base : Nat) (gs : List ((Int × Int) × List Val)) : List Nat := (gs.zipIdx.map fun x =>
            let f := factorStats x.1.1.1 x.1.1.2 false x.1.2
            [d.df.enc (d.md c.seed (base + 3 * x.2)) (f.1.value x.1.1.1), d.df.enc (d.md c.seed (base + 3 * x.2 + 1)) (f.2.1.value x.1.1.2),
             d.df.enc (d.md c.seed (base + 3 * x.2 + 2)) f.2.2.1]).flatten
          let part (u : Nat) : List Byte := (cs.map fun x =>
            densityPartial x.1.1 x.1.2 ((x.2.drop (u * d.rows / units)).take ((u + 1) * d.rows / units - u * d.rows / units))).flatten
          let ws := (List.range units).map (fun u => (d.aux + u * d.cols * 64, 0, part u)) ++
            [(d.dst, d.dfCode, packRun d.df (rowBytes d.df (3 * d.rows)) (enc 0 rs)),
             (d.aux2, d.dfCode, packRun d.df (rowBytes d.df (3 * d.cols)) (enc (3 * d.rows) cs))]
          match State.writeAll ws s1 who with
          | (s2, st2, _) =>
            if st2 ≠ stOk then s2.failColl k st2
            else (s2.modColl k fun y => { y with written := List.range units }).endColl k 0)

/-- COLL_TIMEOUT (R234): a collective without progress ends with TIMEOUT and a record with `coll_id`, `step` and the lowest
rank it waits for. -/
def execCollTimeout (k : CollKey) (s : State) : Host.Outcome State Fault Refusal :=
  .next (
    match s.coll? k with
    | none => s
    | some c =>
      if ¬ s.running ∨ ¬ c.live then s
      else
        let d := c.d
        let waits (r : Nat) : Bool :=
          (Tbl.getD c.given r []).length < d.chunkCount r || (c.accs.any fun a =>
            (Tbl.getD a.2.blocksFrom r []).length < (d.chunk d.rank a.1).2) || (d.op == 3 && !c.joined.contains r)
            || (Tbl.getD c.arrived r []).length < (d.shard r).2 - (d.shard r).1
        let low := ((c.others.find? waits).getD 0)
        (s.raise { unit := niUnit 0, cls := clsTimeout, opKind := 6, opCode := d.op, part := some c.part, actions := actCounted,
                   detail := [(32, 6), (33, k.collId.toNat + k.step.toNat * 2 ^ 16 + low * 2 ^ 48)] }).endColl k 11)

/-! ### Acknowledgements and resends (08 R207, R217) -/

/-- The memory command of an order, with its unit. -/
def State.dmaRun (s : State) (order : Nat) : Option (Nat × Nat × MemRun) :=
  (List.range 16).findSome? fun h => (List.range 4).findSome? fun u =>
    match (s.sunit h u).cur with
    | some r => if r.cmd.order == order then some (h, u, r) else none
    | none => none

/-- What an acknowledgement with a status means to the message's owner. -/
def State.ackOwner (s : State) (m : TxMsg) (status nbytes : Nat) : State :=
  match m.owner with
  | .dma order =>
    match s.dmaRun order with
    | none => s
    | some (h, u, r) =>
      if status = 0 then s.modUnit h u fun q => { q with
        cur := some { r with bytesDone := r.bytesDone + nbytes, unacked := r.unacked - (m.payload.length - 32) } }
      else (s.dropDma order).modUnit h u fun q => { q with cur := some { r with status := status, unacked := 0 } }
  | .signal => s
  | .coll k => if status = 0 then s else s.endColl k 4

/-- A message leaves the unacknowledged list, and the messages that waited behind it go. -/
def State.settleMsg (s : State) (m : TxMsg) : State :=
  let t := s.modFab fun f => { f with unacked := f.unacked.erase m,
                                      synced := if m.sync then Tbl.set f.synced m.dest true else f.synced }
  State.pumpTx (t.fab.waiting.length + 1) t

/-- ACK (R207, R217): at the interface of die d. -/
def execAck (d : Fin 6) (s : State) : Host.Outcome State Fault Refusal :=
  .next (
    match (s.strait d).ackIn with
    | [] => s
    | a :: rest =>
      if ¬ s.life.powered ∨ s.life.frozen then s
      else
        let s0 := s.modStrait d fun x => { x with ackIn := rest }
        let v := leNat a.payload
        let seq := bits v 0 16
        let vc := bits v 16 2
        let status := bits v 24 7
        let grp := bits v 40 1 == 1
        let gnum := bits v 48 12
        let hit (m : TxMsg) : Bool := m.seq == seq && m.vc == vc &&
          (if grp then (m.mcast && m.dest == gnum) || (m.copy == some gnum && m.dest == a.src) else !m.mcast && m.copy.isNone && m.dest == a.src)
        match s0.fab.unacked.find? hit with
        | none => s0
        | some m =>
          if m.mcast then
            let idx := bits v 32 8
            (s0.modFab fun f => { f with unacked := f.unacked.map fun x => if x == m then
              { x with acked := if x.acked.contains idx then x.acked else x.acked ++ [idx] } else x }).ackOwner m status 0
          else (s0.settleMsg m).ackOwner m status (bits v 64 32))

/-- FABRIC_ACK_TIMEOUT (R207, R233): the oldest unacknowledged unicast message of die d is sent again, up to FABRIC_RETRIES
times; then its owner ends with TIMEOUT and a record of cause 5 is written. -/
def execFabricAckTimeout (d : Fin 6) (s : State) : Host.Outcome State Fault Refusal :=
  .next (
    match s.fab.unacked.find? fun m => !m.mcast && m.copy.isNone && m.dest % 6 == d.val with
    | none => s
    | some m =>
      if ¬ s.life.powered ∨ s.life.frozen then s
      else if m.tries < s.param 0x0802 then
        let m' := { m with tries := m.tries + 1 }
        (s.modFab fun f => { f with unacked := f.unacked.erase m ++ [m'] }).inject m' true
      else
        let part := match m.owner with
          | .dma o => (s.dmaRun o).map fun r => r.2.2.cmd.part
          | .coll k => (s.coll? k).map Coll.part
          | .signal => none
        let s1 := (s.settleMsg m).raise { unit := niUnit d, cls := clsTimeout, part := part, actions := actCounted, detail := [(32, 5)] }
        match m.owner with
        | .dma o =>
          match s1.dmaRun o with
          | some (h, u, r) => (s1.dropDma o).modUnit h u fun q => { q with cur := some { r with status := opTimeout, unacked := 0 } }
          | none => s1
        | .coll k => s1.endColl k 11
        | .signal => s1)

/-- The completion record of a multicast message (Table 8-16). -/
def mcastRecord (m : TxMsg) (status : Nat) : BitVec 512 :=
  let got := m.acked.foldl (fun a i => a ||| (2 ^ (i % 256))) 0
  BitVec.ofNat 512 (pack [(0, m.dest), (2, m.seq), (4, status), (5, m.targets.length - 1), (6, m.ticket), (16, got)])

/-- MCAST_CLOSE (R217): every target acknowledged completes the message; missing ones get unicast copies up to MCAST_RETRIES
times, then it completes with TIMEOUT. Target i is the i-th other member (log entry 25). -/
def execMcastClose (d : Fin 6) (s : State) : Host.Outcome State Fault Refusal :=
  .next (
    match s.fab.unacked.find? fun m => m.mcast && m.srcEnd == d.val with
    | none => s
    | some m =>
      let missing := (List.range m.targets.length).filter fun i => !m.acked.contains i
      let copies (c : TxMsg) : Bool := c.copy == some m.dest && c.seq == m.seq && c.vc == m.vc
      let got := (List.range m.targets.length).filter fun i => m.acked.contains i ||
        (m.tries > 0 && !(s.fab.unacked.any fun c => copies c && some c.dest == m.targets[i]?))
      let finish (t : State) (st : Nat) (acked : List Nat) : State :=
        let u := t.modFab fun f => { f with unacked := (f.unacked.erase m).filter (fun c => !copies c),
                                            mcastDone := f.mcastDone ++ [mcastRecord { m with acked := acked } st] }
        let v := State.pumpTx (u.fab.waiting.length + 1) u
        if st = 0 then v
        else match m.owner with
          | .coll k => v.endColl k 11
          | _ => v
      if ¬ s.life.powered ∨ s.life.frozen then s
      else if missing.isEmpty then finish s 0 m.acked
      else if got.length = m.targets.length then finish s 0 got
      else if m.tries < s.param 0x0804 then
        let m' := { m with tries := m.tries + 1, acked := got }
        let left := (List.range m.targets.length).filter fun i => !got.contains i
        let cs := left.map fun i => { m' with mcast := false, copy := some m.dest, dest := (m.targets[i]?).getD 0, targets := [], acked := [] }
        let s1 := s.modFab fun f => { f with unacked := ((f.unacked.erase m).filter (fun c => !copies c)) ++ [m'] ++ cs }
        cs.foldl (fun t c => t.inject c (m.tries > 0)) s1
      else finish s 11 got)

end Sys2Proof.Machine
end

