-- ==== Sys2Proof/Machine/Power.lean ====
section
/-! DEFINITION. Containment by unit (10 Table 10-5) and power delivery (15): phases and dark regions, the current ledger, ramps,
thermal response, droop, bus converters and ageing. -/

namespace Sys2Proof.Machine

/-! ### Regions (Tables 15-1, 15-3) -/

/-- Whether a region key names isle logic. -/
def keyLogic (key : Nat) : Bool := decide (key / 16 < 8) && decide (key % 16 < 10)

/-- The unit of phase k of a region (15 R367). -/
def phaseUnit (key k : Nat) : Word :=
  let n := key / 16
  if n < 8 then mkUnit 0 n 0 0 14 k (key % 16) else if n < 24 then mkUnit 1 (n - 8) 0 0 14 k (key % 16)
  else if n < 30 then mkUnit 2 (n - 24) 0 0 14 k (key % 16) else mkUnit 3 (n - 30) 0 0 14 k (key % 16)

/-- Phases of a region and how many it needs (Table 15-1); (0, 0) where a die has no such region. -/
def phasesOf (key : Nat) : Nat × Nat :=
  let n := key / 16
  let r := key % 16
  if n < 8 then (if r ≤ 12 then (9, 8) else (0, 0))
  else if n < 24 then
    (if r = 0 then (9, 8) else if r = 1 then (6, 5) else if r = 2 then (4, 3) else if r = 3 then (6, 5) else if r = 4 then (8, 6)
     else if r = 5 then (6, 4) else (0, 0))
  else if n < 30 then (if r = 1 then (4, 3) else if r ≤ 3 then (9, 8) else (0, 0))
  else (if r = 0 then (4, 3) else if r = 1 then (6, 5) else if r = 2 ∧ n = 30 then (5, 4) else (0, 0))

/-- Every region, in ascending unit ID. -/
def allRegions : List Nat := ((List.range 32).map fun n => ((List.range 13).map fun r => n * 16 + r).filter fun k =>
  (phasesOf k).1 != 0).flatten

/-- A region's state. -/
def State.region (s : State) (key : Nat) : RegionState := Tbl.getD s.power.state key .off
/-- The step a region may run at: the lowest clock of its ceiling, thermal step and grant (R376). -/
def State.stepFor (s : State) (key : Nat) : Nat :=
  max (Tbl.getD s.power.ceiling key 0) (max (Tbl.getD s.power.thermal key 0) (Tbl.getD s.power.granted key 0))
/-- The step a region runs at. -/
def State.stepNow (s : State) (key : Nat) : Nat := Tbl.getD s.net.arith key 0

/-- Reservation in mW of a region that is powered (Table 15-3). Regions that the table takes together count with the lowest of
them. -/
def reservation (key step : Nat) : Nat :=
  let n := key / 16
  let r := key % 16
  if keyLogic key then (if step = 0 then 4750 else if step = 1 then 4000 else if step = 2 then 3300 else 2700)
  else if n < 8 then 3400
  else if n < 24 then (if r = 0 then 2200 else if r = 1 ∨ r = 2 then 600 else if r = 3 then 4000 else 0)
  else if n < 30 then (if r = 0 then 4000 else if r = 1 then 1000 else if r = 2 then 12000 else 0)
  else if r = 0 then 3500 else if r = 1 then (if n = 30 then 5000 else 1500) else 0

/-- Whether a region draws power: ramping or on. -/
def RegionState.powered : RegionState → Bool
  | .ramping | .on => true
  | _ => false

/-- Whether a region is off for good until it is repaired. -/
def RegionState.gone : RegionState → Bool
  | .dark | .fenced => true
  | _ => false

/-- What a region reserves now; a shoal's staging banks that are off return their share. -/
def State.reserved (s : State) (key : Nat) : Nat :=
  if (s.region key).powered then
    let base := reservation key (s.stepFor key)
    let n := key / 16
    if 8 ≤ n ∧ n < 24 ∧ key % 16 = 1 then base - 40 * (List.range 16).countP fun b => s.bank (n - 8) b == .off else base
  else 0

/-- Sum of reservations, mW. -/
def State.granted (s : State) : Nat := (allRegions.map s.reserved).foldl (· + ·) 0

/-- Healthy bus converters. -/
def State.convertersOk (s : State) : Nat := (List.range 5).countP fun i => s.power.converters.getLsbD i

/-- R372: the budget, mW. -/
def State.budget (s : State) : Nat := min (s.param 0x0F00) (180 * s.convertersOk) * 1000

/-! ### Identity store and power-off (11 Table 11-4, 15 R365, 17 R419) -/

/-- What a loss of power-good leaves: the identity store (fence map, out-of-service state, reset-limit history, wear checkpoints,
set points, ceilings, phase fences, trip flag), the firmware stores and fuses, what lies outside the module (host memory, pins,
outputs already sent), and the model's own counters. -/
def State.unpowered (s : State) : State :=
  { State.reset with
    pending := s.pending, freeCtr := s.freeCtr,
    flt := { FaultSt.reset with
      fenceMap := s.flt.fenceMap, clearPending := s.flt.clearPending,
      wearCheckpoint := s.flt.wearCheckpoint.map fun e => (e.1, { e.2 with
        corrected := e.2.corrected.map (· - s.count), retries := e.2.retries.map (· - s.count),
        retrains := e.2.retrains.map (· - s.count) }),
      atollResets := s.flt.atollResets.map fun e => (e.1, e.2 - s.count),
      moduleResets := s.flt.moduleResets.map (· - s.count), outOfService := s.flt.outOfService,
      boot := s.flt.boot },
    host := { HostSt.reset with mem := s.host.mem, memPoison := s.host.memPoison, out := s.host.out, perst := s.host.perst },
    fab := { FabSt.reset with sent := s.fab.sent }, net := { NetSt.reset with linkFenced := s.net.linkFenced },
    power := { PowerSt.reset with
      lost := s.power.lost, ceiling := s.power.ceiling, setpoint := s.power.setpoint, converters := s.power.converters,
      trip := s.power.trip },
    fw := { FwSt.reset with hubs := s.fw.hubs, revoked := s.fw.revoked },
    mgmt := { MgmtSt.reset with out := s.mgmt.out, modResetLow := s.mgmt.modResetLow } }

/-- R380, R431: the sequencer switches every rail off and latches, with the trip flag's cause. -/
def State.tripOff (s : State) (cause : Nat) : State :=
  let t := s.unpowered
  { t with life := { t.life with state := .tripped }, power := { t.power with trip := some cause } }

/-! ### Fatal path and containment (10 R258-R268, Tables 10-5, 15-2) -/

/-- R268, R293: the module is fatal: floods, notices of kind 7, then a counted module reset. -/
def State.goFatal (s : State) (seq : Word) : State :=
  if s.flt.fatal then s
  else (((s.modFlt fun f => { f with fatal := true, fatalSeq := seq }).floodAll 1 true seq).noticeAll 7 seq).askReset true

/-- One end of a neighbour link becomes routed to the atoll it reached. -/
def State.routeEntry (s : State) (a d : Nat) : State :=
  s.modAtoll a fun x =>
    match x.nbr[d]? with
    | some n =>
      if n.valid ∧ ¬ n.routed then
        let tg := BitVec.ofNat 9 ((physNeighbour a d).getD n.target.toNat)
        { x with nbr := x.nbr.set d { n with routed := true, target := tg } }
      else x
    | none => x

/-- Table 10-5, R52: a fenced neighbour link: the maps of both ends become routed to the same atolls. -/
def State.fenceNeighbour (s : State) (g dir : Nat) : State :=
  let back := if dir % 2 = 0 then dir + 1 else dir - 1
  match physNeighbour g dir with
  | some h => (s.routeEntry g dir).routeEntry h back
  | none => s

/-- Table 10-5, R197: a lane or a whole link is fenced. -/
def State.fenceLane (s : State) (l sub : Nat) : State :=
  let m : BitVec 2 := if sub = 0 then 1 else if sub = 1 then 2 else 3
  let s1 := s.modLink l fun x =>
    let y := { x with fencedLanes := x.fencedLanes ||| m, retraining := x.retraining &&& ~~~ m }
    { y with state := if y.enable then (if y.fencedLanes = 3 then 0 else if x.state ≤ 1 then x.state else y.widthState s.cells)
                      else 6 }
  if (s1.link l).state = 0 then s1.dropLink l else s1

/-- The hub of a control processor fails: the active one stops until failover, the other is no standby any more. -/
def State.hubLost (s : State) (h : Nat) : State :=
  if h = s.life.activeHub then s.modLife fun l => { l with failingHub := true }
  else s.modLife fun l => { l with usable := l.usable &&& ~~~ BitVec.ofNat 2 (2 ^ h), standby := false }

/-- R285: a manager core is fenced and the hub takes over its die: an escalation. -/
def State.fenceManager (s : State) (node : Nat) (cls : Half) (seq : Word) : State :=
  let u := if node < 8 then mkUnit 0 node 0 0 13 0 0x3FF else if node < 24 then shoalUnit (node - 8) 13 0 0x3FF
    else straitUnit (node - 24) 13 0 0x3FF
  if s.flt.mgrFenced.contains node then s
  else ((s.fenceUnit u cls seq).modFlt fun f => { f with mgrFenced := f.mgrFenced ++ [node] }).escalate seq

/-- The four sites of isle logic region r of die d (R367). -/
def regionSites (d r : Nat) : List Nat :=
  (List.range 4).map fun i =>
    let x := 2 * (r % 5) + i % 2
    let y := 2 * (r / 5) + i / 2
    d * 40 + x / 5 * 20 + y * 5 + x % 5

/-- Fence sites with one class. -/
def State.fenceSites (s : State) (gs : List Nat) (cls : Half) (seq : Word) : State :=
  gs.foldl (fun t g => t.fenceAtoll g (siteUnit g) cls seq) s

/-- Table 15-2: the scope and actions of a dark region's record. -/
def darkRecord (key : Nat) : Nat × Nat :=
  let n := key / 16
  let r := key % 16
  if n < 8 then (2, actFenced + actReplaced + actRolled)
  else if n < 24 then
    (if r = 0 then (7, actFenced) else if r = 1 then (4, actFenced) else (5, actRetiring))
  else if n < 30 then (7, actFenced)
  else if r = 0 then (9, actFenced + actEscalated) else if n = 30 then (10, actFatal) else (9, actFenced)

/-- Table 15-2: a region goes dark: switched off, with its results. -/
def State.goDark (s : State) (key : Nat) (cls : Half) (seq : Word) (mark : RegionState := .dark) : State :=
  let n := key / 16
  let r := key % 16
  let s1 := s.modPower fun p => { p with
    state := Tbl.set p.state key mark, ramping := p.ramping.filter fun e => e.1 != key,
    queue := p.queue.filter fun q => match q with
      | .region k _ => k != key
      | .bank .. => true }
  if n < 8 then
    if r < 10 then s1.fenceSites (regionSites n r) cls seq
    else if r < 12 then s1.fenceSites ((List.range 20).map fun i => n * 40 + (r - 10) * 20 + i) cls seq
    else
      let ports := ((List.range 6).map fun m => mkUnit 0 n 0 0 15 0 m) ++ ((List.range 4).map fun m => mkUnit 0 n 0 0 15 1 m) ++
        ((List.range 4).map fun m => mkUnit 0 n 0 0 15 2 m) ++ ((List.range 4).map fun m => mkUnit 0 n 0 0 15 3 m) ++
        ((List.range 2).map fun m => mkUnit 0 n 0 0 15 6 m)
      ports.foldl (fun t u => t.fenceUnit u cls seq) (s1.fenceSites ((List.range 40).map fun i => n * 40 + i) cls seq)
  else if n < 24 then
    let h := n - 8
    if r = 0 then
      let s2 := (List.range 4).foldl (fun t u => t.fenceStreamUnit h u cls seq) s1
      ((s2.fenceUnit (shoalUnit h 10 0 0x3FF) cls seq).abortColls cls seq).fenceManager n cls seq
    else if r = 1 then s1.modShoal h fun x => { x with badBanks := (List.range 16).foldl (fun t b => Tbl.set t b 3) x.badBanks }
    else (List.range 8).foldl (fun t c => t.wantRetire (8 * h + c)) s1
  else if n < 30 then
    let d := n - 24
    let s2 := (List.range 16).foldl (fun t i => t.fenceLane (16 * d + i) 0x3FF) s1
    let s3 := (s2.fenceUnit (straitUnit d 12 0 0x3FF) cls seq).fenceUnit (straitUnit d 10 0 0x3FF) cls seq
    ((s3.fenceUnit (straitUnit d 15 4 0) cls seq).fenceUnit (straitUnit d 15 5 0) cls seq).abortColls cls seq
  else if r = 0 then
    let s2 := (List.range 4).foldl (fun t i => t.fenceUnit (mkUnit 3 (n - 30) 0 0 13 i 0x3FF) cls seq) s1
    s2.hubLost (n - 30)
  else if n = 30 then (s1.modHost fun h => { h with linkUp := false }).goFatal seq
  else s1.modLife fun l => { l with usable := l.usable &&& 1, standby := false }

/-- Phases of a region that are healthy. -/
def State.phasesOk (s : State) (key : Nat) : Nat :=
  let l := Tbl.getD s.power.lost key 0
  (List.range (phasesOf key).1).countP fun k => !l.getLsbD k

/-! ### The bus (R382) and steps -/

/-- R376: lower a region's grant by one step. -/
def State.stepDown (s : State) (key : Nat) : State :=
  s.modPower fun p => { p with granted := Tbl.set p.granted key (min 3 (s.stepFor key + 1)) }

/-- R382: the ledger lowers reservations to the budget: the highest step first, the lowest unit ID first among equals. -/
def State.shed : Nat → State → State
  | 0, s => s
  | k + 1, s =>
    if s.granted ≤ s.budget then s
    else
      let cands := allRegions.filter fun r => keyLogic r && (s.region r).powered && decide (s.stepFor r < 3)
      match cands.foldl (fun (b : Option Nat) r => match b with
        | none => some r
        | some x => if s.stepFor r < s.stepFor x then some r else some x) none with
      | none => s
      | some r => State.shed k (s.stepDown r)

/-- Shed until the budget holds. -/
def State.fitBudget (s : State) : State := State.shed 240 s

/-- R368, R370, R382: a phase is out of service: its region goes dark below its needed count, and a bus converter less lowers the
budget. -/
def State.losePhase (s : State) (key phase : Nat) (cls : Half) (seq : Word) : State :=
  let s1 := s.modPower fun p => { p with
    lost := Tbl.set p.lost key (Tbl.getD p.lost key 0 ||| BitVec.ofNat 9 (2 ^ phase)),
    converters := if key = 482 then p.converters &&& ~~~ BitVec.ofNat 5 (2 ^ phase) else p.converters }
  if key = 482 then (if s1.convertersOk < 3 then s1.tripOff 0 else (s1.fenceUnit (phaseUnit key phase) cls seq).fitBudget)
  else
    let s2 := s1.fenceUnit (phaseUnit key phase) cls seq
    if s1.phasesOk key < (phasesOf key).2 ∧ ¬ (s1.region key).gone then s2.goDark key cls seq else s2

/-- Table 10-5: what the fence of a unit does at once. -/
def State.contain (s : State) (u : Word) (cls : Half) (seq : Word) : State :=
  let k := uKind u
  if k = 14 then s.losePhase (regionKey u) (uIndex u) cls seq
  else if k = 13 ∧ uNode u < 30 then s.fenceManager (uNode u) cls seq
  else
  match uDieKind u, uAtoll u with
  | 0, some g =>
    if k = 1 then s.freshen.fenceEngine g (uIndex u) cls seq ((Config.unstated s.freeCtr 7).toNat % 2 ^ 32)
    else if k = 2 then s.fenceVec g (uIndex u) cls seq
    else if k = 5 ∧ uIndex u = 1 then (s.fenceUnit u cls seq).wantMigration g
    else if k = 7 then (s.fenceUnit u cls seq).fenceNeighbour g (uIndex u)
    else s.fenceAtoll g u cls seq
  | 0, none => s.fenceUnit u cls seq
  | 1, _ =>
    if k = 8 then s.wantRetire (uSub u)
    else if k = 9 then s.fenceStreamUnit (uDie u) (uIndex u) cls seq
    else if k = 10 then (s.fenceUnit u cls seq).abortColls cls seq
    else s.fenceUnit u cls seq
  | 2, _ =>
    if k = 10 ∨ k = 12 then (s.fenceUnit u cls seq).abortColls cls seq
    else if k = 11 then (s.fenceUnit u cls seq 1 true).fenceLane (uDie u * 16 + uIndex u) (uSub u)
    else s.fenceUnit u cls seq
  | _, _ => if k = 13 ∨ k = 0 then (s.fenceUnit u cls seq).hubLost (uDie u) else s.fenceUnit u cls seq

/-- Containment that names its source in the fence map entries it makes (2: service command). -/
def State.containAs (s : State) (u : Word) (cls : Half) (seq : Word) (source : BitVec 2) : State :=
  let n := s.flt.fenceQueue.length
  (s.contain u cls seq).modFlt fun f =>
    let q := f.fenceQueue.take n ++ (f.fenceQueue.drop n).map fun e => { e with source := source }
    { f with fenceQueue := q }

/-- PHASE_LOSS (R368-R370): the phase is fenced with one record; a region below its needed phases goes dark. -/
def execPhaseLoss (node : Fin 32) (r : Fin 13) (phase : Fin 9) (s : State) : Host.Outcome State Fault Refusal :=
  .next (
    let key := node.val * 16 + r.val
    if ¬ s.life.powered ∨ phase.val ≥ (phasesOf key).1 ∨ (Tbl.getD s.power.lost key 0).getLsbD phase ∨ r.val = 2 ∧ node.val = 30 then s
    else
      let u := phaseUnit key phase
      let (sc, ac) := if s.phasesOk key ≤ (phasesOf key).2 ∧ ¬ (s.region key).gone then darkRecord key else (1, actFenced)
      (s.raise { unit := u, cls := clsPhase, scope := sc, actions := ac }).losePhase key phase clsPhase (s.nextSeq u))

/-- REGION_CURRENT_DERATE (R369): a region with a lost phase over 6.0 A for 1 ms lowers its step ceiling by one. -/
def execRegionCurrentDerate (d : Fin 8) (r : Fin 10) (milliamps : Half) (s : State) : Host.Outcome State Fault Refusal :=
  .next (
    let key := d.val * 16 + r.val
    if ¬ (s.region key).powered then s
    else
      let s1 := s.modPower fun p => { p with current := Tbl.set p.current key milliamps }
      if Tbl.getD s.power.lost key 0 ≠ 0 ∧ milliamps.toNat > 6000 then
        s1.modPower fun p => { p with ceiling := Tbl.set p.ceiling key (min 3 (Tbl.getD p.ceiling key 0 + 1)) }
      else s1)

/-! ### The ledger (R373, R374) -/

/-- Put a request at the end of the queue, once. -/
def State.request (s : State) (q : LedgerReq) : State :=
  if s.power.queue.contains q then s
  else
    let s1 := s.modPower fun p => { p with queue := p.queue ++ [q] }
    match q with
    | .region k _ => if s.region k = .off then s1.modPower fun p => { p with state := Tbl.set p.state k .waiting } else s1
    | .bank .. => s1

/-- LEDGER_REQUEST (R373): a request to be on or at a higher step joins the queue; a step down or off takes effect at once. -/
def execLedgerRequest (node : Fin 32) (r : Fin 13) (target : LedgerTarget) (s : State) : Host.Outcome State Fault Refusal :=
  .next (
    let key := node.val * 16 + r.val
    if ¬ s.life.powered ∨ (phasesOf key).1 = 0 ∨ (s.region key).gone ∨ s.life.frozen then s
    else
      match target with
      | .on => if (s.region key).powered then s else s.request (.region key 0)
      | .off => s.modPower fun p => { p with state := Tbl.set p.state key .off }
      | .step level =>
        if ¬ keyLogic key ∨ ¬ (s.region key).powered then s
        else if level.val < Tbl.getD s.power.granted key 0 then s.request (.region key level)
        else s.modPower fun p => { p with granted := Tbl.set p.granted key level })

/-- Logic regions of the same die that share an edge with region key (R373). -/
def edgeAdjacent (key : Nat) : List Nat :=
  if keyLogic key then
    let r := key % 16
    (List.range 10).filterMap fun q =>
      if (q / 5 = r / 5 ∧ (q % 5 + 1 = r % 5 ∨ r % 5 + 1 = q % 5)) ∨ (q % 5 = r % 5 ∧ q / 5 ≠ r / 5) then some (key / 16 * 16 + q)
      else none
  else []

/-- V_f of a step in mV: the nominal values (R375). -/
def vf (step : Nat) : Nat := if step = 0 then 750 else if step = 1 then 720 else if step = 2 then 690 else 660

/-- The window of a region at a step: V_f and the top (R375); regions without steps use their first rail (log entry 29). -/
def regionWindow (key step : Nat) : Nat × Nat :=
  let f := if keyLogic key then vf step else
    if key / 16 ≥ 8 ∧ key / 16 < 24 ∧ key % 16 = 4 then 1050
    else if key / 16 ≥ 8 ∧ key / 16 < 24 ∧ key % 16 = 5 then 500
    else if key / 16 ≥ 24 ∧ key / 16 < 30 ∧ key % 16 = 2 then 900
    else if key = 30 * 16 + 2 then 12000 else 750
  (f, if keyLogic key then min (f + 60) 820 else f + 60)

/-- Whether a region draws more than 90 % of the current its reservation gives at its set point (log entry 29). -/
def State.drawsHigh (s : State) (key : Nat) : Bool :=
  let v := Tbl.getD s.power.setpoint key (vf (s.stepNow key))
  decide ((Tbl.getD s.power.current key 0).toNat * v * 10 > s.reserved key * 1000 * 9)

/-- Extra reservation a request needs at a step. -/
def State.amount (s : State) (q : LedgerReq) (step : Nat) : Nat :=
  match q with
  | .region k _ =>
    reservation k (max step (max (Tbl.getD s.power.ceiling k 0) (Tbl.getD s.power.thermal k 0))) - s.reserved k
  | .bank h _ => if s.reserved ((8 + h) * 16 + 1) < 600 then 40 else 0

/-- The step at which the head of the queue fits the budget: an isle region drops by one step at a time. -/
def State.fits (s : State) (q : LedgerReq) : Option Nat :=
  match q with
  | .region k step =>
    if keyLogic k then (List.range 4).find? fun l => decide (l ≥ step) && decide (s.granted + s.amount q l ≤ s.budget)
    else if s.granted + s.amount q step ≤ s.budget then some step else none
  | .bank .. => if s.granted + s.amount q 0 ≤ s.budget then some 0 else none

/-- Grant the head of the queue: a region that is off ramps from stage 0, a step raise from 75 % duty (stage 4). -/
def State.grantHead (s : State) (q : LedgerReq) (step : Nat) : State :=
  let s1 := s.modPower fun p => { p with queue := p.queue.drop 1 }
  match q with
  | .region k _ =>
    if (s.region k).powered then
      s1.modPower fun p => { p with granted := Tbl.set p.granted k step,
                                    ramping := p.ramping.filter (fun e => e.1 != k) ++ [(k, 4)],
                                    state := Tbl.set p.state k .ramping }
    else s1.modPower fun p => { p with granted := Tbl.set p.granted k step, ramping := p.ramping ++ [(k, 0)],
                                       setpoint := Tbl.set p.setpoint k (Tbl.getD p.setpoint k (regionWindow k step).1),
                                       state := Tbl.set p.state k .ramping }
  | .bank .. => s1

/-- LEDGER_GRANT (R373). A grant to a staging bank is used by BANK_POWER_UP_DONE, which takes it from the queue's head itself. -/
def execLedgerGrant (s : State) : Host.Outcome State Fault Refusal :=
  .next (
    match s.power.queue with
    | [] => s
    | q :: _ =>
      if ¬ s.life.powered ∨ s.life.frozen ∨ s.power.ramping.length ≥ s.param 0x0F03 then s
      else
        match q with
        | .bank .. => s
        | .region k _ =>
          match s.fits q with
          | none => s
          | some step => if (edgeAdjacent k).any s.drawsHigh then s else s.grantHead q step)

/-- LEDGER_NEIGHBOUR_WAIT (R373): when only its neighbours hold the head up, they are capped at 75 % duty and it is granted. -/
def execLedgerNeighbourWait (s : State) : Host.Outcome State Fault Refusal :=
  .next (
    match s.power.queue with
    | .region k st :: _ =>
      let high := (edgeAdjacent k).filter s.drawsHigh
      if ¬ s.life.powered ∨ s.life.frozen ∨ s.power.ramping.length ≥ s.param 0x0F03 ∨ high.isEmpty then s
      else
        match s.fits (.region k st) with
        | none => s
        | some step => (s.modPower fun p => { p with capped := p.capped ++ high }).grantHead (.region k st) step
    | _ => s)

/-- RAMP_STAGE (R374): 0 soft start, 1 ungate, 2 to 5 duty 25, 50, 75, 100 %; other regions are on after their soft start. -/
def execRampStage (node : Fin 32) (r : Fin 13) (s : State) : Host.Outcome State Fault Refusal :=
  .next (
    let key := node.val * 16 + r.val
    match s.power.ramping.find? fun e => e.1 == key with
    | none => s
    | some e =>
      if s.life.frozen then s
      else if e.2 ≥ 5 ∨ (¬ keyLogic key) then
        s.modPower fun p => { p with ramping := p.ramping.filter (· != e), state := Tbl.set p.state key .on,
                                     capped := p.capped.filter fun c => !(edgeAdjacent key).contains c }
      else s.modPower fun p => { p with ramping := p.ramping.map fun x => if x == e then (key, e.2 + 1) else x })

/-! ### Measured power, temperature (R377-R380) -/

/-- INPUT_POWER_CHECK (R377). -/
def execInputPowerCheck (deciwatts : Half) (below10ms : Bool) (s : State) : Host.Outcome State Fault Refusal :=
  .next (
    if ¬ s.life.powered ∨ s.life.frozen then s
    else
      let b := s.budget / 100
      let m := deciwatts.toNat
      s.modPower fun p => { p with
        measured := m,
        pwDuty := if m > b then min 3 (p.pwDuty + 1) else if below10ms ∧ m * 100 ≤ b * 95 then p.pwDuty - 1 else p.pwDuty })

/-- The temperature limit of THROTTLE_TEMP in eighths of a degree. -/
def State.throttle (s : State) : Int := 8 * (s.param 0x0F01 : Nat)

/-- Table 15-4, at or above T: one more action. -/
def State.throttleUp (s : State) (key : Nat) : State :=
  let n := key / 16
  let r := key % 16
  if keyLogic key then
    if s.stepFor key < 3 then
      let t := s.stepFor key + 1
      s.modPower fun p => { p with thermal := Tbl.set p.thermal key t, granted := Tbl.set p.granted key t }
    else s.modPower fun p => { p with thDuty := Tbl.set p.thDuty key (min 3 (Tbl.getD p.thDuty key 0 + 1)) }
  else if n < 8 ∧ r = 12 then
    s.modNet fun x => { x with meshStep := [2 * n, 2 * n + 1].foldl (fun t h =>
      Tbl.set t h (BitVec.ofNat 4 (min 3 ((Tbl.getD t h 0).toNat + 1)))) x.meshStep }
  else if 8 ≤ n ∧ n < 30 ∧ r = 0 then s.modPower fun p => { p with thDuty := Tbl.set p.thDuty key 2 }
  else s

/-- Table 15-4, below T - 5 for 10 ms: the last action is reversed, duty first, then steps through the ledger. -/
def State.throttleDown (s : State) (key : Nat) : State :=
  let n := key / 16
  if keyLogic key then
    if Tbl.getD s.power.thDuty key 0 > 0 then
      s.modPower fun p => { p with thDuty := Tbl.set p.thDuty key (Tbl.getD p.thDuty key 0 - 1) }
    else if Tbl.getD s.power.thermal key 0 > 0 then
      let t := Tbl.getD s.power.thermal key 0 - 1
      (s.modPower fun p => { p with thermal := Tbl.set p.thermal key t }).request (.region key t)
    else s
  else if n < 8 then
    s.modNet fun x => { x with meshStep := [2 * n, 2 * n + 1].foldl (fun t h =>
      Tbl.set t h (BitVec.ofNat 4 ((Tbl.getD t h 0).toNat - 1))) x.meshStep }
  else s.modPower fun p => { p with thDuty := Tbl.set p.thDuty key 0 }

/-- THERMAL_SAMPLE (R378, R379). -/
def execThermalSample (node : Fin 32) (r : Fin 13) (eighths : BitVec 12) (cool10ms : Bool) (s : State) :
    Host.Outcome State Fault Refusal :=
  .next (
    let key := node.val * 16 + r.val
    if ¬ s.life.powered ∨ (phasesOf key).1 = 0 then s
    else
      let s1 := s.modPower fun p => { p with temp := Tbl.set p.temp key eighths }
      if s.life.frozen ∨ ¬ (s.region key).powered then s1
      else if eighths.toInt ≥ s.throttle then s1.throttleUp key
      else if cool10ms ∧ eighths.toInt < s.throttle - 40 then s1.throttleDown key
      else s1)

/-- Whether every thermal action of a region is applied. -/
def State.throttled (s : State) (key : Nat) : Bool :=
  let n := key / 16
  let r := key % 16
  if keyLogic key then decide (s.stepFor key = 3) && decide (Tbl.getD s.power.thDuty key 0 = 3)
  else if n < 8 ∧ r = 12 then (List.range 2).all fun i => Tbl.getD s.net.meshStep (2 * n + i) 0 == 3
  else if 8 ≤ n ∧ n < 30 ∧ r = 0 then Tbl.getD s.power.thDuty key 0 == 2
  else true

/-- THERMAL (R379): 105 °C for 100 ms with every action applied: one record and the fatal path. -/
def execThermal (node : Fin 32) (r : Fin 13) (s : State) : Host.Outcome State Fault Refusal :=
  .next (
    let key := node.val * 16 + r.val
    if ¬ s.life.powered ∨ s.life.frozen ∨ (Tbl.getD s.power.temp key 0).toInt < 840 ∨ ¬ s.throttled key ∨ s.flt.fatal then s
    else
      let u := phaseUnit key 0
      let seq := s.nextSeq u
      (s.raise { unit := u, cls := clsThermal, scope := 10, actions := actFatal }).goFatal seq)

/-- THERMAL_TRIP (R380): any sensor at 115 °C, frozen or not. -/
def execThermalTrip (s : State) : Host.Outcome State Fault Refusal :=
  .next (
    if s.life.powered ∧ s.power.temp.any fun e => decide (e.2.toInt ≥ 920) then s.tripOff 0 else s)

/-! ### Droop, converters, ageing (R381-R384) -/

/-- DROOP_SIGNATURE (R381): one record; an isle logic region lowers its ceiling, or goes dark at 0.8 GHz. -/
def execDroopSignature (node : Fin 32) (r : Fin 13) (before after : Word) (s : State) : Host.Outcome State Fault Refusal :=
  .next (
    let key := node.val * 16 + r.val
    if ¬ (s.region key).powered ∨ s.life.frozen then s
    else
      let u := phaseUnit key 0
      let seq := s.nextSeq u
      let last := keyLogic key && decide (s.stepFor key = 3)
      let s1 := (s.raise { unit := u, cls := clsDroop, scope := if last then 2 else 0,
                           actions := if last then actFenced + actReplaced + actRolled else actCounted,
                           detail := [(32, before.toNat), (36, after.toNat)] }).modPower fun p =>
        { p with droop := Tbl.set p.droop key after.toNat }
      if last then s1.goDark key clsDroop seq
      else if keyLogic key then
        s1.modPower fun p => { p with ceiling := Tbl.set p.ceiling key (min 3 (Tbl.getD p.ceiling key 0 + 1)) }
      else s1)

/-- BUS_CONVERTER_LOSS (R382): the ledger fits the new budget; with fewer than three left the module trips. -/
def execBusConverterLoss (c : Fin 5) (s : State) : Host.Outcome State Fault Refusal :=
  .next (
    if ¬ s.life.powered ∨ ¬ s.power.converters.getLsbD c then s
    else
      let u := phaseUnit (30 * 16 + 2) c
      let seq := s.nextSeq u
      (s.raise { unit := u, cls := clsPhase, scope := 1, actions := actFenced }).losePhase 482 c clsPhase seq)

/-- AGEING_SAMPLE (R383): the lowest slack of a region is kept. -/
def execAgeingSample (node : Fin 32) (r : Fin 13) (slack : Nat) (s : State) : Host.Outcome State Fault Refusal :=
  .next (
    let key := node.val * 16 + r.val
    if ¬ (s.region key).powered ∨ s.life.frozen then s
    else s.modPower fun p => { p with slack := Tbl.set p.slack key (min slack (Tbl.getD p.slack key slack)) })

/-- R381: extra output voltage of remote sensing after a DROOP_SIGNATURE, mV: the manual does not state it. -/
def State.droopVolts (s : State) (key : Nat) : Nat :=
  match Tbl.get? s.power.droop key with
  | some rp => (Config.unstated rp 12).toNat % 4096
  | none => 0

/-- R381, R383: window use of a region in per cent. -/
def State.windowUse (s : State) (key : Nat) : Nat :=
  let w := regionWindow key (s.stepNow key)
  (Tbl.getD s.power.setpoint key w.1 - w.1 + s.droopVolts key) * 100 / (w.2 - w.1)

/-- R384: a rise the window cannot hold: one record, and the ceiling falls; ARITHMETIC_STEP_CHANGE carries the offset over to the
new step. A region with its ceiling at 0.8 GHz is fenced. -/
def State.ageingMargin (s : State) (key : Nat) : State :=
  let u := phaseUnit key 0
  let seq := s.nextSeq u
  let last := keyLogic key && decide (Tbl.getD s.power.ceiling key 0 ≥ 3)
  let s1 := s.raise { unit := u, cls := clsAgeing, scope := if last then 2 else 0,
                      actions := if last then actFenced + actReplaced + actRolled else actCounted }
  if last then s1.goDark key clsAgeing seq .fenced
  else if keyLogic key then
    s1.modPower fun p => { p with ceiling := Tbl.set p.ceiling key (min 3 (Tbl.getD p.ceiling key 0 + 1)) }
  else s1

/-- R383: re-plan one region from its lowest slack. -/
def State.replan (s : State) (key : Nat) : State :=
  match Tbl.get? s.power.slack key with
  | none => s
  | some sl =>
    let w := regionWindow key (s.stepNow key)
    let v := Tbl.getD s.power.setpoint key w.1
    let runs := if sl ≥ 8 then Tbl.getD s.power.highRuns key 0 + 1 else 0
    let s1 := s.modPower fun p => { p with slack := Tbl.erase p.slack key, highRuns := Tbl.set p.highRuns key (runs % 7) }
    if sl < 4 then
      if v + 5 ≤ w.2 then s1.modPower fun p => { p with setpoint := Tbl.set p.setpoint key (v + 5) }
      else s1.ageingMargin key
    else if runs ≥ 7 then s1.modPower fun p => { p with setpoint := Tbl.set p.setpoint key (max w.1 (v - 5)) }
    else s1

/-- AGEING_REPLAN (R383, R384). -/
def execAgeingReplan (s : State) : Host.Outcome State Fault Refusal :=
  .next (if s.life.powered ∧ ¬ s.life.frozen then allRegions.foldl (fun t k => t.replan k) s else s)

end Sys2Proof.Machine
end

