-- ==== Sys2Proof/Machine/Regs.lean ====
section
/-! DEFINITION. What the registers of the dies read (Tables 3-3, 4-16, 5-1, 5-12, 6-11, 7-11, 8-22, 9-15, 10-15, 10-16,
15-6), and the content of a dump section of a unit (11 R296, Table 11-13). -/

namespace Sys2Proof.Machine

/-- A 64-bit value from (bit, value) pairs. -/
def word64 (fs : List (Nat × Nat)) : DWord := BitVec.ofNat 64 (fs.foldl (fun a f => a + f.2 * 2 ^ f.1) 0)

/-- TESS_STATE `state` codes. -/
def TessState.code : TessState → Nat
  | .unconfigured => 0 | .running => 1 | .draining => 2 | .loading => 3 | .held => 4

/-- TESS_STATE (Table 4-16). -/
def Atoll.tessState (a : Atoll) : DWord :=
  let pend := match a.tess with
    | .draining | .loading | .held => ((a.reconf.map AtollReconf.epoch).getD a.epoch).toNat
    | _ => a.epoch.toNat
  word64 [(46, b2n a.descValid), (32, if a.descValid then a.descriptor.toNat else 0), (16, a.record.toNat),
    (8, a.tess.code), (4, pend), (0, a.epoch.toNat)]

/-- NBR_MAP register of direction 0 N, 1 S, 2 E, 3 W. -/
def Atoll.nbrWord (a : Atoll) (dir : Nat) : DWord :=
  match a.nbr[dir]? with
  | some n => word64 [(2, n.target.toNat), (1, b2n n.routed), (0, b2n n.valid)]
  | none => 0

/-- QUEUE_NONEMPTY. -/
def Atoll.nonEmpty (a : Atoll) : DWord := word64 ((List.range 32).map fun q => (q, b2n (a.queue q).holds))

/-- An atoll register (Tables 3-3, 4-16, 5-12, 10-15); none where the tables list no register. -/
def State.atollReg (s : State) (g off : Nat) : Option DWord :=
  let a := s.atoll g
  if off = 0x000 then some (BitVec.ofNat 64 g)
  else if off = 0x008 then some (word64 [(8, b2n a.assigned), (0, if a.assigned then a.partition.toNat else 0)])
  else if off = 0x010 then some (a.bayCache.setWidth 64)
  else if off = 0x018 then some (a.bayBusy.setWidth 64)
  else if off = 0x020 then some (a.cacheBase.setWidth 64)
  else if off = 0x028 then some (BitVec.ofNat 64 (b2n a.split))
  else if off = 0x040 ∨ off = 0x048 ∨ off = 0x050 ∨ off = 0x058 then some (a.nbrWord ((off - 0x40) / 8))
  else if off = 0x080 then some a.tessState
  else if 0x088 ≤ off ∧ off ≤ 0x0B0 ∧ off % 8 = 0 then some (a.seq ((off - 0x88) / 8)).word
  else if off = 0x0C0 then some (a.epochDiscard.setWidth 64)
  else if off = 0x0C8 then some (a.flushDiscard.setWidth 64)
  else if off = 0x0D0 then some (a.ptDiscard.setWidth 64)
  else if off = 0x0D8 then some a.nonEmpty
  else if off = 0x0E0 then some (a.chDiscard.setWidth 64)
  else if off = 0x100 then some a.patrolFull
  else if 0x108 ≤ off ∧ off ≤ 0x138 ∧ off % 8 = 0 then some (Tbl.getD a.patrolGap ((off - 0x108) / 8) 0)
  else none

/-- Offsets of the atoll registers, ascending. -/
def atollRegs : List Nat :=
  [0x000, 0x008, 0x010, 0x018, 0x020, 0x028, 0x040, 0x048, 0x050, 0x058, 0x080, 0x088, 0x090, 0x098, 0x0A0, 0x0A8, 0x0B0,
   0x0C0, 0x0C8, 0x0D0, 0x0D8, 0x0E0, 0x100, 0x108, 0x110, 0x118, 0x120, 0x128, 0x130, 0x138]

/-- CH_MSG (Table 5-1). -/
def Core.msgWord (k : Core) : DWord :=
  match k.active with
  | none => 0
  | some (port, m) =>
    let bulk := (k.port port).kind == 2
    word64 [(48, m.seq % 65536), (32, if bulk then m.bodyLen else 0), (10, port), (8, if bulk then 0 else m.words - 1),
      (7, b2n bulk), (6, 1), (0, m.chan)]

/-- CH_OPEN (Table 5-1). -/
def Core.openWord (k : Core) : DWord := word64 ((List.range 64).map fun h => (h, b2n (Tbl.get? k.handles h).isSome))

/-- The channel CSRs of Table 5-1 and 0xFC0; none for any other number. -/
def Core.chanCsr (k : Core) (num : Nat) : Option DWord :=
  let p := k.port k.sel.toNat
  if num = 0x7C0 then some (k.sel.setWidth 64)
  else if num = 0x7C1 then some p.ringWord
  else if num = 0x7C2 then some p.ctrl
  else if num = 0x7C3 then some (BitVec.ofNat 64 (b2n k.mask))
  else if num = 0x7C4 then some k.msgWord
  else if num = 0x7C5 then some k.epc
  else if num = 0x7C6 then some 0
  else if num = 0x7C7 then some k.openWord
  else if num = 0xFC0 then some k.access
  else none

/-- CHANNEL_STATE `state` codes. -/
def ChanState.code : ChanState → Nat
  | .healthy => 0 | .retiring => 1 | .retired => 2 | .notTrained => 3 | .unbacked => 4

/-- STAGING_BANK_STATE codes. -/
def BankState.code : BankState → Nat
  | .on => 0 | .closing => 1 | .draining => 2 | .off => 3

/-- A shoal die register (Table 6-11). -/
def State.shoalReg (s : State) (h off : Nat) : Option DWord :=
  let x := s.shoal h
  if off = 0 then some (BitVec.ofNat 64 h)
  else if 0x008 ≤ off ∧ off ≤ 0x040 ∧ off % 8 = 0 then
    let c := 8 * h + (off - 8) / 8
    some (word64 [(3, if s.chan c = .retiring then ((s.mem.retiring.filter fun r => r.chan == c).map Retire.pagesLeft).getD 0
      else 0), (0, (s.chan c).code)])
  else if off = 0x048 then some (x.corrected.setWidth 64)
  else if off = 0x050 then some (x.uncorrectable.setWidth 64)
  else if off = 0x058 then some (x.linkEcc.setWidth 64)
  else if off = 0x060 then some (word64 ((List.range 16).map fun b => (2 * b, (s.bank h b).code)))
  else if off = 0x068 then some (x.late.setWidth 64)
  else none

/-- CROSSING_HEALTH bits of isle die d: 20-21 shoal ports, 14-19 inner, 10-13 west, 6-9 east, 2-5 isthmus (Table 7-11). A unit's
crossing is unhealthy when its port is fenced; edges that do not exist read 0. -/
def State.crossing (s : State) (d : Nat) : DWord :=
  let ok (i sub : Nat) : Nat := b2n (!s.isFenced (mkUnit 0 d 0 0 15 i sub))
  word64 (((List.range 2).map fun p => (20 + p, ok 6 p)) ++ ((List.range 6).map fun m => (14 + m, ok 0 m)) ++
    ((List.range 4).map fun m => (10 + m, ok 1 m)) ++ ((List.range 4).map fun m => (6 + m, ok 2 m)) ++
    ((List.range 4).map fun r => (2 + r, ok 3 r)))

/-- An isle die register (Table 7-11). -/
def State.isleReg (s : State) (d off : Nat) : Option DWord :=
  if off = 0x100 then
    some (word64 [(4, (Tbl.getD s.net.meshStep (2 * d + 1) 0).toNat), (0, (Tbl.getD s.net.meshStep (2 * d) 0).toNat)])
  else if off = 0x108 then some (s.crossing d)
  else if off = 0x110 then some ((Tbl.getD s.net.isleRetry d 0).setWidth 64)
  else if off = 0x118 then some ((Tbl.getD s.net.isleRetrain d 0).setWidth 64)
  else none

/-- LINK_STATE of global link l (Table 8-22). -/
def State.linkState (s : State) (l : Nat) : DWord :=
  let x := s.link l
  word64 [(35, x.peerLink % 128), (22, if x.peerIdValid then x.peerModule % 8192 else 0), (21, b2n x.peerIdValid),
    (20, b2n x.peerFwd), (8, x.retrains % 256), (0, x.state % 16)]

/-- LINK_CONFIG of a link. -/
def FLink.config (x : FLink) : Nat := x.group % 8 * 32 + b2n x.dateline * 16 + b2n x.enable

/-- Chunk accumulators in use on a strait die: chunk c lies on die c mod 6 (09 R224). -/
def State.accumulators (s : State) (d : Nat) : Nat :=
  (s.coll.list.map fun c => c.accs.countP fun a => a.1 % 6 == d).foldl (· + ·) 0

/-- A strait die register (Tables 8-22, 9-15). -/
def State.straitReg (s : State) (d off : Nat) : Option DWord :=
  let x := s.strait d
  if off = 0x000 then some (BitVec.ofNat 64 d)
  else if off = 0x008 then some (word64 [(13, b2n s.life.moduleId.isSome), (0, ((s.life.moduleId.map BitVec.toNat).getD 0))])
  else if 0x010 ≤ off ∧ off ≤ 0x088 ∧ off % 8 = 0 then some (s.linkState (16 * d + (off - 0x10) / 8))
  else if 0x090 ≤ off ∧ off ≤ 0x108 ∧ off % 8 = 0 then some (BitVec.ofNat 64 (s.link (16 * d + (off - 0x90) / 8)).config)
  else if off = 0x110 then some (x.fecCorrected.setWidth 64)
  else if off = 0x118 then some (x.retry.setWidth 64)
  else if off = 0x120 then some (x.retrain.setWidth 64)
  else if off = 0x128 then some (x.noRoute.setWidth 64)
  else if off = 0x130 then some (x.hopDrop.setWidth 64)
  else if off = 0x138 then some (x.badPacket.setWidth 64)
  else if off = 0x140 then some (x.duplicate.setWidth 64)
  else if off = 0x148 then some (x.mcastDrop.setWidth 64)
  else if off = 0x150 then some (x.syncDrop.setWidth 64)
  else if off = 0x158 then some (word64 [(32, x.lost.toNat), (0, x.head % 512)])
  else if off = 0x160 then
    let act := s.coll.list.filter fun c => c.running && c.finished.isNone
    let que := s.coll.list.filter fun c => !c.running && c.finished.isNone
    some (word64 [(16, s.accumulators d % 64), (8, act.length % 16), (0, que.length % 64)])
  else if off = 0x168 then some (x.collDrop.setWidth 64)
  else if off = 0x170 then some (x.earlyDrop.setWidth 64)
  else if off = 0x178 then some (x.stepSkew.setWidth 64)
  else if off = 0x180 then some (x.nonfinite.setWidth 64)
  else none

/-- Offsets of the strait registers, ascending. -/
def straitRegs : List Nat := (List.range 49).map fun i => 8 * i

/-- A fault collector register (Table 10-16). -/
def State.collectorReg (s : State) (node off : Nat) : Option DWord :=
  let c := s.collector node
  if off = 0x200 then some (word64 [(32, c.coal.length), (0, c.ring.length)])
  else if off = 0x208 then some (c.overflow.setWidth 64)
  else if off = 0x210 then some (c.seq.setWidth 64)
  else none

/-! ### Dump sections -/

/-- The units of an atoll site that a dump visits, in ascending unit ID. -/
def siteUnits (g : Nat) : List Word :=
  [siteUnit g] ++ ((List.range 4).map fun e => engineUnit g e) ++ ((List.range 2).map fun v => vecUnit g v) ++
    [atollUnit g 3 0 0x3FF, atollUnit g 3 1 0x3FF, atollUnit g 3 15 0x3FF] ++ ((List.range 6).map fun u => seqUnit g u)

/-- All units of Table 11-13, in causeway node order and ascending unit ID within a die: the isle die as a whole (site 31 of
half 0) stands between the sites of its halves. -/
def dieUnits (node : Nat) : List Word :=
  if node < 8 then
    let half (h : Nat) : List Word := ((List.range 20).map fun i => siteUnits (node * 40 + h * 20 + i)).flatten
    half 0 ++ [mkUnit 0 node 0 31 0 0 0x3FF] ++ half 1
  else if node < 24 then
    [shoalUnit (node - 8) 0 0 0x3FF] ++ ((List.range 4).map fun u => streamUnitId (node - 8) u) ++
      [shoalUnit (node - 8) 10 0 0x3FF]
  else if node < 30 then
    [straitUnit (node - 24) 0 0 0x3FF, straitUnit (node - 24) 10 0 0x3FF, straitUnit (node - 24) 12 0 0x3FF]
  else [mkUnit 3 (node - 30) 0 0 0 0 0x3FF]

/-- The units a dump visits, in order; a lockstep pair has one section, split cores two. -/
def State.dumpUnits (s : State) : List Word :=
  ((List.range 32).map fun n => (dieUnits n).filter fun u =>
    match uAtoll u with
    | some g => uKind u != 3 || (if (s.atoll g).split then uIndex u != 15 else uIndex u == 15)
    | none => true).flatten

/-- 32-byte or 64-byte records as words. -/
def wordsOf (n : Nat) (v : Nat) : List DWord := (List.range n).map fun i => BitVec.ofNat 64 (v / 2 ^ (64 * i))

/-- The words of a unit's section (Table 11-13). -/
def State.dumpWords (s : State) (u : Word) : List DWord :=
  match uDieKind u, uAtoll u with
  | 0, some g =>
    let a := s.atoll g
    match uKind u with
    | 0 => atollRegs.filterMap (fun o => s.atollReg g o) ++
        ((List.range 32).map fun q =>
          match (a.queue q).ents with
          | [] => []
          | e :: _ => wordsOf 4 e.data.toNat ++ [word64 [(0, b2n e.token), (1, e.epoch.toNat), (8, q)]]).flatten
    | 1 => let e := a.engine (uIndex u)
        (e.queue.map fun o => wordsOf 8 o.desc.toNat).flatten ++
          (match e.cur with
           | some r => [BitVec.ofNat 64 (fld r.op.desc 62 0 16)]
           | none => []) ++ ([0, 1].map fun c => Tbl.getD (a.core c).topDone (uIndex u) []).flatten
    | 2 => let e := a.vec (uIndex u)
        (e.queue.map fun o => wordsOf 5 o.desc.toNat).flatten ++
          (match e.cur with
           | some r => [BitVec.ofNat 64 (fld r.desc 38 0 16)]
           | none => [])
    | 3 => let k := a.core (if uIndex u = 15 then 0 else uIndex u)
        ((List.range 31).map fun i => k.reg (i + 1)) ++ [k.pc] ++
          [0x7C0, 0x7C1, 0x7C2, 0x7C3, 0x7C4, 0x7C5, 0x7C6, 0x7C7, 0xFC0].filterMap k.chanCsr
    | 4 => let q := a.seq (uIndex u)
        ((List.range 8).map fun c => word64 [(0, (Tbl.getD q.ctrs c (0, 0)).1 % 2 ^ 32), (32, (Tbl.getD q.ctrs c (0, 0)).2 % 2 ^ 32)])
          ++ [q.select.setWidth 64, q.word, word64 (((List.range 4).map fun i => (8 * i, q.inBind.getD i 0 % 256)) ++
            (List.range 4).map fun i => (32 + 8 * i, q.outBind.getD i 0 % 256))]
    | _ => []
  | 0, none =>
    [0x100, 0x108, 0x110, 0x118].filterMap (fun o => s.isleReg (uDie u) o) ++
      [0x200, 0x208, 0x210].filterMap (fun o => s.collectorReg (uNode u) o)
  | 1, _ =>
    if uKind u = 0 then
      ((List.range 14).map fun i => 8 * i).filterMap (fun o => s.shoalReg (uDie u) o) ++
        [0x200, 0x208, 0x210].filterMap (fun o => s.collectorReg (uNode u) o)
    else if uKind u = 9 then
      let x := Tbl.getD (s.shoal (uDie u)).units (uIndex u) StreamUnit.reset
      (x.queue.map fun c => wordsOf 8 c.img.toNat).flatten ++
        (match x.cur with
         | some r => [BitVec.ofNat 64 (fld r.cmd.img 62 0 16)]
         | none => [])
    else []
  | 2, _ =>
    if uKind u = 0 then
      straitRegs.filterMap (fun o => s.straitReg (uDie u) o) ++
        [0x200, 0x208, 0x210].filterMap (fun o => s.collectorReg (uNode u) o)
    else []
  | _, _ =>
    (s.parts.map fun e =>
      [word64 [(0, e.2.jobTag.toNat), (32, e.1), (40, e.2.x0), (48, e.2.y0), (56, e.2.posAtoll.length % 256)]] ++
        ((List.range 4).map fun st =>
          let y := e.2.stream st
          [word64 [(0, y.fetched), (32, y.done)], word64 [(0, y.retired), (32, b2n y.open_ + 2 * b2n y.stopped)]]).flatten).flatten
      ++ [BitVec.ofNat 64 s.power.queue.length, BitVec.ofNat 64 s.power.ramping.length, BitVec.ofNat 64 s.power.measured]

end Sys2Proof.Machine
end

