-- ==== Sys2Proof/Machine/HubCmds.lean ====
section
/-! DEFINITION. Mailbox commands on the module as a whole: status, parameters, log, fence map, suspect reports, telemetry, wear
scores, module ID, route and multicast tables and link configuration (08, 11 R291, R292, 12 R319-R321, 14 R361, 17 R413). -/

namespace Sys2Proof.Machine

/-! ### Heartbeat and status report (11 R291, R292) -/

/-- HEARTBEAT `state` (Table 11-7). -/
def LifeState.code : LifeState → Nat
  | .holding | .recovery | .noProcessor => 1
  | .ready => 2
  | .moduleReset => 3
  | .outOfService => 4
  | _ => 0

/-- Counted module resets within MODULE_RESET_WINDOW (R288, R290). -/
def State.countedResets (s : State) : Nat :=
  s.flt.moduleResets.countP fun t => decide (ageOf s.count t < s.param 0x0B06 * 360000000000)

/-- Whether the dump buffer holds an unread dump (R298). -/
def State.unreadDump (s : State) : Bool := (s.flt.dump.map fun d => d.unread).getD false

/-- R17: the rating is reduced when fewer than 256 sites are healthy. -/
def State.reducedNow (s : State) : Bool := decide (s.healthyCount < 256)

/-- Table 11-7. -/
def State.heartbeat (s : State) : DWord :=
  word64 [(0, b2n s.unreadDump), (8, min 255 s.countedResets), (16, s.healthyCount), (25, b2n s.reducedNow),
    (26, b2n s.life.standby), (27, s.life.activeHub % 2), (28, s.life.state.code), (32, s.flt.beat.toNat)]

/-- Whether `state`, `hub`, `standby` or `reduced` differ between two states. -/
def State.shows (a b : State) : Bool := bits a.heartbeat.toNat 25 7 == bits b.heartbeat.toNat 25 7

/-- R317: the state-change event, when the heartbeat word's state bits differ from those of an earlier state. -/
def State.noteChange (s old : State) : State :=
  if s.shows old then s
  else s.postEvent { type := 4, mailboxes := [0], content := leBytes 8 s.heartbeat.toNat }

/-- Position of the newest hub log record; the manual states none for an empty log. -/
def State.newestLog (s : State) : Nat :=
  match s.flt.log.getLast? with
  | some e => e.1 % 2 ^ 32
  | none => (Config.unstated s.freeCtr 1).toNat % 2 ^ 32

/-- Table 11-8. -/
def State.statusBytes (s : State) : List Byte :=
  packBytes 64 [(0, (match s.life.moduleId with
      | some i => i.toNat + 2 ^ 15
      | none => 0)), (4, s.flt.boot.toNat), (8, s.count.toNat), (16, s.heartbeat.toNat), (24, s.flt.fenceGen.toNat),
    (28, s.newestLog), (32, s.flt.notices.toNat)]

/-- Fabric links trained (14 R360, Table 12-10): at width 1 or 2. -/
def State.linksTrained (s : State) : Nat :=
  (List.range 96).countP fun l => let x := (s.link l).state; decide (2 ≤ x ∧ x ≤ 4)

/-- Table 12-10, QUERY data; recovery holding has no healthy sites, devices or links (14 R351). -/
def State.queryBytes (s : State) (p : Nat) : List Byte :=
  let x := s.part? p
  let on (n : Nat) : Nat := if s.life.state = .recovery then 0 else n
  s.statusBytes ++ packBytes 32 [(0, on s.healthyCount), (2, on s.activeCount), (4, b2n s.reducedNow), (5, on s.devicesPassing),
    (6, on s.linksTrained), (8, s.mem.map.size), (16, (s.parts.map fun e => 2 ^ e.1).foldl (· + ·) 0),
    (20, ((Tbl.getD s.fw.hubs s.life.activeHub FwHub.reset).running.version).toNat),
    (24, (x.map fun y => y.posAtoll.length).getD 0),
    (26, match x with
      | none => 0
      | some y => if y.inReset then 2 else 1), (28, (x.map fun y => y.jobTag.toNat).getD 0)]

/-- QUERY (12 R320). -/
def execQuery (m : Fin 34) (s : State) : Host.Outcome State Fault Refusal :=
  s.mbRow m 1 fun c =>
    let s1 := if s.flt.log.isEmpty then s.freshen else s
    s1.mbEnd m c mbDone 0xFFFF 0 (s.queryBytes (mbPartition c.img))

/-! ### Parameters (R321) -/

/-- GET_PARAM. -/
def execGetParam (m : Fin 34) (s : State) : Host.Outcome State Fault Refusal :=
  s.mbHomeRow m 2 fun c =>
    let n := fld c.img 16 0 16
    if paramModule n then s.mbEnd m c mbDone 0xFFFF (s.param n)
    else
      match s.part? (mbPartition c.img) with
      | none => s.mbEnd m c mbNoResource
      | some _ => s.mbEnd m c mbDone 0xFFFF (s.pparam (mbPartition c.img) n)

/-- R221: every link of the module retrains and carries nothing meanwhile. -/
def State.retrainAll (s : State) : State :=
  (List.range 96).foldl (fun t l =>
    if (t.link l).enable then
      (t.modLink l fun x => { x with state := 1, retraining := ~~~ x.fencedLanes, retrains := min 255 (x.retrains + 1) }).dropLink l
    else t) s

/-- R145: build the DRAM map over the healthy channels; all DRAM then reads zero. -/
def State.rebuildDram (s : State) (spare localSize : Nat) : State :=
  let chans := (List.range 128).filter fun c => s.chan c == .healthy
  s.modMem fun m => { m with map := buildMap chans spare localSize, dram := [], dramPoison := [], remap := [], spareUsed := [],
                             retiring := m.retiring.map fun r => { r with pagesLeft := 0 } }

/-- R145: whether I would be negative over the healthy channels. -/
def State.mapNegative (s : State) (spare localSize : Nat) : Bool :=
  let h := (List.range 128).countP fun c => s.chan c == .healthy
  decide (h ≠ 0 ∧ localSize * 128 + (spare * 7680 + h - 1) / h > 7680)

/-- R114, R145, R221: parameter-specific refusals. -/
def State.paramRefusal (s : State) (n v : Nat) : Option Nat :=
  if n = 0x0402 ∨ n = 0x0800 then (if s.parts.isEmpty then none else some mbBusy)
  else if n = 0x0600 ∨ n = 0x0601 then
    (if ¬ s.parts.isEmpty ∨ s.host.hdmCommitted then some mbBusy
     else if s.mapNegative (if n = 0x0600 then v else s.param 0x0600) (if n = 0x0601 then v else s.param 0x0601) then
       some mbOutOfRange
     else none)
  else none

/-- What setting a module parameter does besides (R145, R221, R425, 15 R372). -/
def State.paramEffect (s : State) (n : Nat) : State :=
  if n = 0x0600 ∨ n = 0x0601 then s.rebuildDram (s.param 0x0600) (s.param 0x0601)
  else if n = 0x0800 then s.retrainAll
  else if n = 0x0806 then (List.range 6).foldl (fun t d => t.modStrait d fun x => { x with telemetry := [], head := 0 }) s
  else if n = 0x0F00 then s.fitBudget
  else s

/-- SET_PARAM. -/
def execSetParam (m : Fin 34) (s : State) : Host.Outcome State Fault Refusal :=
  s.mbRow m 3 fun c =>
    let n := fld c.img 16 0 16
    let v := fld c.img 24 0 64
    if paramModule n then
      match s.paramRefusal n v with
      | some st => s.mbEnd m c st
      | none =>
        (State.paramEffect { s with params := Tbl.set s.params n (BitVec.ofNat 64 v) } n).mbEnd m c mbDone 0xFFFF (s.param n)
    else
      let p := mbPartition c.img
      match s.part? p with
      | none => s.mbEnd m c mbNoResource
      | some _ =>
        (s.modPart p fun x => { x with params := Tbl.set x.params n (BitVec.ofNat 64 v) }).mbEnd m c mbDone 0xFFFF (s.pparam p n)

/-- CORRELATE (17 R413): c1 is the count at the doorbell; c2 is put in by COMPLETION_POST. -/
def execCorrelate (m : Fin 34) (s : State) : Host.Outcome State Fault Refusal :=
  s.mbHomeRow m 4 fun c =>
    s.freshen.mbEnd m c mbDone 0xFFFF c.word (packBytes 16 [(0, s.net.switchAt.toNat),
      (8, b2n (s.net.onOsc1.contains (30 + s.life.activeHub))), (12, (Config.ppb s.freeCtr).toNat)])

/-! ### Group 0x01 reads -/

/-- LOG_READ. A partition mailbox sees its own records alone. -/
def execLogRead (m : Fin 34) (s : State) : Host.Outcome State Fault Refusal :=
  s.mbHomeRow m 0x100 fun c =>
    let seen := s.flt.log.filter fun e => m.val = 0 || m.val = 33 || e.2.part == some (m.val - 1)
    let pos := fld c.img 16 0 32
    let got := (seen.filter fun e => pos == 0xFFFFFFFF || decide (e.1 % 2 ^ 32 ≥ pos)).take (fld c.img 20 0 8)
    let u (i : Nat) : Nat := (Config.unstated s.freeCtr i).toNat % 2 ^ 32
    let at_ (o : Option (Nat × ErrRec)) (i : Nat) : Nat := ((o.map fun e => e.1 % 2 ^ 32)).getD (u i)
    s.freshen.mbEnd m c mbDone 0xFFFF
      (at_ got.head? 2 + at_ seen.head? 3 * 2 ^ 32 + at_ seen.getLast? 4 * 2 ^ 64)
      (got.map fun e => leBytes 64 e.2.bits.toNat).flatten

/-- A fence map entry (Table 10-6). -/
def FenceEntry.bytes (e : FenceEntry) : List Byte :=
  packBytes 16 [(0, e.unit.toNat), (4, e.cls.toNat), (6, e.source.toNat), (7, b2n e.retry), (8, e.boot.toNat),
    (12, e.recordSeq.toNat)]

/-- FENCE_MAP_READ. -/
def execFenceMapRead (m : Fin 34) (s : State) : Host.Outcome State Fault Refusal :=
  s.mbRow m 0x101 fun c =>
    let es := (s.flt.fenceMap.drop (fld c.img 16 0 16)).take 15
    s.mbEnd m c mbDone 0xFFFF (s.flt.fenceMap.length + s.flt.fenceGen.toNat * 2 ^ 32) (es.map FenceEntry.bytes).flatten

/-- An entry of Table 10-3. -/
def Touch.bytes (t : Touch) : List Byte :=
  packBytes 16 [(0, t.part), (4, t.jobTag.toNat), (8, t.firstStep.toNat), (12, t.lastStep.toNat)]

/-- Bytes 0 to 31 of Table 10-3. -/
def Suspect.head (r : Suspect) : List Byte :=
  packBytes 32 [(0, r.unit.toNat), (4, b2n r.full), (5, r.entries.length), (6, r.reportId.toNat), (8, r.since.toNat),
    (16, r.detected.toNat), (24, r.recordSeq.toNat)]

/-- SUSPECT_READ. -/
def execSuspectRead (m : Fin 34) (s : State) : Host.Outcome State Fault Refusal :=
  s.mbHomeRow m 0x102 fun c =>
    match s.flt.suspects.find? fun r => r.reportId.toNat == fld c.img 16 0 16 with
    | none => s.mbEnd m c mbNoResource
    | some r => s.mbEnd m c mbDone 0xFFFF 0
        (r.head ++ (((r.entries.drop (fld c.img 18 0 8)).take 13).map Touch.bytes).flatten)

/-- The record in telemetry slot i of a strait die; a slot never written reads zero. -/
def Strait.slot (x : Strait) (i : Nat) : BitVec 512 :=
  let n := x.telemetry.length
  let k := (i + 512 + n - x.head) % 512
  (x.telemetry[k]?).getD 0

/-- TELEMETRY_READ. -/
def execTelemetryRead (m : Fin 34) (s : State) : Host.Outcome State Fault Refusal :=
  s.mbRow m 0x103 fun c =>
    let d := fld c.img 16 0 8
    let x := s.strait d
    let rs := (List.range (fld c.img 20 0 8)).map fun i => leBytes 64 (x.slot ((fld c.img 18 0 16 + i) % 512)).toNat
    s.mbEnd m c mbDone 0xFFFF (x.lost.toNat * 2 ^ 32 + x.head % 512) rs.flatten

/-- R272: the scored units in ascending unit ID; staging banks have no unit ID of their own (log entry 40). -/
def scoredUnits : List Word :=
  let phases (n r : Nat) : List Word := ((List.range 9).map fun k => ((List.range r).filter fun q =>
    decide (k < (phasesOf (n * 16 + q)).1)).map fun q => phaseUnit (n * 16 + q) k).flatten
  let site (g : Nat) : List Word := siteUnit g :: (List.range 24).map fun b => bayUnit g b
  ((List.range 8).map fun d =>
    site (40 * d) ++ phases d 13 ++ ((List.range 6).map fun i => mkUnit 0 d 0 0 15 0 i) ++
      ((List.range 4).map fun i => mkUnit 0 d 0 0 15 1 i) ++ ((List.range 4).map fun i => mkUnit 0 d 0 0 15 2 i) ++
      ((List.range 2).map fun i => mkUnit 0 d 0 0 15 6 i) ++ ((List.range 39).map fun i => site (40 * d + 1 + i)).flatten).flatten ++
  ((List.range 16).map fun h =>
    ((List.range 8).map fun i => shoalUnit h 8 i (8 * h + i)) ++ ((List.range 4).map fun u => streamUnitId h u) ++
      phases (8 + h) 6 ++ ((List.range 2).map fun i => shoalUnit h 15 6 i)).flatten ++
  ((List.range 6).map fun x =>
    ((List.range 16).map fun l => linkUnit (16 * x + l) 0x3FF) ++ phases (24 + x) 4 ++
      [straitUnit x 15 (if x < 3 then 2 else 1) 0, straitUnit x 15 (if x < 3 then 2 else 1) 1, straitUnit x 15 4 0,
        straitUnit x 15 5 0]).flatten ++
  ((List.range 2).map fun h => phases (30 + h) 3 ++ [mkUnit 3 h 0 0 15 (if h = 0 then 2 else 1) 0, mkUnit 3 h 0 0 15 (if h = 0 then 2 else 1) 1]).flatten

/-- A unit's wear score; a fenced unit reads 1000 (R272). -/
def State.wearScore (s : State) (u : Word) : Nat :=
  if s.isFenced u then 1000 else (Tbl.getD s.flt.wear u.toNat Wear.zero).score

/-- WEAR_READ. -/
def execWearRead (m : Fin 34) (s : State) : Host.Outcome State Fault Refusal :=
  s.mbRow m 0x104 fun c =>
    let us := (scoredUnits.drop (fld c.img 16 0 32)).take 30
    s.mbEnd m c mbDone 0xFFFF scoredUnits.length (us.map fun u => packBytes 8 [(0, u.toNat), (4, s.wearScore u)]).flatten

/-! ### Group 0x04 -/

/-- LINK_STATE_READ. -/
def execLinkStateRead (m : Fin 34) (s : State) : Host.Outcome State Fault Refusal :=
  s.mbRow m 0x404 fun c =>
    let d := fld c.img 16 0 8
    s.mbEnd m c mbDone 0xFFFF 0 ((List.range 16).map fun l => leBytes 8 (s.linkState (16 * d + l)).toNat).flatten

/-- MODULE_ID_SET (14 R361). -/
def execModuleIdSet (m : Fin 34) (s : State) : Host.Outcome State Fault Refusal :=
  s.mbRow m 0x400 fun c =>
    let i := BitVec.ofNat 13 (fld c.img 16 0 13)
    if s.life.moduleId = some i then s.mbEnd m c mbDone
    else if s.life.moduleId.isSome ∧ ¬ s.parts.isEmpty then s.mbEnd m c mbBusy
    else (s.modLife fun l => { l with moduleId := some i }).mbEnd m c mbDone

/-- ROUTE_WRITE (08 R210). -/
def execRouteWrite (m : Fin 34) (s : State) : Host.Outcome State Fault Refusal :=
  s.mbRow m 0x401 fun c =>
    let first := fld c.img 16 0 16
    let t := (List.range (fld c.img 18 0 8)).foldl (fun (t : Tbl Word) k =>
      Tbl.set t (first + k) (BitVec.ofNat 32 (fld c.img (20 + 4 * k) 0 32))) s.fab.routes
    (s.modFab fun f => { f with routes := t }).mbEnd m c mbDone

/-- MCAST_WRITE (08 R215). -/
def execMcastWrite (m : Fin 34) (s : State) : Host.Outcome State Fault Refusal :=
  s.mbRow m 0x402 fun c =>
    (s.modFab fun f => { f with groups := Tbl.set f.groups (fld c.img 16 0 16) (BitVec.ofNat 128 (fld c.img 20 0 128)) }).mbEnd
      m c mbDone

/-- Table 8-22: LINK_CONFIG of link l takes v: clearing `enable` makes the link DISABLED at once, its replay buffer routed again;
setting it trains the link. -/
def State.setLinkConfig (s : State) (l v : Nat) : State :=
  let was := (s.link l).enable
  let en := v % 2 == 1
  let s1 := s.modLink l fun x => { x with
    group := v / 32 % 8, dateline := v / 16 % 2 == 1, enable := en,
    state := if !en then 6 else if was then x.state else 1,
    retraining := if en && !was then ~~~ x.fencedLanes else if en then x.retraining else 0 }
  if was && !en then s1.dropLink l else s1

/-- LINK_CONFIG_WRITE (R220). -/
def execLinkConfigWrite (m : Fin 34) (s : State) : Host.Outcome State Fault Refusal :=
  s.mbRow m 0x403 fun c => (s.setLinkConfig (fld c.img 16 0 8) (fld c.img 18 0 8)).mbEnd m c mbDone

end Sys2Proof.Machine
end

