-- ==== Sys2Proof/Machine/Cores.lean ====
section
/-! DEFINITION. Scalar cores: RV64IMAC with the channel CSRs (03 R73-R75; the base instruction set is RISC-V's, PRESUMED, log
entry 10), and the synchronisation instructions (05 R130-R133). -/

namespace Sys2Proof.Machine

/-! ### Compressed instructions, expanded to the 32-bit instruction each stands for -/

/-- I-type. -/
def rvI (imm : Int) (rs1 f3 rd op : Nat) : Nat := (imm % 4096).toNat * 2 ^ 20 + rs1 * 2 ^ 15 + f3 * 2 ^ 12 + rd * 2 ^ 7 + op
/-- R-type. -/
def rvR (f7 rs2 rs1 f3 rd op : Nat) : Nat := f7 * 2 ^ 25 + rs2 * 2 ^ 20 + rs1 * 2 ^ 15 + f3 * 2 ^ 12 + rd * 2 ^ 7 + op
/-- S-type store. -/
def rvS (imm rs2 rs1 f3 : Nat) : Nat := imm / 32 * 2 ^ 25 + rs2 * 2 ^ 20 + rs1 * 2 ^ 15 + f3 * 2 ^ 12 + imm % 32 * 2 ^ 7 + 0x23
/-- B-type branch with a 13-bit offset. -/
def rvB (imm rs1 f3 : Nat) : Nat :=
  bits imm 12 1 * 2 ^ 31 + bits imm 5 6 * 2 ^ 25 + rs1 * 2 ^ 15 + f3 * 2 ^ 12 + bits imm 1 4 * 2 ^ 8 + bits imm 11 1 * 2 ^ 7 + 0x63
/-- J-type with a 21-bit offset. -/
def rvJ (imm rd : Nat) : Nat :=
  bits imm 20 1 * 2 ^ 31 + bits imm 1 10 * 2 ^ 21 + bits imm 11 1 * 2 ^ 20 + bits imm 12 8 * 2 ^ 12 + rd * 2 ^ 7 + 0x6F
/-- A w-bit signed offset as an n-bit field. -/
def rvSx (w n v : Nat) : Nat := (signedOf w v % (2 ^ n : Nat)).toNat

/-- RV64C (no floating point); none is illegal. -/
def rvExpand (h : Nat) : Option Nat :=
  let f3 := bits h 13 3
  let rd := bits h 7 5
  let r2 := bits h 2 5
  let rdp := 8 + bits h 2 3
  let rsp := 8 + bits h 7 3
  let b (i : Nat) : Nat := bits h i 1
  let imm6 : Nat := b 12 * 32 + r2
  let simm : Int := signedOf 6 imm6
  let lw : Nat := bits h 10 3 * 8 + b 6 * 4 + b 5 * 64
  let ld : Nat := bits h 10 3 * 8 + bits h 5 2 * 64
  match bits h 0 2, f3 with
  | 0, 0 =>
    let u := bits h 11 2 * 16 + bits h 7 4 * 64 + b 6 * 4 + b 5 * 8
    if u = 0 then none else some (rvI u 2 0 rdp 0x13)
  | 0, 2 => some (rvI lw rsp 2 rdp 0x03)
  | 0, 3 => some (rvI ld rsp 3 rdp 0x03)
  | 0, 6 => some (rvS lw rdp rsp 2)
  | 0, 7 => some (rvS ld rdp rsp 3)
  | 1, 0 => some (rvI simm rd 0 rd 0x13)
  | 1, 1 => if rd = 0 then none else some (rvI simm rd 0 rd 0x1B)
  | 1, 2 => some (rvI simm 0 0 rd 0x13)
  | 1, 3 =>
    if imm6 = 0 then none
    else if rd = 2 then
      some (rvI (signedOf 10 (b 12 * 512 + b 6 * 16 + b 5 * 64 + bits h 3 2 * 128 + b 2 * 32)) 2 0 2 0x13)
    else some (rvSx 6 20 imm6 * 2 ^ 12 + rd * 2 ^ 7 + 0x37)
  | 1, 4 =>
    match bits h 10 2 with
    | 0 => some (rvI imm6 rsp 5 rsp 0x13)
    | 1 => some (rvI (imm6 + 1024) rsp 5 rsp 0x13)
    | 2 => some (rvI simm rsp 7 rsp 0x13)
    | _ =>
      match b 12, bits h 5 2 with
      | 0, 0 => some (rvR 0x20 rdp rsp 0 rsp 0x33)
      | 0, 1 => some (rvR 0 rdp rsp 4 rsp 0x33)
      | 0, 2 => some (rvR 0 rdp rsp 6 rsp 0x33)
      | 0, _ => some (rvR 0 rdp rsp 7 rsp 0x33)
      | _, 0 => some (rvR 0x20 rdp rsp 0 rsp 0x3B)
      | _, 1 => some (rvR 0 rdp rsp 0 rsp 0x3B)
      | _, _ => none
  | 1, 5 =>
    some (rvJ (rvSx 12 21 (b 12 * 2048 + b 11 * 16 + bits h 9 2 * 256 + b 8 * 1024 + b 7 * 64 + b 6 * 128 + bits h 3 3 * 2 + b 2 * 32)) 0)
  | 1, f =>
    if f = 6 ∨ f = 7 then
      some (rvB (rvSx 9 13 (b 12 * 256 + bits h 10 2 * 8 + bits h 5 2 * 64 + bits h 3 2 * 2 + b 2 * 32)) rsp (f - 6))
    else none
  | 2, 0 => some (rvI imm6 rd 1 rd 0x13)
  | 2, 2 => if rd = 0 then none else some (rvI (b 12 * 32 + bits h 4 3 * 4 + bits h 2 2 * 64 : Nat) 2 2 rd 0x03)
  | 2, 3 => if rd = 0 then none else some (rvI (b 12 * 32 + bits h 5 2 * 8 + bits h 2 3 * 64 : Nat) 2 3 rd 0x03)
  | 2, 4 =>
    if b 12 = 0 then
      if r2 ≠ 0 then some (rvR 0 r2 0 0 rd 0x33) else if rd = 0 then none else some (rvI 0 rd 0 0 0x67)
    else if r2 ≠ 0 then some (rvR 0 r2 rd 0 rd 0x33)
    else if rd = 0 then some 0x00100073
    else some (rvI 0 rd 0 1 0x67)
  | 2, 6 => some (rvS (bits h 9 4 * 4 + bits h 7 2 * 64) r2 2 2)
  | 2, 7 => some (rvS (bits h 10 3 * 8 + bits h 7 3 * 64) r2 2 3)
  | _, _ => none

/-! ### Arithmetic -/

/-- Sign-extended low 32 bits. -/
def rvW (v : DWord) : DWord := (v.setWidth 32).signExtend 64

/-- OP and OP-IMM: f3 with the alternate bit. -/
def rvAlu (f3 : Nat) (alt : Bool) (a b : DWord) : DWord :=
  let sh := b.toNat % 64
  match f3 with
  | 0 => if alt then a - b else a + b
  | 1 => a <<< sh
  | 2 => if a.slt b then 1 else 0
  | 3 => if a.ult b then 1 else 0
  | 4 => a ^^^ b
  | 5 => if alt then a.sshiftRight sh else a >>> sh
  | 6 => a ||| b
  | _ => a &&& b

/-- OP-32. -/
def rvAluW (f3 : Nat) (alt : Bool) (a b : DWord) : DWord :=
  let x := a.setWidth 32
  let sh := b.toNat % 32
  match f3 with
  | 0 => rvW (if alt then a - b else a + b)
  | 1 => (x <<< sh).signExtend 64
  | _ => (if alt then x.sshiftRight sh else x >>> sh).signExtend 64

/-- M extension at width w (32 or 64), sign-extended to 64 bits; a division by 0 gives all ones and the dividend. -/
def rvMul (w f3 : Nat) (a b : DWord) : DWord :=
  let sa : Int := signedOf w (a.toNat % 2 ^ w)
  let sb : Int := signedOf w (b.toNat % 2 ^ w)
  let ua : Int := (a.toNat % 2 ^ w : Nat)
  let ub : Int := (b.toNat % 2 ^ w : Nat)
  let out (v : Int) : DWord := BitVec.ofInt 64 (signedOf w (v % (2 ^ w : Nat)).toNat)
  match f3 with
  | 0 => out (sa * sb)
  | 1 => out (sa * sb / (2 ^ w : Nat))
  | 2 => out (sa * ub / (2 ^ w : Nat))
  | 3 => out (ua * ub / (2 ^ w : Nat))
  | 4 => if sb = 0 then out (-1) else out (Int.tdiv sa sb)
  | 5 => if ub = 0 then out (-1) else out (ua / ub)
  | 6 => if sb = 0 then out sa else out (Int.tmod sa sb)
  | _ => if ub = 0 then out ua else out (ua % ub)

/-- The value an AMO stores, at width w. -/
def rvAmo (f5 w : Nat) (m r : DWord) : DWord :=
  let sm := signedOf w (m.toNat % 2 ^ w)
  let sr := signedOf w (r.toNat % 2 ^ w)
  let um := m.toNat % 2 ^ w
  let ur := r.toNat % 2 ^ w
  match f5 with
  | 0 => m + r
  | 1 => r
  | 4 => m ^^^ r
  | 8 => m ||| r
  | 12 => m &&& r
  | 16 => if sm < sr then m else r
  | 20 => if sm < sr then r else m
  | 24 => if um < ur then m else r
  | _ => if um < ur then r else m

/-- Whether a branch is taken. -/
def rvTaken (f3 : Nat) (a b : DWord) : Option Bool :=
  match f3 with
  | 0 => some (a == b)
  | 1 => some (a != b)
  | 4 => some (a.slt b)
  | 5 => some (!a.slt b)
  | 6 => some (a.ult b)
  | 7 => some (!a.ult b)
  | _ => none

/-! ### Control and status registers -/

/-- Machine-mode CSRs kept by number: mstatus, mie, mtvec, mscratch, mepc, mcause, mtval, mip (log entry 10). -/
def machineCsrs : List Nat := [0x300, 0x304, 0x305, 0x340, 0x341, 0x342, 0x343, 0x344]

/-- The value of a CSR; none where a core has no such CSR. misa reads RV64IMAC, the machine-mode identifiers 0, mhartid the core. -/
def Core.csrRead (k : Core) (hart num : Nat) : Option DWord :=
  match k.chanCsr num with
  | some v => some v
  | none =>
    if num = 0x301 then some 0x8000000000001105
    else if num = 0xF11 ∨ num = 0xF12 ∨ num = 0xF13 then some 0
    else if num = 0xF14 then some (BitVec.ofNat 64 hart)
    else if machineCsrs.contains num then some (Tbl.getD k.csr num 0)
    else none

/-- R117, R122, Table 5-1: the effect of writing a CSR of core c. -/
def State.csrWrite (s : State) (g c num : Nat) (v : DWord) : State :=
  let core (f : Core → Core) : State := s.modAtoll g fun a => a.modCore c f
  if num = 0x7C0 then core fun k => { k with sel := v.setWidth 4 }
  else if num = 0x7C1 then s.modAtoll g fun a => a.writePortRing c v
  else if num = 0x7C2 then s.modAtoll g fun a => a.writePortCtrl c v
  else if num = 0x7C3 then core fun k => { k with mask := v.getLsbD 0 }
  else if num = 0x7C5 then core fun k => { k with epc := v }
  else if num = 0x7C6 then s.closeSend g c (bits v.toNat 0 6)
  else if machineCsrs.contains num then core fun k => { k with csr := Tbl.set k.csr num v }
  else s

/-! ### Memory -/

/-- What a core address names (R48, Tables 3-3, 5-12; 06 R158, R161). -/
inductive CoreAddr where
  | sram (a : Nat)
  | lagoon (la : Word)
  | reg (off : Nat)
  | meta_ (bay line o : Nat)
  | dma (o : Nat)
  | none
  deriving DecidableEq, Repr

/-- Classify an access of n bytes. -/
def coreAddr (ad : DWord) (n : Nat) : CoreAddr :=
  let a := ad.toNat
  if a + n ≤ 0x10000 then .sram a
  else if 0x80000000 ≤ a ∧ a + n ≤ 0x80000140 ∧ a % 8 + n ≤ 8 then .reg (a - 0x80000000)
  else if 0x90000000 ≤ a ∧ a + n ≤ 0x90000000 + 24 * 0x80000 ∧ a % 32 + n ≤ 32 ∧ (a - 0x90000000) % 0x80000 / 32 < 8192 then
    .meta_ ((a - 0x90000000) / 0x80000) ((a - 0x90000000) % 0x80000 / 32) (a % 32)
  else if 0xA0000000 ≤ a ∧ a + n ≤ 0xA0000048 ∧ a % 8 + n ≤ 8 then .dma (a - 0xA0000000)
  else match coreLocal ad with
    | some la => .lagoon la
    | Option.none => .none

/-- The 32 bytes of a line's metadata entry (R55). -/
def LineMeta.value (m : LineMeta) : Nat := m.tag.toNat + m.poison.toNat * 2 ^ 8 + m.apex.toNat * 2 ^ 128

/-- An access-fault exception of core c. -/
def State.coreFault (s : State) (g c : Nat) (store : Bool) (ad : DWord) (st : Nat) : State :=
  s.modAtoll g fun a => a.modCore c fun k => k.accessFault store ad st

/-- Write rd and retire the instruction at pc. -/
def State.corePut (s : State) (g c rd len : Nat) (v : DWord) : State :=
  s.modAtoll g fun a => a.modCore c fun k => (k.setReg rd v).advance len

/-- A load of n bytes. -/
def State.coreLoad (s : State) (g c rd : Nat) (ad : DWord) (n : Nat) (sgn : Bool) (dec : Decoded) (len : Nat) : State :=
  let a := s.atoll g
  match coreAddr ad n with
  | .sram o => s.corePut g c rd len (extendBytes sgn n (Mem.readNat (a.core c).sram o n))
  | .lagoon la => s.load g (.core (BitVec.ofNat 1 c).toFin (Fin.ofNat 32 rd)) la n sgn dec
  | .reg off =>
    match s.atollReg g (off / 8 * 8) with
    | some v => s.corePut g c rd len (extendBytes sgn n (v.toNat / 2 ^ (8 * (off % 8))))
    | none => s.coreFault g c false ad acBadAddress
  | .meta_ b l o => s.corePut g c rd len (extendBytes sgn n ((a.meta_ (b * 8192 + l)).value / 2 ^ (8 * o)))
  | .dma o => if o = 0x40 ∧ n = 8 then s.popDma g c rd else s.coreFault g c false ad acBadAddress
  | .none => s.coreFault g c false ad acBadAddress

/-- A store of n bytes; lagoon stores carry the raw tag. -/
def State.coreStore (s : State) (g c : Nat) (ad : DWord) (n : Nat) (v : DWord) (len : Nat) : State :=
  match coreAddr ad n with
  | .sram o => s.modAtoll g fun a => a.modCore c fun k => { k with sram := Mem.writeNat k.sram o n v.toNat }.advance len
  | .lagoon la => s.storeTo g (.core (BitVec.ofNat 1 c).toFin 0) la 0 (leBytes n v.toNat)
  | .dma o =>
    if o = 0x38 then
      if n = 8 then s.postDma g c v
      else s.postDma g c (BitVec.ofNat 64 (setBits (fld (s.atoll g).dmaBuf 0x38 0 64) 0 (8 * n) v.toNat))
    else if o < 0x40 then s.modAtoll g fun a =>
      { a with dmaBuf := BitVec.ofNat 512 (setBits a.dmaBuf.toNat (8 * o) (8 * n) v.toNat) }.modCore c fun k => k.advance len
    else s.coreFault g c true ad acBadAddress
  | _ => s.coreFault g c true ad acBadAddress

/-- What an atomic reads: the value, or a state in which the core waits or has taken its fault. -/
inductive AtomicRead where
  | ok (s : State) (v : DWord)
  | done (s : State)

/-- Read for an LR or AMO. -/
def State.atomicRead (s : State) (g c : Nat) (ad : DWord) (n : Nat) (store : Bool) (dec : Decoded) : AtomicRead :=
  match coreAddr ad n with
  | .sram o => .ok s (extendBytes true n (Mem.readNat ((s.atoll g).core c).sram o n))
  | .lagoon la =>
    if laTarget la = 5 then
      match s.cacheRead g (laOffset la) n with
      | .waits t => .done t
      | .ends t st d => if st = stOk then .ok t (extendBytes true n (leNat d)) else .done (t.coreFault g c store ad st)
    else
      match s.resolve g la n with
      | .error st => .done (s.coreFault g c store ad st)
      | .ok (t, off) =>
        match s.lagoonRead t off n dec (9, 0x2F) with
        | (s1, st, d) => if st = stOk then .ok s1 (extendBytes true n (leNat d)) else .done (s1.coreFault g c store ad st)
  | _ => .done (s.coreFault g c store ad acBadAddress)

/-- AMO, LR and SC (RV64A). An SC succeeds when its reservation stands and the bytes still hold the value reserved. -/
def State.coreAtomic (s : State) (g c rd : Nat) (f5 n : Nat) (ad r2 : DWord) (dec : Decoded) (len : Nat) : State :=
  if ad.toNat % n ≠ 0 then
    s.modAtoll g fun a => a.modCore c fun k => k.takeTrap (if f5 = 2 then 4 else 6) ad
  else
    match s.atomicRead g c ad n (f5 != 2) dec with
    | .done t => t
    | .ok t old =>
      let resv (t : State) (x : Option (DWord × DWord)) : State :=
        t.modAtoll g fun a => a.modCore c fun k => { k with reservation := x }
      let ret (t : State) (v : DWord) : State := t.modAtoll g fun a => a.modCore c fun k => k.setReg rd v
      if f5 = 2 then (resv t (some (ad, old))).corePut g c rd len old
      else if f5 = 3 then
        if ((s.atoll g).core c).reservation = some (ad, old) then (ret (resv t none) 0).coreStore g c ad n r2 len
        else (resv t none).corePut g c rd len 1
      else (ret t old).coreStore g c ad n (rvAmo f5 (8 * n) old r2) len

/-! ### One instruction -/

/-- Whether a custom-0 word is an encoding of Table 3-15 (R73). -/
def customOk (i : Nat) : Bool :=
  let f7 := bits i 25 7
  let rs2 := bits i 20 5
  let rs1 := bits i 15 5
  let rd := bits i 7 5
  match bits i 12 3 with
  | 0 => f7 == 0
  | 1 => f7 == 0 || (decide (4 ≤ f7) && decide (f7 ≤ 7))
  | 2 => f7 == 0 && rs2 == 0
  | 3 => f7 == 0 && rs2 == 0 && rs1 == 0 && rd == 0
  | 4 => f7 == 0 || f7 == 1
  | 5 => (f7 == 0 || f7 == 1) && rd == 0
  | 6 => f7 == 0 || (f7 == 1 && rs2 == 0)
  | _ => f7 == 0 && rs2 == 0 && rs1 == 0

/-- Raise an exception of core c. -/
def State.coreTrap (s : State) (g c cause : Nat) (tval : DWord) : State :=
  s.modAtoll g fun a => a.modCore c fun k => { k with reservation := none }.takeTrap cause tval

/-- A CSR instruction. -/
def State.coreCsr (s : State) (g c rd rs1 f3 num len insn : Nat) : State :=
  let k := (s.atoll g).core c
  let src : DWord := if f3 ≥ 4 then BitVec.ofNat 64 rs1 else k.reg rs1
  let writes := f3 % 4 == 1 || rs1 != 0
  match k.csrRead c num with
  | none => s.coreTrap g c 2 (BitVec.ofNat 64 insn)
  | some old =>
    if writes && decide (num ≥ 0xC00) then s.coreTrap g c 2 (BitVec.ofNat 64 insn)
    else
      let new := match f3 % 4 with
        | 1 => src
        | 2 => old ||| src
        | _ => old &&& ~~~src
      (if writes then s.csrWrite g c num new else s).corePut g c rd len old

/-- The return from an exception: MRET. -/
def Core.mret (k : Core) : Core :=
  let ms := (Tbl.getD k.csr 0x300 0).toNat
  { k with pc := Tbl.getD k.csr 0x341 0,
           csr := Tbl.set k.csr 0x300 (BitVec.ofNat 64 (setBits (setBits ms 3 1 (bits ms 7 1)) 7 1 1)) }

/-- The 32-bit instruction i, `len` bytes long in memory as `raw`. -/
def State.coreExec (s : State) (g c i raw len : Nat) (dec : Decoded) : State :=
  let k := (s.atoll g).core c
  let rd := bits i 7 5
  let f3 := bits i 12 3
  let rs1 := bits i 15 5
  let a := k.reg rs1
  let b := k.reg (bits i 20 5)
  let f7 := bits i 25 7
  let immI : DWord := BitVec.ofInt 64 (signedOf 12 (bits i 20 12))
  let immS : DWord := BitVec.ofInt 64 (signedOf 12 (f7 * 32 + rd))
  let immU : DWord := BitVec.ofInt 64 (signedOf 32 (i / 4096 * 4096))
  let immB : DWord := BitVec.ofInt 64 (signedOf 13 (bits i 31 1 * 4096 + bits i 7 1 * 2048 + bits i 25 6 * 32 + bits i 8 4 * 2))
  let immJ : DWord :=
    BitVec.ofInt 64 (signedOf 21 (bits i 31 1 * 2 ^ 20 + bits i 12 8 * 4096 + bits i 20 1 * 2048 + bits i 21 10 * 2))
  let put (v : DWord) : State := s.corePut g c rd len v
  let ill : State := s.coreTrap g c 2 (BitVec.ofNat 64 raw)
  let go (t : DWord) : State := s.modAtoll g fun x => x.modCore c fun k => { k with pc := t }
  match bits i 0 7 with
  | 0x37 => put immU
  | 0x17 => put (k.pc + immU)
  | 0x6F => s.modAtoll g fun x => x.modCore c fun y => { y.setReg rd (k.pc + BitVec.ofNat 64 len) with pc := k.pc + immJ }
  | 0x67 =>
    if f3 ≠ 0 then ill
    else s.modAtoll g fun x => x.modCore c fun y =>
      { y.setReg rd (k.pc + BitVec.ofNat 64 len) with pc := (a + immI) &&& 0xFFFFFFFFFFFFFFFE }
  | 0x63 =>
    match rvTaken f3 a b with
    | none => ill
    | some t => go (if t then k.pc + immB else k.pc + BitVec.ofNat 64 len)
  | 0x03 => if f3 = 7 then ill else s.coreLoad g c rd (a + immI) (2 ^ (f3 % 4)) (f3 < 4) dec len
  | 0x23 => if f3 > 3 then ill else s.coreStore g c (a + immS) (2 ^ f3) b len
  | 0x13 =>
    if f3 = 1 ∧ i / 2 ^ 26 ≠ 0 then ill
    else if f3 = 5 ∧ i / 2 ^ 26 ≠ 0 ∧ i / 2 ^ 26 ≠ 16 then ill
    else put (rvAlu f3 (f3 == 5 && i / 2 ^ 26 == 16) a immI)
  | 0x1B =>
    if f3 = 0 then put (rvW (a + immI))
    else if f3 = 1 ∧ f7 = 0 then put (rvAluW 1 false a immI)
    else if f3 = 5 ∧ (f7 = 0 ∨ f7 = 0x20) then put (rvAluW 5 (f7 == 0x20) a immI)
    else ill
  | 0x33 =>
    if f7 = 1 then put (rvMul 64 f3 a b)
    else if f7 = 0 ∨ (f7 = 0x20 ∧ (f3 = 0 ∨ f3 = 5)) then put (rvAlu f3 (f7 == 0x20) a b)
    else ill
  | 0x3B =>
    if f7 = 1 ∧ (f3 = 0 ∨ f3 ≥ 4) then put (rvMul 32 f3 a b)
    else if (f7 = 0 ∧ (f3 = 0 ∨ f3 = 1 ∨ f3 = 5)) ∨ (f7 = 0x20 ∧ (f3 = 0 ∨ f3 = 5)) then put (rvAluW f3 (f7 == 0x20) a b)
    else ill
  | 0x2F =>
    let f5 := f7 / 4
    if (f3 = 2 ∨ f3 = 3) ∧ ([0, 1, 3, 4, 8, 12, 16, 20, 24, 28].contains f5 ∨ (f5 = 2 ∧ bits i 20 5 = 0)) then
      s.coreAtomic g c rd f5 (2 ^ f3) a b dec len
    else ill
  | 0x0F => if f3 ≤ 1 then go (k.pc + BitVec.ofNat 64 len) else ill
  | 0x73 =>
    if f3 = 0 then
      if i = 0x00000073 then s.coreTrap g c 11 0
      else if i = 0x00100073 then s.coreTrap g c 3 k.pc
      else if i = 0x30200073 then s.modAtoll g fun x => x.modCore c Core.mret
      else if i = 0x10500073 then go (k.pc + BitVec.ofNat 64 len)
      else ill
    else if f3 = 4 then ill
    else s.coreCsr g c rd rs1 f3 (bits i 20 12) len raw
  | 0x0B => if customOk i then s else ill
  | _ => ill

/-- Whether a read of SRAM returns no data. -/
def sramLost (d : Decoded) : Bool := match sramSettled d with
  | .uncorrectable _ => true
  | _ => false

/-- R250, Table 10-5: an uncorrectable word of a core's private SRAM: the atoll is fenced and the step rolls back; a corrected
one is recorded. -/
def State.sramDecode (s : State) (g c addr : Nat) (d : Decoded) : State :=
  let u := s.coreUnit g c
  match sramSettled d with
  | .corrected n => s.raise { unit := u, cls := clsCorrected, opKind := 9, part := s.partOf g, actions := actCounted,
                              detail := [(32, addr), (40, n), (41, 0)] }
  | .uncorrectable n =>
    let seq := s.nextSeq u
    (s.raise { unit := u, cls := clsUncorrectable, opKind := 9, part := s.partOf g, scope := 2,
               actions := actPoisoned + actFenced + actReplaced + actRolled,
               detail := [(32, addr), (40, n), (41, 0)] }).fenceAtoll g u clsUncorrectable seq (some (BitVec.ofNat 64 addr))
  | _ => s

/-- Whether the instruction at pc reaches lagoon space with a load or an atomic, whose words the decode then concerns. -/
def Core.readsLagoon (k : Core) (i : Nat) : Bool :=
  let a := k.reg (bits i 15 5)
  let ad : DWord := if bits i 0 7 = 0x03 then a + BitVec.ofInt 64 (signedOf 12 (bits i 20 12)) else a
  (bits i 0 7 == 0x03 || bits i 0 7 == 0x2F) && (coreLocal ad).isSome

/-- SCALAR_INSTRUCTION (R74, R75): the instruction at pc retires; in lockstep mode a mismatch at the retire comparison fences
the atoll and no effect leaves the pair. A word of Table 3-15 has a row of its own. -/
def execScalarInstruction (g : Fin 320) (core : Fin 2) (chk : CompareOutcome) (dec : Decoded) (s : State) :
    Host.Outcome State Fault Refusal :=
  .next (
    let a := s.atoll g
    let k := a.core core
    if !s.coreRuns g core then s
    else if k.pc.toNat + 2 > 0x10000 ∨ k.pc.toNat % 2 ≠ 0 then s.coreTrap g core 1 k.pc
    else
      let len := k.instrLen
      let raw := Mem.readNat k.sram k.pc.toNat len
      if k.pc.toNat + len > 0x10000 then s.coreTrap g core 1 (k.pc + 2) else
      match a.split, chk with
      | false, .mismatch point v0 v1 =>
        let u := s.coreUnit g core
        let seq := s.nextSeq u
        ((s.raise { unit := u, cls := clsLockstep, opKind := 9, opCode := raw % 128, part := s.partOf g, scope := 2,
                    actions := actFenced + actReplaced + actRolled,
                    detail := [(32, k.pc.toNat), (40, point.val), (44, v0.toNat), (52, v1.toNat)] }).modAtoll g fun b =>
          b.modCore core fun x => { x with running := false }).fenceAtoll g u clsLockstep seq
      | _, _ =>
        match (if len = 4 then some raw else rvExpand raw) with
        | none => s.coreTrap g core 2 (BitVec.ofNat 64 raw)
        | some i =>
          if k.readsLagoon i then s.coreExec g core i raw len dec
          else if sramLost dec then s.sramDecode g core k.pc.toNat dec
          else (s.sramDecode g core k.pc.toNat dec).coreExec g core i raw len .clean)

/-! ### Synchronisation instructions (R130-R133) -/

/-- Whether a name may be waited on: scopes 0 and 2 only (Table 5-10). -/
def waitable (n : DWord) : Bool := objNameOk n && (objScope n == 0 || objScope n == 2)

/-- Whether a module-level object belongs to a partition. -/
def State.ownsObj (s : State) (p : Option Nat) (o : Nat) : Bool := p.isSome && Tbl.get? s.mem.objOwner o == p

/-- Module-level waiters a list of names would add, and whether the limits of R132 hold. -/
def State.waitRoom (s : State) (names : List DWord) : Bool :=
  let objs := (names.filter fun n => objScope n == 2).map objNumber
  decide (s.mem.modWaits.length + objs.length ≤ 1024) &&
    objs.all fun o => decide ((s.mem.modWaits.countP fun w => w.obj == o) + (objs.countP fun x => x == o) ≤ 16)

/-- Block core c on objects: the lowest met index answers at once; else a wait entry per object (R130, R132). -/
def State.coreWait (s : State) (g c rd : Nat) (objs : List (DWord × Word)) (any : Bool) : State :=
  let ret (v : DWord) : State := s.coreRet g c rd v
  if objs.any fun o => !waitable o.1 then ret (negStatus 8)
  else if objs.any fun o => objScope o.1 == 2 && !s.ownsObj (s.partOf g) (objNumber o.1) then ret (negStatus 5)
  else
    match objs.findIdx? fun o => decide (o.2.toNat ≤ (s.objCount g o.1).toNat) with
    | some k => ret (if any then BitVec.ofNat 64 k else 0)
    | none =>
      if !s.waitRoom (objs.map Prod.fst) then ret (negStatus 9)
      else
        let ents := (List.range objs.length).filterMap fun i => (objs[i]?).map fun o =>
          (objScope o.1, ({ obj := objNumber o.1, target := o.2, who := .core g c i } : WaitEntry))
        let of (sc : Nat) : List WaitEntry := (ents.filter fun e => e.1 == sc).map Prod.snd
        (s.modAtoll g fun a => { a with waits := a.waits ++ of 0 }.modCore c fun k =>
          { k with block := .wait rd objs any s.count }).modMem fun m => { m with modWaits := m.modWaits ++ of 2 }

/-- SYNC.WAIT (R130). -/
def execSyncWait (g : Fin 320) (core : Fin 2) (rd rs1 rs2 : Fin 32) (s : State) : Host.Outcome State Fault Refusal :=
  .next (
    if !s.coreRuns g core then s
    else
      let k := (s.atoll g).core core
      s.coreWait g core rd [(k.reg rs1, (k.reg rs2).setWidth 32)] false)

/-- SYNC.WAITANY (R130): 1 to 8 entries of 16 bytes in private SRAM. -/
def execSyncWaitany (g : Fin 320) (core : Fin 2) (rd rs1 rs2 : Fin 32) (s : State) : Host.Outcome State Fault Refusal :=
  .next (
    if !s.coreRuns g core then s
    else
      let k := (s.atoll g).core core
      let n := (k.reg rs2).toNat
      let ad := (k.reg rs1).toNat
      if n = 0 ∨ n > 8 then s.coreRet g core rd (negStatus 8)
      else if ad + 16 * n > 0x10000 then s.coreFault g core false (k.reg rs1) acBadAddress
      else if (List.range n).any fun i => Mem.readNat k.sram (ad + 16 * i + 12) 4 != 0 then s.coreRet g core rd (negStatus 8)
      else s.coreWait g core rd ((List.range n).map fun i =>
        (BitVec.ofNat 64 (Mem.readNat k.sram (ad + 16 * i) 8), BitVec.ofNat 32 (Mem.readNat k.sram (ad + 16 * i + 8) 4))) true)

/-- SYNC.SIGNAL (R130, R132, R133): bits [15:0] of rs2 are added; a failure is a store access fault. -/
def execSyncSignal (g : Fin 320) (core : Fin 2) (rs1 rs2 : Fin 32) (s : State) : Host.Outcome State Fault Refusal :=
  .next (
    if !s.coreRuns g core then s
    else
      let k := (s.atoll g).core core
      let nm := k.reg rs1
      let inc := bits (k.reg rs2).toNat 0 16
      let fault (st : Nat) : State := s.coreFault g core true nm st
      let s1 := s.modAtoll g fun a => a.modCore core fun x => x.advance 4
      if !objNameOk nm then fault acBadAddress
      else
        match objScope nm with
        | 0 => s1.signalAtoll g (objNumber nm) inc
        | 1 =>
          match (s.partOf g).bind fun p => s.atollAt p (objPosition nm) with
          | none => fault acUnreachable
          | some t => if (s.atoll t).inReset then fault acDestReset else s1.signalAtoll t (objNumber nm) inc
        | 2 => if s.ownsObj (s.partOf g) (objNumber nm) then s1.signalMod (objNumber nm) inc else fault acUnreachable
        | _ =>
          match s.partOf g, s.ownId with
          | some p, some _ => s1.sendSignal p (objModule nm) (objNumber nm) inc
          | _, _ => fault acUnreachable)

/-- SYNC.ARM (R130, Table 5-10): scopes 0 and 2 only. -/
def execSyncArm (g : Fin 320) (core : Fin 2) (rs1 rs2 : Fin 32) (s : State) : Host.Outcome State Fault Refusal :=
  .next (
    if !s.coreRuns g core then s
    else
      let k := (s.atoll g).core core
      let nm := k.reg rs1
      let v := (k.reg rs2).setWidth 32
      let s1 := s.modAtoll g fun a => a.modCore core fun x => x.advance 4
      if !waitable nm then s.coreFault g core true nm acBadAddress
      else if objScope nm = 0 then s1.armAtoll g (objNumber nm) v
      else if s.ownsObj (s.partOf g) (objNumber nm) then s1.armMod (objNumber nm) v
      else s.coreFault g core true nm acUnreachable)

/-- SYNC_WAIT_TIMEOUT (R133): the wait returns -7 with one TIMEOUT record of cause 8. -/
def execSyncWaitTimeout (g : Fin 320) (core : Fin 2) (s : State) : Host.Outcome State Fault Refusal :=
  .next (
    match ((s.atoll g).core core).block with
    | .wait rd _ _ _ =>
      if !s.unitRuns g then s
      else
        ((s.dropWaits g core).coreRet g core rd (negStatus 7)).raise
          { unit := s.coreUnit g core, cls := clsTimeout, opKind := 9, opCode := 0x0B, part := s.partOf g,
            actions := actCounted, detail := [(32, 8)] }
    | _ => s)

end Sys2Proof.Machine
end

