-- ==== Sys2Proof/Machine/MemRows.lean ====
section
/-! DEFINITION. Scrubbing (06 R152), staging bank power (R155-R157), windows (R164-R167) and channel retirement (R168-R171). -/

namespace Sys2Proof.Machine

/-- Whether the module's clocked domains run: powered, not frozen, not tripped and with an oscillator. -/
def State.clocked (s : State) : Bool :=
  s.ticks && !s.life.frozen && decide (s.life.state ≠ .off) && decide (s.life.state ≠ .tripped) && decide (s.life.state ≠ .stopped)

/-! ### Scrubbing -/

/-- The DRAM address of channel-local page lp of channel c under the map (the inverse of R143 and R144). -/
def DramMap.pageAddr (m : DramMap) (c lp : Nat) : Option Nat :=
  let h := m.chans.length
  if lp * 4096 < m.inter then
    (m.chans.findIdx? (· == c)).map fun k => (lp * h + (k + h - lp % h) % h) * 4096
  else if lp * 4096 < m.inter + m.local_ then
    let r := lp - m.inter / 4096
    let d := m.chans.filter fun x => x / 8 == c / 8
    let below := (m.chans.filter fun x => decide (x / 8 < c / 8)).length * m.local_
    (d.findIdx? (· == c)).map fun k => h * m.inter + below + (r * d.length + (k + d.length - r % d.length) % d.length) * 4096
  else none

/-- The DRAM address that channel c's local page serves now: its own page unless it has moved, or the page a spare place hosts. -/
def State.pageServed (s : State) (c lp : Nat) : Option Nat :=
  if lp * 4096 < s.mem.map.inter + s.mem.map.local_ then
    match Tbl.get? s.mem.remap (c * 2 ^ 40 + lp) with
    | some _ => none
    | none => s.mem.map.pageAddr c lp
  else
    (s.mem.remap.find? fun e => e.2 == (c, lp)).bind fun e => s.mem.map.pageAddr (e.1 / 2 ^ 40) (e.1 % 2 ^ 40)

/-- DRAM_SCRUB (R152): word is the channel-local data word. -/
def execDramScrub (ch : Fin 128) (word : Nat) (dec : Decoded) (s : State) : Host.Outcome State Fault Refusal :=
  .next (
    if ¬ s.clocked ∨ ¬ (s.chan ch = .healthy ∨ s.chan ch = .retiring) then s
    else
      match s.pageServed ch (word / 64) with
      | none => s
      | some a =>
        let addr := a + word % 64 * 64
        if s.mem.dramPoison.contains (addr / 64) then s
        else s.dramDecode ((s.parts.find? fun e => e.2.ownsDram addr).map fun e => e.1) addr dec 1)

/-- R152: scrub one SRAM word; a poisoned word raises no new fault. -/
def State.scrubWord (s : State) (w : SramWord) (dec : Decoded) : State :=
  match w with
  | .lagoon g k =>
    if k < 786432 ∧ ¬ (s.atoll g).poisoned (k * 32) 32 then s.lagoonDecode g (k * 32) dec 1 else s
  | .staging h k =>
    if k < 2097152 ∧ s.bank h (k / 131072) ≠ .off ∧ ¬ (s.shoal h).stPoison.contains k then s.stagingDecode h (k * 32) dec 1
    else s

/-- LAGOON_SCRUB (R152). -/
def execLagoonScrub (w : SramWord) (dec : Decoded) (s : State) : Host.Outcome State Fault Refusal :=
  .next (if s.clocked then s.scrubWord w dec else s)

/-- SCRUB_FORCED_CYCLE (R152): the bank gives a cycle, in which the scrubber reads the word. -/
def execScrubForcedCycle (w : SramWord) (dec : Decoded) (s : State) : Host.Outcome State Fault Refusal :=
  .next (if s.clocked then s.scrubWord w dec else s)

/-! ### Staging bank power (R155-R157) -/

/-- The bank a BANK_POWER names. -/
def bankOf (c : MbCmd) : Nat × Nat := (fld c.img 16 0 8, fld c.img 17 0 8)

/-- Complete every accepted BANK_POWER of a bank that asked for `on`. -/
def State.endBankPower (s : State) (h b : Nat) (on : Bool) (code : Nat) : State :=
  s.mailboxes.foldl (fun t e => (e.2.running.filter fun c =>
    mbOp c.img == 0x30E && bankOf c == (h, b) && flag c.img 18 0 == on).foldl (fun t c => t.mbEnd e.1 c mbDone 0xFFFF code) t) s

/-- Memory runs that have outputs for a staging bank. -/
def MemRun.writesBank (r : MemRun) (h b : Nat) : Bool :=
  let lo := 0xF800000000 + h * 0x4000000 + b * 0x400000
  r.writes.any fun w => decide (w.1 < lo + 0x400000) && decide (lo < w.1 + w.2.2.length)

/-- Change the command running on every stream unit. -/
def State.mapRuns (s : State) (f : MemRun → MemRun) : State :=
  (List.range 16).foldl (fun t h => (List.range 4).foldl (fun t u =>
    if (t.sunit h u).cur.isSome then t.modUnit h u fun q => { q with cur := q.cur.map f } else t) t) s

/-- Whether a running command holds requests that a closed bank accepted. -/
def State.bankOpen (s : State) (h b : Nat) : Bool :=
  (List.range 16).any fun x => (List.range 4).any fun u => ((s.sunit x u).cur.map fun r => r.accepted.contains (16 * h + b)).getD false

/-- Table 6-4 step 4: the bank is off and its contents are lost. -/
def State.bankOff (s : State) (h b : Nat) : State :=
  (s.modShoal h fun x => { x with
    banks := Tbl.set x.banks b .off, lateNoted := x.lateNoted.filter (· != b),
    staging := Mem.clear x.staging (b * 0x400000) 0x400000 }).endBankPower h b false 3

/-- BANK_POWER (R155, R157, Table 13-2): the close and the start of the drain are one (log entry 41). -/
def execBankPower (m : Fin 34) (s : State) : Host.Outcome State Fault Refusal :=
  s.mbRow m 0x30E fun c =>
    let (h, b) := bankOf c
    let p := mbPartition c.img
    let owned := (s.parts.any fun e => e.2.ownsBank h b)
    let mine := ((s.part? p).map fun x => x.ownsBank h b).getD false
    if ¬ flag c.img 18 1 ∧ (s.part? p).isNone then s.mbEnd m c mbNoResource
    else if s.bankInCat b ∨ (if flag c.img 18 1 then owned else !mine) then s.mbEnd m c mbBusy
    else s.mbLong m c fun t c' =>
      if flag c.img 18 0 then
        if t.bank h b = .on then t.mbEnd m c' mbDone 0xFFFF 0 else t.request (.bank h b)
      else if t.bank h b = .off then t.mbEnd m c' mbDone 0xFFFF 3
      else if t.bank h b = .on then
        (t.modShoal h fun x => { x with banks := Tbl.set x.banks b .draining }).mapRuns fun r =>
          if r.writesBank h b then { r with accepted := r.accepted ++ [16 * h + b] } else r
      else t

/-- BANK_DRAIN_DONE (Table 6-4): accepted requests have completed. -/
def execBankDrainDone (h b : Fin 16) (s : State) : Host.Outcome State Fault Refusal :=
  .next (if s.clocked ∧ s.bank h b = .draining ∧ ¬ s.bankOpen h b then s.bankOff h b else s)

/-- BANK_DRAIN_TIMEOUT (Table 6-4 step 3): open requests end with TIMEOUT, with one record of cause 3. -/
def execBankDrainTimeout (h b : Fin 16) (s : State) : Host.Outcome State Fault Refusal :=
  .next (
    if ¬ s.clocked ∨ s.bank h b ≠ .draining ∨ ¬ s.bankOpen h b then s
    else
      let s1 := s.mapRuns fun r =>
        if r.accepted.contains (16 * h.val + b.val) then { r with status := opTimeout, writes := [], accepted := [] } else r
      (s1.raise { unit := shoalUnit h 0 0 0x3FF, cls := clsTimeout, actions := actCounted, detail := [(32, 3)] }).bankOff h b)

/-- BANK_OFF_REQUEST (R156). -/
def execBankOffRequest (h b : Fin 16) (s : State) : Host.Outcome State Fault Refusal :=
  .next (if s.clocked ∧ s.bank h b = .off then s.bankLate (0xF800000000 + h.val * 0x4000000 + b.val * 0x400000) else s)

/-- BANK_POWER_UP_DONE (R157): the ledger grants the head of its queue; the bank is zero-filled and ON. -/
def execBankPowerUpDone (h b : Fin 16) (s : State) : Host.Outcome State Fault Refusal :=
  .next (
    match s.power.queue with
    | .bank x y :: _ =>
      if ¬ s.clocked ∨ x ≠ h.val ∨ y ≠ b.val ∨ s.bank h b ≠ .off ∨ (s.fits (.bank x y)).isNone then s
      else
        ((s.grantHead (.bank x y) 0).modShoal h fun z => { z with
          banks := Tbl.set z.banks b .on, staging := Mem.clear z.staging (y * 0x400000) 0x400000,
          stPoison := z.stPoison.filter fun w => w / 131072 != y }).endBankPower h b true 0
    | _ => s)

/-! ### Windows (R164-R167) -/

/-- Table 6-9. -/
def Window.bytes (w : Window) : List Byte :=
  packBytes 32 [(0, b2n w.open_), (1, w.partition), (4, w.generation.toNat), (8, w.base.toNat), (16, w.size.toNat),
    (24, w.jobTag.toNat), (28, w.dropCount.toNat)]

/-- Whether partition p may open window w: neither open, closing, nor reserved to another. -/
def Window.free (w : Window) (p : Nat) : Bool := !w.open_ && w.closing.isNone && (!w.reserved || w.partition == p)

/-- R140, R164: a window lies in DRAM of its partition or in one position's lagoon. -/
def State.windowReach (s : State) (p base size : Nat) : Bool :=
  (decide (base + size ≤ s.mem.map.size) ||
    (decide (0xF000000000 ≤ base ∧ base + size ≤ 0xF200000000) && decide ((base - 0xF000000000) % 0x2000000 + size ≤ 0x1800000))) &&
  s.reaches p base size true

/-- WINDOW_OPEN (Table 13-2, R164). -/
def execWindowOpen (m : Fin 34) (s : State) : Host.Outcome State Fault Refusal :=
  s.mbPartRow m 0x309 fun c p x =>
    let want := fld c.img 16 0 16
    let base := fld c.img 24 0 40
    let size := fld c.img 32 0 40
    if ¬ s.windowReach p base size then s.mbEnd m c mbOutOfRange 24
    else
      let go (w : Nat) : State :=
        let y := s.window w
        (s.modWindow w fun _ => { y with open_ := true, partition := p, reserved := false, base := BitVec.ofNat 40 base,
                                         size := BitVec.ofNat 40 size, jobTag := x.jobTag }).mbEnd m c mbDone 0xFFFF
          (w + y.generation.toNat * 2 ^ 32)
      if want = 0xFFFF then
        match (List.range 1024).find? fun w => (s.window w).free p && !(s.window w).reserved with
        | none => s.mbEnd m c mbNoResource
        | some w => go w
      else if (s.window want).free p then go want
      else s.mbEnd m c mbBusy

/-- R166: close a window: `open` clears and the generation advances; the owner stays only where `keep`. -/
def State.closeWindow (s : State) (w : Nat) (keep : Bool) : State :=
  s.modWindow w fun y => { y with open_ := false, generation := y.generation + 1, noted := false, reserved := keep }

/-- WINDOW_CLOSE (R166): the completion waits for WINDOW_CLOSE_COMPLETE. -/
def execWindowClose (m : Fin 34) (s : State) : Host.Outcome State Fault Refusal :=
  s.mbPartRow m 0x30A fun c p _ =>
    let w := fld c.img 16 0 16
    let y := s.window w
    if !(y.open_ && y.partition == p) then s.mbEnd m c mbNoResource
    else
      ((s.closeWindow w false).modWindow w fun z => { z with closing := some s.count }).modMbox m fun b =>
        { b with started := b.started.filter (·.order != c.order), running := b.running ++ [c] }

/-- WINDOW_CLOSE_COMPLETE (R166): packets accepted under the old generation have been written, or 10 µs have passed. -/
def execWindowCloseComplete (w : Fin 1024) (s : State) : Host.Outcome State Fault Refusal :=
  .next (
    match (s.window w).closing with
    | none => s
    | some t0 =>
      let holds (d : Nat) : Bool := (s.strait d).accepted && ((s.strait d).remoteIn.head?.map fun f =>
        leNat (f.payload.take 2) == w.val).getD false
      let held := (List.range 6).filter holds
      if ¬ s.clocked ∨ (¬ held.isEmpty ∧ s.count.toNat - t0.toNat < 1000) then s
      else
        let s1 := held.foldl (fun t d => t.modStrait d fun y => { y with accepted := false }) s
        let s2 := s1.modWindow w fun y => { y with closing := none }
        s2.mailboxes.foldl (fun t e => (e.2.running.filter fun c => mbOp c.img == 0x30A && fld c.img 16 0 16 == w.val).foldl
          (fun t c => t.mbEnd e.1 c mbDone 0xFFFF ((s2.window w).generation.toNat * 2 ^ 32)) t) s2)

/-- WINDOW_QUERY (R164). -/
def execWindowQuery (m : Fin 34) (s : State) : Host.Outcome State Fault Refusal :=
  s.mbPartRow m 0x30B fun c p _ =>
    let y := s.window (fld c.img 16 0 16)
    if (y.open_ || y.reserved) && y.partition != p then s.mbEnd m c mbNoResource
    else s.mbEnd m c mbDone 0xFFFF 0 y.bytes

/-! ### Channel retirement (R168-R171) -/

/-- Pages of a channel's interleaved and shoal-local slices. -/
def DramMap.pages (m : DramMap) : Nat := (m.inter + m.local_) / 4096

/-- Pages that channel c hosts for earlier retirements. -/
def State.hosted (s : State) (c : Nat) : List (Nat × Nat × Nat) := s.mem.remap.filter fun e => e.2.1 == c

/-- Free spare pages of a channel. -/
def State.spareLeft (s : State) (c : Nat) : Nat := s.mem.map.spare / 4096 - Tbl.getD s.mem.spareUsed c 0

/-- Channels whose spare slices may take pages of channel c. -/
def State.spareHomes (s : State) (c : Nat) : List Nat := s.mem.map.chans.filter fun x => x != c && s.chan x == .healthy

/-- Complete accepted CHANNEL_RETIRE commands of a channel. -/
def State.endRetire (s : State) (c st : Nat) : State :=
  s.mailboxes.foldl (fun t e => (e.2.running.filter fun k => mbOp k.img == 0x207 && fld k.img 16 0 8 == c).foldl
    (fun t k => t.mbEnd e.1 k st) t) s

/-- CHANNEL_RETIREMENT_START (R168, R171): the first in line starts when none runs. A link or controller failure, or a failed
check at reset, puts its channel in line here. A channel that no spare can absorb becomes UNBACKED. -/
def execChannelRetirementStart (ch : Fin 128) (cause : RetireCause) (s : State) : Host.Outcome State Fault Refusal :=
  .next (
    let fresh := !s.mem.retireQueue.contains ch.val && (cause == .uncorrectable || cause == .resetCheck)
    let s0 := if fresh then s.wantRetire ch else s
    if ¬ s.clocked then s
    else if s0.mem.retiring.isSome ∨ s0.mem.retireQueue.head? ≠ some ch.val then s0
    else
      let u := chanUnit ch
      let seq := s0.nextSeq u
      let (cls, actions) := match cause with
        | .uncorrectable => (clsUncorrectable, actPoisoned + actRetiring)
        | .corrections => (clsCorrected, actCounted + actRetiring)
        | _ => ((Config.unstated s0.freeCtr 5).setWidth 16, actRetiring)
      let pages := s0.mem.map.pages + (s0.hosted ch).length
      let space := ((s0.spareHomes ch).map s0.spareLeft).foldl (· + ·) 0
      let src : BitVec 2 := if cause = .command then 2 else 1
      let s1 := if cause = .uncorrectable ∧ ¬ fresh then s0
        else s0.freshen.raise { unit := u, cls := cls, scope := 5, actions := actions }
      let s2 := s1.modMem fun k => { k with retireQueue := k.retireQueue.drop 1 }
      if pages ≤ space then
        s2.modMem fun k => { k with chanState := Tbl.set k.chanState ch .retiring,
                                    retiring := some { chan := ch, moved := 0, pagesLeft := pages, cls := cls, seq := seq, source := src } }
      else
        ((s2.modMem fun k => { k with chanState := Tbl.set k.chanState ch .unbacked }).fenceUnit u cls seq src).endRetire ch
          mbNoResource)

/-- The k-th page to move: its key in the remap and its DRAM address. -/
def State.retirePage (s : State) (r : Retire) : Option (Nat × Nat) :=
  if r.moved < s.mem.map.pages then (s.mem.map.pageAddr r.chan r.moved).map fun a => (r.chan * 2 ^ 40 + r.moved, a)
  else
    match s.hosted r.chan with
    | [] => none
    | e :: _ => (s.mem.map.pageAddr (e.1 / 2 ^ 40) (e.1 % 2 ^ 40)).map fun a => (e.1, a)

/-- RETIREMENT_PAGE_MOVE (R169, R170): badWords are words 0 to 63 of the page that were uncorrectable. -/
def execRetirementPageMove (badWords : List Nat) (unreadable : Bool) (s : State) : Host.Outcome State Fault Refusal :=
  .next (
    match s.mem.retiring with
    | none => s
    | some r =>
      if ¬ s.clocked ∨ r.pagesLeft = 0 then s
      else
        let homes := (s.spareHomes r.chan)
        let n := homes.length
        let order := (List.range n).map fun i => homes.getD ((r.moved + i) % n) 0
        match s.retirePage r, order.find? fun c => decide (s.spareLeft c > 0) with
        | some (key, a), some home =>
          let used := Tbl.getD s.mem.spareUsed home 0
          let bad := (List.range 64).filter fun w => unreadable || badWords.contains w
          let poison := (bad.map fun w => a / 64 + w).filter fun w => !s.mem.dramPoison.contains w
          s.modMem fun k => { k with
            remap := Tbl.set k.remap key (home, s.mem.map.pages + used), spareUsed := Tbl.set k.spareUsed home (used + 1),
            dramPoison := k.dramPoison ++ poison,
            retiring := some { r with moved := r.moved + 1, pagesLeft := r.pagesLeft - 1 } }
        | _, _ => s)

/-- CHANNEL_RETIREMENT_DONE (Table 6-10 step 3). -/
def execChannelRetirementDone (s : State) : Host.Outcome State Fault Refusal :=
  .next (
    match s.mem.retiring with
    | none => s
    | some r =>
      if ¬ s.clocked ∨ r.pagesLeft ≠ 0 then s
      else
        ((s.modMem fun k => { k with chanState := Tbl.set k.chanState r.chan .retired, retiring := none }).fenceUnit
          (chanUnit r.chan) r.cls r.seq r.source).endRetire r.chan mbDone)

/-- CHANNEL_RETIRE (Table 12-8). -/
def execChannelRetire (m : Fin 34) (s : State) : Host.Outcome State Fault Refusal :=
  s.mbRow m 0x207 fun c =>
    let ch := fld c.img 16 0 8
    match s.chan ch with
    | .retired | .unbacked | .notTrained => s.mbEnd m c mbNoResource
    | _ => s.mbLong m c fun t _ => t.wantRetire ch

end Sys2Proof.Machine
end

