-- ==== Sys2Proof/Machine/NetRows.lean ====
section
/-! DEFINITION. The on-die meshes (07 R174-R180), the causeway (R184-R186) and the clocks (R187-R190). -/

namespace Sys2Proof.Machine

/-! ### Links and their units -/

/-- The unit ID of a die as a whole, by causeway node. -/
def dieUnit (node : Nat) : Word :=
  if node < 8 then mkUnit 0 node 0 31 0 0 0x3FF else if node < 24 then mkUnit 1 (node - 8) 0 0 0 0 0x3FF
  else if node < 30 then mkUnit 2 (node - 24) 0 0 0 0 0x3FF else mkUnit 3 (node - 30) 0 0 0 0 0x3FF

/-- Atoll site at mesh column x, row y of isle die d (Table 0-5). -/
def siteAt (d x y : Nat) : Nat := d * 40 + x / 5 * 20 + y * 5 + x % 5

/-- The unit that a link's records and fence name: the router, the port, or the die of a causeway link. -/
def onDieUnit : OnDieLink → Word
  | .mesh d x y _ => atollUnit (siteAt d x y) 6 0 0x3FF
  | .isthmus d r => mkUnit 0 d 0 0 15 3 r
  | .port k die grp m => mkUnit k die 0 0 15 grp m
  | .causeway a _ => dieUnit a

/-- The causeway node whose manager counts a link's events. -/
def onDieNode (l : OnDieLink) : Nat := uNode (onDieUnit l)

/-- Count a retry or a retraining in the registers of the link's die: Tables 7-11 and 8-22. -/
def State.countLink (s : State) (l : OnDieLink) (retrain : Bool) : State :=
  let n := (onDieNode l)
  if n < 8 then
    s.modNet fun x => if retrain then { x with isleRetrain := Tbl.set x.isleRetrain n (satAdd32 (Tbl.getD x.isleRetrain n 0) 1) }
      else { x with isleRetry := Tbl.set x.isleRetry n (satAdd32 (Tbl.getD x.isleRetry n 0) 1) }
  else if 24 ≤ n ∧ n < 30 then
    s.modStrait (n - 24) fun y => if retrain then { y with retrain := satAdd32 y.retrain 1 } else { y with retry := satAdd32 y.retry 1 }
  else s.modNet fun x => { x with dieRetry := Tbl.set x.dieRetry n (satAdd32 (Tbl.getD x.dieRetry n 0) 1) }

/-- Retries of a link in the last second. -/
def State.linkRetries (s : State) (l : OnDieLink) : Nat :=
  s.net.retries.countP fun e => e.1 == l && decide (s.count.toNat - e.2.toNat < 100000000)

/-- A LINK_* record of an on-die link (Table 10-11): the whole link, no LINK_STATE, events of the last second. -/
def State.onDieRecord (s : State) (l : OnDieLink) (cls : Half) (scope actions : Nat) : State :=
  s.raise { unit := (onDieUnit l), cls := cls, opKind := 10, scope := scope, actions := actions,
            detail := [(32, 0xFF), (36, s.linkRetries l)] }

/-- R180 stage 1: a failed flit is replayed and counted; the first retry on a link in each second writes a record. -/
def State.retryLink (s : State) (l : OnDieLink) : State :=
  let n := ((s.net.failed.find? fun e => e.1 == l).map fun e => e.2).getD 0 + 1
  let last := (s.net.retryLast.find? fun e => e.1 == l).map fun e => e.2
  let s1 := (s.countLink l false).modNet fun x => { x with
    failed := (x.failed.filter fun e => e.1 != l) ++ [(l, n)],
    retries := (x.retries.filter fun e => decide (s.count.toNat - e.2.toNat < 100000000)) ++ [(l, s.count)] }
  if dueRecord s.count last then
    (s1.modNet fun x => { x with retryLast := (x.retryLast.filter fun e => e.1 != l) ++ [(l, s.count)] }).onDieRecord l clsRetry 0
      actCounted
  else s1

/-! ### Mesh routing (R177, R180) -/

/-- Whether a mesh link or isthmus row leaving (x, y) of die d in a direction is fenced; directions are 0 N, 1 S, 2 E, 3 W. -/
def State.meshFenced (s : State) (d x y dir : Nat) : Bool :=
  let (a, b, e) := match dir with
    | 0 => (x, y - 1, 1)
    | 1 => (x, y + 1, 0)
    | 2 => (x + 1, y, 3)
    | _ => (x - 1, y, 2)
  if (dir = 2 ∧ x = 4) ∨ (dir = 3 ∧ x = 5) then s.isFenced (mkUnit 0 d 0 0 15 3 y)
  else s.net.linkFenced.any fun l => match l with
    | .mesh d' x' y' r => d'.val == d && ((x'.val == x && y'.val == y && r.val == dir) || (x'.val == a && y'.val == b && r.val == e))
    | _ => false

/-- Whether crossing m of port group grp (0 inner, 1 west, 2 east) of die d is healthy at both ends. -/
def State.portOk (s : State) (d grp m : Nat) : Bool :=
  let other := if grp = 0 then (d + 4) % 8 else if grp = 1 then d - 1 else d + 1
  let back := if grp = 0 then 0 else 3 - grp
  !s.isFenced (mkUnit 0 d 0 0 15 grp m) && !s.isFenced (mkUnit 0 other 0 0 15 back m)

/-- The healthy index nearest to v, the lower on ties. -/
def nearest (l : List Nat) (place : Nat → Nat) (v : Nat) : Option Nat :=
  l.foldl (fun b i => match b with
    | none => some i
    | some j => if (place i - v) + (v - place i) < (place j - v) + (v - place j) then some i else some j) none

/-- Mesh column of inner module m (Table 7-1). -/
def innerX (m : Nat) : Nat := [1, 2, 3, 6, 7, 8].getD m 1

/-- Where a packet at (x, y) of die d goes next: a direction on the die, or a crossing; with whether it moves to the upper class. -/
inductive MeshHop where
  | eject
  | dir (d : Nat) (upper : Bool)
  | cross (grp m : Nat) (upper : Bool)
  | wait
  deriving DecidableEq, Repr

/-- Moving on one die towards (tx, ty): along x first, then along y; a fenced link is stepped round through the adjacent row or
column, a fenced isthmus row by the nearest healthy one, in the upper class (R180). -/
def State.meshMove (s : State) (d x y tx ty : Nat) : MeshHop :=
  let ydir (t : Nat) : Nat := if t > y then 1 else 0
  let yGoal := ydir ty
  if x ≠ tx then
    let xd := if tx > x then 2 else 3
    let atIsthmus := (x = 4 ∧ xd = 2) ∨ (x = 5 ∧ xd = 3)
    if atIsthmus ∧ s.meshFenced d x y xd then
      match nearest ((List.range 4).filter fun r => !s.isFenced (mkUnit 0 d 0 0 15 3 r)) id y with
      | some r => .dir (ydir r) true
      | none => .wait
    else if y ≠ ty ∧ s.meshFenced d tx y yGoal ∧ ¬ s.meshFenced d x y yGoal then .dir yGoal true
    else if s.meshFenced d x y xd then .dir (if y < 3 then 1 else 0) true
    else .dir xd false
  else if y ≠ ty then
    if s.meshFenced d x y yGoal then .dir (if x % 5 < 4 then 2 else 3) true else .dir yGoal false
  else .eject

/-- R177: the next hop of a packet for router dst (die * 40 + y * 10 + x) at (x, y) of die d. -/
def State.meshHop (s : State) (d x y dst : Nat) : MeshHop :=
  let dd := dst / 40
  let tx := dst % 10
  let ty := dst % 40 / 10
  if d % 4 ≠ dd % 4 then
    let east := decide (d % 4 < dd % 4)
    let grp := if east then 2 else 1
    let edge := if east then 9 else 0
    if x ≠ edge then s.meshMove d x y edge y
    else if s.portOk d grp y then .cross grp y false
    else
      match nearest ((List.range 4).filter fun m => s.portOk d grp m) id y with
      | some m => s.meshMove d x y edge m
      | none => .wait
  else if d / 4 ≠ dd / 4 then
    let first := (nearest (List.range 6) innerX tx).getD 0
    match nearest ((List.range 6).filter fun m => s.portOk d 0 m) innerX (innerX first) with
    | none => .wait
    | some m =>
      let edge := if d < 4 then 3 else 0
      if x = innerX m ∧ y = edge then .cross 0 m true else s.meshMove d x y (innerX m) edge
  else s.meshMove d x y tx ty

/-- The link a hop uses. -/
def hopLink (d : Fin 8) (x : Fin 10) (y : Fin 4) : MeshHop → Option OnDieLink
  | .dir r _ => if (r = 2 ∧ x.val = 4) ∨ (r = 3 ∧ x.val = 5) then some (.isthmus d y) else some (.mesh d x y (Fin.ofNat 4 r))
  | .cross g m _ => some (.port 0 (Fin.ofNat 16 d) (Fin.ofNat 7 g) (Fin.ofNat 6 m))
  | _ => none

/-- The router a hop leads to. -/
def hopTo (d x y : Nat) : MeshHop → Nat
  | .dir 0 _ => d * 40 + (y - 1) * 10 + x
  | .dir 1 _ => d * 40 + (y + 1) * 10 + x
  | .dir 2 _ => d * 40 + y * 10 + (x + 1)
  | .dir _ _ => d * 40 + y * 10 + (x - 1)
  | .cross 0 _ _ => (d + 4) % 8 * 40 + (if d < 4 then 0 else 30) + x
  | .cross 1 _ _ => (d - 1) * 40 + y * 10 + 9
  | .cross _ _ _ => (d + 1) * 40 + y * 10
  | _ => d * 40 + y * 10 + x

/-- A crossing away from the packet's own row or module, or an inner one, puts it into the upper class; so does a step round. -/
def hopUpper (y : Nat) : MeshHop → Bool
  | .dir _ u => u
  | .cross 0 _ _ => true
  | .cross _ m _ => m != y
  | _ => false

/-- Edge routers: those that attach a UCIe module or a shoal port (R175). -/
def edgeRouter (d x y : Nat) : Bool :=
  let inner := if d < 4 then 3 else 0
  let outer := 3 - inner
  (x == 0 && d % 4 != 0) || (x == 9 && d % 4 != 3) || (x == 0 && (d == 0 || d == 4)) || (x == 9 && (d == 3 || d == 7)) ||
    (y == inner && [1, 2, 3, 6, 7, 8].contains x) || (y == outer && [1, 3, 6, 8].contains x)

/-- A header's `age`: mesh cycles since injection at the half's step, at most 4,095 (R179). -/
def State.meshAge (s : State) (d x : Nat) (p : MPkt) : Nat :=
  let k := [30, 15, 10, 6].getD (Tbl.getD s.net.meshStep (2 * d + x / 5) 0).toNat 6
  min 4095 ((s.count.toNat - p.since.toNat) * k / 2)

/-- Packets of a router. -/
def State.routerQ (s : State) (r : Nat) : List MPkt := Tbl.getD s.net.routers r []

/-- Flits of a packet: a header and one per 64 bytes (R174). -/
def MPkt.flits (p : MPkt) : Nat := 1 + (p.payload.length + 63) / 64

/-- Whether two packets wait in one buffer of a router: input, virtual channel and buffer class. -/
def MPkt.sameBuffer (p q : MPkt) : Bool := p.input == q.input && p.vc == q.vc && p.upper == q.upper

/-- Whether a packet fits its buffer at a router: 32 flits on inputs from attachment links, else 8 (R179). -/
def State.meshRoom (s : State) (r : Nat) (p : MPkt) : Bool :=
  let used := ((s.routerQ r).filter p.sameBuffer).foldl (fun n q => n + q.flits) 0
  decide (used + p.flits ≤ if p.input = 4 then 32 else 8)

/-- Heads of a router's buffers, in order of arrival. -/
def meshHeads : List MPkt → List MPkt → List MPkt
  | _, [] => []
  | seen, p :: ps => (if seen.any p.sameBuffer then [] else [p]) ++ meshHeads (p :: seen) ps

/-- The input a hop arrives at. -/
def hopInput : MeshHop → Nat
  | .dir 0 _ => 1
  | .dir 1 _ => 0
  | .dir 2 _ => 3
  | .dir _ _ => 2
  | _ => 4

/-- A packet after a hop from row y. -/
def MPkt.moved (p : MPkt) (y : Nat) (h : MeshHop) : MPkt := { p with upper := p.upper || hopUpper y h, input := hopInput h }

/-- The packets a router could move: buffer heads with a way on, over a link that is not retraining, to a buffer with room. -/
def State.meshReady (s : State) (d : Fin 8) (x : Fin 10) (y : Fin 4) : List (MPkt × MeshHop) :=
  (meshHeads [] (s.routerQ (d.val * 40 + y.val * 10 + x.val))).filterMap fun p =>
    let h := s.meshHop d x y p.dst
    let shut := ((hopLink d x y h).map fun l => s.net.retraining.contains l).getD false
    if h = .wait ∨ shut ∨ (h ≠ .eject ∧ ¬ s.meshRoom (hopTo d x y h) (p.moved y h)) then none else some (p, h)

/-- R179: the packet a router moves. An edge router takes the oldest, ties to the lower input; an interior one goes round its
inputs. -/
def State.meshPick (s : State) (d : Fin 8) (x : Fin 10) (y : Fin 4) : Option (MPkt × MeshHop) :=
  let ready := s.meshReady d x y
  if edgeRouter d x y then
    ready.foldl (fun b e => match b with
      | none => some e
      | some c =>
        let a := s.meshAge d x e.1
        let o := s.meshAge d x c.1
        if a > o ∨ (a = o ∧ e.1.input < c.1.input) then some e else some c) none
  else
    let last := Tbl.getD s.net.served (d.val * 40 + y.val * 10 + x.val) 5
    (List.range 6).findSome? fun i => ready.find? fun e => e.1.input == (last + 1 + i) % 6

/-- MESH_PACKET (R176-R180): a packet enters at its source's router once its buffer has room, or a router moves one packet a hop or
replays its flit. Routers are numbered die * 40 + y * 10 + x. -/
def execMeshPacket (d : Fin 8) (x : Fin 10) (y : Fin 4) (ev : MeshEvent) (s : State) : Host.Outcome State Fault Refusal :=
  .next (
    let r := d.val * 40 + y.val * 10 + x.val
    if ¬ s.clocked ∨ ¬ (s.region (d.val * 16 + 12)).powered then s
    else
      match ev with
      | .inject src dst cls payload =>
        let p : MPkt := { src := src, dst := dst, vc := cls, upper := false, input := 5, since := s.count, payload := payload }
        if src ≠ r ∨ dst ≥ 320 ∨ payload.length > 256 ∨ ¬ s.meshRoom r p then s
        else s.modNet fun n => { n with routers := Tbl.set n.routers r (s.routerQ r ++ [p]) }
      | .forward =>
        match s.meshPick d x y with
        | none => s
        | some (p, h) =>
          let s1 := s.modNet fun n => { n with routers := Tbl.set n.routers r ((s.routerQ r).erase p),
                                               served := Tbl.set n.served r p.input,
                                               failed := n.failed.filter fun e => some e.1 != hopLink d x y h }
          if h = .eject then s1.modNet fun n => { n with ejected := Tbl.set n.ejected r (Tbl.getD n.ejected r [] ++ [p]) }
          else
            let to_ := hopTo d x y h
            s1.modNet fun n => { n with routers := Tbl.set n.routers to_ (Tbl.getD n.routers to_ [] ++ [p.moved y h]) }
      | .crcFail =>
        match (s.meshPick d x y).bind fun e => hopLink d x y e.2 with
        | none => s
        | some l => s.retryLink l)

/-! ### Retraining and fencing (R180) -/

/-- LINK_RETRAIN (R180 stage 2). -/
def execLinkRetrain (l : OnDieLink) (s : State) : Host.Outcome State Fault Refusal :=
  .next (
    if ¬ s.clocked ∨ s.net.retraining.contains l ∨ s.net.linkFenced.contains l ∨ s.isFenced (onDieUnit l) then s
    else
      ((s.countLink l true).modNet fun n => { n with retraining := n.retraining ++ [l] }).onDieRecord l clsRetrain 0 actCounted)

/-- LINK_RETRAIN_DONE (R180 stage 3): a crossing that failed is fenced; a mesh link that failed fences the atolls at both its
routers; a causeway link that failed is fenced until the tables avoid it. -/
def execLinkRetrainDone (l : OnDieLink) (ok : Bool) (s : State) : Host.Outcome State Fault Refusal :=
  .next (
    if ¬ s.clocked ∨ ¬ s.net.retraining.contains l then s
    else
      let s1 := s.modNet fun n => { n with retraining := n.retraining.filter (· != l), failed := n.failed.filter fun e => e.1 != l }
      if ok then s1
      else
        let seq := s1.nextSeq (onDieUnit l)
        match l with
        | .mesh d x y r =>
          let s2 := (s1.modNet fun n => { n with linkFenced := n.linkFenced ++ [l] }).onDieRecord l clsRetrain 2
            (actFenced + actReplaced + actRolled)
          let other := hopTo d x y (.dir r false)
          (s2.fenceAtoll (siteAt d x y) (siteUnit (siteAt d x y)) clsRetrain seq).fenceAtoll
            (siteAt (other / 40) (other % 10) (other % 40 / 10)) (siteUnit (siteAt (other / 40) (other % 10) (other % 40 / 10)))
            clsRetrain seq
        | .causeway _ _ => (s1.modNet fun n => { n with linkFenced := n.linkFenced ++ [l] }).onDieRecord l clsRetrain 6 actFenced
        | _ => (s1.onDieRecord l clsRetrain 6 actFenced).fenceUnit (onDieUnit l) clsRetrain seq)

/-! ### The causeway (R184-R186) -/

/-- The causeway links: inner long edges, short edges, shoal ports, end ports and the strait ring (R184, 01 R11, R12). -/
def causewayEdges : List (Nat × Nat) :=
  [(0, 4), (1, 5), (2, 6), (3, 7), (0, 1), (1, 2), (2, 3), (4, 5), (5, 6), (6, 7)] ++
  ((List.range 16).map fun h => (h / 2, 8 + h)) ++
  [(0, 24), (0, 25), (4, 26), (4, 30), (3, 27), (3, 28), (7, 29), (7, 31), (24, 25), (25, 26), (26, 29), (28, 29), (27, 28), (24, 27)]

/-- Nodes joined to n by a causeway link that is not fenced, ascending. -/
def State.causeNext (s : State) (n : Nat) : List Nat :=
  (List.range 32).filter fun k =>
    causewayEdges.any (fun e => e == (min n k, max n k)) && !(s.net.linkFenced.any fun l => match l with
      | .causeway a b => (a.val == n && b.val == k) || (a.val == k && b.val == n)
      | _ => false)

/-- Nodes by rising distance from dest: one more ring of (node, next hop towards dest). -/
def State.causeGrow (s : State) : Nat → List (Nat × Nat) → List (Nat × Nat)
  | 0, seen => seen
  | k + 1, seen =>
    let more := (List.range 32).filterMap fun n =>
      if seen.any fun e => e.1 == n then none
      else ((s.causeNext n).find? fun j => seen.any fun e => e.1 == j).map fun j => (n, j)
    if more.isEmpty then seen else State.causeGrow s k (seen ++ more)

/-- R184: shortest-path tables of every node: destination, then (node, next hop). -/
def State.causeTables (s : State) : Tbl (Tbl Nat) :=
  (List.range 32).map fun dest => (dest, ((s.causeGrow 32 [(dest, dest)]).foldl (fun (t : Tbl Nat) e => Tbl.set t e.1 e.2) []))

/-- The nodes a message passes from a node to its destination; none where the tables or links give no way. -/
def State.causePath (s : State) : Nat → Nat → Nat → Option (List Nat)
  | 0, _, _ => none
  | k + 1, n, dest =>
    if n = dest then some [n]
    else
      match Tbl.get? (Tbl.getD s.net.causeRoute dest []) n with
      | none => none
      | some j => if (s.causeNext n).contains j then (State.causePath s k j dest).map fun l => n :: l else none

/-- Deliver a causeway message at a node. -/
def State.causeDeliver (s : State) (n : Nat) (m : CMsg) : State :=
  s.modNet fun x => { x with causeDelivered := Tbl.set x.causeDelivered n (Tbl.getD x.causeDelivered n [] ++ [m]) }

/-- A message goes from a node along the tables to its destination, or waits at the node while they give no way. -/
def State.causeSend (s : State) (n : Nat) (m : CMsg) : State :=
  let dest := bits m.header.toNat 23 5
  match s.causePath 33 n dest with
  | some _ => s.causeDeliver dest m
  | none => s.modNet fun x => { x with causeWaiting := Tbl.set x.causeWaiting n (Tbl.getD x.causeWaiting n [] ++ [m]) }

/-- CAUSEWAY_ROUTE_REWRITE (R184): the active hub writes the tables over the healthy links; messages that waited go on. -/
def execCausewayRouteRewrite (s : State) : Host.Outcome State Fault Refusal :=
  .next (
    if s.hubRuns then
      s.net.causeWaiting.foldl (fun t e => e.2.foldl (fun t m => t.causeSend e.1 m) t)
        (s.modNet fun n => { n with causeRoute := s.causeTables, causeWaiting := [] })
    else s)

/-- CAUSEWAY_MESSAGE (R186): a node takes a message: one with a bad CRC, a class 6 or 7 or a broadcast with a destination is
discarded and counted; a broadcast reaches every node once; any other goes on along the tables to its destination, or waits at
the node while they give no way. -/
def execCausewayMessage (node : Fin 32) (header : Word) (payload : List Word) (crcOk : Bool) (s : State) :
    Host.Outcome State Fault Refusal :=
  .next (
    let h := header.toNat
    let bc := bits h 28 1 == 1
    let dest := bits h 23 5
    let m : CMsg := { header := header, payload := payload }
    if ¬ s.clocked then s
    else if ¬ crcOk ∨ bits h 29 3 ≥ 6 ∨ payload.length ≠ bits h 12 6 + 1 ∨ (bc ∧ dest ≠ 0) then
      s.countLink (.causeway node node) false
    else if bc then (List.range 32).foldl (fun t n => if (s.causePath 33 n node).isSome then t.causeDeliver n m else t) s
    else s.causeSend node m)

/-! ### Clocks (R187-R190) -/

/-- OSC_FAILOVER (R187): a die switches to OSC1, with one TIMEOUT record of cause 7 that names OSC0. -/
def execOscFailover (node : Fin 32) (s : State) : Host.Outcome State Fault Refusal :=
  .next (
    if ¬ s.clocked ∨ ¬ s.net.osc1 ∨ s.net.onOsc1.contains node.val then s
    else
      (s.modNet fun n => { n with onOsc1 := n.onOsc1 ++ [node.val], switchAt := s.count }).raise
        { unit := dieUnit node, cls := clsTimeout, actions := actCounted, detail := [(32, 7), (33, 0)] })

/-- OSCILLATORS_LOST (R187): every domain stops; only a power cycle or a cold reset restarts the module. -/
def execOscillatorsLost (s : State) : Host.Outcome State Fault Refusal :=
  .next (
    if ¬ s.life.powered then s
    else ((s.modNet fun n => { n with osc0 := false, osc1 := false }).modLife fun l => { l with state := .stopped }))

/-- R189, Table 7-11: the mesh clock step of a half; codes 4 to 15 are ignored. -/
def State.setMeshStep (s : State) (d half : Nat) (step : BitVec 4) : State :=
  if s.clocked ∧ step.toNat < 4 then s.modNet fun n => { n with meshStep := Tbl.set n.meshStep (2 * d + half) step } else s

/-- MESH_CLOCK_STEP (R189). -/
def execMeshClockStep (d : Fin 8) (half : Fin 2) (step : BitVec 4) (s : State) : Host.Outcome State Fault Refusal :=
  .next (s.setMeshStep d half step)

/-- Whether a reconfiguration covers an atoll of a logic region (R190). -/
def State.regionReconf (s : State) (key : Nat) : Bool :=
  (regionSites (key / 16) (key % 16)).any fun g => (s.atoll g).reconf.isSome || (match s.positionOf g with
    | some (p, pos) => s.reconfs.any fun r => r.part == p && r.epoch.isSome && (r.pairs.any fun e => e.1 == pos)
        && !(r.ends.any fun e => e.1 == pos)
    | none => false)

/-- ARITHMETIC_STEP_CHANGE (R190, R375, R376): the region's clock takes its step and its set point the new step's window. -/
def execArithmeticStepChange (d : Fin 8) (r : Fin 10) (s : State) : Host.Outcome State Fault Refusal :=
  .next (
    let key := d.val * 16 + r.val
    let old := s.stepNow key
    let new := s.stepFor key
    if ¬ s.clocked ∨ ¬ (s.region key).powered ∨ old = new ∨ s.regionReconf key then s
    else
      let v := Tbl.getD s.power.setpoint key (vf old)
      (s.modNet fun n => { n with arith := Tbl.set n.arith key new }).modPower fun p =>
        { p with setpoint := Tbl.set p.setpoint key (min (vf new + (v - vf old)) (regionWindow key new).2) })

/-- ARITHMETIC_UNGATE (R190): an atoll's clock runs while it carries a position or a patrol, and is gated otherwise. -/
def execArithmeticUngate (g : Fin 320) (s : State) : Host.Outcome State Fault Refusal :=
  .next (
    if ¬ s.clocked then s
    else
      let on := (s.positionOf g).isSome || (s.atoll g).suite
      s.modNet fun n => { n with ungated := if !on then n.ungated.filter (· != g.val)
                                            else if n.ungated.contains g.val then n.ungated else n.ungated ++ [g.val] })

end Sys2Proof.Machine
end

