-- ==== Sys2Proof/Machine/Tess.lean ====
section
/-! DEFINITION. Reconfiguration of atolls (04 R94-R112, Tables 4-8 to 4-15). -/

namespace Sys2Proof.Machine

/-! ### Descriptors -/

/-- One byte of CRC-32C, reflected. -/
def crcByte (c : Nat) (b : Byte) : Nat :=
  (List.range 8).foldl (fun x _ => if x % 2 = 1 then (x / 2) ^^^ 0x82F63B78 else x / 2) (c ^^^ b.toNat)

/-- CRC-32C (Castagnoli) of a byte list. -/
def crc32c (bs : List Byte) : Nat := (bs.foldl crcByte 0xFFFFFFFF) ^^^ 0xFFFFFFFF

/-- A descriptor as one little-endian number, with byte-addressed fields. -/
abbrev Desc := Nat

/-- Bits [lo+n-1:lo] of the field at byte off of a descriptor. -/
def Desc.f (d : Desc) (off lo n : Nat) : Nat := bits d (8 * off + lo) n

/-- A descriptor's sequencer section (Table 4-10): its byte offset and sizes. -/
structure Section where
  u : Nat
  at_ : Nat
  entries : Nat
  templates : Nat
  start : Nat

/-- Sections of the sequencers in use. -/
def Desc.sections (d : Desc) : List Section :=
  ((List.range 6).filter fun u => d.f 16 u 1 == 1).map fun u =>
    let o := d.f (32 + 2 * u) 0 16 * 32
    { u := u, at_ := o, entries := d.f o 0 9, templates := d.f (o + 2) 0 8, start := d.f (o + 3) 0 8 }

/-- End of a section: header, templates, program padded to 32 bytes. -/
def Section.stop (x : Section) : Nat := x.at_ + 32 + x.templates * 128 + (x.entries * 8 + 31) / 32 * 32

/-- Queue number that in_bind of port p of sequencer u names (Table 4-10). -/
def inBindQueue (u p v : Nat) : Nat := if v % 16 = 0 then u * 4 + p else 24 + (v % 16 - 8)

/-- Two byte ranges overlap. -/
def overlaps (a b : Nat × Nat) : Bool := decide (a.1 < b.2) && decide (b.1 < a.2)

/-- Whether direction d of atoll g leads to its own partition (R90). -/
def State.dirOk (s : State) (g d : Nat) : Bool :=
  match s.mapped g d with
  | some t => s.partOf g != none && s.partOf t == s.partOf g
  | none => false

/-- Spill regions of the enabled queues, as (queue, bay, lagoon byte range). -/
def Desc.spills (d : Desc) : List (Nat × Nat × Nat × Nat) :=
  ((List.range 32).filter fun q => d.f (256 + 8 * q) 0 2 == 3).map fun q =>
    let o := 256 + 8 * q
    let lo := d.f (o + 1) 0 5 * 0x100000 + d.f (o + 2) 0 13 * 128
    (q, d.f (o + 1) 0 5, lo, lo + (d.f (o + 4) 0 13 + 1) * 128)

/-- The offset of the first failing check of R95: single fields in ascending offset, then relations (R448); none when the
descriptor passes. `home` is its lagoon offset, none in the catalogue region. -/
def State.descBad (s : State) (g : Nat) (d : Desc) (units : Nat) (home : Option Nat) : Option Nat :=
  let n := units * 32
  let sec := d.sections
  let inBounds (x : Section) : Bool := decide (512 ≤ x.at_) && decide (x.at_ + 32 ≤ n)
  let ok := sec.filter inBounds
  let single : List (Nat × Bool) :=
    [(0, d.f 0 11 5 != 0), (2, d.f 2 0 8 != 1), (3, d.f 3 0 8 != 0), (7, d.f 7 0 8 != 0), (16, d.f 16 6 2 != 0),
     (17, d.f 17 0 8 != 0), (21, d.f 21 0 8 != 0), (22, (d.f 22 0 32 &&& 0x88888888) != 0), (26, d.f 26 0 8 != 0),
     (27, d.f 27 0 8 != 0)]
    ++ ((List.range 6).map fun u => (32 + 2 * u, d.f 16 u 1 == 0 && d.f (32 + 2 * u) 0 16 != 0))
    ++ ((List.range 20).map fun i => (44 + i, d.f (44 + i) 0 8 != 0))
    ++ ((List.range 64).map fun i => (192 + i, d.f (192 + i) 0 8 != 0))
    ++ ((List.range 32).map fun q =>
        let o := 256 + 8 * q
        [(o, d.f o 2 6 != 0), (o + 1, d.f (o + 1) 5 3 != 0 || (d.f o 0 2 == 3 && decide (d.f (o + 1) 0 5 > 23))),
         (o + 2, d.f (o + 2) 13 3 != 0), (o + 4, d.f (o + 4) 13 3 != 0), (o + 6, d.f (o + 6) 0 16 != 0)]).flatten
    ++ (ok.map fun x =>
        [(x.at_, d.f x.at_ 9 7 != 0 || x.entries == 0 || decide (x.entries > 256)), (x.at_ + 2, decide (x.templates > 48))]
        ++ ((List.range 4).map fun p =>
            let v := d.f (x.at_ + 6 + p) 0 8
            (x.at_ + 6 + p, decide (v > 15) || (decide (1 ≤ v) && decide (v ≤ 7))))
        ++ ((List.range 4).map fun p => (x.at_ + 10 + p, d.f (x.at_ + 10 + p) 5 2 != 0))
        ++ [(x.at_ + 14, d.f (x.at_ + 14) 13 3 != 0)]
        ++ ((List.range 16).map fun i => (x.at_ + 16 + i, d.f (x.at_ + 16 + i) 0 8 != 0))).flatten
  let readers (q : Nat) : Nat := (ok.map fun x =>
    (List.range 4).countP fun p => inBindQueue x.u p (d.f (x.at_ + 6 + p) 0 8) == q).sum
  let enabled (q : Nat) : Bool := d.f (256 + 8 * q) 0 1 == 1
  let route (i : Nat) : Nat := d.f 22 (4 * i) 3
  let pts := (List.range 8).filter fun i => d.f 19 i 1 == 1
  let sp := d.spills
  let cache (b : Nat) : Bool := d.f 4 b 1 == 1
  let rel : List (Nat × Bool) :=
    [(0, d.f 0 0 11 != units), (4, home.any fun h => cache (h / 0x100000)),
     (4, sp.any fun x => cache x.2.1), (18, (d.f 18 0 8 &&& d.f 19 0 8) != 0)]
    ++ ((List.range 64).map fun o => (8, d.f 8 o 1 == 0 && d.f (64 + 2 * o) 0 16 != 0))
    ++ ((List.range 24).map fun q => (16, enabled q && d.f 16 (q / 4) 1 == 0))
    ++ (sec.map fun x => (32 + 2 * x.u, !inBounds x || decide (x.stop > n)
        || (sec.any fun y => y.u != x.u && inBounds y && overlaps (x.at_, x.stop) (y.at_, y.stop))))
    ++ (ok.map fun x => (x.at_, decide (x.start ≥ x.entries)))
    ++ ((List.range 32).map fun q => (256 + 8 * q, (enabled q && readers q != 1) || (!enabled q && decide (q ≥ 24) && readers q != 0)))
    ++ (ok.map fun x => (List.range 4).map fun p =>
        let v := d.f (x.at_ + 10 + p) 0 8
        let t := v % 32
        if v < 128 then (0, false)
        else if t ≥ 24 then (20, d.f 20 (t - 24) 1 == 0) else (256 + 8 * t, !enabled t)).flatten
    ++ (pts.map fun i => (20, d.f 20 (route i) 1 == 1))
    ++ (pts.map fun i => (22, pts.any fun j => j != i && route j == route i))
    ++ (pts.map fun i => (19, !s.dirOk g (laneDir i) || !s.dirOk g (laneDir (route i))))
    ++ ((List.range 8).map fun i => (18, d.f 18 i 1 == 1 && !s.dirOk g (laneDir i)))
    ++ ((List.range 8).map fun i => (20, d.f 20 i 1 == 1 && !s.dirOk g (laneDir i)))
    ++ (sp.map fun x => (256 + 8 * x.1 + 2, decide (d.f (256 + 8 * x.1 + 2) 0 13 + d.f (256 + 8 * x.1 + 4) 0 13 + 1 > 8192)
        || (sp.any fun y => y.1 != x.1 && overlaps x.2.2 y.2.2) || (home.any fun h => overlaps x.2.2 (h, h + n))))
  let least (l : List (Nat × Bool)) : Option Nat :=
    (l.filter Prod.snd).foldl (fun m e => match m with
      | none => some e.1
      | some k => some (min k e.1)) none
  match least single with
  | some o => some o
  | none => least rel

/-- The sequencer a section loads (Table 4-1), in a starting state. -/
def Desc.loadSeq (d : Desc) (x : Section) (st : SeqState) : Sequencer :=
  let tb := x.at_ + 32
  let pb := tb + x.templates * 128
  { Sequencer.reset with
    prog := (List.range x.entries).map fun i => BitVec.ofNat 64 (d.f (pb + 8 * i) 0 64),
    templates := (List.range x.templates).map fun i => BitVec.ofNat 1024 (d.f (tb + 128 * i) 0 1024),
    select := BitVec.ofNat 13 (d.f (x.at_ + 14) 0 13),
    inBind := (List.range 4).map fun p => inBindQueue x.u p (d.f (x.at_ + 6 + p) 0 8),
    ctrBind := (List.range 4).map fun p =>
      if d.f (x.at_ + 4) (4 * p + 3) 1 = 1 then some (d.f (x.at_ + 4) (4 * p) 3) else none,
    outBind := (List.range 4).map fun p => d.f (x.at_ + 10 + p) 0 8,
    pc := x.start, state := st }

/-! ### Tearing down and quiescence -/

/-- R110: an UNCONFIGURED atoll: sequencers STOPPED, queues disabled, lanes closed, no record and no descriptor. -/
def Atoll.unconfigure (a : Atoll) : Atoll :=
  { a with seqs := [], queues := [], laneEn := 0, ptEn := 0, laneOut := 0, ptRoute := 0, credits := [], descValid := false,
           descriptor := 0, record := 0x3FFF, tess := .unconfigured, goSent := false,
           waits := a.waits.filter fun w => match w.who with
             | .seq _ _ => false
             | _ => true }

/-- R104 step 2 in flush mode: sequencers stop, operations are abandoned without completions, queues and spill regions are
discarded and counted. -/
def State.flushAtoll (s : State) (g : Nat) : State :=
  (s.modAtoll g fun a =>
    let b := (List.range 32).foldl Atoll.flushQueue a
    { b with
      seqs := b.seqs.map fun e => (e.1, { e.2 with
        state := if e.2.state = .error then .error else .stopped, block := .none, openOps := [], inbox := [] }),
      engines := b.engines.map fun e => (e.1, { e.2 with queue := [], cur := none }),
      vecs := [], bankOps := [],
      waits := b.waits.filter fun w => match w.who with
        | .seq _ _ => false
        | _ => true }).releaseAround g

/-- Outgoing lanes in use: own and pass-through targets. -/
def Atoll.lanesOut (a : Atoll) : List Nat :=
  (List.range 8).filter fun i => a.laneOut.getLsbD i
    || (List.range 8).any fun j => a.ptEn.getLsbD j && bits a.ptRoute.toNat (4 * j) 3 == i

/-- What holds a drain (R106): 0 a non-empty queue, 1 a running sequencer or open operation, 2 a lane short of credits,
3 a pass-through register; with its number. None when the atoll is quiescent (R105). -/
def Atoll.holdsDrain (a : Atoll) : Option (Nat × Nat) :=
  let idle (u : Nat) : Bool :=
    let q := a.seq u
    let eng := if u < 4 then (a.engine u).cur.isNone && (a.engine u).queue.isEmpty
      else (a.vec (u - 4)).cur.isNone && (a.vec (u - 4)).queue.isEmpty
    q.openOps.isEmpty && q.inbox.isEmpty && eng &&
      (match q.state with
       | .running => false
       | _ => true)
  match (List.range 32).find? fun n => (a.queue n).holds || a.ownIn.any fun e => e.1 == n with
  | some n => some (0, n)
  | none =>
    match (List.range 6).find? fun u => !idle u with
    | some u => some (1, u)
    | none =>
      if ¬ a.bankOps.isEmpty then some (1, 0)
      else
        match a.lanesOut.find? fun i => decide (a.laneCredits i < 16) with
        | some i => some (2, i)
        | none =>
          ((List.range 8).find? fun i => a.ptEn.getLsbD i && !(Tbl.getD a.laneIn i []).isEmpty).map fun i => (3, i)

/-! ### The command -/

/-- Change reconfiguration `id`. -/
def State.modReconf (s : State) (id : Nat) (f : Reconf → Reconf) : State :=
  { s with reconfs := s.reconfs.map fun r => if r.id = id then f r else r }

/-- Reconfiguration `id`. -/
def State.reconf? (s : State) (id : Nat) : Option Reconf := s.reconfs.find? fun r => r.id == id

/-- Atolls of a reconfiguration: each position's present atoll. -/
def State.reconfAtolls (s : State) (r : Reconf) : List (Nat × Nat) :=
  r.pairs.filterMap fun x => (s.atollAt r.part x.1).map fun g => (x.1, g)

/-- R109: the command ends: done, or a stop with the first failing position and its status; a barrier without a failure
sends GO. Installing streams are noted (13 R343). -/
def State.endReconf (s : State) (r : Reconf) : State :=
  let failing := r.pairs.findSome? fun x => (r.ends.find? fun e => e.1 == x.1 && e.2 != 0)
  let s1 : State := { s with reconfs := s.reconfs.filter fun y => y.id != r.id }
  let note (t : Tbl (Nat × Nat)) : Tbl (Nat × Nat) :=
    r.ends.foldl (fun t e => if e.2 = 0 ∨ e.2 = 3 then Tbl.set t e.1 (r.stream, r.idx) else t) t
  let s2 := s1.modPart r.part fun x => { x with installer := note x.installer }
  match failing with
  | none =>
    let s3 := if r.barrier then (s2.reconfAtolls r).foldl (fun t e => t.modAtoll e.2 fun a => { a with goSent := true }) s2 else s2
    s3.completeCmd r.part r.stream r.idx .done
  | some (pos, st) =>
    s2.completeCmd r.part r.stream r.idx
      (.stop (if st = 3 then mbTimeout else mbBadField) 2 st 0xFFFF (BitVec.ofNat 64 pos))

/-- End the command once every position has ended and, under a barrier, every installed one is READY. -/
def State.tryEnd (s : State) (id : Nat) : State :=
  match s.reconf? id with
  | none => s
  | some r =>
    let all := r.pairs.all fun x => match r.ends.find? fun e => e.1 == x.1 with
      | none => false
      | some (_, st) => !r.barrier || st == 1 || st == 2 || r.readyList.contains x.1
    if all then s.endReconf r else s

/-- RECONF_DISPATCH (R99, R100, R111): the oldest reconfiguration whose positions no earlier one covers takes the next epoch
value, once that value was last assigned at least 4 µs ago. -/
def execReconfDispatch (p : Fin 32) (s : State) : Host.Outcome State Fault Refusal :=
  .next (
    match s.part? p with
    | none => s
    | some x =>
      let mine := s.reconfs.filter fun r => r.part == p.val
      let free (r : Reconf) : Bool := r.epoch.isNone && mine.all fun q =>
        decide (q.id ≥ r.id) || (q.pairs.all fun a => r.pairs.all fun b => a.1 != b.1)
      match mine.find? free with
      | none => s
      | some r =>
        let e := x.epoch + 1
        let since := s.count.toNat - (Tbl.getD x.epochTimes e.toNat 0).toNat
        if s.running ∧ ((Tbl.get? x.epochTimes e.toNat).isNone ∨ since ≥ 400) then
          (s.modPart p fun y => { y with epoch := e, epochTimes := Tbl.set y.epochTimes e.toNat s.count }).modReconf r.id fun y =>
            { y with epoch := some e }
        else s)

/-- RECONF_ARRIVAL (R104 step 1 to 2): the atoll starts to drain, or flushes at once. -/
def execReconfArrival (g : Fin 320) (s : State) : Host.Outcome State Fault Refusal :=
  .next (
    match s.positionOf g with
    | none => s
    | some (p, pos) =>
      let a := s.atoll g
      match s.reconfs.find? fun r => r.part == p && r.epoch.isSome && (r.pairs.any fun x => x.1 == pos)
          && !(r.ends.any fun e => e.1 == pos) with
      | none => s
      | some r =>
        if a.reconf.isSome ∨ ¬ s.unitRuns g then s
        else
          let x := (r.pairs.find? fun x => x.1 == pos).getD (0, 0, 0)
          let rc : AtollReconf :=
            { cmd := r.id, flush := r.flush, epoch := r.epoch.getD 0, entry := x.2.2, number := x.2.1, record := r.record,
              barrier := r.barrier, reported := false, flag := false, stopped := r.flush, timedOut := false,
              arrived := s.count }
          let s1 := s.modAtoll g fun b => { b with reconf := some rc, tess := if r.flush then .loading else .draining }
          if r.flush then s1.flushAtoll g else s1)

/-- QUIESCENT_REPORT (R105). -/
def execQuiescentReport (g : Fin 320) (s : State) : Host.Outcome State Fault Refusal :=
  .next (
    let a := s.atoll g
    match a.reconf, s.positionOf g with
    | some rc, some (_, pos) =>
      if s.unitRuns g ∧ ¬ rc.flush ∧ ¬ rc.reported ∧ a.tess = .draining ∧ a.holdsDrain = none then
        (s.modAtoll g fun b => { b with reconf := some { rc with reported := true, flag := false } }).modReconf rc.cmd fun r =>
          { r with quiescent := r.quiescent ++ [pos] }
      else s
    | _, _ => s)

/-- CHECK (R105): after every atoll has reported, each stops issuing and answers with its flag and present quiescence. -/
def execCheck (g : Fin 320) (s : State) : Host.Outcome State Fault Refusal :=
  .next (
    let a := s.atoll g
    match a.reconf, s.positionOf g with
    | some rc, some (_, pos) =>
      match s.reconf? rc.cmd with
      | none => s
      | some r =>
        if s.unitRuns g ∧ ¬ r.go ∧ rc.reported ∧ (r.pairs.all fun x => r.quiescent.contains x.1) ∧
            ¬ (r.answers.any fun e => e.1 == pos) then
          (s.modAtoll g fun b => { b with reconf := some { rc with stopped := true } }).modReconf r.id fun y =>
            { y with checking := true, answers := y.answers ++ [(pos, !rc.flag && a.holdsDrain.isNone)] }
        else s
    | _, _ => s)

/-- CHECK_ANSWER (R105): with every answer in, installation proceeds when all are clean; otherwise the atolls resume and
reporting starts again. -/
def execCheckAnswer (p : Fin 32) (s : State) : Host.Outcome State Fault Refusal :=
  .next (
    match s.reconfs.find? fun r => r.part == p.val && r.checking && (r.pairs.all fun x => r.answers.any fun e => e.1 == x.1) with
    | none => s
    | some r =>
      if r.answers.all Prod.snd then s.modReconf r.id fun y => { y with go := true, checking := false }
      else
        let s1 := (s.reconfAtolls r).foldl (fun t e => t.modAtoll e.2 fun a => { a with reconf := a.reconf.map fun rc =>
          { rc with stopped := false, reported := false, flag := false } }) s
        s1.modReconf r.id fun y => { y with quiescent := [], answers := [], checking := false })

/-- DRAIN_TIMEOUT (R106): atolls not quiescent write a TIMEOUT record and are flushed; installation proceeds on all. -/
def execDrainTimeout (p : Fin 32) (s : State) : Host.Outcome State Fault Refusal :=
  .next (
    match s.reconfs.find? fun r => r.part == p.val && r.epoch.isSome && !r.flush && !r.go
        && (s.reconfAtolls r).all fun e => (s.atoll e.2).reconf.any fun k => k.cmd == r.id with
    | none => s
    | some r =>
      let one (t : State) (e : Nat × Nat) : State :=
        let a := t.atoll e.2
        match a.reconf, a.holdsDrain with
        | some rc, some (w, n) =>
          ((t.raise { unit := siteUnit e.2, cls := clsTimeout, opKind := 8, part := some p, actions := actCounted,
                      detail := [(32, 2), (33, w), (34, n)] }).modAtoll e.2 fun b =>
            { b with reconf := some { rc with timedOut := true, stopped := true } }).flushAtoll e.2
        | _, _ => t
      ((s.reconfAtolls r).foldl one s).modReconf r.id fun y => { y with go := true, checking := false })

/-- R103: EPOCH tokens with the old epoch and the new one as `arg` go out on every lane the old tessellation enabled. -/
def State.sendEpochs (s : State) (g : Nat) (new : BitVec 4) : State :=
  let a := s.atoll g
  (List.range 8).foldl (fun t i =>
    if a.laneOut.getLsbD i then t.sendLane g i (tokenEntry (5 * 8192 + new.toNat) a.epoch) else t) s

/-- Credits of an outgoing lane at set-up: 16 less the entries still at its far end and the credits on their way back. -/
def State.freshCredits (s : State) (g i : Nat) : Nat :=
  match s.mapped g (laneDir i) with
  | some t => 16 - (Tbl.getD (s.atoll t).laneIn (lanePeer i) []).length - Tbl.getD (s.atoll g).creditBack i 0
  | none => 0

/-- R104 steps 4 and 5 of a descriptor that passed its checks, up to the state the sequencers start in. -/
def State.installDesc (s : State) (g : Nat) (d : Desc) (number : Nat) (record : BitVec 14) (held : Bool) : State :=
  let change := (List.range 24).filter fun b => (d.f 4 b 1 == 1) != (s.atoll g).bayCache.getLsbD b
  let s1 := change.foldl (fun t b =>
    (t.bayUnpublish g b).finishBayChange g { bay := b, toCache := d.f 4 b 1 == 1 }) s
  let s2 := s1.modAtoll g fun a =>
    { a.unconfigure with
      seqs := d.sections.map fun x => (x.u, d.loadSeq x (if held then .held else .running)),
      queues := ((List.range 32).filter fun q => d.f (256 + 8 * q) 0 1 == 1).map fun q =>
        let o := 256 + 8 * q
        let sp := if d.f o 1 1 = 1 then some (d.f (o + 1) 0 5, d.f (o + 2) 0 13, d.f (o + 4) 0 13 + 1) else none
        (q, { Queue.reset with enable := true, spill := sp }),
      laneEn := BitVec.ofNat 8 (d.f 18 0 8), ptEn := BitVec.ofNat 8 (d.f 19 0 8), laneOut := BitVec.ofNat 8 (d.f 20 0 8),
      ptRoute := BitVec.ofNat 32 (d.f 22 0 32), descValid := true, descriptor := BitVec.ofNat 14 number, record := record,
      tess := if held then .held else .running, discardNoted := false, laneHold := [] }
  let s3 := (s2.atoll g).lanesOut.foldl (fun t i => t.modAtoll g fun a =>
    { a with credits := Tbl.set a.credits i (s2.freshCredits g i) }) s2
  (List.range 64).foldl (fun t o =>
    if d.f 8 o 1 = 1 then t.armAtoll g o (BitVec.ofNat 32 (d.f (64 + 2 * o) 0 16)) else t) s3

/-- Bytes of a descriptor as its directory entry places it (R96); none when a word of it is poisoned. -/
def State.descBytes (s : State) (g : Nat) (entry : BitVec 128) : Option (List Byte) :=
  let n := fld entry 2 0 11 * 32
  let off := fld entry 8 0 29
  if fld entry 0 0 2 = 1 then
    if off + n > 0x1800000 ∨ (s.atoll g).poisoned off n then none else some (Mem.readBytes (s.atoll g).lagoon off n)
  else
    match s.pread none (0xF900000000 + off) n with
    | (_, st, bs) => if st = stOk then some bs else none

/-- The decode of a newly uncorrectable word that the descriptor read meets, `bad` bytes into it. -/
def State.descDecode (s : State) (g : Nat) (entry : BitVec 128) (bad : Nat) : State :=
  let off := fld entry 8 0 29 + bad
  if fld entry 0 0 2 = 1 then s.lagoonDecode g off (.uncorrectable 2) 0 (8, 0)
  else s.stagingDecode (s.catPlace off).1 (s.catPlace off).2 (.uncorrectable 2) 0 (8, 0)

/-- R104 steps 3 to 5 on one atoll from a directory entry: its reconfiguration status 0 to 2. -/
def State.loadDesc (s : State) (g : Nat) (entry : BitVec 128) (number : Nat) (record : BitVec 14) (epoch : BitVec 4)
    (held : Bool) (bad : Option Nat) : State × Nat :=
  let s1 := (s.sendEpochs g epoch).modAtoll g fun a => { a with epoch := epoch }
  let fail (t : State) (st off : Nat) : State × Nat := (t.modAtoll g fun a => { a.unconfigure with descOffset := off }, st)
  match bad with
  | some o => fail (s1.descDecode g entry o) 1 0
  | none =>
    match s1.descBytes g entry with
    | none => fail s1 1 0
    | some bs =>
      let d : Desc := leNat bs
      if crc32c (bs.take 28 ++ [0, 0, 0, 0] ++ bs.drop 32) ≠ d.f 28 0 32 then fail s1 1 28
      else
        match s1.descBad g d (fld entry 2 0 11) (if fld entry 0 0 2 = 1 then some (fld entry 8 0 29) else none) with
        | some o => fail s1 2 o
        | none => (s1.installDesc g d number record held, 0)

/-- DESCRIPTOR_INSTALL (R104 steps 3 to 6). `bad` is the byte of the descriptor whose word the read finds uncorrectable. -/
def execDescriptorInstall (g : Fin 320) (bad : Option Nat) (s : State) : Host.Outcome State Fault Refusal :=
  .next (
    match (s.atoll g).reconf, s.positionOf g with
    | some rc, some (_, pos) =>
      match s.reconf? rc.cmd with
      | none => s
      | some r =>
        if ¬ s.unitRuns g ∨ ¬ (rc.flush ∨ r.go) then s
        else
          let (s1, st) := s.loadDesc g rc.entry rc.number rc.record rc.epoch rc.barrier bad
          let st := if st = 0 ∧ rc.timedOut then 3 else st
          ((s1.modAtoll g fun a => { a with reconf := none }).modReconf r.id fun y =>
            { y with ends := y.ends ++ [(pos, st)] }).tryEnd r.id
    | _, _ => s)

/-- READY (R104 steps 6 and 7): the stream processor collects READY of a HELD atoll and sends GO after the last. -/
def execReady (p : Fin 32) (g : Fin 320) (s : State) : Host.Outcome State Fault Refusal :=
  .next (
    match s.positionOf g with
    | none => s
    | some (q, pos) =>
      match s.reconfs.find? fun r => r.part == q && r.barrier && (r.ends.any fun e => e.1 == pos && (e.2 == 0 || e.2 == 3))
          && !r.readyList.contains pos with
      | none => s
      | some r =>
        if q = p.val ∧ s.running ∧ (s.atoll g).tess = .held then
          (s.modReconf r.id fun y => { y with readyList := y.readyList ++ [pos] }).tryEnd r.id
        else s)

/-- GO (R104 step 8): a HELD atoll that GO reaches runs. -/
def execGo (g : Fin 320) (s : State) : Host.Outcome State Fault Refusal :=
  .next (
    let a := s.atoll g
    if s.unitRuns g ∧ a.tess = .held ∧ a.goSent then
      s.modAtoll g fun b => { b with tess := .running, goSent := false,
                                     seqs := b.seqs.map fun e => (e.1, if e.2.state = .held then { e.2 with state := .running } else e.2) }
    else s)

end Sys2Proof.Machine
end

