-- ==== Sys2Proof/Machine/Endpoints.lean ====
section
/-! DEFINITION. What resets and movements do to the parts of an atoll: endpoints (Table 5-11), scalar cores, atoll reset
(Table 11-2), neighbour maps (R52), step abort (Table 10-7 step 2). -/

namespace Sys2Proof.Machine

/-! ### Scalar cores and their endpoints -/

/-- Table 5-11: the send ends of core c of atoll g close: their receive handles are free, and messages of theirs still in a ring
name no channel (255). -/
def State.closeSendEnd (s : State) (p : Nat) (x : Handle) : State :=
  match s.atollAt p x.peerPos with
  | none => s
  | some r =>
    if x.connecting ∨ x.dead then s
    else (s.freeHandle r x.peerCore x.peerHandle).modAtoll r fun a => a.modCore x.peerCore fun k => k.modPort x.port fun q =>
      { q with msgs := q.msgs.map fun m => if m.chan = x.peerHandle then { m with chan := 255 } else m }

/-- R134: the sender of a receive end that is gone finds it dead: it reports -2 until it closes the channel. -/
def State.killSender (s : State) (p : Nat) (x : Handle) : State :=
  match s.atollAt p x.peerPos with
  | none => s
  | some g => (s.modHandle g x.peerCore x.peerHandle fun y =>
      { y with dead := true, out := if y.closing then 0 else y.out }).settleClose p g x.peerCore x.peerHandle

/-- Table 5-11: the endpoint of core c of atoll g goes: send ends close, receive ends are gone, rings are discarded and counted. -/
def State.resetEndpoint (s : State) (g c : Nat) : State :=
  match s.partOf g with
  | none => s
  | some p =>
    let k := (s.atoll g).core c
    let lost := k.ports.foldl (fun n e => n + e.2.msgs.length) 0
    let s1 := k.handles.foldl (fun t e => if e.2.send then t.closeSendEnd p e.2 else t.killSender p e.2) s
    s1.modAtoll g fun a => { (a.modCore c fun x => { x with handles := [], ports := [], answers := [] }) with
      chDiscard := satAdd32 a.chDiscard lost }

/-- R277: a core restarts the sealed Icrax runtime: registers and CSRs at their reset values; `clear` also reloads the private
SRAM, whose runtime image the spec does not give (log entry 10). -/
def Core.restart (k : Core) (clear : Bool) : Core :=
  if clear then { Core.reset with running := true }
  else { k with pc := 0, x := [], csr := [], running := true, block := .none, reservation := none, access := 0, mask := false,
                active := none, epc := 0, answers := [], topDone := [] }

/-- Reset of one core (Table 11-1, Table 5-11). -/
def State.resetCore (s : State) (g c : Nat) : State :=
  ((s.resetEndpoint g c).dropWaits g c).modAtoll g fun a => a.modCore c fun k => k.restart true

/-- Reset of both cores of an atoll. -/
def State.resetCores (s : State) (g : Nat) : State := (s.resetCore g 0).resetCore g 1

/-- R75: every core of a partition's atolls restarts in the mode given. -/
def State.setSplit (s : State) (p : Nat) (split : Bool) : State :=
  match s.part? p with
  | none => s
  | some x =>
    if x.split = split then s
    else x.posAtoll.foldl (fun t e => (t.resetCores e.2).modAtoll e.2 fun a => { a with split := split })
      (s.modPart p fun y => { y with split := split })

/-! ### Memory commands and batches -/

/-- Drop the memory commands that meet a test, queued and running, without completions. -/
def State.dropMem (s : State) (f : MemCmd → Bool) : State :=
  let orders := (s.openMem.filter f).map fun c => c.order
  let s1 : State := { s with fab := { s.fab with
    waiting := s.fab.waiting.filter (fun m => !(orders.any fun o => m.owner == .dma o)),
    unacked := s.fab.unacked.filter (fun m => !(orders.any fun o => m.owner == .dma o)) } }
  s1.modMem fun m => { m with shoals := m.shoals.map fun h => (h.1, { h.2 with units := h.2.units.map fun u =>
    (u.1, { queue := u.2.queue.filter fun c => !f c,
            cur := match u.2.cur with
              | some r => if f r.cmd then none else some r
              | none => none }) }) }

/-- Memory commands of an atoll's port. -/
def MemCmd.ofPort (g : Nat) (c : MemCmd) : Bool := c.src == .port g

/-- R336: the TILE_BATCH commands whose operations an atoll in reset drops end with DEST_IN_RESET. -/
def State.endBatches (s : State) (g : Nat) : State :=
  match s.positionOf g with
  | none => s
  | some (p, pos) =>
    match s.part? p with
    | none => s
    | some x =>
      x.streams.foldl (fun t e => (e.2.started.filter fun c => fld c.img 0 0 8 == 0x84 && fld c.img 3 0 8 == pos).foldl
        (fun u c => u.completeCmd p e.1 c.idx
          (.stop mbBusy 2 opDestReset 0xFFFF (opWord 0 0 false false false opDestReset (fld c.img 62 0 16)))) t) s

/-! ### Atoll reset (Table 11-2) -/

/-- Steps 1 and 2: absorption begins, operations in flight end without completions, the endpoint goes as in Table 5-11. -/
def State.beginAtollReset (s : State) (g : Nat) : State :=
  let s1 := s.modAtoll g fun a => { a with
    inReset := true, destInReset := 0,
    seqs := a.seqs.map fun e => (e.1, { e.2 with state := .stopped, block := .none, openOps := [], inbox := [] }),
    engines := a.engines.map fun e => (e.1, { e.2 with queue := [], cur := none }), vecs := [], bankOps := [],
    objs := [], waits := a.waits.filter fun w => match w.who with
      | .seq _ _ => false
      | _ => true }
  let s2 := ((s1.endBatches g).releaseAround g).dropWaits g 0
  (((s2.dropWaits g 1).resetEndpoint g 0).resetEndpoint g 1).modAtoll g fun a =>
    (a.modCore 0 fun k => { k with running := false, block := .none, topDone := [] }).modCore 1 fun k =>
      { k with running := false, block := .none, topDone := [] }

/-- Discard every entry that stands in an incoming lane; its credit goes back. -/
def State.clearLanes (s : State) (g : Nat) : State :=
  (List.range 8).foldl (fun t i => (List.range (Tbl.getD (t.atoll g).laneIn i []).length).foldl (fun u _ => u.leaveLane g i) t) s

/-- Steps 3 to 5: what the drain left is abandoned, state is cleared, and the atoll is UNCONFIGURED with its partition's epoch.
Cache-mode bays are invalidated without write-back; scratchpad bays keep contents and apex metadata. -/
def State.endAtollReset (s : State) (g : Nat) : State :=
  let e := (((s.partOf g).bind s.part?).map Part.epoch).getD 0
  let s1 := (s.dropMem (MemCmd.ofPort g)).clearLanes g
  s1.modAtoll g fun a =>
    let b := { a.unconfigure with
      laneIn := [], laneHold := [], ownIn := [], ownHold := none, objs := [], waits := [], connIn := [],
      engines := [], vecs := [], bankOps := [], cache := [], plru := [], cacheCmds := [], changes := [], bayBusy := 0,
      heldWrites := [], dmaBuf := 0, dmaDone := [], epoch := e, reconf := none, inReset := false }
    (b.modCore 0 fun k => k.restart true).modCore 1 fun k => k.restart true

/-! ### Neighbour maps (R52) -/

/-- The neighbouring position of `pos` in direction dir in a rectangle w wide and h high. -/
def gridNext (w h pos dir : Nat) : Option Nat :=
  let x := pos % w
  let y := pos / w
  match dir with
  | 0 => if y > 0 then some (pos - w) else none
  | 1 => if y + 1 < h then some (pos + w) else none
  | 2 => if x + 1 < w then some (pos + 1) else none
  | _ => if x > 0 then some (pos - 1) else none

/-- Whether the physical link of site g in direction dir is fenced at either end (Table 10-5). -/
def State.linkCut (s : State) (g dir : Nat) : Bool :=
  let back := if dir % 2 = 0 then dir + 1 else dir - 1
  s.isFenced (atollUnit g 7 dir 0x3FF) ||
    match physNeighbour g dir with
    | some n => s.isFenced (atollUnit n 7 back 0x3FF)
    | none => false

/-- R52: the neighbour map of position pos on atoll g: direct when the neighbouring position sits on the physical neighbour
over a link that works, routed otherwise. -/
def State.mapOf (s : State) (x : Part) (pos g dir : Nat) : NbrMap :=
  match (gridNext x.w x.h pos dir).bind fun q => Tbl.get? x.posAtoll q with
  | some t => { target := BitVec.ofNat 9 t, routed := physNeighbour g dir != some t || s.linkCut g dir, valid := true }
  | none => { target := 0, routed := false, valid := false }

/-- Write the maps of every atoll of a partition. -/
def State.remapPart (s : State) (p : Nat) : State :=
  match s.part? p with
  | none => s
  | some x => x.posAtoll.foldl (fun t e => t.modAtoll e.2 fun a =>
      { a with nbr := (List.range 4).map fun d => t.mapOf x e.1 e.2 d }) s

/-- Release an atoll: no partition, neighbour maps at their reset values. -/
def State.releaseAtoll (s : State) (g : Nat) : State :=
  s.modAtoll g fun a => { a with assigned := false, partition := 0, inReset := false, frozen := false, aborting := false,
                                 nbr := (Atoll.reset g).nbr }

/-- Table 3-11 step 4: every bay of a released atoll is zero-filled. -/
def State.zeroAtoll (s : State) (g : Nat) : State :=
  s.modAtoll g fun a => { a with lagoon := [], lineMeta := [], bayCache := 0, cacheBase := 0 }

/-- Give atoll g to partition p: UNCONFIGURED, epoch of the partition, runtime running (R326). -/
def State.takeAtoll (s : State) (g p : Nat) (split : Bool) (epoch : BitVec 4) : State :=
  s.modAtoll g fun a =>
    let b := { a.unconfigure with
      assigned := true, partition := BitVec.ofNat 5 p, split := split, epoch := epoch, frozen := false, aborting := false,
      inReset := false, objs := [], waits := [] }
    (b.modCore 0 fun k => k.restart true).modCore 1 fun k => k.restart true

/-! ### Step abort (Table 10-7 step 2) -/

/-- Operations in flight end ABANDONED, sequencers stop, cores restart the runtime with their private SRAM and channels kept; the
atoll does nothing until GO. -/
def State.abortAtoll (s : State) (g : Nat) : State :=
  let s1 := ((s.flushAtoll g).dropWaits g 0).dropWaits g 1
  s1.modAtoll g fun a =>
    let b := { a with reconf := none, aborting := true, waits := [], cacheCmds := [], dmaBuf := 0, dmaDone := [],
                      ownIn := [], ownHold := none }
    (b.modCore 0 fun k => k.restart false).modCore 1 fun k => k.restart false

end Sys2Proof.Machine
end

