-- ==== Sys2Proof/Machine/Streams.lean ====
section
/-! DEFINITION. Command streams (13 R332-R345): fetch, status line, checks and dispatch of stream commands, steps. -/

namespace Sys2Proof.Machine

/-- Whether the CXL.cache path to host memory works (12 R301, R306). -/
def State.hostUp (s : State) : Bool := s.host.linkUp && !s.host.perst && s.host.rate != .lower

/-- RdCurr of host memory: none while the path is down or when a line of it is poisoned. -/
def State.hostGet (s : State) (a n : Nat) : Option (List Byte) :=
  if !s.hostUp || (List.range ((n + 63) / 64)).any fun i => s.host.memPoison.contains (a / 64 + i) then none
  else some (Mem.readBytes s.host.mem a n)

/-- ItoMWr of host memory: none while the path is down. -/
def State.hostPut (s : State) (a : Nat) (data : List Byte) : Option State :=
  if !s.hostUp then none
  else some (s.modHost fun h => { h with
    mem := Mem.writeBytes h.mem a data,
    memPoison := h.memPoison.filter fun l => !(decide (a / 64 ≤ l) && decide (l < (a + data.length + 63) / 64)) })

/-- The active hub as a unit of records. -/
def State.hubUnit (s : State) : Word := mkUnit 3 s.life.activeHub 0 0 0 0 0x3FF

/-- Whether the stream processor fetches and dispatches for a partition: not in reset, not in a rollback or with a trigger to act
on, and no position held for a full patrol in place (10 R254). -/
def State.streamsRun (s : State) (x : Part) : Bool :=
  s.running && !s.life.failingHub && !x.inReset && !x.aborting && x.rollback.isNone && x.triggers.isEmpty &&
    x.posAtoll.all fun e => !(s.atoll e.2).frozen

/-! ### Fetch (R332-R334) -/

/-- Take the 64 bytes found at the next index: a valid entry is fetched. -/
def State.takeEntry (s : State) (p st : Nat) (bs : List Byte) : State :=
  s.modPart p fun x => x.modStream st fun y =>
    let img := BitVec.ofNat 512 (leNat bs)
    if flag img 1 7 = ringPhase y.sizeLog2 y.fetched then
      { y with waiting := y.waiting ++ [{ idx := y.fetched, img := img, toIssue := [], left := 0, waitsFor := [], since := s.count }],
               fetched := (y.fetched + 1) % 2 ^ 32 }
    else y

/-- Fetch the next ring entry; `ok` false is a word the read finds uncorrectable. -/
def State.fetchEntry (s : State) (p st : Nat) (ok : Bool) : State :=
  match s.part? p with
  | none => s
  | some x =>
    let y := x.stream st
    if ¬ y.open_ ∨ y.stopped ∨ y.closing ∨ ¬ s.streamsRun x then s
    else
      let addr := y.ring.toNat + 64 * ringSlot y.sizeLog2 y.fetched
      let fail (t : State) : State := t.stopStream p st mbTimeout 4 y.fetched 0xFFFF 0 0
      if y.ringHost then
        match (if ok then s.hostGet addr 64 else none) with
        | none => fail s
        | some bs => s.takeEntry p st bs
      else
        s.biThen [(addr, 64, false)] fail fun t =>
          match (t.badWord (some p) (if ok then none else some addr)).pread (some p) addr 64 with
          | (t1, e, bs) => if e ≠ stOk then fail t1 else t1.takeEntry p st bs

/-- STREAM_FETCH (R334). -/
def execStreamFetch (p : Fin 32) (st : Fin 4) (ok : Bool) (s : State) : Host.Outcome State Fault Refusal :=
  .next (s.fetchEntry p st ok)

/-- STREAM_POLL (R334): the same read of an entry found invalid before. -/
def execStreamPoll (p : Fin 32) (st : Fin 4) (ok : Bool) (s : State) : Host.Outcome State Fault Refusal :=
  .next (s.fetchEntry p st ok)

/-! ### Status line (R335, Table 13-5) -/

/-- The 64 bytes of a stream's status line. -/
def State.statusLine (s : State) (x : Part) (y : Stream) : List Byte :=
  let state := if !y.open_ then 2 else if y.stopped then 1 else 0
  packBytes 64 [(0, y.fetched), (4, y.done), (8, y.retired), (12, y.status.toNat), (14, state + 4 * b2n x.stepOpen),
    (15, y.causeKind), (16, y.stoppedAt), (20, y.fieldOffset.toNat), (22, y.cause.toNat),
    (24, if x.stepOpen then x.step.toNat else 0), (28, x.commitStep.toNat), (32, s.count.toNat), (40, y.unitWord.toNat)]

/-- Write a stream's status line; a line that cannot be reached is not written. -/
def State.putStatus (s : State) (p st : Nat) : State :=
  match s.part? p with
  | none => s
  | some x =>
    let y := x.stream st
    let line := s.statusLine x y
    let clear (t : State) : State := t.modPart p fun z => z.modStream st fun q => { q with statusDue := false }
    if y.statusHost then
      match s.hostPut y.statusAddr.toNat line with
      | some t => clear t
      | none => s
    else
      s.biThen [(y.statusAddr.toNat, 64, true)] clear fun t =>
        clear (t.pwrite (some p) y.statusAddr.toNat 0 line).1

/-- STREAM_STATUS_WRITE (R335): a line due to be written is written. -/
def execStreamStatusWrite (p : Fin 32) (st : Fin 4) (s : State) : Host.Outcome State Fault Refusal :=
  .next (
    match s.part? p with
    | none => s
    | some x => if (x.stream st).statusDue ∧ s.running ∧ ¬ s.life.failingHub then s.putStatus p st else s)

/-! ### Checks of a command (R336, Tables 13-6, 13-7) -/

/-- Opcode of a stream command. -/
def SCmd.op (c : SCmd) : Nat := fld c.img 0 0 8
/-- The image without `wait` and `phase`, as a unit takes it. -/
def SCmd.body (c : SCmd) : BitVec 512 := BitVec.ofNat 512 (setBits c.img.toNat 14 2 0)
/-- Memory commands (Tables 6-5, 6-7). -/
def memOpcode (op : Nat) : Bool := [1, 2, 0x10, 0x11, 0x20, 0x30, 0x31, 0x40].contains op
/-- Opcodes of Table 13-7. -/
def streamOpcode (op : Nat) : Bool := memOpcode op || (decide (0x80 ≤ op) && decide (op ≤ 0x8A))
/-- `wait`, or the `fence` of a memory command. -/
def SCmd.waits (c : SCmd) : Bool := flag c.img 1 6 || (memOpcode c.op && flag c.img 1 1)

/-- A positive FP32 number. -/
def posF32 (v : Nat) : Bool := decide (0 < v) && decide (v ≤ 0x7F800000)

/-- Name checks of SYNC that come with the fields (R336). -/
def syncNameChecks (r : Nat) : List Chk :=
  let sc := bits r (8 * 15 + 6) 2
  let op := bits r 16 2
  let t (off : Nat) (b : Bool) : Chk := Chk.test off false fun _ => b
  [Chk.rsv 9 5 3, t 10 (sc != 1 && bits r 80 8 != 0), Chk.rsv 11 0 8, t 12 (sc != 3 && bits r 96 8 != 0),
   t 13 (bits r 109 3 != 0 || (sc != 3 && bits r 104 5 != 0)), Chk.rsv 14 0 8, Chk.rsv 15 0 6,
   t 15 (sc == 0 || ((sc == 1 || sc == 3) && op != 1))]

/-- The field checks of a command (R313 step 4). -/
def SCmd.checks (c : SCmd) (p st : Nat) : List Chk :=
  let op := c.op
  let src := MemSource.stream p st c.idx
  let tail := [Chk.rsv 60 13 3]
  let host := [Chk.rsv 2 1 7] ++ Chk.bytes 3 7 ++ [Chk.align 8 64 64]
  if op = 1 ∨ op = 2 then dmaChecks src c.body
  else if memOpcode op then suChecks src c.body
  else
    [Chk.rsv 1 1 5] ++
    (match op with
     | 0x80 => [Chk.code 2 0 2 2, Chk.rsv 2 2 6, Chk.rsv 3 0 8] ++ Chk.bytes 16 59
     | 0x81 => Chk.bytes 2 3 ++ Chk.bytes 8 59
     | 0x82 => [Chk.rsv 2 1 7, Chk.rsv 4 14 2] ++ Chk.bytes 6 59
     | 0x83 => [Chk.rsv 2 1 7, Chk.rsv 3 0 8, Chk.max 4 0 14 16382, Chk.rsv 4 14 2] ++ Chk.bytes 6 59
     | 0x84 => [Chk.rsv 2 2 6, Chk.rsv 4 12 4] ++ Chk.bytes 6 7 ++ [Chk.align 8 40 64, Chk.rsv 8 40 24] ++ Chk.bytes 16 59
     | 0x85 => [Chk.rsv 2 4 4] ++ Chk.bytes 3 59
     | 0x86 => [Chk.code 2 0 2 2, Chk.rsv 2 2 6, Chk.rsv 3 0 8] ++ syncNameChecks c.img.toNat ++ Chk.bytes 16 59
     | 0x87 => [Chk.rsv 2 4 4] ++ Chk.bytes 3 7 ++ [Chk.test 44 true fun r => !posF32 (bits r (8 * 44) 32)] ++ Chk.bytes 52 59
     | 0x88 => Chk.bytes 2 7 ++ [Chk.rsv 8 40 24] ++ Chk.bytes 16 59
     | 0x89 => host ++ Chk.bytes 16 59
     | _ => host ++ Chk.bytes 24 59) ++ tail

/-- R336 step 5: positions, objects and reach. The status and offset of the first failure. -/
def State.cmdOwn (s : State) (p : Nat) (x : Part) (c : SCmd) : Option (Nat × Nat) :=
  let op := c.op
  let sc := fld c.img 15 6 2
  let obj := fld c.img 8 0 13
  let tests : List (Nat × Bool) :=
    (if op = 0x84 then
      [(3, (Tbl.get? x.posAtoll (fld c.img 3 0 8)).isNone),
       (8, !s.reaches p (fld c.img 8 0 40) ((fld c.img 4 0 12 + 1) * 64) false)]
     else if op = 0x86 then
      [(8, (sc == 1 && decide (obj > 63)) || (sc == 2 && !s.ownsObj (some p) obj)),
       (10, sc == 1 && (Tbl.get? x.posAtoll (fld c.img 10 0 8)).isNone)]
     else if op = 0x89 ∨ op = 0x8A then [(8, !flag c.img 2 0 && !s.reaches p (fld c.img 8 0 64) 64 true)]
     else []) ++
    [(60, flag c.img 1 0 && !s.ownsObj (some p) (fld c.img 60 0 13))]
  (tests.find? fun t => t.2).map fun t => (mbOutOfRange, t.1)

/-! ### Conditions of R337 -/

/-- Whether a partition's streams have no started command. -/
def Part.idle (x : Part) : Bool := x.streams.all fun e => e.2.started.isEmpty

/-- Collective queue entries: accepted and not ended (R222). -/
def State.collQueue (s : State) : List Coll := s.coll.list.filter fun c => c.finished.isNone

/-- The collective that a start with this key attaches to: one that runs, waits or ended DONE (Table 9-8). -/
def State.attachTo (s : State) (k : CollKey) : Option Coll :=
  (s.coll? k).bind fun c => if (c.finished.map fun w => decide (wordStatus w = 0)).getD true then some c else none

/-- Whether the next command of stream st may start. -/
def State.mayStart (s : State) (p st : Nat) (x : Part) (c : SCmd) : Bool :=
  let y := x.stream st
  let mine := s.collQueue.filter fun k => k.part == p
  !(c.waits && !y.started.isEmpty) && decide (y.started.length < s.pparam p 0x0D00) &&
  (match c.op with
   | 0x80 | 0x81 => x.idle
   | 0x87 => !(mine.any fun k => k.running && k.d.updates && k.d.record == fld c.img 2 0 4)
   | 0x88 => decide (mine.length < 8) && decide (s.collQueue.length < 32) && !(y.started.any fun d => d.op == 0x87)
   | _ => true)

/-! ### Starting a command -/

/-- Move the next command to the started ones, as `f` leaves it. -/
def State.takeCmd (s : State) (p st : Nat) (c : SCmd) : State :=
  s.modPart p fun x => x.modStream st fun y => { y with waiting := y.waiting.drop 1, started := y.started ++ [c] }

/-- Start and complete a command at once. -/
def State.doneCmd (s : State) (p st : Nat) (c : SCmd) (v : Verdict := .done) : State := (s.takeCmd p st c).completeCmd p st c.idx v

/-- A stop by a command check. -/
def State.failCmd (s : State) (p st : Nat) (c : SCmd) (status off : Nat) (cause : Nat := 0) (word : DWord := 0) : State :=
  s.stopStream p st status 1 c.idx off cause word

/-- Verdict on a memory access of the stream processor that ends with a unit status. -/
def accessVerdict (st ticket : Nat) : Verdict := unitVerdict (memWord 0 0 false st ticket) none 0

/-- Channel state of a partition at step begin (R134): the `seq` of every send end, by position, core and handle. -/
def State.chanSeqs (s : State) (x : Part) : Tbl Nat :=
  x.posAtoll.foldl (fun t e => [0, 1].foldl (fun t c => ((s.atoll e.2).core c).handles.foldl (fun t h =>
    if h.2.send then Tbl.set t (e.1 * 128 + c * 64 + h.1) h.2.seq else t) t) t) []

/-- Step-start state (R338): the first command not started of every open stream, object counts, channel state. -/
def State.stepStart (s : State) (p : Nat) (x : Part) : StepStart :=
  { indices := (x.streams.filter fun e => e.2.open_).map fun e => (e.1, e.2.done),
    atollObjs := x.posAtoll.map fun e => (e.1, (s.atoll e.2).objs),
    moduleObjs := s.mem.modObjs.filter fun e => Tbl.get? s.mem.objOwner e.1 == some p,
    chanSeq := s.chanSeqs x }

/-- STEP_BEGIN (R338): record, apply `split`, open the step. -/
def State.beginStep (s : State) (p st : Nat) (x : Part) (c : SCmd) : State :=
  if x.stepOpen then s.failCmd p st c mbNoResource 0xFFFF
  else
    let step := BitVec.ofNat 32 (fld c.img 4 0 32)
    let split := fld c.img 2 0 2
    let s1 := s.modPart p fun y => { y with
      stepOpen := true, replaying := false, step := step, seed := BitVec.ofNat 64 (fld c.img 8 0 64),
      start := some (s.stepStart p x), firstSymbol := if x.replaying then x.firstSymbol else none,
      replayLimit := if x.replaying then x.replayLimit else s.pparam p 0x0A03,
      stalled := x.replaying && x.stalled, seqWatch := x.replaying && x.seqWatch }
    let s2 := if split = 0 then s1 else s1.setSplit p (split == 2)
    let s3 := x.posAtoll.foldl (fun t e => t.touchUnit (siteUnit e.2) p) s2
    s3.doneCmd p st c

/-- STEP_COMMIT (R339, R340): the step closes, its collectives retire, the step-start state is released, and `retired` of every
stream becomes its `done`. -/
def State.commitStep (s : State) (p st : Nat) (x : Part) (c : SCmd) : State :=
  let step := BitVec.ofNat 32 (fld c.img 4 0 32)
  if ¬ x.stepOpen ∨ step ≠ x.step then s.failCmd p st c mbNoResource 4
  else
    let s1 := s.modPart p fun y => { y with
      stepOpen := false, replaying := false, start := none, commitStep := step, rollbacks := Tbl.erase y.rollbacks step.toNat,
      firstSymbol := none, stalled := false, seqWatch := false }
    ({ s1 with coll := { s1.coll with list := s1.coll.list.filter fun k => !(k.part == p && k.key.step == step) } } : State).doneCmd
      p st c |>.modPart p fun y => { y with streams := y.streams.map fun e => (e.1, { e.2 with retired := e.2.done }) }

/-- The first failing condition of R98 on the pairs: its number and the pair's position. -/
def State.pairsBad (s : State) (p : Nat) (x : Part) (pairs : List (Nat × Nat)) : Option (Nat × Nat) :=
  (pairs.zipIdx).findSome? fun e =>
    let pos := e.1.1
    let d := Tbl.getD s.mem.directory e.1.2 0
    let g := Tbl.get? x.posAtoll pos
    let conds : List (Nat × Bool) :=
      [(2, decide (e.2 > 0) && decide (pos ≤ ((pairs[e.2 - 1]?).getD (0, 0)).1)), (3, g.isNone),
       (4, (g.map fun a => (s.atoll a).inReset).getD false), (5, fld d 0 0 2 == 0 || fld d 0 0 2 == 3), (6, fld d 1 0 5 != p),
       (7, fld d 0 0 2 == 1 && fld d 4 0 8 != pos)]
    (conds.find? fun k => k.2).map fun k => (k.1, pos)

/-- A validated reconfiguration joins those in progress (R98, R331): it uses the directory entries as they stand now. -/
def State.putReconf (s : State) (p st : Nat) (c : SCmd) (flush barrier : Bool) (record : Nat) (pairs : List (Nat × Nat)) : State :=
  { (s.takeCmd p st c) with
    reconfNext := s.reconfNext + 1,
    reconfs := s.reconfs ++ [{
      id := s.reconfNext, part := p, stream := st, idx := c.idx, flush := flush, barrier := barrier,
      record := BitVec.ofNat 14 record, pairs := pairs.map (fun e => (e.1, e.2, Tbl.getD s.mem.directory e.2 0)), epoch := none,
      quiescent := [], answers := [], checking := false, go := false, ends := [], readyList := [] }] }

/-- RECONFIGURE (R98): validated as a record of one pair. -/
def State.reconfigure (s : State) (p st : Nat) (x : Part) (c : SCmd) : State :=
  let pairs := [(fld c.img 3 0 8, fld c.img 4 0 14)]
  match s.pairsBad p x pairs with
  | some (n, pos) => s.failCmd p st c mbBadField (if n < 5 then 3 else 4) n (BitVec.ofNat 64 pos)
  | none => s.putReconf p st c (flag c.img 2 0) false 0x3FFF pairs

/-- Pairs of a catalogue record (Table 4-12). -/
def State.recordPairs (s : State) (r : BitVec 512) : List (Nat × Nat) :=
  (List.range (fld r 2 0 8 + 1)).map fun k =>
    let w : Word := if flag r 0 1 then Tbl.getD s.mem.listMem (fld r 4 0 18 + k) 0 else BitVec.ofNat 32 (fld r (12 + 4 * k) 0 32)
    (pairPosition w, pairDescriptor w)

/-- CATALOGUE_SWITCH (R98). -/
def State.catalogueSwitch (s : State) (p st : Nat) (x : Part) (c : SCmd) : State :=
  let n := fld c.img 4 0 14
  let r := Tbl.getD s.mem.records n 0
  if ¬ flag r 0 0 ∨ fld r 3 0 5 ≠ p then s.failCmd p st c mbBadField 4 1
  else
    match s.pairsBad p x (s.recordPairs r) with
    | some (k, pos) => s.failCmd p st c mbBadField 4 k (BitVec.ofNat 64 pos)
    | none => s.putReconf p st c (flag c.img 2 0) (flag r 0 2) n (s.recordPairs r)

/-- Issue the entries of a started batch while the engines' queues have room: entry k goes to engine (first + k) mod 4. -/
def State.pumpBatch : Nat → State → Nat → Nat → Nat → State
  | 0, s, _, _, _ => s
  | n + 1, s, p, st, idx =>
    match (s.part? p).bind fun x => ((x.stream st).started.find? (·.idx == idx)).map fun c => (x, c) with
    | none => s
    | some (x, c) =>
      match c.toIssue, Tbl.get? x.posAtoll (fld c.img 3 0 8) with
      | d :: rest, some g =>
        if ¬ s.unitRuns g then s
        else
          let k := fld c.img 4 0 12 + 1 - c.toIssue.length
          let s1 := s.modPart p fun z => z.modStream st fun y => { y with
            started := y.started.map fun e => if e.idx = idx then { e with toIssue := rest } else e }
          match s1.issueTile g ((fld c.img 2 0 2 + k) % 4) d (.batch p st idx k) with
          | some s2 => State.pumpBatch n s2 p st idx
          | none => s
      | _, _ => s

/-- Issue what can be issued of every started batch of a stream. -/
def State.pumpBatches (s : State) (p st : Nat) : State :=
  match s.part? p with
  | none => s
  | some x => (x.stream st).started.foldl (fun t c => if c.op = 0x84 then t.pumpBatch 4097 p st c.idx else t) s

/-- TILE_BATCH (R336): the descriptors are read, then issued in list order. -/
def State.tileBatch (s : State) (p st : Nat) (x : Part) (c : SCmd) : State :=
  let n := fld c.img 4 0 12 + 1
  let list := fld c.img 8 0 40
  let ticket := fld c.img 62 0 16
  if ((Tbl.get? x.posAtoll (fld c.img 3 0 8)).map fun g => (s.atoll g).inReset).getD false then
    s.doneCmd p st c (.stop mbBusy 2 opDestReset 0xFFFF (opWord 0 0 false false false opDestReset ticket))
  else
    s.biThen [(list, n * 64, false)] (fun t => t.doneCmd p st c (accessVerdict opTimeout ticket)) fun t =>
      match t.readMem (some p) list (n * 64) with
      | (t1, e, _, bs) =>
        if e ≠ stOk then t1.doneCmd p st c (accessVerdict e ticket)
        else
          let ops := (List.range n).map fun k => BitVec.ofNat 512 (leNat ((bs.drop (64 * k)).take 64))
          (t1.takeCmd p st { c with left := n, toIssue := ops }).pumpBatches p st

/-- Complete the started barriers of a stream whose commands have completed. -/
def State.settleBarriers (s : State) (p st : Nat) : State :=
  match s.part? p with
  | none => s
  | some x =>
    ((x.stream st).started.filter fun c => c.op == 0x85 && c.waitsFor.all fun w =>
      !((x.stream w.1).started.any fun d => d.idx == w.2)).foldl (fun t c => t.completeCmd p st c.idx .done) s

/-- BARRIER (R336): it waits for the commands of the streams named that have started before it. -/
def State.barrier (s : State) (p st : Nat) (x : Part) (c : SCmd) : State :=
  let ws := ((List.range 4).filter fun t => fld c.img 2 t 1 == 1).map fun t => (x.stream t).started.map fun d => (t, d.idx)
  (s.takeCmd p st { c with waitsFor := ws.flatten }).settleBarriers p st

/-- A SYNC that ends with a value of Table 5-7. -/
def State.syncFails (s : State) (p st : Nat) (c : SCmd) (n status : Nat) : State :=
  s.doneCmd p st c (.stop status 2 (65536 - n) 0xFFFF (negStatus n))

/-- SYNC (R336): ARM and WAIT of a module-level object, SIGNAL of an atoll's, a module-level or another module's. -/
def State.streamSync (s : State) (p st : Nat) (x : Part) (c : SCmd) : State :=
  let v := fld c.img 4 0 32
  let sc := fld c.img 15 6 2
  let obj := fld c.img 8 0 13
  match fld c.img 2 0 2 with
  | 0 => (s.takeCmd p st c).armMod obj (BitVec.ofNat 32 v) |>.completeCmd p st c.idx .done
  | 1 =>
    if sc = 1 then
      match Tbl.get? x.posAtoll (fld c.img 10 0 8) with
      | none => s
      | some g =>
        if (s.atoll g).inReset then s.syncFails p st c 6 mbBusy
        else ((s.takeCmd p st c).signalAtoll g obj (v % 65536)).completeCmd p st c.idx .done
    else if sc = 2 then ((s.takeCmd p st c).signalMod obj (v % 65536)).completeCmd p st c.idx .done
    else if s.ownId.isNone then s.syncFails p st c 5 mbOutOfRange
    else ((s.takeCmd p st c).sendSignal p (fld c.img 12 0 13) obj (v % 65536)).completeCmd p st c.idx .done
  | _ =>
    if v ≤ (s.modObj obj).toNat then s.doneCmd p st c
    else if !s.waitRoom [BitVec.ofNat 64 (2 ^ 63 + obj)] then s.syncFails p st c 9 mbNoResource
    else (s.takeCmd p st { c with since := s.count }).modMem fun m =>
      { m with modWaits := m.modWaits ++ [{ obj := obj, target := BitVec.ofNat 32 v, who := .stream p st c.idx }] }

/-- R133, R336: a stream's WAIT beyond SYNC_WAIT_TIMEOUT ends with -7 and one TIMEOUT record of cause 8. -/
def State.lateWaits (s : State) (p st : Nat) : State :=
  match s.part? p with
  | none => s
  | some x =>
    ((x.stream st).started.filter fun c => c.op == 0x86 && decide (ageOf s.count c.since ≥ s.pparam p 0x0501 * 100) &&
      s.mem.modWaits.any fun w => w.who == .stream p st c.idx).foldl (fun t c =>
      ((t.modMem fun m => { m with modWaits := m.modWaits.filter fun w => w.who != .stream p st c.idx }).raise
        { unit := t.hubUnit, cls := clsTimeout, opKind := 5, opCode := 0x86, part := some p, actions := actCounted,
          detail := [(32, 8)] }).completeCmd p st c.idx (.stop mbTimeout 2 0xFFF9 0xFFFF (negStatus 7))) s

/-- UPDATE_PARAM (09 R238). -/
def State.updateParam (s : State) (p st : Nat) (c : SCmd) : State :=
  (s.modPart p fun x => { x with
    updSlots := Tbl.set x.updSlots (fld c.img 2 0 4) (BitVec.ofNat 384 (fld c.img 8 0 384)) }).doneCmd p st c

/-- Write a 64-byte record where a command names it, then complete. -/
def State.writeRecord (s : State) (p st : Nat) (c : SCmd) (data : List Byte) (after : State → State) : State :=
  let ticket := fld c.img 62 0 16
  let a := fld c.img 8 0 64
  if flag c.img 2 0 then
    match s.hostPut a data with
    | some t => (after t).doneCmd p st c
    | none => s.doneCmd p st c (accessVerdict opTimeout ticket)
  else
    s.biThen [(a, 64, true)] (fun t => t.doneCmd p st c (accessVerdict opTimeout ticket)) fun t =>
      match t.pwrite (some p) a 0 data with
      | (t1, e, _) => if e = stOk then (after t1).doneCmd p st c else t1.doneCmd p st c (accessVerdict e ticket)

/-- FENCE_QUERY (Table 13-8). -/
def State.fenceQuery (s : State) (p st : Nat) (x : Part) (c : SCmd) : State :=
  s.writeRecord p st c
    (packBytes 64 [(0, s.flt.fenceGen.toNat), (4, s.healthyCount), (6, s.activeCount), (8, (x.stream st).moved.toNat),
      (40, s.count.toNat)])
    fun t => t.modPart p fun z => z.modStream st fun y => { y with moved := 0 }

/-- MARKER (Table 13-7). -/
def State.marker (s : State) (p st : Nat) (x : Part) (c : SCmd) : State :=
  s.writeRecord p st c
    (packBytes 64 [(0, fld c.img 16 0 64), (8, s.count.toNat), (16, (if x.stepOpen then x.step else x.commitStep).toNat), (20, c.idx)])
    id

/-! ### Collectives (09 R222, R223) -/

/-- A collective start that ends before anything takes effect. -/
def State.collFails (s : State) (p st : Nat) (c : SCmd) (status offset ticket : Nat) : State :=
  let w := BitVec.ofNat 64 ((if status = 1 then offset % 64 else 0) * 2 ^ 26 + status * 2 ^ 16 + ticket)
  s.doneCmd p st c (unitVerdict w none 0)

/-- Collective status of a read that failed. -/
def collStatus (e : Nat) : Nat := if e = opSymbol then 6 else if e = opTimeout then 11 else if e = opDestReset then 4 else 3

/-- R223: the member list is well formed. -/
def State.membersOk (s : State) (d : CollDesc) (ms : List Nat) : Bool :=
  (ms.all fun m => decide (m ≤ s.moduleMax)) && decide ms.Nodup &&
    (match s.ownId with
     | some i => ms[d.rank]? == some i
     | none => true)

/-- The checks that need the shard state (R237, Table 9-2), and the record's steps (R238): status and offset. -/
def State.updateBad (s : State) (p : Nat) (d : CollDesc) (h : ShardState) : Option (Nat × Nat) :=
  let r := ((s.part? p).map fun x => Tbl.getD x.updSlots d.record 0).getD 0
  if h.factored ∧ d.unit * 32 ≠ h.tileRows * h.cols then some (1, 12)
  else if d.op = 5 ∧ d.df ≠ h.workFmt then some (1, 3)
  else if d.step < fld r 0 0 32 ∨ fld r 4 0 32 < d.step then some (14, 0)
  else none

/-- COLLECTIVE (R222): the descriptor is read and checked; the collective joins the queue, or an equal one is attached to. -/
def State.collective (s : State) (p st : Nat) (x : Part) (c : SCmd) : State :=
  let a := fld c.img 8 0 40
  let t0 := fld c.img 62 0 16
  if !s.reaches p a 128 false then s.collFails p st c 3 0 t0
  else
    s.biThen [(a, 128, false)] (fun t => t.collFails p st c 11 0 t0) fun t =>
    match t.readMem (some p) a 128 with
    | (s1, e, _, bs) =>
      if e ≠ stOk then s1.collFails p st c (collStatus e) 0 t0 else
      let img := BitVec.ofNat 1024 (leNat bs)
      let d := collDesc img
      let prof := d.op == 0x10
      match firstBad img.toNat (if prof then densityChecks img else collChecks img) with
      | some k => s1.collFails p st c 1 k.off d.ticket
      | none =>
        if d.notify ∧ ¬ s1.ownsObj (some p) d.obj then s1.collFails p st c 1 82 d.ticket
        else
          let alone := prof || d.op == 6
          let n := if alone then 1 else d.n
          if n > 1 ∧ s1.ownId.isNone then s1.collFails p st c 3 0 d.ticket
          else
            match if alone then (s1, stOk, 0, []) else s1.readMem (some p) d.maddr (2 * n) with
            | (s2, e2, _, ml) =>
              if e2 ≠ stOk then s2.collFails p st c (collStatus e2) 0 d.ticket else
              let ms := if alone then [(s2.ownId).getD 0] else (List.range n).map fun k => leNat ((ml.drop (2 * k)).take 2)
              if ¬ alone ∧ ¬ s2.membersOk d ms then s2.collFails p st c 1 40 d.ticket
              else
                match if d.updates then s2.readMem (some p) d.state 64 else (s2, stOk, 0, []) with
                | (s3, e3, _, hd) =>
                  if e3 ≠ stOk then s3.collFails p st c (collStatus e3) 0 d.ticket else
                  match if d.updates then s3.updateBad p d (shardState hd) else none with
                  | some (b, off) => s3.collFails p st c b off d.ticket
                  | none =>
                    let key : CollKey := { jobTag := x.jobTag, collId := BitVec.ofNat 16 d.id, step := BitVec.ofNat 32 d.step }
                    match s3.attachTo key with
                    | some old =>
                      let s4 := (s3.takeCmd p st c).modColl key fun y => { y with st := st, idx := c.idx }
                      match old.finished with
                      | some w => s4.completeCmd p st c.idx (unitVerdict w none 0)
                      | none => s4
                    | none =>
                      let k : Coll :=
                        { key := key, part := p, st := st, idx := c.idx, img := img, members := ms, running := false, asked := [],
                          window := 0, doneAt := [], given := [], accs := [], written := [], joined := [], sentTo := [], arrived := [],
                          tiles := [], skew := false, low := false, nonfinite := false, seed := x.seed, finished := none }
                      let s4 := (List.range 6).foldl (fun u i =>
                        (u.touchUnit (straitUnit i 12 0 0x3FF) p).touchUnit (straitUnit i 10 0 0x3FF) p) (s3.takeCmd p st c)
                      { s4 with coll := { s4.coll with list := (s4.coll.list.filter fun y => y.key != key) ++ [k] } }

/-- A memory command (06 R158) goes to a stream unit; it waits while none is healthy. -/
def State.memoryCmd (s : State) (p st : Nat) (x : Part) (c : SCmd) : State :=
  match s.unitForStream with
  | none => s
  | some (h, u) => (s.takeCmd p st c).enqueueMem h u
      { img := c.body, src := .stream p st c.idx, part := p, seed := x.seed, order := s.cmdOrder }

/-- The effect of a command whose checks passed and whose conditions hold. -/
def State.dispatch (s : State) (p st : Nat) (x : Part) (c : SCmd) : State :=
  match c.op with
  | 0x80 => s.beginStep p st x c
  | 0x81 => s.commitStep p st x c
  | 0x82 => s.reconfigure p st x c
  | 0x83 => s.catalogueSwitch p st x c
  | 0x84 => s.tileBatch p st x c
  | 0x85 => s.barrier p st x c
  | 0x86 => s.streamSync p st x c
  | 0x87 => s.updateParam p st c
  | 0x88 => s.collective p st x c
  | 0x89 => s.fenceQuery p st x c
  | 0x8A => s.marker p st x c
  | _ => s.memoryCmd p st x c

/-- R336, R337: start the next command of a stream when it is one that the row names: checks, conditions, dispatch. -/
def State.startCmd (s : State) (p st : Nat) (want : SCmd → Bool) : State :=
  match s.part? p with
  | none => s
  | some x =>
    let y := x.stream st
    match y.waiting with
    | [] => s
    | c :: _ =>
      if ¬ y.open_ ∨ y.stopped ∨ y.closing ∨ ¬ s.streamsRun x ∨ ¬ want c then s
      else if ¬ streamOpcode c.op then s.failCmd p st c mbBadOpcode 0
      else
        match firstBad c.body.toNat (c.checks p st) with
        | some k => s.failCmd p st c (if k.range then mbOutOfRange else mbBadField) k.off
        | none =>
          if ¬ s.mayStart p st x c then s
          else
            match s.cmdOwn p x c with
            | some (status, off) => s.failCmd p st c status off
            | none => s.dispatch p st x c

/-- STREAM_COMMAND_START (R336, R337): the next fetched command, whichever it is. -/
def execStreamCommandStart (p : Fin 32) (st : Fin 4) (s : State) : Host.Outcome State Fault Refusal :=
  .next (s.startCmd p st fun _ => true)
/-- STEP_BEGIN. -/
def execStepBegin (p : Fin 32) (st : Fin 4) (s : State) : Host.Outcome State Fault Refusal :=
  .next (s.startCmd p st fun c => c.op == 0x80)
/-- STEP_COMMIT. -/
def execStepCommit (p : Fin 32) (st : Fin 4) (s : State) : Host.Outcome State Fault Refusal :=
  .next (s.startCmd p st fun c => c.op == 0x81)
/-- RECONFIGURE. -/
def execReconfigure (p : Fin 32) (st : Fin 4) (s : State) : Host.Outcome State Fault Refusal :=
  .next (s.startCmd p st fun c => c.op == 0x82)
/-- CATALOGUE_SWITCH. -/
def execCatalogueSwitch (p : Fin 32) (st : Fin 4) (s : State) : Host.Outcome State Fault Refusal :=
  .next (s.startCmd p st fun c => c.op == 0x83)
/-- TILE_BATCH: starts, and issues what the queues have room for. -/
def execTileBatch (p : Fin 32) (st : Fin 4) (s : State) : Host.Outcome State Fault Refusal :=
  .next ((s.startCmd p st fun c => c.op == 0x84).pumpBatches p st)
/-- BARRIER: starts, and ends once the commands it waits for have completed. -/
def execBarrier (p : Fin 32) (st : Fin 4) (s : State) : Host.Outcome State Fault Refusal :=
  .next (((s.startCmd p st fun c => c.op == 0x85)).settleBarriers p st)
/-- SYNC ARM. -/
def execStreamSyncArm (p : Fin 32) (st : Fin 4) (s : State) : Host.Outcome State Fault Refusal :=
  .next (s.startCmd p st fun c => c.op == 0x86 && fld c.img 2 0 2 == 0)
/-- SYNC SIGNAL. -/
def execStreamSyncSignal (p : Fin 32) (st : Fin 4) (s : State) : Host.Outcome State Fault Refusal :=
  .next (s.startCmd p st fun c => c.op == 0x86 && fld c.img 2 0 2 == 1)
/-- SYNC WAIT: starts, and ends with -7 once it is overdue. -/
def execStreamSyncWait (p : Fin 32) (st : Fin 4) (s : State) : Host.Outcome State Fault Refusal :=
  .next ((s.startCmd p st fun c => c.op == 0x86 && fld c.img 2 0 2 == 2).lateWaits p st)
/-- UPDATE_PARAM. -/
def execUpdateParam (p : Fin 32) (st : Fin 4) (s : State) : Host.Outcome State Fault Refusal :=
  .next (s.startCmd p st fun c => c.op == 0x87)
/-- FENCE_QUERY. -/
def execFenceQuery (p : Fin 32) (st : Fin 4) (s : State) : Host.Outcome State Fault Refusal :=
  .next (s.startCmd p st fun c => c.op == 0x89)
/-- MARKER. -/
def execMarker (p : Fin 32) (st : Fin 4) (s : State) : Host.Outcome State Fault Refusal :=
  .next (s.startCmd p st fun c => c.op == 0x8A)

end Sys2Proof.Machine
end

