-- ==== Sys2Proof/Machine/Placement.lean ====
section
/-! DEFINITION. Placement of positions on sites (13 R323, R324, 10 R263), giving and releasing sites, and moving a position to
another site (Tables 10-4, 10-7). -/

namespace Sys2Proof.Machine

/-! ### Latency (07 R182, R183) -/

/-- Router of site g: die * 40 + y * 10 + x. -/
def siteRouter (g : Nat) : Nat := g / 40 * 40 + g % 20 / 5 * 10 + g % 40 / 20 * 5 + g % 5

/-- Cost of the mesh path from router r to router dst, in sixths of a nanosecond at 1.5 GHz: 3 mesh cycles a hop, 8 more for the
isthmus, 12.5 ns a UCIe crossing; none when no path works. -/
def State.pathCost : Nat → State → Nat → Nat → Option Nat
  | 0, _, _, _ => none
  | k + 1, s, r, dst =>
    let d := r / 40
    let x := r % 10
    let y := r % 40 / 10
    match s.meshHop d x y dst with
    | .eject => some 0
    | .wait => none
    | h =>
      let n := hopTo d x y h
      let step := match h with
        | .cross _ _ _ => 75
        | _ => if n / 40 = d ∧ ((x = 4 ∧ n % 10 = 5) ∨ (x = 5 ∧ n % 10 = 4)) then 44 else 12
      (State.pathCost k s n dst).map fun c => c + step

/-- One-way latency t(P) between two sites, injection and ejection included; an unreachable one counts as worst. -/
def State.siteCost (s : State) (a b : Nat) : Nat := ((s.pathCost 128 (siteRouter a) (siteRouter b)).getD 1000000) + 32

/-! ### Sites -/

/-- Whether a site is the spare of a migration. -/
def State.isSpare (s : State) (g : Nat) : Bool := s.parts.any fun e => e.2.migrations.any fun m => m.spare == g

/-- A healthy site that carries no position and is no migration's spare. -/
def State.siteFree (s : State) (g : Nat) : Bool := s.siteHealthy g && !(s.atoll g).assigned && !s.isSpare g

/-- Home site of position pos of a rectangle (R323). -/
def homeSite (x0 y0 w pos : Nat) : Nat :=
  let gx := x0 + pos % w
  let gy := y0 + pos / w
  siteAt (gy / 4 * 4 + gx / 10) (gx % 10) (gy % 4)

/-- The site of a list with the smallest value, the lowest number among equals. -/
def leastSite (cost : Nat → Nat) (l : List Nat) : Option Nat :=
  l.foldl (fun a g => match a with
    | none => some g
    | some b => if cost g < cost b then some g else some b) none

/-- R263: the spare of position pos: the free healthy site with the smallest sum of latencies to the atolls that carry the
neighbour positions; without one, a free site whose suite is abandoned. -/
def State.chooseSpare (s : State) (x : Part) (pos : Nat) : Option Nat :=
  let near := (List.range 4).filterMap fun d => (gridNext x.w x.h pos d).bind fun q => Tbl.get? x.posAtoll q
  let cost (g : Nat) : Nat := near.foldl (fun n t => n + s.siteCost g t) 0
  let free := (List.range 320).filter s.siteFree
  match leastSite cost (free.filter fun g => !(s.atoll g).suite) with
  | some g => some g
  | none => leastSite cost free

/-- Abandon the full-patrol suite of a site; it restarts later (R263). -/
def State.dropSuite (s : State) (g : Nat) : State :=
  (s.modAtoll g fun a => { a with suite := false }).modFlt fun f => { f with
    suites := f.suites.filter (· != g), suiteHome := Tbl.erase f.suiteHome g }

/-- Put position pos of partition p on site g as a new position (R324, R326). -/
def State.putPosition (s : State) (p pos g : Nat) : State :=
  match s.part? p with
  | none => s
  | some x => (((s.dropSuite g).takeAtoll g p x.split x.epoch).modPart p fun y =>
      { y with posAtoll := Tbl.set y.posAtoll pos g }).touchUnit (siteUnit g) p

/-- R324: positions lo to hi - 1 go home where the site is free, the others to the spares of R263, in ascending order. -/
def State.placeRange (s : State) (p lo hi : Nat) : State :=
  match s.part? p with
  | none => s
  | some x =>
    let poss := (List.range (hi - lo)).map fun i => lo + i
    let s1 := poss.foldl (fun t q =>
      let g := homeSite x.x0 x.y0 x.w q
      if t.siteFree g then t.putPosition p q g else t) s
    let s2 := poss.foldl (fun t q =>
      match t.part? p with
      | none => t
      | some y =>
        if (Tbl.get? y.posAtoll q).isSome then t
        else
          match t.chooseSpare y q with
          | some g => t.putPosition p q g
          | none => t) s1
    s2.remapPart p

/-- Every staging bank of a set is zero-filled. -/
def State.zeroBanks (s : State) (banks : BitVec 256) : State :=
  (List.range 256).foldl (fun t i =>
    if banks.getLsbD i then t.modShoal (i / 16) fun z => { z with
      staging := Mem.clear z.staging (i % 16 * 0x400000) 0x400000, stPoison := z.stPoison.filter fun w => w / 131072 != i % 16 }
    else t) s

/-- Directory entries that meet a test become `where` 0. -/
def State.dropEntries (s : State) (f : BitVec 128 → Bool) : State :=
  s.modMem fun m => { m with directory := m.directory.map fun e =>
    (e.1, if f e.2 then BitVec.ofNat 128 (setBits e.2.toNat 0 2 0) else e.2) }

/-- R327: a removed position: its atoll is reset, its bays are zero-filled, and the atoll is released. -/
def State.removePosition (s : State) (p pos : Nat) : State :=
  match s.atollAt p pos with
  | none => s
  | some g =>
    let s1 := (((s.beginAtollReset g).endAtollReset g).zeroAtoll g).releaseAtoll g
    (s1.modPart p fun x => { x with
      posAtoll := Tbl.erase x.posAtoll pos, migrations := x.migrations.filter fun m => m.position != pos,
      migrateWanted := x.migrateWanted.filter (· != pos), installer := Tbl.erase x.installer pos }).dropEntries fun e =>
      fld e 0 0 2 == 1 && fld e 1 0 5 == p && fld e 4 0 8 == pos

/-! ### Moving a position -/

/-- Rename atoll g to h in a waiter. -/
def Waiter.move (g h : Nat) : Waiter → Waiter
  | .core a c k => .core (if a = g then h else a) c k
  | .seq a u => .seq (if a = g then h else a) u
  | w => w

/-- A moved position's atoll record: everything but what belongs to the site. -/
def Atoll.movedTo (a site : Atoll) : Atoll :=
  { a with nbr := site.nbr, corrected := site.corrected, patrolFull := site.patrolFull, patrolGap := site.patrolGap,
           gapDone := site.gapDone, suite := false, frozen := false, epochDiscard := site.epochDiscard,
           flushDiscard := site.flushDiscard, ptDiscard := site.ptDiscard, chDiscard := site.chDiscard,
           destInReset := site.destInReset }

/-- Steps 4 and 5 of Table 10-4: position pos moves from its atoll to site h: state, objects, channels and queues move with it,
maps are switched, and the old site is released. -/
def State.movePosition (s : State) (p pos h : Nat) : State :=
  match s.atollAt p pos with
  | none => s
  | some g =>
    let old := s.atoll g
    let s1 := (s.dropSuite h).setAtoll h (old.movedTo (s.atoll h))
    let s2 := (s1.setAtoll g { Atoll.reset g with
      corrected := old.corrected, patrolFull := old.patrolFull, patrolGap := old.patrolGap, gapDone := old.gapDone,
      epochDiscard := old.epochDiscard, flushDiscard := old.flushDiscard, ptDiscard := old.ptDiscard,
      chDiscard := old.chDiscard, destInReset := old.destInReset }).modAtoll h fun a =>
      { a with waits := a.waits.map fun w => { w with who := w.who.move g h } }
    let s3 := s2.modMem fun m => { m with
      modWaits := m.modWaits.map (fun w => { w with who := w.who.move g h }),
      shoals := m.shoals.map fun z => (z.1, { z.2 with units := z.2.units.map fun u =>
        let mv (c : MemCmd) : MemCmd := if c.src = .port g then { c with src := .port h } else c
        (u.1, { queue := u.2.queue.map mv, cur := u.2.cur.map fun r => { r with cmd := mv r.cmd } }) }) }
    let moved (x : Part) : Part := { x with
      posAtoll := Tbl.set x.posAtoll pos h, migrations := x.migrations.filter fun m => m.position != pos,
      migrateWanted := x.migrateWanted.filter (· != pos),
      streams := x.streams.map fun e => (e.1, { e.2 with moved := e.2.moved ||| BitVec.ofNat 256 (2 ^ pos) }) }
    ((s3.modPart p moved).remapPart p).touchUnit (siteUnit h) p

end Sys2Proof.Machine
end

