-- ==== Sys2Proof/Machine/Partitions.lean ====
section
/-! DEFINITION. Partition and stream mailbox commands (13 R325-R332, Table 13-2), the catalogue writes (04 R97, 13 R330, R331), and
what a partition reset does (11 R280, Table 11-3). -/

namespace Sys2Proof.Machine

/-! ### Partition reset -/

/-- R345: a stream stops with PARTITION_IN_RESET at `done`; `retired` keeps its value; what it started is abandoned. -/
def Stream.resetStop (y : Stream) : Stream :=
  if ¬ y.open_ then y
  else
    let z := { y with waiting := [], started := [], finished := [] }
    if y.stopped then z
    else { z with stopped := true, status := BitVec.ofNat 16 mbInReset, causeKind := 0, stoppedAt := y.done, fieldOffset := 0xFFFF,
                  cause := 0, unitWord := 0, statusDue := true }

/-- Steps 1 and 2 of Table 11-3 and the start of step 3 on every atoll: streams stop, the step closes without rollback,
reconfigurations end (18 R428), migrations in pre-copy are given up. -/
def State.beginPartReset (s : State) (p : Nat) (abort : Bool) : State :=
  match s.part? p with
  | none => s
  | some x =>
    if x.inReset then s.modPart p fun y => { y with aborting := y.aborting || abort }
    else
      let s1 := s.modPart p fun y => { y with
        streams := y.streams.map fun e => (e.1, e.2.resetStop), inReset := true, aborting := abort, stepOpen := false,
        replaying := false, start := none, rollback := none, triggers := [], migrations := [], stalled := false, seqWatch := false,
        firstSymbol := none,
        migrateWanted := y.migrateWanted ++ ((y.migrations.filter fun m => !m.patrol && !y.migrateWanted.contains m.position).map
          fun m => m.position) }
      let s2 : State := { s1 with reconfs := s1.reconfs.filter fun r => r.part != p }
      x.posAtoll.foldl (fun t e => (t.modAtoll e.2 fun a => { a with aborting := false, frozen := false, reconf := none }).beginAtollReset
        e.2) (s2.modMem fun m => { m with modWaits := m.modWaits.filter fun w => match w.who with
          | .stream q _ _ => q != p
          | _ => true })

/-- R238: a slot that refuses every step: first_step 1, last_step 0. -/
def refusingSlots : Tbl (BitVec 384) := (List.range 16).map fun i => (i, 1)

/-- The collectives of a partition end with ABORTED; accumulators and early packets are discarded (Table 9-8). -/
def State.dropColls (s : State) (p : Nat) (tag : Word) : State :=
  let mine (k : Coll) : Bool := k.part == p
  let s1 := (s.coll.list.filter mine).foldl (fun t k => t.endColl k.key 13) s
  let s2 : State := { s1 with coll := { s1.coll with list := s1.coll.list.filter fun k => !mine k } }
  (List.range 6).foldl (fun t d => t.modStrait d fun y => { y with
    early := y.early.filter fun e => bits (leNat e.1.payload) 128 32 != tag.toNat }) s2

/-- Steps 4 and 5 of Table 11-3: windows close and stay reserved, module-level objects read 0, collectives end, update records are
cleared, the epoch counter is 0; notices of kind 6, and 5 for a job abort. -/
def State.endPartReset (s : State) (p : Nat) : State :=
  match s.part? p with
  | none => s
  | some x =>
    let s1 := (s.dropMem fun c => c.part == p).dropColls p x.jobTag
    let s2 := (s1.mem.windows.filter fun w => w.2.open_ && w.2.partition == p).foldl (fun t w => t.closeWindow w.1 true) s1
    let mine (o : Nat) : Bool := Tbl.get? s.mem.objOwner o == some p
    let s3 := s2.modMem fun m => { m with
      modObjs := m.modObjs.filter (fun e => !mine e.1), modWaits := m.modWaits.filter fun w => !mine w.obj }
    let s4 := s3.modPart p fun y => { y with
      inReset := false, aborting := false, epoch := 0, epochTimes := Tbl.set y.epochTimes 0 s.count, updSlots := refusingSlots,
      installer := [] }
    let s5 := (x.posAtoll.foldl (fun t e => t.modAtoll e.2 fun a => { a with epoch := 0 }) s4).notice p 6 0 0
    if x.aborting then s5.notice p 5 0 0 else s5

/-- R328: what a destroyed partition leaves: streams closed, positions and staging banks zero-filled and released, windows and
objects free, directory entries absent and records invalid. -/
def State.destroyPart (s : State) (p : Nat) : State :=
  match s.part? p with
  | none => s
  | some x =>
    let open_ := (x.streams.filter fun e => e.2.open_).map fun e => e.1
    let s1 := open_.foldl (fun t st => ((t.modPart p fun y => y.modStream st fun q => { q with open_ := false }).putStatus p st)) s
    let s2 := x.posAtoll.foldl (fun t e => (t.zeroAtoll e.2).releaseAtoll e.2) s1
    let mine (o : Nat) : Bool := Tbl.get? s.mem.objOwner o == some p
    let s3 := (s2.zeroBanks x.staging).modMem fun m => { m with
      windows := m.windows.map fun w =>
        if w.2.partition = p ∧ (w.2.open_ ∨ w.2.reserved) then
          (w.1, { w.2 with reserved := false, open_ := false, generation := w.2.generation + (if w.2.open_ then 1 else 0) }) else w,
      modObjs := m.modObjs.filter (fun e => !mine e.1), objOwner := m.objOwner.filter (fun e => e.2 != p),
      modWaits := m.modWaits.filter fun w => !mine w.obj,
      records := m.records.map fun r =>
        (r.1, if fld r.2 3 0 5 = p then BitVec.ofNat 512 (setBits r.2.toNat 0 1 0) else r.2) }
    let s4 := s3.dropEntries fun e => fld e 1 0 5 == p
    { s4 with parts := Tbl.erase s4.parts p }

/-! ### Ownership checks of Table 13-2 -/

/-- Unused DRAM ranges left out: (first, count) in 2 MiB units. -/
def payloadDram (r : BitVec 2048) : List (Nat × Nat) :=
  ((List.range 8).map fun i => (fld r (64 + 8 * i) 0 32, fld r (68 + 8 * i) 0 32)).filter fun e => e.2 != 0

/-- Whether two rectangles share a site. -/
def rectMeets (ax ay aw ah bx b_y bw bh : Nat) : Bool :=
  decide (ax < bx + bw) && decide (bx < ax + aw) && decide (ay < b_y + bh) && decide (b_y < ay + ah)

/-- Whether another partition than p owns part of a rectangle, of a bank set or of a range list, or a bank lies in the catalogue
region. -/
def State.resourcesTaken (s : State) (p x0 y0 w h : Nat) (banks : BitVec 256) (dram : List (Nat × Nat)) : Bool :=
  (s.parts.any fun e => e.1 != p &&
    (rectMeets x0 y0 w h e.2.x0 e.2.y0 e.2.w e.2.h || e.2.staging &&& banks != 0 ||
     e.2.dram.any fun a => dram.any fun b => decide (a.1 < b.1 + b.2) && decide (b.1 < a.1 + a.2))) ||
  (List.range 256).any fun i => banks.getLsbD i && s.bankInCat (i % 16)

/-- Positions of all partitions. -/
def State.positions (s : State) : Nat := s.parts.foldl (fun n e => n + e.2.w * e.2.h) 0

/-- Whether n more positions fit the active count and the free healthy sites. -/
def State.sitesFor (s : State) (n : Nat) : Bool :=
  decide (s.positions + n ≤ s.activeCount) && decide (n ≤ (List.range 320).countP s.siteFree)

/-- Positions of a partition away from home that no migration takes home. -/
def Part.away (x : Part) : Nat :=
  x.posAtoll.countP fun e => e.2 != homeSite x.x0 x.y0 x.w e.1 &&
    !(x.migrations.any fun m => m.position == e.1 && m.spare == homeSite x.x0 x.y0 x.w e.1)

/-- The result of a create or resize: positions, and positions placed on spares. -/
def State.placed (s : State) (p : Nat) : Nat := ((s.part? p).map fun x => x.w * x.h + x.away * 65536).getD 0

/-- PARTITION_CREATE (R326). -/
def execPartitionCreate (m : Fin 34) (s : State) : Host.Outcome State Fault Refusal :=
  s.mbRow m 0x300 fun c =>
    let r := c.img
    let p := mbPartition r
    let w := fld r 22 0 6 + 1
    let h := fld r 23 0 3 + 1
    let x0 := fld r 20 0 6
    let y0 := fld r 21 0 3
    let banks := BitVec.ofNat 256 (fld r 32 0 256)
    let dram := payloadDram r
    if (s.part? p).isSome ∨ s.resourcesTaken p x0 y0 w h banks dram then s.mbEnd m c mbBusy
    else if !s.sitesFor (w * h) then s.mbEnd m c mbNoResource
    else s.mbLong m c fun t c' =>
      let x : Part :=
        { jobTag := BitVec.ofNat 32 (fld r 16 0 32), x0 := x0, y0 := y0, w := w, h := h, split := flag r 24 0, staging := banks,
          dram := dram, posAtoll := [], epoch := 0, epochTimes := [(0, t.count)], inReset := false, aborting := false,
          stepOpen := false, replaying := false, step := 0, seed := 0, commitStep := 0, start := none,
          rollbacks := [], replayLimit := paramDefault 0x0A03, firstSymbol := none, stalled := false, seqWatch := false, triggers := [], rollback := none,
          migrations := [], migrateWanted := [], params := [], updSlots := refusingSlots, installer := [],
          streams := [], runtime := (t.fw.scalars.head?).getD 0 }
      let t1 := ({ t with parts := Tbl.set t.parts p x } : State).placeRange p 0 (w * h)
      t1.mbEnd m c' mbDone 0xFFFF (t1.placed p)

/-- R324: positions away from home start home by migration where the home site is healthy and free. -/
def State.sendHome (s : State) (p : Nat) : State :=
  match s.part? p with
  | none => s
  | some x => x.posAtoll.foldl (fun t e =>
      let g := homeSite x.x0 x.y0 x.w e.1
      if e.2 ≠ g ∧ t.siteFree g ∧ ¬ x.migrations.any (fun m => m.position == e.1) then
        t.modPart p fun y => { y with
          migrations := y.migrations ++ [{ position := e.1, source := e.2, spare := g, patrol := false, back := false }] }
      else t) s

/-- PARTITION_RESIZE (R327). -/
def execPartitionResize (m : Fin 34) (s : State) : Host.Outcome State Fault Refusal :=
  s.mbPartRow m 0x301 fun c p x =>
    let r := c.img
    let h := fld r 23 0 3 + 1
    let tag := BitVec.ofNat 32 (fld r 16 0 32)
    let banks := BitVec.ofNat 256 (fld r 32 0 256)
    let dram := payloadDram r
    let holds := (s.mem.windows.any fun w => w.2.open_ && w.2.partition == p) || s.mem.objOwner.any fun e => e.2 == p
    let added := x.w * h - x.w * x.h
    if x.inStep ∨ ¬ x.idle ∨ (tag ≠ x.jobTag ∧ holds) ∨ s.resourcesTaken p x.x0 x.y0 x.w h (banks &&& ~~~x.staging) dram then
      s.mbEnd m c mbBusy
    else if !s.sitesFor added then s.mbEnd m c mbNoResource
    else s.mbLong m c fun t c' =>
      let t1 := (List.range (x.w * x.h - x.w * h)).foldl (fun u i => u.removePosition p (x.w * h + i)) t
      let t2 := (t1.zeroBanks (x.staging &&& ~~~banks)).setSplit p (flag r 24 0)
      let t3 := (t2.modPart p fun y => { y with jobTag := tag, h := h, staging := banks, dram := dram }).placeRange p (x.w * x.h)
        (x.w * h)
      let t4 := (t3.remapPart p).sendHome p
      t4.mbEnd m c' mbDone 0xFFFF (t4.placed p)

/-- PARTITION_DESTROY (R328): the reset starts; PARTITION_RESET_DONE destroys the partition and completes the command. -/
def execPartitionDestroy (m : Fin 34) (s : State) : Host.Outcome State Fault Refusal :=
  s.mbPartRow m 0x302 fun c p _ => s.mbLong m c fun t _ => t.beginPartReset p false

/-! ### Streams -/

/-- STREAM_OPEN (R332): while a step is open `start` is the recorded index (R338). -/
def execStreamOpen (m : Fin 34) (s : State) : Host.Outcome State Fault Refusal :=
  s.mbPartRow m 0x303 fun c p x =>
    let r := c.img
    let st := fld r 16 0 2
    let size := fld r 18 0 5
    let ring := fld r 24 0 64
    let line := fld r 32 0 64
    let start := fld r 40 0 32
    let inRam := decide (ring < 0xF000000000) || (decide (0xF800000000 ≤ ring) && decide (ring < 0xF840000000))
    if (x.stream st).open_ then s.mbEnd m c mbBusy
    else if ¬ flag r 17 0 ∧ ¬ (inRam && s.reaches p ring (64 * 2 ^ size) false) then s.mbEnd m c mbOutOfRange 24
    else if ¬ flag r 17 1 ∧ ¬ s.reaches p line 64 true then s.mbEnd m c mbOutOfRange 32
    else
      (s.modPart p fun y =>
        { (y.modStream st fun _ => { Stream.reset with
            open_ := true, ringHost := flag r 17 0, statusHost := flag r 17 1, sizeLog2 := size, ring := BitVec.ofNat 64 ring,
            statusAddr := BitVec.ofNat 64 line, fetched := start, done := start, retired := start, statusDue := true }) with
          start := y.start.map fun z => { z with indices := Tbl.set z.indices st start } }).mbEnd m c mbDone

/-- Finish the closes of mailbox m whose streams have no started command. -/
def State.settleStreamCloses (s : State) (m : Nat) : State :=
  ((s.mbox m).running.filter fun c => mbOp c.img == 0x304).foldl (fun t c =>
    let p := mbPartition c.img
    let st := fld c.img 16 0 2
    match t.part? p with
    | none => t.mbEnd m c mbNoResource
    | some x =>
      if (x.stream st).started.isEmpty then
        (t.modPart p fun y => { (y.modStream st fun q => { q with open_ := false, closing := false, statusDue := true }) with
          installer := y.installer.filter fun e => e.2.1 != st }).mbEnd m c mbDone
      else t) s

/-- STREAM_CLOSE: fetching stops; the command completes when every started command has completed. -/
def execStreamClose (m : Fin 34) (s : State) : Host.Outcome State Fault Refusal :=
  .next (
    let s1 := match s.mbNext m fun c => mbOp c.img == 0x304 with
      | none => s
      | some c =>
        match s.part? (mbPartition c.img) with
        | none => s.mbEnd m c mbNoResource
        | some x =>
          let st := fld c.img 16 0 2
          let busy := (s.mbOnPart (mbPartition c.img)).any fun e =>
            e.2.accepted && mbOp e.2.img == 0x304 && fld e.2.img 16 0 2 == st
          if ¬ (x.stream st).open_ ∨ busy then s.mbEnd m c mbNoResource
          else s.mbLong m c fun t _ => t.modPart (mbPartition c.img) fun y => y.modStream st fun q =>
            { q with closing := true, waiting := [] }
    if s1.hubServes then s1.settleStreamCloses m else s1)

/-- STREAM_RESUME (R344). -/
def execStreamResume (m : Fin 34) (s : State) : Host.Outcome State Fault Refusal :=
  s.mbPartRow m 0x305 fun c p x =>
    let st := fld c.img 16 0 2
    let i := fld c.img 20 0 32
    let y := x.stream st
    if ¬ y.open_ ∨ ¬ y.stopped ∨ y.closing then s.mbEnd m c mbNoResource
    else
      (s.modPart p fun z => (z.modStream st fun q => { q with
        stopped := false, fetched := i, done := i, waiting := [], finished := [], status := 0, causeKind := 0, stoppedAt := 0,
        fieldOffset := 0xFFFF, cause := 0, unitWord := 0, statusDue := true }).retire st).mbEnd m c mbDone

/-! ### Catalogue (04 R97, R330, R331) -/

/-- Positions of list memory that a record's pairs take: first and count; none for inline pairs. -/
def recordList (r : BitVec 512) : Option (Nat × Nat) := if flag r 0 1 then some (fld r 4 0 18, fld r 2 0 8 + 1) else none

/-- Whether two unit ranges (first, count) overlap. -/
def rangeMeets (a b : Nat × Nat) : Bool := decide (a.1 < b.1 + b.2) && decide (b.1 < a.1 + a.2)

/-- Valid records of other partitions that keep pairs in list memory: their ranges. -/
def State.foreignLists (s : State) (p : Nat) : List (Nat × Nat) :=
  s.mem.records.filterMap fun e => if flag e.2 0 0 ∧ fld e.2 3 0 5 ≠ p then recordList e.2 else none

/-- R331: whether a catalogue write touches what a reconfiguration in progress names. -/
def State.catHeld (s : State) (r : BitVec 2048) : Bool :=
  let op := mbOp r
  s.reconfs.any fun k =>
    if op = 0x306 then k.pairs.any fun x => decide (fld r 16 0 16 ≤ x.2.1) && decide (x.2.1 < fld r 16 0 16 + fld r 18 0 8)
    else if op = 0x307 then k.record.toNat == fld r 16 0 16
    else
      k.record != 0x3FFF && ((recordList (Tbl.getD s.mem.records k.record.toNat 0)).map fun l =>
        rangeMeets l (fld r 16 0 32, fld r 20 0 8)).getD false

/-- Entry k of a DIRECTORY_WRITE. -/
def dirEntry (r : BitVec 2048) (k : Nat) : BitVec 128 := BitVec.ofNat 128 (fld r (24 + 16 * k) 0 128)

/-- DIRECTORY_WRITE, applied (R330). -/
def State.writeDirectory (s : State) (m : Nat) (c : MbCmd) (p : Nat) (bad : Option Nat) : State :=
  let r := c.img
  let first := fld r 16 0 16
  let n := fld r 18 0 8
  let es := (List.range n).map (dirEntry r)
  let foreign (i : Nat) : Bool :=
    let e := Tbl.getD s.mem.directory i 0
    fld e 0 0 2 != 0 && fld e 1 0 5 != p
  let inCat (e : BitVec 128) : Option (Nat × Nat) := if fld e 0 0 2 = 2 then some (fld e 8 0 29, fld e 2 0 11 * 32) else none
  let taken := s.mem.directory.filterMap fun e => if fld e.2 1 0 5 ≠ p then inCat e.2 else none
  let store (t : State) : State := (t.modMem fun q => { q with
    directory := es.zipIdx.foldl (fun d e => Tbl.set d (first + e.2) e.1) q.directory }).mbEnd m c mbDone
  if (List.range n).any (fun i => foreign (first + i)) ∨ es.any (fun e => ((inCat e).map fun a => taken.any (rangeMeets a)).getD false)
  then s.mbEnd m c mbBusy
  else
    match es with
    | [e] =>
      if fld e 0 0 2 = 2 then
        let src := fld r 40 0 64
        let len := fld e 2 0 11 * 32
        if !s.reaches p src len false then s.mbEnd m c mbOutOfRange 40
        else
          s.biThen [(src, len, false)] (fun t => t.mbEnd m c mbTimeout) fun t =>
            match (t.badWord (some p) bad).readMem (some p) src len with
            | (t1, st, _, bs) =>
              if st ≠ stOk then t1.mbEnd m c (if st = opSymbol then mbDataBad else stopStatus st) 40
              else store (t1.pwrite none (0xF900000000 + fld e 8 0 29) 0 bs).1
      else store s
    | _ => store s

/-- RECORD_WRITE, applied (R97). -/
def State.writeRecordCmd (s : State) (m : Nat) (c : MbCmd) (p : Nat) : State :=
  let n := fld c.img 16 0 16
  let r := BitVec.ofNat 512 (fld c.img 24 0 512)
  let old := Tbl.getD s.mem.records n 0
  if (flag old 0 0 ∧ fld old 3 0 5 ≠ p) ∨ ((recordList r).map fun l => (s.foreignLists p).any (rangeMeets l)).getD false then
    s.mbEnd m c mbBusy
  else (s.modMem fun q => { q with records := Tbl.set q.records n r }).mbEnd m c mbDone

/-- LIST_WRITE, applied. -/
def State.writeList (s : State) (m : Nat) (c : MbCmd) (p : Nat) : State :=
  let first := fld c.img 16 0 32
  let n := fld c.img 20 0 8
  if (s.foreignLists p).any (rangeMeets (first, n)) then s.mbEnd m c mbBusy
  else (s.modMem fun q => { q with
    listMem := (List.range n).foldl (fun d k => Tbl.set d (first + k) (BitVec.ofNat 32 (fld c.img (24 + 4 * k) 0 32))) q.listMem }).mbEnd
      m c mbDone

/-- A catalogue write of any of the three kinds, applied. -/
def State.catWrite (s : State) (m : Nat) (c : MbCmd) (p : Nat) (bad : Option Nat) : State :=
  if mbOp c.img = 0x306 then s.writeDirectory m c p bad
  else if mbOp c.img = 0x307 then s.writeRecordCmd m c p
  else s.writeList m c p

/-- A catalogue write: applied, or put in line until the reconfigurations that hold it end (R331). -/
def State.catRow (s : State) (m op : Nat) (bad : Option Nat) : Host.Outcome State Fault Refusal :=
  s.mbPartRow m op fun c p _ =>
    if s.mem.catWaiting.any fun e => e.1 == m && e.2.order == c.order then s
    else if s.catHeld c.img then s.modMem fun q => { q with catWaiting := q.catWaiting ++ [(m, c)] }
    else s.catWrite m c p bad

/-- DIRECTORY_WRITE: `bad` is the address of a source word that the read finds uncorrectable. -/
def execDirectoryWrite (m : Fin 34) (bad : Option Nat) (s : State) : Host.Outcome State Fault Refusal := s.catRow m 0x306 bad
/-- RECORD_WRITE. -/
def execRecordWrite (m : Fin 34) (s : State) : Host.Outcome State Fault Refusal := s.catRow m 0x307 none
/-- LIST_WRITE. -/
def execListWrite (m : Fin 34) (s : State) : Host.Outcome State Fault Refusal := s.catRow m 0x308 none

/-- CATALOGUE_WRITE_RELEASE (R331): the first held write that no reconfiguration holds any longer is applied. -/
def execCatalogueWriteRelease (s : State) : Host.Outcome State Fault Refusal :=
  .next (
    if ¬ s.hubServes then s
    else
      match s.mem.catWaiting.find? fun e => !s.catHeld e.2.img with
      | none => s
      | some (m, c) =>
        let s1 := s.modMem fun q => { q with catWaiting := q.catWaiting.filter fun e => !(e.1 == m && e.2.order == c.order) }
        match s.part? (mbPartition c.img) with
        | none => s1.mbEnd m c mbNoResource
        | some _ => s1.catWrite m c (mbPartition c.img) none)

/-! ### Module-level objects -/

/-- SYNC_ALLOC: a free run of objects, counts 0. -/
def execSyncAlloc (m : Fin 34) (s : State) : Host.Outcome State Fault Refusal :=
  s.mbPartRow m 0x30C fun c p _ =>
    let want := fld c.img 16 0 16
    let n := fld c.img 18 0 16
    let free (o : Nat) : Bool := decide (o + n ≤ 8192) && (List.range n).all fun i => (Tbl.get? s.mem.objOwner (o + i)).isNone
    match if want = 0xFFFF then (List.range 8192).find? free else if free want then some want else none with
    | none => s.mbEnd m c mbNoResource
    | some o =>
      let own (t : Tbl Nat) : Tbl Nat := (List.range n).foldl (fun t i => Tbl.set t (o + i) p) t
      let zero (t : Tbl Word) : Tbl Word := (List.range n).foldl (fun t i => Tbl.erase t (o + i)) t
      (s.modMem fun q => { q with objOwner := own q.objOwner, modObjs := zero q.modObjs }).mbEnd m c mbDone 0xFFFF o

/-- A waiter of an object that is freed returns -8. -/
def State.freeWaiter (s : State) (w : WaitEntry) : State :=
  match w.who with
  | .core g c _ =>
    match ((s.atoll g).core c).block with
    | .wait rd _ _ _ => (s.dropWaits g c).coreRet g c rd (negStatus 8)
    | _ => s
  | .stream p st idx =>
    (s.modMem fun m => { m with modWaits := m.modWaits.filter (· != w) }).completeCmd p st idx
      (.stop mbOutOfRange 2 0xFFF8 0xFFFF (negStatus 8))
  | .seq _ _ => s

/-- SYNC_FREE: every object must be owned; waiters return -8. -/
def execSyncFree (m : Fin 34) (s : State) : Host.Outcome State Fault Refusal :=
  s.mbPartRow m 0x30D fun c p _ =>
    let first := fld c.img 16 0 16
    let n := fld c.img 18 0 16
    if (List.range n).all fun i => s.ownsObj (some p) (first + i) then
      let hit (o : Nat) : Bool := decide (first ≤ o) && decide (o < first + n)
      let s1 := (s.mem.modWaits.filter fun w => hit w.obj).foldl State.freeWaiter s
      (s1.modMem fun q => { q with
        objOwner := q.objOwner.filter (fun e => !hit e.1), modObjs := q.modObjs.filter (fun e => !hit e.1) }).mbEnd m c mbDone
    else s.mbEnd m c mbNoResource

end Sys2Proof.Machine
end

