-- ==== Sys2Proof/Machine/Patrol.lean ====
section
/-! DEFINITION. Gap and full patrol with suspect reports (10 R253-R257), migration (R263, R264), the fence map (R260), the hub log
(R270, R271) and wear scores (R272, R273). -/

namespace Sys2Proof.Machine

/-- The record that a fence in site g names, for the notice of a position moved off it; 0 when no unit of it is fenced. -/
def State.siteSeq (s : State) (g : Nat) : Word :=
  (((s.flt.fenceQueue ++ s.flt.fenceMap).find? fun e => uAtoll e.unit == some g).map FenceEntry.recordSeq).getD 0

/-! ### Suspect reports and failing patrols -/

/-- Operations of the patrol registers of an atoll (Table 10-15): 0-3 matrix engines, 4-5 vector engines, 6 bank units. -/
def patrolIndex (u : Word) : Option Nat :=
  if uKind u = 1 ∧ uIndex u < 4 then some (uIndex u)
  else if uKind u = 2 ∧ uIndex u < 2 then some (4 + uIndex u)
  else if uKind u = 5 ∧ uIndex u = 1 then some 6
  else none

/-- Whether gap patrol tests a unit outside the atolls (R253): stream units, update engines, network interfaces. -/
def patrolBlock (u : Word) : Bool :=
  (uDieKind u == 1 && decide (uDie u < 16) && ((uKind u == 9 && decide (uIndex u < 4)) || uKind u == 10)) ||
    (uDieKind u == 2 && decide (uDie u < 6) && (uKind u == 10 || uKind u == 12))

/-- Local count of a unit's last passing patrol of a kind (R257). -/
def State.lastPatrol (s : State) (u : Word) (full : Bool) : DWord :=
  match uAtoll u with
  | some g =>
    if full then (s.atoll g).patrolFull
    else Tbl.getD (s.atoll g).patrolGap ((patrolIndex u).getD 7) 0
  | none => Tbl.getD s.flt.patrolLast u.toNat 0

/-- R257: issue the suspect report of a unit: kept by the hub (the last 64), posted to the admin mailbox and every partition it
lists, with a notice of kind 4 to each. -/
def State.suspect (s : State) (u : Word) (full : Bool) (seq : Word) : State :=
  let es := Tbl.getD s.flt.touch (touchKey u) []
  let r : Suspect :=
    { unit := u, full := full, reportId := s.flt.reportNext, since := s.lastPatrol u full, detected := s.count, recordSeq := seq,
      entries := es }
  let ps := ((es.map fun t => t.part).eraseDups).filter fun p => (s.part? p).isSome
  let s1 := s.modFlt fun f => { f with reportNext := f.reportNext + 1, suspects := f.suspects.drop (f.suspects.length - 63) ++ [r] }
  let s2 := s1.postEvent { type := 3, mailboxes := 0 :: ps.map (· + 1),
                           content := (r.head ++ ((es.take 5).map Touch.bytes).flatten) }
  ps.foldl (fun t p => t.notice p 4 0 seq r.reportId) s2

/-- Whether a patrol of unit u covers a residual class (Table 10-2): gap classes, and for the full suite those of an atoll too. -/
def State.residual (s : State) (u : Word) (full : Bool) : Bool :=
  match uAtoll u with
  | some g =>
    (patrolIndex u).isSome ||
      (full && (uKind u == 7 || uKind u == 6 || uKind u == 0 || (uKind u == 3 && (s.atoll g).split)))
  | none => uKind u == 9

/-- R256: a unit fails a patrol test: PATROL_FAIL, containment for its kind, and a suspect report for a residual class. -/
def State.patrolFail (s : State) (u : Word) (test : Nat) (word expected observed : Nat) (full : Bool) : State :=
  let seq := s.nextSeq u
  let res := s.residual u full
  let part := (uAtoll u).bind s.partOf
  let k := uKind u
  let fine := k = 1 ∨ k = 2 ∨ (k = 5 ∧ uIndex u = 1) ∨ k = 9
  let scope := if fine then 1 else if k = 7 then 6 else if uDieKind u = 0 then (if k = 5 then 3 else 2) else 7
  let act := actFenced + (if res then actSuspect else 0) +
    (if k = 1 ∨ k = 2 then actSibling + actReplaced else if uDieKind u = 0 ∧ k ≠ 7 ∧ ¬ (k = 5 ∧ uIndex u = 1) then actReplaced + actRolled
     else 0)
  let s1 := s.raise
    { unit := u, cls := clsPatrol, opKind := 7, opCode := test, part := part, scope := scope, actions := act,
      detail := [(32, b2n full), (33, test), (36, word), (40, expected), (48, observed),
                 (56, if res then s.flt.reportNext.toNat else 0xFFFF)] }
  let s2 := s1.contain u clsPatrol seq
  if res then s2.suspect u full seq else s2

/-! ### Gap patrol (R253) -/

/-- Whether an engine works on an operation now, and whether operations wait for it. -/
def State.patrolBusy (s : State) (u : Word) : Bool × Bool :=
  match uAtoll u with
  | some g =>
    let a := s.atoll g
    if uKind u = 1 then ((a.engine (uIndex u)).cur.isSome, !(a.engine (uIndex u)).queue.isEmpty)
    else if uKind u = 2 then ((a.vec (uIndex u)).cur.isSome, !(a.vec (uIndex u)).queue.isEmpty)
    else ((a.bankOps.head?.map fun o => o.outcome.isSome).getD false, !a.bankOps.isEmpty)
  | none =>
    if uKind u = 9 then ((s.sunit (uDie u) (uIndex u)).cur.isSome, !(s.sunit (uDie u) (uIndex u)).queue.isEmpty)
    else (false, s.coll.list.any fun c => c.running)

/-- A micro-test passes: once all 16 have, the engine's count of the last passing set is the local count. -/
def State.patrolPass (s : State) (u : Word) (test : Nat) : State :=
  match uAtoll u with
  | some g =>
    s.modAtoll g fun a =>
      let e := (patrolIndex u).getD 0
      let m := Tbl.getD a.gapDone e 0 ||| 2 ^ test
      if m = 0xFFFF then { a with gapDone := Tbl.set a.gapDone e 0, patrolGap := Tbl.set a.patrolGap e s.count }
      else { a with gapDone := Tbl.set a.gapDone e m }
  | none =>
    s.modFlt fun f =>
      let l := Tbl.getD f.patrolDone u.toNat []
      let l' := if l.contains test then l else l ++ [test]
      if l'.length ≥ 16 then { f with patrolDone := Tbl.erase f.patrolDone u.toNat, patrolLast := Tbl.set f.patrolLast u.toNat s.count }
      else { f with patrolDone := Tbl.set f.patrolDone u.toNat l' }

/-- Whether gap patrol reaches a unit: an engine that runs and is not fenced. -/
def State.patrols (s : State) (u : Word) : Bool :=
  s.running && !s.isFenced u &&
    match uAtoll u with
    | some g => (patrolIndex u).isSome && uSub u == 0x3FF && !(s.atoll g).inReset && !(s.atoll g).frozen && !(s.atoll g).suite
    | none => patrolBlock u

/-- One micro-test with its result. -/
def State.microtest (s : State) (u : Word) (test : Nat) (r : PatrolResult) : State :=
  match r with
  | .pass => s.patrolPass u test
  | .fail _ _ word expected observed => s.patrolFail u test word.toNat expected.toNat observed.toNat false

/-- GAP_PATROL_MICROTEST: in an engine that is idle. -/
def execGapPatrolMicrotest (unit : Word) (test : Fin 16) (r : PatrolResult) (s : State) : Host.Outcome State Fault Refusal :=
  .next (if s.patrols unit ∧ s.patrolBusy unit = (false, false) then s.microtest unit test r else s)

/-- GAP_PATROL_FORCED_SLOT: between two operations of an engine whose queue pauses. -/
def execGapPatrolForcedSlot (unit : Word) (test : Fin 16) (r : PatrolResult) (s : State) : Host.Outcome State Fault Refusal :=
  .next (if s.patrols unit ∧ (s.patrolBusy unit).1 = false then s.microtest unit test r else s)

/-! ### Migration (Table 10-4) -/

/-- Whether an operation is in flight in atoll g; operations that wait for fenced bank units are not (Table 10-5). -/
def State.opsInFlight (s : State) (g : Nat) : Bool :=
  let a := s.atoll g
  a.engines.any (fun e => e.2.cur.isSome) || a.vecs.any (fun e => e.2.cur.isSome) ||
    (!s.isFenced (bankUnits g) && !a.bankOps.isEmpty)

/-- Whether a partition is between the steps of a rollback, or has one coming. -/
def Part.rolling (x : Part) : Bool := x.rollback.isSome || !x.triggers.isEmpty

/-- Put a suite on site g. -/
def State.startSuite (s : State) (g : Nat) : State :=
  (s.modAtoll g fun a => { a with suite := true }).modFlt fun f => { f with suites := f.suites ++ [g] }

/-- R262: the bank operations that wait on fenced bank units end ABANDONED, and the fence escalates to the atoll. -/
def State.dropBankOps (s : State) (g : Nat) : State :=
  let ops := (s.atoll g).bankOps
  let s1 := s.modAtoll g fun a => { a with bankOps := [] }
  (ops.foldl (fun t o =>
    let b := bankCmd o.cmd
    let w := opWord 0 0 false false false opAbandoned b.ticket
    match o.src with
    | .core _ => if b.notify then t.signalAtoll g b.obj 1 else t
    | src => t.deliverOp g src 0 w b.notify b.obj) s1).escalateAtoll g clsTimeout 0

/-- MIGRATION_START (R263, R264): for a position that an engine-level fence moves; without a spare its waiting bank operations
escalate (R262). -/
def execMigrationStart (p : Fin 32) (pos : Fin 256) (s : State) : Host.Outcome State Fault Refusal :=
  .next (
    match s.part? p with
    | none => s
    | some x =>
      if ¬ s.hubRuns ∨ x.inReset ∨ x.rolling ∨ ¬ x.migrateWanted.contains pos.val ∨ x.migrations.any (fun m => m.position == pos.val)
      then s
      else
        match s.atollAt p pos with
        | none => s
        | some g =>
          match s.chooseSpare x pos with
          | none => if s.isFenced (bankUnits g) ∧ ¬ (s.atoll g).bankOps.isEmpty then s.dropBankOps g else s
          | some h => (s.dropSuite h).modPart p fun y =>
              { y with migrations := y.migrations ++ [{ position := pos, source := g, spare := h, patrol := false, back := false }] })

/-- Cache-mode bays of a site are flushed and every line of them dropped (Table 10-4 step 2). -/
def State.emptyCaches (s : State) (g : Nat) : State :=
  let s1 := ((List.range 24).filter fun b => (s.atoll g).bayCache.getLsbD b).foldl (fun t b => t.flushBay g b) s
  s1.modAtoll g fun a => { a with cache := [], plru := [] }

/-- MIGRATION_CUT_OVER (steps 3 to 6): the position runs on the spare. A spare that cannot take it any more gives way to the next
one, an escalation (Table 10-8). A freed site starts its suite. -/
def execMigrationCutOver (p : Fin 32) (pos : Fin 256) (s : State) : Host.Outcome State Fault Refusal :=
  .next (
    match s.part? p with
    | none => s
    | some x =>
      match x.migrations.find? fun m => m.position == pos.val, s.atollAt p pos with
      | some m, some g =>
        let held := s.reconfs.any fun r => r.part == p.val && r.epoch.isSome && r.pairs.any fun y => y.1 == pos.val
        let full := m.patrol && !m.back && decide (s.flt.suites.length ≥ s.param 0x0A02)
        if ¬ s.hubRuns ∨ ¬ s.unitRuns g ∨ x.rolling ∨ held ∨ full ∨ s.opsInFlight g then s
        else if ¬ s.siteHealthy m.spare ∨ (s.atoll m.spare).assigned then
          match s.chooseSpare x pos with
          | some h => ((s.dropSuite h).modPart p fun y => { y with
              migrations := y.migrations.map fun k => if k.position == pos.val then { k with spare := h } else k }).escalate 0
          | none => (s.modPart p fun y => { y with migrations := y.migrations.filter fun k => k.position != pos.val }).escalate 0
        else
          let s1 := (s.emptyCaches g).movePosition p pos m.spare
          if m.patrol then
            if m.back then s1
            else (s1.startSuite g).modFlt fun f => { f with suiteHome := Tbl.set f.suiteHome g (p, pos) }
          else s1.notice p 2 0 (s.siteSeq g)
      | _, _ => s)

/-! ### Full patrol (R254, R255) -/

/-- FULL_PATROL: a site that carries no position runs its suite in place; a position moves to a free spare first; without one it
freezes, and the suite runs in place. -/
def execFullPatrol (g : Fin 320) (s : State) : Host.Outcome State Fault Refusal :=
  .next (
    if ¬ s.hubRuns ∨ ¬ s.running ∨ ¬ s.siteHealthy g ∨ (s.atoll g).suite ∨ s.isSpare g ∨ s.flt.suites.length ≥ s.param 0x0A02 then s
    else
      match s.positionOf g with
      | none => s.startSuite g
      | some (p, pos) =>
        match s.part? p with
        | none => s
        | some x =>
          if x.inReset ∨ x.rolling ∨ (s.atoll g).inReset ∨ x.migrations.any (fun m => m.position == pos) then s
          else
            match (s.chooseSpare x pos).filter fun h => !(s.atoll h).suite with
            | some h => s.modPart p fun y =>
                { y with migrations := y.migrations ++ [{ position := pos, source := g, spare := h, patrol := true, back := false }] }
            | none =>
              if s.opsInFlight g then s else (s.startSuite g).modAtoll g fun a => { a with frozen := true })

/-- The position that left site g for its suite starts home. -/
def State.suiteReturn (s : State) (g : Nat) : State :=
  match Tbl.get? s.flt.suiteHome g with
  | none => s
  | some (p, pos) =>
    let s1 := s.modFlt fun f => { f with suiteHome := Tbl.erase f.suiteHome g }
    match s1.part? p, s1.atollAt p pos with
    | some x, some h =>
      if s1.siteFree g ∧ ¬ x.inReset ∧ ¬ x.migrations.any (fun m => m.position == pos) then
        s1.modPart p fun y =>
          { y with migrations := y.migrations ++ [{ position := pos, source := h, spare := g, patrol := true, back := true }] }
      else s1
    | _, _ => s1

/-- R257: the log of a site starts again at its passing full patrol; a position it carries is touched anew. -/
def State.clearTouch (s : State) (g : Nat) : State :=
  let s1 := s.modFlt fun f => { f with touch := Tbl.erase f.touch (siteUnit g).toNat }
  match s.partOf g with
  | some p => s1.touchUnit (siteUnit g) p
  | none => s1

/-- R255, R272: the raised run of a passing suite counts toward the site's patrol margin; a failure there
re-plans every region at once (15 R383). -/
def State.patrolMargin (s : State) (g : Nat) (raised : PatrolResult) : State :=
  let miss := raised != .pass
  let u := siteUnit g
  let s1 := s.modFlt fun f =>
    let w := Tbl.getD f.wear u.toNat Wear.zero
    { f with wear := Tbl.set f.wear u.toNat { w with patrols := w.patrols.drop (w.patrols.length - 9) ++ [miss] } }
  if miss then allRegions.foldl (fun t k => t.replan k) s1 else s1

/-- FULL_PATROL_COMPLETE. -/
def execFullPatrolComplete (g : Fin 320) (atStep raised : PatrolResult) (s : State) : Host.Outcome State Fault Refusal :=
  .next (
    if ¬ s.running ∨ ¬ s.flt.suites.contains g.val then s
    else
      let s1 := (s.modAtoll g fun a => { a with suite := false, frozen := false }).modFlt fun f =>
        { f with suites := f.suites.filter (· != g.val) }
      match atStep with
      | .pass =>
        let s2 := s1.modAtoll g fun a => { a with patrolFull := s.count }
        ((s2.clearTouch g).patrolMargin g raised).suiteReturn g
      | .fail unit test word expected observed =>
        let u := if uAtoll unit = some g.val then unit else siteUnit g
        (s1.patrolFail u test.toNat word.toNat expected.toNat observed.toNat true).modFlt fun f =>
          { f with suiteHome := Tbl.erase f.suiteHome g })

/-! ### The fence map (R260) -/

/-- The sites with more than one entry in a fence map. -/
def crowdedSites (m : List FenceEntry) : List Nat :=
  ((m.filterMap fun e => uAtoll e.unit).eraseDups).filter fun g => decide (1 < m.countP fun e => uAtoll e.unit == some g)

/-- Entries of more than one unit of an atoll collapse into one entry for the atoll, where the first of them stood. -/
def collapseMap (m : List FenceEntry) : List FenceEntry :=
  (crowdedSites m).foldl (fun m g =>
    match m.find? fun e => uAtoll e.unit == some g with
    | none => m
    | some e =>
      let i := m.findIdx fun e => uAtoll e.unit == some g
      (m.take i).filter (fun e => uAtoll e.unit != some g) ++ [{ e with unit := siteUnit g }] ++
        (m.drop i).filter (fun e => uAtoll e.unit != some g)) m

/-- FENCE_MAP_WRITE: the oldest fence not yet in the map is written; a full map takes the module out of service. -/
def execFenceMapWrite (s : State) : Host.Outcome State Fault Refusal :=
  .next (
    match s.flt.fenceQueue with
    | [] => s
    | e :: rest =>
      if ¬ s.clocked then s
      else
        let m := s.flt.fenceMap.filter fun x => x.unit != e.unit
        let m1 := if m.length < 2048 then m ++ [e]
          else
            let c := collapseMap (m ++ [e])
            if c.length ≤ 2048 then c else m
        let kept := m1.any fun x => x.unit == e.unit || (uAtoll x.unit == uAtoll e.unit && (uAtoll e.unit).isSome)
        let s1 := s.modFlt fun f => { f with fenceQueue := rest, fenceMap := m1, fenceGen := f.fenceGen + 1 }
        if kept ∨ s.flt.outOfService then s1
        else ((s1.modFlt fun f => { f with outOfService := true }).floodAll 3 true e.recordSeq |>.noticeAll 7 e.recordSeq).askReset false)

/-! ### The hub log (R270, R271) -/

/-- Put a record into a log of 4,096: a full one overwrites its oldest record without `fenced`, `rolled_back` or `fatal`, else
its oldest. -/
def logPut (l : List (Nat × ErrRec)) (n : Nat) (r : ErrRec) : List (Nat × ErrRec) :=
  if l.length < 4096 then l ++ [(n, r)]
  else
    let keep (e : Nat × ErrRec) : Bool := bits e.2.actions 1 1 == 1 || bits e.2.actions 4 1 == 1 || bits e.2.actions 9 1 == 1
    match l.find? fun e => !keep e with
    | some e => l.filter (fun x => x.1 != e.1) ++ [(n, r)]
    | none => l.drop 1 ++ [(n, r)]

/-- FAULT_COLLECTOR_DRAIN: the oldest record of a die's ring goes to the hub log. -/
def execFaultCollectorDrain (node : Fin 32) (s : State) : Host.Outcome State Fault Refusal :=
  .next (
    let c := s.collector node
    match c.ring with
    | [] => s
    | r :: rest =>
      if ¬ s.hubRuns then s
      else s.modFlt fun f => { f with collectors := Tbl.set f.collectors node { c with ring := rest },
                                      log := logPut f.log f.logNext r, logNext := f.logNext + 1 })

/-- COALESCE_RELEASE: with room in the ring, the first coalesce entry leaves as its first record and its last. -/
def execCoalesceRelease (node : Fin 32) (s : State) : Host.Outcome State Fault Refusal :=
  .next (
    let c := s.collector node
    match c.coal with
    | [] => s
    | e :: rest =>
      if ¬ s.clocked ∨ c.ring.length + 2 > 64 then s
      else
        let last := { e.last with actions := setBits e.last.actions 10 1 1, coalesce := BitVec.ofNat 32 (min e.count 0xFFFFFFFF) }
        s.modFlt fun f => { f with collectors := Tbl.set f.collectors node { c with ring := c.ring ++ [e.first, last], coal := rest } })

/-! ### Wear scores (R272, R273) -/

/-- Points of Table 10-12 for a unit. -/
def State.wearPoints (s : State) (u : Word) (w : Wear) : Nat :=
  let day (l : List DWord) : Nat := (lastDay s.count l).length
  min 1000 (min 300 (day w.corrected / 10) + min 200 (day w.retries / 100) + min 200 (20 * day w.retrains) +
    min 300 (30 * w.patrols.countP fun b => b) + min 300 (3 * s.windowUse (regionKey u)))

/-- WEAR_SCORE_UPDATE. -/
def execWearScoreUpdate (s : State) : Host.Outcome State Fault Refusal :=
  .next (
    if ¬ s.hubRuns then s
    else s.modFlt fun f => { f with wear := scoredUnits.foldl (fun t u =>
      let w := Tbl.getD t u.toNat Wear.zero
      let n := s.wearPoints u w
      if w = Wear.zero ∧ n = 0 then t
      else Tbl.set t u.toNat { w with corrected := lastDay s.count w.corrected, retries := lastDay s.count w.retries,
                                      retrains := lastDay s.count w.retrains, score := n }) f.wear })

/-- WEAR_CHECKPOINT. -/
def execWearCheckpoint (s : State) : Host.Outcome State Fault Refusal :=
  .next (if s.hubRuns then s.modFlt fun f => { f with wearCheckpoint := f.wear } else s)

end Sys2Proof.Machine
end

