-- ==== Sys2Proof/Machine/Rollback.lean ====
section
/-! DEFINITION. Step rollback and re-placement (10 R265-R268, Table 10-7; 13 R341, R342), and the watchdogs that cause them
(11 R284, Table 11-5). -/

namespace Sys2Proof.Machine

/-! ### Starting a rollback -/

/-- Positions of a trigger list whose atoll has to be replaced: their site is not healthy. -/
def State.replaced (s : State) (p : Nat) (ts : List Trigger) : List Nat :=
  ((ts.filterMap fun t => t.position).eraseDups).filter fun q => match s.atollAt p q with
    | some g => !s.siteHealthy g
    | none => false

/-- Step 2 of Table 10-7 for everything of a partition but its atolls: DMA ends ABANDONED, the streams' started commands and
reconfigurations end, waiters of SYNC commands go. -/
def State.abortPart (s : State) (p : Nat) : State :=
  let s1 := s.dropMem fun c => c.part == p
  let s2 : State := { s1 with reconfs := s1.reconfs.filter fun r => r.part != p }
  (s2.modMem fun m => { m with modWaits := m.modWaits.filter fun w => match w.who with
    | .stream q _ _ => q != p
    | _ => true }).modPart p fun x => { x with
      streams := x.streams.map fun e => (e.1, { e.2 with waiting := [], started := [], finished := [] }) }

/-- Step abort of a list of atolls. -/
def State.abortAtolls (s : State) (gs : List Nat) : State := gs.foldl (fun t g => if (t.atoll g).inReset then t else t.abortAtoll g) s

/-- The migrations that a rollback takes over: an atoll-level fault in a migrating source moves to the same spare, an escalation
(Table 10-8). -/
def State.takeSpares (s : State) (p : Nat) (rep : List Nat) (seq : Word) : State × Tbl Nat :=
  match s.part? p with
  | none => (s, [])
  | some x =>
    let ms := x.migrations.filter fun m => rep.contains m.position
    let s1 := ms.foldl (fun t _ => t.escalate seq) s
    (s1.modPart p fun y => { y with
      migrations := y.migrations.filter fun m => !rep.contains m.position && (!m.patrol || m.back) },
     ms.foldl (fun t m => Tbl.set t m.position m.spare) [])

/-- What each position carries: its descriptor number and record. -/
def State.descsOf (s : State) (x : Part) : Tbl (Nat × Nat) :=
  (x.posAtoll.filter fun e => (s.atoll e.2).descValid).map fun e =>
    (e.1, (s.atoll e.2).descriptor.toNat, (s.atoll e.2).record.toNat)

/-- R267: the mailbox status with which a rollback stops its partition's streams instead of replaying; none when it replays. -/
def Part.rollbackStop (x : Part) (ts : List Trigger) : Option Nat :=
  let n := Tbl.getD x.rollbacks x.step.toNat 0 + 1
  let sameWord := ts.any fun t => t.cls == clsUncorrectable && t.addr.isSome && t.addr == x.firstSymbol
  if n ≥ x.replayLimit ∨ sameWord then some mbFenced
  else if (x.stalled ∧ ts.any fun t => t.cls == clsStall) ∨ (x.seqWatch ∧ ts.any fun t => t.seqWatch) then some mbTimeout
  else none

/-- Steps 1 and 2 of Table 10-7 for a step (R265, R267). -/
def State.beginRollback (s : State) (p : Nat) (x : Part) (c : Trigger) : State :=
  let ts := x.triggers
  let rep := s.replaced p ts
  let stop := x.rollbackStop ts
  let descs := s.descsOf x
  let sym := (ts.find? fun t => t.cls == clsUncorrectable && t.addr.isSome).bind fun t => t.addr
  let (s1, spares) := s.takeSpares p rep c.recordSeq
  let s2 := (s1.abortPart p).abortAtolls (x.posAtoll.map fun e => e.2)
  s2.modPart p fun y => { y with
    triggers := [],
    rollbacks := Tbl.set y.rollbacks y.step.toNat (Tbl.getD y.rollbacks y.step.toNat 0 + 1),
    firstSymbol := match y.firstSymbol with
      | some a => some a
      | none => sym,
    stalled := y.stalled || ts.any (fun t => t.cls == clsStall), seqWatch := y.seqWatch || ts.any (fun t => t.seqWatch),
    rollback := some { replace := rep, spares := spares, outside := false, stop := stop, cause := c, descs := descs } }

/-- R342: a trigger outside a step: every running stream stops with FENCED, and a fenced position is re-placed. -/
def State.beginOutside (s : State) (p : Nat) (x : Part) (c : Trigger) : State :=
  let rep := s.replaced p x.triggers
  let descs := (s.descsOf x).filter fun e => rep.contains e.1
  let (s1, spares) := (s.stopAllFenced p c.cls.toNat c.recordSeq).takeSpares p rep c.recordSeq
  let s2 := s1.abortAtolls (rep.filterMap fun q => s.atollAt p q)
  s2.modPart p fun y => { y with
    triggers := [],
    rollback := if rep.isEmpty then none
      else some { replace := rep, spares := spares, outside := true, stop := none, cause := c, descs := descs } }

/-- A trigger during a rollback joins it (Table 10-8). -/
def State.joinRollback (s : State) (p : Nat) (x : Part) (r : Rollback) : State :=
  let rep := (s.replaced p x.triggers).filter fun q => !r.replace.contains q
  let (s1, spares) := s.takeSpares p rep r.cause.recordSeq
  let s2 := if r.outside then s1.abortAtolls (rep.filterMap fun q => s.atollAt p q) else s1
  s2.modPart p fun y => { y with
    triggers := [],
    rollback := some { r with replace := r.replace ++ rep, spares := spares.foldl (fun t e => Tbl.set t e.1 e.2) r.spares,
                              descs := if r.outside then (s.descsOf x).foldl (fun t e =>
                                if rep.contains e.1 then Tbl.set t e.1 e.2 else t) r.descs else r.descs } }

/-- STEP_ROLLBACK: the notices that have reached a partition's stream processor. -/
def execStepRollback (p : Fin 32) (s : State) : Host.Outcome State Fault Refusal :=
  .next (
    match s.part? p with
    | none => s
    | some x =>
      match x.triggers with
      | [] => s
      | c :: _ =>
        if ¬ s.hubRuns ∨ ¬ s.running ∨ x.inReset then s
        else
          match x.rollback with
          | some r => if r.outside ∧ x.inStep then s else s.joinRollback p x r
          | none => if x.inStep then s.beginRollback p x c else s.beginOutside p x c)

/-- STEP_ABORT_STALL (R279): an atoll that has not stopped within 50 µs of a step abort is reset; one counted TIMEOUT record, and
at the reset limit the site is fenced with that record's class and number (R289). -/
def execStepAbortStall (g : Fin 320) (s : State) : Host.Outcome State Fault Refusal :=
  .next (
    match s.positionOf g with
    | none => s
    | some (p, _) =>
      if ¬ s.running ∨ ¬ (s.atoll g).aborting ∨ (s.atoll g).inReset ∨ ((s.part? p).bind Part.rollback).isNone then s
      else
        let u := siteUnit g
        let seq := s.nextSeq u
        let s1 := (s.raise { unit := u, cls := clsTimeout, part := some p, scope := 2, actions := actCounted, detail := [(32, 0)] }).modFlt
          fun f => { f with atollResets := f.atollResets ++ [(g.val, s.count)] }
        let n := s1.flt.atollResets.countP fun e => e.1 == g.val && decide (ageOf s.count e.2 < s.param 0x0B04 * 6000000000)
        let s2 := s1.beginAtollReset g
        if n ≥ s.param 0x0B03 then s2.fenceAtoll g u clsTimeout seq else s2)

/-! ### Re-placement and restart -/

/-- Poison every line of a position whose lagoon its site can no longer read: a dark memory-arrays or links region (15 Table 15-2). -/
def State.poisonDark (s : State) (g h : Nat) : State :=
  let dark := (s.region (g / 40 * 16 + 10 + g % 40 / 20)).gone || (s.region (g / 40 * 16 + 12)).gone
  if dark then s.modAtoll h fun a => { a with
    lagoon := [], lineMeta := (List.range 196608).map fun l => (l, { LineMeta.reset with poison := 0xF }) }
  else s

/-- Re-place position q on a spare (step 4): the spare its migration headed for while that is good, else the one R263 chooses;
none when there is no spare. -/
def State.replacePosition (s : State) (p q : Nat) (want : Option Nat) : Option State :=
  match s.part? p, s.atollAt p q with
  | some x, some g =>
    match (want.filter s.siteFree).orElse fun _ => s.chooseSpare x q with
    | none => none
    | some h => some (((s.emptyCaches g).movePosition p q h).poisonDark g h |>.notice p 2 0 (s.siteSeq g))
  | _, _ => none

/-- Re-place a list of positions; also whether each found a spare. -/
def State.replaceAll (s : State) (p : Nat) (r : Rollback) : State × Bool :=
  r.replace.foldl (fun (a : State × Bool) q =>
    match a.1.atollAt p q with
    | none => a
    | some g =>
      if a.1.siteHealthy g then a
      else
        match a.1.replacePosition p q (Tbl.get? r.spares q) with
        | some t => (t, a.2)
        | none => (a.1, false)) (s, true)

/-- Step 3: an atoll reinstalls its descriptor in flush mode under an epoch and ends HELD; one without stays UNCONFIGURED. -/
def State.reinstall (s : State) (p q : Nat) (descs : Tbl (Nat × Nat)) (e : BitVec 4) : State :=
  match s.atollAt p q, Tbl.get? descs q with
  | some g, some (n, rec) =>
    ((s.modAtoll g fun a => { a with tess := .loading }).loadDesc g (Tbl.getD s.mem.directory n 0) n (BitVec.ofNat 14 rec) e true
      none).1
  | some g, none => (s.sendEpochs g e).modAtoll g fun a => { a with epoch := e }
  | none, _ => s

/-- Table 5-11, step rollback: rings are emptied, outstanding counts return to 0 and `seq` to its value at step begin. -/
def State.restoreChannels (s : State) (p q : Nat) (st : StepStart) : State :=
  match s.atollAt p q with
  | none => s
  | some g =>
    let fix (c : Nat) (k : Core) : Core := { k with
      handles := k.handles.map fun h =>
        (h.1, if h.2.send then { h.2 with out := 0, seq := Tbl.getD st.chanSeq (q * 128 + c * 64 + h.1) 0 } else h.2),
      ports := k.ports.map fun e => (e.1, { e.2 with msgs := [] }) }
    s.modAtoll g fun a => (a.modCore 0 (fix 0)).modCore 1 (fix 1)

/-- R338, R341: the counts of a partition's objects return to their values at step begin. -/
def State.restoreObjects (s : State) (p : Nat) (x : Part) (st : StepStart) : State :=
  let s1 := x.posAtoll.foldl (fun t e => t.modAtoll e.2 fun a => { a with objs := Tbl.getD st.atollObjs e.1 [] }) s
  s1.modMem fun m => { m with
    modObjs := st.moduleObjs.foldl (fun t e => Tbl.set t e.1 e.2) (m.modObjs.filter fun e => Tbl.get? m.objOwner e.1 != some p) }

/-- Senders whose close waited on messages of an emptied ring complete it. -/
def State.settleAll (s : State) (p : Nat) (x : Part) : State :=
  x.posAtoll.foldl (fun t e => [0, 1].foldl (fun t c =>
    ((t.atoll e.2).core c).handles.foldl (fun t h => if h.2.closing then t.settleClose p e.2 c h.1 else t) t) t) s

/-- Steps 7 and 8 of Table 4-13 for one atoll: HELD ends. -/
def Atoll.goes (a : Atoll) : Atoll :=
  let b := { a with aborting := false }
  if a.tess = .held then
    { b with tess := .running, goSent := false,
             seqs := b.seqs.map fun e => (e.1, if e.2.state = .held then { e.2 with state := .running } else e.2) }
  else b

/-- R341: every stream returns to its recorded index, and the step closes; `replaying` when it is to run again. -/
def Part.rewind (x : Part) (replay : Bool) : Part :=
  let idx := ((x.start.map fun st => st.indices).getD [])
  { x with
    stepOpen := false, replaying := replay, start := if replay then x.start else none, rollback := none,
    streams := x.streams.map fun e =>
      (e.1, if e.2.open_ then
          let i := Tbl.getD idx e.1 e.2.done
          { e.2 with fetched := i, done := i, waiting := [], started := [], finished := [], statusDue := true }
        else e.2) }

/-- R267: every running stream stops without replaying; a stop with FENCED is job-fatal (R293). -/
def State.stopReplay (s : State) (p : Nat) (status : Nat) (c : Trigger) : State :=
  match s.part? p with
  | none => s
  | some x =>
    let s1 := (List.range 4).foldl (fun t st => t.stopStream p st status 3 (x.stream st).done 0xFFFF c.cls.toNat 0 c.recordSeq) s
    if status = mbFenced ∧ x.jobTag ≠ 0 then s1.flood x.jobTag 2 false x.step c.recordSeq else s1

/-- Steps 3 to 5 of Table 10-7 for a step under epoch e. -/
def State.finishRollback (s : State) (p : Nat) (x : Part) (r : Rollback) (e : BitVec 4) : State :=
  let st := x.start.getD { indices := [], atollObjs := [], moduleObjs := [], chanSeq := [] }
  let s1 := s.modPart p fun y => { y with epoch := e, epochTimes := Tbl.set y.epochTimes e.toNat s.count }
  let (s2, placed) := s1.replaceAll p r
  let poss := x.posAtoll.map fun k => k.1
  let s3 := poss.foldl (fun t q => t.reinstall p q r.descs e) s2
  let s4 := poss.foldl (fun t q => t.restoreChannels p q st) s3
  match s4.part? p with
  | none => s4
  | some y =>
    let s5 := (s4.restoreObjects p y st).settleAll p y
    let stop := match r.stop with
      | some k => some k
      | none => if placed then none else some mbFenced
    match stop with
    | none =>
      (y.posAtoll.foldl (fun t k => t.modAtoll k.2 Atoll.goes) s5).modPart p (fun z => z.rewind true) |>.notice p 1 0 r.cause.recordSeq
    | some k =>
      ((y.posAtoll.foldl (fun t k => t.modAtoll k.2 fun a => { a with aborting := false }) s5).modPart p fun z =>
        z.rewind false).stopReplay p k r.cause

/-- Re-placement outside a step (R342): the spare installs the position's descriptor under the partition's epoch and runs. -/
def State.finishOutside (s : State) (p : Nat) (x : Part) (r : Rollback) : State :=
  let (s1, _) := s.replaceAll p r
  let one (t : State) (q : Nat) : State :=
    match (t.reinstall p q r.descs x.epoch).atollAt p q with
    | some g => (t.reinstall p q r.descs x.epoch).modAtoll g Atoll.goes
    | none => t
  (r.replace.foldl one s1).modPart p fun y => { y with rollback := none }

/-- ROLLBACK_RESTART: once no atoll of the partition is in reset, no further trigger waits, and the next epoch value was last
assigned at least 4 µs ago (R99). -/
def execRollbackRestart (p : Fin 32) (s : State) : Host.Outcome State Fault Refusal :=
  .next (
    match s.part? p with
    | none => s
    | some x =>
      match x.rollback with
      | none => s
      | some r =>
        let e := x.epoch + 1
        let ready := (Tbl.get? x.epochTimes e.toNat).isNone ∨ s.count.toNat - (Tbl.getD x.epochTimes e.toNat 0).toNat ≥ 400
        if ¬ s.hubRuns ∨ ¬ s.running ∨ x.inReset ∨ ¬ x.triggers.isEmpty ∨ x.posAtoll.any (fun k => (s.atoll k.2).inReset) then s
        else if r.outside then s.finishOutside p x r
        else if ready then s.finishRollback p x r e
        else s)

/-! ### Unit watchdogs (Table 11-5) -/

/-- VECTOR_ENGINE_WATCHDOG: vector engine 0 or 1, or the bank units (2). -/
def execVectorEngineWatchdog (g : Fin 320) (w : Fin 3) (s : State) : Host.Outcome State Fault Refusal :=
  .next (
    if ¬ s.unitRuns g then s
    else if w.val < 2 then (if s.isFenced (vecUnit g w) then s else s.vecWatchdog g w)
    else
      match (s.atoll g).bankOps with
      | [] => s
      | o :: _ =>
        if s.isFenced (bankUnits g) then s
        else
          let u := bankUnits g
          let seq := s.nextSeq u
          (s.raise { unit := u, cls := clsTimeout, opKind := 3, opCode := (bankCmd o.cmd).op, part := s.partOf g, scope := 1,
                     actions := actFenced + actReplaced, detail := [(32, 0)] }).contain u clsTimeout seq)

/-- SCALAR_WATCHDOG: a core that runs and waits on nothing retires nothing for 1 ms. -/
def execScalarWatchdog (g : Fin 320) (core : Fin 2) (s : State) : Host.Outcome State Fault Refusal :=
  .next (
    let k := (s.atoll g).core core
    if ¬ s.unitRuns g ∨ ¬ k.running ∨ k.block ≠ .none ∨ (¬ (s.atoll g).split ∧ core.val = 1) then s
    else
      let u := s.coreUnit g core
      let seq := s.nextSeq u
      (s.raise { unit := u, cls := clsTimeout, opKind := 9, part := s.partOf g, scope := 2,
                 actions := actFenced + actReplaced + actRolled, detail := [(32, 0)] }).fenceAtoll g u clsTimeout seq)

/-- SEQ_WAIT_WATCHDOG: a sequencer in WAIT_SYNC: nothing is fenced, and the step rolls back. -/
def execSeqWaitWatchdog (g : Fin 320) (u : Fin 6) (s : State) : Host.Outcome State Fault Refusal :=
  .next (
    match ((s.atoll g).seq u).block, s.positionOf g with
    | .sync _ _, some (p, _) =>
      if ¬ s.unitRuns g then s
      else
        let un := seqUnit g u
        let seq := s.nextSeq un
        (s.raise { unit := un, cls := clsTimeout, part := some p, actions := actRolled, detail := [(32, 8)] }).trigger p
          { cls := clsTimeout, addr := none, position := none, recordSeq := seq, seqWatch := true }
    | _, _ => s)

/-- BLOCK_WATCHDOG: a stream unit with a command, or an update engine or network interface with a collective, makes no progress
for 10 ms. -/
def execBlockWatchdog (unit : Word) (s : State) : Host.Outcome State Fault Refusal :=
  .next (
    let cur := if uKind unit = 9 then (s.sunit (uDie unit) (uIndex unit)).cur else none
    let busy := if uKind unit = 9 then cur.isSome else s.coll.list.any fun c => c.running
    if ¬ s.running ∨ ¬ patrolBlock unit ∨ s.isFenced unit ∨ ¬ busy then s
    else
      let seq := s.nextSeq unit
      let fine := uKind unit == 9
      (s.raise { unit := unit, cls := clsTimeout, opKind := if fine then 4 else 6,
                 opCode := (cur.map fun r => fld r.cmd.img 0 0 8).getD 0, part := cur.map fun r => r.cmd.part,
                 scope := if fine then 1 else 7, actions := if fine then actFenced else actFenced + actRolled,
                 detail := [(32, 0)] }).contain unit clsTimeout seq)

end Sys2Proof.Machine
end

