-- ==== Sys2Proof/Machine/Hubs.lean ====
section
/-! DEFINITION. Heartbeats, the hub watchdog and failover (11 R285-R287, R291, R292), the abort flood and job abort (R293-R295). -/

namespace Sys2Proof.Machine

/-! ### Manager heartbeats (R285) -/

/-- The manager core of a die as a unit. -/
def managerUnit (node : Nat) : Word :=
  if node < 8 then mkUnit 0 node 0 0 13 0 0x3FF else if node < 24 then shoalUnit (node - 8) 13 0 0x3FF
  else if node < 30 then straitUnit (node - 24) 13 0 0x3FF else mkUnit 3 (node - 30) 0 0 13 0 0x3FF

/-- Control processor i of hub h. -/
def hubProcessor (h i : Nat) : Word := mkUnit 3 h 0 0 13 i 0x3FF

/-- Hub h as a unit. -/
def hubOf (h : Nat) : Word := mkUnit 3 h 0 0 0 0 0x3FF

/-- MANAGER_HEARTBEAT: the hub notes when a die's manager core was heard. -/
def execManagerHeartbeat (node : Fin 32) (s : State) : Host.Outcome State Fault Refusal :=
  .next (if s.life.powered ∧ ¬ s.life.frozen ∧ node.val < 30 ∧ ¬ s.flt.mgrFenced.contains node.val then
      s.modFlt fun f => { f with hbLast := Tbl.set f.hbLast node s.count.toNat }
    else s)

/-- HEARTBEAT_MISS: three heartbeats of 1 ms missed: one record of scope 8, the core fenced, an escalation. -/
def execHeartbeatMiss (node : Fin 32) (s : State) : Host.Outcome State Fault Refusal :=
  .next (
    if ¬ s.hubRuns ∨ node.val ≥ 30 ∨ s.flt.mgrFenced.contains node.val ∨
        s.count.toNat - Tbl.getD s.flt.hbLast node 0 < 300000 then s
    else
      let u := managerUnit node
      let seq := s.nextSeq u
      (s.raise { unit := u, cls := clsHeartbeat, scope := 8, actions := actFenced + actEscalated }).fenceManager node clsHeartbeat seq)

/-! ### The hubs (R286, R287) -/

/-- HUB_LIVENESS: a hub's liveness message. -/
def execHubLiveness (h : Fin 2) (s : State) : Host.Outcome State Fault Refusal :=
  .next (if s.life.powered ∧ ¬ s.life.frozen ∧ s.life.usable.getLsbD h then
      s.modLife fun l => { l with liveLast := Tbl.set l.liveLast h s.count.toNat }
    else s)

/-- Counts since the last liveness message of hub h. -/
def State.silence (s : State) (h : Nat) : Nat := s.count.toNat - Tbl.getD s.life.liveLast h 0

/-- Fence the four control processors of a hub. -/
def State.fenceHub (s : State) (h : Nat) (cls : Half) (seq : Word) : State :=
  (List.range 4).foldl (fun t i => t.fenceUnit (hubProcessor h i) cls seq) s

/-- 16 Table 16-9: an activation in steps 1 and 2 ends with FENCED when its standby fails. -/
def State.standbyFails (s : State) : State :=
  match s.fw.activation with
  | none => s
  | some a =>
    if a.step > 2 then s
    else
      (s.mbAll.filter fun e => e.2.accepted && mbOp e.2.img == 0x501).foldl (fun t e => t.mbEnd e.1 e.2 mbFenced)
        (s.modFw fun w => { w with activation := none })

/-- HUB_WATCHDOG: the active hub's expiry is reported to the standby, which fails over; a standby that expires is fenced. -/
def execHubWatchdog (h : Fin 2) (s : State) : Host.Outcome State Fault Refusal :=
  .next (
    if ¬ s.life.powered ∨ s.life.frozen ∨ ¬ s.life.usable.getLsbD h then s
    else if h.val = s.life.activeHub then s.modLife fun l => { l with failingHub := true }
    else
      let u := hubOf h
      let seq := s.nextSeq u
      (((s.raise { unit := u, cls := clsWatchdog, scope := 9, actions := actFenced }).fenceHub h clsWatchdog seq).hubLost h).standbyFails
        |>.noteChange s)

/-- Table 11-6 step 3: a completion not yet posted becomes TIMEOUT; the ACCEPTED of a long command stands. -/
def MbFin.timedOut (f : MbFin) : MbFin :=
  if flag f.compl 7 0 then
    { f with data := [], compl := BitVec.ofNat 256 (pack [(0, fld f.compl 0 0 16), (2, mbTimeout), (4, fld f.compl 4 0 16),
        (6, f.slot), (7, 1), (8, 0xFFFF)]) }
  else f

/-- Table 11-6 step 3: every command in progress ends with TIMEOUT, and the host resubmits it. -/
def State.timeoutCommands (s : State) : State :=
  let s1 := (List.range 34).foldl (fun t m => t.modMbox m fun b => { b with fin := b.fin.map MbFin.timedOut }) s
  s1.mbAll.foldl (fun t e => t.mbEnd e.1 e.2 mbTimeout) (s1.modMem fun m => { m with catWaiting := [] })

/-- R298: a dump in progress stops with `complete` 0 when the hub that takes it stops. -/
def FaultSt.dumpStops (f : FaultSt) (now : DWord) : FaultSt :=
  { f with dump := match f.dump with
    | some d => if d.taking then some { d with taking := false, complete := false, stop := now, toRead := [], unread := true } else some d
    | none => none }

/-- The standby becomes active (Table 11-6 steps 2 and 3): role, causeway routes with the new root, sessions of the old hub gone. -/
def State.swapHub (s : State) (h : Nat) : State :=
  let s1 := (s.modLife fun l => { l with activeHub := h, standby := false, failingHub := false }).modFw fun f =>
    { f with role := BitVec.ofNat 2 (2 ^ h), sessions := [], spdmStage := 0, chunkIn := none, chunkOut := none }
  s1.modNet fun n => { n with causeRoute := s1.causeTables }

/-- HUB_FAILOVER (R286). -/
def execHubFailover (s : State) : Host.Outcome State Fault Refusal :=
  .next (
    let old := s.life.activeHub
    let live := s.life.state = .ready ∨ s.life.state = .holding ∨ s.life.state = .outOfService
    if ¬ s.life.powered ∨ s.life.frozen ∨ ¬ live ∨ ¬ s.life.standby ∨ ¬ (s.life.failingHub ∨ s.silence old ≥ 30000) then s
    else
      let u := hubOf old
      let cls := if s.life.failingHub then clsWatchdog else clsHeartbeat
      let seq := s.nextSeq u
      let s1 := ((s.raise { unit := u, cls := cls, scope := 9, actions := actFenced + actEscalated }).fenceHub old cls seq).modLife
        fun l => { l with usable := l.usable &&& ~~~ BitVec.ofNat 2 (2 ^ old) }
      let s2 := ((s1.swapHub (1 - old)).timeoutCommands.modFlt fun f => f.dumpStops s.count).modFw fun w => { w with activation := none }
      let s3 := s2.parts.foldl (fun t e =>
        if e.2.inStep ∧ ¬ e.2.inReset then t.trigger e.1 { cls := cls, addr := none, position := none, recordSeq := seq } else t) s2
      (s3.escalate seq).noteChange s)

/-- Whether a hub has been silent for 3 ms; one that restarts in an activation and does not mirror yet is no hub left (16 R401). -/
def State.noHub (s : State) (h : Nat) : Bool :=
  let restarts := match s.fw.activation with
    | some a => a.step == 1 || a.step == 5
    | none => false
  decide (300000 ≤ s.silence h) || (restarts && h != s.life.activeHub)

/-- BOTH_HUBS_LOST (R287): no liveness of either hub for 3 ms: the lowest strait die with a healthy manager core sends the floods
and asserts module reset. -/
def execBothHubsLost (s : State) : Host.Outcome State Fault Refusal :=
  .next (
    let live := s.life.state = .ready ∨ s.life.state = .holding ∨ s.life.state = .outOfService
    let watcher := (List.range 6).any fun d => !s.flt.mgrFenced.contains (24 + d)
    if ¬ s.life.powered ∨ s.life.frozen ∨ ¬ live ∨ ¬ watcher ∨ ¬ s.noHub 0 ∨ ¬ s.noHub 1 ∨
        s.flt.resetPending.isSome then s
    else
      let s1 := ((s.fenceHub 0 clsHeartbeat 0).fenceHub 1 clsHeartbeat 0).modLife fun l =>
        { l with failingHub := true, standby := false, usable := 0 }
      (s1.floodAll 5 true 0).askReset true)

/-! ### Heartbeat word and status report (R291, R292) -/

/-- HEARTBEAT_WORD_UPDATE: by Icrax on the active hub, from step 3 of a timeline on (14 R348). -/
def execHeartbeatWordUpdate (s : State) : Host.Outcome State Fault Refusal :=
  .next (
    let starting := (s.life.state = .bringup ∨ s.life.state = .moduleReset) ∧ s.life.tests.isSome ∧ s.life.powered ∧ ¬ s.life.frozen
    if ¬ s.hubRuns ∧ ¬ starting then s
    else
      let t := s.modFlt fun f => { f with beat := f.beat + 1 }
      t.modFlt fun f => { f with hbWord := t.heartbeat })

/-- STATUS_REPORT. -/
def execStatusReport (s : State) : Host.Outcome State Fault Refusal :=
  .next (
    if ¬ s.hubRuns then s
    else (if s.flt.log.isEmpty then s.freshen else s).postEvent { type := 1, mailboxes := [0], content := s.statusBytes })

/-! ### Abort floods (R293-R295) -/

/-- Table 11-10. -/
def Flood.bytes (f : Flood) : List Byte :=
  packBytes 32 [(0, f.jobTag.toNat), (4, f.origin), (6, f.number.toNat), (8, f.boot.toNat), (12, f.reason),
    (13, b2n f.originReset), (16, f.step.toNat), (20, f.recordSeq.toNat)]

/-- A flood as an ABORT_FLOOD cell of strait die x (R294). -/
def State.floodCell (s : State) (x : Nat) (f : Flood) : List FPkt :=
  packetsOf true 3 7 false 0 0 (s.ownId.getD 0) (msgHeader x 32 0 false false none) f.bytes 0

/-- Job abort of one partition (R293): the commands on it that have started complete first (12 R316). -/
def State.jobAbort (s : State) (p : Nat) : State :=
  match s.part? p with
  | none => s
  | some x =>
    if x.inReset ∨ (s.mbOnPart p).isEmpty then s.beginPartReset p true
    else if s.flt.abortPending.contains p then s
    else s.modFlt fun f => { f with abortPending := f.abortPending ++ [p] }

/-- Partitions that carry a job tag. -/
def State.tagged (s : State) (tag : Nat) : List Nat := (s.parts.filter fun e => e.2.jobTag.toNat == tag).map fun e => e.1

/-- The keys still held in the flood filter (R295). -/
def State.floodKeys (s : State) : List (Nat × Word × Half × DWord) :=
  s.flt.floodFilter.filter fun k => decide (ageOf s.count k.2.2.2 < 6000000000)

/-- Enter a key; the oldest of 256 gives way. -/
def State.enterFlood (s : State) (origin : Nat) (boot : Word) (number : Half) : State :=
  let ks := s.floodKeys
  s.modFlt fun f => { f with floodFilter := ks.drop (ks.length - 255) ++ [(origin, boot, number, s.count)] }

/-- Put a flood's cell on every usable link but one. -/
def State.sendFlood (s : State) (but : Option Nat) (ps : List FPkt) : State :=
  (List.range 96).foldl (fun t l =>
    if but = some l ∨ ¬ t.linkUsable l then t else ps.foldl (fun u p => u.putLink none l p) t) s

/-- A flood that has arrived over link l (R295). -/
def State.takeFlood (s : State) (x l : Nat) (p : FPkt) : State :=
  let r := BitVec.ofNat 256 (leNat ((p.data.drop 8).take 32))
  let tag := fld r 0 0 32
  let origin := fld r 4 0 13
  let number := BitVec.ofNat 16 (fld r 6 0 16)
  let boot := BitVec.ofNat 32 (fld r 8 0 32)
  let reason := fld r 12 0 8
  if tag = 0 ∨ reason = 0 ∨ reason > 5 then s.badPacket x
  else if ¬ s.forwards then s
  else if s.floodKeys.any fun k => k.1 == origin && k.2.1 == boot && k.2.2.1 == number then s
  else
    let s1 := (s.enterFlood origin boot number).sendFlood (some l) [p]
    if s.life.state = .ready then (s1.tagged tag).foldl (fun t q => t.jobAbort q) s1 else s1

/-- ABORT_FLOOD: strait die x handles the oldest flood that has reached it, else sends the module's own oldest one. -/
def execAbortFlood (x : Fin 6) (s : State) : Host.Outcome State Fault Refusal :=
  .next (
    if ¬ s.life.powered ∨ s.life.frozen then s
    else
      match (s.strait x).floodIn with
      | (l, p) :: rest => (s.modStrait x fun y => { y with floodIn := rest }).takeFlood x l p
      | [] =>
        match s.flt.floodsOut with
        | [] => s
        | f :: rest =>
          ((s.modFlt fun g => { g with floodsOut := rest }).enterFlood f.origin f.boot f.number).sendFlood none (s.floodCell x f))

/-- JOB_ABORT. -/
def execJobAbort (m : Fin 34) (s : State) : Host.Outcome State Fault Refusal :=
  s.mbRow m 0x204 fun c =>
    let tag := fld c.img 16 0 32
    let ps := s.tagged tag
    let step := ((ps.head?.bind s.part?).map fun x => if x.stepOpen then x.step else 0).getD 0
    (ps.foldl (fun t p => t.jobAbort p) (s.flood (BitVec.ofNat 32 tag) 4 false step 0)).mbEnd m c mbDone 0xFFFF ps.length

end Sys2Proof.Machine
end

