-- ==== Sys2Proof/Machine/Resets.lean ====
section
/-! DEFINITION. Reset commands and their ends (11 R277-R280, Tables 11-1 to 11-3; 12 R316, 18 R428), and the service commands on
fences (10 R260, 12 Table 12-8). The module reset itself stands with bring-up. -/

namespace Sys2Proof.Machine

/-! ### Core and engine scope (Table 11-1) -/

/-- End operations of an atoll with ABANDONED: those in the queues, and in flight, that meet the tests on engine number and
issuer. Nothing is written (R71), and completions are delivered. -/
def State.abandonOps (s : State) (g : Nat) (te ve : Nat → OpSource → Bool) (be : OpSource → Bool) : State :=
  let a := s.atoll g
  let tiles := (a.engines.map fun e => ((e.2.cur.toList.map fun r => r.op) ++ e.2.queue).filter fun o => te e.1 o.src).flatten
  let vecs := (a.vecs.map fun e => (e.2.cur.toList ++ e.2.queue).filter fun o => ve e.1 o.src).flatten
  let banks := a.bankOps.filter fun o => be o.src
  let s1 := s.modAtoll g fun b => { b with
    engines := b.engines.map fun e => (e.1, { e.2 with
      queue := e.2.queue.filter fun o => !te e.1 o.src, cur := e.2.cur.filter fun r => !te e.1 r.op.src }),
    vecs := b.vecs.map fun e => (e.1, { queue := e.2.queue.filter fun o => !ve e.1 o.src,
                                        cur := e.2.cur.filter fun o => !ve e.1 o.src }),
    bankOps := b.bankOps.filter fun o => !be o.src }
  let s2 := tiles.foldl (fun t o =>
    let d := tileDesc o.desc
    t.deliverOp g o.src o.origin (opWord o.spent 0 o.replayed false false opAbandoned d.ticket) d.notify d.syncObj) (s1.releaseAround g)
  let s3 := vecs.foldl (fun t o => t.deliverOp g o.src 0 (opWord 0 0 false false false opAbandoned 0) false 0) s2
  banks.foldl (fun t o =>
    let b := bankCmd o.cmd
    match o.src with
    | .core _ => if b.notify then t.signalAtoll g b.obj 1 else t
    | src => t.deliverOp g src 0 (opWord 0 0 false false false opAbandoned b.ticket) b.notify b.obj) s3

/-- The input queues that sequencer u reads are discarded and counted. -/
def State.flushInputs (s : State) (g u : Nat) : State :=
  s.modAtoll g fun a =>
    ((List.range 32).filter fun n => (a.readerOf n).map (fun k => k.1) == some u).foldl Atoll.flushQueue a

/-- A sequencer back at STOPPED, its open operations forgotten. -/
def State.stopSeq (s : State) (g u : Nat) : State :=
  s.modAtoll g fun a => { (a.modSeq u fun q => { q with state := .stopped, block := .none, openOps := [], inbox := [] }) with
    waits := a.waits.filter fun w => w.who != .seq g u }

/-- Reset of one core or engine of atoll g (R277). -/
def State.resetUnit (s : State) (g kind index : Nat) : State :=
  if kind = 1 then (s.abandonOps g (fun e _ => e == index) (fun _ _ => false) (fun _ => false)).flushInputs g index
  else if kind = 2 then (s.abandonOps g (fun _ _ => false) (fun v _ => v == index) (fun _ => false)).flushInputs g (4 + index)
  else if kind = 3 then (if (s.atoll g).split ∧ index < 2 then s.resetCore g index else s.resetCores g)
  else
    let mine (o : OpSource) : Bool := match o with
      | .seq u _ => u == index
      | _ => false
    ((s.abandonOps g (fun _ => mine) (fun _ => mine) mine).flushInputs g index).stopSeq g index

/-- RESET_UNIT. -/
def execResetUnit (m : Fin 34) (s : State) : Host.Outcome State Fault Refusal :=
  s.mbPartRow m 0x200 fun c _ _ =>
    let u := BitVec.ofNat 32 (fld c.img 16 0 32)
    match uAtoll u with
    | some g => if (s.atoll g).inReset then s.mbEnd m c mbDone else (s.resetUnit g (uKind u) (uIndex u)).mbEnd m c mbDone
    | none => s.mbEnd m c mbOutOfRange 16

/-! ### Atoll scope (Table 11-2) -/

/-- Whether a reconfiguration covers a position (R428). -/
def State.reconfCovers (s : State) (p pos : Nat) : Bool := s.reconfs.any fun r => r.part == p && r.pairs.any fun e => e.1 == pos

/-- RESET_ATOLL: starts once no reconfiguration covers the position. -/
def execResetAtoll (m : Fin 34) (s : State) : Host.Outcome State Fault Refusal :=
  s.mbPartRow m 0x201 fun c p _ =>
    let pos := fld c.img 16 0 8
    match s.atollAt p pos with
    | none => s.mbEnd m c mbOutOfRange 16
    | some g =>
      if s.reconfCovers p pos then s
      else s.mbLong m c fun t _ => if (t.atoll g).inReset then t else t.beginAtollReset g

/-- Running commands of one opcode on a partition, with their mailboxes. -/
def State.mbRunningOn (s : State) (p op : Nat) : List (Nat × MbCmd) :=
  (s.mbOnPart p).filter fun e => e.2.accepted && mbOp e.2.img == op

/-- ATOLL_DRAIN_TIMEOUT: steps 3 to 5 of Table 11-2, and the end of a RESET_ATOLL of its position. -/
def execAtollDrainTimeout (g : Fin 320) (s : State) : Host.Outcome State Fault Refusal :=
  .next (
    if ¬ (s.atoll g).inReset ∨ ¬ s.clocked then s
    else
      let t := s.endAtollReset g
      match s.positionOf g with
      | none => t
      | some (p, pos) =>
        ((t.mbRunningOn p 0x201).filter fun e => fld e.2.img 16 0 8 == pos).foldl (fun u e => u.mbEnd e.1 e.2 mbDone) t)

/-! ### Partition scope (Table 11-3) -/

/-- RESET_PARTITION: PARTITION_RESET_DONE completes it. -/
def execResetPartition (m : Fin 34) (s : State) : Host.Outcome State Fault Refusal :=
  s.mbPartRow m 0x202 fun c p _ => s.mbLong m c fun t _ => t.beginPartReset p false

/-- What ends with a partition's reset: RESET_PARTITION, whose cores restart on the newest scalar runtime (16 R395), and
PARTITION_DESTROY, which then destroys the partition. -/
def State.settlePartReset (s : State) (p : Nat) : State :=
  let s2 := (s.mbRunningOn p 0x202).foldl (fun t e =>
    (t.modPart p fun x => { x with runtime := (s.fw.scalars.head?).getD x.runtime }).mbEnd e.1 e.2 mbDone) (s.endPartReset p)
  (s2.mbRunningOn p 0x302).foldl (fun t e => (t.destroyPart p).mbEnd e.1 e.2 mbDone) s2

/-- PARTITION_RESET_DONE: a job abort begins its reset once the commands on the partition have completed (R316); a reset ends once
every atoll of the partition has. -/
def execPartitionResetDone (p : Fin 32) (s : State) : Host.Outcome State Fault Refusal :=
  .next (
    match s.part? p with
    | none => s.modFlt fun f => { f with abortPending := f.abortPending.filter (· != p.val) }
    | some x =>
      if ¬ s.clocked then s
      else if x.inReset then
        (if s.hubRuns ∧ x.posAtoll.all (fun e => !(s.atoll e.2).inReset) then s.settlePartReset p else s)
      else if s.flt.abortPending.contains p.val ∧ (s.mbOnPart p).isEmpty then
        (s.modFlt fun f => { f with abortPending := f.abortPending.filter (· != p.val) }).beginPartReset p true
      else s)

/-! ### Module scope -/

/-- RESET_MODULE (R281, R316): ACCEPTED with `final` 1; MODULE_RESET begins the reset. -/
def execResetModule (m : Fin 34) (s : State) : Host.Outcome State Fault Refusal :=
  s.mbRow m 0x203 fun c => ((s.mbEnd m c mbAccepted).noticeAll 7 0).askReset false

/-- SERVICE_CLEAR (R290): ends out of service, then acts as RESET_MODULE. -/
def execServiceClear (m : Fin 34) (s : State) : Host.Outcome State Fault Refusal :=
  s.mbRow m 0x208 fun c =>
    if s.life.state ≠ .outOfService then s.mbEnd m c mbNoResource
    else ((s.modFlt fun f => { f with outOfService := false }).mbEnd m c mbAccepted).askReset false

/-! ### Fences (R258-R260) and diagnostics -/

/-- Fence map entries, those not yet written included. -/
def State.fenceEntries (s : State) : List FenceEntry := s.flt.fenceMap ++ s.flt.fenceQueue

/-- Mark units to be tested, and to return when they pass. -/
def State.markClear (s : State) (us : List Word) : State :=
  s.modFlt fun f => { f with clearPending := us.foldl (fun l u => if l.contains u then l else l ++ [u]) f.clearPending }

/-- 15 R371: clearing a phase clears every phase fence of its region and restores its ceiling; the higher step itself still waits
for the ledger (R376). -/
def State.clearPhase (s : State) (u : Word) : State :=
  let key := regionKey u
  let mine := s.fenceEntries.filter fun e => uKind e.unit == 14 && regionKey e.unit == key && e.source != 0
  (s.markClear (u :: mine.map fun e => e.unit)).modPower fun p => { p with
    ceiling := Tbl.set p.ceiling key 0, granted := if keyLogic key then Tbl.set p.granted key (s.stepFor key) else p.granted }

/-- Whether a region has something that clearing a phase of it ends: a phase fence, a lowered ceiling, darkness. -/
def State.phaseMarked (s : State) (u : Word) : Bool :=
  uKind u == 14 && (Tbl.getD s.power.lost (regionKey u) 0 != 0 || Tbl.getD s.power.ceiling (regionKey u) 0 != 0 ||
    (s.region (regionKey u)).gone)

/-- FENCE_CLEAR: the unit returns after it passes the known-answer run of the next module reset. -/
def execFenceClear (m : Fin 34) (s : State) : Host.Outcome State Fault Refusal :=
  s.mbRow m 0x205 fun c =>
    let u := BitVec.ofNat 32 (fld c.img 16 0 32)
    match s.fenceEntries.find? fun e => e.unit == u with
    | none => if s.phaseMarked u then (s.clearPhase u).mbEnd m c mbDone else s.mbEnd m c mbNoResource
    | some e =>
      if e.source = 0 then s.mbEnd m c mbFenced
      else if uKind u = 14 then (s.clearPhase u).mbEnd m c mbDone
      else (s.markClear [u]).mbEnd m c mbDone

/-- UNIT_FENCE: containment of Table 10-5 with entries of source 2. -/
def execUnitFence (m : Fin 34) (s : State) : Host.Outcome State Fault Refusal :=
  s.mbRow m 0x206 fun c =>
    let u := BitVec.ofNat 32 (fld c.img 16 0 32)
    (if s.isFenced u then s else s.containAs u 0 0 2).mbEnd m c mbDone

/-- DIAG_RUN: the known-answer tests of a unit that carries no position; `fail` is the number of the first test that fails. -/
def execDiagRun (m : Fin 34) (fail : Option Word) (s : State) : Host.Outcome State Fault Refusal :=
  s.mbRow m 0x108 fun c =>
    let u := BitVec.ofNat 32 (fld c.img 16 0 32)
    if ((uAtoll u).bind s.positionOf).isSome then s.mbEnd m c mbBusy
    else s.mbLong m c fun t c' =>
      match fail with
      | none => t.mbEnd m c' mbDone
      | some n => t.mbEnd m c' mbDone 0xFFFF (1 + n.toNat * 2 ^ 32)

end Sys2Proof.Machine
end

