-- ==== Sys2Proof/Machine/Dump.lean ====
section
/-! DEFINITION. Crash dumps (11 R296-R298, Tables 11-13 to 11-15) and the dump commands of Table 12-8. -/

namespace Sys2Proof.Machine

/-- Size limit of a dump. -/
def dumpLimit : Nat := 16777216

/-- Bytes of the sections taken so far, the header included. -/
def Dump.length (d : Dump) : Nat := d.sections.foldl (fun n e => n + 16 + e.2.length) 64

/-- A section header (Table 11-15). -/
def sectionHead (u : Word) (status len : Nat) (now : DWord) : BitVec 128 :=
  BitVec.ofNat 128 (pack [(0, u.toNat), (4, status), (8, len), (12, now.toNat % 2 ^ 32)])

/-- Add the section of a unit; one that no longer fits is written as a header marked truncated. -/
def Dump.add (d : Dump) (u : Word) (status : Nat) (data : List Byte) (now : DWord) : Dump :=
  if status = 0 ∧ d.length + 16 + data.length > dumpLimit then { d with sections := d.sections ++ [(sectionHead u 3 0 now, [])] }
  else { d with sections := d.sections ++ [(sectionHead u status data.length now, data)] }

/-- A die's fault collector: its ring, then first record, last record and count of every coalesce entry. -/
def Collector.bytes (c : Collector) : List Byte :=
  (c.ring.map fun r => leBytes 64 r.bits.toNat).flatten ++
    (c.coal.map fun e => leBytes 64 e.first.bits.toNat ++ leBytes 64 e.last.bits.toNat ++ leBytes 8 e.count).flatten

/-- Start a dump: the collectors of every die first. -/
def State.startDump (s : State) (cause : Nat) (seq : Word) : State :=
  let d : Dump :=
    { cause := cause, complete := false, taking := true, start := s.count, stop := 0, recordSeq := seq, sections := [],
      toRead := s.dumpUnits, unread := false }
  let d1 := (List.range 32).foldl (fun e n => e.add (dieUnit n) 0 (s.collector n).bytes s.count) d
  s.modFlt fun f => { f with dump := some d1 }

/-- The 64 header bytes (Table 11-14). -/
def State.dumpHeader (s : State) (d : Dump) : List Byte :=
  packBytes 64 [(0, 1), (1, d.cause), (2, b2n d.complete), (4, s.ownId.getD 0), (8, d.start.toNat), (16, d.stop.toNat),
    (24, d.sections.length),
    (28, d.sections.countP fun e => fld e.1 4 0 2 == 1 || fld e.1 4 0 2 == 2), (32, d.length), (36, d.recordSeq.toNat)]

/-- The whole dump. -/
def State.dumpBytes (s : State) (d : Dump) : List Byte :=
  s.dumpHeader d ++ (d.sections.map fun e => leBytes 16 e.1.toNat ++ e.2).flatten

/-- Whether a unit is marked without being read: fenced, in a fenced site, or in a dark region (R297). -/
def State.dumpSkips (s : State) (u : Word) : Bool :=
  s.isFenced u || ((uAtoll u).map fun g => s.isFenced (siteUnit g)).getD false || (s.region (regionKey u)).gone

/-- A dump that has visited every unit is complete and unread; the command that asked for it completes. -/
def State.endDump (s : State) (d : Dump) : State :=
  let s1 := s.modFlt fun f => { f with dump := some { d with taking := false, complete := true, stop := s.count, unread := true } }
  match if d.cause = 0 then s.mbRunning 0 fun c => mbOp c.img == 0x105 else none with
  | some c => s1.mbEnd 0 c mbDone 0xFFFF d.length
  | none => s1

/-- The next unit of a dump. -/
def State.dumpStep (s : State) (d : Dump) : State :=
  match d.toRead with
  | [] => s.endDump d
  | u :: rest =>
    let data := ((s.dumpWords u).map fun w => leBytes 8 w.toNat).flatten
    let d1 := if s.dumpSkips u then d.add u 2 [] s.count else d.add u 0 data s.count
    s.modFlt fun f => { f with dump := some { d1 with toRead := rest } }

/-- Whether a fatal escalation has a dump to take before its reset (R296, R298). -/
def State.dumpDue (s : State) : Bool :=
  s.flt.fatal && s.param 0x0B08 == 1 && !s.unreadDump &&
    match s.flt.resetPending with
    | some (_, since) => s.flt.floodsOut.isEmpty && (match s.flt.dump with
        | some d => decide (ageOf s.count d.start > ageOf s.count since)
        | none => true)
    | none => false

/-- DUMP: goes on with the dump in progress, starts the dump of a fatal escalation, or starts the admin command's. -/
def execDump (m : Fin 34) (s : State) : Host.Outcome State Fault Refusal :=
  .next (
    match if s.hubRuns then s.flt.dump.filter fun d => d.taking else none with
    | some d => s.dumpStep d
    | none =>
      if s.hubRuns ∧ s.dumpDue then s.startDump 1 s.flt.fatalSeq
      else
        match s.mbNext m fun c => mbOp c.img == 0x105 with
        | none => s
        | some c => if s.unreadDump then s.mbEnd m c mbBusy else s.mbLong m c fun t _ => t.startDump 0 0)

/-- DUMP_UNIT_TIMEOUT: the unit to read does not answer; a die whose first unit does not is skipped whole. -/
def execDumpUnitTimeout (s : State) : Host.Outcome State Fault Refusal :=
  .next (
    match if s.hubRuns then s.flt.dump.filter fun d => d.taking else none with
    | none => s
    | some d =>
      match d.toRead with
      | [] => s
      | u :: rest =>
        if s.dumpSkips u then s
        else
          let n := uNode u
          let first := s.dumpUnits.find? fun v => uNode v == n
          let d1 := if first = some u then { d.add (dieUnit n) 1 [] s.count with toRead := rest.filter fun v => uNode v != n }
            else { d.add u 1 [] s.count with toRead := rest }
          s.modFlt fun f => { f with dump := some d1 })

/-- DUMP_READ: part of the dump into host memory; bytes past its end are not written. -/
def execDumpRead (m : Fin 34) (s : State) : Host.Outcome State Fault Refusal :=
  s.mbRow m 0x106 fun c =>
    match s.flt.dump with
    | none => s.mbEnd m c mbNoResource
    | some d =>
      if d.taking then s
      else s.mbLong m c fun t c' =>
        let data := ((t.dumpBytes d).drop (fld c.img 24 0 32)).take (fld c.img 28 0 32)
        match t.hostPut (fld c.img 16 0 64) data with
        | none => t.mbEnd m c' mbTimeout
        | some u => u.mbEnd m c' mbDone 0xFFFF data.length

/-- DUMP_RELEASE: the dump is marked read. -/
def execDumpRelease (m : Fin 34) (s : State) : Host.Outcome State Fault Refusal :=
  s.mbRow m 0x107 fun c =>
    (s.modFlt fun f => { f with dump := f.dump.map fun d => { d with unread := false } }).mbEnd m c mbDone

end Sys2Proof.Machine
end

