-- ==== Sys2Proof/Machine/HostPort.lean ====
section
/-! DEFINITION. The host port (12 R300-R306, R318, 19 R433): CXL.mem accesses and the snoop filter, back-invalidation, PERST#, link
training, the HDM decoder, the CXL mailbox, IDE keys and MSI-X masks. -/

namespace Sys2Proof.Machine

/-! ### The snoop filter (R305): 262,144 sets of 16 ways -/

/-- Set of a line. -/
def sfSet (line : Nat) : Nat := line % 262144

/-- Tree pseudo-LRU over sixteen ways: node 0 is the root, a set bit points right. -/
def plru16Victim (t : Nat) : Nat :=
  let n1 := 1 + bits t 0 1
  let n2 := 2 * n1 + 1 + bits t n1 1
  let n3 := 2 * n2 + 1 + bits t n2 1
  (n3 - 7) * 2 + bits t n3 1

/-- An access to a way turns the nodes on its path away from it. -/
def plru16Touch (t w : Nat) : Nat :=
  let turn (v i : Nat) (up : Bool) : Nat := setBits v i 1 (b2n up)
  turn (turn (turn (turn t 0 (w / 8 == 0)) (1 + w / 8) (w / 4 % 2 == 0)) (3 + w / 4) (w / 2 % 2 == 0)) (7 + w / 2) (w % 2 == 0)

/-- The way of its set that tracks a line. -/
def HostSt.way? (h : HostSt) (line : Nat) : Option Nat :=
  (List.range 16).find? fun w => (Tbl.get? h.sf (sfSet line * 16 + w)).map (fun e => e.1) == some line

/-- A free way of a line's set. -/
def HostSt.freeWay (h : HostSt) (line : Nat) : Option Nat :=
  (List.range 16).find? fun w => (Tbl.get? h.sf (sfSet line * 16 + w)).isNone

/-- The line that a full set gives up. -/
def HostSt.victim (h : HostSt) (line : Nat) : Nat :=
  ((Tbl.get? h.sf (sfSet line * 16 + plru16Victim (Tbl.getD h.sfPlru (sfSet line) 0))).map fun e => e.1).getD line

/-- Track a line in a way of its set. -/
def HostSt.track (h : HostSt) (line w : Nat) (modified : Bool) : HostSt :=
  { h with sf := Tbl.set h.sf (sfSet line * 16 + w) (line, modified),
           sfPlru := Tbl.set h.sfPlru (sfSet line) (plru16Touch (Tbl.getD h.sfPlru (sfSet line) 0) w) }

/-- The host no longer holds a line. -/
def HostSt.untrack (h : HostSt) (line : Nat) : HostSt := { h with sf := h.sf.filter fun e => e.2.1 != line }

/-! ### CXL.mem accesses (R303-R305) -/

/-- Bytes of HDM: the decoder's share of this module, at most DRAM_SIZE rounded down to a multiple of 256 MiB (R304). -/
def State.hdmBytes (s : State) : Nat :=
  if s.host.hdmCommitted then min (s.host.hdmSize / s.host.hdmWays) (s.mem.map.size / 268435456 * 268435456) else 0

/-- Whether CXL.mem reaches a byte of HDM. -/
def State.hdmReach (s : State) (a : Nat) : Bool := s.hostUp && s.life.powered && !s.life.frozen && decide (a < s.hdmBytes)

/-- Answer a host read with the line's 64 bytes, or with poison. -/
def State.answerRead (s : State) (line : Nat) : State :=
  match s.readPlace (.dram (line * 64)) 64 with
  | (st, bs) => s.modHost fun h => { h with out := h.out ++ [if st = stOk then .memData (line * 64) bs else .memPoison (line * 64)] }

/-- A host read whose line has a way, or needs none. -/
def State.hostRead (s : State) (line : Nat) (use : HostCacheUse) (dec : Decoded) : State :=
  let s1 := (s.dramDecode none (line * 64) dec 0).answerRead line
  match use with
  | .uncached => s1
  | _ =>
    let modified := decide (use = .exclusive)
    match s1.host.way? line with
    | some w => s1.modHost fun h => h.track line w (modified || (h.tracked line).getD false)
    | none =>
      match s1.host.freeWay line with
      | some w => s1.modHost fun h => h.track line w modified
      | none => s1

/-- HOST_MEM_READ: a read that the host may cache needs a way of its set; a full set asks its victim back and the read waits. A
module in reset answers with poison. -/
def execHostMemRead (addr : Nat) (cache : HostCacheUse) (dec : Decoded) (s : State) : Host.Outcome State Fault Refusal :=
  .next (
    let line := addr / 64
    if ¬ s.hdmReach addr then s
    else if s.life.state = .moduleReset then
      s.modHost fun h => { h with out := h.out ++ [.memPoison (line * 64)], memResets := satAdd32 h.memResets 1 }
    else if s.host.biWaits.any (fun w => w.hostRead == some (line, cache)) then s
    else if cache ≠ .uncached ∧ (s.host.way? line).isNone ∧ (s.host.freeWay line).isNone then
      s.modHost fun h => h.snoop (h.victim line) true (some (line, cache)) s.count
    else s.hostRead line cache dec)

/-- HOST_MEM_WRITE. -/
def execHostMemWrite (addr : Nat) (data : List Byte) (s : State) : Host.Outcome State Fault Refusal :=
  .next (
    if ¬ s.hdmReach addr ∨ ¬ s.hdmReach (addr + data.length - 1) then s
    else if s.life.state = .moduleReset then s.modHost fun h => { h with memResets := satAdd32 h.memResets 1 }
    else (s.pwrite none addr 0 data).1)

/-- BIRSP: the host has given the line back (BISnpInv) or written it back (BISnpData); the oldest access that waits for it may go
on. -/
def execBirsp (line : Nat) (s : State) : Host.Outcome State Fault Refusal :=
  .next (
    match s.host.biWaits.find? fun w => w.line == line with
    | none => s
    | some w => s.modHost fun h =>
        let k := if w.inv then h.untrack line else
          { h with sf := h.sf.map fun e => if e.2.1 = line then (e.1, line, false) else e }
        { k with biWaits := k.biWaits.erase w })

/-- HOST_BI_TIMEOUT: the device access ends with TIMEOUT when it is next looked at, a host read with poison; the line stays
tracked. One count and one record. -/
def execHostBiTimeout (line : Nat) (s : State) : Host.Outcome State Fault Refusal :=
  .next (
    match s.host.biWaits.find? fun w => w.line == line && !w.expired with
    | none => s
    | some w =>
      let s1 := s.modHost fun h =>
        match w.hostRead with
        | some (r, _) => { h with biWaits := h.biWaits.erase w, out := h.out ++ [.memPoison (r * 64)] }
        | none => { h with biWaits := h.biWaits.map fun x => if x == w then { x with expired := true } else x }
      (s1.modHost fun h => { h with biTimeouts := satAdd32 h.biTimeouts 1 }).raise
        { unit := hubOf 0, cls := clsTimeout, actions := actCounted, detail := [(32, 10), (33, line * 64)] })

/-- H2D_SNOOP (R306): the module holds no host line. -/
def execH2dSnoop (addr : Nat) (s : State) : Host.Outcome State Fault Refusal :=
  .next (if s.hostUp ∧ s.life.powered ∧ ¬ s.life.frozen then s.modHost fun h => { h with out := h.out ++ [.rspIHitI addr] } else s)

/-! ### PERST#, the link and configuration (R301, R302, R304, R433) -/

/-- What PERST# and a powered-up CXL controller leave of the host port. -/
def HostSt.controllerReset (h : HostSt) (perst : Bool) : HostSt :=
  { h with linkUp := false, rate := .gt64, width := 0, perst := perst, hdmCommitted := false, hdmBase := 0, hdmSize := 0, hdmWays := 1,
           hdmGran := 256, sf := [], sfPlru := [], biWaits := [], msixEnable := false, msixMask := false, vecUnmasked := [],
           msixTable := [], vecPending := [], ideKeys := [], ideState := [] }

/-- R302: mailbox state at its reset values; commands that execute go on without a completion. -/
def Mailbox.perst (b : Mailbox) : Mailbox :=
  { Mailbox.reset with started := b.started.map fun c => { c with discard := true },
                       running := b.running.map fun c => { c with discard := true } }

/-- PERST: `level` is the pin's level; low asserts it. The management mailbox is not on the host port. -/
def execPerst (level : Bool) (s : State) : Host.Outcome State Fault Refusal :=
  .next (
    if level then s.modHost fun h => { h with perst := false }
    else (List.range 33).foldl (fun t m => t.modMbox m Mailbox.perst) (s.modHost fun h => h.controllerReset true))

/-- HOST_LINK_TRAINING: width 16, 8 or 4 trains the link at the rate; any other width means it is down. -/
def execHostLinkTraining (rate : HostRate) (width : Nat) (s : State) : Host.Outcome State Fault Refusal :=
  .next (
    let up := (width = 16 ∨ width = 8 ∨ width = 4) ∧ s.life.powered ∧ ¬ s.life.frozen ∧ ¬ s.host.perst ∧ ¬ (s.region (30 * 16 + 2)).gone
    if up then s.modHost fun h => { h with linkUp := true, rate := rate, width := width }
    else s.modHost fun h => { h with linkUp := false, width := 0 })

/-- HDM_DECODER_COMMIT (R304): interleave over 1, 2, 4 or 8 modules at a power-of-two granularity of 256 B to 16 KiB; a range that
exceeds this module's DRAM does not commit. -/
def execHdmDecoderCommit (commit : Bool) (base size : Nat) (ways granularity : Nat) (s : State) : Host.Outcome State Fault Refusal :=
  .next (
    let okWays := ways = 1 ∨ ways = 2 ∨ ways = 4 ∨ ways = 8
    let okGran := [256, 512, 1024, 2048, 4096, 8192, 16384].contains granularity
    let limit := s.mem.map.size / 268435456 * 268435456
    if ¬ s.host.linkUp ∨ s.host.perst then s
    else if ¬ commit then s.modHost fun h => { h with hdmCommitted := false }
    else if s.host.hdmCommitted ∨ ¬ okWays ∨ ¬ okGran ∨ size = 0 ∨ base % 268435456 ≠ 0 ∨ size % (ways * 268435456) ≠ 0 ∨
        size / ways > limit then s
    else s.modHost fun h =>
      { h with hdmCommitted := true, hdmBase := base, hdmSize := size, hdmWays := ways, hdmGran := granularity })

/-- The CXL mailbox commands that the module supports (R301), by their CXL 3.1 opcodes (log entry 10): Get and Clear Event Records,
Get FW Info, Get Supported Logs, Get Log, Identify Memory Device, Get Health Info. -/
def cxlCommands : List Nat := [0x0100, 0x0101, 0x0200, 0x0400, 0x0401, 0x4000, 0x4200]

/-- CXL_MAILBOX_COMMAND: success, with a body whose content the manual leaves to CXL 3.1 (log entry 7), or Unsupported. -/
def execCxlMailboxCommand (opcode : Half) (payload : List Byte) (s : State) : Host.Outcome State Fault Refusal :=
  .next (
    if ¬ s.host.linkUp ∨ s.host.perst ∨ ¬ s.life.powered ∨ s.life.frozen then s
    else if ¬ cxlCommands.contains opcode.toNat then s.modHost fun h => { h with out := h.out ++ [.cxlMailbox 0x0015 []] }
    else
      let body := if opcode = 0x0101 then [] else leBytes 8 (Config.unstated s.freeCtr (0x1000 + payload.length)).toNat
      s.freshen.modHost fun h => { h with out := h.out ++ [.cxlMailbox 0 body] })

/-- IDE_KM (R301): within a secured SPDM session. Responses carry their message's object ID (log entry 10). -/
def execIdeKm (session : Nat) (c : IdeKm) (s : State) : Host.Outcome State Fault Refusal :=
  .next (
    if ¬ s.hubRuns ∨ ¬ s.fw.sessions.any (fun x => x.id == session && x.finished) then s
    else
      let say (t : State) (code : Byte) : State := t.modHost fun h => { h with out := h.out ++ [.ideRsp code] }
      let has (slot : Byte) : Bool := s.host.ideKeys.any fun k => k.2.1 == slot.toNat
      match c with
      | .query => say s 0x01
      | .keyProg slot key =>
        say (s.modHost fun h => { h with
          ideKeys := h.ideKeys.filter (fun k => k.2.1 != slot.toNat) ++ [(session, slot.toNat, key)] }) 0x03
      | .setGo slot => if has slot then say (s.modHost fun h => { h with ideState := Tbl.set h.ideState slot.toNat 1 }) 0x06 else s
      | .setStop slot => say (s.modHost fun h => { h with
          ideState := Tbl.set h.ideState slot.toNat 0, ideKeys := h.ideKeys.filter fun k => k.2.1 != slot.toNat }) 0x06)

/-! ### MSI-X masks (R318) -/

/-- Send the pending messages that nothing masks any more. -/
def State.sendPending (s : State) : State :=
  let h := s.host
  if !h.linkUp || h.perst || !h.msixEnable || h.msixMask || s.life.frozen then s
  else
    let go := h.vecPending.filter fun v => h.vecUnmasked.contains v
    s.modHost fun h => { h with vecPending := h.vecPending.filter (fun v => !go.contains v), out := h.out ++ go.map .msix }

/-- MSIX_VECTOR_UNMASK: one vector's mask, or (none) the function mask, with MSI-X enabled (log entry 10). -/
def execMsixVectorUnmask (v : Option (Fin 67)) (s : State) : Host.Outcome State Fault Refusal :=
  .next (
    if ¬ s.host.linkUp ∨ s.host.perst then s
    else
      match v with
      | some i => (s.modHost fun h =>
          { h with vecUnmasked := if h.vecUnmasked.contains i.val then h.vecUnmasked else h.vecUnmasked ++ [i.val] }).sendPending
      | none => (s.modHost fun h => { h with msixEnable := true, msixMask := false }).sendPending)

end Sys2Proof.Machine
end

