-- ==== Sys2Proof/Machine/BringUp.lean ====
section
/-! DEFINITION. From power to ready (14), module and cold reset (11 R281-R283, Table 11-4), the input and reset pins (19 R431,
R439-R441), and the firmware a hub boots (16 R388-R390). -/

namespace Sys2Proof.Machine

/-! ### Boot firmware (R388, R389) -/

/-- A hub's firmware. -/
def State.fwHub (s : State) (h : Nat) : FwHub := Tbl.getD s.fw.hubs h FwHub.reset
/-- Change a hub's firmware. -/
def State.modFwHub (s : State) (h : Nat) (f : FwHub → FwHub) : State :=
  s.modFw fun w => { w with hubs := Tbl.set w.hubs h (f (s.fwHub h)) }
/-- Slot n of a hub's store. -/
def FwHub.slot (x : FwHub) (n : Nat) : FwSlot := if n = 0 then x.slot0 else x.slot1
/-- Replace slot n. -/
def FwHub.setSlot (x : FwHub) (n : Nat) (v : FwSlot) : FwHub := if n = 0 then { x with slot0 := v } else { x with slot1 := v }
/-- The image of slot n that passes the signature and floor checks. -/
def FwHub.good (x : FwHub) (n : Nat) : Option FwInfo := (x.slot n).info.filter fun i => decide (x.floor ≤ i.security)
/-- Whether a hub finds an image to boot. -/
def FwHub.boots (x : FwHub) : Bool := (x.good x.next).isSome || (x.good (1 - x.next)).isSome

/-- Boot hub h: the slot of its slot record, else the other one with a fallback record, and the record then names that slot. -/
def State.bootFw (s : State) (h : Nat) : State :=
  let x := s.fwHub h
  match x.good x.next, x.good (1 - x.next) with
  | some i, _ => s.modFwHub h fun y => { y with booted := x.next, running := i }
  | none, some i =>
    (s.raise { unit := hubOf h, cls := clsTimeout, actions := actCounted,
               detail := [(32, 11), (33, x.next), (34, b2n (x.slot x.next).info.isSome)] }).modFwHub h fun y =>
      { y with booted := 1 - x.next, next := 1 - x.next, running := i }
  | none, none => s

/-! ### Choosing the active hub (R350, R351) -/

/-- Return a unit to service: its fence map entries go (R260, R354). A region whose phases suffice again is dark no more, so the
timeline raises it (15 R371). -/
def State.unfence (s : State) (u : Word) : State :=
  let gone := s.flt.fenceMap.any fun e => e.unit == u
  let s1 := s.modFlt fun f => { f with
    fenced := f.fenced.filter (· != u), fenceMap := f.fenceMap.filter (fun e => e.unit != u),
    fenceQueue := f.fenceQueue.filter (fun e => e.unit != u), clearPending := f.clearPending.filter (· != u),
    fenceGen := f.fenceGen + (if gone then 1 else 0), mgrFenced := f.mgrFenced.filter fun n => managerUnit n != u }
  let s2 := s1.modNet fun n => { n with linkFenced := n.linkFenced.filter fun l => onDieUnit l != u }
  if uKind u = 14 then
    let key := regionKey u
    let s3 := s2.modPower fun p => { p with
      lost := Tbl.set p.lost key (Tbl.getD p.lost key 0 &&& ~~~ BitVec.ofNat 9 (2 ^ uIndex u)) }
    if (s3.region key).gone ∧ (phasesOf key).2 ≤ s3.phasesOk key then
      s3.modPower fun p => { p with state := Tbl.erase p.state key }
    else s3
  else s2

/-- Known-answer tests of one control processor: a failing one is fenced, a cleared one that passes returns. -/
def State.testProcessor (s : State) (h i : Nat) (ok : Bool) : State :=
  let u := hubProcessor h i
  if ok then (if s.flt.clearPending.contains u then s.unfence u else s)
  else if s.isFenced u then s
  else
    let seq := s.nextSeq u
    (s.raise { unit := u, cls := clsPatrol, opKind := 7, scope := 9, actions := actFenced, detail := [(32, 1), (56, 0xFFFF)] }).fenceUnit
      u clsPatrol seq

/-- Control processors of a hub in service. -/
def State.processorsOk (s : State) (h : Nat) (t : BringUp) : Nat :=
  (List.range 4).countP fun i => t.hubProcessors.getLsbD (4 * h + i) && !s.isFenced (hubProcessor h i)

/-- Whether a hub passes its security checks (Table 16-2). -/
def State.hubSecure (s : State) (h : Nat) (t : BringUp) : Bool := t.hubSecure.getLsbD h && (s.fwHub h).boots

/-- R350. -/
def State.hubUsable (s : State) (h : Nat) (t : BringUp) : Bool :=
  s.hubSecure h t && decide (2 ≤ s.processorsOk h t) && t.hubWatchdogs.getLsbD h && !(s.region ((30 + h) * 16)).gone

/-- The trip that the last power-on ended with is recorded once a hub runs (15 R380, 19 R431). -/
def State.noteTrip (s : State) : State :=
  match s.power.trip with
  | none => s
  | some k =>
    (s.raise (if k = 1 then { unit := phaseUnit 482 0, cls := clsPhase, actions := actCounted, detail := [(32, 1)] }
              else { unit := s.hubUnit, cls := clsThermal, scope := 10, actions := actCounted })).modPower fun p => { p with trip := none }

/-- Steps 2 and 3 of Table 14-1: boot ROMs, choice of the active hub; without a usable hub recovery holding, or nothing. -/
def State.bootHubs (s : State) (t : BringUp) : State :=
  let s1 := (List.range 8).foldl (fun x k => x.testProcessor (k / 4) (k % 4) (t.hubProcessors.getLsbD k)) s
  let s2 := (s1.bootFw 0).bootFw 1
  let a := s2.hubUsable 0 t
  let b := s2.hubUsable 1 t
  let s3 := s2.modLife fun l => { l with
    usable := BitVec.ofNat 2 (b2n a + 2 * b2n b), activeHub := if a then 0 else if b then 1 else 0, standby := false,
    failingHub := false, tests := some t }
  if a ∨ b then (s3.noteTrip).modFw fun f => { f with role := if a then 1 else 2 }
  else
    let any_ := decide (0 < s2.processorsOk 0 t + s2.processorsOk 1 t)
    (s3.modLife fun l => { l with state := if any_ then .recovery else .noProcessor }).modFlt fun f =>
      { f with hbWord := if any_ then 0x10000000 else 0 }

/-! ### Power on and off -/

/-- The module with power, before step 2: units of the fence map are fenced, regions short of phases stay dark, RETIRED channels
stay so unless cleared (R354). -/
def State.powerUp (s : State) : State :=
  let b := s.unpowered
  let fenced := (b.flt.fenceMap.map fun e => e.unit).eraseDups
  let dark := allRegions.filter fun k => decide (b.phasesOk k < (phasesOf k).2)
  { b with
    count := 0,
    life := { b.life with state := .bringup, powered := true },
    flt := { b.flt with
      fenced := fenced, boot := b.flt.boot + 1, wear := b.flt.wearCheckpoint,
      mgrFenced := (List.range 30).filter fun n => fenced.contains (managerUnit n) },
    power := { b.power with state := dark.foldl (fun t k => Tbl.set t k .dark) [] },
    mem := { b.mem with chanState := (List.range 128).foldl (fun t c =>
      if fenced.contains (chanUnit c) ∧ ¬ b.flt.clearPending.contains (chanUnit c) then Tbl.set t c .retired else t) [] } }

/-- Table 14-1 from step 1: the straps are sampled in step 2, which waits while MOD_RESET_N is low (R441). -/
def State.powerOn (s : State) (t : BringUp) : State :=
  let s1 := s.powerUp
  if s1.mgmt.modResetLow then s1 else (s1.modLife fun l => { l with strap := t.strap }).bootHubs t

/-- POWER_ON (19 R431). -/
def execPowerOn (tests : BringUp) (s : State) : Host.Outcome State Fault Refusal :=
  .next (if s.life.state = .off then s.powerOn tests else s)

/-- INPUT_UNDERVOLTAGE: every rail off; a latch ends with the input (15 R365). -/
def execInputUndervoltage (s : State) : Host.Outcome State Fault Refusal := .next s.unpowered

/-- INPUT_OVERVOLTAGE: off and latched, with the cause in the identity store. -/
def execInputOvervoltage (s : State) : Host.Outcome State Fault Refusal :=
  .next (if s.life.state = .off ∨ s.life.state = .tripped then s else s.tripOff 1)

/-! ### Module reset (R281-R283, Table 11-4) -/

/-- Fault state across a module reset. -/
def FaultSt.moduleReset (f : FaultSt) (now : DWord) : FaultSt :=
  { (f.dumpStops now) with
    collectors := f.collectors.filter fun e => decide (24 ≤ e.1), suspects := [], touch := [], escalations := [], fatal := false,
    fatalSeq := 0, hbLast := [], patrolLast := [], patrolDone := [], suites := [], suiteHome := [], resetPending := none,
    abortPending := [] }

/-- Memory across a module reset: DRAM, its map and its remap stay, staging and the catalogue do not. -/
def MemSt.moduleReset (m : MemSt) : MemSt :=
  { m with shoals := [], windows := [], modObjs := [], objOwner := [], modWaits := [], directory := [], records := [], listMem := [],
           catWaiting := [], retireQueue := m.retireQueue }

/-- Networks across a module reset: the isle and shoal domains start anew, the oscillators run on. -/
def NetSt.moduleReset (n : NetSt) : NetSt :=
  { NetSt.reset with linkFenced := n.linkFenced, osc0 := n.osc0, osc1 := n.osc1, onOsc1 := n.onOsc1, switchAt := n.switchAt,
                     causeDelivered := n.causeDelivered }

/-- Power across a module reset: isle and shoal regions go off to be raised again. -/
def PowerSt.moduleReset (p : PowerSt) : PowerSt :=
  { p with state := p.state.filter fun e => decide (24 * 16 ≤ e.1) || e.2.gone, granted := [], pwDuty := 0, capped := [], current := [],
           queue := [], ramping := [] }

/-- The host port when a module reset starts: the link stays up; host reads that wait end with poison (R303). -/
def HostSt.moduleReset (h : HostSt) : HostSt :=
  let reads := h.biWaits.filterMap fun w => w.hostRead
  { h with biWaits := [], out := h.out ++ reads.map (fun r => .memPoison (r.1 * 64)), memResets := satAdd32 h.memResets reads.length }

/-- Firmware state across a module reset: sessions and an activation in progress end (16 R401). -/
def FwSt.moduleReset (w : FwSt) : FwSt :=
  { w with session := none, activation := none, doneDeferred := false, cores := [], sealKeys := [], role := 0, spdmStage := 0,
           sessions := [], chunkIn := none, chunkOut := none }

/-- Module reset begins: what Table 11-4 marks lost is at its reset value. After a freeze every link retrains (17 R416). -/
def State.beginModuleReset (s : State) : State :=
  let t : State :=
    { s with
      life := { s.life with state := .moduleReset, frozen := false, frozenCount := 0, tests := none, failingHub := false,
                            standby := false },
      atolls := [], parts := [], reconfs := [], events := [], mailboxes := [], coll := CollSt.reset,
      fab := { s.fab with
        waiting := [], unacked := [],
        straits := s.fab.straits.map fun e => (e.1, { e.2 with
          collIn := [], syncIn := [], early := [], remoteIn := e.2.remoteIn, accepted := false }) },
      mem := s.mem.moduleReset, net := s.net.moduleReset, flt := s.flt.moduleReset s.count, host := s.host.moduleReset,
      power := s.power.moduleReset, fw := s.fw.moduleReset,
      mgmt := { s.mgmt with stopped := 0, notice := false, resetHeld := false } }
  let u := if s.life.frozen then t.retrainAll else t
  u.modFlt fun f => { f with hbWord := u.heartbeat }

/-- R290: a counted reset joins the history; at the limit the module goes out of service. -/
def State.countReset (s : State) (counted : Bool) : State :=
  if ¬ counted then s
  else
    let s1 := s.modFlt fun f => { f with moduleResets := f.moduleResets ++ [s.count] }
    if s1.countedResets ≥ s.param 0x0B05 then s1.modFlt fun f => { f with outOfService := true } else s1

/-- MODULE_RESET: the pending module reset begins; it waits at most 2 s for the dump of a fatal escalation (R296). -/
def execModuleReset (tests : BringUp) (s : State) : Host.Outcome State Fault Refusal :=
  .next (
    match s.flt.resetPending with
    | none => s
    | some (counted, since) =>
      let dumping := s.dumpDue || (s.flt.dump.map fun d => d.taking && d.cause == 1).getD false
      if ¬ s.life.powered ∨ s.life.state = .stopped ∨ s.life.frozen ∨ (dumping ∧ ageOf s.count since < 200000000 ∧ s.hubRuns) then s
      else
        let t := (s.countReset counted).beginModuleReset
        if t.mgmt.modResetLow then t else t.bootHubs tests)

/-! ### The tests (R353, R354) -/

/-- Cleared units that pass return to service; a channel is trained only at power-on. -/
def State.resolveClears (s : State) (t : BringUp) (fresh : Bool) : State :=
  let back := s.flt.clearPending.filter fun u =>
    !(t.failingUnits.any fun e => e.1 == u) && (fresh || !(uDieKind u == 1 && uKind u == 8))
  let s1 := back.foldl (fun x u => x.unfence u) s
  s1.modFlt fun f => { f with clearPending := f.clearPending.filter fun u => !fresh && uDieKind u == 1 && uKind u == 8 }

/-- Step 4 of Table 14-1: regions are raised in order, each at the step that fits the budget; what does not fit stays queued. -/
def State.raiseRegions (s : State) : State :=
  let order := (allRegions.filter fun k => decide (24 * 16 ≤ k)) ++ (allRegions.filter fun k => decide (8 * 16 ≤ k ∧ k < 24 * 16)) ++
    allRegions.filter fun k => decide (k < 8 * 16)
  order.foldl (fun x k =>
    if (x.region k).gone then x
    else
      match x.fits (.region k 0) with
      | none => x.request (.region k 0)
      | some step =>
        let y := x.modPower fun p => { p with
          state := Tbl.set p.state k .on, granted := if step = 0 then p.granted else Tbl.set p.granted k step,
          setpoint := Tbl.set p.setpoint k (Tbl.getD p.setpoint k (regionWindow k step).1) }
        if keyLogic k ∧ y.stepFor k ≠ 0 then y.modNet fun n => { n with arith := Tbl.set n.arith k (y.stepFor k) } else y) s

/-- A unit that fails a test is fenced with the class of the test and contained. -/
def State.failTest (s : State) (u : Word) (cls : Half) : State :=
  if s.isFenced u ∨ ((uAtoll u).map fun g => s.isFenced (siteUnit g)).getD false then s
  else
    let seq := s.nextSeq u
    let k := uKind u
    let scope := if k = 1 ∨ k = 2 ∨ (k = 5 ∧ uIndex u = 1) ∨ k = 9 then 1 else if k = 5 then 3 else if k = 7 ∨ k = 15 then 6
      else if k = 13 then 8 else if (uAtoll u).isSome then 2 else 7
    let s1 := s.raise { unit := u, cls := cls, opKind := 7, scope := scope, actions := actFenced,
                        detail := if cls = clsPatrol then [(32, 1), (56, 0xFFFF)] else [] }
    if uKind u = 13 then (if uNode u < 30 then s1.fenceManager (uNode u) cls seq else s1.fenceUnit u cls seq) else s1.contain u cls seq

/-- Cores that took no good image (R352). -/
def State.failCores (s : State) : State :=
  s.fw.cores.foldl (fun x e =>
    if e.2.running then x
    else if e.1 < 32 then x.failTest (managerUnit e.1) clsPatrol
    else x.failTest (atollUnit ((e.1 - 32) / 2) 3 15 0x3FF) clsPatrol) s

/-- R255, R353: the raised run of the known-answer tests counts toward the patrol margin of the sites. -/
def State.raisedRuns (s : State) (fails : List Word) : State :=
  (List.range 320).foldl (fun x g =>
    let u := siteUnit g
    let miss := fails.any fun f => uAtoll f == some g
    let w := Tbl.getD x.flt.wear u.toNat Wear.zero
    if ¬ x.siteHealthy g ∨ (¬ miss ∧ w.patrols.isEmpty) then x
    else x.modFlt fun f => { f with wear := Tbl.set f.wear u.toNat { w with patrols := w.patrols.drop (w.patrols.length - 9) ++ [miss] } }) s

/-- Channels: trained at power-on, checked after self-refresh in a module reset (Table 14-2 step 5). -/
def State.testChannels (s : State) (t : BringUp) (fresh : Bool) : State :=
  if fresh then
    (s.modMem fun m => { m with chanState := t.failingChannels.foldl (fun x c =>
      if c < 128 ∧ Tbl.getD x c .healthy = .healthy then Tbl.set x c .notTrained else x) m.chanState }).rebuildDram
      (s.param 0x0600) (s.param 0x0601)
  else t.failingChannels.foldl (fun x c => x.wantRetire c) s

/-- Links: those DOWN train, and fenced lanes are tried again (R197, R198, R354); none with the standalone strap. -/
def State.testLinks (s : State) (t : BringUp) : State :=
  if s.life.strap.getLsbD 0 then
    (List.range 96).foldl (fun x l => x.modLink l fun y => { y with state := 6 }) s
  else
    (List.range 96).foldl (fun x l =>
      let lanes := ((t.linkLanes.find? fun e => e.1 == l).map fun e => e.2).getD 0
      let y := x.link l
      let ok (i : Nat) : Bool := bits lanes i 1 == 1
      let x1 := if ¬ y.enable ∨ y.state = 6 then x
        else if y.state ≤ 1 then x.trainLink l (ok 0) (ok 1)
        else if y.fencedLanes = 0 then x
        else x.modLink l fun z =>
          let w := { z with fencedLanes := z.fencedLanes &&& ~~~ BitVec.ofNat 2 lanes }
          { w with state := w.widthState x.cells }
      let back := [(linkUnit l 0, ok 0), (linkUnit l 1, ok 1), (linkUnit l 0x3FF, ok 0 && ok 1)].filter fun e =>
        e.2 && (x1.flt.fenceMap ++ x1.flt.fenceQueue).any fun f => f.unit == e.1 && f.retry
      back.foldl (fun z e => z.unfence e.1) x1) s

/-- Stream units, update engines and network interfaces. -/
def testedBlocks : List Word :=
  ((List.range 16).map fun h => ((List.range 4).map fun u => streamUnitId h u) ++ [shoalUnit h 10 0 0x3FF]).flatten ++
    ((List.range 6).map fun x => [straitUnit x 10 0 0x3FF, straitUnit x 12 0 0x3FF]).flatten

/-- R353: the known-answer run sets the counts of the last passing patrols. -/
def State.stampPatrols (s : State) : State :=
  let gap : Tbl DWord := (List.range 7).map fun i => (i, s.count)
  let s1 := (List.range 320).foldl (fun x g =>
    if x.siteHealthy g then x.modAtoll g fun a => { a with patrolFull := s.count, patrolGap := gap } else x) s
  s1.modFlt fun f => { f with patrolLast := testedBlocks.foldl (fun t u =>
    if s.isFenced u then t else Tbl.set t u.toNat s.count) f.patrolLast }

/-- R352, R394: the image that the active hub runs is on every manager core and scalar core; both hubs and all dies are heard. -/
def State.spreadFirmware (s : State) : State :=
  let i := (s.fwHub s.life.activeHub).running
  let s1 := s.modFw fun w => { w with
    managers := (List.range 30).map fun n => (n, i.manager), scalars := [i.scalar],
    staged := w.staged.filter fun x => x != i }
  (s1.modFlt fun f => { f with hbLast := (List.range 30).map fun n => (n, s.count.toNat) }).modLife fun l =>
    { l with liveLast := [(0, s.count.toNat), (1, s.count.toNat)] }

/-! ### The state decision (R356, R290) -/

/-- Table 14-5. -/
def State.holds (s : State) (t : BringUp) : Bool :=
  decide (s.healthyCount < s.param 0x0E00) || decide (s.devicesPassing < 28) ||
    (!s.life.strap.getLsbD 0 && decide (s.linksTrained < s.param 0x0E01)) || !s.hubSecure 0 t || !s.hubSecure 1 t

/-- A standby exists when both hubs are usable and run the same image (R350, R390). -/
def State.standbyNow (s : State) : Bool :=
  s.life.usable == 3 && (s.fwHub 0).running.version == (s.fwHub 1).running.version

/-- Steps 4 to 8 of Table 14-1, 2 to 7 of Table 14-2. -/
def State.endTimeline (s : State) (t : BringUp) : State :=
  let fresh := decide (s.life.state = .bringup)
  let s1 := (s.resolveClears t fresh).raiseRegions
  let k := t.failingUnits.foldl (fun x e => if x.life.powered then x.failTest e.1 e.2 else x) s1
  if ¬ k.life.powered then k
  else
  let s2 := k.failCores
  let s3 := t.failingBanks.foldl (fun x e => x.modShoal e.1 fun h => { h with badBanks := Tbl.set h.badBanks e.2 3 }) s2
  let s4 := ((s3.testChannels t fresh).testLinks t).raisedRuns t.raisedFails
  let s5 := s4.stampPatrols.spreadFirmware
  let s6 := s5.modNet fun n => { n with causeRoute := s5.causeTables }
  let state : LifeState := if s6.flt.outOfService then .outOfService else if s6.holds t then .holding else .ready
  let s7 := s6.modLife fun l => { l with state := state, standby := s6.standbyNow, tests := none }
  let s8 := s7.modFlt fun f => { f with hbWord := s7.heartbeat }
  let s9 := s8.postEvent { type := 4, mailboxes := [0], content := leBytes 8 s8.heartbeat.toNat }
  if ¬ s9.mgmt.resetHeld then s9
  else if s9.mgmt.modResetLow then s9.beginModuleReset
  else (s9.modMgmt fun g => { g with resetHeld := false }).askReset false

/-- BRINGUP_STATE_DECISION: the end of a power-on or module-reset timeline. -/
def execBringupStateDecision (s : State) : Host.Outcome State Fault Refusal :=
  .next (
    match s.life.tests with
    | none => s
    | some t =>
      let going := s.life.state = .bringup ∨ s.life.state = .moduleReset
      if ¬ going ∨ s.life.frozen ∨ ¬ s.ticks then s else s.endTimeline t)

/-! ### Firmware broadcast and the standby's image (R352, R390) -/

/-- Number of a core that takes broadcast firmware: a manager core's node, or 32 + 2 g + c. -/
def fwCoreNum : FwCore → Nat
  | .manager n => n.val
  | .scalar g c => 32 + 2 * g.val + c.val

/-- FIRMWARE_BLOCK_RECEIVE: a bad block is asked for again up to three times; a complete image starts only with its seal. -/
def execFirmwareBlockReceive (core : FwCore) (last : Bool) (crcOk sealOk : Bool) (s : State) : Host.Outcome State Fault Refusal :=
  .next (
    let k := fwCoreNum core
    let x := Tbl.getD s.fw.cores k { blocks := 0, asks := 0, running := false, failed := false }
    let going := s.life.state = .bringup ∨ s.life.state = .moduleReset
    if ¬ going ∨ s.life.frozen ∨ s.life.tests.isNone ∨ x.running ∨ x.failed then s
    else
      let y := if ¬ crcOk then { x with asks := x.asks + 1, failed := decide (x.asks ≥ 3) }
        else if ¬ last then { x with blocks := x.blocks + 1, asks := 0 }
        else { x with blocks := x.blocks + 1, asks := 0, running := sealOk, failed := !sealOk }
      s.modFw fun w => { w with cores := Tbl.set w.cores k y })

/-- STANDBY_IMAGE_SYNC: the standby boots the active hub's image from its other slot. -/
def execStandbyImageSync (s : State) : Host.Outcome State Fault Refusal :=
  .next (
    let a := s.life.activeHub
    let b := 1 - a
    if ¬ s.hubRuns ∨ s.life.usable ≠ 3 ∨ s.life.standby ∨ s.fw.activation.isSome ∨
        (s.fwHub a).running.version = (s.fwHub b).running.version then s
    else
      let x := s.fwHub a
      let y := s.fwHub b
      let n := 1 - y.booted
      let s1 := (s.modFwHub b fun z => { z.setSlot n (x.slot x.booted) with next := n }).bootFw b
      (s1.modLife fun l => { l with standby := s1.standbyNow }).noteChange s)

/-! ### MOD_RESET_N (R440, R441) -/

/-- MOD_RESET_N_FALL: module reset begins at the filtered edge; during a timeline it is held until that ends. -/
def execModResetNFall (s : State) : Host.Outcome State Fault Refusal :=
  .next (
    let s1 := s.modMgmt fun g => { g with modResetLow := true }
    let going := (s.life.state = .bringup ∨ s.life.state = .moduleReset) ∧ ¬ s.life.frozen
    if s.mgmt.modResetLow ∨ ¬ s.life.powered ∨ s.life.state = .stopped then s1
    else if going then s1.modMgmt fun g => { g with resetHeld := true }
    else s1.beginModuleReset)

/-- MOD_RESET_N_RISE: the timeline that waited starts; after a cold-reset request the power-on timeline does. -/
def execModResetNRise (tests : BringUp) (s : State) : Host.Outcome State Fault Refusal :=
  .next (
    let s1 := s.modMgmt fun g => { g with modResetLow := false }
    if s.life.state = .stopped then (if s.life.powered then s1 else s1.powerOn tests)
    else if s.life.frozen ∨ s.life.tests.isSome then s1
    else if s.life.state = .bringup then (s1.modLife fun l => { l with strap := tests.strap }).bootHubs tests
    else if s.life.state = .moduleReset then s1.bootHubs tests
    else s1)

/-- COLD_RESET_REQUEST: MOD_RESET_N low for 2 s: every rail off, and a latched trip ends; its flag stays for the record. -/
def execColdResetRequest (s : State) : Host.Outcome State Fault Refusal :=
  .next (
    if ¬ s.mgmt.modResetLow ∨ s.life.state = .off then s
    else s.unpowered.modLife fun l => { l with state := .stopped })

end Sys2Proof.Machine
end

