-- ==== Sys2Proof/Machine/Firmware.lean ====
section
/-! DEFINITION. Firmware images, staging and activation, the hitless update and the seal (16 R391-R401). -/

namespace Sys2Proof.Machine

/-! ### Images (R391, R392) -/

/-- Size of a firmware slot. -/
def slotBytes : Nat := 33554432

/-- What the fields of an image header state, bounds of its blocks, and its key index. -/
structure ImageMap where
  info : FwInfo
  key : Nat
  blocks : List (Nat × Nat)
  bytes : Nat

/-- Start and length of each block: contiguous from the first 64-byte boundary after the block table. -/
def blockSpans (m : Mem) : Nat → Nat → Nat → List (Nat × Nat)
  | 0, _, _ => []
  | n + 1, i, start =>
    let len := Mem.readNat m (256 + 8 * i) 4
    (start, len) :: blockSpans m n (i + 1) (start + len)

/-- First block, block count, type and version of component k. -/
def component (m : Mem) (k : Nat) : Nat × Nat × Nat × Nat :=
  let b := 32 + 16 * k
  (Mem.readNat m (b + 2) 2, Mem.readNat m (b + 4) 2, Mem.readNat m b 1, Mem.readNat m (b + 8) 4)

/-- Whether n bytes from a are 0. -/
def zeros (m : Mem) (a n : Nat) : Bool := (Mem.readBytes m a n).all fun b => b == 0

/-- Whether components cover the blocks in ascending order without gap or overlap. -/
def covers : List (Nat × Nat × Nat × Nat) → Nat → Nat → Bool
  | [], at_, total => at_ == total
  | c :: cs, at_, total => c.1 == at_ && covers cs (at_ + c.2.1) total

/-- Tables 16-3 and 16-4 and the block table: what an image of n bytes states, none when a field is wrong. -/
def imageMap (m : Mem) (n : Nat) : Option ImageMap :=
  let r (a k : Nat) : Nat := Mem.readNat m a k
  let blocks := r 20 2
  let comps := (List.range (r 22 1)).map fun k => component m k
  let spans := blockSpans m blocks 0 ((256 + 8 * blocks + 63) / 64 * 64)
  let stop := match spans.getLast? with
    | some e => e.1 + e.2
    | none => 0
  let types := comps.map fun c => c.2.2.1
  let header := r 0 4 == 0x58524349 && r 4 1 == 1 && decide (r 5 1 ≤ 3) && zeros m 6 2 && decide (r 12 1 ≤ 64) && zeros m 13 1 &&
    decide (r 16 4 % 64 = 0) && decide (r 16 4 ≤ n) && decide (1 ≤ blocks ∧ blocks ≤ 512) && decide (1 ≤ r 22 1 ∧ r 22 1 ≤ 6) &&
    zeros m 23 9 && zeros m 128 128
  let parts := (List.range comps.length).all (fun k => zeros m (33 + 16 * k) 1 && zeros m (38 + 16 * k) 2 && zeros m (44 + 16 * k) 4) &&
    comps.all (fun c => decide (c.1 < 1024) && decide (c.2.1 < 1024)) && comps.length == 5 &&
    [1, 2, 3, 4, 5].all (fun t => types.contains t) && covers comps 0 blocks
  let table := spans.all fun e => decide (64 ≤ e.2 ∧ e.2 ≤ 65536 ∧ e.2 % 64 = 0)
  let ver (t : Nat) : Word := BitVec.ofNat 32 (((comps.find? fun c => c.2.2.1 == t).map fun c => c.2.2.2).getD 0)
  if header && parts && table && r 16 4 == stop + 192 && zeros m (stop + 132) 60 then
    some { info := { version := BitVec.ofNat 32 (r 8 4), security := r 12 1, hMajor := r 14 1, hMinor := r 15 1, manager := ver 2,
                     scalar := ver 5 },
           key := r 5 1, blocks := spans, bytes := r 16 4 }
  else none

/-- R392: why an image of n bytes does not verify, or what it states. -/
def State.verifyImage (s : State) (m : Mem) (n : Nat) : Except Nat FwInfo :=
  match imageMap m n with
  | none => .error mbBadField
  | some i =>
    let crcOk := (List.range i.blocks.length).all fun k =>
      match i.blocks[k]? with
      | some e => crc32c (Mem.readBytes m e.1 e.2) == Mem.readNat m (256 + 8 * k + 4) 4
      | none => true
    let first := match i.blocks.head? with
      | some e => Mem.readBytes m e.1 e.2
      | none => []
    if ¬ crcOk then .error mbBadField
    else if s.fw.revoked.getLsbD i.key ∨ ¬ Config.keyHashOk i.key first ∨
        ¬ Config.signatureOk (Mem.readBytes m 0 (i.bytes - 192)) (Mem.readBytes m (i.bytes - 192) 192) then .error mbAuthFail
    else .ok i.info

/-! ### Staging (R396) -/

/-- Hubs whose inactive slot an image is written to: the usable ones, in recovery holding both. -/
def State.stageHubs (s : State) : List Nat :=
  if s.hubRecovers then [0, 1] else (List.range 2).filter fun h => s.life.usable.getLsbD h

/-- The slot that a hub does not run. -/
def FwHub.idle (x : FwHub) : Nat := 1 - x.booted

/-- `first`: erase the idle slots and open the session. -/
def State.openStage (s : State) (pldm : Bool) : State :=
  let s1 := s.stageHubs.foldl (fun t h => t.modFwHub h fun x => x.setSlot x.idle { mem := [], info := none }) s
  s1.modFw fun w => { w with session := some (pldm, 0), staged := none, doneDeferred := false }

/-- Write image bytes at an offset of every idle slot. -/
def State.putStage (s : State) (off : Nat) (data : List Byte) : State :=
  let s1 := s.stageHubs.foldl (fun t h => t.modFwHub h fun x =>
    x.setSlot x.idle { mem := Mem.writeBytes (x.slot x.idle).mem off data, info := none }) s
  s1.modFw fun w => { w with session := w.session.map fun e => (e.1, max e.2 (off + data.length)) }

/-- `last`: verify the image in every written slot and check the floor; the session ends. -/
def State.closeStage (s : State) (n : Nat) : State × Except Nat FwInfo :=
  let t := s.modFw fun w => { w with session := none }
  let rs := s.stageHubs.map fun h => (h, s.verifyImage ((s.fwHub h).slot (s.fwHub h).idle).mem n)
  match rs.find? fun e => !e.2.isOk, rs.head? with
  | some (_, .error e), _ => (t, .error e)
  | _, some (_, .ok i) =>
    if rs.any fun e => decide (i.security < (s.fwHub e.1).floor) then (t, .error mbVersion)
    else
      let t1 := rs.foldl (fun u e => u.modFwHub e.1 fun x => x.setSlot x.idle { (x.slot x.idle) with info := some i }) t
      (t1.modFw fun w => { w with staged := some i }, .ok i)
  | _, _ => (t, .error mbNoResource)

/-- FW_STAGE. A command that continues a session needs its own one open. -/
def execFwStage (m : Fin 34) (s : State) : Host.Outcome State Fault Refusal :=
  s.mbRow m 0x500 fun c =>
    let first := flag c.img 32 0
    let last := flag c.img 32 1
    let off := fld c.img 24 0 32
    if s.fw.activation.isSome ∨ (first ∧ s.fw.session.isSome) then s.mbEnd m c mbBusy
    else if ¬ first ∧ s.fw.session.isNone then s.mbEnd m c mbNoResource
    else if ¬ first ∧ (s.fw.session.map fun e => e.1).getD false then s.mbEnd m c mbBusy
    else s.mbLong m c fun t c' =>
      match t.hostGet (fld c.img 16 0 64) (fld c.img 28 0 32) with
      | none => t.mbEnd m c' mbTimeout
      | some bs =>
        let t1 := (if first then t.openStage false else t).putStage off bs
        let held := (t1.fw.session.map fun e => e.2).getD 0
        if ¬ last then t1.mbEnd m c' mbDone 0xFFFF held
        else
          match t1.closeStage held with
          | (t2, .error e) => t2.mbEnd m c' e
          | (t2, .ok i) => t2.mbEnd m c' mbDone 0xFFFF (held + i.version.toNat * 2 ^ 32)

/-! ### Activation (R397) -/

/-- Scalar runtimes held: the newest, and older ones that a partition still uses (R395). -/
def State.scalarsHeld (s : State) : List Word :=
  match s.fw.scalars with
  | [] => []
  | v :: rest => v :: (rest.filter fun w => s.parts.any fun e => e.2.runtime == w).take 1

/-- Run a row of FW_ACTIVATE with one mode. -/
def State.activateRow (s : State) (m mode : Nat) (go : MbCmd → State) : Host.Outcome State Fault Refusal :=
  .next (match s.mbNext m fun c => mbOp c.img == 0x501 && fld c.img 16 0 2 == mode with
    | none => s
    | some c => if s.fw.activation.isSome then s.mbEnd m c mbBusy else go c)

/-- Each slot record names the staged slot. -/
def State.nameStaged (s : State) : State :=
  (List.range 2).foldl (fun t h => t.modFwHub h fun x =>
    if (x.slot x.idle).info.isSome ∧ (x.slot x.idle).info = s.fw.staged then { x with next := x.idle } else x) s

/-- Table 16-8: a pair of handover versions is compatible. -/
def FwInfo.meets (a b : FwInfo) : Bool := a.hMajor == b.hMajor && decide (a.hMinor ≤ b.hMinor + 1) && decide (b.hMinor ≤ a.hMinor + 1)

/-- The image that the active hub runs. -/
def State.fwActive (s : State) : FwInfo := (s.fwHub s.life.activeHub).running

/-- FW_ACTIVATE mode 0: step 1 of Table 16-7 starts. -/
def execFwActivateHitless (m : Fin 34) (s : State) : Host.Outcome State Fault Refusal :=
  s.activateRow m 0 fun c =>
    match s.fw.staged with
    | none => s.mbEnd m c mbNoResource
    | some i =>
      let dumping := (s.flt.dump.map fun d => d.taking).getD false
      let held := s.scalarsHeld
      if s.life.state ≠ .ready ∨ ¬ s.life.usable.getLsbD (1 - s.life.activeHub) then s.mbEnd m c mbNoResource
      else if dumping ∨ s.fw.session.isSome then s.mbEnd m c mbBusy
      else if ¬ i.meets s.fwActive then s.mbEnd m c mbVersion
      else if ¬ held.contains i.scalar ∧ held.length ≥ 2 then s.mbEnd m c mbBusy
      else s.mbLong m c fun t _ =>
        ((t.modFw fun w => { w with
          activation := some { info := i, step := 1, todo := [], deferred := [], second := false, updated := 0 },
          doneDeferred := false }).modLife fun l => { l with standby := false }).noteChange s

/-- FW_ACTIVATE mode 1: names the slot, then acts as RESET_MODULE. -/
def execFwActivateReset (m : Fin 34) (s : State) : Host.Outcome State Fault Refusal :=
  s.activateRow m 1 fun c =>
    if s.fw.staged.isNone then s.mbEnd m c mbNoResource
    else (((s.nameStaged).mbEnd m c mbAccepted).noticeAll 7 0).askReset false

/-- FW_ACTIVATE mode 2: names the slot only. -/
def execFwActivateDeferred (m : Fin 34) (s : State) : Host.Outcome State Fault Refusal :=
  s.activateRow m 2 fun c =>
    if s.fw.staged.isNone then s.mbEnd m c mbNoResource
    else s.nameStaged.mbLong m c fun t c' => t.mbEnd m c' mbDone 0xFFFF (t.fwActive.version.toNat * 2 ^ 32)

/-- FW_ACTIVATE mode 3: fuses are blown until the floor equals the running `security_version`. -/
def execFwRaiseFloor (m : Fin 34) (s : State) : Host.Outcome State Fault Refusal :=
  s.activateRow m 3 fun c =>
    let a := s.fwHub 0
    let b := s.fwHub 1
    if s.life.usable ≠ 3 ∨ a.running ≠ b.running ∨ a.running.security ≤ a.floor ∨ b.running.security ≤ b.floor then
      s.mbEnd m c mbNoResource
    else s.mbLong m c fun t c' =>
      ((t.modFwHub 0 fun x => { x with floor := max x.floor x.running.security }).modFwHub 1 fun x =>
        { x with floor := max x.floor x.running.security }).mbEnd m c' mbDone 0xFFFF (t.fwActive.version.toNat * 2 ^ 32)

/-- FW_STATUS `update`. -/
def State.updateCode (s : State) : Nat :=
  match s.fw.activation with
  | some a => if a.step ≤ 5 then 3 else 4
  | none => if s.fw.session.isSome then 1 else if s.fw.staged.isSome then 2 else if s.fw.doneDeferred then 5 else 0

/-- Manager cores that do not run the active hub's manager runtime. -/
def State.oldDies (s : State) : Nat :=
  (List.range 30).countP fun n => !s.flt.mgrFenced.contains n && Tbl.getD s.fw.managers n s.fwActive.manager != s.fwActive.manager

/-- Table 16-6. -/
def State.fwStatusBytes (s : State) : List Byte :=
  let hub (h : Nat) : List (Nat × Nat) :=
    let x := s.fwHub h
    let ver (o : Option FwInfo) : Nat := (o.map fun i => i.version.toNat).getD 0
    let b := 16 * h
    [(b, b2n (s.life.usable.getLsbD h) + 2 * b2n (s.life.activeHub == h) + 4 * x.booted + 8 * x.next), (b + 1, x.floor),
     (b + 4, x.running.version.toNat), (b + 8, ver x.slot0.info), (b + 12, ver x.slot1.info)]
  packBytes 64 (hub 0 ++ hub 1 ++ [(32, s.updateCode), (33, s.oldDies), (36, (s.fw.staged.map fun i => i.version.toNat).getD 0),
    (40, ((s.scalarsHeld.drop 1).head?.map BitVec.toNat).getD 0)])

/-- FW_STATUS. -/
def execFwStatus (m : Fin 34) (s : State) : Host.Outcome State Fault Refusal :=
  s.mbRow m 0x502 fun c => s.mbEnd m c mbDone 0xFFFF 0 s.fwStatusBytes

/-! ### The hitless update (Table 16-7) -/

/-- The FW_ACTIVATE that runs. -/
def State.activating (s : State) : Option (Nat × MbCmd) := s.mbAll.find? fun e => e.2.accepted && mbOp e.2.img == 0x501

/-- The end of an activation whose dies have all been visited. -/
def State.finishActivation (s : State) (a : Activation) : State :=
  let s1 := s.modFw fun w => { w with activation := none, doneDeferred := !a.deferred.isEmpty }
  match s1.activating with
  | some e => s1.mbEnd e.1 e.2 mbDone 0xFFFF (a.updated + a.deferred.length * 256 + s1.fwActive.version.toNat * 2 ^ 32)
  | none => s1

/-- Go on to the next die, to the deferred dies once, or to the end. -/
def State.nextDie (s : State) (a : Activation) : State :=
  if ¬ a.todo.isEmpty then s.modFw fun w => { w with activation := some a }
  else if ¬ a.deferred.isEmpty ∧ ¬ a.second then
    s.modFw fun w => { w with activation := some { a with todo := a.deferred, deferred := [], second := true } }
  else s.finishActivation a

/-- A hub restarts in a slot. -/
def State.restartHub (s : State) (h : Nat) (i : FwInfo) : State :=
  s.modFwHub h fun x => { x with booted := if (x.slot x.idle).info = some i then x.idle else x.booted, running := i }

/-- STANDBY_MIRROR_READY: a restarted hub has built its mirrors: step 2, or the end of step 5, of an activation, or any standby
that runs the active hub's image. -/
def execStandbyMirrorReady (s : State) : Host.Outcome State Fault Refusal :=
  .next (
    let b := 1 - s.life.activeHub
    if ¬ s.hubRuns ∨ ¬ s.life.usable.getLsbD b ∨ s.life.standby then s
    else
      match s.fw.activation with
      | some a =>
        if a.step = 1 then
          (((s.restartHub b a.info).modFw fun w => { w with activation := some { a with step := 2 } }).modLife fun l =>
            { l with standby := true }).noteChange s
        else if a.step = 5 then
          let todo := (List.range 30).filter fun n => !s.flt.mgrFenced.contains n
          ((((s.restartHub b a.info).modLife fun l => { l with standby := true }).nextDie { a with step := 6, todo := todo })).noteChange s
        else s
      | none => if s.standbyNow then (s.modLife fun l => { l with standby := true }).noteChange s else s)

/-- HANDOVER (steps 3 and 4): the standby becomes active; slot records name the staged slot, sessions end, and partitions keep the
scalar runtime they have. -/
def execHandover (s : State) : Host.Outcome State Fault Refusal :=
  .next (
    match s.fw.activation with
    | none => s
    | some a =>
      if ¬ s.hubRuns ∨ a.step ≠ 2 ∨ ¬ s.life.standby then s
      else
        let old := s.life.activeHub
        let s1 := s.swapHub (1 - old)
        let s2 := (List.range 2).foldl (fun t h => t.modFwHub h fun x =>
          { x with next := if h = old then (if (x.slot x.idle).info = some a.info then x.idle else x.next) else x.booted }) s1
        (s2.modFw fun w => { w with
          activation := some { a with step := 5 }, staged := none,
          scalars := a.info.scalar :: s.scalarsHeld.filter fun v => v != a.info.scalar }).noteChange s)

/-- Whether die `node` is at a quiet point (R400). -/
def State.quietDie (s : State) (node : Nat) : Bool :=
  let dump := (s.flt.dump.map fun d => d.taking).getD false
  let here (g : Nat) : Bool := g / 40 == node
  let isle := decide (node < 8) && (
    s.reconfs.any (fun r => (s.reconfAtolls r).any fun e => here e.2) ||
    s.parts.any (fun e => e.2.migrations.any (fun m => here m.source || here m.spare) ||
      (e.2.rollback.isSome && e.2.posAtoll.any fun k => here k.2)) ||
    (List.range 40).any fun i => (s.atoll (40 * node + i)).inReset)
  let shoal := decide (8 ≤ node ∧ node < 24) && (
    (s.mem.retiring.map fun r => r.chan / 8 == node - 8).getD false ||
    (List.range 16).any fun b => s.bank (node - 8) b == .closing || s.bank (node - 8) b == .draining)
  !dump && !isle && !shoal

/-- MANAGER_UPDATE: the die at the head of the list, at a quiet point; one that does not resume is a heartbeat loss. -/
def execManagerUpdate (node : Fin 32) (resumed : Bool) (s : State) : Host.Outcome State Fault Refusal :=
  .next (
    match s.fw.activation with
    | none => s
    | some a =>
      if ¬ s.hubRuns ∨ a.step ≠ 6 ∨ a.todo.head? ≠ some node.val ∨ ¬ s.quietDie node then s
      else
        let a1 := { a with todo := a.todo.drop 1 }
        if resumed then
          (s.modFw fun w => { w with managers := Tbl.set w.managers node a.info.manager }).nextDie { a1 with updated := a.updated + 1 }
        else
          let u := managerUnit node
          let seq := s.nextSeq u
          ((s.raise { unit := u, cls := clsHeartbeat, scope := 8, actions := actFenced + actEscalated }).fenceManager node clsHeartbeat
            seq).nextDie a1)

/-- FW_QUIET_TIMEOUT: the die at the head of the list is deferred. -/
def execFwQuietTimeout (node : Fin 32) (s : State) : Host.Outcome State Fault Refusal :=
  .next (
    match s.fw.activation with
    | none => s
    | some a =>
      if ¬ s.hubRuns ∨ a.step ≠ 6 ∨ a.todo.head? ≠ some node.val ∨ s.quietDie node then s
      else s.nextDie { a with todo := a.todo.drop 1, deferred := a.deferred ++ [node.val] })

/-! ### The seal (R394) -/

/-- SEAL_KEY_LOAD: accepted only from a hub whose role latch is set. -/
def execSealKeyLoad (core : FwCore) (source : Fin 32) (roleBit : Bool) (key : BitVec 256) (s : State) :
    Host.Outcome State Fault Refusal :=
  .next (
    if ¬ s.life.powered ∨ s.life.frozen ∨ source.val < 30 ∨ ¬ roleBit ∨ ¬ s.fw.role.getLsbD (source.val - 30) then s
    else s.modFw fun w => { w with sealKeys := Tbl.set w.sealKeys (fwCoreNum core) key })

end Sys2Proof.Machine
end

