-- ==== Sys2Proof/Machine/Attest.lean ====
section
/-! DEFINITION. SPDM 1.3 responder of the active hub (16 R402-R404). Message codes and the layout of messages are those of DSP0274
(log entry 10); random, digest and signature bytes are free (log entry 12). -/

namespace Sys2Proof.Machine

/-- Whether the active hub serves the management endpoint: also during a timeline, once a hub has been chosen. -/
def State.mgmtServes (s : State) : Bool :=
  s.life.powered && !s.life.frozen && !s.life.failingHub &&
    (s.hubRuns || ((s.life.state == .bringup || s.life.state == .moduleReset) && s.life.tests.isSome))

/-- n free bytes for place k. -/
def State.freeBytes (s : State) (k n : Nat) : List Byte :=
  ((List.range ((n + 7) / 8)).map fun i => leBytes 8 (Config.unstated s.freeCtr (0x2000 + 256 * k + i)).toNat).flatten.take n

/-- A response: code, two parameters, body. -/
structure SpdmRsp where
  code : Byte
  p1 : Byte
  p2 : Byte
  body : List Byte

/-- An ERROR response. -/
def SpdmRsp.error (code : Byte) : SpdmRsp := { code := 0x7F, p1 := code, p2 := 0, body := [] }
/-- InvalidRequest. -/
def spdmInvalid : SpdmRsp := SpdmRsp.error 0x01
/-- UnexpectedRequest. -/
def spdmUnexpected : SpdmRsp := SpdmRsp.error 0x04

/-- Bytes of a response message of version 1.3; VERSION itself is a message of version 1.0. -/
def SpdmRsp.bytes (r : SpdmRsp) : List Byte := [if r.code = 0x04 then 0x10 else 0x13, r.code, r.p1, r.p2] ++ r.body

/-- Send a message: in a session as a secured message. One longer than the requester takes is kept for CHUNK_GET, and ERROR
LargeResponse names its handle. -/
def State.spdmSend (s : State) (session : Nat) (bs : List Byte) : State :=
  let type : Byte := if session = 0 then 0x05 else 0x06
  let put (t : State) (x : List Byte) : State := t.modMgmt fun g => { g with out := g.out ++ [.mctp type x] }
  if s.fw.spdmTransfer ≠ 0 ∧ bs.length > s.fw.spdmTransfer then
    put (s.modFw fun w => { w with chunkOut := some (0, bs) }) ((SpdmRsp.error 0x0F).bytes ++ [0x01])
  else put s bs

/-- Answer a request while the active hub serves (R402, 17 R407): a request that names a session needs that session and its authentication. -/
def State.spdmAnswer (s : State) (r : SpdmRequest) (go : State → SpdmRequest → State × SpdmRsp) : State :=
  if ¬ s.mgmtServes then s
  else if r.session ≠ 0 ∧ ¬ s.fw.sessions.any (fun x => x.id == r.session) then s.spdmSend r.session (SpdmRsp.error 0x02).bytes
  else if r.session ≠ 0 ∧ ¬ r.authOk then s.spdmSend r.session (SpdmRsp.error 0x06).bytes
  else
    match go s r with
    | (t, rsp) => t.freshen.spdmSend r.session rsp.bytes

/-- A little-endian field of a request's payload. -/
def spdmField (r : SpdmRequest) (off n : Nat) : Nat := leNat ((r.payload.drop off).take n)

/-- GET_VERSION: versions 1.2 and 1.3; it starts negotiation anew and ends every session. -/
def spdmVersion (s : State) (_ : SpdmRequest) : State × SpdmRsp :=
  (s.modFw fun w => { w with spdmStage := 1, spdmTransfer := 0, sessions := [], chunkIn := none, chunkOut := none },
   { code := 0x04, p1 := 0, p2 := 0, body := [0, 2] ++ leBytes 2 0x1200 ++ leBytes 2 0x1300 })

/-- GET_CAPABILITIES: certificates, challenge, signed measurements, encryption and MAC, key exchange, heartbeat, key update, chunks. -/
def spdmCapabilities (s : State) (r : SpdmRequest) : State × SpdmRsp :=
  if s.fw.spdmStage = 0 then (s, spdmUnexpected)
  else (s.modFw fun w => { w with spdmStage := 2, spdmTransfer := spdmField r 8 4 },
        { code := 0x61, p1 := 0, p2 := 0, body := s.freeBytes 0 4 ++ leBytes 4 0x000262D6 ++ s.freeBytes 1 8 })

/-- NEGOTIATE_ALGORITHMS: ECDSA P-521, SHA-512, SECP_521_R1, AES-256-GCM, DMTF measurements; a requester must offer them. -/
def spdmAlgorithms (s : State) (r : SpdmRequest) : State × SpdmRsp :=
  if s.fw.spdmStage < 2 then (s, spdmUnexpected)
  else if bits (spdmField r 4 4) 8 1 = 0 ∨ bits (spdmField r 8 4) 2 1 = 0 then (s, spdmInvalid)
  else (s.modFw fun w => { w with spdmStage := 3 },
        { code := 0x63, p1 := 2, p2 := 0,
          body := leBytes 2 44 ++ [1, 0] ++ leBytes 4 0x10 ++ leBytes 4 0x100 ++ leBytes 4 0x4 ++ List.replicate 16 0 ++
            [2, 0x20] ++ leBytes 2 0x20 ++ [3, 0x20] ++ leBytes 2 0x2 })

/-- GET_DIGESTS: slot 0 alone is provisioned. -/
def spdmDigests (s : State) (_ : SpdmRequest) : State × SpdmRsp :=
  if s.fw.spdmStage < 3 then (s, spdmUnexpected) else (s, { code := 0x01, p1 := 0, p2 := 1, body := s.freeBytes 2 64 })

/-- GET_CERTIFICATE: a portion of the active hub's chain in slot 0 (R403). -/
def spdmCertificate (s : State) (r : SpdmRequest) : State × SpdmRsp :=
  if s.fw.spdmStage < 3 then (s, spdmUnexpected)
  else if r.param1.toNat % 16 ≠ 0 then (s, spdmInvalid)
  else
    let chain := Config.certChain s.life.activeHub
    let part := (chain.drop (spdmField r 0 2)).take (spdmField r 2 2)
    (s, { code := 0x02, p1 := 0, p2 := 0,
          body := leBytes 2 part.length ++ leBytes 2 (chain.length - spdmField r 0 2 - part.length) ++ part })

/-- CHALLENGE: certificate hash, nonce, measurement summary, signature. -/
def spdmChallenge (s : State) (r : SpdmRequest) : State × SpdmRsp :=
  if s.fw.spdmStage < 3 then (s, spdmUnexpected)
  else if r.param1 ≠ 0 then (s, spdmInvalid)
  else (s, { code := 0x03, p1 := 0, p2 := 1, body := s.freeBytes 3 (64 + 32 + 64) ++ leBytes 2 0 ++ s.freeBytes 4 132 })

/-- One measurement block: index, DMTF, and the value in raw (type bit 7) or digest form. -/
def measureBlock (index type : Nat) (raw : Bool) (v : List Byte) : List Byte :=
  [BitVec.ofNat 8 index, 1] ++ leBytes 2 (v.length + 3) ++ [BitVec.ofNat 8 (type + (if raw then 128 else 0))] ++ leBytes 2 v.length ++ v

/-- Table 16-11: blocks 1 to 4 as digests, block 2 as the raw image header where the request asks for bits, 5 and 6 raw: floor, revoked keys, booted slots and standby; JTAG and freeze use (log
entry 12). -/
def State.measurement (s : State) (raw : Bool) (i : Nat) : List Byte :=
  let x := s.fwHub s.life.activeHub
  let floor := x.floor
  match i with
  | 1 => measureBlock 1 0 false (s.freeBytes 5 64)
  | 2 => if raw then measureBlock 2 1 true (Mem.readBytes (x.slot x.booted).mem 0 256) else measureBlock 2 1 false (s.freeBytes 6 64)
  | 3 => measureBlock 3 1 false (s.freeBytes 7 64)
  | 4 => measureBlock 4 1 false (s.freeBytes 8 64)
  | 5 => measureBlock 5 3 true [BitVec.ofNat 8 floor, s.fw.revoked.setWidth 8, BitVec.ofNat 8 (s.fwHub 0).booted,
      BitVec.ofNat 8 (s.fwHub 1).booted, BitVec.ofNat 8 (b2n s.life.standby)]
  | _ => measureBlock 6 5 true [BitVec.ofNat 8 (b2n s.fw.jtagUsed), BitVec.ofNat 8 (b2n s.fw.freezeUsed)]

/-- GET_MEASUREMENTS: operation 0 asks for the number of blocks, 0xFF for all of them, else for one. -/
def spdmMeasurements (s : State) (r : SpdmRequest) : State × SpdmRsp :=
  let op := r.param2.toNat
  if s.fw.spdmStage < 3 then (s, spdmUnexpected)
  else if 6 < op ∧ op ≠ 0xFF then (s, spdmInvalid)
  else
    let ids := if op = 0 then [] else if op = 0xFF then [1, 2, 3, 4, 5, 6] else [op]
    let rec_ := (ids.map (s.measurement (r.param1.getLsbD 1))).flatten
    let sig := if r.param1.getLsbD 0 then s.freeBytes 9 132 else []
    (s, { code := 0x60, p1 := if op = 0 then 6 else 0, p2 := 0,
          body := [BitVec.ofNat 8 ids.length] ++ leBytes 3 rec_.length ++ rec_ ++ s.freeBytes 10 32 ++ leBytes 2 0 ++ sig })

/-- KEY_EXCHANGE: opens one of four sessions. -/
def spdmKeyExchange (s : State) (r : SpdmRequest) : State × SpdmRsp :=
  if s.fw.spdmStage < 3 then (s, spdmUnexpected)
  else if r.param2 ≠ 0 then (s, spdmInvalid)
  else if s.fw.sessions.length ≥ 4 then (s, SpdmRsp.error 0x0A)
  else
    let id := s.fw.sessionNext
    (s.modFw fun w => { w with sessions := w.sessions ++ [{ id := id, finished := false, keyGen := 0 }], sessionNext := id + 1 },
     { code := 0x64, p1 := BitVec.ofNat 8 (s.param 0x1001), p2 := 0,
       body := leBytes 2 id ++ [0, 0] ++ s.freeBytes 11 (32 + 132 + 64) ++ leBytes 2 0 ++ s.freeBytes 12 (132 + 64) })

/-- Change a session. -/
def State.modSession (s : State) (id : Nat) (f : SpdmSession → SpdmSession) : State :=
  s.modFw fun w => { w with sessions := w.sessions.map fun x => if x.id = id then f x else x }

/-- The session a request runs in, once FINISH has been taken. -/
def State.inSession (s : State) (r : SpdmRequest) : Bool := s.fw.sessions.any fun x => x.id == r.session && x.finished

/-- FINISH. -/
def spdmFinish (s : State) (r : SpdmRequest) : State × SpdmRsp :=
  if s.fw.sessions.any fun x => x.id == r.session && !x.finished then
    (s.modSession r.session fun x => { x with finished := true }, { code := 0x65, p1 := 0, p2 := 0, body := [] })
  else (s, spdmUnexpected)

/-- HEARTBEAT; a period of 0 disables it (Table 16-13). -/
def spdmHeartbeat (s : State) (r : SpdmRequest) : State × SpdmRsp :=
  if s.inSession r ∧ s.param 0x1001 ≠ 0 then (s, { code := 0x68, p1 := 0, p2 := 0, body := [] }) else (s, spdmUnexpected)

/-- KEY_UPDATE: 1 one key, 2 all keys, 3 verify. -/
def spdmKeyUpdate (s : State) (r : SpdmRequest) : State × SpdmRsp :=
  if ¬ s.inSession r then (s, spdmUnexpected)
  else if r.param1 = 0 ∨ r.param1.toNat > 3 then (s, spdmInvalid)
  else
    (if r.param1 = 3 then s else s.modSession r.session fun x => { x with keyGen := x.keyGen + 1 },
     { code := 0x69, p1 := r.param1, p2 := r.param2, body := [] })

/-- END_SESSION. -/
def spdmEndSession (s : State) (r : SpdmRequest) : State × SpdmRsp :=
  if s.inSession r then
    (s.modFw fun w => { w with sessions := w.sessions.filter fun x => x.id != r.session }, { code := 0x6C, p1 := 0, p2 := 0, body := [] })
  else (s, spdmUnexpected)

/-- Any other request. -/
def spdmUnsupported (s : State) (_ : SpdmRequest) : State × SpdmRsp := (s, SpdmRsp.error 0x07)

/-- The meaning of a request code. -/
def spdmOf (code : Nat) : State → SpdmRequest → State × SpdmRsp :=
  match code with
  | 0x84 => spdmVersion | 0xE1 => spdmCapabilities | 0xE3 => spdmAlgorithms | 0x81 => spdmDigests | 0x82 => spdmCertificate
  | 0x83 => spdmChallenge | 0xE0 => spdmMeasurements | 0xE4 => spdmKeyExchange | 0xE5 => spdmFinish | 0xE8 => spdmHeartbeat
  | 0xE9 => spdmKeyUpdate | 0xEC => spdmEndSession
  | _ => spdmUnsupported

/-- CHUNK_SEND: pieces of one large request in order; the last one's acknowledgement carries the answer to it. -/
def spdmChunkSend (s : State) (r : SpdmRequest) : State × SpdmRsp :=
  let handle := r.param2.toNat
  let n := spdmField r 0 2
  let size := spdmField r 4 4
  let piece := (r.payload.drop (if n = 0 then 12 else 8)).take size
  let sofar := match s.fw.chunkIn with
    | some (h, bs) => if n ≠ 0 ∧ h = handle then some bs else if n = 0 then some [] else none
    | none => if n = 0 then some [] else none
  match sofar with
  | none => (s, spdmInvalid)
  | some bs =>
    let ack (body : List Byte) : SpdmRsp := { code := 0x05, p1 := 0, p2 := r.param2, body := leBytes 2 n ++ body }
    if r.param1.getLsbD 0 then
      let whole := bs ++ piece
      let q : SpdmRequest := { r with
        param1 := (whole[2]?).getD 0, param2 := (whole[3]?).getD 0, payload := whole.drop 4 }
      match spdmOf ((whole[1]?).getD 0).toNat (s.modFw fun w => { w with chunkIn := none }) q with
      | (t, rsp) => (t, ack rsp.bytes)
    else (s.modFw fun w => { w with chunkIn := some (handle, bs ++ piece) }, ack [])

/-- CHUNK_GET: the next piece of the response kept, of a size that the requester takes. -/
def spdmChunkGet (s : State) (r : SpdmRequest) : State × SpdmRsp :=
  match s.fw.chunkOut with
  | none => (s, spdmUnexpected)
  | some (n, bs) =>
    if spdmField r 0 2 ≠ n then (s, spdmInvalid)
    else
      let room := max 1 (s.fw.spdmTransfer - 16)
      let left := bs.drop (n * room)
      let piece := left.take room
      let done := decide (left.length ≤ room)
      (s.modFw fun w => { w with chunkOut := if done then none else some (n + 1, bs) },
       { code := 0x06, p1 := BitVec.ofNat 8 (b2n done), p2 := r.param2,
         body := leBytes 2 n ++ [0, 0] ++ leBytes 4 piece.length ++ (if n = 0 then leBytes 4 bs.length else []) ++ piece })

/-! ### The rows -/

/-- SPDM_GET_VERSION. -/
def execSpdmGetVersion (r : SpdmRequest) (s : State) : Host.Outcome State Fault Refusal := .next (s.spdmAnswer r spdmVersion)
/-- SPDM_GET_CAPABILITIES. -/
def execSpdmGetCapabilities (r : SpdmRequest) (s : State) : Host.Outcome State Fault Refusal := .next (s.spdmAnswer r spdmCapabilities)
/-- SPDM_NEGOTIATE_ALGORITHMS. -/
def execSpdmNegotiateAlgorithms (r : SpdmRequest) (s : State) : Host.Outcome State Fault Refusal := .next (s.spdmAnswer r spdmAlgorithms)
/-- SPDM_GET_DIGESTS. -/
def execSpdmGetDigests (r : SpdmRequest) (s : State) : Host.Outcome State Fault Refusal := .next (s.spdmAnswer r spdmDigests)
/-- SPDM_GET_CERTIFICATE. -/
def execSpdmGetCertificate (r : SpdmRequest) (s : State) : Host.Outcome State Fault Refusal := .next (s.spdmAnswer r spdmCertificate)
/-- SPDM_CHALLENGE. -/
def execSpdmChallenge (r : SpdmRequest) (s : State) : Host.Outcome State Fault Refusal := .next (s.spdmAnswer r spdmChallenge)
/-- SPDM_GET_MEASUREMENTS. -/
def execSpdmGetMeasurements (r : SpdmRequest) (s : State) : Host.Outcome State Fault Refusal := .next (s.spdmAnswer r spdmMeasurements)
/-- SPDM_KEY_EXCHANGE. -/
def execSpdmKeyExchange (r : SpdmRequest) (s : State) : Host.Outcome State Fault Refusal := .next (s.spdmAnswer r spdmKeyExchange)
/-- SPDM_FINISH. -/
def execSpdmFinish (r : SpdmRequest) (s : State) : Host.Outcome State Fault Refusal := .next (s.spdmAnswer r spdmFinish)
/-- SPDM_HEARTBEAT. -/
def execSpdmHeartbeat (r : SpdmRequest) (s : State) : Host.Outcome State Fault Refusal := .next (s.spdmAnswer r spdmHeartbeat)
/-- SPDM_KEY_UPDATE. -/
def execSpdmKeyUpdate (r : SpdmRequest) (s : State) : Host.Outcome State Fault Refusal := .next (s.spdmAnswer r spdmKeyUpdate)
/-- SPDM_END_SESSION. -/
def execSpdmEndSession (r : SpdmRequest) (s : State) : Host.Outcome State Fault Refusal := .next (s.spdmAnswer r spdmEndSession)
/-- SPDM_CHUNK_SEND. -/
def execSpdmChunkSend (r : SpdmRequest) (s : State) : Host.Outcome State Fault Refusal := .next (s.spdmAnswer r spdmChunkSend)
/-- SPDM_CHUNK_GET. -/
def execSpdmChunkGet (r : SpdmRequest) (s : State) : Host.Outcome State Fault Refusal := .next (s.spdmAnswer r spdmChunkGet)
/-- SPDM_UNSUPPORTED. -/
def execSpdmUnsupported (r : SpdmRequest) (s : State) : Host.Outcome State Fault Refusal := .next (s.spdmAnswer r spdmUnsupported)

end Sys2Proof.Machine
end

