-- ==== Sys2Proof/Machine/Management.lean ====
section
/-! DEFINITION. The management plane (17 R406-R412), freeze and the test access port (R414-R418), and the output pins (19 R443).
Message codes and layouts of MCTP, PLDM and I3C are those of their standards (log entry 10). -/

namespace Sys2Proof.Machine

/-! ### The management endpoint (R407) -/

/-- MCTP control, PLDM base and PLDM firmware update are answered in recovery holding too. -/
def State.mgmtBasic (s : State) : Bool := s.mgmtServes || s.hubRecovers

/-- Send an MCTP message. -/
def State.mctp (s : State) (type : Byte) (data : List Byte) : State := s.modMgmt fun g => { g with out := g.out ++ [.mctp type data] }

/-- A PLDM response: type, command, completion code, data. -/
def State.pldm (s : State) (type cmd cc : Nat) (data : List Byte) : State :=
  s.mctp 0x01 ([BitVec.ofNat 8 type, BitVec.ofNat 8 cmd, BitVec.ofNat 8 cc] ++ data)

/-- MCTP_MAILBOX_COMMAND (R408, R409): one command in slot format, on the management mailbox. -/
def execMctpMailboxCommand (req : BitVec 2048) (s : State) : Host.Outcome State Fault Refusal :=
  .next (if s.hubRuns then s.mbStart 33 0 req else s)

/-- MCTP_UNSUPPORTED_MESSAGE: an MCTP control error. -/
def execMctpUnsupportedMessage (type : Byte) (s : State) : Host.Outcome State Fault Refusal :=
  .next (if ¬ s.mgmtBasic ∨ [0x00, 0x01, 0x05, 0x06, 0x7E].contains type.toNat then s else s.mctp 0x00 [0x00, 0x05])

/-- SET_ENDPOINT_ID: 0x01 to 0xFE are IDs, 0x00 and 0xFF are not. -/
def execSetEndpointId (eid : Byte) (s : State) : Host.Outcome State Fault Refusal :=
  .next (
    if ¬ s.mgmtBasic then s
    else if eid = 0 ∨ eid = 0xFF then s.mctp 0x00 [0x01, 0x02]
    else (s.modMgmt fun g => { g with eid := eid }).mctp 0x00 [0x01, 0x00, 0x00, eid, 0x00])

/-- GET_TID. -/
def execGetTid (s : State) : Host.Outcome State Fault Refusal := .next (if s.mgmtBasic then s.pldm 0 2 0 [s.mgmt.tid] else s)

/-- SET_TID: 0x00 and 0xFF are not terminus IDs. -/
def execSetTid (tid : Byte) (s : State) : Host.Outcome State Fault Refusal :=
  .next (
    if ¬ s.mgmtBasic then s
    else if tid = 0 ∨ tid = 0xFF then s.pldm 0 1 2 []
    else (s.modMgmt fun g => { g with tid := tid }).pldm 0 1 0 [])

/-- GET_PLDM_TYPES: base 0, platform monitoring 2, firmware update 5. -/
def execGetPldmTypes (s : State) : Host.Outcome State Fault Refusal := .next (if s.mgmtBasic then s.pldm 0 4 0 (leBytes 8 0x25) else s)

/-- Commands of a PLDM type. -/
def pldmCommands (type : Nat) : Option (List Nat) :=
  match type with
  | 0 => some [1, 2, 3, 4, 5]
  | 2 => some [0x04, 0x0A, 0x0B, 0x11, 0x21, 0x51]
  | 5 => some [0x01, 0x02, 0x10, 0x13, 0x14, 0x15, 0x16, 0x17, 0x18, 0x1A, 0x1B, 0x1C, 0x1D]
  | _ => none

/-- GET_PLDM_COMMANDS. -/
def execGetPldmCommands (type : Byte) (s : State) : Host.Outcome State Fault Refusal :=
  .next (
    if ¬ s.mgmtBasic then s
    else
      match pldmCommands type.toNat with
      | some l => s.pldm 0 5 0 (leBytes 32 ((l.map fun c => 2 ^ c).foldl (· + ·) 0))
      | none => s.pldm 0 5 0x83 [])

/-- GET_PLDM_VERSION: monitoring 1.2, firmware update 1.1; that of the base is not stated. -/
def execGetPldmVersion (type : Byte) (s : State) : Host.Outcome State Fault Refusal :=
  .next (
    if ¬ s.mgmtBasic then s
    else if type = 0 then s.freshen.pldm 0 3 0 (leBytes 4 (Config.unstated s.freeCtr 40).toNat)
    else if type = 2 then s.pldm 0 3 0 (leBytes 4 0xF1F2F000)
    else if type = 5 then s.pldm 0 3 0 (leBytes 4 0xF1F1F000)
    else s.pldm 0 3 0x83 [])

/-! ### Sensors (R410) -/

/-- Sensor IDs: numeric 1 to 73, state 100 to 103. -/
def sensorIds : List Nat := ((List.range 73).map fun i => i + 1) ++ [100, 101, 102, 103]

/-- Largest of a list of integers. -/
def maxInt (l : List Int) : Int := l.foldl max (l.headD 0)

/-- Junction temperatures of the regions of causeway nodes lo to hi, in 0.125 °C. -/
def State.tempOf (s : State) (lo hi : Nat) : Int :=
  maxInt ((s.power.temp.filter fun e => decide (lo ≤ e.1 / 16 ∧ e.1 / 16 ≤ hi)).map fun e => e.2.toInt)

/-- A sensor's value: measured ones take the operand, the others read the state (Tables 17-2, 17-3). -/
def State.sensorValue (s : State) (id : Nat) (v : Int) : Int :=
  if id = 3 then (s.power.measured : Int) else if id = 4 then (s.granted / 100 : Nat)
  else if id = 5 then s.tempOf 0 31
  else if 6 ≤ id ∧ id ≤ 37 then s.tempOf (id - 6) (id - 6)
  else if id = 70 then (s.healthyCount : Int)
  else if id = 71 then (s.activeCount : Int)
  else if id = 72 then (((scoredUnits.map fun u => s.wearScore u).foldl max 0 : Nat) : Int)
  else if id = 73 then (s.flt.fenceMap.length : Int)
  else if id = 100 then (s.life.state.code : Int)
  else if id = 101 then ((2 * s.life.activeHub + (if s.life.standby then 0 else 1) : Nat) : Int)
  else if id = 102 then (b2n s.reducedNow : Int)
  else if id = 103 then (s.updateCode : Int)
  else v

/-- Whether a sensor's source is neither fenced nor dark. -/
def State.sensorUp (s : State) (id : Nat) : Bool :=
  if 6 ≤ id ∧ id ≤ 37 then (List.range 13).any fun r => (s.region ((id - 6) * 16 + r)).powered
  else if 38 ≤ id ∧ id ≤ 69 then
    (List.range 4).any fun c => s.chan (4 * (id - 38) + c) == .healthy || s.chan (4 * (id - 38) + c) == .retiring
  else true

/-- Threshold state of a numeric sensor: 1 normal, 5 and 6 lower warning and critical, 8 to 10 upper warning, critical, fatal. -/
def State.sensorLevel (s : State) (id : Nat) (v : Int) : Nat :=
  if id = 1 then
    (if v > 6000 then 9 else if v > 5800 then 8 else if v < 4000 then 6 else if v < 4200 then 5 else 1)
  else if 5 ≤ id ∧ id ≤ 69 then
    let k : Int := if id < 38 then 8 else 1
    if v ≥ 115 * k then 10 else if v ≥ 105 * k then 9 else if v ≥ (s.param 0x0F01 : Nat) * k then 8 else 1
  else 1

/-- SENSOR_REFRESH: the value is stored; a threshold crossed, or a state changed, is a sensor event (R411). -/
def execSensorRefresh (id : Nat) (v : Int) (s : State) : Host.Outcome State Fault Refusal :=
  .next (
    if ¬ s.mgmtServes ∨ ¬ sensorIds.contains id then s
    else if ¬ s.sensorUp id then s.modMgmt fun g =>
      { g with available := Tbl.set g.available id false, sensors := Tbl.erase g.sensors id }
    else
      let x := s.sensorValue id v
      let old := Tbl.get? s.mgmt.sensors id
      let was := Tbl.getD s.mgmt.levels id 1
      let now := s.sensorLevel id x
      let bits32 := (BitVec.ofInt 32 x).toNat
      let s1 := s.modMgmt fun g => { g with
        available := Tbl.set g.available id true, sensors := Tbl.set g.sensors id x, levels := Tbl.set g.levels id now }
      if id ≥ 100 then
        (match old with
         | some y => if y = x then s1
             else s1.queuePldm 0 (leBytes 2 id ++ [1, 0] ++ leBytes 1 bits32 ++ leBytes 1 (BitVec.ofInt 32 y).toNat) false
         | none => s1)
      else if now = was then s1
      else s1.queuePldm 0 (leBytes 2 id ++ [2] ++ leBytes 1 now ++ leBytes 1 was ++ [5] ++ leBytes 4 bits32) false)

/-- Thresholds that a numeric sensor's PDR shows: lower critical, lower warning, upper warning, upper critical, upper fatal. -/
def State.thresholds (s : State) (id : Nat) : List Nat :=
  if id = 1 then [4000, 4200, 5800, 6000] else if 5 ≤ id ∧ id ≤ 37 then [8 * s.param 0x0F01, 840, 920]
  else if 38 ≤ id ∧ id ≤ 69 then [s.param 0x0F01, 105, 115] else []

/-- GET_PDR: record 0 is the first; a sensor's record handle is its ID. The record carries the sensor ID and its thresholds (log
entry 10). -/
def execGetPdr (record : Word) (s : State) : Host.Outcome State Fault Refusal :=
  .next (
    if ¬ s.mgmtServes then s
    else
      let id := if record = 0 then 1 else record.toNat
      if ¬ sensorIds.contains id then s.pldm 2 0x51 0x82 []
      else
        let next := (sensorIds.find? fun i => decide (i > id)).getD 0
        let body := leBytes 2 id ++ ((s.thresholds id).map fun t => leBytes 4 t).flatten
        s.pldm 2 0x51 0 (leBytes 4 next ++ leBytes 4 0 ++ [5] ++ leBytes 2 (10 + body.length) ++ leBytes 4 id ++ [1] ++
          [if id ≥ 100 then 4 else 2] ++ leBytes 2 0 ++ leBytes 2 body.length ++ body))

/-! ### Events (R412) -/

/-- SET_EVENT_RECEIVER. -/
def execSetEventReceiver (enable : Bool) (addr : Byte) (s : State) : Host.Outcome State Fault Refusal :=
  .next (if s.mgmtServes then
      (s.modMgmt fun g => { g with receiver := if enable then some addr else none }).pldm 2 4 0 []
    else s)

/-- An event as PLDM carries it. -/
def State.eventBytes (s : State) (e : PldmEvent) : List Byte :=
  [s.mgmt.tid] ++ leBytes 2 e.id ++ [5, BitVec.ofNat 8 e.cls] ++ leBytes 4 e.data.length ++ e.data

/-- POLL_FOR_PLATFORM_EVENT_MESSAGE: the oldest event leaves the queue; event ID 0 when there is none. -/
def execPollForPlatformEventMessage (s : State) : Host.Outcome State Fault Refusal :=
  .next (
    if ¬ s.mgmtServes then s
    else
      match s.mgmt.queue with
      | [] => s.pldm 2 0x0B 0 [s.mgmt.tid, 0, 0]
      | e :: rest => (s.modMgmt fun g => { g with queue := rest }).pldm 2 0x0B 0 (s.eventBytes e))

/-- PLATFORM_EVENT_MESSAGE: the oldest event not yet sent four times goes to the receiver; an answer takes it from the queue. -/
def execPlatformEventMessage (answered : Bool) (s : State) : Host.Outcome State Fault Refusal :=
  .next (
    if ¬ s.mgmtServes ∨ s.mgmt.receiver.isNone then s
    else
      match s.mgmt.queue.find? fun e => decide (e.tries < 4) with
      | none => s
      | some e =>
        let s1 := s.mctp 0x01 ([2, 0x0A] ++ s.eventBytes e)
        s1.modMgmt fun g => { g with queue :=
          if answered then g.queue.erase e else g.queue.map fun x => if x = e then { x with tries := x.tries + 1 } else x })

/-! ### PLDM firmware update (R407) -/

/-- The end of a transfer: verification, with its result code. -/
def State.pldmVerify (s : State) : State :=
  match s.fw.session with
  | none => s.pldm 5 0x16 0x80 []
  | some (_, n) =>
    match s.closeStage n with
    | (t, .ok _) => (t.modMgmt fun g => { g with pldmFw := 4 }).pldm 5 0x17 0 [0]
    | (t, .error e) => (t.modMgmt fun g => { g with pldmFw := 0 }).pldm 5 0x17 0 [if e = mbVersion then 3 else 2]

/-- PLDM_FIRMWARE_UPDATE: one component, a whole Icrax image, fed into the one staging session (R396). `pldmFw` is 0 idle, 1
components to learn, 2 ready, 3 download, 4 verified. -/
def execPldmFirmwareUpdate (c : PldmFwCommand) (s : State) : Host.Outcome State Fault Refusal :=
  .next (
    let st := s.mgmt.pldmFw
    let mine := (s.fw.session.map fun e => e.1).getD false
    let to_ (t : State) (n : Nat) : State := t.modMgmt fun g => { g with pldmFw := n }
    if ¬ s.mgmtBasic then s
    else
      match c.code.toNat with
      | 0x01 => s.pldm 5 1 0 (leBytes 2 0x1F3C)
      | 0x02 => s.pldm 5 2 0 (leBytes 4 s.fwActive.version.toNat)
      | 0x10 =>
        if s.fw.session.isSome ∨ s.fw.activation.isSome then s.pldm 5 0x10 0x8A []
        else (to_ (s.openStage true) 1).pldm 5 0x10 0 []
      | 0x13 => if st = 1 ∧ mine then (to_ s 2).pldm 5 0x13 0 [] else s.pldm 5 0x13 0x80 []
      | 0x14 => if st = 2 ∧ mine then (to_ s 3).pldm 5 0x14 0 [] else s.pldm 5 0x14 0x80 []
      | 0x15 =>
        let off := leNat (c.payload.take 4)
        let data := c.payload.drop 4
        if st = 3 ∧ mine ∧ off + data.length ≤ slotBytes then s.putStage off data else s.pldm 5 0x15 0x80 []
      | 0x16 => if st = 3 ∧ mine then s.pldmVerify else s.pldm 5 0x16 0x80 []
      | 0x1B => s.pldm 5 0x1B 0 [BitVec.ofNat 8 st]
      | 0x1C => if st = 3 ∧ mine then (to_ s 2).pldm 5 0x1C 0 [] else s.pldm 5 0x1C 0x80 []
      | 0x1D =>
        if st = 0 then s.pldm 5 0x1D 0x80 []
        else (to_ (if mine then s.modFw fun w => { w with session := none } else s) 0).pldm 5 0x1D 0 []
      | _ => s.pldm 5 c.code.toNat 5 [])

/-- ACTIVATE_FIRMWARE: FW_ACTIVATE mode 2. -/
def execActivateFirmware (s : State) : Host.Outcome State Fault Refusal :=
  .next (
    if ¬ s.mgmtBasic then s
    else if s.fw.activation.isSome ∨ s.fw.staged.isNone then s.pldm 5 0x1A 0x85 []
    else ((s.nameStaged).modMgmt fun g => { g with pldmFw := 0 }).pldm 5 0x1A 0 (leBytes 2 0))

/-! ### The bus (R406, R438) -/

/-- The static address: 0x40 + STRAP[3:1]. -/
def State.staticAddr (s : State) : Byte := BitVec.ofNat 8 (0x40 + s.life.strap.toNat / 2)

/-- Whether the bus target acknowledges: powered and not frozen (R415). -/
def State.busUp (s : State) : Bool := s.life.powered && !s.life.frozen

/-- I3C_CCC: a broadcast code, below 0x80, turns the bus to I3C for good; direct codes reach the target's dynamic address. -/
def execI3cCcc (c : I3cCcc) (s : State) : Host.Outcome State Fault Refusal :=
  .next (
    if ¬ s.busUp then s
    else
      let n := c.code.toNat
      let arg (i : Nat) : Byte := (c.data[i]?).getD 0
      let s1 := if n < 0x80 then s.modMgmt fun g => { g with i3c := true } else s
      let say (t : State) (bs : List Byte) : State := t.modMgmt fun g => { g with out := g.out ++ [.ccc c.code bs] }
      let direct := s.mgmt.dynAddr.isSome
      if n = 0x00 ∨ (n = 0x80 ∧ direct) then
        (if (arg 0).getLsbD 0 then s1.modMgmt fun g => { g with ibi := true } else s1)
      else if n = 0x01 ∨ (n = 0x81 ∧ direct) then
        (if (arg 0).getLsbD 0 then s1.modMgmt fun g => { g with ibi := false } else s1)
      else if n = 0x06 then s1.modMgmt fun g => { g with dynAddr := none }
      else if n = 0x07 then
        (if direct then s1 else say (s1.modMgmt fun g => { g with dynAddr := some (arg 0) }) (s1.freeBytes 13 8)).freshen
      else if n = 0x87 then
        (if arg 0 = s.staticAddr ∧ ¬ direct then s1.modMgmt fun g => { g with i3c := true, dynAddr := some (arg 1) } else s1)
      else if ¬ direct then s1
      else if n = 0x8B then say s1 (leBytes 2 s.mgmt.mwl.toNat)
      else if n = 0x8C then say s1 (leBytes 2 s.mgmt.mrl.toNat)
      else if n = 0x8D then (say s1 (s1.freeBytes 13 6)).freshen
      else if n = 0x8E then (say s1 (s1.freeBytes 14 1)).freshen
      else if n = 0x8F then (say s1 (s1.freeBytes 15 1)).freshen
      else s1)

/-- SMBUS_ALERT_RESPONSE: while ALERT_N is asserted the target answers with its address. -/
def execSmbusAlertResponse (s : State) : Host.Outcome State Fault Refusal :=
  .next (if s.busUp ∧ ¬ s.mgmt.i3c ∧ ¬ s.mgmt.queue.isEmpty then
      s.modMgmt fun g => { g with out := g.out ++ [.alertAddress s.staticAddr] }
    else s)

/-- SMBUS_TIMEOUT (R438): the transfer is abandoned. A message takes effect only when it is whole, so no state is left of it. -/
def execSmbusTimeout (s : State) : Host.Outcome State Fault Refusal := .next s

/-- I3C_IDLE_TIMEOUT (R438): the same inside an I3C transfer. -/
def execI3cIdleTimeout (s : State) : Host.Outcome State Fault Refusal := .next s

/-! ### Freeze (R414-R416, R427) -/

/-- FREEZE: every domain but the reference stops; links go idle, a dump in progress ends. -/
def execFreeze (noticeFirst : Bool) (s : State) : Host.Outcome State Fault Refusal :=
  .next (
    if ¬ s.life.powered ∨ s.life.frozen then s
    else
      let s1 := s.modLife fun l => { l with frozen := true, frozenCount := s.count }
      let s2 := (s1.modMgmt fun g => { g with stopped := 0xFFFFFFFF, notice := noticeFirst }).modFw fun w => { w with freezeUsed := true }
      (s2.modHost fun h => { h with linkUp := false }).modFlt fun f => f.dumpStops s.count)

/-! ### The test access port (R417, R418) -/

/-- Shift a captured value out. -/
def State.tap (s : State) (width : Nat) (v : BitVec 128) : State := s.modMgmt fun g => { g with out := g.out ++ [.tap width v] }
/-- Load an instruction. -/
def State.tapIr (s : State) (ir : Byte) : State := s.modMgmt fun g => { g with ir := ir, extest := false }

/-- TEST_LOGIC_RESET: IDCODE is selected. -/
def execTestLogicReset (s : State) : Host.Outcome State Fault Refusal := .next (if s.life.powered then s.tapIr 0x01 else s)

/-- IDCODE. -/
def execIdcode (s : State) : Host.Outcome State Fault Refusal :=
  .next (if s.life.powered then (s.tapIr 0x01).tap 32 0x1329677B else s)

/-- SAMPLE_PRELOAD: the pins are captured, in an order that the manual does not give, and the update stage is loaded. -/
def execSamplePreload (preload : DWord) (s : State) : Host.Outcome State Fault Refusal :=
  .next (
    if ¬ s.life.powered then s
    else
      let t := (s.tapIr 0x02).tap 64 ((Config.unstated s.freeCtr 41).setWidth 128)
      t.freshen.modMgmt fun g => { g with boundary := preload })

/-- EXTEST: drives the boundary register's pins while the module is frozen, else acts as BYPASS; its use is recorded (R418). -/
def execExtest (s : State) : Host.Outcome State Fault Refusal :=
  .next (
    if ¬ s.life.powered then s
    else
      let t := (s.tapIr 0x03).modFw fun w => { w with jtagUsed := true }
      if ¬ s.life.frozen then t.tap 1 0
      else (t.modMgmt fun g => { g with extest := true }).tap 64 (s.mgmt.boundary.setWidth 128))

/-- DBG_SEL. -/
def execDbgSel (v : DWord) (s : State) : Host.Outcome State Fault Refusal :=
  .next (
    if ¬ s.life.powered then s
    else
      let t := (s.tapIr 0x10).modMgmt fun g =>
        { g with dbg := some (BitVec.ofNat 32 (bits v.toNat 0 32), bits v.toNat 32 16, bits v.toNat 48 16) }
      t.modFw fun w => { w with jtagUsed := true })

/-- DBG_DATA: status 0 with the next word, 1 no answer, 2 fenced or dark, 3 past the last word. -/
def execDbgData (answered : Bool) (s : State) : Host.Outcome State Fault Refusal :=
  .next (
    if ¬ s.life.powered then s
    else
      let t := s.tapIr 0x11
      let say (x : State) (st : Nat) (w : DWord) : State := x.tap 66 (BitVec.ofNat 128 (st * 2 ^ 64 + w.toNat))
      match s.mgmt.dbg with
      | none => say t 3 0
      | some (u, next, left) =>
        if left = 0 then say t 3 0
        else if s.dumpSkips u then say t 2 0
        else if ¬ answered ∨ ¬ unitValid u then say t 1 0
        else
          match (s.dumpWords u)[next]? with
          | none => say t 3 0
          | some w => say (t.modMgmt fun g => { g with dbg := some (u, next + 1, left - 1) }) 0 w)

/-- FREEZE_STATE (Table 17-7). -/
def execFreezeState (s : State) : Host.Outcome State Fault Refusal :=
  .next (
    if ¬ s.life.powered then s
    else
      let f := s.life.frozen
      (s.tapIr 0x12).tap 128 (BitVec.ofNat 128 ((if f then s.life.frozenCount.toNat else 0) * 2 ^ 64 +
        s.mgmt.stopped.toNat * 2 ^ 32 + 2 * b2n s.mgmt.notice + b2n f)))

/-- BYPASS, also for every unlisted code. -/
def execBypass (code : Byte) (s : State) : Host.Outcome State Fault Refusal :=
  .next (if ¬ s.life.powered ∨ [0x01, 0x02, 0x03, 0x10, 0x11, 0x12].contains code.toNat then s else (s.tapIr code).tap 1 0)

/-! ### Output pins (14 R360, 19 R443); true is low -/

/-- READY_N. -/
def State.readyLow (s : State) : Bool := s.life.state == .ready && !s.life.frozen

/-- FAULT_N. -/
def State.faultLow (s : State) : Bool :=
  s.life.state == .tripped ||
    (s.life.powered && (s.life.frozen || (!s.net.osc0 && !s.net.osc1) || s.life.state == .holding || s.life.state == .recovery ||
      s.life.state == .noProcessor || s.life.state == .outOfService))

/-- ALERT_N. -/
def State.alertLow (s : State) : Bool :=
  s.busUp && !s.mgmt.i3c && !s.mgmt.queue.isEmpty &&
    (s.life.state == .ready || s.life.state == .holding || s.life.state == .recovery || s.life.state == .outOfService)

end Sys2Proof.Machine
end

