-- ==== Sys2Proof/Machine/RegRows.lean ====
section
/-! DEFINITION. REGISTER_WRITE (00 R2, R3): a register write by the manager core, a scalar core or the host, by access code. -/

namespace Sys2Proof.Machine

/-- REGION_POWER `state` codes. -/
def RegionState.code : RegionState → Nat
  | .off => 0 | .waiting => 1 | .ramping => 2 | .on => 3 | .dark => 4 | .fenced => 5

/-- Issue duty of a logic region: the lowest that its ramp, its thermal state, the power check and a neighbour's ramp leave it. -/
def State.duty (s : State) (key : Nat) : Nat :=
  let ramp := match s.power.ramping.find? fun e => e.1 == key with
    | some e => 5 - max 2 e.2
    | none => 0
  let thermal := max (Tbl.getD s.power.thDuty key 0) ramp
  if keyLogic key then max (max thermal (min 3 s.power.pwDuty)) (b2n (s.power.capped.contains key)) else thermal

/-- REGION_POWER_r of a die (Table 15-6); 0 where the die has no such region. -/
def State.powerReg (s : State) (key : Nat) : DWord :=
  if (phasesOf key).1 = 0 then 0
  else word64 [(48, (Tbl.getD s.power.current key 0).toNat), (36, Tbl.getD s.power.setpoint key 0 % 4096),
    (24, (Tbl.getD s.power.temp key 0).toNat), (15, (~~~(Tbl.getD s.power.lost key 0)).toNat % 2 ^ (phasesOf key).1),
    (10, Tbl.getD s.power.ceiling key 0 % 4), (8, s.stepNow key % 4), (4, s.duty key % 4), (0, (s.region key).code)]

/-- LEDGER_STATE of hub A (Table 15-6). -/
def State.ledgerReg (s : State) : DWord :=
  word64 [(48, s.granted / 100 % 65536), (32, s.power.measured % 65536), (16, s.budget / 100 % 65536),
    (8, min 255 s.power.queue.length), (3, s.power.ramping.length % 32), (0, s.convertersOk)]

/-- Whether an offset is that of a REGION_POWER register, which every die has and which is read-only (R385). -/
def regionPowerOff (off : Nat) : Bool := decide (0x300 ≤ off) && decide (off ≤ 0x360) && off % 8 == 0

/-- A 32-bit `count` field in bits [31:0] takes the value written (R2). -/
def countOf (v : DWord) : Word := v.setWidth 32

/-- A write of an atoll register by the manager core (Tables 3-3, 4-16, 5-12). -/
def Atoll.regWrite (a : Atoll) (off : Nat) (v : DWord) : Atoll :=
  let n := v.toNat
  if off = 0x008 then { a with assigned := v.getLsbD 8, partition := BitVec.ofNat 5 n }
  else if off = 0x020 then { a with cacheBase := BitVec.ofNat 40 (bits n 12 28 * 4096) }
  else if off = 0x028 then { a with split := v.getLsbD 0 }
  else if off = 0x040 ∨ off = 0x048 ∨ off = 0x050 ∨ off = 0x058 then
    { a with nbr := a.nbr.set ((off - 0x40) / 8) { target := BitVec.ofNat 9 (bits n 2 9), routed := v.getLsbD 1, valid := v.getLsbD 0 } }
  else if off = 0x0C0 then { a with epochDiscard := countOf v }
  else if off = 0x0C8 then { a with flushDiscard := countOf v }
  else if off = 0x0D0 then { a with ptDiscard := countOf v }
  else if off = 0x0E0 then { a with chDiscard := countOf v }
  else a

/-- A write of a shoal die register (Table 6-11). -/
def Shoal.regWrite (x : Shoal) (off : Nat) (v : DWord) : Shoal :=
  if off = 0x048 then { x with corrected := countOf v }
  else if off = 0x050 then { x with uncorrectable := countOf v }
  else if off = 0x058 then { x with linkEcc := countOf v }
  else if off = 0x068 then { x with late := countOf v }
  else x

/-- A write of a strait die counter (Tables 8-22, 9-15). -/
def Strait.regWrite (x : Strait) (off : Nat) (v : DWord) : Strait :=
  if off = 0x110 then { x with fecCorrected := countOf v }
  else if off = 0x118 then { x with retry := countOf v }
  else if off = 0x120 then { x with retrain := countOf v }
  else if off = 0x128 then { x with noRoute := countOf v }
  else if off = 0x130 then { x with hopDrop := countOf v }
  else if off = 0x138 then { x with badPacket := countOf v }
  else if off = 0x140 then { x with duplicate := countOf v }
  else if off = 0x148 then { x with mcastDrop := countOf v }
  else if off = 0x150 then { x with syncDrop := countOf v }
  else if off = 0x168 then { x with collDrop := countOf v }
  else if off = 0x170 then { x with earlyDrop := countOf v }
  else if off = 0x178 then { x with stepSkew := countOf v }
  else if off = 0x180 then { x with nonfinite := countOf v }
  else x

/-- The half of a 64-bit register an access covers, put into its old value (R307). -/
def halfWrite (old : Nat) (h : RegHalf) (v : DWord) : Nat :=
  match h with
  | .full => v.toNat
  | .lo => setBits old 0 32 v.toNat
  | .hi => setBits old 32 32 v.toNat

/-- Whether an access writes bits [31:0]. -/
def RegHalf.low : RegHalf → Bool
  | .hi => false
  | _ => true

/-- A write to mailbox m's page (R308, Table 12-4). The rows of the doorbell and the heads are their own commands. -/
def State.mailboxWrite (s : State) (m off : Nat) (h : RegHalf) (v : DWord) : State :=
  if off = 0x038 then
    if h = .hi then s else s.modMbox m fun b => { b with eqLost := countOf v }
  else if off = 0x040 then
    if h = .hi then s else s.modMbox m fun b => { b with irqMask := v.setWidth 2 }
  else if 0x800 ≤ off ∧ off < 0x1000 ∧ off % 8 = 0 then
    let sl := (off - 0x800) / 256
    let b := s.mbox m
    if b.busy.getLsbD sl then s
    else
      let r := (Tbl.getD b.slots sl 0).toNat
      let o := 8 * (off % 256)
      s.modMbox m fun b => { b with
        slots := Tbl.set b.slots sl (BitVec.ofNat 2048 (setBits r o 64 (halfWrite (bits r o 64) h v))) }
  else s

/-- A host write to BAR0 (R307); an offset outside every region, and a read-only field, ignores it. MSI-X entry v holds its
address and data at words 2v and 2v + 1, its mask bit in bit 32 of the second. -/
def State.bar0Write (s : State) (off : Nat) (h : RegHalf) (v : DWord) : State :=
  if !s.bar0Open then s
  else if off = 0x028 then
    if h = .hi then s else s.modHost fun x => { x with biTimeouts := countOf v }
  else if off = 0x030 then
    if h = .hi then s else s.modHost fun x => { x with memResets := countOf v }
  else if 0x8000 ≤ off ∧ off < 0x8000 + 67 * 16 ∧ off % 8 = 0 then
    let i := (off - 0x8000) / 8
    let w := halfWrite (Tbl.getD s.host.msixTable i 0).toNat h v
    s.modHost fun x => { x with
      msixTable := Tbl.set x.msixTable i (BitVec.ofNat 64 w),
      vecUnmasked := if i % 2 = 1 ∧ bits w 32 1 = 1 then x.vecUnmasked.filter (· != i / 2) else x.vecUnmasked }
  else if 0x10000 ≤ off ∧ off < 0x10000 + 33 * 0x2000 then s.mailboxWrite ((off - 0x10000) / 0x2000) (off % 0x2000) h v
  else s

/-- REGISTER_WRITE. A write to an offset that no table of the die lists names no part of the module. -/
def execRegisterWrite (r : RegName) (v : DWord) (s : State) : Host.Outcome State Fault Refusal :=
  match r with
  | .atoll g off =>
    if (s.atollReg g off).isNone then .fault .noSuchPart
    else .next (if s.clocked then s.modAtoll g fun a => a.regWrite off v else s)
  | .csr g core num =>
    if ((s.atoll g).core core).csrRead core num = none then .fault .noSuchPart
    else .next (if s.unitRuns g then s.csrWrite g core num v else s)
  | .shoal h off =>
    if (s.shoalReg h off).isNone && !regionPowerOff off then .fault .noSuchPart
    else .next (if s.clocked then s.modShoal h fun x => x.regWrite off v else s)
  | .isle d off =>
    if (s.isleReg d off).isNone && !regionPowerOff off then .fault .noSuchPart
    else .next (
      if !s.clocked then s
      else if off = 0x100 then (s.setMeshStep d 0 (v.setWidth 4)).setMeshStep d 1 (BitVec.ofNat 4 (bits v.toNat 4 4))
      else if off = 0x110 then s.modNet fun n => { n with isleRetry := Tbl.set n.isleRetry d (countOf v) }
      else if off = 0x118 then s.modNet fun n => { n with isleRetrain := Tbl.set n.isleRetrain d (countOf v) }
      else s)
  | .strait x off =>
    if (s.straitReg x off).isNone && !regionPowerOff off then .fault .noSuchPart
    else .next (
      if !s.clocked then s
      else if 0x090 ≤ off ∧ off ≤ 0x108 then s.setLinkConfig (16 * x + (off - 0x090) / 8) (bits v.toNat 0 8)
      else s.modStrait x fun y => y.regWrite off v)
  | .collector node off =>
    if (s.collectorReg node off).isNone && !regionPowerOff off then .fault .noSuchPart
    else .next (
      if s.clocked ∧ off = 0x208 then s.modFlt fun f => { f with
        collectors := Tbl.set f.collectors node { s.collector node with overflow := countOf v } }
      else s)
  | .bar0 off h => .next (s.bar0Write off h v)

end Sys2Proof.Machine
end

