-- ==== Sys2Proof/Machine/Dispatch.lean ====
section
/-! DEFINITION. What each command does: one arm per row of the opcode table. -/

namespace Sys2Proof.Machine

/-- The effect of a command on everything but the queue. -/
def exec (i : Instr) (s : State) : Host.Outcome State Fault Refusal :=
  match i with
  | .registerWrite r v => Sys2Proof.Machine.execRegisterWrite r v s
  | .scalarInstruction g core chk dec => Sys2Proof.Machine.execScalarInstruction g core chk dec s
  | .lagoonLoad g who addr size sgn dec => Sys2Proof.Machine.execLagoonLoad g who addr size sgn dec s
  | .lagoonStore g who addr tag data => Sys2Proof.Machine.execLagoonStore g who addr tag data s
  | .neighbourRequest target source offset req dec => Sys2Proof.Machine.execNeighbourRequest target source offset req dec s
  | .chConnect g core rd rs1 rs2 => Sys2Proof.Machine.execChConnect g core rd rs1 rs2 s
  | .connectRequest g => Sys2Proof.Machine.execConnectRequest g s
  | .connectAnswer g core => Sys2Proof.Machine.execConnectAnswer g core s
  | .connectTimeout g core => Sys2Proof.Machine.execConnectTimeout g core s
  | .chSend g core rd rs1 rs2 => Sys2Proof.Machine.execChSend g core rd rs1 rs2 s
  | .chSendTuple g core wordsM1 rd rs1 rs2 => Sys2Proof.Machine.execChSendTuple g core wordsM1 rd rs1 rs2 s
  | .chSendResume g core => Sys2Proof.Machine.execChSendResume g core s
  | .channelStall g core => Sys2Proof.Machine.execChannelStall g core s
  | .chRecv g core rd rs1 => Sys2Proof.Machine.execChRecv g core rd rs1 s
  | .chHret g core => Sys2Proof.Machine.execChHret g core s
  | .handlerDispatch g core => Sys2Proof.Machine.execHandlerDispatch g core s
  | .chQueueDelivery g core port => Sys2Proof.Machine.execChQueueDelivery g core port s
  | .chPortPublish g core v => Sys2Proof.Machine.execChPortPublish g core v s
  | .chPortUnpublish g core v => Sys2Proof.Machine.execChPortUnpublish g core v s
  | .chClose g core v => Sys2Proof.Machine.execChClose g core v s
  | .syncWait g core rd rs1 rs2 => Sys2Proof.Machine.execSyncWait g core rd rs1 rs2 s
  | .syncWaitany g core rd rs1 rs2 => Sys2Proof.Machine.execSyncWaitany g core rd rs1 rs2 s
  | .syncSignal g core rs1 rs2 => Sys2Proof.Machine.execSyncSignal g core rs1 rs2 s
  | .syncArm g core rs1 rs2 => Sys2Proof.Machine.execSyncArm g core rs1 rs2 s
  | .syncWaitTimeout g core => Sys2Proof.Machine.execSyncWaitTimeout g core s
  | .topIssue g core rd rs1 rs2 => Sys2Proof.Machine.execTopIssue g core rd rs1 rs2 s
  | .topPoll g core rd rs1 => Sys2Proof.Machine.execTopPoll g core rd rs1 s
  | .tessEpoch g core rd => Sys2Proof.Machine.execTessEpoch g core rd s
  | .tileOpStart g e bad => Sys2Proof.Machine.execTileOpStart g e bad s
  | .tileOpComplete g e chk => Sys2Proof.Machine.execTileOpComplete g e chk s
  | .bankAdd g post bad => Sys2Proof.Machine.execBankAdd g post bad s
  | .bankMax g post bad => Sys2Proof.Machine.execBankMax g post bad s
  | .bankScale g post bad => Sys2Proof.Machine.execBankScale g post bad s
  | .bankConvert g post bad => Sys2Proof.Machine.execBankConvert g post bad s
  | .bankApex g post bad => Sys2Proof.Machine.execBankApex g post bad s
  | .bankZero g post bad => Sys2Proof.Machine.execBankZero g post bad s
  | .bankOpComplete g => Sys2Proof.Machine.execBankOpComplete g s
  | .bayFlush g bay by_ => Sys2Proof.Machine.execBayFlush g bay by_ s
  | .bayInvalidate g bay by_ => Sys2Proof.Machine.execBayInvalidate g bay by_ s
  | .bayFlushInvalidate g bay by_ => Sys2Proof.Machine.execBayFlushInvalidate g bay by_ s
  | .cacheFill g line dec => Sys2Proof.Machine.execCacheFill g line dec s
  | .cacheDramTimeout g line => Sys2Proof.Machine.execCacheDramTimeout g line s
  | .bayModeChange g bay toCache => Sys2Proof.Machine.execBayModeChange g bay toCache s
  | .bayModeChangeDone g bay => Sys2Proof.Machine.execBayModeChangeDone g bay s
  | .vecAdd g v bad => Sys2Proof.Machine.execVecAdd g v bad s
  | .vecSub g v bad => Sys2Proof.Machine.execVecSub g v bad s
  | .vecMul g v bad => Sys2Proof.Machine.execVecMul g v bad s
  | .vecFma g v bad => Sys2Proof.Machine.execVecFma g v bad s
  | .vecMax g v bad => Sys2Proof.Machine.execVecMax g v bad s
  | .vecMin g v bad => Sys2Proof.Machine.execVecMin g v bad s
  | .vecAbs g v bad => Sys2Proof.Machine.execVecAbs g v bad s
  | .vecNeg g v bad => Sys2Proof.Machine.execVecNeg g v bad s
  | .vecRecip g v bad => Sys2Proof.Machine.execVecRecip g v bad s
  | .vecRsqrt g v bad => Sys2Proof.Machine.execVecRsqrt g v bad s
  | .vecSqrt g v bad => Sys2Proof.Machine.execVecSqrt g v bad s
  | .vecLdexp g v bad => Sys2Proof.Machine.execVecLdexp g v bad s
  | .vecCmpEq g v bad => Sys2Proof.Machine.execVecCmpEq g v bad s
  | .vecCmpLt g v bad => Sys2Proof.Machine.execVecCmpLt g v bad s
  | .vecCmpLe g v bad => Sys2Proof.Machine.execVecCmpLe g v bad s
  | .vecSelect g v bad => Sys2Proof.Machine.execVecSelect g v bad s
  | .vecConvert g v bad => Sys2Proof.Machine.execVecConvert g v bad s
  | .vecExp g v bad => Sys2Proof.Machine.execVecExp g v bad s
  | .vecLog g v bad => Sys2Proof.Machine.execVecLog g v bad s
  | .vecSigmoid g v bad => Sys2Proof.Machine.execVecSigmoid g v bad s
  | .vecTanh g v bad => Sys2Proof.Machine.execVecTanh g v bad s
  | .vecGelu g v bad => Sys2Proof.Machine.execVecGelu g v bad s
  | .vecSilu g v bad => Sys2Proof.Machine.execVecSilu g v bad s
  | .vecStats g v bad => Sys2Proof.Machine.execVecStats g v bad s
  | .redSum g v bad => Sys2Proof.Machine.execRedSum g v bad s
  | .redSumsq g v bad => Sys2Proof.Machine.execRedSumsq g v bad s
  | .redDot g v bad => Sys2Proof.Machine.execRedDot g v bad s
  | .redMax g v bad => Sys2Proof.Machine.execRedMax g v bad s
  | .redMin g v bad => Sys2Proof.Machine.execRedMin g v bad s
  | .redArgmax g v bad => Sys2Proof.Machine.execRedArgmax g v bad s
  | .vecLineRelease g v residueOk => Sys2Proof.Machine.execVecLineRelease g v residueOk s
  | .vectorOpComplete g v => Sys2Proof.Machine.execVectorOpComplete g v s
  | .seqNop g u chk => Sys2Proof.Machine.execSeqNop g u chk s
  | .seqIssue g u chk => Sys2Proof.Machine.execSeqIssue g u chk s
  | .seqLoop g u chk => Sys2Proof.Machine.execSeqLoop g u chk s
  | .seqEndloop g u chk => Sys2Proof.Machine.execSeqEndloop g u chk s
  | .seqJump g u chk => Sys2Proof.Machine.execSeqJump g u chk s
  | .seqBrsel g u chk => Sys2Proof.Machine.execSeqBrsel g u chk s
  | .seqTake g u chk => Sys2Proof.Machine.execSeqTake g u chk s
  | .seqEmit g u chk => Sys2Proof.Machine.execSeqEmit g u chk s
  | .seqSignal g u chk => Sys2Proof.Machine.execSeqSignal g u chk s
  | .seqWait g u chk => Sys2Proof.Machine.execSeqWait g u chk s
  | .seqCache g u chk => Sys2Proof.Machine.execSeqCache g u chk s
  | .seqOpwait g u chk => Sys2Proof.Machine.execSeqOpwait g u chk s
  | .seqHalt g u chk => Sys2Proof.Machine.execSeqHalt g u chk s
  | .seqCompletion g u => Sys2Proof.Machine.execSeqCompletion g u s
  | .laneEntryArrival g src => Sys2Proof.Machine.execLaneEntryArrival g src s
  | .epochHoldExpiry g src => Sys2Proof.Machine.execEpochHoldExpiry g src s
  | .queueHeadToken g q => Sys2Proof.Machine.execQueueHeadToken g q s
  | .spillRefill g q => Sys2Proof.Machine.execSpillRefill g q s
  | .laneCreditReturn g lane => Sys2Proof.Machine.execLaneCreditReturn g lane s
  | .joinStarve g v => Sys2Proof.Machine.execJoinStarve g v s
  | .reconfDispatch p => Sys2Proof.Machine.execReconfDispatch p s
  | .reconfArrival g => Sys2Proof.Machine.execReconfArrival g s
  | .quiescentReport g => Sys2Proof.Machine.execQuiescentReport g s
  | .check g => Sys2Proof.Machine.execCheck g s
  | .checkAnswer p => Sys2Proof.Machine.execCheckAnswer p s
  | .drainTimeout p => Sys2Proof.Machine.execDrainTimeout p s
  | .descriptorInstall g bad => Sys2Proof.Machine.execDescriptorInstall g bad s
  | .ready p g => Sys2Proof.Machine.execReady p g s
  | .go g => Sys2Proof.Machine.execGo g s
  | .dmaPortPost g core v => Sys2Proof.Machine.execDmaPortPost g core v s
  | .dmaCompletionPop g core rd => Sys2Proof.Machine.execDmaCompletionPop g core rd s
  | .dmaCopy h u bad => Sys2Proof.Machine.execDmaCopy h u bad s
  | .dmaRemoteWrite h u bad => Sys2Proof.Machine.execDmaRemoteWrite h u bad s
  | .gather h u bad => Sys2Proof.Machine.execGather h u bad s
  | .scatter h u bad => Sys2Proof.Machine.execScatter h u bad s
  | .reduceSum h u bad => Sys2Proof.Machine.execReduceSum h u bad s
  | .mxCompress h u bad => Sys2Proof.Machine.execMxCompress h u bad s
  | .mxDecompress h u bad => Sys2Proof.Machine.execMxDecompress h u bad s
  | .factorStats h u bad => Sys2Proof.Machine.execFactorStats h u bad s
  | .memoryCommandComplete h u residueOk => Sys2Proof.Machine.execMemoryCommandComplete h u residueOk s
  | .dmaTimeout h u => Sys2Proof.Machine.execDmaTimeout h u s
  | .dramScrub ch word dec => Sys2Proof.Machine.execDramScrub ch word dec s
  | .lagoonScrub w dec => Sys2Proof.Machine.execLagoonScrub w dec s
  | .scrubForcedCycle w dec => Sys2Proof.Machine.execScrubForcedCycle w dec s
  | .bankPower m => Sys2Proof.Machine.execBankPower m s
  | .bankDrainDone h b => Sys2Proof.Machine.execBankDrainDone h b s
  | .bankDrainTimeout h b => Sys2Proof.Machine.execBankDrainTimeout h b s
  | .bankOffRequest h b => Sys2Proof.Machine.execBankOffRequest h b s
  | .bankPowerUpDone h b => Sys2Proof.Machine.execBankPowerUpDone h b s
  | .windowOpen m => Sys2Proof.Machine.execWindowOpen m s
  | .windowClose m => Sys2Proof.Machine.execWindowClose m s
  | .windowCloseComplete w => Sys2Proof.Machine.execWindowCloseComplete w s
  | .windowQuery m => Sys2Proof.Machine.execWindowQuery m s
  | .remoteWriteArrival x => Sys2Proof.Machine.execRemoteWriteArrival x s
  | .channelRetirementStart ch cause => Sys2Proof.Machine.execChannelRetirementStart ch cause s
  | .retirementPageMove badWords unreadable => Sys2Proof.Machine.execRetirementPageMove badWords unreadable s
  | .channelRetirementDone => Sys2Proof.Machine.execChannelRetirementDone s
  | .channelRetire m => Sys2Proof.Machine.execChannelRetire m s
  | .meshPacket d x y ev => Sys2Proof.Machine.execMeshPacket d x y ev s
  | .linkRetrain l => Sys2Proof.Machine.execLinkRetrain l s
  | .linkRetrainDone l ok => Sys2Proof.Machine.execLinkRetrainDone l ok s
  | .causewayMessage node header payload crcOk => Sys2Proof.Machine.execCausewayMessage node header payload crcOk s
  | .causewayRouteRewrite => Sys2Proof.Machine.execCausewayRouteRewrite s
  | .oscFailover node => Sys2Proof.Machine.execOscFailover node s
  | .oscillatorsLost => Sys2Proof.Machine.execOscillatorsLost s
  | .meshClockStep d half step => Sys2Proof.Machine.execMeshClockStep d half step s
  | .arithmeticStepChange d r => Sys2Proof.Machine.execArithmeticStepChange d r s
  | .arithmeticUngate g => Sys2Proof.Machine.execArithmeticUngate g s
  | .codewordReceive l cw => Sys2Proof.Machine.execCodewordReceive l cw s
  | .replayTimeout l => Sys2Proof.Machine.execReplayTimeout l s
  | .linkRetryLimit l => Sys2Proof.Machine.execLinkRetryLimit l s
  | .linkCreditTimeout l => Sys2Proof.Machine.execLinkCreditTimeout l s
  | .laneSignalLoss l lane => Sys2Proof.Machine.execLaneSignalLoss l lane s
  | .laneRetrainDone l lane ok => Sys2Proof.Machine.execLaneRetrainDone l lane ok s
  | .linkTraining l lane0 lane1 => Sys2Proof.Machine.execLinkTraining l lane0 lane1 s
  | .linkControlSend l => Sys2Proof.Machine.execLinkControlSend l s
  | .linkControl l => Sys2Proof.Machine.execLinkControl l s
  | .fabricPacketArrival x => Sys2Proof.Machine.execFabricPacketArrival x s
  | .reassemblyTimeout x => Sys2Proof.Machine.execReassemblyTimeout x s
  | .ack x => Sys2Proof.Machine.execAck x s
  | .fabricAckTimeout x => Sys2Proof.Machine.execFabricAckTimeout x s
  | .syncSignalArrival x => Sys2Proof.Machine.execSyncSignalArrival x s
  | .mcastBranchTimeout l => Sys2Proof.Machine.execMcastBranchTimeout l s
  | .mcastClose x => Sys2Proof.Machine.execMcastClose x s
  | .telemetrySample x port meas => Sys2Proof.Machine.execTelemetrySample x port meas s
  | .collectiveStart => Sys2Proof.Machine.execCollectiveStart s
  | .reduceScatter k => Sys2Proof.Machine.execReduceScatter k s
  | .allReduce k => Sys2Proof.Machine.execAllReduce k s
  | .allGather k => Sys2Proof.Machine.execAllGather k s
  | .reduceUpdate k => Sys2Proof.Machine.execReduceUpdate k s
  | .reduceUpdateGather k => Sys2Proof.Machine.execReduceUpdateGather k s
  | .localUpdate k bad => Sys2Proof.Machine.execLocalUpdate k bad s
  | .densityProfile k bad => Sys2Proof.Machine.execDensityProfile k bad s
  | .collApex x => Sys2Proof.Machine.execCollApex x s
  | .collJoin x => Sys2Proof.Machine.execCollJoin x s
  | .collGrant x => Sys2Proof.Machine.execCollGrant x s
  | .collDone x => Sys2Proof.Machine.execCollDone x s
  | .collData x residueOk => Sys2Proof.Machine.execCollData x residueOk s
  | .earlyPoolExpiry x => Sys2Proof.Machine.execEarlyPoolExpiry x s
  | .collTimeout k => Sys2Proof.Machine.execCollTimeout k s
  | .gapPatrolMicrotest unit test r => Sys2Proof.Machine.execGapPatrolMicrotest unit test r s
  | .gapPatrolForcedSlot unit test r => Sys2Proof.Machine.execGapPatrolForcedSlot unit test r s
  | .fullPatrol g => Sys2Proof.Machine.execFullPatrol g s
  | .fullPatrolComplete g atStep raised => Sys2Proof.Machine.execFullPatrolComplete g atStep raised s
  | .migrationStart p pos => Sys2Proof.Machine.execMigrationStart p pos s
  | .migrationCutOver p pos => Sys2Proof.Machine.execMigrationCutOver p pos s
  | .fenceMapWrite => Sys2Proof.Machine.execFenceMapWrite s
  | .stepRollback p => Sys2Proof.Machine.execStepRollback p s
  | .rollbackRestart p => Sys2Proof.Machine.execRollbackRestart p s
  | .faultCollectorDrain node => Sys2Proof.Machine.execFaultCollectorDrain node s
  | .coalesceRelease node => Sys2Proof.Machine.execCoalesceRelease node s
  | .wearScoreUpdate => Sys2Proof.Machine.execWearScoreUpdate s
  | .wearCheckpoint => Sys2Proof.Machine.execWearCheckpoint s
  | .matrixEngineWatchdog g e => Sys2Proof.Machine.execMatrixEngineWatchdog g e s
  | .vectorEngineWatchdog g w => Sys2Proof.Machine.execVectorEngineWatchdog g w s
  | .scalarWatchdog g core => Sys2Proof.Machine.execScalarWatchdog g core s
  | .seqWaitWatchdog g u => Sys2Proof.Machine.execSeqWaitWatchdog g u s
  | .blockWatchdog unit => Sys2Proof.Machine.execBlockWatchdog unit s
  | .managerHeartbeat node => Sys2Proof.Machine.execManagerHeartbeat node s
  | .heartbeatMiss node => Sys2Proof.Machine.execHeartbeatMiss node s
  | .hubLiveness h => Sys2Proof.Machine.execHubLiveness h s
  | .hubWatchdog h => Sys2Proof.Machine.execHubWatchdog h s
  | .hubFailover => Sys2Proof.Machine.execHubFailover s
  | .bothHubsLost => Sys2Proof.Machine.execBothHubsLost s
  | .heartbeatWordUpdate => Sys2Proof.Machine.execHeartbeatWordUpdate s
  | .statusReport => Sys2Proof.Machine.execStatusReport s
  | .abortFlood x => Sys2Proof.Machine.execAbortFlood x s
  | .jobAbort m => Sys2Proof.Machine.execJobAbort m s
  | .dump m => Sys2Proof.Machine.execDump m s
  | .dumpUnitTimeout => Sys2Proof.Machine.execDumpUnitTimeout s
  | .dumpRead m => Sys2Proof.Machine.execDumpRead m s
  | .dumpRelease m => Sys2Proof.Machine.execDumpRelease m s
  | .resetUnit m => Sys2Proof.Machine.execResetUnit m s
  | .resetAtoll m => Sys2Proof.Machine.execResetAtoll m s
  | .atollDrainTimeout g => Sys2Proof.Machine.execAtollDrainTimeout g s
  | .stepAbortStall g => Sys2Proof.Machine.execStepAbortStall g s
  | .resetPartition m => Sys2Proof.Machine.execResetPartition m s
  | .partitionResetDone p => Sys2Proof.Machine.execPartitionResetDone p s
  | .resetModule m => Sys2Proof.Machine.execResetModule m s
  | .moduleReset tests => Sys2Proof.Machine.execModuleReset tests s
  | .fenceClear m => Sys2Proof.Machine.execFenceClear m s
  | .unitFence m => Sys2Proof.Machine.execUnitFence m s
  | .serviceClear m => Sys2Proof.Machine.execServiceClear m s
  | .diagRun m fail => Sys2Proof.Machine.execDiagRun m fail s
  | .mbDoorbell m slots => Sys2Proof.Machine.execMbDoorbell m slots s
  | .mbCqHead m head => Sys2Proof.Machine.execMbCqHead m head s
  | .mbEqHead m head => Sys2Proof.Machine.execMbEqHead m head s
  | .completionPost m => Sys2Proof.Machine.execCompletionPost m s
  | .eventPost => Sys2Proof.Machine.execEventPost s
  | .query m => Sys2Proof.Machine.execQuery m s
  | .getParam m => Sys2Proof.Machine.execGetParam m s
  | .setParam m => Sys2Proof.Machine.execSetParam m s
  | .correlate m => Sys2Proof.Machine.execCorrelate m s
  | .logRead m => Sys2Proof.Machine.execLogRead m s
  | .fenceMapRead m => Sys2Proof.Machine.execFenceMapRead m s
  | .suspectRead m => Sys2Proof.Machine.execSuspectRead m s
  | .telemetryRead m => Sys2Proof.Machine.execTelemetryRead m s
  | .wearRead m => Sys2Proof.Machine.execWearRead m s
  | .linkStateRead m => Sys2Proof.Machine.execLinkStateRead m s
  | .moduleIdSet m => Sys2Proof.Machine.execModuleIdSet m s
  | .routeWrite m => Sys2Proof.Machine.execRouteWrite m s
  | .mcastWrite m => Sys2Proof.Machine.execMcastWrite m s
  | .linkConfigWrite m => Sys2Proof.Machine.execLinkConfigWrite m s
  | .hostMemRead addr cache dec => Sys2Proof.Machine.execHostMemRead addr cache dec s
  | .hostMemWrite addr data => Sys2Proof.Machine.execHostMemWrite addr data s
  | .birsp line => Sys2Proof.Machine.execBirsp line s
  | .hostBiTimeout line => Sys2Proof.Machine.execHostBiTimeout line s
  | .h2dSnoop addr => Sys2Proof.Machine.execH2dSnoop addr s
  | .perst level => Sys2Proof.Machine.execPerst level s
  | .partitionCreate m => Sys2Proof.Machine.execPartitionCreate m s
  | .partitionResize m => Sys2Proof.Machine.execPartitionResize m s
  | .partitionDestroy m => Sys2Proof.Machine.execPartitionDestroy m s
  | .streamOpen m => Sys2Proof.Machine.execStreamOpen m s
  | .streamClose m => Sys2Proof.Machine.execStreamClose m s
  | .streamResume m => Sys2Proof.Machine.execStreamResume m s
  | .directoryWrite m bad => Sys2Proof.Machine.execDirectoryWrite m bad s
  | .recordWrite m => Sys2Proof.Machine.execRecordWrite m s
  | .listWrite m => Sys2Proof.Machine.execListWrite m s
  | .catalogueWriteRelease => Sys2Proof.Machine.execCatalogueWriteRelease s
  | .syncAlloc m => Sys2Proof.Machine.execSyncAlloc m s
  | .syncFree m => Sys2Proof.Machine.execSyncFree m s
  | .streamFetch p st ok => Sys2Proof.Machine.execStreamFetch p st ok s
  | .streamPoll p st ok => Sys2Proof.Machine.execStreamPoll p st ok s
  | .streamStatusWrite p st => Sys2Proof.Machine.execStreamStatusWrite p st s
  | .streamCommandStart p st => Sys2Proof.Machine.execStreamCommandStart p st s
  | .stepBegin p st => Sys2Proof.Machine.execStepBegin p st s
  | .stepCommit p st => Sys2Proof.Machine.execStepCommit p st s
  | .reconfigure p st => Sys2Proof.Machine.execReconfigure p st s
  | .catalogueSwitch p st => Sys2Proof.Machine.execCatalogueSwitch p st s
  | .tileBatch p st => Sys2Proof.Machine.execTileBatch p st s
  | .barrier p st => Sys2Proof.Machine.execBarrier p st s
  | .streamSyncArm p st => Sys2Proof.Machine.execStreamSyncArm p st s
  | .streamSyncSignal p st => Sys2Proof.Machine.execStreamSyncSignal p st s
  | .streamSyncWait p st => Sys2Proof.Machine.execStreamSyncWait p st s
  | .updateParam p st => Sys2Proof.Machine.execUpdateParam p st s
  | .fenceQuery p st => Sys2Proof.Machine.execFenceQuery p st s
  | .marker p st => Sys2Proof.Machine.execMarker p st s
  | .powerOn tests => Sys2Proof.Machine.execPowerOn tests s
  | .firmwareBlockReceive core last crcOk sealOk => Sys2Proof.Machine.execFirmwareBlockReceive core last crcOk sealOk s
  | .bringupStateDecision => Sys2Proof.Machine.execBringupStateDecision s
  | .standbyImageSync => Sys2Proof.Machine.execStandbyImageSync s
  | .phaseLoss node r phase => Sys2Proof.Machine.execPhaseLoss node r phase s
  | .regionCurrentDerate d r milliamps => Sys2Proof.Machine.execRegionCurrentDerate d r milliamps s
  | .ledgerRequest node r target => Sys2Proof.Machine.execLedgerRequest node r target s
  | .ledgerGrant => Sys2Proof.Machine.execLedgerGrant s
  | .ledgerNeighbourWait => Sys2Proof.Machine.execLedgerNeighbourWait s
  | .rampStage node r => Sys2Proof.Machine.execRampStage node r s
  | .inputPowerCheck deciwatts below10ms => Sys2Proof.Machine.execInputPowerCheck deciwatts below10ms s
  | .thermalSample node r eighths cool10ms => Sys2Proof.Machine.execThermalSample node r eighths cool10ms s
  | .thermal node r => Sys2Proof.Machine.execThermal node r s
  | .thermalTrip => Sys2Proof.Machine.execThermalTrip s
  | .droopSignature node r before after => Sys2Proof.Machine.execDroopSignature node r before after s
  | .busConverterLoss c => Sys2Proof.Machine.execBusConverterLoss c s
  | .ageingSample node r slack => Sys2Proof.Machine.execAgeingSample node r slack s
  | .ageingReplan => Sys2Proof.Machine.execAgeingReplan s
  | .sealKeyLoad core source roleBit key => Sys2Proof.Machine.execSealKeyLoad core source roleBit key s
  | .fwStage m => Sys2Proof.Machine.execFwStage m s
  | .fwActivateHitless m => Sys2Proof.Machine.execFwActivateHitless m s
  | .fwActivateReset m => Sys2Proof.Machine.execFwActivateReset m s
  | .fwActivateDeferred m => Sys2Proof.Machine.execFwActivateDeferred m s
  | .fwRaiseFloor m => Sys2Proof.Machine.execFwRaiseFloor m s
  | .fwStatus m => Sys2Proof.Machine.execFwStatus m s
  | .handover => Sys2Proof.Machine.execHandover s
  | .managerUpdate node resumed => Sys2Proof.Machine.execManagerUpdate node resumed s
  | .fwQuietTimeout node => Sys2Proof.Machine.execFwQuietTimeout node s
  | .spdmGetVersion r => Sys2Proof.Machine.execSpdmGetVersion r s
  | .spdmGetCapabilities r => Sys2Proof.Machine.execSpdmGetCapabilities r s
  | .spdmNegotiateAlgorithms r => Sys2Proof.Machine.execSpdmNegotiateAlgorithms r s
  | .spdmGetDigests r => Sys2Proof.Machine.execSpdmGetDigests r s
  | .spdmGetCertificate r => Sys2Proof.Machine.execSpdmGetCertificate r s
  | .spdmChallenge r => Sys2Proof.Machine.execSpdmChallenge r s
  | .spdmGetMeasurements r => Sys2Proof.Machine.execSpdmGetMeasurements r s
  | .spdmKeyExchange r => Sys2Proof.Machine.execSpdmKeyExchange r s
  | .spdmFinish r => Sys2Proof.Machine.execSpdmFinish r s
  | .spdmHeartbeat r => Sys2Proof.Machine.execSpdmHeartbeat r s
  | .spdmKeyUpdate r => Sys2Proof.Machine.execSpdmKeyUpdate r s
  | .spdmEndSession r => Sys2Proof.Machine.execSpdmEndSession r s
  | .spdmChunkSend r => Sys2Proof.Machine.execSpdmChunkSend r s
  | .spdmChunkGet r => Sys2Proof.Machine.execSpdmChunkGet r s
  | .spdmUnsupported r => Sys2Proof.Machine.execSpdmUnsupported r s
  | .mctpMailboxCommand req => Sys2Proof.Machine.execMctpMailboxCommand req s
  | .setEndpointId eid => Sys2Proof.Machine.execSetEndpointId eid s
  | .getTid => Sys2Proof.Machine.execGetTid s
  | .setTid tid => Sys2Proof.Machine.execSetTid tid s
  | .getPldmTypes => Sys2Proof.Machine.execGetPldmTypes s
  | .getPldmCommands type => Sys2Proof.Machine.execGetPldmCommands type s
  | .getPldmVersion type => Sys2Proof.Machine.execGetPldmVersion type s
  | .getPdr record => Sys2Proof.Machine.execGetPdr record s
  | .setEventReceiver enable addr => Sys2Proof.Machine.execSetEventReceiver enable addr s
  | .pollForPlatformEventMessage => Sys2Proof.Machine.execPollForPlatformEventMessage s
  | .pldmFirmwareUpdate c => Sys2Proof.Machine.execPldmFirmwareUpdate c s
  | .activateFirmware => Sys2Proof.Machine.execActivateFirmware s
  | .platformEventMessage answered => Sys2Proof.Machine.execPlatformEventMessage answered s
  | .sensorRefresh id v => Sys2Proof.Machine.execSensorRefresh id v s
  | .i3cCcc c => Sys2Proof.Machine.execI3cCcc c s
  | .smbusAlertResponse => Sys2Proof.Machine.execSmbusAlertResponse s
  | .smbusTimeout => Sys2Proof.Machine.execSmbusTimeout s
  | .i3cIdleTimeout => Sys2Proof.Machine.execI3cIdleTimeout s
  | .freeze noticeFirst => Sys2Proof.Machine.execFreeze noticeFirst s
  | .idcode => Sys2Proof.Machine.execIdcode s
  | .samplePreload preload => Sys2Proof.Machine.execSamplePreload preload s
  | .extest => Sys2Proof.Machine.execExtest s
  | .dbgSel v => Sys2Proof.Machine.execDbgSel v s
  | .dbgData answered => Sys2Proof.Machine.execDbgData answered s
  | .freezeState => Sys2Proof.Machine.execFreezeState s
  | .bypass code => Sys2Proof.Machine.execBypass code s
  | .inputUndervoltage => Sys2Proof.Machine.execInputUndervoltage s
  | .inputOvervoltage => Sys2Proof.Machine.execInputOvervoltage s
  | .modResetNFall => Sys2Proof.Machine.execModResetNFall s
  | .modResetNRise tests => Sys2Proof.Machine.execModResetNRise tests s
  | .coldResetRequest => Sys2Proof.Machine.execColdResetRequest s
  | .hostLinkTraining rate width => Sys2Proof.Machine.execHostLinkTraining rate width s
  | .hdmDecoderCommit commit base size ways granularity => Sys2Proof.Machine.execHdmDecoderCommit commit base size ways granularity s
  | .cxlMailboxCommand opcode payload => Sys2Proof.Machine.execCxlMailboxCommand opcode payload s
  | .ideKm session c => Sys2Proof.Machine.execIdeKm session c s
  | .msixVectorUnmask v => Sys2Proof.Machine.execMsixVectorUnmask v s
  | .bayFlushTimeout g bay => Sys2Proof.Machine.execBayFlushTimeout g bay s
  | .standbyMirrorReady => Sys2Proof.Machine.execStandbyMirrorReady s
  | .mctpUnsupportedMessage type => Sys2Proof.Machine.execMctpUnsupportedMessage type s
  | .testLogicReset => Sys2Proof.Machine.execTestLogicReset s

end Sys2Proof.Machine
end

