-- ==== Sys2Proof/WellFormed.lean ====
section
/-! DEFINITION. Which commands are well formed: operands that name parts the module has and lengths that its interfaces can
carry. A meaning is total and answers an ill-formed command as its own checks say. -/

namespace Sys2Proof

/-- Bits [lo+n-1:lo] of a unit ID. -/
def unitBits (u : Word) (lo n : Nat) : Nat := u.toNat / 2 ^ lo % 2 ^ n

/-- Dies of a kind (Table 0-5). -/
def dieCount (kind : Nat) : Nat :=
  match kind with
  | 0 => 8
  | 1 => 16
  | 2 => 6
  | 3 => 2
  | _ => 0

/-- Unit kinds with their die kinds, index and sub-unit ranges (Table 0-7); 1023 names the unit as a whole. -/
def unitKindWf (die kind index sub : Nat) : Bool :=
  match kind with
  | 0 => index == 0 && sub == 1023
  | 1 => die == 0 && decide (index < 4) && sub == 1023
  | 2 => die == 0 && decide (index < 2) && sub == 1023
  | 3 => die == 0 && (decide (index < 2) || index == 15) && sub == 1023
  | 4 => die == 0 && decide (index < 6) && sub == 1023
  | 5 => die == 0 && ((index == 0 && (decide (sub < 192) || sub == 1023)) || (index == 1 && sub == 1023))
  | 6 => die == 0 && index == 0 && sub == 1023
  | 7 => die == 0 && decide (index < 4) && sub == 1023
  | 8 => die == 1 && decide (index < 8) && decide (sub < 128)
  | 9 => die == 1 && decide (index < 4) && sub == 1023
  | 10 => (die == 1 || die == 2) && index == 0 && sub == 1023
  | 11 => die == 2 && (decide (sub < 2) || sub == 1023)
  | 12 => die == 2 && index == 0 && sub == 1023
  | 13 => (if die == 3 then decide (index < 4) else index == 0) && sub == 1023
  | 14 => decide (index < 9) && decide (sub < 13)
  | 15 => decide (index < 7) && decide (sub < 6)
  | _ => false

/-- A unit ID that names a unit (00 R6, Tables 0-6 to 0-8). -/
def unitWf (u : Word) : Bool :=
  let die := unitBits u 29 3
  let site := unitBits u 18 5
  decide (unitBits u 24 5 < dieCount die) &&
  (if die == 0 then decide (site < 20) || (site == 31 && unitBits u 23 1 == 0)
   else site == 0 && unitBits u 23 1 == 0) &&
  unitKindWf die (unitBits u 14 4) (unitBits u 10 4) (unitBits u 0 10)

/-- A unit ID, where one is given. -/
def optUnitWf (u : Option Word) : Bool := u.all unitWf

/-- Registers lie on 4-byte boundaries (BAR0: 8-byte boundaries) in their pages. -/
def RegName.wf (r : RegName) : Bool :=
  match r with
  | .atoll _ off => off % 4 == 0
  | .csr _ _ num => decide (num < 4096)
  | .shoal _ off => off % 4 == 0
  | .isle _ off => off % 4 == 0
  | .strait _ off => off % 4 == 0
  | .collector _ off => off % 4 == 0
  | .bar0 off _ => off % 8 == 0

/-- A neighbour request carries 1 to 128 bytes read, or 1 to 256 bytes written. -/
def NbrAccess.wf (r : NbrAccess) : Bool :=
  match r with
  | .read n => decide (0 < n) && decide (n ≤ 128)
  | .write _ data => decide (0 < data.length) && decide (data.length ≤ 256)

/-- A mesh packet runs between the 640 routers (8 dies of 10 by 4, with their edge ports counted by the model). -/
def MeshEvent.wf (e : MeshEvent) : Bool :=
  match e with
  | .inject _ _ _ payload => decide (payload.length ≤ 4096)
  | .forward => true
  | .crcFail => true

/-- A causeway runs between two different nodes. -/
def OnDieLink.wf (l : OnDieLink) : Bool :=
  match l with
  | .mesh _ _ _ _ => true
  | .isthmus _ _ => true
  | .port _ _ _ _ => true
  | .causeway a b => decide (a ≠ b)

/-- A failed patrol names a unit. -/
def PatrolResult.wf (r : PatrolResult) : Bool :=
  match r with
  | .pass => true
  | .fail u _ _ _ _ => unitWf u

/-- A lagoon has 25,165,824 bytes and a staging die 16 banks; scrubbed words are 32 data bytes. -/
def SramWord.wf (w : SramWord) : Bool :=
  match w with
  | .lagoon _ k => decide (k < 786432)
  | .staging _ k => decide (k < 2097152)

/-- What the tests of a timeline may name: units, staging banks, channels 0 to 127 and links 0 to 95. -/
def BringUp.wf (t : BringUp) : Bool :=
  t.failingUnits.all (fun e => unitWf e.1) && t.raisedFails.all unitWf &&
  t.failingBanks.all (fun e => decide (e.1 < 16) && decide (e.2 < 16)) &&
  t.failingChannels.all (fun c => decide (c < 128)) && t.linkLanes.all (fun e => decide (e.1 < 96) && decide (e.2 < 4))

/-- Well-formed commands. -/
def Instr.wf (i : Instr) : Bool :=
  match i with
  | .registerWrite r _ => r.wf
  | .scalarInstruction .. => true
  | .lagoonLoad _ _ _ size _ _ => decide (0 < size) && decide (size ≤ 128)
  | .lagoonStore _ _ _ _ data => decide (0 < data.length) && decide (data.length ≤ 256)
  | .neighbourRequest target source _ req _ => decide (target ≠ source) && req.wf
  | .chConnect .. | .connectRequest .. | .connectAnswer .. | .connectTimeout .. | .chSend .. | .chSendTuple ..
  | .chSendResume .. | .channelStall .. | .chRecv .. | .chHret .. | .handlerDispatch .. | .chQueueDelivery ..
  | .chPortPublish .. | .chPortUnpublish .. | .chClose .. | .syncWait .. | .syncWaitany .. | .syncSignal ..
  | .syncArm .. | .syncWaitTimeout .. | .topIssue .. | .topPoll .. | .tessEpoch .. | .tileOpStart ..
  | .tileOpComplete .. | .bankAdd .. | .bankMax .. | .bankScale .. | .bankConvert .. | .bankApex .. | .bankZero ..
  | .bankOpComplete .. | .bayFlush .. | .bayInvalidate .. | .bayFlushInvalidate .. => true
  | .cacheFill _ line _ => decide (line < 2097152)
  | .cacheDramTimeout _ line => decide (line < 2097152)
  | .bayModeChange .. | .bayModeChangeDone .. | .vecAdd .. | .vecSub .. | .vecMul .. | .vecFma .. | .vecMax ..
  | .vecMin .. | .vecAbs .. | .vecNeg .. | .vecRecip .. | .vecRsqrt .. | .vecSqrt .. | .vecLdexp .. | .vecCmpEq ..
  | .vecCmpLt .. | .vecCmpLe .. | .vecSelect .. | .vecConvert .. | .vecExp .. | .vecLog .. | .vecSigmoid ..
  | .vecTanh .. | .vecGelu .. | .vecSilu .. | .vecStats .. | .redSum .. | .redSumsq .. | .redDot .. | .redMax ..
  | .redMin .. | .redArgmax .. | .vecLineRelease .. | .vectorOpComplete .. | .seqNop .. | .seqIssue .. | .seqLoop ..
  | .seqEndloop .. | .seqJump .. | .seqBrsel .. | .seqTake .. | .seqEmit .. | .seqSignal .. | .seqWait ..
  | .seqCache .. | .seqOpwait .. | .seqHalt .. | .seqCompletion .. | .laneEntryArrival .. | .epochHoldExpiry ..
  | .queueHeadToken .. | .spillRefill .. | .laneCreditReturn .. | .joinStarve .. | .reconfDispatch ..
  | .reconfArrival .. | .quiescentReport .. | .check .. | .checkAnswer .. | .drainTimeout .. | .descriptorInstall ..
  | .ready .. | .go .. | .dmaPortPost .. | .dmaCompletionPop .. | .dmaCopy .. | .dmaRemoteWrite .. | .gather ..
  | .scatter .. | .reduceSum .. | .mxCompress .. | .mxDecompress .. | .factorStats .. | .memoryCommandComplete ..
  | .dmaTimeout .. => true
  | .dramScrub _ word _ => decide (word < 134217728)
  | .lagoonScrub w _ => w.wf
  | .scrubForcedCycle w _ => w.wf
  | .bankPower .. | .bankDrainDone .. | .bankDrainTimeout .. | .bankOffRequest .. | .bankPowerUpDone ..
  | .windowOpen .. | .windowClose .. | .windowCloseComplete .. | .windowQuery .. | .remoteWriteArrival ..
  | .channelRetirementStart .. => true
  | .retirementPageMove badWords _ => badWords.all fun w => decide (w < 64)
  | .channelRetirementDone .. | .channelRetire .. => true
  | .meshPacket _ _ _ ev => ev.wf
  | .linkRetrain l => l.wf
  | .linkRetrainDone l _ => l.wf
  | .causewayMessage _ _ payload _ => decide (1 ≤ payload.length) && decide (payload.length ≤ 64)
  | .causewayRouteRewrite .. | .oscFailover .. | .oscillatorsLost .. | .meshClockStep .. | .arithmeticStepChange ..
  | .arithmeticUngate .. => true
  | .codewordReceive _ cw => decide (cw.ctrl.toNat < 2 ^ 20) && decide (cw.body.length = 640)
  | .replayTimeout .. | .linkRetryLimit .. | .linkCreditTimeout .. | .laneSignalLoss .. | .laneRetrainDone ..
  | .linkTraining .. | .linkControlSend .. | .linkControl .. | .fabricPacketArrival .. | .reassemblyTimeout ..
  | .ack .. | .fabricAckTimeout .. | .syncSignalArrival .. | .mcastBranchTimeout .. | .mcastClose .. => true
  | .telemetrySample _ _ meas => decide (meas.words.length ≤ 4)
  | .collectiveStart .. | .reduceScatter .. | .allReduce .. | .allGather .. | .reduceUpdate ..
  | .reduceUpdateGather .. | .localUpdate .. | .densityProfile .. | .collApex .. | .collJoin .. | .collGrant ..
  | .collDone .. | .collData .. | .earlyPoolExpiry .. | .collTimeout .. => true
  | .gapPatrolMicrotest unit _ r => unitWf unit && r.wf
  | .gapPatrolForcedSlot unit _ r => unitWf unit && r.wf
  | .fullPatrol .. => true
  | .fullPatrolComplete _ a b => a.wf && b.wf
  | .migrationStart .. | .migrationCutOver .. | .fenceMapWrite .. | .stepRollback .. | .rollbackRestart ..
  | .faultCollectorDrain .. | .coalesceRelease .. | .wearScoreUpdate .. | .wearCheckpoint ..
  | .matrixEngineWatchdog .. | .vectorEngineWatchdog .. | .scalarWatchdog .. | .seqWaitWatchdog .. => true
  | .blockWatchdog unit => unitWf unit
  | .managerHeartbeat .. | .heartbeatMiss .. | .hubLiveness .. | .hubWatchdog .. | .hubFailover ..
  | .bothHubsLost .. | .heartbeatWordUpdate .. | .statusReport .. | .abortFlood .. | .jobAbort .. | .dump ..
  | .dumpUnitTimeout .. | .dumpRead .. | .dumpRelease .. | .resetUnit .. | .resetAtoll .. | .atollDrainTimeout ..
  | .stepAbortStall .. | .resetPartition .. | .partitionResetDone .. | .resetModule .. => true
  | .moduleReset tests => tests.wf
  | .fenceClear .. | .unitFence .. | .serviceClear .. => true
  | .diagRun _ fail => optUnitWf fail
  | .mbDoorbell .. | .mbCqHead .. | .mbEqHead .. | .completionPost .. | .eventPost .. | .query .. | .getParam ..
  | .setParam .. | .correlate .. | .logRead .. | .fenceMapRead .. | .suspectRead .. | .telemetryRead ..
  | .wearRead .. | .linkStateRead .. | .moduleIdSet .. | .routeWrite .. | .mcastWrite .. | .linkConfigWrite .. => true
  | .hostMemRead addr _ _ => decide (addr % 64 = 0)
  | .hostMemWrite addr data => decide (addr % 64 = 0) && decide (data.length = 64)
  | .birsp .. | .hostBiTimeout .. | .h2dSnoop .. | .perst .. | .partitionCreate .. | .partitionResize ..
  | .partitionDestroy .. | .streamOpen .. | .streamClose .. | .streamResume .. | .directoryWrite ..
  | .recordWrite .. | .listWrite .. | .catalogueWriteRelease .. | .syncAlloc .. | .syncFree .. | .streamFetch ..
  | .streamPoll .. | .streamStatusWrite .. | .streamCommandStart .. | .stepBegin .. | .stepCommit ..
  | .reconfigure .. | .catalogueSwitch .. | .tileBatch .. | .barrier .. | .streamSyncArm .. | .streamSyncSignal ..
  | .streamSyncWait .. | .updateParam .. | .fenceQuery .. | .marker .. => true
  | .powerOn tests => tests.wf
  | .firmwareBlockReceive .. | .bringupStateDecision .. | .standbyImageSync .. | .phaseLoss ..
  | .regionCurrentDerate .. | .ledgerRequest .. | .ledgerGrant .. | .ledgerNeighbourWait .. | .rampStage ..
  | .inputPowerCheck .. | .thermalSample .. | .thermal .. | .thermalTrip .. | .droopSignature ..
  | .busConverterLoss .. | .ageingSample .. | .ageingReplan .. | .sealKeyLoad .. | .fwStage ..
  | .fwActivateHitless .. | .fwActivateReset .. | .fwActivateDeferred .. | .fwRaiseFloor .. | .fwStatus ..
  | .handover .. | .managerUpdate .. | .fwQuietTimeout .. | .spdmGetVersion .. | .spdmGetCapabilities ..
  | .spdmNegotiateAlgorithms .. | .spdmGetDigests .. | .spdmGetCertificate .. | .spdmChallenge ..
  | .spdmGetMeasurements .. | .spdmKeyExchange .. | .spdmFinish .. | .spdmHeartbeat .. | .spdmKeyUpdate ..
  | .spdmEndSession .. | .spdmChunkSend .. | .spdmChunkGet .. | .spdmUnsupported .. | .mctpMailboxCommand ..
  | .setEndpointId .. | .getTid .. | .setTid .. | .getPldmTypes .. | .getPldmCommands .. | .getPldmVersion ..
  | .getPdr .. | .setEventReceiver .. | .pollForPlatformEventMessage .. | .pldmFirmwareUpdate ..
  | .activateFirmware .. | .platformEventMessage .. | .sensorRefresh .. | .i3cCcc .. | .smbusAlertResponse ..
  | .smbusTimeout .. | .i3cIdleTimeout .. | .freeze .. | .idcode .. | .samplePreload .. | .extest .. | .dbgSel ..
  | .dbgData .. | .freezeState .. | .bypass .. | .inputUndervoltage .. | .inputOvervoltage .. | .modResetNFall .. => true
  | .modResetNRise tests => tests.wf
  | .coldResetRequest .. => true
  | .hostLinkTraining _ width => decide (width ≤ 16)
  | .hdmDecoderCommit _ base size _ _ => decide (base % 268435456 = 0) && decide (size % 268435456 = 0)
  | .cxlMailboxCommand .. | .ideKm .. | .msixVectorUnmask .. | .bayFlushTimeout .. | .standbyMirrorReady ..
  | .mctpUnsupportedMessage .. | .testLogicReset .. => true

end Sys2Proof
end

