-- ==== Sys2Proof/Safety.lean ====
section
/-! DEFINITION. The terms that claims are stated in: a command that completes, the record that a fault leaves, the parts of the
state a command may change, and the invariants of the module's state. -/

namespace Sys2Proof.Machine

/-- A command completes at a state, and the state after it has a property. -/
def completes (i : Instr) (s : State) (post : State → Prop) : Prop := ∃ t, exec i s = .next t ∧ post t

/-- A step ends in a next state. -/
def stepsOn (s : State) : Prop := ∃ t, step s = .next t

/-- The collector of a unit's die took exactly one record: of this unit and class, at the local count (R269, R270). -/
def State.recorded (s t : State) (u : Word) (cls : Half) : Prop :=
  ∃ r : ErrRec, r.unit = u ∧ r.cls = cls ∧ r.count = s.count ∧ r.seq = s.nextSeq u ∧
    t.collector (uNode u) = { (s.collector (uNode u)).push r with seq := s.nextSeq u + 1 }

/-- Only atoll g may differ. -/
def State.onlyAtoll (s t : State) (g : Nat) : Prop :=
  t = { s with atolls := t.atolls } ∧ ∀ h, h ≠ g → t.atoll h = s.atoll h

/-- Of atoll g only core c may differ, and nothing outside the atoll. -/
def State.onlyCore (s t : State) (g c : Nat) : Prop :=
  s.onlyAtoll t g ∧ t.atoll g = { s.atoll g with cores := (t.atoll g).cores } ∧
    ∀ d, d ≠ c → (t.atoll g).core d = (s.atoll g).core d

/-- No host line is tracked, so no device access waits for the host (R305). -/
def State.hostClear (s : State) : Prop := s.host.sf = []

/-- Command c of mailbox m has its final completion in line, with these contents, and holds no executor (R311, R312); a
command that a PERST# discarded leaves none (R302). No other mailbox differs. -/
def State.answers (s t : State) (m : Nat) (c : MbCmd) (st off result : Nat) (data : List Byte) : Prop :=
  (∀ x ∈ (t.mbox m).started ++ (t.mbox m).running, x.order ≠ c.order) ∧
  (t.mbox m).fin = (s.mbox m).fin ++ (if c.discard then [] else
    [{ slot := c.slot, compl := mbCompletion c st off true result data, irq := flag c.img 7 0, frees := !c.accepted,
       data := data }]) ∧
  ∀ n, n ≠ m → t.mbox n = s.mbox n

/-- Command c of mailbox m has ended with a status: its final completion is in line and it holds no executor. -/
def State.mbEnded (t : State) (m : Nat) (c : MbCmd) (st : Nat) : Prop :=
  (∀ x ∈ (t.mbox m).started ++ (t.mbox m).running, x.order ≠ c.order) ∧
  (c.discard = false → ∃ f ∈ (t.mbox m).fin, f.slot = c.slot ∧ ∃ off result data,
    f.compl = mbCompletion c st off true result data)

/-- Long command c of mailbox m is accepted: it runs on, its slot is free, and its interim completion is in line (R312). -/
def State.mbTaken (t : State) (m : Nat) (c : MbCmd) : Prop :=
  { c with accepted := true } ∈ (t.mbox m).running ∧ (∀ x ∈ (t.mbox m).started, x.order ≠ c.order) ∧
  (c.discard = false → ∃ f ∈ (t.mbox m).fin, f.slot = c.slot ∧ f.frees = true ∧
    f.compl = mbCompletion c mbAccepted 0xFFFF false 0 [])

/-- Command c is the one that mailbox m's row for opcode op takes next (R314, R316). -/
def State.mbFirst (s : State) (m op : Nat) (c : MbCmd) : Prop := s.mbNext m (fun x => mbOp x.img == op) = some c

/-- Fewer than 8 accepted long commands run in mailbox m (R312). -/
def State.mbRoom (s : State) (m : Nat) : Prop := ((s.mbox m).running.filter fun x => x.accepted).length < 8

/-- Command c is the next of stream st of partition p: fetched, checked, and free to start (R336, R337). -/
def State.nextCmd (s : State) (p st : Nat) (x : Part) (c : SCmd) : Prop :=
  s.part? p = some x ∧ s.streamsRun x = true ∧ (x.stream st).open_ = true ∧ (x.stream st).stopped = false ∧
  (x.stream st).closing = false ∧ (x.stream st).waiting.head? = some c ∧ (∀ d ∈ (x.stream st).started, d.idx ≠ c.idx) ∧
  streamOpcode c.op = true ∧ firstBad c.body.toNat (c.checks p st) = none ∧ s.mayStart p st x c = true ∧ s.cmdOwn p x c = none

/-- Command c of stream st has started and completed, and its stream runs on. -/
def State.cmdDone (t : State) (p st : Nat) (x : Part) (c : SCmd) : Prop :=
  ∃ y, t.part? p = some y ∧ (y.stream st).waiting = (x.stream st).waiting.drop 1 ∧ (∀ d ∈ (y.stream st).started, d.idx ≠ c.idx) ∧
    (y.stream st).stopped = false ∧ (y.stream st).statusDue = true

/-- Command c of stream st has started and runs. -/
def State.cmdRuns (t : State) (p st : Nat) (x : Part) (c : SCmd) : Prop :=
  ∃ y, t.part? p = some y ∧ (y.stream st).waiting = (x.stream st).waiting.drop 1 ∧ (y.stream st).stopped = false ∧
    ∃ d ∈ (y.stream st).started, d.idx = c.idx ∧ d.img = c.img

/-- Stream st has stopped at command c with a status and a cause kind (R343). -/
def State.cmdStopped (t : State) (p st : Nat) (c : SCmd) (status kind : Nat) : Prop :=
  ∃ y, t.part? p = some y ∧ (y.stream st).stopped = true ∧ (y.stream st).status = BitVec.ofNat 16 status ∧
    (y.stream st).causeKind = kind ∧ (y.stream st).stoppedAt = c.idx ∧ (y.stream st).waiting = []

/-- Command c is the FW_ACTIVATE of one mode that mailbox m takes next. -/
def State.activateFirst (s : State) (m mode : Nat) (c : MbCmd) : Prop :=
  s.mbNext m (fun x => mbOp x.img == 0x501 && fld x.img 16 0 2 == mode) = some c

/-- The active hub answers an SPDM request: outside a session, or in one with its messages authenticated (R402). -/
def State.spdmOpen (s : State) (r : SpdmRequest) : Prop :=
  s.hubRuns = true ∧ (r.session = 0 ∨ (∃ x ∈ s.fw.sessions, x.id = r.session) ∧ r.authOk = true)

/-- One SPDM response with a code has left the module. -/
def State.spdmSaid (s t : State) (r : SpdmRequest) (code : Byte) : Prop :=
  ∃ p1 p2 body, t.mgmt.out = s.mgmt.out ++ [.mctp (if r.session = 0 then 0x05 else 0x06) ([0x13, code, p1, p2] ++ body)]

/-- Every byte memory of an atoll: its lagoon, its cache lines and its cores' private SRAM. -/
def Atoll.memories (a : Atoll) : List Mem :=
  a.lagoon :: (a.cache.map fun e => e.2.data) ++ (a.cores.map fun e => e.2.sram)

/-- Every byte memory of the module, its firmware slots, and the host memory it reaches. -/
def State.memories (s : State) : List Mem :=
  s.mem.dram :: s.host.mem :: (s.mem.shoals.map fun e => e.2.staging) ++ (s.atolls.map fun e => e.2.memories).flatten ++
    (s.fw.hubs.map fun e => [e.2.slot0.mem, e.2.slot1.mem]).flatten

/-- Every byte memory keeps its canonical form. -/
def State.memOk (s : State) : Prop := ∀ m ∈ s.memories, Memory.wf m

/-- The commands that wait are a tail of q, in order. -/
def State.queueWithin (q : List Instr) (s : State) : Prop := s.pending <:+ q

/-- The lifecycle is coherent: a module that is off or tripped has no power, one without power is off, tripped or stopped, and
the active hub is hub 0 or hub 1. -/
def State.lifeOk (s : State) : Prop :=
  (s.life.state = .off ∨ s.life.state = .tripped → s.life.powered = false) ∧
  (s.life.powered = false → s.life.state = .off ∨ s.life.state = .tripped ∨ s.life.state = .stopped) ∧ s.life.activeHub ≤ 1

end Sys2Proof.Machine
end

