-- ==== Sys2Proof/Certificates/Slice0/Obligations.lean ====
section
/-! DEFINITION. The statements for the provers, one definition each. `completes` says that a command answers a next state with
the effect named, under hypotheses on the state and the operands alone. -/

open Sys2Proof Sys2Proof.Machine

/-- LAGOON_LOAD: a core's load of its own lagoon, with no bay in cache mode or switching and no poisoned word, writes rd and
changes nothing but that core. LAGOON_STORE: a store that no tile op holds stores its bytes and leaves every other byte of
the module's memories as it was. NEIGHBOUR_REQUEST: a permitted read leaves the state as it is, a permitted write stores,
and one the target refuses leaves the state as it is. -/
def Obligations.LagoonAccess : Prop :=
  (∀ (g : Fin 320) (c : Fin 2) (rd : Fin 32) (addr : Word) (size : Nat) (sgn : Bool) (s : State),
    s.unitRuns g = true → 0 < size → size ≤ 128 → laTarget addr = 0 → laOffset addr + size ≤ 0x1800000 →
    (s.atoll g).bayBlocked (bayOf (laOffset addr)) = false →
    (s.atoll g).bayBlocked (bayOf (laOffset addr + size - 1)) = false →
    (s.atoll g).poisoned (laOffset addr) size = false →
    completes (.lagoonLoad g (.core c rd) addr size sgn .clean) s fun t =>
      s.onlyCore t g ((s.atoll g).coreIdx c) ∧
      (rd ≠ 0 → ((t.atoll g).core ((s.atoll g).coreIdx c)).reg rd =
        extendBytes sgn size (leNat (Mem.readBytes (s.atoll g).lagoon (laOffset addr) size))) ∧
      (∀ r, r ≠ rd.val →
        ((t.atoll g).core ((s.atoll g).coreIdx c)).reg r = ((s.atoll g).core ((s.atoll g).coreIdx c)).reg r)) ∧
  (∀ (g : Fin 320) (c : Fin 2) (rd : Fin 32) (addr : Word) (tag : BitVec 5) (data : List Byte) (s : State),
    s.unitRuns g = true → 0 < data.length → data.length ≤ 256 → laTarget addr = 0 →
    laOffset addr + data.length ≤ 0x1800000 → Memory.wf (s.atoll g).lagoon →
    (s.atoll g).bayBlocked (bayOf (laOffset addr)) = false →
    (s.atoll g).bayBlocked (bayOf (laOffset addr + data.length - 1)) = false →
    s.writeHeld g (laOffset addr) data.length = false →
    completes (.lagoonStore g (.core c rd) addr tag data) s fun t =>
      s.onlyAtoll t g ∧
      (∀ i, (h : i < data.length) → Mem.read (t.atoll g).lagoon (laOffset addr + i) = data[i]) ∧
      (∀ a, a < laOffset addr ∨ laOffset addr + data.length ≤ a →
        Mem.read (t.atoll g).lagoon a = Mem.read (s.atoll g).lagoon a) ∧
      (∀ d r, ((t.atoll g).core d).reg r = ((s.atoll g).core d).reg r)) ∧
  (∀ (target source : Fin 320) (off n : Nat) (s : State),
    s.running = true → (s.atoll target).frozen = false → off < 0x1800000 → s.nbrStatus source target off = stOk →
    0 < n → n ≤ 128 → (s.atoll target).poisoned off n = false →
    completes (.neighbourRequest target source off (.read n) .clean) s fun t => t = s) ∧
  (∀ (target source : Fin 320) (off : Nat) (tag : BitVec 5) (data : List Byte) (dec : Decoded) (s : State),
    s.running = true → (s.atoll target).frozen = false → off < 0x1800000 → s.nbrStatus source target off = stOk →
    s.writeHeld target off data.length = false → Memory.wf (s.atoll target).lagoon →
    completes (.neighbourRequest target source off (.write tag data) dec) s fun t =>
      s.onlyAtoll t target ∧
      (∀ i, (h : i < data.length) → Mem.read (t.atoll target).lagoon (off + i) = data[i]) ∧
      (∀ a, a < off ∨ off + data.length ≤ a →
        Mem.read (t.atoll target).lagoon a = Mem.read (s.atoll target).lagoon a)) ∧
  (∀ (target source : Fin 320) (off : Nat) (req : NbrAccess) (dec : Decoded) (s : State),
    s.nbrStatus source target off = acUnreachable ∨ s.nbrStatus source target off = acBayMode →
    completes (.neighbourRequest target source off req dec) s fun t => t = s)

/-- BAY_FLUSH leaves no dirty line in its bay, BAY_INVALIDATE and BAY_FLUSH_INVALIDATE no line at all; CACHE_FILL installs the
DRAM bytes a read waits for, CACHE_DRAM_TIMEOUT gives the fill up with a TIMEOUT record, BAY_FLUSH_TIMEOUT records TIMEOUT
and fences the bay; BAY_MODE_CHANGE sets busy and BAY_MODE_CHANGE_DONE clears it, flips the mode and zeroes the bay. -/
def Obligations.CacheBays : Prop :=
  (∀ (g : Fin 320) (bay : Fin 24) (who : CacheIssuer) (s : State),
    s.unitRuns g = true → (s.atoll g).hasCacheCmd bay .flush who = true → s.hostClear →
    completes (.bayFlush g bay who) s fun t =>
      ∀ k c, k / 4096 = bay.val → Tbl.get? (t.atoll g).cache k = some c → c.dirty = false) ∧
  (∀ (g : Fin 320) (bay : Fin 24) (who : CacheIssuer) (s : State),
    s.unitRuns g = true → (s.atoll g).hasCacheCmd bay .invalidate who = true →
    completes (.bayInvalidate g bay who) s fun t =>
      s.onlyAtoll t g ∧ ∀ k, k / 4096 = bay.val → Tbl.get? (t.atoll g).cache k = none) ∧
  (∀ (g : Fin 320) (bay : Fin 24) (who : CacheIssuer) (s : State),
    s.unitRuns g = true → (s.atoll g).hasCacheCmd bay .flushInvalidate who = true → s.hostClear →
    completes (.bayFlushInvalidate g bay who) s fun t =>
      ∀ k, k / 4096 = bay.val → Tbl.get? (t.atoll g).cache k = none) ∧
  (∀ (g : Fin 320) (line bay set l w : Nat) (c : CacheLine) (pl : Place) (data : List Byte) (s s1 : State),
    s.unitRuns g = true → s.hostClear → (s.atoll g).cacheSet (line * 256) = some (bay, set, l) →
    (s.atoll g).findWay bay set l = some w → Tbl.get? (s.atoll g).cache (wayKey bay set w) = some c → c.filling = true →
    s.place (s.partOf g) ((s.atoll g).cacheBase.toNat + l * 256) false = .ok pl →
    s.pread (s.partOf g) ((s.atoll g).cacheBase.toNat + l * 256) 256 = (s1, stOk, data) →
    completes (.cacheFill g line .clean) s fun t =>
      s.onlyAtoll t g ∧ Tbl.get? (t.atoll g).cache (wayKey bay set w) =
        some { c with filling := false, poisoned := false, data := Mem.writeBytes [] 0 data }) ∧
  (∀ (g : Fin 320) (line bay set l w : Nat) (c : CacheLine) (s : State),
    s.unitRuns g = true → (s.atoll g).cacheSet (line * 256) = some (bay, set, l) →
    (s.atoll g).findWay bay set l = some w → Tbl.get? (s.atoll g).cache (wayKey bay set w) = some c → c.filling = true →
    completes (.cacheDramTimeout g line) s fun t =>
      s.recorded t (bayUnit g bay) clsTimeout ∧ Tbl.get? (t.atoll g).cache (wayKey bay set w) = none) ∧
  (∀ (g : Fin 320) (bay : Fin 24) (s : State),
    s.unitRuns g = true → ((s.atoll g).cacheCmds.any fun c => c.bay == bay.val && c.kind != .invalidate) = true →
    completes (.bayFlushTimeout g bay) s fun t =>
      s.recorded t (bayUnit g bay) clsTimeout ∧ t.isFenced (bayUnit g bay) = true) ∧
  (∀ (g : Fin 320) (bay : Fin 24) (toCache : Bool) (s : State),
    s.unitRuns g = true → (s.atoll g).bayCache.getLsbD bay ≠ toCache →
    ((s.atoll g).changes.any fun c => c.bay == bay.val) = false →
    completes (.bayModeChange g bay toCache) s fun t =>
      t = { s with atolls := t.atolls } ∧ (t.atoll g).bayBusy = (s.atoll g).bayBusy ||| BitVec.ofNat 24 (2 ^ bay.val) ∧
      (t.atoll g).bayCache = (s.atoll g).bayCache ∧ ∀ h, (t.atoll h).lagoon = (s.atoll h).lagoon) ∧
  (∀ (g : Fin 320) (bay : Fin 24) (c : BayChange) (s : State),
    s.unitRuns g = true → s.hostClear → (s.atoll g).changes.find? (fun c => c.bay == bay.val) = some c →
    completes (.bayModeChangeDone g bay) s fun t =>
      (t.atoll g).bayBusy.getLsbD bay = false ∧ (t.atoll g).bayCache.getLsbD bay = c.toCache ∧
      (∀ a, a / 0x100000 = bay.val → Mem.read (t.atoll g).lagoon a = 0))

/-- TOP.ISSUE to an engine not fenced with room in its queue puts the op at the queue's end and returns 0; TOP.POLL returns the
oldest completion word or 0; TESS.EPOCH returns the TESS_STATE fields; TILE_OP_START takes the head op into the engine;
TILE_OP_COMPLETE with passing checks frees the engine; MATRIX_ENGINE_WATCHDOG records TIMEOUT and fences the engine. -/
def Obligations.TileOps : Prop :=
  (∀ (g : Fin 320) (core : Fin 2) (rd rs1 rs2 : Fin 32) (x : Nat) (bs : List Byte) (s : State),
    s.coreRuns g core = true → (((s.atoll g).core core).reg rs2).toNat ≤ 3 →
    s.coreBytes g core (((s.atoll g).core core).reg rs1) 64 = .ok bs →
    s.engineFor g (((s.atoll g).core core).reg rs2).toNat = some x → ((s.atoll g).engine x).queue.length < 4 →
    completes (.topIssue g core rd rs1 rs2) s fun t =>
      s.onlyAtoll t g ∧ (rd ≠ 0 → ((t.atoll g).core core).reg rd = 0) ∧
      ((t.atoll g).engine x).queue = ((s.atoll g).engine x).queue ++
        [{ desc := BitVec.ofNat 512 (leNat bs), src := .core core, seed := s.stepSeed g,
           origin := (((s.atoll g).core core).reg rs2).toNat, replayed := false, spent := 0 }]) ∧
  (∀ (g : Fin 320) (core : Fin 2) (rd rs1 : Fin 32) (s : State),
    s.coreRuns g core = true →
    completes (.topPoll g core rd rs1) s fun t =>
      s.onlyCore t g core ∧
      (rd ≠ 0 → ((t.atoll g).core core).reg rd =
        (Tbl.getD ((s.atoll g).core core).topDone (((s.atoll g).core core).reg rs1).toNat []).headD 0) ∧
      Tbl.getD ((t.atoll g).core core).topDone (((s.atoll g).core core).reg rs1).toNat [] =
        (Tbl.getD ((s.atoll g).core core).topDone (((s.atoll g).core core).reg rs1).toNat []).drop 1) ∧
  (∀ (g : Fin 320) (core : Fin 2) (rd : Fin 32) (s : State),
    s.coreRuns g core = true →
    completes (.tessEpoch g core rd) s fun t =>
      s.onlyCore t g core ∧ (rd ≠ 0 → bits (((t.atoll g).core core).reg rd).toNat 0 4 = (s.atoll g).epoch.toNat ∧
        bits (((t.atoll g).core core).reg rd).toNat 16 14 = (s.atoll g).record.toNat)) ∧
  (∀ (g : Fin 320) (e : Fin 4) (op : TileOp) (rest : List TileOp) (s : State),
    ((s.atoll g).engine e).queue = op :: rest → ((s.atoll g).engine e).cur = none → s.unitRuns g = true →
    s.isFenced (engineUnit g e) = false →
    completes (.tileOpStart g e none) s fun t =>
      t = { s with atolls := t.atolls, freeCtr := t.freeCtr } ∧ (∀ h, h ≠ g.val → t.atoll h = s.atoll h) ∧
      ((t.atoll g).engine e).queue = rest ∧ ∃ r, ((t.atoll g).engine e).cur = some r ∧ r.op = op ∧ (r.status = stOk → firstBad op.desc.toNat (tileChecks op.desc) = none)) ∧
  (∀ (g : Fin 320) (e : Fin 4) (r : TileRun) (s : State),
    ((s.atoll g).engine e).cur = some r → s.unitRuns g = true → (s.atoll g).canDeliver r.op.src r.op.origin = true →
    completes (.tileOpComplete g e .pass) s fun t => ((t.atoll g).engine e).cur = none) ∧
  (∀ (g : Fin 320) (e : Fin 4) (r : TileRun) (s : State),
    ((s.atoll g).engine e).cur = some r → s.unitRuns g = true →
    completes (.matrixEngineWatchdog g e) s fun t =>
      s.recorded t (engineUnit g e) clsTimeout ∧ t.isFenced (engineUnit g e) = true ∧ ((t.atoll g).engine e).cur = none)

/-- For each of BANK_ADD, BANK_MAX, BANK_SCALE, BANK_CONVERT, BANK_APEX and BANK_ZERO: an operation at the head of the port that
passes its checks, reads its operands and whose output runs can be written is given outcome DONE, and every other port entry
stays. BANK_ZERO leaves zeros in its lines and changes no other byte. BANK_OP_COMPLETE takes the finished operation off the
port. -/
def Obligations.BankOps : Prop :=
  (∀ (g : Fin 320) (i : Instr) (code : Nat) (o : BankOp) (rest : List BankOp) (t0 off : Nat) (rs : List TileOut) (low : Bool)
      (s s1 : State),
    (i = .bankAdd g none none ∧ code = 1) ∨ (i = .bankMax g none none ∧ code = 2) ∨
      (i = .bankScale g none none ∧ code = 3) ∨ (i = .bankConvert g none none ∧ code = 4) ∨
      (i = .bankApex g none none ∧ code = 5) ∨ (i = .bankZero g none none ∧ code = 6) →
    (s.atoll g).bankOps = o :: rest → o.outcome = none → s.unitRuns g = true → s.isFenced (bankUnits g) = false →
    (bankCmd o.cmd).op = code → firstBad o.cmd.toNat (bankChecks o.cmd) = none →
    s.resolve g (BitVec.ofNat 32 (bankCmd o.cmd).dst) ((bankCmd o.cmd).lines * 128) = .ok (t0, off) →
    s.bankRun g (bankCmd o.cmd) = .writes s1 rs low → (s1.atoll g).bankOps = o :: rest → s1.runsOk g rs = 0 →
    s1.runsHeld g rs = false →
    completes i s fun t =>
      ∃ l, (t.atoll g).bankOps = { o with outcome := some (stOk, 0, l) } :: rest ∧ ((bankCmd o.cmd).overlaps = false → l = low)) ∧
  (∀ (g : Fin 320) (o : BankOp) (rest : List BankOp) (s : State),
    (s.atoll g).bankOps = o :: rest → o.outcome = none → s.unitRuns g = true → s.isFenced (bankUnits g) = false →
    (bankCmd o.cmd).op = 6 → firstBad o.cmd.toNat (bankChecks o.cmd) = none →
    laTarget (BitVec.ofNat 32 (bankCmd o.cmd).dst) = 0 →
    s.resolve g (BitVec.ofNat 32 (bankCmd o.cmd).dst) ((bankCmd o.cmd).lines * 128) =
      .ok (g.val, laOffset (BitVec.ofNat 32 (bankCmd o.cmd).dst)) →
    s.writeHeld g (laOffset (BitVec.ofNat 32 (bankCmd o.cmd).dst)) ((bankCmd o.cmd).lines * 128) = false →
    Memory.wf (s.atoll g).lagoon →
    completes (.bankZero g none none) s fun t =>
      s.onlyAtoll t g ∧
      (∀ a, laOffset (BitVec.ofNat 32 (bankCmd o.cmd).dst) ≤ a →
        a < laOffset (BitVec.ofNat 32 (bankCmd o.cmd).dst) + (bankCmd o.cmd).lines * 128 →
        Mem.read (t.atoll g).lagoon a = 0) ∧
      (∀ a, a < laOffset (BitVec.ofNat 32 (bankCmd o.cmd).dst) ∨
          laOffset (BitVec.ofNat 32 (bankCmd o.cmd).dst) + (bankCmd o.cmd).lines * 128 ≤ a →
        Mem.read (t.atoll g).lagoon a = Mem.read (s.atoll g).lagoon a)) ∧
  (∀ (g : Fin 320) (o : BankOp) (rest : List BankOp) (x : Nat × Nat × Bool) (s : State),
    (s.atoll g).bankOps = o :: rest → o.outcome = some x → s.unitRuns g = true →
    completes (.bankOpComplete g) s fun t => (t.atoll g).bankOps = rest)

/-- For each of the 30 vector and reduction rows: an idle, healthy engine takes the operation of that code at the head of its
queue and changes nothing else. VEC_LINE_RELEASE with a passing residue check writes one line and counts its elements; a
failing check records RESIDUE_MISMATCH and fences the engine. VECTOR_OP_COMPLETE frees the engine. VECTOR_ENGINE_WATCHDOG
records TIMEOUT and fences the engine. -/
def Obligations.VectorOps : Prop :=
  (∀ (g : Fin 320) (v : Fin 2) (i : Instr) (code : Nat) (o : VecOp) (rest : List VecOp) (s : State),
    (i, code) ∈ [(.vecAdd g v none, 0x00), (.vecSub g v none, 0x01), (.vecMul g v none, 0x02), (.vecFma g v none, 0x03),
      (.vecMax g v none, 0x04), (.vecMin g v none, 0x05), (.vecAbs g v none, 0x06), (.vecNeg g v none, 0x07),
      (.vecRecip g v none, 0x08), (.vecRsqrt g v none, 0x09), (.vecSqrt g v none, 0x0A), (.vecLdexp g v none, 0x0B),
      (.vecCmpEq g v none, 0x10), (.vecCmpLt g v none, 0x11), (.vecCmpLe g v none, 0x12), (.vecSelect g v none, 0x13),
      (.vecConvert g v none, 0x20), (.vecExp g v none, 0x30), (.vecLog g v none, 0x31), (.vecSigmoid g v none, 0x32),
      (.vecTanh g v none, 0x33), (.vecGelu g v none, 0x34), (.vecSilu g v none, 0x35), (.vecStats g v none, 0x40),
      (.redSum g v none, 0x50), (.redSumsq g v none, 0x51), (.redDot g v none, 0x52), (.redMax g v none, 0x53),
      (.redMin g v none, 0x54), (.redArgmax g v none, (0x55 : Nat))] →
    ((s.atoll g).vec v).queue = o :: rest → ((s.atoll g).vec v).cur = none → s.unitRuns g = true →
    s.isFenced (vecUnit g v) = false → (vecDesc o.desc).op = code →
    firstBad o.desc.toNat (vecChecks (s.atoll g) (o.seqOf v) o.desc) = none →
    completes i s fun t =>
      s.onlyAtoll t g ∧ ((t.atoll g).vec v).queue = rest ∧
      ((t.atoll g).vec v).cur = some { o with status := stOk, offset := 0 } ∧ (t.atoll g).lagoon = (s.atoll g).lagoon) ∧
  (∀ (g : Fin 320) (v : Fin 2) (o o1 : VecOp) (a1 : Atoll) (encs : List (List Nat)) (s s1 s2 s3 : State),
    ((s.atoll g).vec v).cur = some o → s.unitRuns g = true → o.status = 0 → o.done < (vecDesc o.desc).outs →
    let d := vecDesc o.desc
    let m := d.lineElems o.done
    let r := d.inRange o.done m
    let srcs := List.range (vecArity d.op)
    s.gatherAll g v d r.1 r.2 srcs o = (s1, .ready a1 o1) →
    s1.vecSources g d o1 r.1 r.2 srcs = (s2, false, stOk, encs) →
    s2.vecWrite g d o1 o1.done (d.encode o1.seed o1.done (vecResults d o1.done m
      (encs.zipIdx.map fun e => d.vals s2.freeCtr e.2 r.1 e.1)
      ((if vecSums d.op then srcs.map fun i => s2.vecBounds g d.fs (d.src i) r.1 r.2 s2.freeCtr i else []).map
        Prod.fst))) = .done s3 →
    completes (.vecLineRelease g v true) s fun t =>
      ∃ o2, ((t.atoll g).vec v).cur = some o2 ∧ o2.done = o1.done + m ∧ o2.desc = o1.desc ∧ o2.status = o1.status) ∧
  (∀ (g : Fin 320) (v : Fin 2) (o : VecOp) (s : State),
    ((s.atoll g).vec v).cur = some o → s.unitRuns g = true → o.status = 0 → o.done < (vecDesc o.desc).outs →
    completes (.vecLineRelease g v false) s fun t =>
      s.recorded t (vecUnit g v) clsResidue ∧ t.isFenced (vecUnit g v) = true) ∧
  (∀ (g : Fin 320) (v : Fin 2) (o : VecOp) (s : State),
    ((s.atoll g).vec v).cur = some o → s.unitRuns g = true → o.status ≠ 0 ∨ (vecDesc o.desc).outs ≤ o.done →
    completes (.vectorOpComplete g v) s fun t => ((t.atoll g).vec v).cur = none) ∧
  (∀ (g : Fin 320) (v : Fin 2) (o : VecOp) (s : State),
    ((s.atoll g).vec v).cur = some o → s.unitRuns g = true → s.isFenced (vecUnit g v) = false →
    completes (.vectorEngineWatchdog g (v.castLE (by decide))) s fun t =>
      s.recorded t (vecUnit g v) clsTimeout ∧ t.isFenced (vecUnit g v) = true)

/-- A ready sequencer whose current entry has the row's op and no bad field: NOP goes on to the next entry; ISSUE queues the
adjusted template at its engine; LOOP resets a counter and sets its limit; ENDLOOP counts and branches; JUMP and BRSEL set
the next entry, BRSEL out of range halting with BRSEL_RANGE; TAKE of a select token pops it; EMIT puts a token out; SIGNAL
adds to an object; WAIT goes on or waits; CACHE queues a bay command; OPWAIT goes on or waits for the open operations; HALT
halts. With a lockstep mismatch every row instead records LOCKSTEP_MISMATCH and fences the site. -/
def Obligations.SequencerEntries : Prop :=
  (∀ (g : Fin 320) (u : Fin 6) (e : DWord) (s : State),
    s.seqReady g u = true → ((s.atoll g).seq u).prog[((s.atoll g).seq u).pc]? = some e →
    badEntry ((s.atoll g).seq u) e = false →
    (entOp e = 0x00 → ((s.atoll g).seq u).pc + 1 < ((s.atoll g).seq u).prog.length →
      completes (.seqNop g u .pass) s fun t => s.onlyAtoll t g ∧
        (t.atoll g).seq u = { (s.atoll g).seq u with pc := ((s.atoll g).seq u).pc + 1, state := .running, block := .none }) ∧
    (entOp e = 0x01 → u.val < 4 → bits e.toNat 7 1 = 0 → ∀ x, s.engineFor g u = some x →
      ((s.atoll g).engine x).queue.length < 4 →
      completes (.seqIssue g u .pass) s fun t =>
        ((t.atoll g).seq u).issued = ((s.atoll g).seq u).issued + 1 ∧
        ((t.atoll g).engine x).queue = ((s.atoll g).engine x).queue ++
          [{ desc := BitVec.ofNat 512 (adjustBody ((s.atoll g).seq u)
               ((((s.atoll g).seq u).templates[bits e.toNat 0 6]?).getD 0) 0),
             src := .seq u ((s.atoll g).seq u).issued, seed := s.stepSeed g, origin := u, replayed := false, spent := 0 }]) ∧
    (entOp e = 0x02 → completes (.seqLoop g u .pass) s fun t =>
      ((t.atoll g).seq u).ctr (bits e.toNat 0 3) =
        (0, if bits e.toNat 3 1 = 1 then (((s.atoll g).seq u).ctr (bits e.toNat 0 3)).2 else bits e.toNat 4 24 + 1)) ∧
    (entOp e = 0x03 → (((s.atoll g).seq u).ctr (bits e.toNat 0 3)).1 + 1 < (((s.atoll g).seq u).ctr (bits e.toNat 0 3)).2 →
      completes (.seqEndloop g u .pass) s fun t => ((t.atoll g).seq u).pc = bits e.toNat 8 8 ∧
        (((t.atoll g).seq u).ctr (bits e.toNat 0 3)).1 = (((s.atoll g).seq u).ctr (bits e.toNat 0 3)).1 + 1) ∧
    (entOp e = 0x04 → completes (.seqJump g u .pass) s fun t => s.onlyAtoll t g ∧
      ((t.atoll g).seq u).pc = bits e.toNat 8 8 ∧ ((t.atoll g).seq u).state = .running) ∧
    (entOp e = 0x05 → ((s.atoll g).seq u).select.toNat ≤ bits e.toNat 16 8 →
      completes (.seqBrsel g u .pass) s fun t =>
        ((t.atoll g).seq u).pc = bits e.toNat 8 8 + ((s.atoll g).seq u).select.toNat) ∧
    (entOp e = 0x05 → bits e.toNat 16 8 < ((s.atoll g).seq u).select.toNat →
      completes (.seqBrsel g u .pass) s fun t =>
        ((t.atoll g).seq u).state = .error ∧ ((t.atoll g).seq u).error = 3) ∧
    (entOp e = 0x06 → ∀ h r,
      ((s.atoll g).queue (((s.atoll g).seq u).inBind.getD (bits e.toNat 0 2) 0)).ents = h :: r → h.token = true → h.kind = 2 →
      completes (.seqTake g u .pass) s fun t =>
        ((t.atoll g).seq u).select = BitVec.ofNat 13 h.arg ∧
        ((t.atoll g).queue (((s.atoll g).seq u).inBind.getD (bits e.toNat 0 2) 0)).ents = r) ∧
    (entOp e = 0x07 → bits e.toNat 16 16 / 8192 ≠ 5 → bits e.toNat 16 16 / 8192 ≠ 7 →
      bits (((s.atoll g).seq u).outBind.getD (bits e.toNat 0 2) 0) 7 1 = 1 →
      bits (((s.atoll g).seq u).outBind.getD (bits e.toNat 0 2) 0) 0 5 < 24 →
      (s.atoll g).ownRoom (bits (((s.atoll g).seq u).outBind.getD (bits e.toNat 0 2) 0) 0 5) = true →
      completes (.seqEmit g u .pass) s fun t => (t.atoll g).ownIn = (s.atoll g).ownIn ++
        [(bits (((s.atoll g).seq u).outBind.getD (bits e.toNat 0 2) 0) 0 5,
          tokenEntry (bits e.toNat 16 16) (s.atoll g).epoch)]) ∧
    (entOp e = 0x08 → completes (.seqSignal g u .pass) s fun t =>
      (t.atoll g).obj (bits e.toNat 0 6) = signalCount ((s.atoll g).obj (bits e.toNat 0 6)) (bits e.toNat 16 16)) ∧
    (entOp e = 0x09 → bits e.toNat 16 32 ≤ ((s.atoll g).obj (bits e.toNat 0 6)).toNat →
      ((s.atoll g).seq u).pc + 1 < ((s.atoll g).seq u).prog.length →
      completes (.seqWait g u .pass) s fun t => ((t.atoll g).seq u).pc = ((s.atoll g).seq u).pc + 1) ∧
    (entOp e = 0x09 → ((s.atoll g).obj (bits e.toNat 0 6)).toNat < bits e.toNat 16 32 →
      completes (.seqWait g u .pass) s fun t => s.onlyAtoll t g ∧ ((t.atoll g).seq u).state = .waitSync ∧
        (t.atoll g).waits = (s.atoll g).waits ++
          [{ obj := bits e.toNat 0 6, target := BitVec.ofNat 32 (bits e.toNat 16 32), who := .seq g u }]) ∧
    (entOp e = 0x0A → completes (.seqCache g u .pass) s fun t => ∃ k,
      (t.atoll g).cacheCmds = (s.atoll g).cacheCmds ++
        [{ bay := bits e.toNat 0 5, kind := k, seq := some u.val, started := true }]) ∧
    (entOp e = 0x0B → ((s.atoll g).seq u).openOps ≠ [] → completes (.seqOpwait g u .pass) s fun t =>
      s.onlyAtoll t g ∧ (t.atoll g).seq u = { (s.atoll g).seq u with block := .ops }) ∧
    (entOp e = 0x0B → ((s.atoll g).seq u).openOps = [] → ((s.atoll g).seq u).pc + 1 < ((s.atoll g).seq u).prog.length →
      completes (.seqOpwait g u .pass) s fun t => ((t.atoll g).seq u).pc = ((s.atoll g).seq u).pc + 1) ∧
    (entOp e = 0x0C → completes (.seqHalt g u .pass) s fun t =>
      s.onlyAtoll t g ∧ (t.atoll g).seq u = { (s.atoll g).seq u with state := .halted }) ∧
    (∀ (i : Instr) (code : Nat) (k : Fin 6) (v0 v1 : DWord),
      (i, code) ∈ [(.seqNop g u (.mismatch k v0 v1), 0), (.seqIssue g u (.mismatch k v0 v1), 1),
        (.seqLoop g u (.mismatch k v0 v1), 2), (.seqEndloop g u (.mismatch k v0 v1), 3),
        (.seqJump g u (.mismatch k v0 v1), 4), (.seqBrsel g u (.mismatch k v0 v1), 5),
        (.seqTake g u (.mismatch k v0 v1), 6), (.seqEmit g u (.mismatch k v0 v1), 7),
        (.seqSignal g u (.mismatch k v0 v1), 8), (.seqWait g u (.mismatch k v0 v1), 9),
        (.seqCache g u (.mismatch k v0 v1), 10), (.seqOpwait g u (.mismatch k v0 v1), 11),
        (.seqHalt g u (.mismatch k v0 v1), (12 : Nat))] → entOp e = code →
      completes i s fun t => s.recorded t (seqUnit g u) clsLockstep ∧ t.isFenced (seqUnit g u) = true ∧
        t.isFenced (siteUnit g) = true))

/-- SEQ_COMPLETION takes the oldest completion word; LANE_ENTRY_ARRIVAL of an entry under the atoll's own epoch enters its
queue, from own units or from a lane; EPOCH_HOLD_EXPIRY discards a held entry and counts it; QUEUE_HEAD_TOKEN removes an
EPOCH token and closes the queue, or a HALT token, whose reader halts unless in error; SPILL_REFILL moves the oldest spilled
entry into the queue; LANE_CREDIT_RETURN adds a credit up to 16; JOIN_STARVE records and halts the join's sequencer with
error 5. -/
def Obligations.QueuesAndLanes : Prop :=
  (∀ (g : Fin 320) (u : Fin 6) (id : Nat) (w : DWord) (rest : List (Nat × DWord)) (s : State),
    ((s.atoll g).seq u).inbox = (id, w) :: rest → s.unitRuns g = true →
    completes (.seqCompletion g u) s fun t =>
      ((t.atoll g).seq u).inbox = rest ∧ ((t.atoll g).seq u).openOps = ((s.atoll g).seq u).openOps.filter (· != id)) ∧
  (∀ (g : Fin 320) (n : Nat) (e : QEntry) (rest : List (Nat × QEntry)) (s : State),
    (s.atoll g).ownIn = (n, e) :: rest → s.unitRuns g = true → e.epoch = (s.atoll g).epoch → e.token = false →
    ((s.atoll g).queue n).enable = true → ((s.atoll g).queue n).spCount = 0 → ((s.atoll g).queue n).ents.length < 16 →
    completes (.laneEntryArrival g .own) s fun t =>
      s.onlyAtoll t g ∧ (t.atoll g).ownIn = rest ∧ ((t.atoll g).queue n).ents = ((s.atoll g).queue n).ents ++ [e]) ∧
  (∀ (g : Fin 320) (i : Fin 8) (e : QEntry) (rest : List QEntry) (s : State),
    Tbl.getD (s.atoll g).laneIn i [] = e :: rest → s.unitRuns g = true → (s.atoll g).ptEn.getLsbD i = false →
    e.epoch = (s.atoll g).epoch → e.token = false → (s.atoll g).laneEn.getLsbD i = true →
    ((s.atoll g).queue (24 + i.val)).enable = true → ((s.atoll g).queue (24 + i.val)).spCount = 0 →
    ((s.atoll g).queue (24 + i.val)).ents.length < 16 →
    completes (.laneEntryArrival g (.lane i)) s fun t =>
      Tbl.getD (t.atoll g).laneIn i [] = rest ∧
      ((t.atoll g).queue (24 + i.val)).ents = ((s.atoll g).queue (24 + i.val)).ents ++ [e]) ∧
  (∀ (g : Fin 320) (n : Nat) (e : QEntry) (rest : List (Nat × QEntry)) (s : State),
    (s.atoll g).ownIn = (n, e) :: rest → (s.atoll g).ownHold.isSome = true → s.unitRuns g = true →
    e.epoch = (s.atoll g).epoch + 1 → e.token = false →
    completes (.epochHoldExpiry g .own) s fun t =>
      (t.atoll g).ownIn = rest ∧ (t.atoll g).epochDiscard = satAdd32 (s.atoll g).epochDiscard 1 ∧
      (t.atoll g).queue n = (s.atoll g).queue n) ∧
  (∀ (g : Fin 320) (q : Fin 32) (e : QEntry) (rest : List QEntry) (s : State),
    ((s.atoll g).queue q).ents = e :: rest → s.unitRuns g = true → e.token = true → e.kind = 5 →
    completes (.queueHeadToken g q) s fun t =>
      s.onlyAtoll t g ∧ ((t.atoll g).queue q).ents = rest ∧ ((t.atoll g).queue q).closed = true) ∧
  (∀ (g : Fin 320) (q : Fin 32) (u p : Nat) (e : QEntry) (rest : List QEntry) (s : State),
    ((s.atoll g).queue q).ents = e :: rest → s.unitRuns g = true → e.token = true → e.kind = 6 →
    (s.atoll g).readerOf q = some (u, p) → ((s.atoll g).seq u).state ≠ .error →
    completes (.queueHeadToken g q) s fun t =>
      s.onlyAtoll t g ∧ ((t.atoll g).queue q).ents = rest ∧ ((t.atoll g).seq u).state = .halted) ∧
  (∀ (g : Fin 320) (q : Fin 32) (s : State),
    s.unitRuns g = true → 0 < ((s.atoll g).queue q).spCount → ((s.atoll g).queue q).ents.length < 16 →
    completes (.spillRefill g q) s fun t =>
      s.onlyAtoll t g ∧ ((t.atoll g).queue q).spCount = ((s.atoll g).queue q).spCount - 1 ∧
      ((t.atoll g).queue q).ents = ((s.atoll g).queue q).ents ++
        [(s.atoll g).spillGet ((s.atoll g).queue q) ((s.atoll g).queue q).spHead]) ∧
  (∀ (g : Fin 320) (l : Fin 8) (s : State), 0 < Tbl.getD (s.atoll g).creditBack l 0 →
    completes (.laneCreditReturn g l) s fun t =>
      s.onlyAtoll t g ∧ Tbl.getD (t.atoll g).creditBack l 0 = Tbl.getD (s.atoll g).creditBack l 0 - 1 ∧
      (t.atoll g).laneCredits l = min 16 ((s.atoll g).laneCredits l + 1)) ∧
  (∀ (g : Fin 320) (v : Fin 2) (o : VecOp) (x y : Nat) (s : State),
    ((s.atoll g).vec v).cur = some o → (s.atoll g).starved o = some (x, y) → s.unitRuns g = true →
    completes (.joinStarve g v) s fun t =>
      s.recorded t (seqUnit g (o.seqOf v)) clsStarve ∧ ((t.atoll g).vec v).cur = none ∧
      ((t.atoll g).seq (o.seqOf v)).error = 5 ∧ t.flt.fenced = s.flt.fenced)

/-- Each channel row completes: CH_CONNECT blocks the core and sends its request; CONNECT_REQUEST reserves and answers;
CONNECT_ANSWER gives the core its handle; CONNECT_TIMEOUT frees it and returns -7 with a TIMEOUT record; CH_SEND and
CH_SEND_TUPLE put a small message into the receiver's ring and return 0; CH_SEND_RESUME returns 0 once the send finds room;
CHANNEL_STALL records CHANNEL_STALL and triggers a rollback; HANDLER_DISPATCH, CH_RECV and CH_HRET run a handler;
CH_QUEUE_DELIVERY moves a message into the local queue; CH_PORT_PUBLISH, CH_PORT_UNPUBLISH and CH_CLOSE act as R117 and R122
say. -/
def Obligations.Channels : Prop :=
  (∀ (g : Fin 320) (core : Fin 2) (rd rs1 rs2 : Fin 32) (p pos h r : Nat) (s : State),
    let k := (s.atoll g).core core
    s.coreRuns g core = true → (k.reg rs1).toNat / 65536 = 0 → bits (k.reg rs1).toNat 5 3 = 0 →
    (k.reg rs2).toNat ≠ 0 → (k.reg rs2).toNat ≤ 32768 → s.positionOf g = some (p, pos) → k.freeHandle? = some h →
    s.atollAt p (bits (k.reg rs1).toNat 8 8) = some r →
    completes (.chConnect g core rd rs1 rs2) s fun t =>
      ((t.atoll g).core core).block = .connect rd h s.count ∧
      ∃ q : ConnReq, (t.atoll r).connIn = (s.atoll r).connIn ++ [q] ∧ q.fromPos = pos ∧ q.fromHandle = h ∧
        q.cap = (k.reg rs2).toNat ∧ q.port = bits (k.reg rs1).toNat 0 4) ∧
  (∀ (g : Fin 320) (r : ConnReq) (rest : List ConnReq) (h f : Nat) (s : State),
    (s.atoll g).connIn = r :: rest → s.running = true → s.connectCheck g r = .ok h →
    s.atollAt r.part r.fromPos = some f →
    completes (.connectRequest g) s fun t =>
      (t.atoll g).connIn = rest ∧
      (∃ x, Tbl.get? ((t.atoll g).core r.core).handles h = some x ∧ x.send = false ∧ x.cap = r.cap ∧ x.port = r.port) ∧
      (∃ y, ((t.atoll f).core r.fromCore).answers = ((s.atoll f).core r.fromCore).answers ++ [y] ∧
        y.handle = r.fromHandle ∧ y.result = 0 ∧ y.peerHandle = h)) ∧
  (∀ (g : Fin 320) (core : Fin 2) (r : ConnAns) (rest : List ConnAns) (rd : Nat) (since : DWord) (s : State),
    ((s.atoll g).core core).answers = r :: rest → ((s.atoll g).core core).block = .connect rd r.handle since →
    0 ≤ r.result → rd ≠ 0 → s.unitRuns g = true →
    completes (.connectAnswer g core) s fun t =>
      ((t.atoll g).core core).answers = rest ∧ ((t.atoll g).core core).reg rd = BitVec.ofNat 64 r.handle ∧
      ((t.atoll g).core core).block = .none) ∧
  (∀ (g : Fin 320) (core : Fin 2) (rd h : Nat) (since : DWord) (s : State),
    ((s.atoll g).core core).block = .connect rd h since → s.unitRuns g = true → rd ≠ 0 →
    completes (.connectTimeout g core) s fun t =>
      s.recorded t (s.coreUnit g core) clsTimeout ∧ Tbl.get? ((t.atoll g).core core).handles h = none ∧
      ((t.atoll g).core core).reg rd = negStatus 7 ∧ ((t.atoll g).core core).block = .none) ∧
  (∀ (g : Fin 320) (core : Fin 2) (rd rs1 rs2 : Fin 32) (pt r : Nat) (x : Handle) (s : State),
    let k := (s.atoll g).core core
    s.coreRuns g core = true → (k.reg rs1).toNat ≤ 63 → Tbl.get? k.handles (k.reg rs1).toNat = some x →
    x.send = true → x.connecting = false → x.closing = false → x.dead = false → x.bulk = false → x.out < x.cap →
    s.partOf g = some pt → s.atollAt pt x.peerPos = some r → (s.atoll r).inReset = false →
    (((s.atoll r).core x.peerCore).port x.port).publish = true →
    completes (.chSend g core rd rs1 rs2) s fun t =>
      (rd ≠ 0 → ((t.atoll g).core core).reg rd = 0) ∧
      (∃ m, (((t.atoll r).core x.peerCore).port x.port).msgs = (((s.atoll r).core x.peerCore).port x.port).msgs ++ [m] ∧
        m.chan = x.peerHandle ∧ m.seq = x.seq ∧ m.words = 1) ∧
      (∃ y, Tbl.get? ((t.atoll g).core core).handles (k.reg rs1).toNat = some y ∧ y.out = x.out + 1)) ∧
  (∀ (g : Fin 320) (core : Fin 2) (w : Fin 4) (rd rs1 rs2 : Fin 32) (pt r : Nat) (x : Handle) (s : State),
    let k := (s.atoll g).core core
    s.coreRuns g core = true → (k.reg rs1).toNat ≤ 63 → Tbl.get? k.handles (k.reg rs1).toNat = some x →
    x.send = true → x.connecting = false → x.closing = false → x.dead = false → x.bulk = false → x.out < x.cap →
    s.partOf g = some pt → s.atollAt pt x.peerPos = some r → (s.atoll r).inReset = false →
    (((s.atoll r).core x.peerCore).port x.port).publish = true → (k.reg rs2).toNat + 8 * (w.val + 1) ≤ 0x10000 →
    completes (.chSendTuple g core w rd rs1 rs2) s fun t =>
      (rd ≠ 0 → ((t.atoll g).core core).reg rd = 0) ∧
      (∃ m, (((t.atoll r).core x.peerCore).port x.port).msgs = (((s.atoll r).core x.peerCore).port x.port).msgs ++ [m] ∧
        m.chan = x.peerHandle ∧ m.seq = x.seq ∧ m.words = w.val + 1)) ∧
  (∀ (g : Fin 320) (core : Fin 2) (rd h : Nat) (words : List DWord) (ref : Option DWord) (since : DWord) (s s1 : State),
    ((s.atoll g).core core).block = .send rd h words ref since → s.unitRuns g = true →
    s.trySend g core h words ref.isNone = .sent s1 → rd ≠ 0 →
    completes (.chSendResume g core) s fun t =>
      ((t.atoll g).core core).reg rd = 0 ∧ ((t.atoll g).core core).block = .none) ∧
  (∀ (g : Fin 320) (core : Fin 2) (rd h p : Nat) (words : List DWord) (ref : Option DWord) (since : DWord) (x : Handle)
      (y : Part) (s : State),
    ((s.atoll g).core core).block = .send rd h words ref since → Tbl.get? ((s.atoll g).core core).handles h = some x →
    s.partOf g = some p → s.part? p = some y → s.unitRuns g = true →
    completes (.channelStall g core) s fun t =>
      s.recorded t (s.coreUnit g core) clsStall ∧ t.atolls = s.atolls ∧
      ∃ z tr, t.part? p = some z ∧ z.triggers = y.triggers ++ [tr] ∧ tr.cls = clsStall) ∧
  (∀ (g : Fin 320) (core : Fin 2) (rd rs1 : Fin 32) (s : State), s.coreRuns g core = true →
    completes (.chRecv g core rd rs1) s fun t => s.onlyCore t g core ∧
      (rd ≠ 0 → ((t.atoll g).core core).reg rd = (s.atoll g).recvWord core (((s.atoll g).core core).reg rs1).toNat)) ∧
  (∀ (g : Fin 320) (core : Fin 2) (s : State), s.coreRuns g core = true →
    completes (.chHret g core) s fun t =>
      ((t.atoll g).core core).active = none ∧ ((t.atoll g).core core).pc = ((s.atoll g).core core).epc) ∧
  (∀ (g : Fin 320) (core : Fin 2) (i : Nat) (m : PortMsg) (s : State),
    let k := (s.atoll g).core core
    k.nextPort = some (i, m) → s.unitRuns g = true → k.running = true → (s.atoll g).split = true ∨ core = 0 →
    k.mask = false → k.active = none → k.block.dispatchable = true →
    completes (.handlerDispatch g core) s fun t =>
      ((t.atoll g).core core).active = some (i, m) ∧ ((t.atoll g).core core).epc = k.pc ∧
      ((t.atoll g).core core).pc = BitVec.ofNat 64 ((k.port i).handler * 2)) ∧
  (∀ (g : Fin 320) (core : Fin 2) (port : Fin 16) (m : PortMsg) (rest : List PortMsg) (s : State),
    let p := ((s.atoll g).core core).port port
    p.msgs = m :: rest → s.unitRuns g = true → p.publish = true → p.kind = 1 →
    ((s.atoll g).queue p.queue).enable = true → ((s.atoll g).queue p.queue).spCount = 0 →
    ((s.atoll g).queue p.queue).ents.length < 16 →
    completes (.chQueueDelivery g core port) s fun t =>
      (((t.atoll g).core core).port port).msgs = rest ∧
      ((t.atoll g).queue p.queue).ents = ((s.atoll g).queue p.queue).ents ++
        [{ data := BitVec.ofNat 256 (Mem.readNat (s.atoll g).lagoon (laOffset p.base + 32 * m.at_) 32), token := false,
           epoch := (s.atoll g).epoch }]) ∧
  (∀ (g : Fin 320) (core : Fin 2) (v : DWord) (s : State),
    let k := (s.atoll g).core core
    let q := { k.port k.sel.toNat with kind := bits v.toNat 1 2, queue := bits v.toNat 8 5, handler := bits v.toNat 17 15 }
    s.coreRuns g core = true → v.getLsbD 0 = true → (k.port k.sel.toNat).publish = false →
    (s.atoll g).publishError core k.sel.toNat q = 0 →
    completes (.chPortPublish g core v) s fun t => s.onlyCore t g core ∧
      ((t.atoll g).core core).port k.sel.toNat = { q with publish := true, error := 0, msgs := [], wr := 0 }) ∧
  (∀ (g : Fin 320) (core : Fin 2) (v : DWord) (s : State),
    let k := (s.atoll g).core core
    s.coreRuns g core = true → v.getLsbD 0 = false → (k.port k.sel.toNat).publish = true →
    completes (.chPortUnpublish g core v) s fun t => s.onlyCore t g core ∧
      (k.channelsInto k.sel.toNat = [] → (((t.atoll g).core core).port k.sel.toNat).publish = false) ∧
      (k.channelsInto k.sel.toNat ≠ [] → ((t.atoll g).core core).port k.sel.toNat = { k.port k.sel.toNat with error := 5 })) ∧
  (∀ (g : Fin 320) (core : Fin 2) (v : DWord) (p : Nat) (x : Handle) (s : State),
    s.coreRuns g core = true → Tbl.get? ((s.atoll g).core core).handles (bits v.toNat 0 6) = some x → s.partOf g = some p →
    x.send = true → x.connecting = false → x.dead = false →
    completes (.chClose g core v) s fun t =>
      Tbl.get? ((t.atoll g).core core).handles (bits v.toNat 0 6) = if x.out = 0 then none else some { x with closing := true })

/-- RECONF_DISPATCH gives the oldest free reconfiguration the partition's next epoch; RECONF_ARRIVAL hands it to the atoll;
QUIESCENT_REPORT, CHECK and CHECK_ANSWER collect the reports and answers; DRAIN_TIMEOUT lets installation proceed;
DESCRIPTOR_INSTALL ends the atoll's part; READY and GO start HELD atolls. -/
def Obligations.Reconfiguration : Prop :=
  (∀ (p : Fin 32) (x : Part) (r : Reconf) (s : State),
    s.part? p = some x →
    (s.reconfs.filter fun r => r.part == p.val).find? (fun r => r.epoch.isNone &&
      (s.reconfs.filter fun r => r.part == p.val).all fun q =>
        decide (q.id ≥ r.id) || (q.pairs.all fun a => r.pairs.all fun b => a.1 != b.1)) = some r →
    s.running = true →
    (Tbl.get? x.epochTimes (x.epoch + 1).toNat = none ∨
      400 ≤ s.count.toNat - (Tbl.getD x.epochTimes (x.epoch + 1).toNat 0).toNat) →
    completes (.reconfDispatch p) s fun t =>
      (∃ y, t.part? p = some y ∧ y.epoch = x.epoch + 1) ∧ t.atolls = s.atolls ∧
      ∀ q ∈ t.reconfs, q.id = r.id → q.epoch = some (x.epoch + 1)) ∧
  (∀ (g : Fin 320) (p pos : Nat) (r : Reconf) (s : State),
    s.positionOf g = some (p, pos) → s.unitRuns g = true → (s.atoll g).reconf = none →
    s.reconfs.find? (fun r => r.part == p && r.epoch.isSome && (r.pairs.any fun x => x.1 == pos) &&
      !(r.ends.any fun e => e.1 == pos)) = some r →
    completes (.reconfArrival g) s fun t =>
      (∃ rc, (t.atoll g).reconf = some rc ∧ rc.cmd = r.id ∧ rc.flush = r.flush ∧ rc.epoch = r.epoch.getD 0) ∧
      (t.atoll g).tess = (if r.flush then .loading else .draining)) ∧
  (∀ (g : Fin 320) (p pos : Nat) (rc : AtollReconf) (s : State),
    (s.atoll g).reconf = some rc → s.positionOf g = some (p, pos) → s.unitRuns g = true → rc.flush = false →
    rc.reported = false → (s.atoll g).tess = .draining → (s.atoll g).holdsDrain = none →
    completes (.quiescentReport g) s fun t =>
      (t.atoll g).reconf = some { rc with reported := true, flag := false } ∧
      ∀ q ∈ t.reconfs, q.id = rc.cmd → pos ∈ q.quiescent) ∧
  (∀ (g : Fin 320) (p pos : Nat) (rc : AtollReconf) (r : Reconf) (s : State),
    (s.atoll g).reconf = some rc → s.positionOf g = some (p, pos) → s.reconf? rc.cmd = some r → s.unitRuns g = true →
    r.go = false → rc.reported = true → (r.pairs.all fun x => r.quiescent.contains x.1) = true →
    (r.answers.any fun e => e.1 == pos) = false →
    completes (.check g) s fun t =>
      (t.atoll g).reconf = some { rc with stopped := true } ∧
      ∀ q ∈ t.reconfs, q.id = r.id → (pos, !rc.flag && (s.atoll g).holdsDrain.isNone) ∈ q.answers) ∧
  (∀ (p : Fin 32) (r : Reconf) (s : State),
    s.reconfs.find? (fun r => r.part == p.val && r.checking &&
      (r.pairs.all fun x => r.answers.any fun e => e.1 == x.1)) = some r →
    completes (.checkAnswer p) s fun t => ∀ q ∈ t.reconfs, q.id = r.id →
      (r.answers.all Prod.snd = true → q.go = true) ∧
      (r.answers.all Prod.snd = false → q.quiescent = [] ∧ q.answers = [] ∧ q.checking = false)) ∧
  (∀ (p : Fin 32) (r : Reconf) (s : State),
    s.reconfs.find? (fun r => r.part == p.val && r.epoch.isSome && !r.flush && !r.go &&
      (s.reconfAtolls r).all fun e => (s.atoll e.2).reconf.any fun k => k.cmd == r.id) = some r →
    completes (.drainTimeout p) s fun t => ∀ q ∈ t.reconfs, q.id = r.id → q.go = true) ∧
  (∀ (g : Fin 320) (p pos st : Nat) (bad : Option Nat) (rc : AtollReconf) (r : Reconf) (s s1 : State),
    (s.atoll g).reconf = some rc → s.positionOf g = some (p, pos) → s.reconf? rc.cmd = some r → s.unitRuns g = true →
    rc.flush = true ∨ r.go = true →
    s.loadDesc g rc.entry rc.number rc.record rc.epoch rc.barrier bad = (s1, st) →
    completes (.descriptorInstall g bad) s fun t =>
      (t.atoll g).reconf = none ∧ (t.atoll g).tess = (s1.atoll g).tess ∧
      (st = 0 → (t.atoll g).descValid = true ∧ (t.atoll g).descriptor = BitVec.ofNat 14 rc.number)) ∧
  (∀ (p : Fin 32) (g : Fin 320) (pos : Nat) (r : Reconf) (s : State),
    s.positionOf g = some (p.val, pos) → s.running = true → (s.atoll g).tess = .held →
    s.reconfs.find? (fun r => r.part == p.val && r.barrier && (r.ends.any fun e => e.1 == pos && (e.2 == 0 || e.2 == 3)) &&
      !r.readyList.contains pos) = some r →
    completes (.ready p g) s fun t => ∀ q ∈ t.reconfs, q.id = r.id → pos ∈ q.readyList) ∧
  (∀ (g : Fin 320) (s : State),
    s.unitRuns g = true → (s.atoll g).tess = .held → (s.atoll g).goSent = true →
    completes (.go g) s fun t => s.onlyAtoll t g ∧ (t.atoll g).tess = .running ∧ (t.atoll g).goSent = false ∧
      ∀ e ∈ (t.atoll g).seqs, e.2.state ≠ .held)

/-- DMA_PORT_POST queues the command at a unit of the atoll's shoal and advances the core; DMA_COMPLETION_POP pops the
completion queue. Each of DMA_COPY, GATHER, SCATTER, REDUCE_SUM, MX_COMPRESS, MX_DECOMPRESS and FACTOR_STATS takes the head
command of its code onto an idle, healthy unit with what its read pass computed. MEMORY_COMMAND_COMPLETE and DMA_TIMEOUT
free the unit; a failed residue check and the timeout leave their records. -/
def Obligations.MemoryCommands : Prop :=
  (∀ (g : Fin 320) (core : Fin 2) (v : DWord) (p h u : Nat) (s : State),
    s.partOf g = some p → s.unitForDie (g.val / 40) = some (h, u) → s.coreRuns g ((s.atoll g).coreIdx core) = true →
    s.portPosted g < 16 →
    completes (.dmaPortPost g core v) s fun t =>
      ((t.atoll g).core ((s.atoll g).coreIdx core)).pc = ((s.atoll g).core ((s.atoll g).coreIdx core)).pc +
        BitVec.ofNat 64 ((s.atoll g).core ((s.atoll g).coreIdx core)).instrLen ∧
      ∃ c, (t.sunit h u).queue = (s.sunit h u).queue ++ [c] ∧ c.part = p ∧ c.src = .port g ∧
        fld c.img 56 0 64 = v.toNat) ∧
  (∀ (g : Fin 320) (core : Fin 2) (rd : Fin 32) (s : State),
    s.coreRuns g ((s.atoll g).coreIdx core) = true →
    completes (.dmaCompletionPop g core rd) s fun t => s.onlyAtoll t g ∧
      (t.atoll g).dmaDone = (s.atoll g).dmaDone.drop 1 ∧
      (rd ≠ 0 → ((t.atoll g).core ((s.atoll g).coreIdx core)).reg rd = ((s.atoll g).dmaDone[0]?).getD 0)) ∧
  (∀ (h : Fin 16) (u : Fin 4) (i : Instr) (code x v : Nat) (plan : State → MemCmd → State × Plan) (c : MemCmd) (q : Plan)
      (s s1 : State),
    (i = .dmaCopy h u none ∧ code = 1 ∧ plan = State.planCopy) ∨ (i = .gather h u none ∧ code = 0x10 ∧ plan = State.planMove) ∨
      (i = .scatter h u none ∧ code = 0x11 ∧ plan = State.planMove) ∨
      (i = .reduceSum h u none ∧ code = 0x20 ∧ plan = State.planReduce) ∨
      (i = .mxCompress h u none ∧ code = 0x30 ∧ plan = State.planCompress) ∨
      (i = .mxDecompress h u none ∧ code = 0x31 ∧ plan = State.planDecompress) ∨
      (i = .factorStats h u none ∧ code = 0x40 ∧ plan = State.planFactor) →
    s.running = true → s.isFenced (streamUnitId h u) = false → (s.sunit h u).cur = none → s.hostClear →
    s.memQueue h u = some (x, v, c) → s.memFenced c = false → fld c.img 0 0 8 = code →
    firstBad c.img.toNat (if code = 1 then dmaChecks c.src c.img else suChecks c.src c.img) = none →
    plan s c = (s1, q) →
    completes i s fun t => (t.sunit h u).cur = some (q.run c)) ∧
  (∀ (h : Fin 16) (u : Fin 4) (r : MemRun) (s : State),
    (s.sunit h u).cur = some r → s.running = true → s.isFenced (streamUnitId h u) = false → r.unacked = 0 →
    s.canDeliverMem r.cmd.src = true → s.outputsHeld (some r.cmd.part) r.writes = false → s.hostClear →
    completes (.memoryCommandComplete h u true) s fun t => (t.sunit h u).cur = none) ∧
  (∀ (h : Fin 16) (u : Fin 4) (r : MemRun) (s : State),
    (s.sunit h u).cur = some r → s.running = true → s.isFenced (streamUnitId h u) = false → r.unacked = 0 →
    s.canDeliverMem r.cmd.src = true → s.outputsHeld (some r.cmd.part) r.writes = false →
    completes (.memoryCommandComplete h u false) s fun t =>
      s.recorded t (streamUnitId h u) clsResidue ∧ t.isFenced (streamUnitId h u) = true ∧ (t.sunit h u).cur = none) ∧
  (∀ (h : Fin 16) (u : Fin 4) (r : MemRun) (s : State),
    (s.sunit h u).cur = some r → s.running = true → s.isFenced (streamUnitId h u) = false →
    s.canDeliverMem r.cmd.src = true →
    completes (.dmaTimeout h u) s fun t => s.recorded t (streamUnitId h u) clsTimeout ∧ (t.sunit h u).cur = none)

/-- For a running core whose pc names an instruction in its private SRAM: register-register arithmetic writes rd and moves pc by
4, ADDI adds its immediate, LD and SD reach private SRAM, JAL and taken and untaken BEQ set pc, a compressed C.ADDI moves pc
by 2, ECALL takes an exception with mepc, mcause and pc written, MRET returns to mepc; every other register, every other
core and everything outside the atoll stays. In lockstep mode a mismatch records LOCKSTEP_MISMATCH, fences the pair and the
site and writes no register. The base instruction set is RISC-V's (assumption 10). -/
def Obligations.ScalarCores : Prop :=
  (∀ (g : Fin 320) (core : Fin 2) (i f7 f3 rd rs1 rs2 : Nat) (f : DWord → DWord → DWord) (s : State),
    let k := (s.atoll g).core core
    s.coreRuns g core = true → k.pc.toNat % 2 = 0 → k.pc.toNat + 4 ≤ 0x10000 → k.instrLen = 4 →
    rd < 32 → rs1 < 32 → rs2 < 32 → i = rvR f7 rs2 rs1 f3 rd 0x33 → Mem.readNat k.sram k.pc.toNat 4 = i →
    (f7 = 0 ∧ f3 = 0 ∧ f = fun a b => a + b) ∨ (f7 = 0x20 ∧ f3 = 0 ∧ f = fun a b => a - b) ∨
      (f7 = 0 ∧ f3 = 4 ∧ f = fun a b => a ^^^ b) ∨ (f7 = 0 ∧ f3 = 6 ∧ f = fun a b => a ||| b) ∨
      (f7 = 0 ∧ f3 = 7 ∧ f = fun a b => a &&& b) ∨ (f7 = 0 ∧ f3 = 3 ∧ f = fun a b => if a.toNat < b.toNat then 1 else 0) ∨
      (f7 = 1 ∧ f3 = 0 ∧ f = fun a b => a * b) ∨
      (f7 = 1 ∧ f3 = 7 ∧ f = fun a b => if b = 0 then a else BitVec.ofNat 64 (a.toNat % b.toNat)) →
    completes (.scalarInstruction g core .pass .clean) s fun t =>
      s.onlyCore t g core ∧ ((t.atoll g).core core).pc = k.pc + 4 ∧
      (rd ≠ 0 → ((t.atoll g).core core).reg rd = f (k.reg rs1) (k.reg rs2)) ∧
      (∀ r, r ≠ rd → ((t.atoll g).core core).reg r = k.reg r) ∧ ((t.atoll g).core core).sram = k.sram) ∧
  (∀ (g : Fin 320) (core : Fin 2) (imm : Int) (rd rs1 : Nat) (s : State),
    let k := (s.atoll g).core core
    s.coreRuns g core = true → k.pc.toNat % 2 = 0 → k.pc.toNat + 4 ≤ 0x10000 → k.instrLen = 4 →
    rd < 32 → rs1 < 32 → -2048 ≤ imm → imm < 2048 → Mem.readNat k.sram k.pc.toNat 4 = rvI imm rs1 0 rd 0x13 →
    completes (.scalarInstruction g core .pass .clean) s fun t =>
      s.onlyCore t g core ∧ ((t.atoll g).core core).pc = k.pc + 4 ∧
      (rd ≠ 0 → ((t.atoll g).core core).reg rd = k.reg rs1 + BitVec.ofInt 64 imm) ∧
      (∀ r, r ≠ rd → ((t.atoll g).core core).reg r = k.reg r)) ∧
  (∀ (g : Fin 320) (core : Fin 2) (rd rs1 : Nat) (s : State),
    let k := (s.atoll g).core core
    s.coreRuns g core = true → k.pc.toNat % 2 = 0 → k.pc.toNat + 4 ≤ 0x10000 → k.instrLen = 4 →
    rd < 32 → rs1 < 32 → (k.reg rs1).toNat + 8 ≤ 0x10000 → Mem.readNat k.sram k.pc.toNat 4 = rvI 0 rs1 3 rd 0x03 →
    completes (.scalarInstruction g core .pass .clean) s fun t =>
      s.onlyCore t g core ∧ ((t.atoll g).core core).pc = k.pc + 4 ∧
      (rd ≠ 0 → ((t.atoll g).core core).reg rd = BitVec.ofNat 64 (Mem.readNat k.sram (k.reg rs1).toNat 8)) ∧
      (∀ r, r ≠ rd → ((t.atoll g).core core).reg r = k.reg r) ∧ ((t.atoll g).core core).sram = k.sram) ∧
  (∀ (g : Fin 320) (core : Fin 2) (rs1 rs2 : Nat) (s : State),
    let k := (s.atoll g).core core
    s.coreRuns g core = true → k.pc.toNat % 2 = 0 → k.pc.toNat + 4 ≤ 0x10000 → k.instrLen = 4 → Memory.wf k.sram →
    rs1 < 32 → rs2 < 32 → (k.reg rs1).toNat + 8 ≤ 0x10000 → Mem.readNat k.sram k.pc.toNat 4 = rvS 0 rs2 rs1 3 →
    completes (.scalarInstruction g core .pass .clean) s fun t =>
      s.onlyCore t g core ∧ ((t.atoll g).core core).pc = k.pc + 4 ∧
      (∀ r, ((t.atoll g).core core).reg r = k.reg r) ∧
      Mem.readNat ((t.atoll g).core core).sram (k.reg rs1).toNat 8 = (k.reg rs2).toNat ∧
      (∀ a, a < (k.reg rs1).toNat ∨ (k.reg rs1).toNat + 8 ≤ a → Mem.read ((t.atoll g).core core).sram a = Mem.read k.sram a)) ∧
  (∀ (g : Fin 320) (core : Fin 2) (off rd rs1 rs2 : Nat) (s : State),
    let k := (s.atoll g).core core
    s.coreRuns g core = true → k.pc.toNat % 2 = 0 → k.pc.toNat + 4 ≤ 0x10000 → k.instrLen = 4 →
    rd < 32 → rs1 < 32 → rs2 < 32 → off < 2048 → off % 2 = 0 →
    Mem.readNat k.sram k.pc.toNat 4 = rvJ off rd ∨
      Mem.readNat k.sram k.pc.toNat 4 = rvB off rs1 0 + rs2 * 2 ^ 20 →
    completes (.scalarInstruction g core .pass .clean) s fun t =>
      s.onlyCore t g core ∧
      (Mem.readNat k.sram k.pc.toNat 4 = rvJ off rd →
        ((t.atoll g).core core).pc = k.pc + BitVec.ofNat 64 off ∧
        (rd ≠ 0 → ((t.atoll g).core core).reg rd = k.pc + 4)) ∧
      (Mem.readNat k.sram k.pc.toNat 4 = rvB off rs1 0 + rs2 * 2 ^ 20 →
        ((t.atoll g).core core).pc = (if k.reg rs1 = k.reg rs2 then k.pc + BitVec.ofNat 64 off else k.pc + 4) ∧
        ∀ r, ((t.atoll g).core core).reg r = k.reg r)) ∧
  (∀ (g : Fin 320) (core : Fin 2) (imm rd : Nat) (s : State),
    let k := (s.atoll g).core core
    s.coreRuns g core = true → k.pc.toNat % 2 = 0 → k.pc.toNat + 2 ≤ 0x10000 → k.instrLen = 2 → rd < 32 → 0 < rd → imm < 32 →
    Mem.readNat k.sram k.pc.toNat 2 = rd * 2 ^ 7 + imm * 2 ^ 2 + 1 →
    completes (.scalarInstruction g core .pass .clean) s fun t =>
      s.onlyCore t g core ∧ ((t.atoll g).core core).pc = k.pc + 2 ∧
      ((t.atoll g).core core).reg rd = k.reg rd + BitVec.ofNat 64 imm ∧
      (∀ r, r ≠ rd → ((t.atoll g).core core).reg r = k.reg r)) ∧
  (∀ (g : Fin 320) (core : Fin 2) (s : State),
    let k := (s.atoll g).core core
    s.coreRuns g core = true → k.pc.toNat % 2 = 0 → k.pc.toNat + 4 ≤ 0x10000 → k.instrLen = 4 →
    Mem.readNat k.sram k.pc.toNat 4 = 0x73 →
    completes (.scalarInstruction g core .pass .clean) s fun t =>
      s.onlyCore t g core ∧ Tbl.getD ((t.atoll g).core core).csr 0x341 0 = k.pc ∧
      Tbl.getD ((t.atoll g).core core).csr 0x342 0 = 11 ∧
      ((t.atoll g).core core).pc = BitVec.ofNat 64 ((Tbl.getD k.csr 0x305 0).toNat / 4 * 4) ∧
      (∀ r, ((t.atoll g).core core).reg r = k.reg r)) ∧
  (∀ (g : Fin 320) (core : Fin 2) (s : State),
    let k := (s.atoll g).core core
    s.coreRuns g core = true → k.pc.toNat % 2 = 0 → k.pc.toNat + 4 ≤ 0x10000 → k.instrLen = 4 →
    Mem.readNat k.sram k.pc.toNat 4 = 0x30200073 →
    completes (.scalarInstruction g core .pass .clean) s fun t =>
      s.onlyCore t g core ∧ ((t.atoll g).core core).pc = Tbl.getD k.csr 0x341 0 ∧
      (∀ r, ((t.atoll g).core core).reg r = k.reg r)) ∧
  (∀ (g : Fin 320) (core : Fin 2) (point : Fin 6) (v0 v1 : DWord) (dec : Decoded) (s : State),
    let k := (s.atoll g).core core
    s.coreRuns g core = true → k.pc.toNat % 2 = 0 → k.pc.toNat + 4 ≤ 0x10000 → (s.atoll g).split = false →
    completes (.scalarInstruction g core (.mismatch point v0 v1) dec) s fun t =>
      s.recorded t (s.coreUnit g core) clsLockstep ∧ t.isFenced (s.coreUnit g core) = true ∧
      t.isFenced (siteUnit g) = true ∧ ((t.atoll g).core core).running = false ∧
      ∀ r, ((t.atoll g).core core).reg r = k.reg r)

/-- A custom-0 word that is no encoding of Table 3-15, and every custom-1, custom-2 and custom-3 word, raises an illegal-
instruction exception of the core: mcause is 2, mepc the pc, mtval the word, and no register of the core changes. Rule: "An
unlisted custom-0 encoding or any custom-1 to custom-3 encoding raises an illegal-instruction exception." -/
def Obligations.UnlistedCustomTraps : Prop :=
  ∀ (g : Fin 320) (core : Fin 2) (s : State),
    let k := (s.atoll g).core core
    let i := Mem.readNat k.sram k.pc.toNat 4
    s.coreRuns g core = true → k.pc.toNat % 2 = 0 → k.pc.toNat + 4 ≤ 0x10000 → k.instrLen = 4 →
    (bits i 0 7 = 0x0B ∧ customOk i = false) ∨ bits i 0 7 = 0x2B ∨ bits i 0 7 = 0x5B ∨ bits i 0 7 = 0x7B →
    completes (.scalarInstruction g core .pass .clean) s fun t =>
      s.onlyCore t g core ∧ Tbl.getD ((t.atoll g).core core).csr 0x341 0 = k.pc ∧
      Tbl.getD ((t.atoll g).core core).csr 0x342 0 = 2 ∧
      Tbl.getD ((t.atoll g).core core).csr 0x343 0 = BitVec.ofNat 64 i ∧
      (∀ r, ((t.atoll g).core core).reg r = k.reg r)

/-- SYNC.WAIT on an object of the own atoll whose count has reached the target returns 0 and changes nothing else; one not yet
reached blocks the core and adds one waiter. SYNC.WAITANY returns the lowest index whose target is met. SYNC.SIGNAL adds
bits 15:0 of rs2 to the count, saturating, and SYNC.ARM sets it, with no waiter concerned. SYNC.SIGNAL of an object with a
waiter whose target is then met writes 0 to the waiter's rd. SYNC_WAIT_TIMEOUT returns -7 with one TIMEOUT record. -/
def Obligations.Synchronisation : Prop :=
  (∀ (g : Fin 320) (core : Fin 2) (rd rs1 rs2 : Fin 32) (s : State),
    let k := (s.atoll g).core core
    s.coreRuns g core = true → objNameOk (k.reg rs1) = true → objScope (k.reg rs1) = 0 →
    bits (k.reg rs2).toNat 0 32 ≤ ((s.atoll g).obj (objNumber (k.reg rs1))).toNat →
    completes (.syncWait g core rd rs1 rs2) s fun t =>
      s.onlyCore t g core ∧ (rd ≠ 0 → ((t.atoll g).core core).reg rd = 0) ∧ ((t.atoll g).core core).pc = k.pc + 4 ∧
      (∀ r, r ≠ rd.val → ((t.atoll g).core core).reg r = k.reg r)) ∧
  (∀ (g : Fin 320) (core : Fin 2) (rd rs1 rs2 : Fin 32) (s : State),
    let k := (s.atoll g).core core
    s.coreRuns g core = true → objNameOk (k.reg rs1) = true → objScope (k.reg rs1) = 0 → s.mem.modWaits.length ≤ 1024 →
    ((s.atoll g).obj (objNumber (k.reg rs1))).toNat < bits (k.reg rs2).toNat 0 32 →
    completes (.syncWait g core rd rs1 rs2) s fun t =>
      s.onlyAtoll t g ∧ ((t.atoll g).core core).pc = k.pc ∧
      ((t.atoll g).core core).block = .wait rd [(k.reg rs1, (k.reg rs2).setWidth 32)] false s.count ∧
      (t.atoll g).waits = (s.atoll g).waits ++
        [{ obj := objNumber (k.reg rs1), target := (k.reg rs2).setWidth 32, who := .core g core 0 }]) ∧
  (∀ (g : Fin 320) (core : Fin 2) (rd rs1 rs2 : Fin 32) (m : Nat) (s : State),
    let k := (s.atoll g).core core
    let nm (i : Nat) : DWord := BitVec.ofNat 64 (Mem.readNat k.sram ((k.reg rs1).toNat + 16 * i) 8)
    let tg (i : Nat) : Nat := Mem.readNat k.sram ((k.reg rs1).toNat + 16 * i + 8) 4
    s.coreRuns g core = true → 0 < (k.reg rs2).toNat → (k.reg rs2).toNat ≤ 8 →
    (k.reg rs1).toNat + 16 * (k.reg rs2).toNat ≤ 0x10000 → m < (k.reg rs2).toNat →
    (∀ i, i < (k.reg rs2).toNat → objNameOk (nm i) = true ∧ objScope (nm i) = 0 ∧
      Mem.readNat k.sram ((k.reg rs1).toNat + 16 * i + 12) 4 = 0) →
    tg m ≤ ((s.atoll g).obj (objNumber (nm m))).toNat →
    (∀ i, i < m → ((s.atoll g).obj (objNumber (nm i))).toNat < tg i) →
    completes (.syncWaitany g core rd rs1 rs2) s fun t =>
      s.onlyCore t g core ∧ (rd ≠ 0 → ((t.atoll g).core core).reg rd = BitVec.ofNat 64 m)) ∧
  (∀ (g : Fin 320) (core : Fin 2) (rs1 rs2 : Fin 32) (s : State),
    let k := (s.atoll g).core core
    s.coreRuns g core = true → objNameOk (k.reg rs1) = true → objScope (k.reg rs1) = 0 →
    (∀ w ∈ (s.atoll g).waits, w.obj ≠ objNumber (k.reg rs1)) →
    completes (.syncSignal g core rs1 rs2) s fun t =>
      s.onlyAtoll t g ∧ ((t.atoll g).core core).pc = k.pc + 4 ∧
      ((t.atoll g).obj (objNumber (k.reg rs1))).toNat =
        min 0xFFFFFFFF (((s.atoll g).obj (objNumber (k.reg rs1))).toNat + bits (k.reg rs2).toNat 0 16) ∧
      (∀ o, o ≠ objNumber (k.reg rs1) → (t.atoll g).obj o = (s.atoll g).obj o)) ∧
  (∀ (g : Fin 320) (core c : Fin 2) (rs1 rs2 : Fin 32) (rd : Nat) (nm : DWord) (tgt : Word) (since : DWord) (s : State),
    let k := (s.atoll g).core core
    s.coreRuns g core = true → k.reg rs1 = nm → objNameOk nm = true → objScope nm = 0 → c ≠ core → rd ≠ 0 →
    ((s.atoll g).core c).block = .wait rd [(nm, tgt)] false since →
    (s.atoll g).waits = [{ obj := objNumber nm, target := tgt, who := .core g c 0 }] →
    tgt.toNat ≤ min 0xFFFFFFFF (((s.atoll g).obj (objNumber nm)).toNat + bits (k.reg rs2).toNat 0 16) →
    completes (.syncSignal g core rs1 rs2) s fun t =>
      ((t.atoll g).core c).reg rd = 0 ∧ ((t.atoll g).core c).block = .none ∧ (t.atoll g).waits = []) ∧
  (∀ (g : Fin 320) (core : Fin 2) (rs1 rs2 : Fin 32) (s : State),
    let k := (s.atoll g).core core
    s.coreRuns g core = true → objNameOk (k.reg rs1) = true → objScope (k.reg rs1) = 0 →
    (∀ w ∈ (s.atoll g).waits, w.obj ≠ objNumber (k.reg rs1)) →
    completes (.syncArm g core rs1 rs2) s fun t =>
      s.onlyAtoll t g ∧ (t.atoll g).obj (objNumber (k.reg rs1)) = (k.reg rs2).setWidth 32 ∧
      (∀ o, o ≠ objNumber (k.reg rs1) → (t.atoll g).obj o = (s.atoll g).obj o)) ∧
  (∀ (g : Fin 320) (core : Fin 2) (rd : Nat) (objs : List (DWord × Word)) (any : Bool) (since : DWord) (s : State),
    ((s.atoll g).core core).block = .wait rd objs any since → s.unitRuns g = true →
    completes (.syncWaitTimeout g core) s fun t =>
      s.recorded t (s.coreUnit g core) clsTimeout ∧ (rd ≠ 0 → ((t.atoll g).core core).reg rd = negStatus 7) ∧
      ((t.atoll g).core core).block = .none)

/-- REGISTER_WRITE to an atoll register, a core CSR, a shoal, isle, strait or collector register, or BAR0 completes: rw fields
take the value, a read-only register keeps its value, and nothing outside the register's owner changes. A register name that
no table of the die lists faults noSuchPart (assumption 13). -/
def Obligations.RegisterWrites : Prop :=
  (∀ (g : Fin 320) (off : Nat) (v : DWord) (s : State), s.clocked = true → (s.atollReg g off).isSome = true →
    completes (.registerWrite (.atoll g off) v) s fun t =>
      s.onlyAtoll t g ∧ (t.atoll g).lagoon = (s.atoll g).lagoon ∧ (t.atoll g).cores = (s.atoll g).cores ∧
      (off = 0x008 → (t.atoll g).assigned = v.getLsbD 8 ∧ (t.atoll g).partition.toNat = bits v.toNat 0 5) ∧
      (off = 0x020 → (t.atoll g).cacheBase.toNat = bits v.toNat 12 28 * 4096) ∧
      (off = 0x028 → (t.atoll g).split = v.getLsbD 0) ∧
      (off = 0x0C0 → (t.atoll g).epochDiscard.toNat = bits v.toNat 0 32) ∧
      (off = 0x000 ∨ off = 0x010 ∨ off = 0x018 ∨ off = 0x080 ∨ off = 0x0D8 ∨ off = 0x100 → t.atoll g = s.atoll g)) ∧
  (∀ (g : Fin 320) (core : Fin 2) (v : DWord) (s : State), s.unitRuns g = true →
    completes (.registerWrite (.csr g core 0x7C0) v) s fun t =>
      s.onlyCore t g core ∧ ((t.atoll g).core core).sel = v.setWidth 4) ∧
  (∀ (g : Fin 320) (core : Fin 2) (v : DWord) (s : State), s.unitRuns g = true →
    completes (.registerWrite (.csr g core 0x7C3) v) s fun t =>
      s.onlyCore t g core ∧ ((t.atoll g).core core).mask = v.getLsbD 0) ∧
  (∀ (h : Fin 16) (off : Nat) (v : DWord) (s : State), s.clocked = true → (s.shoalReg h off).isSome = true →
    completes (.registerWrite (.shoal h off) v) s fun t =>
      t = { s with mem := { s.mem with shoals := t.mem.shoals } } ∧ (∀ x, x ≠ h.val → t.shoal x = s.shoal x) ∧
      (off = 0x048 → (t.shoal h).corrected.toNat = bits v.toNat 0 32) ∧
      (off = 0x050 → (t.shoal h).uncorrectable.toNat = bits v.toNat 0 32) ∧
      (off ≤ 0x040 → t.shoal h = s.shoal h)) ∧
  (∀ (d : Fin 8) (v : DWord) (s : State), s.clocked = true →
    completes (.registerWrite (.isle d 0x110) v) s fun t =>
      t = { s with net := { s.net with isleRetry := t.net.isleRetry } } ∧
      (Tbl.getD t.net.isleRetry d 0).toNat = bits v.toNat 0 32) ∧
  (∀ (x : Fin 6) (l : Fin 16) (v : DWord) (s : State), s.clocked = true →
    completes (.registerWrite (.strait x (0x090 + 8 * l)) v) s fun t =>
      (t.link (16 * x + l)).enable = v.getLsbD 0 ∧ (t.link (16 * x + l)).dateline = v.getLsbD 4 ∧
      (t.link (16 * x + l)).group = bits v.toNat 5 3 ∧
      (∀ y, y ≠ 16 * x.val + l.val → t.link y = s.link y)) ∧
  (∀ (x : Fin 6) (v : DWord) (s : State), s.clocked = true →
    completes (.registerWrite (.strait x 0x150) v) s fun t =>
      (t.strait x).syncDrop.toNat = bits v.toNat 0 32 ∧ (∀ y, y ≠ x.val → t.strait y = s.strait y) ∧ t.atolls = s.atolls) ∧
  (∀ (node : Fin 32) (v : DWord) (s : State), s.clocked = true →
    completes (.registerWrite (.collector node 0x208) v) s fun t =>
      t.collector node = { s.collector node with overflow := v.setWidth 32 } ∧
      (∀ n, n ≠ node.val → t.collector n = s.collector n)) ∧
  (∀ (v : DWord) (s : State), s.bar0Open = true →
    completes (.registerWrite (.bar0 0x028 .lo) v) s fun t =>
      t = { s with host := t.host } ∧ t.host.biTimeouts.toNat = bits v.toNat 0 32) ∧
  (∀ (off : Nat) (h : RegHalf) (v : DWord) (s : State), off < 0x028 ∨ 0x52000 ≤ off →
    completes (.registerWrite (.bar0 off h) v) s fun t => t = s) ∧
  (∀ (g : Fin 320) (off : Nat) (v : DWord) (s : State), s.atollReg g off = none →
    exec (.registerWrite (.atoll g off) v) s = .fault .noSuchPart)

/-- A good codeword with the expected number is accepted; one with another number or uncorrectable starts a counted retry.
REPLAY_TIMEOUT sends every unacknowledged codeword again. LINK_RETRY_LIMIT and LANE_SIGNAL_LOSS retrain one lane of a
width-2 link and record LINK_RETRAIN, LINK_CREDIT_TIMEOUT retrains both and gives the waiting packets back.
LANE_RETRAIN_DONE returns the lane, or fences it with LINK_NARROW. LINK_TRAINING brings a link up at the width its lanes
give. LINK_CONTROL_SEND spends VC 3 allowance and sends; LINK_CONTROL takes over the peer's state. -/
def Obligations.FabricLinks : Prop :=
  (∀ (l : Fin 96) (cw : Codeword) (n : Nat) (s : State),
    (s.link l).alive = true → s.life.frozen = false → cw.fec = .good n → n ≤ 13 →
    bits cw.ctrl.toNat 12 8 = (s.link l).rxNext →
    completes (.codewordReceive l cw) s fun t =>
      (t.link l).rxNext = ((s.link l).rxNext + 1) % 256 ∧ (t.link l).seeking = false ∧ t.atolls = s.atolls ∧ t.mem = s.mem) ∧
  (∀ (l : Fin 96) (cw : Codeword) (s : State),
    (s.link l).alive = true → s.life.frozen = false → (s.link l).seeking = false →
    cw.fec = .uncorrectable ∨ bits cw.ctrl.toNat 12 8 ≠ (s.link l).rxNext ∧ cw.fec = .good 0 →
    completes (.codewordReceive l cw) s fun t =>
      (t.link l).rxNext = (s.link l).rxNext ∧ (t.link l).seeking = true ∧
      (t.strait (l / 16)).retry = satAdd32 (s.strait (l / 16)).retry 1 ∧
      (t.strait (l / 16)).arrivals = (s.strait (l / 16)).arrivals) ∧
  (∀ (l : Fin 96) (s : State),
    (s.link l).alive = true → s.life.frozen = false → (s.link l).replay ≠ [] →
    completes (.replayTimeout l) s fun t =>
      (t.fab.sent.map fun w => (w.1, w.2.2)) = (s.fab.sent.map fun w => (w.1, w.2.2)) ++
        (s.link l).replay.map (fun c => (l.val, c.body)) ∧
      (t.link l).replay = (s.link l).replay ∧ (t.strait (l / 16)).retry = satAdd32 (s.strait (l / 16)).retry 1) ∧
  (∀ (l : Fin 96) (lane : Fin 2) (s : State),
    (s.link l).state = 2 → (s.link l).retraining = 0 → (s.link l).fencedLanes = 0 → s.life.frozen = false →
    s.param 0x0808 ≤ (s.retriesIn l 100000).length →
    lane.val = (if ((s.retriesIn l 100000).countP fun e => e.2 == 1) > ((s.retriesIn l 100000).countP fun e => e.2 == 0)
      then 1 else 0) →
    completes (.linkRetryLimit l) s fun t =>
      (t.link l).retraining = BitVec.ofNat 2 (2 ^ lane.val) ∧ (t.link l).state = 7 + lane.val ∧
      s.recorded t (linkUnit l lane) clsRetrain) ∧
  (∀ (l : Fin 96) (s : State),
    (s.link l).carries = true → ((s.link l).waiting.any fun p => decide ((s.link l).left p.out.code < p.out.units)) = true →
    s.life.frozen = false →
    completes (.linkCreditTimeout l) s fun t =>
      (t.link l).state = 1 ∧ (t.link l).replay = [] ∧
      (∀ p ∈ (t.link l).waiting, p.pkt.mcast = true ∨ p.pkt.kind = 7) ∧
      (t.strait (l / 16)).arrivals.length + (t.link l).waiting.length = (s.strait (l / 16)).arrivals.length +
        ((((s.link l).replay.filterMap fun c => c.pkt) ++ (s.link l).waiting).filter fun p => p.pkt.kind != 15).length) ∧
  (∀ (l : Fin 96) (lane : Fin 2) (s : State),
    (s.link l).state = 2 → (s.link l).retraining = 0 → (s.link l).fencedLanes = 0 →
    completes (.laneSignalLoss l lane) s fun t =>
      (t.link l).retraining = BitVec.ofNat 2 (2 ^ lane.val) ∧ (t.link l).state = 7 + lane.val ∧
      s.recorded t (linkUnit l lane) clsRetrain) ∧
  (∀ (l : Fin 96) (lane : Fin 2) (s : State),
    (s.link l).retraining = BitVec.ofNat 2 (2 ^ lane.val) → (s.link l).fencedLanes = 0 → (s.link l).enable = true →
    (s.link l).peerFormat = some s.cells →
    completes (.laneRetrainDone l lane true) s (fun t =>
      (t.link l).retraining = 0 ∧ (t.link l).state = 2 ∧ (t.link l).fencedLanes = 0 ∧ t.flt = s.flt) ∧
    completes (.laneRetrainDone l lane false) s (fun t =>
      (t.link l).retraining = 0 ∧ (t.link l).state = 4 - lane.val ∧ (t.link l).fencedLanes = BitVec.ofNat 2 (2 ^ lane.val) ∧
      s.recorded t (linkUnit l lane) clsNarrow)) ∧
  (∀ (l : Fin 96) (lane0 lane1 : Bool) (s : State),
    s.life.powered = true → (s.link l).state ≤ 1 → (s.link l).enable = true →
    completes (.linkTraining l lane0 lane1) s fun t =>
      (t.link l).state = (match lane0, lane1 with | true, true => 2 | true, false => 3 | false, true => 4 | false, false => 0) ∧
      (t.link l).retraining = 0 ∧ ∀ x, x ≠ l.val → t.link x = s.link x) ∧
  (∀ (l : Fin 96) (s : State),
    (s.link l).alive = true → s.life.frozen = false → (s.link l).replay.length < 255 →
    (s.controlPacket l).units ≤ (s.link l).left 7 →
    completes (.linkControlSend l) s fun t =>
      s.fab.sent.length < t.fab.sent.length ∧ (t.link l).left 7 = (s.link l).left 7 - (s.controlPacket l).units) ∧
  (∀ (l : Fin 96) (fwd idv fmt : Bool) (id link : Nat) (b : List Byte) (rest : List (List Byte)) (s : State),
    (s.link l).controlIn = b :: rest → leNat (b.take 8) = msgHeader 0 16 0 false false none → id < 8192 → link < 128 →
    leNat ((b.drop 8).take 16) = b2n fwd + 2 * b2n idv + 4 * b2n fmt + id * 2 ^ 16 + link * 2 ^ 32 →
    completes (.linkControl l) s fun t =>
      (t.link l).controlIn = rest ∧ (t.link l).peerFwd = fwd ∧ (t.link l).peerIdValid = idv ∧
      (t.link l).peerFormat = some fmt ∧ (t.link l).peerModule = (if idv then id else 0) ∧ (t.link l).peerLink = link)

/-- FABRIC_PACKET_ARRIVAL delivers an ACK frame to its interface, puts a packet for another module on its first usable link,
counts one without a route and drops one at the hop limit. REASSEMBLY_TIMEOUT discards the oldest incomplete message and
counts it; MCAST_BRANCH_TIMEOUT counts a dropped branch. ACK and MCAST_CLOSE take an acknowledged message off the list;
FABRIC_ACK_TIMEOUT counts a try, or records TIMEOUT. REMOTE_WRITE_ARRIVAL writes into an open window and counts a drop at a
closed one; SYNC_SIGNAL_ARRIVAL adds to the object. TELEMETRY_SAMPLE stores one record. -/
def Obligations.FabricMessages : Prop :=
  (∀ (d : Fin 6) (a : Arrived) (rest : List Arrived) (s : State),
    (s.strait d).arrivals = a :: rest → s.life.powered = true → s.forwards = true → s.ownId = some a.pkt.dest →
    a.pkt.kind = 1 → a.pkt.bad s.cells = false → a.pkt.mcast = false → (a.link.isSome = true → a.pkt.hops ≠ s.param 0x0805) →
    bits (leNat (a.pkt.data.take 8)) 9 12 = 15 → a.pkt.data.length = 24 ∨ a.pkt.data.length = 56 →
    msgBad 1 ((a.pkt.data.drop 8).take 16) = false →
    completes (.fabricPacketArrival d) s fun t =>
      (t.strait d).arrivals = rest ∧
      ∃ m, (t.strait (a.pkt.dend % 6)).ackIn = (s.strait (a.pkt.dend % 6)).ackIn ++ [m] ∧
        m.payload = (a.pkt.data.drop 8).take 16 ∧ m.src = a.pkt.src) ∧
  (∀ (d : Fin 6) (a : Arrived) (rest : List Arrived) (l : Nat) (ls : List Nat) (s : State),
    (s.strait d).arrivals = a :: rest → s.life.powered = true → s.forwards = true → s.ownId ≠ some a.pkt.dest →
    a.pkt.bad s.cells = false → a.pkt.kind ≠ 7 → a.pkt.mcast = false →
    (a.link.isSome = true → a.pkt.hops ≠ s.param 0x0805) → bits (s.route a.pkt.dest) 24 2 = 0 →
    s.routeLinks (s.route a.pkt.dest) = l :: ls →
    completes (.fabricPacketArrival d) s fun t =>
      (t.strait d).arrivals = rest ∧
      ∃ p : OutPkt, p.pkt = a.pkt ∧ p.src = a.link ∧
        (p ∈ (t.link l).waiting ∨ ∃ c ∈ (t.link l).replay, c.pkt = some p)) ∧
  (∀ (d : Fin 6) (a : Arrived) (rest : List Arrived) (s : State),
    (s.strait d).arrivals = a :: rest → s.life.powered = true → s.forwards = true → s.ownId ≠ some a.pkt.dest →
    a.pkt.bad s.cells = false → a.pkt.kind ≠ 7 → a.pkt.mcast = false → bits (s.route a.pkt.dest) 24 1 = 0 →
    completes (.fabricPacketArrival d) s fun t =>
      (t.strait d).arrivals = rest ∧
      (a.link.isSome = true → a.pkt.hops = s.param 0x0805 →
        (t.strait d).hopDrop = satAdd32 (s.strait d).hopDrop 1 ∧ (t.strait d).noRoute = (s.strait d).noRoute) ∧
      (a.link = none → s.routeLinks (s.route a.pkt.dest) = [] →
        (t.strait d).noRoute = satAdd32 (s.strait d).noRoute 1 ∧ (t.strait d).hopDrop = (s.strait d).hopDrop)) ∧
  (∀ (d : Fin 6) (r : Reasm) (rest : List Reasm) (s : State), (s.strait d).reasm = r :: rest →
    completes (.reassemblyTimeout d) s fun t =>
      (t.strait d).reasm = rest ∧ (t.strait d).badPacket = satAdd32 (s.strait d).badPacket 1) ∧
  (∀ (l : Fin 96) (s : State),
    ((s.link l).waiting.any fun p => p.out.mcast && decide ((s.link l).left p.out.code < p.out.units)) = true →
    completes (.mcastBranchTimeout l) s fun t =>
      (t.strait (l / 16)).mcastDrop = satAdd32 (s.strait (l / 16)).mcastDrop 1) ∧
  (∀ (d : Fin 6) (a : FMsg) (rest : List FMsg) (m : TxMsg) (s : State),
    (s.strait d).ackIn = a :: rest → s.life.powered = true → s.life.frozen = false → s.fab.waiting = [] →
    m ∈ s.fab.unacked → m.owner = .signal → m.mcast = false → m.copy = none → m.dest = a.src →
    m.seq = bits (leNat a.payload) 0 16 → m.vc = bits (leNat a.payload) 16 2 → bits (leNat a.payload) 40 1 = 0 →
    (∀ x ∈ s.fab.unacked, x.seq = m.seq → x.vc = m.vc → x.dest = m.dest → x = m) →
    completes (.ack d) s fun t =>
      (t.strait d).ackIn = rest ∧ t.fab.unacked = s.fab.unacked.erase m) ∧
  (∀ (d : Fin 6) (m : TxMsg) (us : List TxMsg) (s : State),
    s.fab.unacked = m :: us → m.mcast = false → m.copy = none → m.dest % 6 = d.val → s.life.powered = true →
    s.life.frozen = false → m.tries < s.param 0x0802 →
    completes (.fabricAckTimeout d) s fun t =>
      t.fab.unacked = us ++ [{ m with tries := m.tries + 1 }] ∧ (s.strait d).arrivals.length < (t.strait d).arrivals.length) ∧
  (∀ (d : Fin 6) (m : TxMsg) (us : List TxMsg) (s : State),
    s.fab.unacked = m :: us → m.mcast = false → m.copy = none → m.dest % 6 = d.val → s.life.powered = true →
    s.life.frozen = false → s.param 0x0802 ≤ m.tries → m.owner = .signal → s.fab.waiting = [] →
    completes (.fabricAckTimeout d) s fun t => t.fab.unacked = us ∧ s.recorded t (niUnit d) clsTimeout) ∧
  (∀ (d : Fin 6) (m : TxMsg) (us : List TxMsg) (s : State),
    s.fab.unacked = m :: us → m.mcast = true → m.srcEnd = d.val → s.life.powered = true → s.life.frozen = false →
    (∀ i, i < m.targets.length → i ∈ m.acked) → (∀ u ∈ us, u.copy ≠ some m.dest) → s.fab.waiting = [] →
    completes (.mcastClose d) s fun t =>
      t.fab.unacked = us ∧ t.fab.mcastDone = s.fab.mcastDone ++ [mcastRecord m 0]) ∧
  (∀ (d : Fin 6) (m : FMsg) (rest : List FMsg) (s : State),
    let w := leNat (m.payload.take 2)
    let off := leNat ((m.payload.drop 16).take 5)
    let data := m.payload.drop 32
    let a := (s.window w).base.toNat + off
    (s.strait d).remoteIn = m :: rest → s.running = true → (s.strait d).accepted = false → s.hostClear →
    (s.window w).open_ = true → ((s.part? (s.window w).partition).map Part.inReset) = some false →
    (s.window w).generation.toNat = leNat ((m.payload.drop 8).take 4) →
    (s.window w).jobTag.toNat = leNat ((m.payload.drop 12).take 4) → off + data.length ≤ (s.window w).size.toNat →
    0 < data.length → a % 128 + data.length ≤ 128 → s.place (some (s.window w).partition) a true = .ok (.dram a) →
    s.chan (s.dramChannel a) ≠ .unbacked → Memory.wf s.mem.dram →
    (∀ i, i < 2 → ∀ g o, s.place (some (s.window w).partition) (a + i * 128) true ≠ .ok (.lagoon g o)) →
    completes (.remoteWriteArrival d) s fun t =>
      (t.strait d).remoteIn = rest ∧
      (∀ i, (h : i < data.length) → Mem.read t.mem.dram (a + i) = data[i]) ∧
      (∀ b, b < a ∨ a + data.length ≤ b → Mem.read t.mem.dram b = Mem.read s.mem.dram b) ∧ t.atolls = s.atolls) ∧
  (∀ (d : Fin 6) (m : FMsg) (rest : List FMsg) (s : State),
    let w := leNat (m.payload.take 2)
    (s.strait d).remoteIn = m :: rest → s.running = true → (s.strait d).accepted = false → (s.window w).open_ = false →
    completes (.remoteWriteArrival d) s fun t =>
      (t.strait d).remoteIn = rest ∧ (t.window w).dropCount = satAdd32 (s.window w).dropCount 1 ∧
      t.mem.dram = s.mem.dram ∧ t.atolls = s.atolls ∧
      ((s.window w).noted = false → s.recorded t (straitUnit d 0 0 0x3FF) clsWindow)) ∧
  (∀ (d : Fin 6) (m : FMsg) (rest : List FMsg) (p : Nat) (x : Part) (s : State),
    let o := bits (leNat m.payload) 0 13
    (s.strait d).syncIn = m :: rest → s.running = true → Tbl.get? s.mem.objOwner o = some p → s.part? p = some x →
    x.jobTag.toNat = bits (leNat m.payload) 32 32 → x.inReset = false → (∀ w ∈ s.mem.modWaits, w.obj ≠ o) →
    completes (.syncSignalArrival d) s fun t =>
      (t.strait d).syncIn = rest ∧
      (t.modObj o).toNat = min 0xFFFFFFFF ((s.modObj o).toNat + bits (leNat m.payload) 16 16) ∧
      ∀ k, k ≠ o → t.modObj k = s.modObj k) ∧
  (∀ (d : Fin 6) (port : Fin 18) (meas : PortSample) (s : State),
    s.life.powered = true → s.life.frozen = false → s.param 0x0806 = 0 →
    completes (.telemetrySample d port meas) s fun t =>
      (t.strait d).sample = ((s.strait d).sample + 1) % 65536 ∧ (t.strait d).head = ((s.strait d).head + 1) % 512 ∧
      ∃ r, (t.strait d).telemetry.getLast? = some r ∧ fld r 0 0 64 = s.count.toNat ∧ fld r 8 0 8 = d.val ∧
        fld r 10 0 16 = (s.strait d).sample % 65536) ∧
  (∀ (h : Fin 16) (u : Fin 4) (x v : Nat) (c : MemCmd) (s : State),
    s.running = true → s.isFenced (streamUnitId h u) = false → (s.sunit h u).cur = none → s.hostClear →
    s.memQueue h u = some (x, v, c) → s.memFenced c = false → fld c.img 0 0 8 = 2 →
    firstBad c.img.toNat (dmaChecks c.src c.img) = none →
    completes (.dmaRemoteWrite h u none) s fun t => ∃ r, (t.sunit h u).cur = some r ∧ r.cmd = c ∧
      (s.ownId = none → r.status = opUnreachable))

/-- MESH_PACKET injects at the source's router, ejects at the destination, moves a packet one column towards it first, and
counts a failed flit. LINK_RETRAIN starts a retraining with a LINK_RETRAIN record; LINK_RETRAIN_DONE ends it and fences a
crossing that failed. CAUSEWAY_MESSAGE delivers along the tables and discards a bad one; CAUSEWAY_ROUTE_REWRITE writes the
tables. OSC_FAILOVER switches a die with a TIMEOUT record; OSCILLATORS_LOST stops the module. MESH_CLOCK_STEP takes codes 0
to 3 and ignores the others; ARITHMETIC_STEP_CHANGE and ARITHMETIC_UNGATE act on a region and an atoll. -/
def Obligations.NetworkAndClocks : Prop :=
  (∀ (d : Fin 8) (x : Fin 10) (y : Fin 4) (dst : Nat) (cls : Fin 4) (payload : List Byte) (s : State),
    let r := d.val * 40 + y.val * 10 + x.val
    s.clocked = true → (s.region (d.val * 16 + 12)).powered = true → dst < 320 → payload.length ≤ 256 →
    s.routerQ r = [] →
    completes (.meshPacket d x y (.inject r dst cls payload)) s fun t =>
      t = { s with net := { s.net with routers := t.net.routers } } ∧
      (∃ p, t.routerQ r = s.routerQ r ++ [p] ∧ p.src = r ∧ p.dst = dst ∧ p.payload = payload ∧ p.since = s.count) ∧
      ∀ k, k ≠ r → t.routerQ k = s.routerQ k) ∧
  (∀ (d : Fin 8) (x : Fin 10) (y : Fin 4) (p : MPkt) (s : State),
    let r := d.val * 40 + y.val * 10 + x.val
    s.clocked = true → (s.region (d.val * 16 + 12)).powered = true → s.routerQ r = [p] → p.input < 6 → p.dst = r →
    completes (.meshPacket d x y .forward) s fun t =>
      t.routerQ r = [] ∧ Tbl.getD t.net.ejected r [] = Tbl.getD s.net.ejected r [] ++ [p] ∧ t.atolls = s.atolls) ∧
  (∀ (d : Fin 8) (x : Fin 10) (y : Fin 4) (p : MPkt) (s : State),
    let r := d.val * 40 + y.val * 10 + x.val
    s.clocked = true → (s.region (d.val * 16 + 12)).powered = true → s.routerQ r = [p] → p.input < 6 → p.dst / 40 = d.val →
    x.val < p.dst % 10 → s.flt.fenced = [] → s.net.linkFenced = [] → s.net.retraining = [] →
    s.routerQ (r + 1) = [] → p.payload.length ≤ 256 →
    completes (.meshPacket d x y .forward) s fun t =>
      t.routerQ r = [] ∧ t.routerQ (r + 1) = [{ p with input := 3 }] ∧ t.net.ejected = s.net.ejected) ∧
  (∀ (d : Fin 8) (x : Fin 10) (y : Fin 4) (p : MPkt) (h : MeshHop) (l : OnDieLink) (s : State),
    s.clocked = true → (s.region (d.val * 16 + 12)).powered = true → s.meshPick d x y = some (p, h) → hopLink d x y h = some l →
    completes (.meshPacket d x y .crcFail) s fun t =>
      t.net.routers = s.net.routers ∧ t.linkRetries l = s.linkRetries l + 1) ∧
  (∀ (l : OnDieLink) (s : State),
    s.clocked = true → l ∉ s.net.retraining → l ∉ s.net.linkFenced → s.isFenced (onDieUnit l) = false →
    completes (.linkRetrain l) s fun t =>
      t.net.retraining = s.net.retraining ++ [l] ∧ s.recorded t (onDieUnit l) clsRetrain) ∧
  (∀ (l : OnDieLink) (s : State), s.clocked = true → l ∈ s.net.retraining →
    completes (.linkRetrainDone l true) s fun t => l ∉ t.net.retraining ∧ t.flt = s.flt ∧ t.net.linkFenced = s.net.linkFenced) ∧
  (∀ (k : Fin 4) (die : Fin 16) (grp : Fin 7) (m : Fin 6) (s : State),
    s.clocked = true → OnDieLink.port k die grp m ∈ s.net.retraining →
    completes (.linkRetrainDone (.port k die grp m) false) s fun t =>
      OnDieLink.port k die grp m ∉ t.net.retraining ∧ t.isFenced (mkUnit k die 0 0 15 grp m) = true ∧
      s.recorded t (mkUnit k die 0 0 15 grp m) clsRetrain) ∧
  (∀ (node : Fin 32) (header : Word) (payload : List Word) (path : List Nat) (s : State),
    s.clocked = true → bits header.toNat 29 3 < 6 → payload.length = bits header.toNat 12 6 + 1 → bits header.toNat 28 1 = 0 →
    s.causePath 33 node (bits header.toNat 23 5) = some path →
    completes (.causewayMessage node header payload true) s fun t =>
      t = { s with net := { s.net with causeDelivered := t.net.causeDelivered } } ∧
      Tbl.getD t.net.causeDelivered (bits header.toNat 23 5) [] =
        Tbl.getD s.net.causeDelivered (bits header.toNat 23 5) [] ++ [{ header := header, payload := payload }]) ∧
  (∀ (node : Fin 32) (header : Word) (payload : List Word) (crcOk : Bool) (s : State),
    s.clocked = true → crcOk = false ∨ 6 ≤ bits header.toNat 29 3 →
    completes (.causewayMessage node header payload crcOk) s fun t =>
      t.net.causeDelivered = s.net.causeDelivered ∧ t.net.causeWaiting = s.net.causeWaiting) ∧
  (∀ (s : State), s.hubRuns = true → s.net.causeWaiting = [] →
    completes .causewayRouteRewrite s fun t => t = { s with net := { s.net with causeRoute := s.causeTables } }) ∧
  (∀ (node : Fin 32) (s : State), s.clocked = true → s.net.osc1 = true → node.val ∉ s.net.onOsc1 →
    completes (.oscFailover node) s fun t =>
      t.net.onOsc1 = s.net.onOsc1 ++ [node.val] ∧ t.net.switchAt = s.count ∧ s.recorded t (dieUnit node) clsTimeout) ∧
  (∀ (s : State), s.life.powered = true →
    completes .oscillatorsLost s fun t => t.ticks = false ∧ t.life.state = .stopped ∧ t.atolls = s.atolls ∧ t.mem = s.mem) ∧
  (∀ (d : Fin 8) (half : Fin 2) (step : BitVec 4) (s : State), s.clocked = true →
    completes (.meshClockStep d half step) s fun t =>
      (step.toNat < 4 → Tbl.getD t.net.meshStep (2 * d.val + half.val) 0 = step) ∧
      (4 ≤ step.toNat → t = s)) ∧
  (∀ (d : Fin 8) (r : Fin 10) (s : State),
    let key := d.val * 16 + r.val
    s.clocked = true → (s.region key).powered = true → s.stepNow key ≠ s.stepFor key → s.regionReconf key = false →
    completes (.arithmeticStepChange d r) s fun t =>
      Tbl.getD t.net.arith key 0 = s.stepFor key ∧ t.atolls = s.atolls ∧ t.flt = s.flt) ∧
  (∀ (g : Fin 320) (s : State), s.clocked = true →
    completes (.arithmeticUngate g) s fun t =>
      (g.val ∈ t.net.ungated ↔ ((s.positionOf g).isSome || (s.atoll g).suite) = true) ∧
      t = { s with net := { s.net with ungated := t.net.ungated } })

/-- The scrubbers leave clean words as they are and poison and record an uncorrectable DRAM word. BANK_POWER is answered or
drains its bank; BANK_DRAIN_DONE and BANK_DRAIN_TIMEOUT turn the bank off, its contents lost; BANK_OFF_REQUEST counts;
BANK_POWER_UP_DONE zeroes the bank and turns it on. WINDOW_OPEN opens and answers, WINDOW_CLOSE clears open and advances the
generation, WINDOW_CLOSE_COMPLETE completes it, WINDOW_QUERY answers with the entry. CHANNEL_RETIREMENT_START starts the
move, RETIREMENT_PAGE_MOVE moves one page, CHANNEL_RETIREMENT_DONE retires and fences the channel, CHANNEL_RETIRE is
accepted. -/
def Obligations.MemoryRows : Prop :=
  (∀ (ch : Fin 128) (word : Nat) (s : State),
    s.clocked = true → s.chan ch = .healthy → completes (.dramScrub ch word .clean) s fun t => t = s) ∧
  (∀ (ch : Fin 128) (word n a : Nat) (s : State),
    s.clocked = true → s.chan ch = .healthy → s.pageServed ch (word / 64) = some a → a % 4096 = 0 →
    s.dramChannel (a + word % 64 * 64) = ch.val → (a + word % 64 * 64) / 64 ∉ s.mem.dramPoison →
    completes (.dramScrub ch word (.uncorrectable n)) s fun t =>
      (a + word % 64 * 64) / 64 ∈ t.mem.dramPoison ∧ s.recorded t (chanUnit ch) clsUncorrectable ∧
      (t.shoal (ch.val / 8)).uncorrectable = satAdd32 (s.shoal (ch.val / 8)).uncorrectable 1 ∧
      ch.val ∈ t.mem.retireQueue) ∧
  (∀ (w : SramWord) (s : State), s.clocked = true →
    completes (.lagoonScrub w .clean) s (fun t => t = s) ∧ completes (.scrubForcedCycle w .clean) s (fun t => t = s)) ∧
  (∀ (g : Fin 320) (k n : Nat) (s : State), s.clocked = true → k < 786432 → (s.atoll g).poisoned (k * 32) 32 = false →
    completes (.lagoonScrub (.lagoon g k) (.uncorrectable n)) s (fun t => (t.atoll g).poisoned (k * 32) 32 = true) ∧
    completes (.scrubForcedCycle (.lagoon g k) (.uncorrectable n)) s (fun t => (t.atoll g).poisoned (k * 32) 32 = true)) ∧
  (∀ (m : Fin 34) (c : MbCmd) (s : State),
    s.mbFirst m 0x30E c → flag c.img 18 1 = false → ((s.part? (mbPartition c.img)).map fun x =>
      x.ownsBank (bankOf c).1 (bankOf c).2) = some true → s.bankInCat (bankOf c).2 = false → s.mbRoom m →
    flag c.img 18 0 = false → s.bank (bankOf c).1 (bankOf c).2 = .on →
    completes (.bankPower m) s fun t => t.mbTaken m c ∧ t.bank (bankOf c).1 (bankOf c).2 = .draining) ∧
  (∀ (h b : Fin 16) (s : State),
    s.clocked = true → s.bank h b = .draining → s.bankOpen h b = false →
    completes (.bankDrainDone h b) s fun t =>
      t.bank h b = .off ∧
      (∀ a, b.val * 0x400000 ≤ a → a < (b.val + 1) * 0x400000 → Mem.read (t.shoal h).staging a = 0) ∧
      (∀ a, a < b.val * 0x400000 ∨ (b.val + 1) * 0x400000 ≤ a → Memory.wf (s.shoal h).staging →
        Mem.read (t.shoal h).staging a = Mem.read (s.shoal h).staging a)) ∧
  (∀ (h b : Fin 16) (s : State),
    s.clocked = true → s.bank h b = .draining → s.bankOpen h b = true →
    completes (.bankDrainTimeout h b) s fun t =>
      t.bank h b = .off ∧ t.bankOpen h b = false ∧ s.recorded t (shoalUnit h 0 0 0x3FF) clsTimeout) ∧
  (∀ (h b : Fin 16) (s : State), s.clocked = true → s.bank h b = .off →
    completes (.bankOffRequest h b) s fun t =>
      (t.shoal h).late = satAdd32 (s.shoal h).late 1 ∧
      (b.val ∉ (s.shoal h).lateNoted → s.recorded t (shoalUnit h 0 0 0x3FF) clsBankOff) ∧
      (b.val ∈ (s.shoal h).lateNoted → t.flt = s.flt)) ∧
  (∀ (h b : Fin 16) (rest : List LedgerReq) (s : State),
    s.power.queue = .bank h b :: rest → s.clocked = true → s.bank h b = .off → (s.fits (.bank h b)).isSome = true →
    completes (.bankPowerUpDone h b) s fun t =>
      t.bank h b = .on ∧ t.power.queue = rest ∧
      (∀ a, b.val * 0x400000 ≤ a → a < (b.val + 1) * 0x400000 → Mem.read (t.shoal h).staging a = 0)) ∧
  (∀ (m : Fin 34) (c : MbCmd) (x : Part) (s : State),
    let w := fld c.img 16 0 16
    s.mbFirst m 0x309 c → s.part? (mbPartition c.img) = some x → w ≠ 0xFFFF → (s.window w).free (mbPartition c.img) = true →
    s.windowReach (mbPartition c.img) (fld c.img 24 0 40) (fld c.img 32 0 40) = true →
    completes (.windowOpen m) s fun t =>
      s.answers t m c mbDone 0xFFFF (w + (s.window w).generation.toNat * 2 ^ 32) [] ∧
      (t.window w).open_ = true ∧ (t.window w).partition = mbPartition c.img ∧
      (t.window w).base.toNat = fld c.img 24 0 40 ∧ (t.window w).size.toNat = fld c.img 32 0 40 ∧
      (t.window w).generation = (s.window w).generation ∧ (t.window w).jobTag = x.jobTag ∧
      ∀ v, v ≠ w → t.window v = s.window v) ∧
  (∀ (m : Fin 34) (c : MbCmd) (x : Part) (s : State),
    let w := fld c.img 16 0 16
    s.mbFirst m 0x30A c → s.part? (mbPartition c.img) = some x → (s.window w).open_ = true →
    (s.window w).partition = mbPartition c.img →
    completes (.windowClose m) s fun t =>
      (t.window w).open_ = false ∧ (t.window w).generation = (s.window w).generation + 1 ∧
      c ∈ (t.mbox m).running ∧ (∀ v, v ≠ w → t.window v = s.window v)) ∧
  (∀ (w : Fin 1024) (t0 : DWord) (s : State),
    (s.window w).closing = some t0 → s.clocked = true → 1000 ≤ s.count.toNat - t0.toNat →
    completes (.windowCloseComplete w) s fun t =>
      (t.window w).closing = none ∧ (t.window w).generation = (s.window w).generation) ∧
  (∀ (m : Fin 34) (c : MbCmd) (x : Part) (s : State),
    let w := fld c.img 16 0 16
    s.mbFirst m 0x30B c → s.part? (mbPartition c.img) = some x →
    (s.window w).partition = mbPartition c.img ∨ ((s.window w).open_ = false ∧ (s.window w).reserved = false) →
    completes (.windowQuery m) s fun t =>
      s.answers t m c mbDone 0xFFFF 0 (s.window w).bytes ∧ t = { s with mailboxes := t.mailboxes }) ∧
  (∀ (ch : Fin 128) (rest : List Nat) (s : State),
    s.clocked = true → s.mem.retiring = none → s.mem.retireQueue = ch.val :: rest →
    s.mem.map.pages + (s.hosted ch).length ≤ ((s.spareHomes ch).map s.spareLeft).foldl (· + ·) 0 →
    completes (.channelRetirementStart ch .corrections) s fun t =>
      t.chan ch = .retiring ∧ t.mem.retireQueue = rest ∧ s.recorded t (chanUnit ch) clsCorrected ∧
      ∃ r, t.mem.retiring = some r ∧ r.chan = ch.val ∧ r.pagesLeft = s.mem.map.pages + (s.hosted ch).length) ∧
  (∀ (r : Retire) (key a home : Nat) (s : State),
    s.mem.retiring = some r → s.clocked = true → 0 < r.pagesLeft → s.retirePage r = some (key, a) →
    s.spareHomes r.chan = [home] → 0 < s.spareLeft home →
    completes (.retirementPageMove [] false) s fun t =>
      Tbl.get? t.mem.remap key = some (home, s.mem.map.pages + Tbl.getD s.mem.spareUsed home 0) ∧
      t.mem.retiring = some { r with moved := r.moved + 1, pagesLeft := r.pagesLeft - 1 } ∧
      t.mem.dram = s.mem.dram ∧ t.mem.dramPoison = s.mem.dramPoison) ∧
  (∀ (r : Retire) (s : State), s.mem.retiring = some r → s.clocked = true → r.pagesLeft = 0 →
    completes .channelRetirementDone s fun t =>
      t.chan r.chan = .retired ∧ t.isFenced (chanUnit r.chan) = true ∧ t.mem.retiring = none) ∧
  (∀ (m : Fin 34) (c : MbCmd) (s : State),
    s.mbFirst m 0x207 c → s.chan (fld c.img 16 0 8) = .healthy → s.mbRoom m →
    completes (.channelRetire m) s fun t => t.mbTaken m c ∧ fld c.img 16 0 8 ∈ t.mem.retireQueue)

/-- COLLECTIVE_START makes the first waiting collective run. A row of REDUCE_SCATTER, ALL_REDUCE, ALL_GATHER, REDUCE_UPDATE or
REDUCE_UPDATE_GATHER with nothing left to do completes its collective with DONE; LOCAL_UPDATE and DENSITY_PROFILE end
theirs. COLL_TIMEOUT ends one with TIMEOUT and a record. -/
def Obligations.Collectives : Prop :=
  (∀ (c : Coll) (s : State),
    s.coll.list.find? (fun x => !x.running) = some c → s.coll? c.key = some c → s.running = true →
    s.coll.list.countP Coll.live < 8 → s.hostClear → c.d.op = 6 ∨ c.d.op = 0x10 → c.d.reduces = false →
    completes .collectiveStart s fun t => t.coll? c.key = some { c with running := true, window := s.param 0x0900 } ∧ t.atolls = s.atolls) ∧
  (∀ (k : CollKey) (i : Instr) (code : Nat) (c : Coll) (s : State),
    (i = .reduceScatter k ∧ code = 1) ∨ (i = .allReduce k ∧ code = 2) →
    s.coll? k = some c → s.running = true → c.live = true → c.d.op = code → c.accs = [] →
    (∀ r, r < c.d.n → c.d.chunkCount r ≤ Tbl.getD c.asked r 0) → c.skew = false → s.collComplete c = true →
    completes i s fun t => ∃ c', t.coll? k = some c' ∧ c'.finished = some (c.word 0 0)) ∧
  (∀ (k : CollKey) (c : Coll) (s : State),
    s.coll? k = some c → s.running = true → c.live = true → c.d.op = 3 → (∀ r ∈ c.others, r ∈ c.sentTo) → c.skew = false →
    s.collComplete c = true →
    completes (.allGather k) s fun t => ∃ c', t.coll? k = some c' ∧ c'.finished = some (c.word 0 0)) ∧
  (∀ (k : CollKey) (i : Instr) (code : Nat) (c : Coll) (s : State),
    (i = .reduceUpdate k ∧ code = 4) ∨ (i = .reduceUpdateGather k ∧ code = 5) →
    s.coll? k = some c → s.running = true → c.live = true → c.d.op = code → c.accs = [] →
    (∀ r, r < c.d.n → c.d.chunkCount r ≤ Tbl.getD c.asked r 0) → (∀ j, j < c.shardSize.2 → j ∈ c.tiles) → c.skew = false →
    s.skewCheck k = s → s.collComplete c = true →
    completes i s fun t => ∃ c', t.coll? k = some c' ∧ c'.finished = some (c.word 0 0)) ∧
  (∀ (k : CollKey) (c c1 : Coll) (s s1 s2 : State),
    s.coll? k = some c → s.running = true → c.live = true → c.d.op = 6 → c.skew = false → s.skewCheck k = s →
    (List.range c.shardSize.2).foldl (fun t i =>
      if ((t.coll? k).map Coll.live).getD false then t.runTile k 0 i else t) s = s1 →
    ((s1.coll? k).map Coll.live) = some true → s1.endUpdate k = s2 → s2.coll? k = some c1 → c1.live = true →
    completes (.localUpdate k none) s fun t => ∃ c', t.coll? k = some c' ∧
      c'.finished = some (({ c1 with written := List.range (c.d.chunkCount 0) } : Coll).word 0 0)) ∧
  (∀ (k : CollKey) (c : Coll) (s : State),
    s.coll? k = some c → s.running = true → c.live = true → c.d.op = 0x10 → s.hostClear →
    completes (.densityProfile k none) s fun t => ∃ c', t.coll? k = some c' ∧ c'.finished.isSome = true) ∧
  (∀ (k : CollKey) (c : Coll) (s : State),
    s.coll? k = some c → s.running = true → c.live = true →
    completes (.collTimeout k) s fun t => s.recorded t (niUnit 0) clsTimeout ∧
      ∃ c', t.coll? k = some c' ∧ c'.finished = some (c.word 11 0) ∧ c'.accs = [])

/-- COLL_APEX notes a member's words, or its joining; COLL_JOIN notes a member; COLL_GRANT marks the chunk given and sends it;
COLL_DONE notes a chunk done; COLL_DATA writes gathered blocks and notes them; EARLY_POOL_EXPIRY discards and counts the
oldest early packet. A packet whose collective is not known waits in the early pool. -/
def Obligations.CollectivePackets : Prop :=
  (∀ (d : Fin 6) (m : FMsg) (rest : List FMsg) (c : Coll) (s : State),
    let h := collHdr m.payload
    (s.strait d).collIn = m :: rest → s.running = true → m.kind = 4 →
    (∀ e ∈ s.parts, e.2.jobTag = h.key.jobTag → e.2.inReset = false) → s.coll? h.key = some c → c.live = true →
    h.owner = c.d.rank → h.sender < c.d.n → h.chunk < c.d.chunkCount c.d.rank → c.d.reduces = true → c.d.op ≠ 3 →
    h.blocks = (if c.d.supplied then 0 else (c.d.chunk c.d.rank h.chunk).2) → c.accs = [] → h.chunk ∉ c.written → 2 ≤ c.d.n →
    (∀ r, r < c.d.n → c.d.chunkCount r ≤ Tbl.getD c.asked r 0) →
    completes (.collApex d) s fun t =>
      (t.strait d).collIn = rest ∧ ∃ c', t.coll? h.key = some c' ∧ c'.joined = c.joined ++ [h.sender] ∧
        Tbl.get? (c'.acc h.chunk).words h.sender = some (halves (m.payload.drop 24) h.blocks)) ∧
  (∀ (d : Fin 6) (m : FMsg) (rest : List FMsg) (c : Coll) (s : State),
    let h := collHdr m.payload
    (s.strait d).collIn = m :: rest → s.running = true → m.kind = 3 → h.ctrl = 0 →
    (∀ e ∈ s.parts, e.2.jobTag = h.key.jobTag → e.2.inReset = false) → s.coll? h.key = some c → c.live = true →
    h.owner = c.d.rank → h.sender < c.d.n →
    completes (.collJoin d) s fun t =>
      (t.strait d).collIn = rest ∧ ∃ c', t.coll? h.key = some c' ∧ h.sender ∈ c'.joined ∧ c'.written = c.written) ∧
  (∀ (d : Fin 6) (m : FMsg) (rest : List FMsg) (c : Coll) (ws : List (List Byte)) (s s1 : State),
    let h := collHdr m.payload
    let s0 := s.modStrait d fun x => { x with collIn := rest }
    (s.strait d).collIn = m :: rest → s.running = true → m.kind = 3 → h.ctrl = 1 →
    (∀ e ∈ s.parts, e.2.jobTag = h.key.jobTag → e.2.inReset = false) → s.coll? h.key = some c → c.live = true →
    h.owner ≠ c.d.rank → h.sender = h.owner → h.chunk < c.d.chunkCount h.owner → h.chunk ∉ Tbl.getD c.given h.owner [] →
    c.wire s0 false c.d.fs c.d.src c.d.blocks 0 (c.d.chunk h.owner h.chunk).1 (c.d.chunk h.owner h.chunk).2 = (s1, stOk, ws) →
    s1.coll? h.key = some c →
    completes (.collGrant d) s fun t => ∃ c', t.coll? h.key = some c' ∧
      Tbl.getD c'.given h.owner [] = Tbl.getD c.given h.owner [] ++ [h.chunk]) ∧
  (∀ (d : Fin 6) (m : FMsg) (rest : List FMsg) (c : Coll) (s : State),
    let h := collHdr m.payload
    (s.strait d).collIn = m :: rest → s.running = true → m.kind = 3 → h.ctrl = 2 →
    (∀ e ∈ s.parts, e.2.jobTag = h.key.jobTag → e.2.inReset = false) → s.coll? h.key = some c → c.live = true →
    h.owner ≠ c.d.rank → h.sender = h.owner → h.chunk < c.d.chunkCount h.owner → c.accs = [] →
    (∀ r, r < c.d.n → c.d.chunkCount r ≤ Tbl.getD c.asked r 0) →
    completes (.collDone d) s fun t =>
      (t.strait d).collIn = rest ∧ ∃ c', t.coll? h.key = some c' ∧ h.chunk ∈ Tbl.getD c'.doneAt h.owner []) ∧
  (∀ (d : Fin 6) (m : FMsg) (rest : List FMsg) (c : Coll) (s s1 : State),
    let h := collHdr m.payload
    let s0 := s.modStrait d fun x => { x with collIn := rest }
    let w := wireBytes true c.d.fs
    (s.strait d).collIn = m :: rest → s.running = true → m.kind = 5 →
    (∀ e ∈ s.parts, e.2.jobTag = h.key.jobTag → e.2.inReset = false) → s.coll? h.key = some c → c.live = true →
    c.d.op = 3 → c.d.reduces = false → h.owner ≠ c.d.rank → h.sender = h.owner → h.format = c.d.fs.code → h.owner < c.d.n →
    h.chunk < c.d.chunkCount h.owner → h.first + h.blocks ≤ (c.d.chunk h.owner h.chunk).2 →
    (m.payload.drop 24).length = h.blocks * w →
    c.unwire s0 c.d.fs c.d.dst c.d.blocks c.d.state ((c.d.chunk h.owner h.chunk).1 + h.first) (chunks 33 w (m.payload.drop 24)) =
      (s1, stOk) → s1.coll? h.key = some c →
    completes (.collData d true) s fun t => ∃ c', t.coll? h.key = some c' ∧
      (∀ i, i < h.blocks → 32 * h.chunk + h.first + i ∈ Tbl.getD c'.arrived h.owner []) ∧
      ∀ b, b ∈ Tbl.getD c.arrived h.owner [] → b ∈ Tbl.getD c'.arrived h.owner []) ∧
  (∀ (d : Fin 6) (m : FMsg) (rest : List FMsg) (s : State),
    (s.strait d).collIn = m :: rest → s.running = true → m.kind = 3 → (collHdr m.payload).ctrl = 0 →
    (∀ e ∈ s.parts, e.2.jobTag = (collHdr m.payload).key.jobTag → e.2.inReset = false) →
    s.coll? (collHdr m.payload).key = none → (s.strait d).early.length < 4096 →
    completes (.collJoin d) s fun t =>
      (t.strait d).collIn = rest ∧ (t.strait d).early = (s.strait d).early ++ [(m, s.count)] ∧ t.coll = s.coll) ∧
  (∀ (d : Fin 6) (e : FMsg × DWord) (rest : List (FMsg × DWord)) (s : State), (s.strait d).early = e :: rest →
    completes (.earlyPoolExpiry d) s fun t =>
      (t.strait d).early = rest ∧ (t.strait d).earlyDrop = satAdd32 (s.strait d).earlyDrop 1 ∧
      ∀ x, x ≠ d.val → t.strait x = s.strait x)

/-- A passing micro-test is noted, in its register once all 16 have passed; a failing one records PATROL_FAIL, fences its engine
and issues a suspect report. FULL_PATROL starts a suite on a site without a position; FULL_PATROL_COMPLETE notes a pass, or
fences the site. MIGRATION_START takes a spare and MIGRATION_CUT_OVER moves the position to it. FENCE_MAP_WRITE writes the
oldest fence; FAULT_COLLECTOR_DRAIN moves a record to the log, COALESCE_RELEASE releases an entry; WEAR_SCORE_UPDATE keeps
scores at most 1000, WEAR_CHECKPOINT stores them. -/
def Obligations.PatrolAndMigration : Prop :=
  (∀ (g : Fin 320) (e : Fin 4) (test : Fin 16) (i : Instr) (s : State),
    i = .gapPatrolMicrotest (engineUnit g e) test .pass ∨ i = .gapPatrolForcedSlot (engineUnit g e) test .pass →
    s.patrols (engineUnit g e) = true → s.patrolBusy (engineUnit g e) = (false, false) →
    completes i s fun t =>
      s.onlyAtoll t g ∧
      (Tbl.getD (s.atoll g).gapDone e 0 ||| 2 ^ test.val = 0xFFFF →
        Tbl.getD (t.atoll g).gapDone e 0 = 0 ∧ Tbl.getD (t.atoll g).patrolGap e 0 = s.count) ∧
      (Tbl.getD (s.atoll g).gapDone e 0 ||| 2 ^ test.val ≠ 0xFFFF →
        Tbl.getD (t.atoll g).gapDone e 0 = Tbl.getD (s.atoll g).gapDone e 0 ||| 2 ^ test.val ∧
        (t.atoll g).patrolGap = (s.atoll g).patrolGap)) ∧
  (∀ (g : Fin 320) (e : Fin 4) (test : Fin 16) (u word : Word) (tb : Byte) (ex ob : DWord) (s : State),
    s.patrols (engineUnit g e) = true → s.patrolBusy (engineUnit g e) = (false, false) →
    completes (.gapPatrolMicrotest (engineUnit g e) test (.fail u tb word ex ob)) s fun t =>
      s.recorded t (engineUnit g e) clsPatrol ∧ t.isFenced (engineUnit g e) = true ∧
      ∃ r, t.flt.suspects.getLast? = some r ∧ r.unit = engineUnit g e ∧ r.full = false) ∧
  (∀ (g : Fin 320) (s : State),
    s.hubRuns = true → s.running = true → s.siteHealthy g = true → (s.atoll g).suite = false → s.isSpare g = false →
    s.flt.suites.length < s.param 0x0A02 → s.positionOf g = none →
    completes (.fullPatrol g) s fun t =>
      (t.atoll g).suite = true ∧ t.flt.suites = s.flt.suites ++ [g.val] ∧ ∀ h, h ≠ g.val → t.atoll h = s.atoll h) ∧
  (∀ (g : Fin 320) (s : State),
    s.running = true → g.val ∈ s.flt.suites → Tbl.get? s.flt.suiteHome g = none →
    completes (.fullPatrolComplete g .pass .pass) s fun t =>
      (t.atoll g).suite = false ∧ (t.atoll g).frozen = false ∧ (t.atoll g).patrolFull = s.count ∧ g.val ∉ t.flt.suites ∧
      t.flt.fenced = s.flt.fenced) ∧
  (∀ (g : Fin 320) (tb : Byte) (word : Word) (ex ob : DWord) (raised : PatrolResult) (s : State),
    s.running = true → g.val ∈ s.flt.suites →
    completes (.fullPatrolComplete g (.fail (siteUnit g) tb word ex ob) raised) s fun t =>
      g.val ∉ t.flt.suites ∧ t.isFenced (siteUnit g) = true ∧ s.recorded t (siteUnit g) clsPatrol) ∧
  (∀ (p : Fin 32) (pos : Fin 256) (x : Part) (g h : Nat) (s : State),
    s.part? p = some x → s.hubRuns = true → x.inReset = false → x.rolling = false → pos.val ∈ x.migrateWanted →
    (∀ m ∈ x.migrations, m.position ≠ pos.val) → s.atollAt p pos = some g → s.chooseSpare x pos = some h →
    completes (.migrationStart p pos) s fun t =>
      ∃ y, t.part? p = some y ∧ y.migrations = x.migrations ++
        [{ position := pos, source := g, spare := h, patrol := false, back := false }] ∧ y.posAtoll = x.posAtoll ∧
        (t.atoll h).suite = false) ∧
  (∀ (p : Fin 32) (pos : Fin 256) (x : Part) (m : Migration) (g : Nat) (s : State),
    s.part? p = some x → x.migrations.find? (fun m => m.position == pos.val) = some m → s.atollAt p pos = some g →
    m.patrol = false → s.hubRuns = true → s.unitRuns g = true → x.rolling = false → s.reconfs = [] → s.opsInFlight g = false →
    s.siteHealthy m.spare = true → (s.atoll m.spare).assigned = false → (s.atoll g).bayCache = 0 →
    completes (.migrationCutOver p pos) s fun t =>
      t.atollAt p pos = some m.spare ∧ (∀ q, q ≠ pos.val → t.atollAt p q = s.atollAt p q) ∧
      (m.spare ≠ g → (t.atoll m.spare).lagoon = (s.atoll g).lagoon)) ∧
  (∀ (e : FenceEntry) (rest : List FenceEntry) (s : State),
    s.flt.fenceQueue = e :: rest → s.clocked = true → s.flt.fenceMap.length < 2048 →
    completes .fenceMapWrite s fun t =>
      e ∈ t.flt.fenceMap ∧ t.flt.fenceQueue = rest ∧ t.flt.fenceGen = s.flt.fenceGen + 1 ∧ t.flt.fenced = s.flt.fenced ∧
      (∀ x ∈ s.flt.fenceMap, x.unit ≠ e.unit → x ∈ t.flt.fenceMap)) ∧
  (∀ (node : Fin 32) (r : ErrRec) (rest : List ErrRec) (s : State),
    (s.collector node).ring = r :: rest → s.hubRuns = true →
    completes (.faultCollectorDrain node) s fun t =>
      (t.collector node).ring = rest ∧ (t.collector node).coal = (s.collector node).coal ∧
      t.flt.log.getLast? = some (s.flt.logNext, r) ∧ t.flt.logNext = s.flt.logNext + 1) ∧
  (∀ (node : Fin 32) (e : CoalEntry) (rest : List CoalEntry) (s : State),
    (s.collector node).coal = e :: rest → s.clocked = true → (s.collector node).ring.length ≤ 62 →
    completes (.coalesceRelease node) s fun t =>
      (t.collector node).coal = rest ∧ ∃ l, (t.collector node).ring = (s.collector node).ring ++ [e.first, l] ∧
        l.coalesce.toNat = min e.count 0xFFFFFFFF ∧ l.unit = e.last.unit) ∧
  (∀ (s : State), s.hubRuns = true →
    completes .wearScoreUpdate s fun t =>
      t = { s with flt := { s.flt with wear := t.flt.wear } } ∧
      ∀ u ∈ scoredUnits, (Tbl.getD t.flt.wear u.toNat Wear.zero).score ≤ 1000) ∧
  (∀ (s : State), s.hubRuns = true →
    completes .wearCheckpoint s fun t => t = { s with flt := { s.flt with wearCheckpoint := s.flt.wear } })

/-- STEP_ROLLBACK in a step takes the triggers into a rollback; ROLLBACK_RESTART of one that is to replay closes the step and
marks it for replay, and of one outside a step ends it. SCALAR_WATCHDOG records TIMEOUT and fences the core and the site,
SEQ_WAIT_WATCHDOG triggers a rollback without a fence, BLOCK_WATCHDOG fences a stream unit, STEP_ABORT_STALL resets an atoll
that has not stopped. -/
def Obligations.RollbackAndWatchdogs : Prop :=
  (∀ (p : Fin 32) (x : Part) (c : Trigger) (cs : List Trigger) (s : State),
    s.part? p = some x → x.triggers = c :: cs → s.hubRuns = true → s.running = true → x.inReset = false → x.rollback = none →
    x.inStep = true →
    completes (.stepRollback p) s fun t => ∃ y r, t.part? p = some y ∧ y.triggers = [] ∧ y.rollback = some r ∧
      r.outside = false ∧ r.cause = c ∧ r.replace = s.replaced p x.triggers ∧ r.stop = x.rollbackStop x.triggers) ∧
  (∀ (p : Fin 32) (x : Part) (r : Rollback) (s : State),
    s.part? p = some x → x.rollback = some r → r.outside = false → r.replace = [] → r.stop = none → s.hubRuns = true →
    s.running = true → x.inReset = false → x.triggers = [] → (∀ e ∈ x.posAtoll, (s.atoll e.2).inReset = false) →
    Tbl.get? x.epochTimes (x.epoch + 1).toNat = none →
    completes (.rollbackRestart p) s fun t => ∃ y, t.part? p = some y ∧ y.rollback = none ∧ y.replaying = true ∧
      y.stepOpen = false) ∧
  (∀ (p : Fin 32) (x : Part) (r : Rollback) (s : State),
    s.part? p = some x → x.rollback = some r → r.outside = true → r.replace = [] → s.hubRuns = true → s.running = true →
    x.inReset = false → x.triggers = [] → (∀ e ∈ x.posAtoll, (s.atoll e.2).inReset = false) →
    completes (.rollbackRestart p) s fun t => t.part? p = some { x with rollback := none } ∧ t.atolls = s.atolls) ∧
  (∀ (g : Fin 320) (core : Fin 2) (s : State),
    s.unitRuns g = true → ((s.atoll g).core core).running = true → ((s.atoll g).core core).block = .none →
    (s.atoll g).split = true ∨ core = 0 →
    completes (.scalarWatchdog g core) s fun t =>
      s.recorded t (s.coreUnit g core) clsTimeout ∧ t.isFenced (s.coreUnit g core) = true ∧ t.isFenced (siteUnit g) = true ∧
      t.atolls = s.atolls) ∧
  (∀ (g : Fin 320) (u : Fin 6) (p pos o : Nat) (n : Word) (x : Part) (s : State),
    ((s.atoll g).seq u).block = .sync o n → s.positionOf g = some (p, pos) → s.part? p = some x → s.unitRuns g = true →
    completes (.seqWaitWatchdog g u) s fun t =>
      s.recorded t (seqUnit g u) clsTimeout ∧ t.flt.fenced = s.flt.fenced ∧
      ∃ y tr, t.part? p = some y ∧ y.triggers = x.triggers ++ [tr] ∧ tr.seqWatch = true) ∧
  (∀ (h : Fin 16) (u : Fin 4) (s : State),
    s.running = true → s.isFenced (streamUnitId h u) = false → (s.sunit h u).cur.isSome = true →
    completes (.blockWatchdog (streamUnitId h u)) s fun t =>
      s.recorded t (streamUnitId h u) clsTimeout ∧ t.isFenced (streamUnitId h u) = true ∧ (t.sunit h u).cur = none) ∧
  (∀ (g : Fin 320) (p pos : Nat) (x : Part) (r : Rollback) (s : State),
    s.positionOf g = some (p, pos) → s.part? p = some x → x.rollback = some r → s.running = true → (s.atoll g).aborting = true →
    (s.atoll g).inReset = false →
    completes (.stepAbortStall g) s fun t =>
      (t.atoll g).inReset = true ∧ s.recorded t (siteUnit g) clsTimeout)

/-- MANAGER_HEARTBEAT and HUB_LIVENESS note the local count; HEARTBEAT_MISS records HEARTBEAT_MISS and fences the manager core;
HUB_WATCHDOG marks the active hub as failing, and fences a standby with a WATCHDOG record; HUB_FAILOVER makes the other hub
active; BOTH_HUBS_LOST asks for a counted module reset. HEARTBEAT_WORD_UPDATE advances the beat; STATUS_REPORT queues a
status report. ABORT_FLOOD sends the module's own oldest flood once and drops a duplicate; JOB_ABORT answers with the number
of partitions and queues a flood. -/
def Obligations.HubsAndFloods : Prop :=
  (∀ (node : Fin 32) (s : State),
    s.life.powered = true → s.life.frozen = false → node.val < 30 → node.val ∉ s.flt.mgrFenced →
    completes (.managerHeartbeat node) s fun t =>
      t = { s with flt := { s.flt with hbLast := t.flt.hbLast } } ∧ Tbl.getD t.flt.hbLast node 0 = s.count.toNat) ∧
  (∀ (node : Fin 32) (s : State),
    s.hubRuns = true → node.val < 30 → node.val ∉ s.flt.mgrFenced → 300000 ≤ s.count.toNat - Tbl.getD s.flt.hbLast node 0 →
    completes (.heartbeatMiss node) s fun t =>
      node.val ∈ t.flt.mgrFenced ∧ t.isFenced (managerUnit node) = true ∧ s.recorded t (managerUnit node) clsHeartbeat) ∧
  (∀ (h : Fin 2) (s : State),
    s.life.powered = true → s.life.frozen = false → s.life.usable.getLsbD h = true →
    completes (.hubLiveness h) s fun t =>
      t = { s with life := { s.life with liveLast := t.life.liveLast } } ∧ t.silence h = 0) ∧
  (∀ (h : Fin 2) (s : State),
    s.life.powered = true → s.life.frozen = false → s.life.usable.getLsbD h = true →
    completes (.hubWatchdog h) s fun t =>
      (h.val = s.life.activeHub → t = { s with life := { s.life with failingHub := true } }) ∧
      (h.val ≠ s.life.activeHub → t.life.standby = false ∧ t.life.usable.getLsbD h = false ∧
        s.recorded t (hubOf h) clsWatchdog ∧ t.isFenced (hubProcessor h 0) = true)) ∧
  (∀ (s : State),
    s.life.powered = true → s.life.frozen = false → s.life.state = .ready → s.life.standby = true → s.life.failingHub = true →
    s.life.activeHub < 2 →
    completes .hubFailover s fun t =>
      t.life.activeHub = 1 - s.life.activeHub ∧ t.life.standby = false ∧ t.life.failingHub = false ∧
      s.recorded t (hubOf s.life.activeHub) clsWatchdog) ∧
  (∀ (s : State),
    s.life.powered = true → s.life.frozen = false → s.life.state = .ready → s.flt.mgrFenced = [] → 300000 ≤ s.silence 0 →
    300000 ≤ s.silence 1 → s.flt.resetPending = none →
    completes .bothHubsLost s fun t =>
      (∃ n, t.flt.resetPending = some (true, n)) ∧ t.life.failingHub = true ∧ t.life.usable = 0 ∧
      t.isFenced (hubProcessor 0 0) = true ∧ t.isFenced (hubProcessor 1 3) = true) ∧
  (∀ (s : State), s.hubRuns = true →
    completes .heartbeatWordUpdate s fun t =>
      t.flt.beat = s.flt.beat + 1 ∧ t.flt.hbWord = t.heartbeat ∧
      t = { s with flt := { s.flt with beat := t.flt.beat, hbWord := t.flt.hbWord } }) ∧
  (∀ (s : State), s.hubRuns = true →
    completes .statusReport s fun t =>
      ∃ e, t.events = s.events ++ [e] ∧ e.type = 1 ∧ e.mailboxes = [0] ∧ e.content.length = 64) ∧
  (∀ (x : Fin 6) (f : Flood) (rest : List Flood) (s : State),
    s.life.powered = true → s.life.frozen = false → (s.strait x).floodIn = [] → s.flt.floodsOut = f :: rest →
    completes (.abortFlood x) s fun t =>
      t.flt.floodsOut = rest ∧ ∃ k ∈ t.flt.floodFilter, k.1 = f.origin ∧ k.2.1 = f.boot ∧ k.2.2.1 = f.number) ∧
  (∀ (x : Fin 6) (l : Nat) (p : FPkt) (rest : List (Nat × FPkt)) (s : State),
    let r := BitVec.ofNat 256 (leNat ((p.data.drop 8).take 32))
    s.life.powered = true → s.life.frozen = false → (s.strait x).floodIn = (l, p) :: rest → fld r 0 0 32 ≠ 0 →
    1 ≤ fld r 12 0 8 → fld r 12 0 8 ≤ 5 → s.forwards = true →
    (∃ k ∈ s.floodKeys, k.1 = fld r 4 0 13 ∧ k.2.1 = BitVec.ofNat 32 (fld r 8 0 32) ∧ k.2.2.1 = BitVec.ofNat 16 (fld r 6 0 16)) →
    completes (.abortFlood x) s fun t =>
      (t.strait x).floodIn = rest ∧ t.fab.sent = s.fab.sent ∧ t.parts = s.parts ∧ t.flt = s.flt) ∧
  (∀ (m : Fin 34) (c : MbCmd) (s : State),
    s.mbFirst m 0x204 c → s.tagged (fld c.img 16 0 32) = [] →
    completes (.jobAbort m) s fun t =>
      s.answers t m c mbDone 0xFFFF 0 [] ∧ t.flt.floodsOut.length = s.flt.floodsOut.length + 1 ∧ t.parts = s.parts) ∧
  (∀ (m : Fin 34) (c : MbCmd) (p : Nat) (x : Part) (s : State),
    s.mbFirst m 0x204 c → s.tagged (fld c.img 16 0 32) = [p] → s.part? p = some x → x.inReset = false → s.mbOnPart p ≠ [] →
    p ∉ s.flt.abortPending →
    completes (.jobAbort m) s fun t =>
      s.answers t m c mbDone 0xFFFF 1 [] ∧ t.flt.abortPending = s.flt.abortPending ++ [p])

/-- RESET_UNIT of a core restarts it and answers; RESET_ATOLL and RESET_PARTITION are accepted and begin; ATOLL_DRAIN_TIMEOUT
and PARTITION_RESET_DONE end them; RESET_MODULE and SERVICE_CLEAR ask for an uncounted module reset. FENCE_CLEAR marks a
runtime fence for clearing, UNIT_FENCE fences, DIAG_RUN answers with its result. -/
def Obligations.ResetsAndFences : Prop :=
  (∀ (m : Fin 34) (c : MbCmd) (g : Fin 320) (core : Fin 2) (x : Part) (s : State),
    s.mbFirst m 0x200 c → s.part? (mbPartition c.img) = some x → fld c.img 16 0 32 = (atollUnit g 3 core 0x3FF).toNat →
    (s.atoll g).inReset = false → (s.atoll g).split = true →
    completes (.resetUnit m) s fun t =>
      t.mbEnded m c mbDone ∧ ((t.atoll g).core core).pc = 0 ∧ ((t.atoll g).core core).running = true ∧
      ((t.atoll g).core core).block = .none ∧ ∀ r, ((t.atoll g).core core).reg r = 0) ∧
  (∀ (m : Fin 34) (c : MbCmd) (g : Nat) (x : Part) (s : State),
    s.mbFirst m 0x201 c → s.part? (mbPartition c.img) = some x → s.atollAt (mbPartition c.img) (fld c.img 16 0 8) = some g →
    s.reconfCovers (mbPartition c.img) (fld c.img 16 0 8) = false → s.mbRoom m → (s.atoll g).inReset = false →
    completes (.resetAtoll m) s fun t => t.mbTaken m c ∧ (t.atoll g).inReset = true) ∧
  (∀ (g : Fin 320) (s : State), (s.atoll g).inReset = true → s.clocked = true →
    completes (.atollDrainTimeout g) s fun t =>
      (t.atoll g).inReset = false ∧ (t.atoll g).tess = .unconfigured ∧ (t.atoll g).objs = [] ∧
      (t.atoll g).lagoon = (s.atoll g).lagoon) ∧
  (∀ (m : Fin 34) (c : MbCmd) (x : Part) (s : State),
    s.mbFirst m 0x202 c → s.part? (mbPartition c.img) = some x → s.mbRoom m → x.inReset = false →
    completes (.resetPartition m) s fun t => t.mbTaken m c ∧ ∃ y, t.part? (mbPartition c.img) = some y ∧ y.inReset = true) ∧
  (∀ (p : Fin 32) (x : Part) (s : State),
    s.part? p = some x → x.inReset = true → s.clocked = true → s.hubRuns = true →
    (∀ e ∈ x.posAtoll, (s.atoll e.2).inReset = false) → s.mbRunningOn p 0x302 = [] →
    completes (.partitionResetDone p) s fun t => ∃ y, t.part? p = some y ∧ y.inReset = false ∧ y.epoch = 0) ∧
  (∀ (m : Fin 34) (c : MbCmd) (s : State),
    s.mbFirst m 0x203 c →
    completes (.resetModule m) s fun t => s.answers t m c mbAccepted 0xFFFF 0 [] ∧
      (s.flt.resetPending = none → t.flt.resetPending = some (false, s.count)) ∧
      (∀ k n, s.flt.resetPending = some (k, n) → t.flt.resetPending = some (k, n))) ∧
  (∀ (m : Fin 34) (c : MbCmd) (s : State),
    s.mbFirst m 0x208 c → s.life.state = .outOfService →
    completes (.serviceClear m) s fun t => s.answers t m c mbAccepted 0xFFFF 0 [] ∧ t.flt.outOfService = false ∧
      t.flt.resetPending.isSome = true) ∧
  (∀ (m : Fin 34) (c : MbCmd) (e : FenceEntry) (s : State),
    s.mbFirst m 0x205 c →
    s.fenceEntries.find? (fun e => e.unit == BitVec.ofNat 32 (fld c.img 16 0 32)) = some e →
    completes (.fenceClear m) s fun t =>
      (e.source ≠ 0 → s.answers t m c mbDone 0xFFFF 0 [] ∧ BitVec.ofNat 32 (fld c.img 16 0 32) ∈ t.flt.clearPending) ∧
      (e.source = 0 → s.answers t m c mbFenced 0xFFFF 0 [] ∧ t.flt = s.flt) ∧ t.flt.fenced = s.flt.fenced) ∧
  (∀ (m : Fin 34) (c : MbCmd) (g : Fin 320) (s : State),
    s.mbFirst m 0x206 c → fld c.img 16 0 32 = (siteUnit g).toNat → s.positionOf g = none →
    completes (.unitFence m) s fun t => s.answers t m c mbDone 0xFFFF 0 [] ∧ t.isFenced (siteUnit g) = true ∧
      t.flt.collectors = s.flt.collectors) ∧
  (∀ (m : Fin 34) (c : MbCmd) (fail : Option Word) (s : State),
    s.mbFirst m 0x108 c → ((uAtoll (BitVec.ofNat 32 (fld c.img 16 0 32))).bind s.positionOf) = none → s.mbRoom m →
    completes (.diagRun m fail) s fun t => t.mbEnded m { c with accepted := true } mbDone ∧
      t = { s with mailboxes := t.mailboxes })

/-- DUMP goes on with the dump in progress by one section, and completes it after the last; an admin DUMP is accepted and starts
one. DUMP_UNIT_TIMEOUT marks a unit that does not answer, and skips a die whose first unit does not. DUMP_READ writes part
of the dump into host memory, or ends NO_RESOURCE without a dump; DUMP_RELEASE marks it read. -/
def Obligations.Dumps : Prop :=
  (∀ (m : Fin 34) (d : Dump) (u : Word) (rest : List Word) (s : State),
    s.hubRuns = true → s.flt.dump = some d → d.taking = true → d.toRead = u :: rest →
    completes (.dump m) s fun t => ∃ e, t.flt.dump = some e ∧ e.toRead = rest ∧ e.taking = true ∧
      (∃ sec, e.sections = d.sections ++ [sec] ∧ fld sec.1 0 0 32 = u.toNat) ∧ t.mailboxes = s.mailboxes) ∧
  (∀ (m : Fin 34) (d : Dump) (s : State),
    s.hubRuns = true → s.flt.dump = some d → d.taking = true → d.toRead = [] →
    completes (.dump m) s fun t => t.flt.dump = some { d with taking := false, complete := true, stop := s.count, unread := true }) ∧
  (∀ (m : Fin 34) (c : MbCmd) (s : State),
    s.mbFirst m 0x105 c → s.flt.dump = none → s.flt.fatal = false → s.mbRoom m →
    completes (.dump m) s fun t => t.mbTaken m c ∧ ∃ e, t.flt.dump = some e ∧ e.taking = true ∧ e.cause = 0 ∧
      e.start = s.count ∧ e.sections.length = 32) ∧
  (∀ (d : Dump) (u : Word) (rest : List Word) (s : State),
    s.hubRuns = true → s.flt.dump = some d → d.taking = true → d.toRead = u :: rest → s.dumpSkips u = false →
    completes .dumpUnitTimeout s fun t => ∃ e sec, t.flt.dump = some e ∧ e.sections = d.sections ++ [sec] ∧ fld sec.1 4 0 8 = 1 ∧
      (s.dumpUnits.find? (fun v => uNode v == uNode u) = some u →
        fld sec.1 0 0 32 = (dieUnit (uNode u)).toNat ∧ e.toRead = rest.filter fun v => uNode v != uNode u) ∧
      (s.dumpUnits.find? (fun v => uNode v == uNode u) ≠ some u → fld sec.1 0 0 32 = u.toNat ∧ e.toRead = rest)) ∧
  (∀ (m : Fin 34) (c : MbCmd) (d : Dump) (u : State) (s : State),
    s.mbFirst m 0x106 c → s.flt.dump = some d → d.taking = false → s.mbRoom m →
    s.hostPut (fld c.img 16 0 64) (((s.dumpBytes d).drop (fld c.img 24 0 32)).take (fld c.img 28 0 32)) = some u →
    completes (.dumpRead m) s fun t => t.mbEnded m { c with accepted := true } mbDone ∧ t.host.mem = u.host.mem ∧
      t.atolls = s.atolls) ∧
  (∀ (m : Fin 34) (c : MbCmd) (s : State), s.mbFirst m 0x106 c → s.flt.dump = none →
    completes (.dumpRead m) s fun t => s.answers t m c mbNoResource 0xFFFF 0 [] ∧ t = { s with mailboxes := t.mailboxes }) ∧
  (∀ (m : Fin 34) (c : MbCmd) (s : State), s.mbFirst m 0x107 c →
    completes (.dumpRelease m) s fun t => s.answers t m c mbDone 0xFFFF 0 [] ∧ t.unreadDump = false)

/-- A doorbell takes a free slot: it is busy, and a command that passes every check waits for its row, while one that fails a
check leaves its completion in line. MB_CQ_HEAD and MB_EQ_HEAD move their head within the unread entries and ignore any
other value. COMPLETION_POST puts the oldest completion into the ring, frees its slot and raises the vector; over MCTP it
answers with a response. EVENT_POST puts the oldest event into its ring with its sequence number. -/
def Obligations.MailboxRings : Prop :=
  (∀ (m : Fin 33) (i : Fin 8) (s : State),
    s.hubRuns = true → s.host.perst = false → (s.mbox m).busy.getLsbD i = false →
    completes (.mbDoorbell m (BitVec.ofNat 8 (2 ^ i.val))) s fun t =>
      let r := Tbl.getD (s.mbox m).slots i 0
      let c : MbCmd := { slot := i, img := r, order := s.cmdOrder, accepted := false, discard := false, word := s.count.toNat }
      (t.mbox m).busy = (s.mbox m).busy ||| BitVec.ofNat 8 (2 ^ i.val) ∧ t.cmdOrder = s.cmdOrder + 1 ∧
      t = { s with mailboxes := t.mailboxes, cmdOrder := t.cmdOrder } ∧ (∀ n, n ≠ m.val → t.mbox n = s.mbox n) ∧
      (s.mbCheck m r = none → ((mbActsOn m r).map s.partResetting).getD false = false → s.mbExecutorFree m = true →
        (t.mbox m).started = (s.mbox m).started ++ [c] ∧ (t.mbox m).fin = (s.mbox m).fin) ∧
      (s.mbCheck m r = none → ((mbActsOn m r).map s.partResetting).getD false = true →
        (t.mbox m).started = (s.mbox m).started ∧ ∃ f, (t.mbox m).fin = (s.mbox m).fin ++ [f] ∧ f.frees = true ∧
          f.compl = mbCompletion c mbInReset 0xFFFF true 0 []) ∧
      (s.mbCheck m r = none → ((mbActsOn m r).map s.partResetting).getD false = false → s.mbExecutorFree m = false →
        (t.mbox m).started = (s.mbox m).started ∧ ∃ f, (t.mbox m).fin = (s.mbox m).fin ++ [f] ∧ f.frees = true ∧
          f.compl = mbCompletion c mbBusy 0xFFFF true 0 []) ∧
      (∀ st off, s.mbCheck m r = some (st, off) →
        (t.mbox m).started = (s.mbox m).started ∧ ∃ f, (t.mbox m).fin = (s.mbox m).fin ++ [f] ∧ f.frees = true ∧
          f.compl = mbCompletion c st off true 0 [])) ∧
  (∀ (m : Fin 33) (v : DWord) (s : State), s.hubRuns = true → s.host.perst = false →
    completes (.mbCqHead m v) s fun t =>
      t = { s with mailboxes := t.mailboxes } ∧ (t.mbox m).cq = (s.mbox m).cq ∧ (t.mbox m).cqTail = (s.mbox m).cqTail ∧
      ((v.toNat % 32 + 32 - (s.mbox m).cqHead) % 32 ≤ ((s.mbox m).cqTail + 32 - (s.mbox m).cqHead) % 32 →
        (t.mbox m).cqHead = v.toNat % 32) ∧
      (((s.mbox m).cqTail + 32 - (s.mbox m).cqHead) % 32 < (v.toNat % 32 + 32 - (s.mbox m).cqHead) % 32 →
        (t.mbox m).cqHead = (s.mbox m).cqHead)) ∧
  (∀ (m : Fin 33) (v : DWord) (s : State), s.hubRuns = true → s.host.perst = false →
    completes (.mbEqHead m v) s fun t =>
      t = { s with mailboxes := t.mailboxes } ∧ (t.mbox m).eq_ = (s.mbox m).eq_ ∧ (t.mbox m).eqTail = (s.mbox m).eqTail ∧
      ((v.toNat % 32 + 32 - (s.mbox m).eqHead) % 32 ≤ ((s.mbox m).eqTail + 32 - (s.mbox m).eqHead) % 32 →
        (t.mbox m).eqHead = v.toNat % 32) ∧
      (((s.mbox m).eqTail + 32 - (s.mbox m).eqHead) % 32 < (v.toNat % 32 + 32 - (s.mbox m).eqHead) % 32 →
        (t.mbox m).eqHead = (s.mbox m).eqHead)) ∧
  (∀ (m : Fin 33) (f : MbFin) (rest : List MbFin) (s : State),
    s.hubRuns = true → (s.mbox m).fin = f :: rest → ((s.mbox m).cqTail + 1) % 32 ≠ (s.mbox m).cqHead →
    fld f.compl 4 0 16 ≠ 4 →
    completes (.completionPost ⟨m, by omega⟩) s fun t =>
      (t.mbox m).fin = rest ∧ Tbl.get? (t.mbox m).cq (s.mbox m).cqTail = some f.compl ∧
      (t.mbox m).cqTail = ((s.mbox m).cqTail + 1) % 32 ∧ (t.mbox m).cqHead = (s.mbox m).cqHead ∧
      (f.frees = true → f.slot < 8 → (t.mbox m).busy.getLsbD f.slot = false) ∧
      (f.frees = false → (t.mbox m).busy = (s.mbox m).busy) ∧ t.atolls = s.atolls ∧ t.parts = s.parts ∧
      (f.irq = true → (s.mbox m).irqMask.getLsbD 0 = false → s.host.linkUp = true → s.host.perst = false →
        s.host.msixEnable = true → s.host.msixMask = false → 2 * m.val ∈ s.host.vecUnmasked →
        t.host.out = s.host.out ++ [.msix (2 * m)]) ∧
      (f.irq = false → t.host = s.host)) ∧
  (∀ (f : MbFin) (rest : List MbFin) (s : State),
    s.hubRuns = true → (s.mbox 33).fin = f :: rest → fld f.compl 4 0 16 ≠ 4 →
    completes (.completionPost 33) s fun t =>
      (t.mbox 33).fin = rest ∧ t.mgmt.out = s.mgmt.out ++ [.mctp 0x7E (leBytes 32 f.compl.toNat ++ f.data)]) ∧
  (∀ (m : Fin 33) (e : Event) (rest : List Event) (s : State),
    s.hubRuns = true → s.events = e :: rest → e.mailboxes = [m.val] → ((s.mbox m).eqTail + 1) % 32 ≠ (s.mbox m).eqHead →
    completes .eventPost s fun t =>
      t.events = rest ∧ Tbl.get? (t.mbox m).eq_ (s.mbox m).eqTail = some (eventEntry e (s.mbox m).eqSeq s.count) ∧
      (t.mbox m).eqTail = ((s.mbox m).eqTail + 1) % 32 ∧ (t.mbox m).eqSeq = (s.mbox m).eqSeq + 1 ∧
      (t.mbox m).eqLost = (s.mbox m).eqLost ∧ (e.type = 2 → t.flt.notices = s.flt.notices + 1))

/-- QUERY, GET_PARAM, CORRELATE, LOG_READ, FENCE_MAP_READ, SUSPECT_READ, TELEMETRY_READ, WEAR_READ and LINK_STATE_READ end DONE
with the data and result that the rules give, and leave everything but the mailbox as it was; the values that the manual
leaves open (the position of the newest record of an empty log) are free values. -/
def Obligations.MailboxReads : Prop :=
  (∀ (m : Fin 34) (c : MbCmd) (s : State), s.mbFirst m 1 c →
    completes (.query m) s fun t =>
      s.answers t m c mbDone 0xFFFF 0 (s.queryBytes (mbPartition c.img)) ∧
      t = { s with mailboxes := t.mailboxes, freeCtr := t.freeCtr }) ∧
  (∀ (m : Fin 34) (c : MbCmd) (s : State), s.mbFirst m 2 c → s.mbAbsent m = false → paramModule (fld c.img 16 0 16) = true →
    completes (.getParam m) s fun t =>
      s.answers t m c mbDone 0xFFFF (s.param (fld c.img 16 0 16)) [] ∧ t = { s with mailboxes := t.mailboxes }) ∧
  (∀ (m : Fin 34) (c : MbCmd) (x : Part) (s : State), s.mbFirst m 2 c → s.mbAbsent m = false → paramModule (fld c.img 16 0 16) = false →
    s.part? (mbPartition c.img) = some x →
    completes (.getParam m) s fun t =>
      s.answers t m c mbDone 0xFFFF (s.pparam (mbPartition c.img) (fld c.img 16 0 16)) [] ∧
      t = { s with mailboxes := t.mailboxes }) ∧
  (∀ (m : Fin 34) (c : MbCmd) (s : State), s.mbFirst m 4 c → s.mbAbsent m = false →
    completes (.correlate m) s fun t =>
      (∃ data, data.length = 16 ∧ leNat (data.take 8) = s.net.switchAt.toNat ∧ s.answers t m c mbDone 0xFFFF c.word data) ∧
      t = { s with mailboxes := t.mailboxes, freeCtr := t.freeCtr }) ∧
  (∀ (m : Fin 34) (c : MbCmd) (s : State), s.mbFirst m 0x100 c → m.val = 0 → fld c.img 16 0 32 = 0xFFFFFFFF →
    completes (.logRead m) s fun t =>
      (∃ result, s.answers t m c mbDone 0xFFFF result
        ((s.flt.log.take (fld c.img 20 0 8)).map fun e => leBytes 64 e.2.bits.toNat).flatten) ∧
      t = { s with mailboxes := t.mailboxes, freeCtr := t.freeCtr }) ∧
  (∀ (m : Fin 34) (c : MbCmd) (s : State), s.mbFirst m 0x101 c →
    completes (.fenceMapRead m) s fun t =>
      s.answers t m c mbDone 0xFFFF (s.flt.fenceMap.length + s.flt.fenceGen.toNat * 2 ^ 32)
        (((s.flt.fenceMap.drop (fld c.img 16 0 16)).take 15).map FenceEntry.bytes).flatten ∧
      t = { s with mailboxes := t.mailboxes }) ∧
  (∀ (m : Fin 34) (c : MbCmd) (s : State), s.mbFirst m 0x102 c → s.mbAbsent m = false →
    completes (.suspectRead m) s fun t =>
      (∀ r, s.flt.suspects.find? (fun r => r.reportId.toNat == fld c.img 16 0 16) = some r →
        s.answers t m c mbDone 0xFFFF 0 (r.head ++ (((r.entries.drop (fld c.img 18 0 8)).take 13).map Touch.bytes).flatten)) ∧
      ((∀ r ∈ s.flt.suspects, r.reportId.toNat ≠ fld c.img 16 0 16) → s.answers t m c mbNoResource 0xFFFF 0 []) ∧
      t = { s with mailboxes := t.mailboxes }) ∧
  (∀ (m : Fin 34) (c : MbCmd) (s : State), s.mbFirst m 0x103 c → fld c.img 20 0 8 = 1 →
    completes (.telemetryRead m) s fun t =>
      s.answers t m c mbDone 0xFFFF
        ((s.strait (fld c.img 16 0 8)).lost.toNat * 2 ^ 32 + (s.strait (fld c.img 16 0 8)).head % 512)
        (leBytes 64 ((s.strait (fld c.img 16 0 8)).slot (fld c.img 18 0 16 % 512)).toNat) ∧
      t = { s with mailboxes := t.mailboxes }) ∧
  (∀ (m : Fin 34) (c : MbCmd) (s : State), s.mbFirst m 0x104 c →
    completes (.wearRead m) s fun t =>
      s.answers t m c mbDone 0xFFFF scoredUnits.length (((scoredUnits.drop (fld c.img 16 0 32)).take 30).map fun u =>
        packBytes 8 [(0, u.toNat), (4, s.wearScore u)]).flatten ∧ t = { s with mailboxes := t.mailboxes }) ∧
  (∀ (m : Fin 34) (c : MbCmd) (s : State), s.mbFirst m 0x404 c →
    completes (.linkStateRead m) s fun t =>
      s.answers t m c mbDone 0xFFFF 0
        ((List.range 16).map fun l => leBytes 8 (s.linkState (16 * fld c.img 16 0 8 + l)).toNat).flatten ∧
      t = { s with mailboxes := t.mailboxes })

/-- SET_PARAM of a partition parameter stores the value and answers with the value before; a module parameter without an effect
of its own likewise, and the parameters of the DRAM map and the fabric format end BUSY while a partition exists.
MODULE_ID_SET takes the ID of a module that has none and refuses a change while partitions exist. ROUTE_WRITE and
MCAST_WRITE store entries; LINK_CONFIG_WRITE disables or trains its link. -/
def Obligations.MailboxSettings : Prop :=
  (∀ (m : Fin 34) (c : MbCmd) (x : Part) (s : State), s.mbFirst m 3 c → paramModule (fld c.img 16 0 16) = false →
    s.part? (mbPartition c.img) = some x →
    completes (.setParam m) s fun t =>
      s.answers t m c mbDone 0xFFFF (s.pparam (mbPartition c.img) (fld c.img 16 0 16)) [] ∧
      t.pparam (mbPartition c.img) (fld c.img 16 0 16) = fld c.img 24 0 64 ∧ t.params = s.params ∧
      t = { s with mailboxes := t.mailboxes, parts := t.parts }) ∧
  (∀ (m : Fin 34) (c : MbCmd) (s : State), s.mbFirst m 3 c → paramModule (fld c.img 16 0 16) = true →
    fld c.img 16 0 16 ∉ [0x0402, 0x0600, 0x0601, 0x0800, 0x0806, 0x0F00] →
    completes (.setParam m) s fun t =>
      s.answers t m c mbDone 0xFFFF (s.param (fld c.img 16 0 16)) [] ∧ t.param (fld c.img 16 0 16) = fld c.img 24 0 64 ∧
      t = { s with mailboxes := t.mailboxes, params := t.params }) ∧
  (∀ (m : Fin 34) (c : MbCmd) (s : State), s.mbFirst m 3 c → fld c.img 16 0 16 ∈ [0x0402, 0x0600, 0x0601, 0x0800] →
    s.parts ≠ [] →
    completes (.setParam m) s fun t =>
      s.answers t m c mbBusy 0xFFFF 0 [] ∧ t = { s with mailboxes := t.mailboxes }) ∧
  (∀ (m : Fin 34) (c : MbCmd) (s : State), s.mbFirst m 0x400 c →
    completes (.moduleIdSet m) s fun t =>
      (s.life.moduleId = none → s.answers t m c mbDone 0xFFFF 0 [] ∧
        t.life.moduleId = some (BitVec.ofNat 13 (fld c.img 16 0 13))) ∧
      (s.life.moduleId = some (BitVec.ofNat 13 (fld c.img 16 0 13)) →
        s.answers t m c mbDone 0xFFFF 0 [] ∧ t.life = s.life) ∧
      (∀ i, s.life.moduleId = some i → i ≠ BitVec.ofNat 13 (fld c.img 16 0 13) → s.parts ≠ [] →
        s.answers t m c mbBusy 0xFFFF 0 [] ∧ t.life = s.life) ∧
      t = { s with mailboxes := t.mailboxes, life := t.life }) ∧
  (∀ (m : Fin 34) (c : MbCmd) (k : Nat) (s : State), s.mbFirst m 0x401 c → k < fld c.img 18 0 8 →
    completes (.routeWrite m) s fun t =>
      s.answers t m c mbDone 0xFFFF 0 [] ∧
      Tbl.get? t.fab.routes (fld c.img 16 0 16 + k) = some (BitVec.ofNat 32 (fld c.img (20 + 4 * k) 0 32)) ∧
      (∀ d, d < fld c.img 16 0 16 ∨ fld c.img 16 0 16 + fld c.img 18 0 8 ≤ d → Tbl.get? t.fab.routes d = Tbl.get? s.fab.routes d) ∧
      t = { s with mailboxes := t.mailboxes, fab := { s.fab with routes := t.fab.routes } }) ∧
  (∀ (m : Fin 34) (c : MbCmd) (s : State), s.mbFirst m 0x402 c →
    completes (.mcastWrite m) s fun t =>
      s.answers t m c mbDone 0xFFFF 0 [] ∧
      Tbl.get? t.fab.groups (fld c.img 16 0 16) = some (BitVec.ofNat 128 (fld c.img 20 0 128)) ∧
      (∀ g, g ≠ fld c.img 16 0 16 → Tbl.get? t.fab.groups g = Tbl.get? s.fab.groups g) ∧
      t = { s with mailboxes := t.mailboxes, fab := { s.fab with groups := t.fab.groups } }) ∧
  (∀ (m : Fin 34) (c : MbCmd) (s : State), s.mbFirst m 0x403 c → (s.link (fld c.img 16 0 8)).enable = false →
    completes (.linkConfigWrite m) s fun t =>
      s.answers t m c mbDone 0xFFFF 0 [] ∧ (t.link (fld c.img 16 0 8)).group = fld c.img 18 5 3 ∧
      (t.link (fld c.img 16 0 8)).dateline = flag c.img 18 4 ∧ (t.link (fld c.img 16 0 8)).enable = flag c.img 18 0 ∧
      (t.link (fld c.img 16 0 8)).state = (if flag c.img 18 0 then 1 else 6) ∧ t.fab.sent = s.fab.sent)

/-- A host read that it will not cache is answered with the line's bytes, or with poison; a read that finds no way of its set
asks the victim back and waits; a module in reset answers with poison. A host write stores its bytes in DRAM. BIRSP to a
back-invalidation frees the line and releases the oldest access that waits for it; HOST_BI_TIMEOUT counts and records a
TIMEOUT; a snoop of the host is answered at once. -/
def Obligations.HostMemory : Prop :=
  (∀ (a : Nat) (s : State), s.hdmReach a = true → s.life.state = .ready →
    (∀ w ∈ s.host.biWaits, w.hostRead ≠ some (a / 64, .uncached)) →
    completes (.hostMemRead a .uncached .clean) s fun t =>
      t = { s with host := { s.host with out := t.host.out } } ∧
      ((s.readPlace (.dram (a / 64 * 64)) 64).1 = stOk →
        t.host.out = s.host.out ++ [.memData (a / 64 * 64) (Mem.readBytes s.mem.dram (a / 64 * 64) 64)]) ∧
      ((s.readPlace (.dram (a / 64 * 64)) 64).1 ≠ stOk → t.host.out = s.host.out ++ [.memPoison (a / 64 * 64)])) ∧
  (∀ (a : Nat) (use : HostCacheUse) (dec : Decoded) (s : State), s.hdmReach a = true → s.life.state = .ready → use ≠ .uncached →
    (∀ w ∈ s.host.biWaits, w.hostRead ≠ some (a / 64, use)) → s.host.way? (a / 64) = none → s.host.freeWay (a / 64) = none →
    completes (.hostMemRead a use dec) s fun t =>
      t.host.out = s.host.out ++ [.biSnpInv (s.host.victim (a / 64))] ∧ t.host.sf = s.host.sf ∧
      ∃ w, t.host.biWaits = s.host.biWaits ++ [w] ∧ w.line = s.host.victim (a / 64) ∧ w.hostRead = some (a / 64, use)) ∧
  (∀ (a : Nat) (use : HostCacheUse) (w : Nat) (s : State), s.hdmReach a = true → s.life.state = .ready → use ≠ .uncached →
    (∀ w ∈ s.host.biWaits, w.hostRead ≠ some (a / 64, use)) → s.host.way? (a / 64) = none → s.host.freeWay (a / 64) = some w →
    completes (.hostMemRead a use .clean) s fun t =>
      Tbl.get? t.host.sf (sfSet (a / 64) * 16 + w) = some (a / 64, decide (use = .exclusive)) ∧ t.mem = s.mem) ∧
  (∀ (a : Nat) (use : HostCacheUse) (dec : Decoded) (s : State), s.hdmReach a = true → s.life.state = .moduleReset →
    completes (.hostMemRead a use dec) s fun t =>
      t.host.out = s.host.out ++ [.memPoison (a / 64 * 64)] ∧ t.host.memResets = satAdd32 s.host.memResets 1 ∧ t.mem = s.mem) ∧
  (∀ (a : Nat) (data : List Byte) (i : Nat) (s : State),
    Memory.wf s.mem.dram → data.length = 64 → a % 64 = 0 → s.hdmReach a = true → s.hdmReach (a + 63) = true → a < s.mem.map.size →
    s.life.state = .ready → s.chan (s.dramChannel a) ≠ .unbacked → i < 64 →
    completes (.hostMemWrite a data) s fun t =>
      Mem.read t.mem.dram (a + i) = data.getD i 0 ∧
      (∀ b, b < a ∨ a + 64 ≤ b → Mem.read t.mem.dram b = Mem.read s.mem.dram b) ∧
      t = { s with mem := { s.mem with dram := t.mem.dram, dramPoison := t.mem.dramPoison } }) ∧
  (∀ (line : Nat) (w : BiWait) (s : State), s.host.biWaits.find? (fun w => w.line == line) = some w → w.inv = true →
    completes (.birsp line) s fun t =>
      t.host.tracked line = none ∧ t.host.biWaits = s.host.biWaits.erase w ∧ t = { s with host := t.host }) ∧
  (∀ (line : Nat) (w : BiWait) (s : State),
    s.host.biWaits.find? (fun w => w.line == line && !w.expired) = some w → w.hostRead = none →
    completes (.hostBiTimeout line) s fun t =>
      s.recorded t (hubOf 0) clsTimeout ∧ t.host.biTimeouts = satAdd32 s.host.biTimeouts 1 ∧ t.host.sf = s.host.sf ∧
      { w with expired := true } ∈ t.host.biWaits) ∧
  (∀ (a : Nat) (s : State), s.hostUp = true → s.life.powered = true → s.life.frozen = false →
    completes (.h2dSnoop a) s fun t => t = { s with host := { s.host with out := s.host.out ++ [.rspIHitI a] } })

/-- PERST# takes the link down and resets the decoder, the snoop filter, the vectors and the mailboxes, whose commands go on
without completions. Training at x16, x8 or x4 brings the link up; another width takes it down. The decoder commits a range
that the module's DRAM holds and ignores one that it does not. IDE_KM programs and starts a key of a finished session;
unmasking a vector sends what is pending. An unsupported CXL mailbox opcode is refused. -/
def Obligations.HostLink : Prop :=
  (∀ (s : State),
    completes (.perst false) s fun t =>
      t.host.perst = true ∧ t.host.linkUp = false ∧ t.host.hdmCommitted = false ∧ t.host.sf = [] ∧ t.host.biWaits = [] ∧
      t.host.msixEnable = false ∧ t.host.vecPending = [] ∧ t.host.ideKeys = [] ∧ t.host.mem = s.host.mem ∧
      (∀ m, m < 33 → (t.mbox m).fin = [] ∧ (t.mbox m).busy = 0 ∧ (t.mbox m).cqHead = 0 ∧ (t.mbox m).cqTail = 0 ∧
        (t.mbox m).started = ((s.mbox m).started.map fun c => { c with discard := true }) ∧
        (t.mbox m).running = (s.mbox m).running.map fun c => { c with discard := true }) ∧
      t.mbox 33 = s.mbox 33 ∧ t.atolls = s.atolls ∧ t.parts = s.parts ∧ t.mem = s.mem) ∧
  (∀ (s : State), completes (.perst true) s fun t => t = { s with host := { s.host with perst := false } }) ∧
  (∀ (rate : HostRate) (width : Nat) (s : State), s.life.powered = true → s.life.frozen = false → s.host.perst = false →
    (s.region (30 * 16 + 2)).gone = false →
    completes (.hostLinkTraining rate width) s fun t =>
      (width = 16 ∨ width = 8 ∨ width = 4 → t = { s with host := { s.host with linkUp := true, rate := rate, width := width } }) ∧
      (width ≠ 16 → width ≠ 8 → width ≠ 4 → t = { s with host := { s.host with linkUp := false, width := 0 } })) ∧
  (∀ (base k ways gran : Nat) (s : State),
    s.host.linkUp = true → s.host.perst = false → s.host.hdmCommitted = false → ways ∈ [1, 2, 4, 8] →
    gran ∈ [256, 512, 1024, 2048, 4096, 8192, 16384] → 0 < k → base % 268435456 = 0 →
    completes (.hdmDecoderCommit true base (k * (ways * 268435456)) ways gran) s fun t =>
      (k ≤ s.mem.map.size / 268435456 → t.host.hdmCommitted = true ∧ t.host.hdmBase = base ∧
        t.host.hdmSize = k * (ways * 268435456) ∧ t.host.hdmWays = ways ∧ t.host.hdmGran = gran) ∧
      (s.mem.map.size / 268435456 < k → t = s)) ∧
  (∀ (base size ways gran : Nat) (s : State), s.host.linkUp = true → s.host.perst = false →
    completes (.hdmDecoderCommit false base size ways gran) s fun t =>
      t = { s with host := { s.host with hdmCommitted := false } }) ∧
  (∀ (op : Half) (payload : List Byte) (s : State),
    s.host.linkUp = true → s.host.perst = false → s.life.powered = true → s.life.frozen = false →
    completes (.cxlMailboxCommand op payload) s fun t =>
      (op.toNat ∉ cxlCommands → t = { s with host := { s.host with out := s.host.out ++ [.cxlMailbox 0x0015 []] } }) ∧
      (op.toNat ∈ cxlCommands → ∃ body, t.host.out = s.host.out ++ [.cxlMailbox 0 body])) ∧
  (∀ (x : SpdmSession) (slot : Byte) (key : BitVec 256) (s : State), s.hubRuns = true → x ∈ s.fw.sessions → x.finished = true →
    completes (.ideKm x.id (.keyProg slot key)) s fun t =>
      (x.id, slot.toNat, key) ∈ t.host.ideKeys ∧ (∀ k ∈ t.host.ideKeys, k.2.1 = slot.toNat → k = (x.id, slot.toNat, key)) ∧
      t.host.ideState = s.host.ideState) ∧
  (∀ (x : SpdmSession) (slot : Byte) (s : State), s.hubRuns = true → x ∈ s.fw.sessions → x.finished = true →
    (∃ k ∈ s.host.ideKeys, k.2.1 = slot.toNat) →
    completes (.ideKm x.id (.setGo slot)) s fun t =>
      Tbl.get? t.host.ideState slot.toNat = some 1 ∧ t.host.ideKeys = s.host.ideKeys) ∧
  (∀ (v : Fin 67) (s : State),
    s.host.linkUp = true → s.host.perst = false → s.host.msixEnable = true → s.host.msixMask = false → s.life.frozen = false →
    s.host.vecPending = [v.val] →
    completes (.msixVectorUnmask (some v)) s fun t =>
      v.val ∈ t.host.vecUnmasked ∧ t.host.vecPending = [] ∧ t.host.out = s.host.out ++ [.msix v])

/-- PARTITION_CREATE with resources free makes the partition with epoch 0 and no stream, and ends BUSY where it exists.
PARTITION_RESIZE of an idle partition outside a step takes the new height, banks and ranges, and ends BUSY in a step.
PARTITION_DESTROY is accepted and resets the partition. STREAM_OPEN of a closed stream opens it at `start`; STREAM_CLOSE
completes when no started command is left; STREAM_RESUME of a stopped stream goes on at its index. -/
def Obligations.Partitions : Prop :=
  (∀ (m : Fin 34) (c : MbCmd) (s : State),
    let p := mbPartition c.img
    let w := fld c.img 22 0 6 + 1
    let h := fld c.img 23 0 3 + 1
    s.mbFirst m 0x300 c → s.mbRoom m → s.part? p = none →
    s.resourcesTaken p (fld c.img 20 0 6) (fld c.img 21 0 3) w h (BitVec.ofNat 256 (fld c.img 32 0 256)) (payloadDram c.img) = false →
    s.sitesFor (w * h) = true →
    completes (.partitionCreate m) s fun t =>
      t.mbEnded m c mbDone ∧ ∃ x, t.part? p = some x ∧ x.jobTag = BitVec.ofNat 32 (fld c.img 16 0 32) ∧
        x.x0 = fld c.img 20 0 6 ∧ x.y0 = fld c.img 21 0 3 ∧ x.w = w ∧ x.h = h ∧ x.split = flag c.img 24 0 ∧
        x.staging = BitVec.ofNat 256 (fld c.img 32 0 256) ∧ x.dram = payloadDram c.img ∧ x.epoch = 0 ∧ x.streams = [] ∧
        x.inReset = false ∧ x.stepOpen = false) ∧
  (∀ (m : Fin 34) (c : MbCmd) (x : Part) (s : State), s.mbFirst m 0x300 c → s.part? (mbPartition c.img) = some x →
    completes (.partitionCreate m) s fun t => s.answers t m c mbBusy 0xFFFF 0 [] ∧ t = { s with mailboxes := t.mailboxes }) ∧
  (∀ (m : Fin 34) (c : MbCmd) (x : Part) (s : State),
    let p := mbPartition c.img
    let h := fld c.img 23 0 3 + 1
    let banks := BitVec.ofNat 256 (fld c.img 32 0 256)
    s.mbFirst m 0x301 c → s.mbRoom m → s.part? p = some x → x.inStep = false → x.idle = true →
    x.jobTag = BitVec.ofNat 32 (fld c.img 16 0 32) →
    s.resourcesTaken p x.x0 x.y0 x.w h (banks &&& ~~~x.staging) (payloadDram c.img) = false →
    s.sitesFor (x.w * h - x.w * x.h) = true →
    completes (.partitionResize m) s fun t =>
      t.mbEnded m c mbDone ∧ ∃ y, t.part? p = some y ∧ y.h = h ∧ y.w = x.w ∧ y.x0 = x.x0 ∧ y.y0 = x.y0 ∧ y.staging = banks ∧
        y.dram = payloadDram c.img ∧ y.jobTag = x.jobTag ∧ y.epoch = x.epoch) ∧
  (∀ (m : Fin 34) (c : MbCmd) (x : Part) (s : State), s.mbFirst m 0x301 c → s.part? (mbPartition c.img) = some x → x.inStep = true →
    completes (.partitionResize m) s fun t => s.answers t m c mbBusy 0xFFFF 0 [] ∧ t = { s with mailboxes := t.mailboxes }) ∧
  (∀ (m : Fin 34) (c : MbCmd) (x : Part) (s : State),
    s.mbFirst m 0x302 c → s.mbRoom m → s.part? (mbPartition c.img) = some x →
    completes (.partitionDestroy m) s fun t => t.mbTaken m c ∧ ∃ y, t.part? (mbPartition c.img) = some y ∧ y.inReset = true) ∧
  (∀ (m : Fin 34) (c : MbCmd) (x : Part) (s : State),
    let st := fld c.img 16 0 2
    s.mbFirst m 0x303 c → s.part? (mbPartition c.img) = some x → (x.stream st).open_ = false → flag c.img 17 0 = true →
    flag c.img 17 1 = true →
    completes (.streamOpen m) s fun t =>
      s.answers t m c mbDone 0xFFFF 0 [] ∧ t = { s with mailboxes := t.mailboxes, parts := t.parts } ∧
      ∃ y, t.part? (mbPartition c.img) = some y ∧ (y.stream st).open_ = true ∧ (y.stream st).stopped = false ∧
        (y.stream st).sizeLog2 = fld c.img 18 0 5 ∧ (y.stream st).ring.toNat = fld c.img 24 0 64 ∧
        (y.stream st).statusAddr.toNat = fld c.img 32 0 64 ∧ (y.stream st).fetched = fld c.img 40 0 32 ∧
        (y.stream st).done = fld c.img 40 0 32 ∧ (y.stream st).retired = fld c.img 40 0 32 ∧ (y.stream st).waiting = [] ∧
        (y.stream st).started = [] ∧ (y.stream st).statusDue = true ∧ ∀ u, u ≠ st → y.stream u = x.stream u) ∧
  (∀ (m : Fin 34) (c : MbCmd) (x : Part) (s : State),
    s.mbFirst m 0x303 c → s.part? (mbPartition c.img) = some x → (x.stream (fld c.img 16 0 2)).open_ = true →
    completes (.streamOpen m) s fun t => s.answers t m c mbBusy 0xFFFF 0 [] ∧ t = { s with mailboxes := t.mailboxes }) ∧
  (∀ (m : Fin 34) (c : MbCmd) (x : Part) (s : State),
    let st := fld c.img 16 0 2
    s.mbFirst m 0x304 c → s.mbRoom m → s.part? (mbPartition c.img) = some x → (x.stream st).open_ = true →
    ((s.mbOnPart (mbPartition c.img)).any fun e => e.2.accepted && mbOp e.2.img == 0x304 && fld e.2.img 16 0 2 == st) = false →
    (∀ d ∈ (s.mbox m).running, d.order ≠ c.order) →
    completes (.streamClose m) s fun t =>
      ((x.stream st).started = [] → t.mbEnded m c mbDone ∧
        ∃ y, t.part? (mbPartition c.img) = some y ∧ (y.stream st).open_ = false ∧ (y.stream st).statusDue = true) ∧
      ((x.stream st).started ≠ [] → t.mbTaken m c ∧
        ∃ y, t.part? (mbPartition c.img) = some y ∧ (y.stream st).open_ = true ∧ (y.stream st).closing = true ∧
          (y.stream st).started = (x.stream st).started)) ∧
  (∀ (m : Fin 34) (c : MbCmd) (x : Part) (s : State),
    let st := fld c.img 16 0 2
    s.mbFirst m 0x305 c → s.part? (mbPartition c.img) = some x → (x.stream st).open_ = true → (x.stream st).stopped = true →
    (x.stream st).closing = false →
    completes (.streamResume m) s fun t =>
      s.answers t m c mbDone 0xFFFF 0 [] ∧ t = { s with mailboxes := t.mailboxes, parts := t.parts } ∧
      ∃ y, t.part? (mbPartition c.img) = some y ∧ (y.stream st).stopped = false ∧ (y.stream st).fetched = fld c.img 20 0 32 ∧
        (y.stream st).done = fld c.img 20 0 32 ∧ (y.stream st).status = 0 ∧ (y.stream st).causeKind = 0 ∧
        (y.stream st).started = (x.stream st).started) ∧
  (∀ (m : Fin 34) (c : MbCmd) (x : Part) (s : State),
    s.mbFirst m 0x305 c → s.part? (mbPartition c.img) = some x → (x.stream (fld c.img 16 0 2)).stopped = false →
    completes (.streamResume m) s fun t => s.answers t m c mbNoResource 0xFFFF 0 [] ∧ t = { s with mailboxes := t.mailboxes })

/-- DIRECTORY_WRITE of one entry that is not in the catalogue region stores it; RECORD_WRITE and LIST_WRITE store theirs, and a
record of another partition ends BUSY. A write that a reconfiguration in progress names waits, and CATALOGUE_WRITE_RELEASE
applies it once none does. SYNC_ALLOC takes a free run of objects with counts 0, SYNC_FREE gives owned ones back; SYNC_FREE
of others ends NO_RESOURCE. -/
def Obligations.Catalogue : Prop :=
  (∀ (m : Fin 34) (c : MbCmd) (x : Part) (s : State),
    let p := mbPartition c.img
    let e := dirEntry c.img 0
    s.mbFirst m 0x306 c → s.part? p = some x → s.mem.catWaiting = [] → s.catHeld c.img = false → fld c.img 18 0 8 = 1 →
    fld e 0 0 2 ≠ 2 →
    fld (Tbl.getD s.mem.directory (fld c.img 16 0 16) 0) 0 0 2 = 0 ∨ fld (Tbl.getD s.mem.directory (fld c.img 16 0 16) 0) 1 0 5 = p →
    completes (.directoryWrite m none) s fun t =>
      s.answers t m c mbDone 0xFFFF 0 [] ∧ Tbl.get? t.mem.directory (fld c.img 16 0 16) = some e ∧
      (∀ n, n ≠ fld c.img 16 0 16 → Tbl.get? t.mem.directory n = Tbl.get? s.mem.directory n) ∧
      t = { s with mailboxes := t.mailboxes, mem := { s.mem with directory := t.mem.directory } }) ∧
  (∀ (m : Fin 34) (c : MbCmd) (x : Part) (s : State),
    let p := mbPartition c.img
    let r := BitVec.ofNat 512 (fld c.img 24 0 512)
    s.mbFirst m 0x307 c → s.part? p = some x → s.mem.catWaiting = [] → s.catHeld c.img = false →
    flag (Tbl.getD s.mem.records (fld c.img 16 0 16) 0) 0 0 = false ∨ fld (Tbl.getD s.mem.records (fld c.img 16 0 16) 0) 3 0 5 = p →
    (∀ l, recordList r = some l → (s.foreignLists p).any (rangeMeets l) = false) →
    completes (.recordWrite m) s fun t =>
      s.answers t m c mbDone 0xFFFF 0 [] ∧ Tbl.get? t.mem.records (fld c.img 16 0 16) = some r ∧
      t = { s with mailboxes := t.mailboxes, mem := { s.mem with records := t.mem.records } }) ∧
  (∀ (m : Fin 34) (c : MbCmd) (x : Part) (s : State),
    s.mbFirst m 0x307 c → s.part? (mbPartition c.img) = some x → s.mem.catWaiting = [] → s.catHeld c.img = false →
    flag (Tbl.getD s.mem.records (fld c.img 16 0 16) 0) 0 0 = true →
    fld (Tbl.getD s.mem.records (fld c.img 16 0 16) 0) 3 0 5 ≠ mbPartition c.img →
    completes (.recordWrite m) s fun t => s.answers t m c mbBusy 0xFFFF 0 [] ∧ t.mem = s.mem) ∧
  (∀ (m : Fin 34) (c : MbCmd) (x : Part) (s : State),
    s.mbFirst m 0x307 c → s.part? (mbPartition c.img) = some x → s.mem.catWaiting = [] → s.catHeld c.img = true →
    completes (.recordWrite m) s fun t => t = { s with mem := { s.mem with catWaiting := [(m.val, c)] } }) ∧
  (∀ (m : Fin 34) (c : MbCmd) (x : Part) (k : Nat) (s : State),
    let p := mbPartition c.img
    s.mbFirst m 0x308 c → s.part? p = some x → s.mem.catWaiting = [] → s.catHeld c.img = false →
    (s.foreignLists p).any (rangeMeets (fld c.img 16 0 32, fld c.img 20 0 8)) = false → k < fld c.img 20 0 8 →
    completes (.listWrite m) s fun t =>
      s.answers t m c mbDone 0xFFFF 0 [] ∧
      Tbl.get? t.mem.listMem (fld c.img 16 0 32 + k) = some (BitVec.ofNat 32 (fld c.img (24 + 4 * k) 0 32)) ∧
      (∀ n, n < fld c.img 16 0 32 ∨ fld c.img 16 0 32 + fld c.img 20 0 8 ≤ n →
        Tbl.get? t.mem.listMem n = Tbl.get? s.mem.listMem n) ∧
      t = { s with mailboxes := t.mailboxes, mem := { s.mem with listMem := t.mem.listMem } }) ∧
  (∀ (m : Nat) (c : MbCmd) (rest : List (Nat × MbCmd)) (x : Part) (s : State),
    let r := BitVec.ofNat 512 (fld c.img 24 0 512)
    s.hubRuns = true → s.mem.catWaiting = (m, c) :: rest → s.catHeld c.img = false → mbOp c.img = 0x307 →
    s.part? (mbPartition c.img) = some x →
    flag (Tbl.getD s.mem.records (fld c.img 16 0 16) 0) 0 0 = false → recordList r = none →
    completes .catalogueWriteRelease s fun t =>
      s.answers t m c mbDone 0xFFFF 0 [] ∧ Tbl.get? t.mem.records (fld c.img 16 0 16) = some r ∧
      t.mem.catWaiting = rest.filter fun e => !(e.1 == m && e.2.order == c.order)) ∧
  (∀ (m : Fin 34) (c : MbCmd) (x : Part) (k : Nat) (s : State),
    let o := fld c.img 16 0 16
    let n := fld c.img 18 0 16
    s.mbFirst m 0x30C c → s.part? (mbPartition c.img) = some x → o ≠ 0xFFFF → o + n ≤ 8192 →
    (∀ i, i < n → Tbl.get? s.mem.objOwner (o + i) = none) → k < n →
    completes (.syncAlloc m) s fun t =>
      s.answers t m c mbDone 0xFFFF o [] ∧ Tbl.get? t.mem.objOwner (o + k) = some (mbPartition c.img) ∧ t.modObj (o + k) = 0 ∧
      t = { s with mailboxes := t.mailboxes, mem := { s.mem with objOwner := t.mem.objOwner, modObjs := t.mem.modObjs } }) ∧
  (∀ (m : Fin 34) (c : MbCmd) (x : Part) (k : Nat) (s : State),
    let o := fld c.img 16 0 16
    let n := fld c.img 18 0 16
    s.mbFirst m 0x30D c → s.part? (mbPartition c.img) = some x → s.mem.modWaits = [] →
    (∀ i, i < n → Tbl.get? s.mem.objOwner (o + i) = some (mbPartition c.img)) → k < n →
    completes (.syncFree m) s fun t =>
      s.answers t m c mbDone 0xFFFF 0 [] ∧ Tbl.get? t.mem.objOwner (o + k) = none ∧ t.modObj (o + k) = 0 ∧ t.atolls = s.atolls) ∧
  (∀ (m : Fin 34) (c : MbCmd) (x : Part) (k : Nat) (s : State),
    s.mbFirst m 0x30D c → s.part? (mbPartition c.img) = some x → k < fld c.img 18 0 16 →
    Tbl.get? s.mem.objOwner (fld c.img 16 0 16 + k) ≠ some (mbPartition c.img) →
    completes (.syncFree m) s fun t => s.answers t m c mbNoResource 0xFFFF 0 [] ∧ t = { s with mailboxes := t.mailboxes })

/-- STREAM_FETCH and STREAM_POLL of a ring in host memory take a valid entry as the next command and leave the stream as it is
at an invalid one; a read that fails stops the stream with TIMEOUT. STREAM_STATUS_WRITE writes a due status line.
STREAM_COMMAND_START stops the stream at an opcode that no row has (BAD_OPCODE) or a field that fails, and posts a memory
command to a stream unit. -/
def Obligations.StreamFetching : Prop :=
  (∀ (p : Fin 32) (st : Fin 4) (x : Part) (bs : List Byte) (i : Instr) (s : State),
    i = .streamFetch p st true ∨ i = .streamPoll p st true →
    s.part? p = some x → (x.stream st).open_ = true → (x.stream st).stopped = false → (x.stream st).closing = false →
    s.streamsRun x = true → (x.stream st).ringHost = true →
    s.hostGet ((x.stream st).ring.toNat + 64 * ((x.stream st).fetched % 2 ^ (x.stream st).sizeLog2)) 64 = some bs →
    completes i s fun t => t = { s with parts := t.parts } ∧ ∃ y, t.part? p = some y ∧
      (flag (BitVec.ofNat 512 (leNat bs)) 1 7 = ringPhase (x.stream st).sizeLog2 (x.stream st).fetched →
        (y.stream st).fetched = ((x.stream st).fetched + 1) % 2 ^ 32 ∧ ∃ c, (y.stream st).waiting = (x.stream st).waiting ++ [c] ∧
          c.idx = (x.stream st).fetched ∧ c.img = BitVec.ofNat 512 (leNat bs)) ∧
      (flag (BitVec.ofNat 512 (leNat bs)) 1 7 ≠ ringPhase (x.stream st).sizeLog2 (x.stream st).fetched → y.stream st = x.stream st) ∧
      ∀ u, u ≠ st.val → y.stream u = x.stream u) ∧
  (∀ (p : Fin 32) (st : Fin 4) (x : Part) (i : Instr) (s : State),
    i = .streamFetch p st false ∨ i = .streamPoll p st false →
    s.part? p = some x → (x.stream st).open_ = true → (x.stream st).stopped = false → (x.stream st).closing = false →
    s.streamsRun x = true → (x.stream st).ringHost = true →
    completes i s fun t => ∃ y, t.part? p = some y ∧ (y.stream st).stopped = true ∧
      (y.stream st).status = BitVec.ofNat 16 mbTimeout ∧ (y.stream st).causeKind = 4 ∧
      (y.stream st).stoppedAt = (x.stream st).fetched ∧ (y.stream st).started = (x.stream st).started) ∧
  (∀ (p : Fin 32) (st : Fin 4) (x : Part) (s : State),
    s.part? p = some x → (x.stream st).statusDue = true → s.running = true → s.life.failingHub = false →
    (x.stream st).statusHost = true → s.hostUp = true → Memory.wf s.host.mem →
    completes (.streamStatusWrite p st) s fun t =>
      Mem.readBytes t.host.mem (x.stream st).statusAddr.toNat 64 = s.statusLine x (x.stream st) ∧
      ∃ y, t.part? p = some y ∧ y.stream st = { x.stream st with statusDue := false }) ∧
  (∀ (p : Fin 32) (st : Fin 4) (x : Part) (c : SCmd) (s : State),
    s.part? p = some x → s.streamsRun x = true → (x.stream st).open_ = true → (x.stream st).stopped = false →
    (x.stream st).closing = false → (x.stream st).waiting.head? = some c → streamOpcode c.op = false →
    completes (.streamCommandStart p st) s fun t => t.cmdStopped p st c mbBadOpcode 1 ∧ t.atolls = s.atolls ∧ t.mem = s.mem) ∧
  (∀ (p : Fin 32) (st : Fin 4) (x : Part) (c : SCmd) (k : Chk) (s : State),
    s.part? p = some x → s.streamsRun x = true → (x.stream st).open_ = true → (x.stream st).stopped = false →
    (x.stream st).closing = false → (x.stream st).waiting.head? = some c → streamOpcode c.op = true →
    firstBad c.body.toNat (c.checks p st) = some k →
    completes (.streamCommandStart p st) s fun t =>
      t.cmdStopped p st c (if k.range then mbOutOfRange else mbBadField) 1 ∧ t.atolls = s.atolls ∧ t.mem = s.mem) ∧
  (∀ (p : Fin 32) (st : Fin 4) (x : Part) (c : SCmd) (h u : Nat) (s : State),
    s.nextCmd p st x c → memOpcode c.op = true → s.unitForStream = some (h, u) →
    completes (.streamCommandStart p st) s fun t =>
      t.cmdRuns p st x c ∧ ∃ q, (t.sunit h u).queue = (s.sunit h u).queue ++ [q] ∧ q.img = c.body ∧ q.src = .stream p st c.idx ∧
        q.part = p.val)

/-- STEP_BEGIN records the step-start state and opens the step, and stops its stream where one is open. STEP_COMMIT closes the
step it names. RECONFIGURE and CATALOGUE_SWITCH of valid pairs join the reconfigurations in progress, and stop the stream at
a pair that is not. TILE_BATCH issues its operation; BARRIER completes once no named command is left. SYNC arms, signals and
waits; UPDATE_PARAM writes its slot; FENCE_QUERY and MARKER write their records. -/
def Obligations.StreamCommands : Prop :=
  (∀ (p : Fin 32) (st : Fin 4) (x : Part) (c : SCmd) (s : State),
    s.nextCmd p st x c → c.op = 0x80 → x.stepOpen = false →
    completes (.stepBegin p st) s fun t => t.cmdDone p st x c ∧ ∃ y, t.part? p = some y ∧ y.stepOpen = true ∧
      y.replaying = false ∧ y.step.toNat = fld c.img 4 0 32 ∧ y.seed.toNat = fld c.img 8 0 64 ∧
      y.start = some (s.stepStart p x) ∧ y.split = if fld c.img 2 0 2 = 0 then x.split else decide (fld c.img 2 0 2 = 2)) ∧
  (∀ (p : Fin 32) (st : Fin 4) (x : Part) (c : SCmd) (s : State),
    s.nextCmd p st x c → c.op = 0x80 → x.stepOpen = true →
    completes (.stepBegin p st) s fun t => t.cmdStopped p st c mbNoResource 1 ∧ ∃ y, t.part? p = some y ∧ y.step = x.step) ∧
  (∀ (p : Fin 32) (st : Fin 4) (x : Part) (c : SCmd) (s : State),
    s.nextCmd p st x c → c.op = 0x81 → x.stepOpen = true → x.step.toNat = fld c.img 4 0 32 →
    completes (.stepCommit p st) s fun t => t.cmdDone p st x c ∧ ∃ y, t.part? p = some y ∧ y.stepOpen = false ∧ y.start = none ∧
      y.commitStep = x.step ∧ (y.stream st).retired = (y.stream st).done ∧
      ∀ k ∈ t.coll.list, k.part = p.val → k.key.step ≠ x.step) ∧
  (∀ (p : Fin 32) (st : Fin 4) (x : Part) (c : SCmd) (s : State),
    s.nextCmd p st x c → c.op = 0x82 →
    completes (.reconfigure p st) s fun t =>
      (s.pairsBad p x [(fld c.img 3 0 8, fld c.img 4 0 14)] = none → t.cmdRuns p st x c ∧
        ∃ r, t.reconfs = s.reconfs ++ [r] ∧ r.part = p.val ∧ r.idx = c.idx ∧ r.flush = flag c.img 2 0 ∧ r.barrier = false ∧
          r.pairs.map (fun e => (e.1, e.2.1)) = [(fld c.img 3 0 8, fld c.img 4 0 14)]) ∧
      (s.pairsBad p x [(fld c.img 3 0 8, fld c.img 4 0 14)] ≠ none →
        t.cmdStopped p st c mbBadField 1 ∧ t.reconfs = s.reconfs)) ∧
  (∀ (p : Fin 32) (st : Fin 4) (x : Part) (c : SCmd) (s : State),
    let r := Tbl.getD s.mem.records (fld c.img 4 0 14) 0
    s.nextCmd p st x c → c.op = 0x83 →
    completes (.catalogueSwitch p st) s fun t =>
      (flag r 0 0 = true → fld r 3 0 5 = p.val → s.pairsBad p x (s.recordPairs r) = none → t.cmdRuns p st x c ∧
        ∃ k, t.reconfs = s.reconfs ++ [k] ∧ k.part = p.val ∧ k.record.toNat = fld c.img 4 0 14 ∧ k.barrier = flag r 0 2 ∧
          k.pairs.map (fun e => (e.1, e.2.1)) = s.recordPairs r) ∧
      (flag r 0 0 = false ∨ fld r 3 0 5 ≠ p.val → t.cmdStopped p st c mbBadField 1 ∧ t.reconfs = s.reconfs)) ∧
  (∀ (p : Fin 32) (st : Fin 4) (x : Part) (c : SCmd) (g e k : Nat) (bs : List Byte) (s : State),
    s.nextCmd p st x c → c.op = 0x84 → fld c.img 4 0 12 = 0 → Tbl.get? x.posAtoll (fld c.img 3 0 8) = some g →
    (s.atoll g).inReset = false → s.unitRuns g = true → s.hostClear → s.readMem (some p) (fld c.img 8 0 40) 64 = (s, stOk, k, bs) →
    s.engineFor g (fld c.img 2 0 2) = some e → ((s.atoll g).engine e).queue.length < 4 → (x.stream st).started = [] →
    completes (.tileBatch p st) s fun t => t.cmdRuns p st x c ∧
      ∃ o, ((t.atoll g).engine e).queue = ((s.atoll g).engine e).queue ++ [o] ∧
        o.desc = BitVec.ofNat 512 (leNat (bs.take 64)) ∧ o.src = .batch p st c.idx 0 ∧ o.replayed = false) ∧
  (∀ (p : Fin 32) (st : Fin 4) (x : Part) (c : SCmd) (s : State),
    s.nextCmd p st x c → c.op = 0x85 → x.idle = true →
    completes (.barrier p st) s fun t => t.cmdDone p st x c) ∧
  (∀ (p : Fin 32) (st : Fin 4) (x : Part) (c d : SCmd) (u : Fin 4) (s : State),
    s.nextCmd p st x c → c.op = 0x85 → fld c.img 2 u 1 = 1 → d ∈ (x.stream u).started → s.mem.modWaits = [] →
    completes (.barrier p st) s fun t => t.cmdRuns p st x c) ∧
  (∀ (p : Fin 32) (st : Fin 4) (x : Part) (c : SCmd) (s : State),
    s.nextCmd p st x c → c.op = 0x86 → fld c.img 2 0 2 = 0 → flag c.img 1 0 = false → s.mem.modWaits = [] →
    completes (.streamSyncArm p st) s fun t => t.cmdDone p st x c ∧
      t.modObj (fld c.img 8 0 13) = BitVec.ofNat 32 (fld c.img 4 0 32) ∧ t.atolls = s.atolls) ∧
  (∀ (p : Fin 32) (st : Fin 4) (x : Part) (c : SCmd) (s : State),
    s.nextCmd p st x c → c.op = 0x86 → fld c.img 2 0 2 = 1 → fld c.img 15 6 2 = 2 → flag c.img 1 0 = false →
    s.mem.modWaits = [] →
    completes (.streamSyncSignal p st) s fun t => t.cmdDone p st x c ∧
      t.modObj (fld c.img 8 0 13) = satAdd32 (s.modObj (fld c.img 8 0 13)) (fld c.img 4 0 16) ∧ t.atolls = s.atolls) ∧
  (∀ (p : Fin 32) (st : Fin 4) (x : Part) (c : SCmd) (s : State),
    s.nextCmd p st x c → c.op = 0x86 → fld c.img 2 0 2 = 2 → s.mem.modWaits = [] → 0 < s.pparam p 0x0501 →
    completes (.streamSyncWait p st) s fun t =>
      (fld c.img 4 0 32 ≤ (s.modObj (fld c.img 8 0 13)).toNat → t.cmdDone p st x c) ∧
      ((s.modObj (fld c.img 8 0 13)).toNat < fld c.img 4 0 32 → t.cmdRuns p st x c ∧
        ∃ w, t.mem.modWaits = [w] ∧ w.obj = fld c.img 8 0 13 ∧ w.target.toNat = fld c.img 4 0 32 ∧ w.who = .stream p st c.idx)) ∧
  (∀ (p : Fin 32) (st : Fin 4) (x : Part) (c : SCmd) (s : State),
    s.nextCmd p st x c → c.op = 0x87 →
    completes (.updateParam p st) s fun t => t.cmdDone p st x c ∧ ∃ y, t.part? p = some y ∧
      Tbl.get? y.updSlots (fld c.img 2 0 4) = some (BitVec.ofNat 384 (fld c.img 8 0 384)) ∧
      ∀ k, k ≠ fld c.img 2 0 4 → Tbl.get? y.updSlots k = Tbl.get? x.updSlots k) ∧
  (∀ (p : Fin 32) (st : Fin 4) (x : Part) (c : SCmd) (s : State),
    s.nextCmd p st x c → c.op = 0x89 → flag c.img 2 0 = true → s.hostUp = true → Memory.wf s.host.mem →
    completes (.fenceQuery p st) s fun t => t.cmdDone p st x c ∧
      Mem.readBytes t.host.mem (fld c.img 8 0 64) 64 = packBytes 64 [(0, s.flt.fenceGen.toNat), (4, s.healthyCount),
        (6, s.activeCount), (8, (x.stream st).moved.toNat), (40, s.count.toNat)] ∧
      ∃ y, t.part? p = some y ∧ (y.stream st).moved = 0) ∧
  (∀ (p : Fin 32) (st : Fin 4) (x : Part) (c : SCmd) (s : State),
    s.nextCmd p st x c → c.op = 0x8A → flag c.img 2 0 = true → s.hostUp = true → Memory.wf s.host.mem →
    completes (.marker p st) s fun t => t.cmdDone p st x c ∧
      Mem.readBytes t.host.mem (fld c.img 8 0 64) 64 = packBytes 64 [(0, fld c.img 16 0 64), (8, s.count.toNat),
        (16, (if x.stepOpen then x.step else x.commitStep).toNat), (20, c.idx)])

/-- POWER_ON starts the local count and a new boot; the module goes on with bring-up where a hub is usable, else to recovery
holding or to nothing. INPUT_UNDERVOLTAGE leaves the stores alone; INPUT_OVERVOLTAGE and THERMAL_TRIP latch off.
MODULE_RESET clears partitions and atolls and keeps DRAM; the reset pin begins one, or holds it during a timeline, and its
rise starts the timeline; a cold reset request switches off. -/
def Obligations.PowerAndReset : Prop :=
  (∀ (b : BringUp) (s : State), s.life.state = .off → s.mgmt.modResetLow = false →
    completes (.powerOn b) s fun t =>
      t.life.powered = true ∧ t.count = 0 ∧ t.flt.boot = s.flt.boot + 1 ∧ t.life.strap = b.strap ∧ t.life.tests = some b ∧
      t.atolls = [] ∧ t.parts = [] ∧ t.mailboxes = [] ∧ t.host.mem = s.host.mem ∧
      (t.life.usable ≠ 0 → t.life.state = .bringup) ∧
      (t.life.usable = 0 → t.life.state = .recovery ∨ t.life.state = .noProcessor)) ∧
  (∀ (b : BringUp) (s : State), s.life.state = .off → s.mgmt.modResetLow = true →
    completes (.powerOn b) s fun t =>
      t.life.powered = true ∧ t.life.state = .bringup ∧ t.life.tests = none ∧ t.count = 0 ∧ t.flt.boot = s.flt.boot + 1) ∧
  (∀ (s : State), completes .inputUndervoltage s fun t =>
      t.life = LifeSt.reset ∧ t.parts = [] ∧ t.atolls = [] ∧ t.mem = MemSt.reset ∧ t.mailboxes = [] ∧
      t.flt.fenceMap = s.flt.fenceMap ∧ t.flt.boot = s.flt.boot ∧ t.flt.log = [] ∧ t.fw.hubs = s.fw.hubs ∧
      t.host.mem = s.host.mem ∧ t.power.setpoint = s.power.setpoint ∧ t.power.ceiling = s.power.ceiling) ∧
  (∀ (s : State), s.life.state ≠ .off → s.life.state ≠ .tripped →
    completes .inputOvervoltage s fun t =>
      t.life.state = .tripped ∧ t.life.powered = false ∧ t.power.trip = some 1 ∧ t.parts = [] ∧ t.flt.fenceMap = s.flt.fenceMap) ∧
  (∀ (s : State), s.life.powered = true → (∃ e ∈ s.power.temp, 920 ≤ e.2.toInt) →
    completes .thermalTrip s fun t =>
      t.life.state = .tripped ∧ t.life.powered = false ∧ t.power.trip = some 0 ∧ t.flt.fenceMap = s.flt.fenceMap) ∧
  (∀ (b : BringUp) (counted : Bool) (since : DWord) (s : State),
    s.flt.resetPending = some (counted, since) → s.life.powered = true → s.life.state = .ready → s.life.frozen = false →
    s.flt.fatal = false → s.flt.dump = none → s.mgmt.modResetLow = false →
    completes (.moduleReset b) s fun t =>
      t.parts = [] ∧ t.atolls = [] ∧ t.mailboxes = [] ∧ t.reconfs = [] ∧ t.flt.resetPending = none ∧ t.mem.dram = s.mem.dram ∧
      t.mem.map = s.mem.map ∧ t.flt.log = s.flt.log ∧ t.life.tests = some b ∧ t.life.powered = true ∧
      (t.life.usable ≠ 0 → t.life.state = .moduleReset) ∧
      t.flt.moduleResets = s.flt.moduleResets ++ (if counted then [s.count] else [])) ∧
  (∀ (s : State), s.mgmt.modResetLow = false → s.life.powered = true →
    completes .modResetNFall s fun t => t.mgmt.modResetLow = true ∧
      (s.life.state = .ready → t.life.state = .moduleReset ∧ t.parts = [] ∧ t.atolls = [] ∧ t.mem.dram = s.mem.dram) ∧
      (s.life.state = .bringup → s.life.frozen = false →
        t.mgmt.resetHeld = true ∧ t.life = s.life ∧ t.parts = s.parts ∧ t.atolls = s.atolls)) ∧
  (∀ (b : BringUp) (s : State), s.life.state = .moduleReset → s.life.frozen = false → s.life.tests = none →
    completes (.modResetNRise b) s fun t =>
      t.mgmt.modResetLow = false ∧ t.life.tests = some b ∧ (t.life.usable ≠ 0 → t.life.state = .moduleReset) ∧
      t.life.powered = s.life.powered) ∧
  (∀ (b : BringUp) (s : State), s.life.state = .stopped → s.life.powered = false →
    completes (.modResetNRise b) s fun t =>
      t.mgmt.modResetLow = false ∧ t.life.powered = true ∧ t.life.tests = some b ∧ t.count = 0 ∧ t.life.strap = b.strap) ∧
  (∀ (s : State), s.mgmt.modResetLow = true → s.life.state ≠ .off →
    completes .coldResetRequest s fun t =>
      t.life.state = .stopped ∧ t.life.powered = false ∧ t.parts = [] ∧ t.flt.fenceMap = s.flt.fenceMap ∧ t.power.trip = s.power.trip)

/-- BRINGUP_STATE_DECISION ends the timeline in ready, holding or out of service by Table 14-5 and posts the state change. A
good last block with its seal starts a core; a bad block is asked for again, and the fourth failure gives the core up.
STANDBY_IMAGE_SYNC boots the active hub's image on the other hub. SEAL_KEY_LOAD takes a key only from a hub whose role latch
is set. -/
def Obligations.BringUpEnds : Prop :=
  (∀ (b : BringUp) (s : State),
    s.life.tests = some b → s.life.state = .bringup ∨ s.life.state = .moduleReset → s.life.frozen = false → s.ticks = true →
    s.mgmt.resetHeld = false → (∀ e ∈ b.failingUnits, uKind e.1 ≠ 14) →
    completes .bringupStateDecision s fun t =>
      t.life.tests = none ∧
      t.life.state = (if s.flt.outOfService then .outOfService else if t.holds b then .holding else .ready) ∧
      t.flt.hbWord = t.heartbeat ∧ ∃ e, t.events.getLast? = some e ∧ e.type = 4 ∧ e.content = leBytes 8 t.heartbeat.toNat) ∧
  (∀ (core : FwCore) (sealOk : Bool) (x : FwCoreSt) (s : State),
    s.life.state = .bringup → s.life.frozen = false → s.life.tests.isSome = true →
    Tbl.getD s.fw.cores (fwCoreNum core) { blocks := 0, asks := 0, running := false, failed := false } = x → x.running = false →
    x.failed = false →
    completes (.firmwareBlockReceive core true true sealOk) s fun t =>
      t = { s with fw := { s.fw with cores := t.fw.cores } } ∧ ∃ y, Tbl.get? t.fw.cores (fwCoreNum core) = some y ∧
        y.running = sealOk ∧ y.failed = !sealOk ∧ y.blocks = x.blocks + 1) ∧
  (∀ (core : FwCore) (last sealOk : Bool) (x : FwCoreSt) (s : State),
    s.life.state = .bringup → s.life.frozen = false → s.life.tests.isSome = true →
    Tbl.getD s.fw.cores (fwCoreNum core) { blocks := 0, asks := 0, running := false, failed := false } = x → x.running = false →
    x.failed = false →
    completes (.firmwareBlockReceive core last false sealOk) s fun t =>
      ∃ y, Tbl.get? t.fw.cores (fwCoreNum core) = some y ∧ y.running = false ∧ y.asks = x.asks + 1 ∧ y.blocks = x.blocks ∧
        y.failed = decide (3 ≤ x.asks)) ∧
  (∀ (i : FwInfo) (s : State),
    let b := 1 - s.life.activeHub
    s.hubRuns = true → s.life.usable = 3 → s.life.standby = false → s.fw.activation = none → s.life.activeHub < 2 →
    (s.fwHub s.life.activeHub).running.version ≠ (s.fwHub b).running.version → (s.fwHub b).booted < 2 →
    ((s.fwHub s.life.activeHub).slot (s.fwHub s.life.activeHub).booted).info = some i → (s.fwHub b).floor ≤ i.security →
    i.version = (s.fwHub s.life.activeHub).running.version →
    completes .standbyImageSync s fun t =>
      (t.fwHub b).running = i ∧ (t.fwHub b).booted = 1 - (s.fwHub b).booted ∧ t.life.standby = true ∧
      t.fwHub s.life.activeHub = s.fwHub s.life.activeHub) ∧
  (∀ (core : FwCore) (h : Fin 2) (key : BitVec 256) (s : State), s.life.powered = true → s.life.frozen = false →
    completes (.sealKeyLoad core ⟨30 + h.val, by omega⟩ true key) s fun t =>
      (s.fw.role.getLsbD h = true → t = { s with fw := { s.fw with sealKeys := t.fw.sealKeys } } ∧
        Tbl.get? t.fw.sealKeys (fwCoreNum core) = some key) ∧
      (s.fw.role.getLsbD h = false → t = s))

/-- PHASE_LOSS fences the phase and records PHASE_LOSS; a logic region short of phases goes dark with its sites fenced.
REGION_CURRENT_DERATE lowers the ceiling of a region over 6.0 A. LEDGER_REQUEST queues a raise and takes a lower step at
once; LEDGER_GRANT starts the ramp of the head of the queue, LEDGER_NEIGHBOUR_WAIT caps the neighbours that hold it up;
RAMP_STAGE advances a ramp and ends it. INPUT_POWER_CHECK applies or reverses a duty stage. -/
def Obligations.PowerDelivery : Prop :=
  (∀ (node : Fin 32) (r : Fin 13) (phase : Fin 9) (s : State),
    let key := node.val * 16 + r.val
    let lost := Tbl.getD s.power.lost key 0 ||| BitVec.ofNat 9 (2 ^ phase.val)
    s.life.powered = true → phase.val < (phasesOf key).1 → (Tbl.getD s.power.lost key 0).getLsbD phase = false →
    ¬(r.val = 2 ∧ node.val = 30) →
    completes (.phaseLoss node r phase) s fun t =>
      Tbl.get? t.power.lost key = some lost ∧ t.isFenced (phaseUnit key phase) = true ∧
      ((phasesOf key).2 ≤ ((List.range (phasesOf key).1).countP fun k => !lost.getLsbD k) →
        s.recorded t (phaseUnit key phase) clsPhase ∧ t.power.state = s.power.state) ∧
      (((List.range (phasesOf key).1).countP fun k => !lost.getLsbD k) < (phasesOf key).2 → (s.region key).powered = true →
        keyLogic key = true → t.region key = .dark ∧ ∀ g ∈ regionSites node r, t.isFenced (siteUnit g) = true)) ∧
  (∀ (d : Fin 8) (r : Fin 10) (ma : Half) (s : State),
    let key := d.val * 16 + r.val
    (s.region key).powered = true → Tbl.getD s.power.lost key 0 ≠ 0 → 6000 < ma.toNat →
    completes (.regionCurrentDerate d r ma) s fun t =>
      Tbl.get? t.power.ceiling key = some (min 3 (Tbl.getD s.power.ceiling key 0 + 1)) ∧
      t = { s with power := { s.power with ceiling := t.power.ceiling, current := t.power.current } }) ∧
  (∀ (node : Fin 32) (r : Fin 13) (s : State),
    let key := node.val * 16 + r.val
    s.life.powered = true → (phasesOf key).1 ≠ 0 → s.region key = .off → s.life.frozen = false →
    .region key 0 ∉ s.power.queue →
    completes (.ledgerRequest node r .on) s fun t =>
      t.power.queue = s.power.queue ++ [.region key 0] ∧ t.region key = .waiting ∧
      t = { s with power := { s.power with queue := t.power.queue, state := t.power.state } }) ∧
  (∀ (node : Fin 32) (r : Fin 13) (level : Fin 4) (s : State),
    let key := node.val * 16 + r.val
    s.life.powered = true → (phasesOf key).1 ≠ 0 → s.life.frozen = false → keyLogic key = true → (s.region key).powered = true →
    completes (.ledgerRequest node r (.step level)) s fun t =>
      (Tbl.getD s.power.granted key 0 ≤ level.val → Tbl.get? t.power.granted key = some level.val ∧ t.power.queue = s.power.queue) ∧
      (level.val < Tbl.getD s.power.granted key 0 → .region key level.val ∈ t.power.queue ∧ t.power.granted = s.power.granted)) ∧
  (∀ (k st step : Nat) (rest : List LedgerReq) (s : State),
    s.power.queue = .region k st :: rest → s.life.powered = true → s.life.frozen = false →
    s.power.ramping.length < s.param 0x0F03 → s.fits (.region k st) = some step → (∀ n ∈ edgeAdjacent k, s.drawsHigh n = false) →
    completes .ledgerGrant s fun t =>
      t.power.queue = rest ∧ t.region k = .ramping ∧ Tbl.get? t.power.granted k = some step ∧
      (k, if (s.region k).powered then 4 else 0) ∈ t.power.ramping) ∧
  (∀ (k st step n : Nat) (rest : List LedgerReq) (s : State),
    s.power.queue = .region k st :: rest → s.life.powered = true → s.life.frozen = false →
    s.power.ramping.length < s.param 0x0F03 → s.fits (.region k st) = some step → n ∈ edgeAdjacent k → s.drawsHigh n = true →
    completes .ledgerNeighbourWait s fun t => n ∈ t.power.capped ∧ t.power.queue = rest ∧ t.region k = .ramping) ∧
  (∀ (node : Fin 32) (r : Fin 13) (stage : Nat) (s : State),
    let key := node.val * 16 + r.val
    s.power.ramping.find? (fun e => e.1 == key) = some (key, stage) → s.life.frozen = false →
    completes (.rampStage node r) s fun t =>
      (5 ≤ stage ∨ keyLogic key = false → t.region key = .on ∧ (key, stage) ∉ t.power.ramping) ∧
      (stage < 5 → keyLogic key = true → (key, stage + 1) ∈ t.power.ramping ∧ t.power.state = s.power.state)) ∧
  (∀ (dw : Half) (below : Bool) (s : State), s.life.powered = true → s.life.frozen = false →
    completes (.inputPowerCheck dw below) s fun t =>
      t = { s with power := { s.power with measured := dw.toNat, pwDuty := t.power.pwDuty } } ∧
      (s.budget / 100 < dw.toNat → t.power.pwDuty = min 3 (s.power.pwDuty + 1)) ∧
      (dw.toNat * 100 ≤ s.budget / 100 * 95 → t.power.pwDuty = if below then s.power.pwDuty - 1 else s.power.pwDuty) ∧
      (dw.toNat ≤ s.budget / 100 → s.budget / 100 * 95 < dw.toNat * 100 → t.power.pwDuty = s.power.pwDuty))

/-- THERMAL_SAMPLE keeps the temperature and applies one action to a logic region at the limit; THERMAL at 105 C with every
action applied records THERMAL and is fatal. DROOP_SIGNATURE records and lowers the ceiling, or darkens a region at the last
step. BUS_CONVERTER_LOSS fences the converter, and trips the module with fewer than three left. AGEING_SAMPLE keeps the
lowest slack and AGEING_REPLAN raises a set point by 5 mV that the window holds. -/
def Obligations.HeatAndAgeing : Prop :=
  (∀ (node : Fin 32) (r : Fin 13) (v : BitVec 12) (cool : Bool) (s : State),
    let key := node.val * 16 + r.val
    s.life.powered = true → s.life.frozen = false → keyLogic key = true → (s.region key).powered = true →
    8 * (s.param 0x0F01 : Int) ≤ v.toInt →
    completes (.thermalSample node r v cool) s fun t =>
      Tbl.get? t.power.temp key = some v ∧
      (s.stepFor key < 3 → Tbl.get? t.power.thermal key = some (s.stepFor key + 1) ∧ t.stepFor key = s.stepFor key + 1) ∧
      (3 ≤ s.stepFor key → Tbl.get? t.power.thDuty key = some (min 3 (Tbl.getD s.power.thDuty key 0 + 1))) ∧ t.flt = s.flt) ∧
  (∀ (node : Fin 32) (r : Fin 13) (v : BitVec 12) (s : State),
    let key := node.val * 16 + r.val
    s.life.powered = true → (phasesOf key).1 ≠ 0 → v.toInt < 8 * (s.param 0x0F01 : Int) →
    completes (.thermalSample node r v false) s fun t =>
      Tbl.get? t.power.temp key = some v ∧ t = { s with power := { s.power with temp := t.power.temp } }) ∧
  (∀ (node : Fin 32) (r : Fin 13) (s : State),
    let key := node.val * 16 + r.val
    s.life.powered = true → s.life.frozen = false → 840 ≤ (Tbl.getD s.power.temp key 0).toInt → s.throttled key = true →
    s.flt.fatal = false →
    completes (.thermal node r) s fun t =>
      s.recorded t (phaseUnit key 0) clsThermal ∧ t.flt.fatal = true ∧ ∃ n, t.flt.resetPending = some (true, n)) ∧
  (∀ (node : Fin 32) (r : Fin 13) (a b : Word) (s : State),
    let key := node.val * 16 + r.val
    (s.region key).powered = true → s.life.frozen = false → keyLogic key = true →
    completes (.droopSignature node r a b) s fun t =>
      s.recorded t (phaseUnit key 0) clsDroop ∧
      (s.stepFor key ≠ 3 → Tbl.get? t.power.ceiling key = some (min 3 (Tbl.getD s.power.ceiling key 0 + 1))) ∧
      (s.stepFor key = 3 → t.region key = .dark)) ∧
  (∀ (c : Fin 5) (s : State), s.life.powered = true → s.power.converters.getLsbD c = true →
    completes (.busConverterLoss c) s fun t =>
      (s.convertersOk ≤ 3 → t.life.state = .tripped ∧ t.life.powered = false ∧ t.power.trip = some 0) ∧
      (3 < s.convertersOk → t.power.converters = s.power.converters &&& ~~~BitVec.ofNat 5 (2 ^ c.val) ∧
        s.recorded t (phaseUnit 482 c) clsPhase ∧ t.isFenced (phaseUnit 482 c) = true ∧ t.life.powered = true)) ∧
  (∀ (node : Fin 32) (r : Fin 13) (slack : Nat) (s : State),
    let key := node.val * 16 + r.val
    (s.region key).powered = true → s.life.frozen = false →
    completes (.ageingSample node r slack) s fun t =>
      Tbl.get? t.power.slack key = some (min slack (Tbl.getD s.power.slack key slack)) ∧
      t = { s with power := { s.power with slack := t.power.slack } }) ∧
  (∀ (s : State), s.life.powered = true → s.life.frozen = false → s.power.slack = [] → completes .ageingReplan s fun t => t = s) ∧
  (∀ (key sl : Nat) (s : State),
    s.life.powered = true → s.life.frozen = false → key ∈ allRegions → s.power.slack = [(key, sl)] → sl < 4 →
    Tbl.getD s.power.setpoint key (regionWindow key (s.stepNow key)).1 + 5 ≤ (regionWindow key (s.stepNow key)).2 →
    completes .ageingReplan s fun t =>
      Tbl.get? t.power.setpoint key = some (Tbl.getD s.power.setpoint key (regionWindow key (s.stepNow key)).1 + 5) ∧
      t.power.slack = [] ∧ t.flt = s.flt)

/-- FW_STAGE opens a session and writes the idle slots, and ends BUSY during an activation. FW_ACTIVATE starts a hitless
activation without a standby, names the staged slot and resets, or names it only; without a staged image it ends
NO_RESOURCE. Raising the floor blows fuses up to the running version on both hubs. FW_STATUS answers. STANDBY_MIRROR_READY,
HANDOVER, MANAGER_UPDATE and FW_QUIET_TIMEOUT carry the update from step to step. -/
def Obligations.FirmwareUpdate : Prop :=
  (∀ (m : Fin 34) (c : MbCmd) (bs : List Byte) (h : Nat) (s : State),
    s.mbFirst m 0x500 c → s.mbRoom m → s.fw.activation = none → s.fw.session = none → flag c.img 32 0 = true →
    flag c.img 32 1 = false → s.hostGet (fld c.img 16 0 64) (fld c.img 28 0 32) = some bs → h ∈ s.stageHubs →
    completes (.fwStage m) s fun t =>
      t.mbEnded m c mbDone ∧ t.fw.session = some (false, fld c.img 24 0 32 + bs.length) ∧ t.fw.staged = none ∧
      Mem.readBytes ((t.fwHub h).slot (t.fwHub h).idle).mem (fld c.img 24 0 32) bs.length = bs ∧
      ((t.fwHub h).slot (t.fwHub h).idle).info = none ∧ (t.fwHub h).running = (s.fwHub h).running ∧
      (t.fwHub h).booted = (s.fwHub h).booted ∧ (t.fwHub h).floor = (s.fwHub h).floor) ∧
  (∀ (m : Fin 34) (c : MbCmd) (s : State), s.mbFirst m 0x500 c → s.fw.activation.isSome = true →
    completes (.fwStage m) s fun t => s.answers t m c mbBusy 0xFFFF 0 [] ∧ t = { s with mailboxes := t.mailboxes }) ∧
  (∀ (m : Fin 34) (c : MbCmd) (i : FwInfo) (s : State),
    s.activateFirst m 0 c → s.mbRoom m → s.fw.activation = none → s.fw.staged = some i → s.life.state = .ready →
    s.life.usable.getLsbD (1 - s.life.activeHub) = true → s.flt.dump = none → s.fw.session = none → i.meets s.fwActive = true → i.scalar ∈ s.scalarsHeld →
    completes (.fwActivateHitless m) s fun t =>
      t.mbTaken m c ∧ (∃ a, t.fw.activation = some a ∧ a.info = i ∧ a.step = 1) ∧ t.life.standby = false ∧
      t.life.activeHub = s.life.activeHub ∧ t.fw.hubs = s.fw.hubs) ∧
  (∀ (m : Fin 34) (c : MbCmd) (i : FwInfo) (s : State),
    s.activateFirst m 1 c → s.fw.activation = none → s.fw.staged = some i →
    completes (.fwActivateReset m) s fun t => s.answers t m c mbAccepted 0xFFFF 0 [] ∧ t.flt.resetPending.isSome = true ∧
      ∀ h, h < 2 → ((s.fwHub h).slot (s.fwHub h).idle).info = some i → (t.fwHub h).next = (s.fwHub h).idle) ∧
  (∀ (m : Fin 34) (c : MbCmd) (i : FwInfo) (s : State),
    s.activateFirst m 2 c → s.mbRoom m → s.fw.activation = none → s.fw.staged = some i →
    completes (.fwActivateDeferred m) s fun t => t.mbEnded m c mbDone ∧ t.flt = s.flt ∧
      ∀ h, h < 2 → ((s.fwHub h).slot (s.fwHub h).idle).info = some i → (t.fwHub h).next = (s.fwHub h).idle) ∧
  (∀ (m : Fin 34) (c : MbCmd) (r : Instr) (mode : Nat) (s : State),
    (r, mode) ∈ [(.fwActivateHitless m, 0), (.fwActivateReset m, 1), (.fwActivateDeferred m, 2)] →
    s.activateFirst m mode c → s.fw.activation = none → s.fw.staged = none →
    completes r s fun t => s.answers t m c mbNoResource 0xFFFF 0 [] ∧ t = { s with mailboxes := t.mailboxes }) ∧
  (∀ (m : Fin 34) (c : MbCmd) (s : State),
    s.activateFirst m 3 c → s.mbRoom m → s.fw.activation = none → s.life.usable = 3 →
    (s.fwHub 0).running = (s.fwHub 1).running → (s.fwHub 0).floor < (s.fwHub 0).running.security →
    (s.fwHub 1).floor < (s.fwHub 1).running.security →
    completes (.fwRaiseFloor m) s fun t =>
      t.mbEnded m c mbDone ∧ (t.fwHub 0).floor = (s.fwHub 0).running.security ∧
      (t.fwHub 1).floor = (s.fwHub 1).running.security ∧ (t.fwHub 0).running = (s.fwHub 0).running) ∧
  (∀ (m : Fin 34) (c : MbCmd) (s : State), s.mbFirst m 0x502 c →
    completes (.fwStatus m) s fun t =>
      s.answers t m c mbDone 0xFFFF 0 s.fwStatusBytes ∧ t = { s with mailboxes := t.mailboxes }) ∧
  (∀ (a : Activation) (s : State),
    let b := 1 - s.life.activeHub
    s.hubRuns = true → s.life.usable.getLsbD b = true → s.life.standby = false → s.fw.activation = some a → a.step = 1 →
    completes .standbyMirrorReady s fun t =>
      t.fw.activation = some { a with step := 2 } ∧ t.life.standby = true ∧ (t.fwHub b).running = a.info ∧
      t.life.activeHub = s.life.activeHub) ∧
  (∀ (a : Activation) (s : State),
    s.hubRuns = true → s.fw.activation = some a → a.step = 2 → s.life.standby = true → s.life.activeHub < 2 →
    completes .handover s fun t =>
      t.life.activeHub = 1 - s.life.activeHub ∧ t.life.standby = false ∧ t.fw.activation = some { a with step := 5 } ∧
      t.fw.staged = none ∧ t.fw.sessions = [] ∧ t.fw.scalars.head? = some a.info.scalar ∧ t.parts = s.parts) ∧
  (∀ (node : Fin 32) (a : Activation) (rest : List Nat) (s : State),
    s.hubRuns = true → s.fw.activation = some a → a.step = 6 → a.todo = node.val :: rest → s.quietDie node = true →
    completes (.managerUpdate node true) s fun t =>
      Tbl.get? t.fw.managers node = some a.info.manager ∧ t.flt = s.flt ∧
      (rest ≠ [] → t.fw.activation = some { a with todo := rest, updated := a.updated + 1 })) ∧
  (∀ (node : Fin 32) (a : Activation) (rest : List Nat) (s : State),
    s.hubRuns = true → s.fw.activation = some a → a.step = 6 → a.todo = node.val :: rest → s.quietDie node = true →
    node.val < 30 → node.val ∉ s.flt.mgrFenced →
    completes (.managerUpdate node false) s fun t =>
      s.recorded t (managerUnit node) clsHeartbeat ∧ node.val ∈ t.flt.mgrFenced) ∧
  (∀ (node : Fin 32) (a : Activation) (x : Nat) (rest : List Nat) (s : State),
    s.hubRuns = true → s.fw.activation = some a → a.step = 6 → a.todo = node.val :: x :: rest → s.quietDie node = false →
    completes (.fwQuietTimeout node) s fun t =>
      t = { s with fw := { s.fw with activation := some { a with todo := x :: rest, deferred := a.deferred ++ [node.val] } } })

/-- Negotiation goes through versions, capabilities and algorithms, each answered; after it digests, certificates, challenges
and measurements are answered and change nothing. KEY_EXCHANGE opens a session and a fifth is refused; FINISH authenticates
it; HEARTBEAT, KEY_UPDATE and END_SESSION run in it. CHUNK_SEND keeps a piece, CHUNK_GET sends one. Any other request is
answered with UnsupportedRequest. Codes are those of DSP0274 (log entry 10). -/
def Obligations.Attestation : Prop :=
  (∀ (r : SpdmRequest) (s : State), s.hubRuns = true → r.session = 0 →
    completes (.spdmGetVersion r) s fun t =>
      t.mgmt.out = s.mgmt.out ++ [.mctp 0x05 [0x10, 0x04, 0, 0, 0, 2, 0, 0x12, 0, 0x13]] ∧ t.fw.spdmStage = 1 ∧ t.fw.sessions = [] ∧
      t.fw.hubs = s.fw.hubs ∧ t.mailboxes = s.mailboxes) ∧
  (∀ (r : SpdmRequest) (s : State), s.spdmOpen r → s.fw.spdmStage ≠ 0 → spdmField r 8 4 = 0 →
    completes (.spdmGetCapabilities r) s fun t => s.spdmSaid t r 0x61 ∧ t.fw.spdmStage = 2 ∧ t.fw.spdmTransfer = 0) ∧
  (∀ (r : SpdmRequest) (s : State), s.spdmOpen r → s.fw.spdmTransfer = 0 → 2 ≤ s.fw.spdmStage →
    bits (spdmField r 4 4) 8 1 = 1 → bits (spdmField r 8 4) 2 1 = 1 →
    completes (.spdmNegotiateAlgorithms r) s fun t => s.spdmSaid t r 0x63 ∧ t.fw.spdmStage = 3) ∧
  (∀ (r : SpdmRequest) (i : Instr) (code : Byte) (s : State),
    (i, code) ∈ [(.spdmGetDigests r, 0x01), (.spdmGetCertificate r, 0x02), (.spdmChallenge r, 0x03), (.spdmGetMeasurements r, 0x60)] →
    s.spdmOpen r → s.fw.spdmTransfer = 0 → 3 ≤ s.fw.spdmStage → r.param1 = 0 → r.param2.toNat ≤ 6 →
    completes i s fun t => s.spdmSaid t r code ∧ t = { s with mgmt := t.mgmt, freeCtr := t.freeCtr }) ∧
  (∀ (r : SpdmRequest) (s : State), s.spdmOpen r → s.fw.spdmTransfer = 0 → 3 ≤ s.fw.spdmStage → r.param2 = 0 →
    completes (.spdmKeyExchange r) s fun t =>
      (s.fw.sessions.length < 4 → s.spdmSaid t r 0x64 ∧ t.fw.sessionNext = s.fw.sessionNext + 1 ∧
        t.fw.sessions = s.fw.sessions ++ [{ id := s.fw.sessionNext, finished := false, keyGen := 0 }]) ∧
      (4 ≤ s.fw.sessions.length → s.spdmSaid t r 0x7F ∧ t.fw.sessions = s.fw.sessions)) ∧
  (∀ (r : SpdmRequest) (x : SpdmSession) (s : State),
    s.spdmOpen r → s.fw.spdmTransfer = 0 → x ∈ s.fw.sessions → x.id = r.session → x.finished = false →
    completes (.spdmFinish r) s fun t =>
      s.spdmSaid t r 0x65 ∧ { x with finished := true } ∈ t.fw.sessions ∧ t.fw.sessions.length = s.fw.sessions.length) ∧
  (∀ (r : SpdmRequest) (x : SpdmSession) (s : State),
    s.spdmOpen r → s.fw.spdmTransfer = 0 → x ∈ s.fw.sessions → x.id = r.session → x.finished = true → s.param 0x1001 ≠ 0 →
    completes (.spdmHeartbeat r) s fun t => s.spdmSaid t r 0x68 ∧ t.fw = s.fw) ∧
  (∀ (r : SpdmRequest) (x : SpdmSession) (s : State),
    s.spdmOpen r → s.fw.spdmTransfer = 0 → x ∈ s.fw.sessions → x.id = r.session → x.finished = true →
    1 ≤ r.param1.toNat → r.param1.toNat ≤ 3 →
    completes (.spdmKeyUpdate r) s fun t => s.spdmSaid t r 0x69 ∧
      (if r.param1 = 3 then x else { x with keyGen := x.keyGen + 1 }) ∈ t.fw.sessions) ∧
  (∀ (r : SpdmRequest) (x : SpdmSession) (s : State),
    s.spdmOpen r → s.fw.spdmTransfer = 0 → x ∈ s.fw.sessions → x.id = r.session → x.finished = true →
    completes (.spdmEndSession r) s fun t => s.spdmSaid t r 0x6C ∧ ∀ y ∈ t.fw.sessions, y.id ≠ r.session) ∧
  (∀ (r : SpdmRequest) (s : State), s.spdmOpen r → s.fw.spdmTransfer = 0 → r.param1.getLsbD 0 = false → spdmField r 0 2 = 0 →
    completes (.spdmChunkSend r) s fun t => s.spdmSaid t r 0x05 ∧
      t.fw.chunkIn = some (r.param2.toNat, (r.payload.drop 12).take (spdmField r 4 4))) ∧
  (∀ (r : SpdmRequest) (bs : List Byte) (s : State), s.spdmOpen r → 17 ≤ s.fw.spdmTransfer → s.fw.chunkOut = some (0, bs) →
    spdmField r 0 2 = 0 →
    completes (.spdmChunkGet r) s fun t => s.spdmSaid t r 0x06 ∧
      (bs.length ≤ s.fw.spdmTransfer - 16 → t.fw.chunkOut = none) ∧
      (s.fw.spdmTransfer - 16 < bs.length → t.fw.chunkOut = some (1, bs))) ∧
  (∀ (r : SpdmRequest) (s : State), s.spdmOpen r → s.fw.spdmTransfer = 0 →
    completes (.spdmUnsupported r) s fun t => s.spdmSaid t r 0x7F ∧ t.fw = s.fw)

/-- A mailbox command over MCTP waits for its row on the management mailbox. The endpoint and terminus IDs are set and read;
types, commands, versions and records are answered. Events are sent to the receiver and polled in order, and a sensor that
changes its state queues one. A PLDM update opens the staging session and stops it; ACTIVATE_FIRMWARE names the staged slot.
Bus time-outs leave the state as it is. Codes are those of the standards (log entry 10). -/
def Obligations.ManagementPlane : Prop :=
  (∀ (r : BitVec 2048) (s : State), s.hubRuns = true → s.mbCheck 33 r = none → ((mbActsOn 33 r).map s.partResetting).getD false = false →
    s.mbExecutorFree 33 = true →
    completes (.mctpMailboxCommand r) s fun t =>
      t = { s with mailboxes := t.mailboxes, cmdOrder := s.cmdOrder + 1 } ∧ ∃ c, (t.mbox 33).started = (s.mbox 33).started ++ [c] ∧
        c.img = r ∧ c.order = s.cmdOrder ∧ c.accepted = false) ∧
  (∀ (r : BitVec 2048) (st off : Nat) (s : State), s.hubRuns = true → s.mbCheck 33 r = some (st, off) →
    completes (.mctpMailboxCommand r) s fun t => (t.mbox 33).started = (s.mbox 33).started ∧
      ∃ f c, (t.mbox 33).fin = (s.mbox 33).fin ++ [f] ∧ f.compl = mbCompletion c st off true 0 [] ∧ c.img = r) ∧
  (∀ (type : Byte) (s : State), s.mgmtBasic = true → type.toNat ∉ [0x00, 0x01, 0x05, 0x06, 0x7E] →
    completes (.mctpUnsupportedMessage type) s fun t =>
      t = { s with mgmt := { s.mgmt with out := s.mgmt.out ++ [.mctp 0x00 [0x00, 0x05]] } }) ∧
  (∀ (eid : Byte) (s : State), s.mgmtBasic = true →
    completes (.setEndpointId eid) s fun t =>
      (eid ≠ 0 → eid ≠ 0xFF → t.mgmt.eid = eid) ∧ (eid = 0 ∨ eid = 0xFF → t.mgmt.eid = s.mgmt.eid) ∧
      t = { s with mgmt := { s.mgmt with eid := t.mgmt.eid, out := t.mgmt.out } }) ∧
  (∀ (tid : Byte) (s : State), s.mgmtBasic = true →
    completes (.setTid tid) s fun t =>
      (tid ≠ 0 → tid ≠ 0xFF → t.mgmt.tid = tid ∧ t.mgmt.out = s.mgmt.out ++ [.mctp 0x01 [0, 1, 0]]) ∧
      (tid = 0 ∨ tid = 0xFF → t.mgmt.tid = s.mgmt.tid ∧ t.mgmt.out = s.mgmt.out ++ [.mctp 0x01 [0, 1, 2]])) ∧
  (∀ (type : Byte) (record : Word) (i : Instr) (s : State),
    i ∈ [.getTid, .getPldmTypes, .getPldmCommands type, .getPldmVersion type, .getPdr record] → s.mgmtServes = true →
    completes i s fun t =>
      (∃ data, t.mgmt.out = s.mgmt.out ++ [.mctp 0x01 data] ∧ (i = .getTid → data = [0, 2, 0, s.mgmt.tid])) ∧
      t = { s with mgmt := { s.mgmt with out := t.mgmt.out }, freeCtr := t.freeCtr }) ∧
  (∀ (enable : Bool) (addr : Byte) (s : State), s.mgmtServes = true →
    completes (.setEventReceiver enable addr) s fun t =>
      t.mgmt.receiver = (if enable then some addr else none) ∧ t.mgmt.queue = s.mgmt.queue) ∧
  (∀ (e : PldmEvent) (rest : List PldmEvent) (s : State), s.mgmtServes = true → s.mgmt.queue = e :: rest →
    completes .pollForPlatformEventMessage s fun t =>
      t.mgmt.queue = rest ∧ t.mgmt.out = s.mgmt.out ++ [.mctp 0x01 ([2, 0x0B, 0] ++ s.eventBytes e)]) ∧
  (∀ (addr : Byte) (e : PldmEvent) (rest : List PldmEvent) (answered : Bool) (s : State),
    s.mgmtServes = true → s.mgmt.receiver = some addr → s.mgmt.queue = e :: rest → e.tries < 4 → e ∉ rest →
    completes (.platformEventMessage answered) s fun t =>
      t.mgmt.queue = (if answered then rest else { e with tries := e.tries + 1 } :: rest) ∧
      t.mgmt.out = s.mgmt.out ++ [.mctp 0x01 ([2, 0x0A] ++ s.eventBytes e)]) ∧
  (∀ (id : Nat) (v y : Int) (s : State),
    s.mgmtServes = true → 100 ≤ id → id ≤ 103 → Tbl.get? s.mgmt.sensors id = some y → y ≠ s.sensorValue id v →
    s.mgmt.queue.length < 64 →
    completes (.sensorRefresh id v) s fun t =>
      Tbl.get? t.mgmt.sensors id = some (s.sensorValue id v) ∧ ∃ e, t.mgmt.queue = s.mgmt.queue ++ [e] ∧ e.cls = 0 ∧ e.tries = 0) ∧
  (∀ (id : Nat) (v : Int) (s : State), s.mgmtServes = true → id ∈ sensorIds → s.sensorUp id = false →
    completes (.sensorRefresh id v) s fun t =>
      Tbl.get? t.mgmt.available id = some false ∧ t.mgmt.queue = s.mgmt.queue) ∧
  (∀ (payload : List Byte) (s : State), s.mgmtServes = true → s.fw.session = none → s.fw.activation = none →
    completes (.pldmFirmwareUpdate { code := 0x10, payload := payload }) s fun t =>
      t.fw.session = some (true, 0) ∧ t.mgmt.pldmFw = 1 ∧ t.mgmt.out = s.mgmt.out ++ [.mctp 0x01 [5, 0x10, 0]]) ∧
  (∀ (payload : List Byte) (n : Nat) (s : State), s.mgmtServes = true → s.fw.session = some (true, n) → s.mgmt.pldmFw ≠ 0 →
    completes (.pldmFirmwareUpdate { code := 0x1D, payload := payload }) s fun t =>
      t.fw.session = none ∧ t.mgmt.pldmFw = 0 ∧ t.fw.hubs = s.fw.hubs) ∧
  (∀ (i : FwInfo) (s : State), s.mgmtServes = true → s.fw.activation = none → s.fw.staged = some i →
    completes .activateFirmware s fun t =>
      t.mgmt.out = s.mgmt.out ++ [.mctp 0x01 [5, 0x1A, 0, 0, 0]] ∧ t.mgmt.pldmFw = 0 ∧
      ∀ h, h < 2 → ((s.fwHub h).slot (s.fwHub h).idle).info = some i → (t.fwHub h).next = (s.fwHub h).idle) ∧
  (∀ (a : Byte) (s : State), s.busUp = true → s.mgmt.dynAddr = none →
    completes (.i3cCcc { code := 0x87, data := [s.staticAddr, a] }) s fun t =>
      t = { s with mgmt := { s.mgmt with i3c := true, dynAddr := some a } }) ∧
  (∀ (s : State), s.busUp = true → s.mgmt.i3c = false → s.mgmt.queue ≠ [] →
    completes .smbusAlertResponse s fun t =>
      t = { s with mgmt := { s.mgmt with out := s.mgmt.out ++ [.alertAddress s.staticAddr] } }) ∧
  (∀ (s : State), completes .smbusTimeout s fun t => t = s) ∧
  (∀ (s : State), completes .i3cIdleTimeout s fun t => t = s)

/-- FREEZE stops the domains at the local count and takes the host link down. Each TAP instruction is selected and shifts out
what Tables 17-6 and 17-7 say: IDCODE its number, BYPASS one 0, EXTEST the boundary register of a frozen module and
otherwise as BYPASS, DBG_DATA the next word of the unit that DBG_SEL named, or a status. -/
def Obligations.FreezeAndTap : Prop :=
  (∀ (n : Bool) (s : State), s.life.powered = true → s.life.frozen = false → s.flt.dump = none →
    completes (.freeze n) s fun t =>
      t = { s with life := { s.life with frozen := true, frozenCount := s.count },
                   mgmt := { s.mgmt with stopped := 0xFFFFFFFF, notice := n }, fw := { s.fw with freezeUsed := true },
                   host := { s.host with linkUp := false } }) ∧
  (∀ (s : State), s.life.powered = true →
    completes .idcode s fun t =>
      t = { s with mgmt := { s.mgmt with ir := 0x01, extest := false, out := s.mgmt.out ++ [.tap 32 0x1329677B] } }) ∧
  (∀ (s : State), s.life.powered = true →
    completes .testLogicReset s fun t => t = { s with mgmt := { s.mgmt with ir := 0x01, extest := false } }) ∧
  (∀ (v : DWord) (s : State), s.life.powered = true →
    completes (.samplePreload v) s fun t => t.mgmt.ir = 0x02 ∧ t.mgmt.boundary = v ∧ t.mgmt.extest = false ∧
      (∃ w, t.mgmt.out = s.mgmt.out ++ [.tap 64 w]) ∧ t = { s with mgmt := t.mgmt, freeCtr := t.freeCtr }) ∧
  (∀ (s : State), s.life.powered = true →
    completes .extest s fun t => t.mgmt.ir = 0x03 ∧ t.fw = { s.fw with jtagUsed := true } ∧
      (s.life.frozen = true → t.mgmt.extest = true ∧
        t.mgmt.out = s.mgmt.out ++ [.tap 64 (s.mgmt.boundary.setWidth 128)]) ∧
      (s.life.frozen = false → t.mgmt.extest = false ∧ t.mgmt.out = s.mgmt.out ++ [.tap 1 0])) ∧
  (∀ (u : Word) (first n : Half) (s : State), s.life.powered = true →
    completes (.dbgSel (n ++ first ++ u)) s fun t =>
      t.mgmt.dbg = some (u, first.toNat, n.toNat) ∧ t.mgmt.ir = 0x10 ∧ t.fw.jtagUsed = true ∧ t.mgmt.out = s.mgmt.out) ∧
  (∀ (u : Word) (next left : Nat) (w : DWord) (s : State),
    s.life.powered = true → s.mgmt.dbg = some (u, next, left) → 0 < left → s.dumpSkips u = false → unitValid u = true →
    (s.dumpWords u)[next]? = some w →
    completes (.dbgData true) s fun t =>
      t.mgmt.dbg = some (u, next + 1, left - 1) ∧ t.mgmt.out = s.mgmt.out ++ [.tap 66 (w.setWidth 128)]) ∧
  (∀ (u : Word) (next left : Nat) (answered : Bool) (s : State),
    s.life.powered = true → s.mgmt.dbg = some (u, next, left) → 0 < left → s.dumpSkips u = true →
    completes (.dbgData answered) s fun t =>
      t.mgmt.dbg = s.mgmt.dbg ∧ t.mgmt.out = s.mgmt.out ++ [.tap 66 (BitVec.ofNat 128 (2 * 2 ^ 64))]) ∧
  (∀ (s : State), s.life.powered = true →
    completes .freezeState s fun t =>
      (∃ v, t.mgmt.out = s.mgmt.out ++ [.tap 128 v] ∧ v.getLsbD 0 = s.life.frozen ∧
        (s.life.frozen = true → fld v 8 0 64 = s.life.frozenCount.toNat)) ∧
      t = { s with mgmt := { s.mgmt with ir := 0x12, extest := false, out := t.mgmt.out } }) ∧
  (∀ (code : Byte) (s : State), s.life.powered = true → code.toNat ∉ [0x01, 0x02, 0x03, 0x10, 0x11, 0x12] →
    completes (.bypass code) s fun t =>
      t = { s with mgmt := { s.mgmt with ir := code, extest := false, out := s.mgmt.out ++ [.tap 1 0] } })

/-- For every command and state, a step with that command at the front of the queue is the command's effect on the state with
the queue's rest. The queue is the model's own (log entry 1). -/
def Obligations.StepRunsCommand : Prop :=
  ∀ (c : Instr) (rest : List Instr) (s : State), step { s with pending := c :: rest } = exec c { s with pending := rest }

/-- A step with no command waiting adds one to the local count while the module has power and an oscillator runs, and changes
nothing otherwise. That an idle step is one tick is the model's choice (log entry 1). -/
def Obligations.IdleStepTicks : Prop :=
  ∀ s : State, s.pending = [] →
    (s.life.powered = true → (s.net.osc0 = true ∨ s.net.osc1 = true) → step s = .next { s with count := s.count + 1 }) ∧
    (s.life.powered = false ∨ (s.net.osc0 = false ∧ s.net.osc1 = false) → step s = .next s)

/-- Every command other than REGISTER_WRITE answers a next state in every state. A register write to an offset that no table
lists is the one fault (log entry 13). -/
def Obligations.EveryOtherCommandCompletes : Prop :=
  ∀ (c : Instr) (s : State), (∀ r v, c ≠ .registerWrite r v) → ∃ t, exec c s = .next t

/-- After reset no command waits, no partition exists, an atoll is unassigned with lagoon lines of tag 0, poison 0 and apex
words 0xF000, its tessellation state is UNCONFIGURED with record 0x3FFF, its neighbour maps name its physical neighbours,
and both oscillators run. That the module starts without power is the model's choice (log entry 4). -/
def Obligations.ResetState : Prop :=
  State.reset.pending = [] ∧ (∀ p, State.reset.part? p = none) ∧ State.reset.life.powered = false ∧
  State.reset.net.osc0 = true ∧ State.reset.net.osc1 = true ∧ State.reset.mem.windows = [] ∧ State.reset.flt.fenced = [] ∧
  ∀ g : Nat, (State.reset.atoll g).assigned = false ∧ (State.reset.atoll g).tess = .unconfigured ∧
    (State.reset.atoll g).record = 0x3FFF ∧ (State.reset.atoll g).descValid = false ∧ (State.reset.atoll g).epoch = 0 ∧
    (∀ line, (State.reset.atoll g).meta_ line = { tag := 0, poison := 0, apex := 0xF000F000F000F000F000F000F000F000 }) ∧
    (State.reset.atoll g).nbr = [NbrMap.reset g 0, NbrMap.reset g 1, NbrMap.reset g 2, NbrMap.reset g 3]

/-- At reset every byte memory is in its canonical form and the lifecycle is coherent. The state at reset is the model's choice
where the spec is silent (log entries 4 and 5). -/
def Obligations.ResetKeepsInvariants : Prop := State.reset.memOk ∧ State.reset.lifeOk

/-- STREAM_RESUME of a stopped stream sets fetched and done to the index and the state to running; nothing that was fetched
before is left to run, so commands before the index are not run again. Rule: "STREAM_RESUME sets `fetched` and `done` to
`index` and sets the state to RUNNING." -/
def Obligations.StreamResumeRule : Prop :=
  ∀ (m : Fin 34) (c : MbCmd) (x : Part) (s : State),
    let p := mbPartition c.img
    let st := fld c.img 16 0 2
    s.mbFirst m 0x305 c → s.part? p = some x → (x.stream st).open_ = true → (x.stream st).stopped = true →
    (x.stream st).closing = false →
    completes (.streamResume m) s fun t =>
      s.answers t m c mbDone 0xFFFF 0 [] ∧
      ∃ y, t.part? p = some y ∧ (y.stream st).fetched = fld c.img 20 0 32 ∧ (y.stream st).done = fld c.img 20 0 32 ∧
        (y.stream st).stopped = false ∧ (y.stream st).open_ = true ∧ (y.stream st).waiting = [] ∧
        (∀ k, k ≠ st → (y.stream k).fetched = (x.stream k).fetched ∧ (y.stream k).waiting = (x.stream k).waiting)

/-- A request to an OFF bank leaves the bank off and its bytes as they are, adds 1 to BANK_LATE_COUNT, and writes one BANK_OFF
record naming the bank when it is the first since the bank went off. It fences nothing, and a unit that reads the bank gets
BANK_OFF; one that reads a closing bank gets BANK_CLOSED. Rule: "A request to an OFF bank ends with BANK_OFF, writes nothing
and does not wake the bank." -/
def Obligations.OffBankRule : Prop :=
  (∀ (h b : Fin 16) (s : State), s.clocked = true → s.bank h b = .off →
    completes (.bankOffRequest h b) s fun t =>
      t.bank h b = .off ∧ (t.shoal h).staging = (s.shoal h).staging ∧ (t.shoal h).late = satAdd32 (s.shoal h).late 1 ∧
      t.flt.fenced = s.flt.fenced ∧ t.power = s.power ∧
      (b.val ∉ (s.shoal h).lateNoted → ∃ r : ErrRec, r.unit = shoalUnit h 0 0 0x3FF ∧ r.cls = clsBankOff ∧
        r.count = s.count ∧ r.detail = detailBits [(32, b.val)] ∧ r.seq = s.nextSeq (shoalUnit h 0 0 0x3FF) ∧
        t.collector (uNode (shoalUnit h 0 0 0x3FF)) =
          { (s.collector (uNode (shoalUnit h 0 0 0x3FF))).push r with seq := s.nextSeq (shoalUnit h 0 0 0x3FF) + 1 }) ∧
      (b.val ∈ (s.shoal h).lateNoted → t.flt = s.flt) ∧
      t = { s with mem := t.mem, flt := t.flt } ∧
      t.mem = { s.mem with shoals := t.mem.shoals } ∧ ∀ k, k ≠ h.val → t.shoal k = s.shoal k) ∧
  (∀ (h b : Fin 16) (n : Nat) (who : Option Nat) (wr : Bool) (s : State), s.bank h b = .off → n < 0x400000 →
    s.mem.map.size ≤ 0xF000000000 → (∀ p, who = some p → ∃ x, s.part? p = some x ∧ x.ownsBank h b = true) →
    s.place who (0xF800000000 + h.val * 0x4000000 + b.val * 0x400000 + n) wr = .error opBankOff) ∧
  (∀ (h b : Fin 16) (n : Nat) (who : Option Nat) (wr : Bool) (s : State), (s.bank h b = .closing ∨ s.bank h b = .draining) → n < 0x400000 →
    s.mem.map.size ≤ 0xF000000000 → (∀ p, who = some p → ∃ x, s.part? p = some x ∧ x.ownsBank h b = true) →
    s.place who (0xF800000000 + h.val * 0x4000000 + b.val * 0x400000 + n) wr = .error opBankClosed)

/-- A freeze edge changes nothing while the module is frozen, during a latched trip, and during a cold-reset request; power-on
itself never freezes, whatever the pin's level. Rule: "A FREEZE_N that is already low at power-good is not an edge." -/
def Obligations.FreezeEdgeRule : Prop :=
  (∀ (n : Bool) (s : State), s.life.frozen = true → exec (.freeze n) s = .next s) ∧
  (∀ (n : Bool) (s : State), s.lifeOk → s.life.state = .tripped → exec (.freeze n) s = .next s) ∧
  (∀ (n : Bool) (s t : State), s.mgmt.modResetLow = true → s.life.state ≠ .off → exec .coldResetRequest s = .next t →
    exec (.freeze n) t = .next t) ∧
  (∀ (b : BringUp) (s t : State), s.life.state = .off → exec (.powerOn b) s = .next t → t.life.frozen = false)

/-- From every state, a step that answers a next state leaves the queue as it was without its front command: no command's effect
adds, drops or reorders waiting commands (the queue is the model's own, log entry 1). -/
def Obligations.QueueIsTakenInOrder : Prop := ∀ s t : State, step s = .next t → t.pending = s.pending.tail

/-- From every state whose byte memories (lagoons, cache lines, private SRAM, DRAM, staging SRAM, firmware slots, host memory)
are sorted and list no byte 0, a step that answers a next state gives a state of the same kind. The canonical form and the
byte 0 of unwritten memory are the model's choice (log entry 5). -/
def Obligations.MemoryStaysCanonical : Prop := ∀ s t : State, s.memOk → step s = .next t → t.memOk

/-- From every state in which a module that is off or tripped has no power, one without power is off, tripped or stopped, and
the active hub is hub 0 or 1, a step that answers a next state gives such a state. -/
def Obligations.LifecycleStaysCoherent : Prop := ∀ s t : State, s.lifeOk → step s = .next t → t.lifeOk

/-- From every state, a step that answers a next state leaves the local count, or advances it by one on an idle step, or sets it
to 0 with the power gone, or at POWER_ON or the rise of MOD_RESET_N that ends a cold reset, which begin a new boot. -/
def Obligations.LocalCountOnlyRestartsAtPower : Prop :=
  ∀ s t : State, step s = .next t →
    t.count = s.count ∨ (s.pending = [] ∧ t.count = s.count + 1) ∨
    (t.count = 0 ∧ (t.life.powered = false ∨ (t.flt.boot = s.flt.boot + 1 ∧ ∃ b,
      (s.pending.head? = some (.powerOn b) ∧ s.life.state = .off) ∨
      (s.pending.head? = some (.modResetNRise b) ∧ s.life.state = .stopped ∧ s.life.powered = false))))
end

