-- ==== Sys2Proof/Laws/State.lean ====
section
/-! SUPPORT. What each update of the state leaves and changes, one lemma per field; a step's shared operations over them. -/

namespace Sys2Proof.Machine

/-! ### State.setAtoll -/

@[simp] theorem State.setAtoll_pending (s : State) (g : Nat) (x : Atoll) : (s.setAtoll g x).pending = s.pending := rfl
@[simp] theorem State.setAtoll_count (s : State) (g : Nat) (x : Atoll) : (s.setAtoll g x).count = s.count := rfl
@[simp] theorem State.setAtoll_freeCtr (s : State) (g : Nat) (x : Atoll) : (s.setAtoll g x).freeCtr = s.freeCtr := rfl
@[simp] theorem State.setAtoll_life (s : State) (g : Nat) (x : Atoll) : (s.setAtoll g x).life = s.life := rfl
@[simp] theorem State.setAtoll_params (s : State) (g : Nat) (x : Atoll) : (s.setAtoll g x).params = s.params := rfl
@[simp] theorem State.setAtoll_parts (s : State) (g : Nat) (x : Atoll) : (s.setAtoll g x).parts = s.parts := rfl
@[simp] theorem State.setAtoll_reconfs (s : State) (g : Nat) (x : Atoll) : (s.setAtoll g x).reconfs = s.reconfs := rfl
@[simp] theorem State.setAtoll_reconfNext (s : State) (g : Nat) (x : Atoll) : (s.setAtoll g x).reconfNext = s.reconfNext := rfl
@[simp] theorem State.setAtoll_mem (s : State) (g : Nat) (x : Atoll) : (s.setAtoll g x).mem = s.mem := rfl
@[simp] theorem State.setAtoll_net (s : State) (g : Nat) (x : Atoll) : (s.setAtoll g x).net = s.net := rfl
@[simp] theorem State.setAtoll_flt (s : State) (g : Nat) (x : Atoll) : (s.setAtoll g x).flt = s.flt := rfl
@[simp] theorem State.setAtoll_host (s : State) (g : Nat) (x : Atoll) : (s.setAtoll g x).host = s.host := rfl
@[simp] theorem State.setAtoll_mailboxes (s : State) (g : Nat) (x : Atoll) : (s.setAtoll g x).mailboxes = s.mailboxes := rfl
@[simp] theorem State.setAtoll_cmdOrder (s : State) (g : Nat) (x : Atoll) : (s.setAtoll g x).cmdOrder = s.cmdOrder := rfl
@[simp] theorem State.setAtoll_events (s : State) (g : Nat) (x : Atoll) : (s.setAtoll g x).events = s.events := rfl
@[simp] theorem State.setAtoll_fab (s : State) (g : Nat) (x : Atoll) : (s.setAtoll g x).fab = s.fab := rfl
@[simp] theorem State.setAtoll_coll (s : State) (g : Nat) (x : Atoll) : (s.setAtoll g x).coll = s.coll := rfl
@[simp] theorem State.setAtoll_power (s : State) (g : Nat) (x : Atoll) : (s.setAtoll g x).power = s.power := rfl
@[simp] theorem State.setAtoll_fw (s : State) (g : Nat) (x : Atoll) : (s.setAtoll g x).fw = s.fw := rfl
@[simp] theorem State.setAtoll_mgmt (s : State) (g : Nat) (x : Atoll) : (s.setAtoll g x).mgmt = s.mgmt := rfl

/-! ### State.modAtoll -/

@[simp] theorem State.modAtoll_pending (s : State) (g : Nat) (f : Atoll → Atoll) : (s.modAtoll g f).pending = s.pending := rfl
@[simp] theorem State.modAtoll_count (s : State) (g : Nat) (f : Atoll → Atoll) : (s.modAtoll g f).count = s.count := rfl
@[simp] theorem State.modAtoll_freeCtr (s : State) (g : Nat) (f : Atoll → Atoll) : (s.modAtoll g f).freeCtr = s.freeCtr := rfl
@[simp] theorem State.modAtoll_life (s : State) (g : Nat) (f : Atoll → Atoll) : (s.modAtoll g f).life = s.life := rfl
@[simp] theorem State.modAtoll_params (s : State) (g : Nat) (f : Atoll → Atoll) : (s.modAtoll g f).params = s.params := rfl
@[simp] theorem State.modAtoll_parts (s : State) (g : Nat) (f : Atoll → Atoll) : (s.modAtoll g f).parts = s.parts := rfl
@[simp] theorem State.modAtoll_reconfs (s : State) (g : Nat) (f : Atoll → Atoll) : (s.modAtoll g f).reconfs = s.reconfs := rfl
@[simp] theorem State.modAtoll_reconfNext (s : State) (g : Nat) (f : Atoll → Atoll) : (s.modAtoll g f).reconfNext = s.reconfNext := rfl
@[simp] theorem State.modAtoll_mem (s : State) (g : Nat) (f : Atoll → Atoll) : (s.modAtoll g f).mem = s.mem := rfl
@[simp] theorem State.modAtoll_net (s : State) (g : Nat) (f : Atoll → Atoll) : (s.modAtoll g f).net = s.net := rfl
@[simp] theorem State.modAtoll_flt (s : State) (g : Nat) (f : Atoll → Atoll) : (s.modAtoll g f).flt = s.flt := rfl
@[simp] theorem State.modAtoll_host (s : State) (g : Nat) (f : Atoll → Atoll) : (s.modAtoll g f).host = s.host := rfl
@[simp] theorem State.modAtoll_mailboxes (s : State) (g : Nat) (f : Atoll → Atoll) : (s.modAtoll g f).mailboxes = s.mailboxes := rfl
@[simp] theorem State.modAtoll_cmdOrder (s : State) (g : Nat) (f : Atoll → Atoll) : (s.modAtoll g f).cmdOrder = s.cmdOrder := rfl
@[simp] theorem State.modAtoll_events (s : State) (g : Nat) (f : Atoll → Atoll) : (s.modAtoll g f).events = s.events := rfl
@[simp] theorem State.modAtoll_fab (s : State) (g : Nat) (f : Atoll → Atoll) : (s.modAtoll g f).fab = s.fab := rfl
@[simp] theorem State.modAtoll_coll (s : State) (g : Nat) (f : Atoll → Atoll) : (s.modAtoll g f).coll = s.coll := rfl
@[simp] theorem State.modAtoll_power (s : State) (g : Nat) (f : Atoll → Atoll) : (s.modAtoll g f).power = s.power := rfl
@[simp] theorem State.modAtoll_fw (s : State) (g : Nat) (f : Atoll → Atoll) : (s.modAtoll g f).fw = s.fw := rfl
@[simp] theorem State.modAtoll_mgmt (s : State) (g : Nat) (f : Atoll → Atoll) : (s.modAtoll g f).mgmt = s.mgmt := rfl

/-! ### State.modShoal -/

@[simp] theorem State.modShoal_pending (s : State) (h : Nat) (f : Shoal → Shoal) : (s.modShoal h f).pending = s.pending := rfl
@[simp] theorem State.modShoal_count (s : State) (h : Nat) (f : Shoal → Shoal) : (s.modShoal h f).count = s.count := rfl
@[simp] theorem State.modShoal_freeCtr (s : State) (h : Nat) (f : Shoal → Shoal) : (s.modShoal h f).freeCtr = s.freeCtr := rfl
@[simp] theorem State.modShoal_life (s : State) (h : Nat) (f : Shoal → Shoal) : (s.modShoal h f).life = s.life := rfl
@[simp] theorem State.modShoal_params (s : State) (h : Nat) (f : Shoal → Shoal) : (s.modShoal h f).params = s.params := rfl
@[simp] theorem State.modShoal_atolls (s : State) (h : Nat) (f : Shoal → Shoal) : (s.modShoal h f).atolls = s.atolls := rfl
@[simp] theorem State.modShoal_parts (s : State) (h : Nat) (f : Shoal → Shoal) : (s.modShoal h f).parts = s.parts := rfl
@[simp] theorem State.modShoal_reconfs (s : State) (h : Nat) (f : Shoal → Shoal) : (s.modShoal h f).reconfs = s.reconfs := rfl
@[simp] theorem State.modShoal_reconfNext (s : State) (h : Nat) (f : Shoal → Shoal) : (s.modShoal h f).reconfNext = s.reconfNext := rfl
@[simp] theorem State.modShoal_net (s : State) (h : Nat) (f : Shoal → Shoal) : (s.modShoal h f).net = s.net := rfl
@[simp] theorem State.modShoal_flt (s : State) (h : Nat) (f : Shoal → Shoal) : (s.modShoal h f).flt = s.flt := rfl
@[simp] theorem State.modShoal_host (s : State) (h : Nat) (f : Shoal → Shoal) : (s.modShoal h f).host = s.host := rfl
@[simp] theorem State.modShoal_mailboxes (s : State) (h : Nat) (f : Shoal → Shoal) : (s.modShoal h f).mailboxes = s.mailboxes := rfl
@[simp] theorem State.modShoal_cmdOrder (s : State) (h : Nat) (f : Shoal → Shoal) : (s.modShoal h f).cmdOrder = s.cmdOrder := rfl
@[simp] theorem State.modShoal_events (s : State) (h : Nat) (f : Shoal → Shoal) : (s.modShoal h f).events = s.events := rfl
@[simp] theorem State.modShoal_fab (s : State) (h : Nat) (f : Shoal → Shoal) : (s.modShoal h f).fab = s.fab := rfl
@[simp] theorem State.modShoal_coll (s : State) (h : Nat) (f : Shoal → Shoal) : (s.modShoal h f).coll = s.coll := rfl
@[simp] theorem State.modShoal_power (s : State) (h : Nat) (f : Shoal → Shoal) : (s.modShoal h f).power = s.power := rfl
@[simp] theorem State.modShoal_fw (s : State) (h : Nat) (f : Shoal → Shoal) : (s.modShoal h f).fw = s.fw := rfl
@[simp] theorem State.modShoal_mgmt (s : State) (h : Nat) (f : Shoal → Shoal) : (s.modShoal h f).mgmt = s.mgmt := rfl

/-! ### State.modMbox -/

@[simp] theorem State.modMbox_pending (s : State) (m : Nat) (f : Mailbox → Mailbox) : (s.modMbox m f).pending = s.pending := rfl
@[simp] theorem State.modMbox_count (s : State) (m : Nat) (f : Mailbox → Mailbox) : (s.modMbox m f).count = s.count := rfl
@[simp] theorem State.modMbox_freeCtr (s : State) (m : Nat) (f : Mailbox → Mailbox) : (s.modMbox m f).freeCtr = s.freeCtr := rfl
@[simp] theorem State.modMbox_life (s : State) (m : Nat) (f : Mailbox → Mailbox) : (s.modMbox m f).life = s.life := rfl
@[simp] theorem State.modMbox_params (s : State) (m : Nat) (f : Mailbox → Mailbox) : (s.modMbox m f).params = s.params := rfl
@[simp] theorem State.modMbox_atolls (s : State) (m : Nat) (f : Mailbox → Mailbox) : (s.modMbox m f).atolls = s.atolls := rfl
@[simp] theorem State.modMbox_parts (s : State) (m : Nat) (f : Mailbox → Mailbox) : (s.modMbox m f).parts = s.parts := rfl
@[simp] theorem State.modMbox_reconfs (s : State) (m : Nat) (f : Mailbox → Mailbox) : (s.modMbox m f).reconfs = s.reconfs := rfl
@[simp] theorem State.modMbox_reconfNext (s : State) (m : Nat) (f : Mailbox → Mailbox) : (s.modMbox m f).reconfNext = s.reconfNext := rfl
@[simp] theorem State.modMbox_mem (s : State) (m : Nat) (f : Mailbox → Mailbox) : (s.modMbox m f).mem = s.mem := rfl
@[simp] theorem State.modMbox_net (s : State) (m : Nat) (f : Mailbox → Mailbox) : (s.modMbox m f).net = s.net := rfl
@[simp] theorem State.modMbox_flt (s : State) (m : Nat) (f : Mailbox → Mailbox) : (s.modMbox m f).flt = s.flt := rfl
@[simp] theorem State.modMbox_host (s : State) (m : Nat) (f : Mailbox → Mailbox) : (s.modMbox m f).host = s.host := rfl
@[simp] theorem State.modMbox_cmdOrder (s : State) (m : Nat) (f : Mailbox → Mailbox) : (s.modMbox m f).cmdOrder = s.cmdOrder := rfl
@[simp] theorem State.modMbox_events (s : State) (m : Nat) (f : Mailbox → Mailbox) : (s.modMbox m f).events = s.events := rfl
@[simp] theorem State.modMbox_fab (s : State) (m : Nat) (f : Mailbox → Mailbox) : (s.modMbox m f).fab = s.fab := rfl
@[simp] theorem State.modMbox_coll (s : State) (m : Nat) (f : Mailbox → Mailbox) : (s.modMbox m f).coll = s.coll := rfl
@[simp] theorem State.modMbox_power (s : State) (m : Nat) (f : Mailbox → Mailbox) : (s.modMbox m f).power = s.power := rfl
@[simp] theorem State.modMbox_fw (s : State) (m : Nat) (f : Mailbox → Mailbox) : (s.modMbox m f).fw = s.fw := rfl
@[simp] theorem State.modMbox_mgmt (s : State) (m : Nat) (f : Mailbox → Mailbox) : (s.modMbox m f).mgmt = s.mgmt := rfl

/-! ### State.modFlt -/

@[simp] theorem State.modFlt_pending (s : State) (f : FaultSt → FaultSt) : (s.modFlt f).pending = s.pending := rfl
@[simp] theorem State.modFlt_count (s : State) (f : FaultSt → FaultSt) : (s.modFlt f).count = s.count := rfl
@[simp] theorem State.modFlt_freeCtr (s : State) (f : FaultSt → FaultSt) : (s.modFlt f).freeCtr = s.freeCtr := rfl
@[simp] theorem State.modFlt_life (s : State) (f : FaultSt → FaultSt) : (s.modFlt f).life = s.life := rfl
@[simp] theorem State.modFlt_params (s : State) (f : FaultSt → FaultSt) : (s.modFlt f).params = s.params := rfl
@[simp] theorem State.modFlt_atolls (s : State) (f : FaultSt → FaultSt) : (s.modFlt f).atolls = s.atolls := rfl
@[simp] theorem State.modFlt_parts (s : State) (f : FaultSt → FaultSt) : (s.modFlt f).parts = s.parts := rfl
@[simp] theorem State.modFlt_reconfs (s : State) (f : FaultSt → FaultSt) : (s.modFlt f).reconfs = s.reconfs := rfl
@[simp] theorem State.modFlt_reconfNext (s : State) (f : FaultSt → FaultSt) : (s.modFlt f).reconfNext = s.reconfNext := rfl
@[simp] theorem State.modFlt_mem (s : State) (f : FaultSt → FaultSt) : (s.modFlt f).mem = s.mem := rfl
@[simp] theorem State.modFlt_net (s : State) (f : FaultSt → FaultSt) : (s.modFlt f).net = s.net := rfl
@[simp] theorem State.modFlt_flt (s : State) (f : FaultSt → FaultSt) : (s.modFlt f).flt = f s.flt := rfl
@[simp] theorem State.modFlt_host (s : State) (f : FaultSt → FaultSt) : (s.modFlt f).host = s.host := rfl
@[simp] theorem State.modFlt_mailboxes (s : State) (f : FaultSt → FaultSt) : (s.modFlt f).mailboxes = s.mailboxes := rfl
@[simp] theorem State.modFlt_cmdOrder (s : State) (f : FaultSt → FaultSt) : (s.modFlt f).cmdOrder = s.cmdOrder := rfl
@[simp] theorem State.modFlt_events (s : State) (f : FaultSt → FaultSt) : (s.modFlt f).events = s.events := rfl
@[simp] theorem State.modFlt_fab (s : State) (f : FaultSt → FaultSt) : (s.modFlt f).fab = s.fab := rfl
@[simp] theorem State.modFlt_coll (s : State) (f : FaultSt → FaultSt) : (s.modFlt f).coll = s.coll := rfl
@[simp] theorem State.modFlt_power (s : State) (f : FaultSt → FaultSt) : (s.modFlt f).power = s.power := rfl
@[simp] theorem State.modFlt_fw (s : State) (f : FaultSt → FaultSt) : (s.modFlt f).fw = s.fw := rfl
@[simp] theorem State.modFlt_mgmt (s : State) (f : FaultSt → FaultSt) : (s.modFlt f).mgmt = s.mgmt := rfl

/-! ### State.modMem -/

@[simp] theorem State.modMem_pending (s : State) (f : MemSt → MemSt) : (s.modMem f).pending = s.pending := rfl
@[simp] theorem State.modMem_count (s : State) (f : MemSt → MemSt) : (s.modMem f).count = s.count := rfl
@[simp] theorem State.modMem_freeCtr (s : State) (f : MemSt → MemSt) : (s.modMem f).freeCtr = s.freeCtr := rfl
@[simp] theorem State.modMem_life (s : State) (f : MemSt → MemSt) : (s.modMem f).life = s.life := rfl
@[simp] theorem State.modMem_params (s : State) (f : MemSt → MemSt) : (s.modMem f).params = s.params := rfl
@[simp] theorem State.modMem_atolls (s : State) (f : MemSt → MemSt) : (s.modMem f).atolls = s.atolls := rfl
@[simp] theorem State.modMem_parts (s : State) (f : MemSt → MemSt) : (s.modMem f).parts = s.parts := rfl
@[simp] theorem State.modMem_reconfs (s : State) (f : MemSt → MemSt) : (s.modMem f).reconfs = s.reconfs := rfl
@[simp] theorem State.modMem_reconfNext (s : State) (f : MemSt → MemSt) : (s.modMem f).reconfNext = s.reconfNext := rfl
@[simp] theorem State.modMem_mem (s : State) (f : MemSt → MemSt) : (s.modMem f).mem = f s.mem := rfl
@[simp] theorem State.modMem_net (s : State) (f : MemSt → MemSt) : (s.modMem f).net = s.net := rfl
@[simp] theorem State.modMem_flt (s : State) (f : MemSt → MemSt) : (s.modMem f).flt = s.flt := rfl
@[simp] theorem State.modMem_host (s : State) (f : MemSt → MemSt) : (s.modMem f).host = s.host := rfl
@[simp] theorem State.modMem_mailboxes (s : State) (f : MemSt → MemSt) : (s.modMem f).mailboxes = s.mailboxes := rfl
@[simp] theorem State.modMem_cmdOrder (s : State) (f : MemSt → MemSt) : (s.modMem f).cmdOrder = s.cmdOrder := rfl
@[simp] theorem State.modMem_events (s : State) (f : MemSt → MemSt) : (s.modMem f).events = s.events := rfl
@[simp] theorem State.modMem_fab (s : State) (f : MemSt → MemSt) : (s.modMem f).fab = s.fab := rfl
@[simp] theorem State.modMem_coll (s : State) (f : MemSt → MemSt) : (s.modMem f).coll = s.coll := rfl
@[simp] theorem State.modMem_power (s : State) (f : MemSt → MemSt) : (s.modMem f).power = s.power := rfl
@[simp] theorem State.modMem_fw (s : State) (f : MemSt → MemSt) : (s.modMem f).fw = s.fw := rfl
@[simp] theorem State.modMem_mgmt (s : State) (f : MemSt → MemSt) : (s.modMem f).mgmt = s.mgmt := rfl

/-! ### State.modNet -/

@[simp] theorem State.modNet_pending (s : State) (f : NetSt → NetSt) : (s.modNet f).pending = s.pending := rfl
@[simp] theorem State.modNet_count (s : State) (f : NetSt → NetSt) : (s.modNet f).count = s.count := rfl
@[simp] theorem State.modNet_freeCtr (s : State) (f : NetSt → NetSt) : (s.modNet f).freeCtr = s.freeCtr := rfl
@[simp] theorem State.modNet_life (s : State) (f : NetSt → NetSt) : (s.modNet f).life = s.life := rfl
@[simp] theorem State.modNet_params (s : State) (f : NetSt → NetSt) : (s.modNet f).params = s.params := rfl
@[simp] theorem State.modNet_atolls (s : State) (f : NetSt → NetSt) : (s.modNet f).atolls = s.atolls := rfl
@[simp] theorem State.modNet_parts (s : State) (f : NetSt → NetSt) : (s.modNet f).parts = s.parts := rfl
@[simp] theorem State.modNet_reconfs (s : State) (f : NetSt → NetSt) : (s.modNet f).reconfs = s.reconfs := rfl
@[simp] theorem State.modNet_reconfNext (s : State) (f : NetSt → NetSt) : (s.modNet f).reconfNext = s.reconfNext := rfl
@[simp] theorem State.modNet_mem (s : State) (f : NetSt → NetSt) : (s.modNet f).mem = s.mem := rfl
@[simp] theorem State.modNet_net (s : State) (f : NetSt → NetSt) : (s.modNet f).net = f s.net := rfl
@[simp] theorem State.modNet_flt (s : State) (f : NetSt → NetSt) : (s.modNet f).flt = s.flt := rfl
@[simp] theorem State.modNet_host (s : State) (f : NetSt → NetSt) : (s.modNet f).host = s.host := rfl
@[simp] theorem State.modNet_mailboxes (s : State) (f : NetSt → NetSt) : (s.modNet f).mailboxes = s.mailboxes := rfl
@[simp] theorem State.modNet_cmdOrder (s : State) (f : NetSt → NetSt) : (s.modNet f).cmdOrder = s.cmdOrder := rfl
@[simp] theorem State.modNet_events (s : State) (f : NetSt → NetSt) : (s.modNet f).events = s.events := rfl
@[simp] theorem State.modNet_fab (s : State) (f : NetSt → NetSt) : (s.modNet f).fab = s.fab := rfl
@[simp] theorem State.modNet_coll (s : State) (f : NetSt → NetSt) : (s.modNet f).coll = s.coll := rfl
@[simp] theorem State.modNet_power (s : State) (f : NetSt → NetSt) : (s.modNet f).power = s.power := rfl
@[simp] theorem State.modNet_fw (s : State) (f : NetSt → NetSt) : (s.modNet f).fw = s.fw := rfl
@[simp] theorem State.modNet_mgmt (s : State) (f : NetSt → NetSt) : (s.modNet f).mgmt = s.mgmt := rfl

/-! ### State.modPower -/

@[simp] theorem State.modPower_pending (s : State) (f : PowerSt → PowerSt) : (s.modPower f).pending = s.pending := rfl
@[simp] theorem State.modPower_count (s : State) (f : PowerSt → PowerSt) : (s.modPower f).count = s.count := rfl
@[simp] theorem State.modPower_freeCtr (s : State) (f : PowerSt → PowerSt) : (s.modPower f).freeCtr = s.freeCtr := rfl
@[simp] theorem State.modPower_life (s : State) (f : PowerSt → PowerSt) : (s.modPower f).life = s.life := rfl
@[simp] theorem State.modPower_params (s : State) (f : PowerSt → PowerSt) : (s.modPower f).params = s.params := rfl
@[simp] theorem State.modPower_atolls (s : State) (f : PowerSt → PowerSt) : (s.modPower f).atolls = s.atolls := rfl
@[simp] theorem State.modPower_parts (s : State) (f : PowerSt → PowerSt) : (s.modPower f).parts = s.parts := rfl
@[simp] theorem State.modPower_reconfs (s : State) (f : PowerSt → PowerSt) : (s.modPower f).reconfs = s.reconfs := rfl
@[simp] theorem State.modPower_reconfNext (s : State) (f : PowerSt → PowerSt) : (s.modPower f).reconfNext = s.reconfNext := rfl
@[simp] theorem State.modPower_mem (s : State) (f : PowerSt → PowerSt) : (s.modPower f).mem = s.mem := rfl
@[simp] theorem State.modPower_net (s : State) (f : PowerSt → PowerSt) : (s.modPower f).net = s.net := rfl
@[simp] theorem State.modPower_flt (s : State) (f : PowerSt → PowerSt) : (s.modPower f).flt = s.flt := rfl
@[simp] theorem State.modPower_host (s : State) (f : PowerSt → PowerSt) : (s.modPower f).host = s.host := rfl
@[simp] theorem State.modPower_mailboxes (s : State) (f : PowerSt → PowerSt) : (s.modPower f).mailboxes = s.mailboxes := rfl
@[simp] theorem State.modPower_cmdOrder (s : State) (f : PowerSt → PowerSt) : (s.modPower f).cmdOrder = s.cmdOrder := rfl
@[simp] theorem State.modPower_events (s : State) (f : PowerSt → PowerSt) : (s.modPower f).events = s.events := rfl
@[simp] theorem State.modPower_fab (s : State) (f : PowerSt → PowerSt) : (s.modPower f).fab = s.fab := rfl
@[simp] theorem State.modPower_coll (s : State) (f : PowerSt → PowerSt) : (s.modPower f).coll = s.coll := rfl
@[simp] theorem State.modPower_power (s : State) (f : PowerSt → PowerSt) : (s.modPower f).power = f s.power := rfl
@[simp] theorem State.modPower_fw (s : State) (f : PowerSt → PowerSt) : (s.modPower f).fw = s.fw := rfl
@[simp] theorem State.modPower_mgmt (s : State) (f : PowerSt → PowerSt) : (s.modPower f).mgmt = s.mgmt := rfl

/-! ### State.modFw -/

@[simp] theorem State.modFw_pending (s : State) (f : FwSt → FwSt) : (s.modFw f).pending = s.pending := rfl
@[simp] theorem State.modFw_count (s : State) (f : FwSt → FwSt) : (s.modFw f).count = s.count := rfl
@[simp] theorem State.modFw_freeCtr (s : State) (f : FwSt → FwSt) : (s.modFw f).freeCtr = s.freeCtr := rfl
@[simp] theorem State.modFw_life (s : State) (f : FwSt → FwSt) : (s.modFw f).life = s.life := rfl
@[simp] theorem State.modFw_params (s : State) (f : FwSt → FwSt) : (s.modFw f).params = s.params := rfl
@[simp] theorem State.modFw_atolls (s : State) (f : FwSt → FwSt) : (s.modFw f).atolls = s.atolls := rfl
@[simp] theorem State.modFw_parts (s : State) (f : FwSt → FwSt) : (s.modFw f).parts = s.parts := rfl
@[simp] theorem State.modFw_reconfs (s : State) (f : FwSt → FwSt) : (s.modFw f).reconfs = s.reconfs := rfl
@[simp] theorem State.modFw_reconfNext (s : State) (f : FwSt → FwSt) : (s.modFw f).reconfNext = s.reconfNext := rfl
@[simp] theorem State.modFw_mem (s : State) (f : FwSt → FwSt) : (s.modFw f).mem = s.mem := rfl
@[simp] theorem State.modFw_net (s : State) (f : FwSt → FwSt) : (s.modFw f).net = s.net := rfl
@[simp] theorem State.modFw_flt (s : State) (f : FwSt → FwSt) : (s.modFw f).flt = s.flt := rfl
@[simp] theorem State.modFw_host (s : State) (f : FwSt → FwSt) : (s.modFw f).host = s.host := rfl
@[simp] theorem State.modFw_mailboxes (s : State) (f : FwSt → FwSt) : (s.modFw f).mailboxes = s.mailboxes := rfl
@[simp] theorem State.modFw_cmdOrder (s : State) (f : FwSt → FwSt) : (s.modFw f).cmdOrder = s.cmdOrder := rfl
@[simp] theorem State.modFw_events (s : State) (f : FwSt → FwSt) : (s.modFw f).events = s.events := rfl
@[simp] theorem State.modFw_fab (s : State) (f : FwSt → FwSt) : (s.modFw f).fab = s.fab := rfl
@[simp] theorem State.modFw_coll (s : State) (f : FwSt → FwSt) : (s.modFw f).coll = s.coll := rfl
@[simp] theorem State.modFw_power (s : State) (f : FwSt → FwSt) : (s.modFw f).power = s.power := rfl
@[simp] theorem State.modFw_fw (s : State) (f : FwSt → FwSt) : (s.modFw f).fw = f s.fw := rfl
@[simp] theorem State.modFw_mgmt (s : State) (f : FwSt → FwSt) : (s.modFw f).mgmt = s.mgmt := rfl

/-! ### State.modMgmt -/

@[simp] theorem State.modMgmt_pending (s : State) (f : MgmtSt → MgmtSt) : (s.modMgmt f).pending = s.pending := rfl
@[simp] theorem State.modMgmt_count (s : State) (f : MgmtSt → MgmtSt) : (s.modMgmt f).count = s.count := rfl
@[simp] theorem State.modMgmt_freeCtr (s : State) (f : MgmtSt → MgmtSt) : (s.modMgmt f).freeCtr = s.freeCtr := rfl
@[simp] theorem State.modMgmt_life (s : State) (f : MgmtSt → MgmtSt) : (s.modMgmt f).life = s.life := rfl
@[simp] theorem State.modMgmt_params (s : State) (f : MgmtSt → MgmtSt) : (s.modMgmt f).params = s.params := rfl
@[simp] theorem State.modMgmt_atolls (s : State) (f : MgmtSt → MgmtSt) : (s.modMgmt f).atolls = s.atolls := rfl
@[simp] theorem State.modMgmt_parts (s : State) (f : MgmtSt → MgmtSt) : (s.modMgmt f).parts = s.parts := rfl
@[simp] theorem State.modMgmt_reconfs (s : State) (f : MgmtSt → MgmtSt) : (s.modMgmt f).reconfs = s.reconfs := rfl
@[simp] theorem State.modMgmt_reconfNext (s : State) (f : MgmtSt → MgmtSt) : (s.modMgmt f).reconfNext = s.reconfNext := rfl
@[simp] theorem State.modMgmt_mem (s : State) (f : MgmtSt → MgmtSt) : (s.modMgmt f).mem = s.mem := rfl
@[simp] theorem State.modMgmt_net (s : State) (f : MgmtSt → MgmtSt) : (s.modMgmt f).net = s.net := rfl
@[simp] theorem State.modMgmt_flt (s : State) (f : MgmtSt → MgmtSt) : (s.modMgmt f).flt = s.flt := rfl
@[simp] theorem State.modMgmt_host (s : State) (f : MgmtSt → MgmtSt) : (s.modMgmt f).host = s.host := rfl
@[simp] theorem State.modMgmt_mailboxes (s : State) (f : MgmtSt → MgmtSt) : (s.modMgmt f).mailboxes = s.mailboxes := rfl
@[simp] theorem State.modMgmt_cmdOrder (s : State) (f : MgmtSt → MgmtSt) : (s.modMgmt f).cmdOrder = s.cmdOrder := rfl
@[simp] theorem State.modMgmt_events (s : State) (f : MgmtSt → MgmtSt) : (s.modMgmt f).events = s.events := rfl
@[simp] theorem State.modMgmt_fab (s : State) (f : MgmtSt → MgmtSt) : (s.modMgmt f).fab = s.fab := rfl
@[simp] theorem State.modMgmt_coll (s : State) (f : MgmtSt → MgmtSt) : (s.modMgmt f).coll = s.coll := rfl
@[simp] theorem State.modMgmt_power (s : State) (f : MgmtSt → MgmtSt) : (s.modMgmt f).power = s.power := rfl
@[simp] theorem State.modMgmt_fw (s : State) (f : MgmtSt → MgmtSt) : (s.modMgmt f).fw = s.fw := rfl
@[simp] theorem State.modMgmt_mgmt (s : State) (f : MgmtSt → MgmtSt) : (s.modMgmt f).mgmt = f s.mgmt := rfl

/-! ### State.modLife -/

@[simp] theorem State.modLife_pending (s : State) (f : LifeSt → LifeSt) : (s.modLife f).pending = s.pending := rfl
@[simp] theorem State.modLife_count (s : State) (f : LifeSt → LifeSt) : (s.modLife f).count = s.count := rfl
@[simp] theorem State.modLife_freeCtr (s : State) (f : LifeSt → LifeSt) : (s.modLife f).freeCtr = s.freeCtr := rfl
@[simp] theorem State.modLife_life (s : State) (f : LifeSt → LifeSt) : (s.modLife f).life = f s.life := rfl
@[simp] theorem State.modLife_params (s : State) (f : LifeSt → LifeSt) : (s.modLife f).params = s.params := rfl
@[simp] theorem State.modLife_atolls (s : State) (f : LifeSt → LifeSt) : (s.modLife f).atolls = s.atolls := rfl
@[simp] theorem State.modLife_parts (s : State) (f : LifeSt → LifeSt) : (s.modLife f).parts = s.parts := rfl
@[simp] theorem State.modLife_reconfs (s : State) (f : LifeSt → LifeSt) : (s.modLife f).reconfs = s.reconfs := rfl
@[simp] theorem State.modLife_reconfNext (s : State) (f : LifeSt → LifeSt) : (s.modLife f).reconfNext = s.reconfNext := rfl
@[simp] theorem State.modLife_mem (s : State) (f : LifeSt → LifeSt) : (s.modLife f).mem = s.mem := rfl
@[simp] theorem State.modLife_net (s : State) (f : LifeSt → LifeSt) : (s.modLife f).net = s.net := rfl
@[simp] theorem State.modLife_flt (s : State) (f : LifeSt → LifeSt) : (s.modLife f).flt = s.flt := rfl
@[simp] theorem State.modLife_host (s : State) (f : LifeSt → LifeSt) : (s.modLife f).host = s.host := rfl
@[simp] theorem State.modLife_mailboxes (s : State) (f : LifeSt → LifeSt) : (s.modLife f).mailboxes = s.mailboxes := rfl
@[simp] theorem State.modLife_cmdOrder (s : State) (f : LifeSt → LifeSt) : (s.modLife f).cmdOrder = s.cmdOrder := rfl
@[simp] theorem State.modLife_events (s : State) (f : LifeSt → LifeSt) : (s.modLife f).events = s.events := rfl
@[simp] theorem State.modLife_fab (s : State) (f : LifeSt → LifeSt) : (s.modLife f).fab = s.fab := rfl
@[simp] theorem State.modLife_coll (s : State) (f : LifeSt → LifeSt) : (s.modLife f).coll = s.coll := rfl
@[simp] theorem State.modLife_power (s : State) (f : LifeSt → LifeSt) : (s.modLife f).power = s.power := rfl
@[simp] theorem State.modLife_fw (s : State) (f : LifeSt → LifeSt) : (s.modLife f).fw = s.fw := rfl
@[simp] theorem State.modLife_mgmt (s : State) (f : LifeSt → LifeSt) : (s.modLife f).mgmt = s.mgmt := rfl

/-! ### State.modHost -/

@[simp] theorem State.modHost_pending (s : State) (f : HostSt → HostSt) : (s.modHost f).pending = s.pending := rfl
@[simp] theorem State.modHost_count (s : State) (f : HostSt → HostSt) : (s.modHost f).count = s.count := rfl
@[simp] theorem State.modHost_freeCtr (s : State) (f : HostSt → HostSt) : (s.modHost f).freeCtr = s.freeCtr := rfl
@[simp] theorem State.modHost_life (s : State) (f : HostSt → HostSt) : (s.modHost f).life = s.life := rfl
@[simp] theorem State.modHost_params (s : State) (f : HostSt → HostSt) : (s.modHost f).params = s.params := rfl
@[simp] theorem State.modHost_atolls (s : State) (f : HostSt → HostSt) : (s.modHost f).atolls = s.atolls := rfl
@[simp] theorem State.modHost_parts (s : State) (f : HostSt → HostSt) : (s.modHost f).parts = s.parts := rfl
@[simp] theorem State.modHost_reconfs (s : State) (f : HostSt → HostSt) : (s.modHost f).reconfs = s.reconfs := rfl
@[simp] theorem State.modHost_reconfNext (s : State) (f : HostSt → HostSt) : (s.modHost f).reconfNext = s.reconfNext := rfl
@[simp] theorem State.modHost_mem (s : State) (f : HostSt → HostSt) : (s.modHost f).mem = s.mem := rfl
@[simp] theorem State.modHost_net (s : State) (f : HostSt → HostSt) : (s.modHost f).net = s.net := rfl
@[simp] theorem State.modHost_flt (s : State) (f : HostSt → HostSt) : (s.modHost f).flt = s.flt := rfl
@[simp] theorem State.modHost_host (s : State) (f : HostSt → HostSt) : (s.modHost f).host = f s.host := rfl
@[simp] theorem State.modHost_mailboxes (s : State) (f : HostSt → HostSt) : (s.modHost f).mailboxes = s.mailboxes := rfl
@[simp] theorem State.modHost_cmdOrder (s : State) (f : HostSt → HostSt) : (s.modHost f).cmdOrder = s.cmdOrder := rfl
@[simp] theorem State.modHost_events (s : State) (f : HostSt → HostSt) : (s.modHost f).events = s.events := rfl
@[simp] theorem State.modHost_fab (s : State) (f : HostSt → HostSt) : (s.modHost f).fab = s.fab := rfl
@[simp] theorem State.modHost_coll (s : State) (f : HostSt → HostSt) : (s.modHost f).coll = s.coll := rfl
@[simp] theorem State.modHost_power (s : State) (f : HostSt → HostSt) : (s.modHost f).power = s.power := rfl
@[simp] theorem State.modHost_fw (s : State) (f : HostSt → HostSt) : (s.modHost f).fw = s.fw := rfl
@[simp] theorem State.modHost_mgmt (s : State) (f : HostSt → HostSt) : (s.modHost f).mgmt = s.mgmt := rfl

/-! ### State.modWindow -/

@[simp] theorem State.modWindow_pending (s : State) (w : Nat) (f : Window → Window) : (s.modWindow w f).pending = s.pending := rfl
@[simp] theorem State.modWindow_count (s : State) (w : Nat) (f : Window → Window) : (s.modWindow w f).count = s.count := rfl
@[simp] theorem State.modWindow_freeCtr (s : State) (w : Nat) (f : Window → Window) : (s.modWindow w f).freeCtr = s.freeCtr := rfl
@[simp] theorem State.modWindow_life (s : State) (w : Nat) (f : Window → Window) : (s.modWindow w f).life = s.life := rfl
@[simp] theorem State.modWindow_params (s : State) (w : Nat) (f : Window → Window) : (s.modWindow w f).params = s.params := rfl
@[simp] theorem State.modWindow_atolls (s : State) (w : Nat) (f : Window → Window) : (s.modWindow w f).atolls = s.atolls := rfl
@[simp] theorem State.modWindow_parts (s : State) (w : Nat) (f : Window → Window) : (s.modWindow w f).parts = s.parts := rfl
@[simp] theorem State.modWindow_reconfs (s : State) (w : Nat) (f : Window → Window) : (s.modWindow w f).reconfs = s.reconfs := rfl
@[simp] theorem State.modWindow_reconfNext (s : State) (w : Nat) (f : Window → Window) : (s.modWindow w f).reconfNext = s.reconfNext := rfl
@[simp] theorem State.modWindow_net (s : State) (w : Nat) (f : Window → Window) : (s.modWindow w f).net = s.net := rfl
@[simp] theorem State.modWindow_flt (s : State) (w : Nat) (f : Window → Window) : (s.modWindow w f).flt = s.flt := rfl
@[simp] theorem State.modWindow_host (s : State) (w : Nat) (f : Window → Window) : (s.modWindow w f).host = s.host := rfl
@[simp] theorem State.modWindow_mailboxes (s : State) (w : Nat) (f : Window → Window) : (s.modWindow w f).mailboxes = s.mailboxes := rfl
@[simp] theorem State.modWindow_cmdOrder (s : State) (w : Nat) (f : Window → Window) : (s.modWindow w f).cmdOrder = s.cmdOrder := rfl
@[simp] theorem State.modWindow_events (s : State) (w : Nat) (f : Window → Window) : (s.modWindow w f).events = s.events := rfl
@[simp] theorem State.modWindow_fab (s : State) (w : Nat) (f : Window → Window) : (s.modWindow w f).fab = s.fab := rfl
@[simp] theorem State.modWindow_coll (s : State) (w : Nat) (f : Window → Window) : (s.modWindow w f).coll = s.coll := rfl
@[simp] theorem State.modWindow_power (s : State) (w : Nat) (f : Window → Window) : (s.modWindow w f).power = s.power := rfl
@[simp] theorem State.modWindow_fw (s : State) (w : Nat) (f : Window → Window) : (s.modWindow w f).fw = s.fw := rfl
@[simp] theorem State.modWindow_mgmt (s : State) (w : Nat) (f : Window → Window) : (s.modWindow w f).mgmt = s.mgmt := rfl

/-! ### State.raise -/

@[simp] theorem State.raise_pending (s : State) (r : RecIn) : (s.raise r).pending = s.pending := rfl
@[simp] theorem State.raise_count (s : State) (r : RecIn) : (s.raise r).count = s.count := rfl
@[simp] theorem State.raise_freeCtr (s : State) (r : RecIn) : (s.raise r).freeCtr = s.freeCtr := rfl
@[simp] theorem State.raise_life (s : State) (r : RecIn) : (s.raise r).life = s.life := rfl
@[simp] theorem State.raise_params (s : State) (r : RecIn) : (s.raise r).params = s.params := rfl
@[simp] theorem State.raise_atolls (s : State) (r : RecIn) : (s.raise r).atolls = s.atolls := rfl
@[simp] theorem State.raise_parts (s : State) (r : RecIn) : (s.raise r).parts = s.parts := rfl
@[simp] theorem State.raise_reconfs (s : State) (r : RecIn) : (s.raise r).reconfs = s.reconfs := rfl
@[simp] theorem State.raise_reconfNext (s : State) (r : RecIn) : (s.raise r).reconfNext = s.reconfNext := rfl
@[simp] theorem State.raise_mem (s : State) (r : RecIn) : (s.raise r).mem = s.mem := rfl
@[simp] theorem State.raise_net (s : State) (r : RecIn) : (s.raise r).net = s.net := rfl
@[simp] theorem State.raise_host (s : State) (r : RecIn) : (s.raise r).host = s.host := rfl
@[simp] theorem State.raise_mailboxes (s : State) (r : RecIn) : (s.raise r).mailboxes = s.mailboxes := rfl
@[simp] theorem State.raise_cmdOrder (s : State) (r : RecIn) : (s.raise r).cmdOrder = s.cmdOrder := rfl
@[simp] theorem State.raise_events (s : State) (r : RecIn) : (s.raise r).events = s.events := rfl
@[simp] theorem State.raise_fab (s : State) (r : RecIn) : (s.raise r).fab = s.fab := rfl
@[simp] theorem State.raise_coll (s : State) (r : RecIn) : (s.raise r).coll = s.coll := rfl
@[simp] theorem State.raise_power (s : State) (r : RecIn) : (s.raise r).power = s.power := rfl
@[simp] theorem State.raise_fw (s : State) (r : RecIn) : (s.raise r).fw = s.fw := rfl
@[simp] theorem State.raise_mgmt (s : State) (r : RecIn) : (s.raise r).mgmt = s.mgmt := rfl

/-! ### State.postEvent -/

@[simp] theorem State.postEvent_pending (s : State) (e : Event) : (s.postEvent e).pending = s.pending := rfl
@[simp] theorem State.postEvent_count (s : State) (e : Event) : (s.postEvent e).count = s.count := rfl
@[simp] theorem State.postEvent_freeCtr (s : State) (e : Event) : (s.postEvent e).freeCtr = s.freeCtr := rfl
@[simp] theorem State.postEvent_life (s : State) (e : Event) : (s.postEvent e).life = s.life := rfl
@[simp] theorem State.postEvent_params (s : State) (e : Event) : (s.postEvent e).params = s.params := rfl
@[simp] theorem State.postEvent_atolls (s : State) (e : Event) : (s.postEvent e).atolls = s.atolls := rfl
@[simp] theorem State.postEvent_parts (s : State) (e : Event) : (s.postEvent e).parts = s.parts := rfl
@[simp] theorem State.postEvent_reconfs (s : State) (e : Event) : (s.postEvent e).reconfs = s.reconfs := rfl
@[simp] theorem State.postEvent_reconfNext (s : State) (e : Event) : (s.postEvent e).reconfNext = s.reconfNext := rfl
@[simp] theorem State.postEvent_mem (s : State) (e : Event) : (s.postEvent e).mem = s.mem := rfl
@[simp] theorem State.postEvent_net (s : State) (e : Event) : (s.postEvent e).net = s.net := rfl
@[simp] theorem State.postEvent_flt (s : State) (e : Event) : (s.postEvent e).flt = s.flt := rfl
@[simp] theorem State.postEvent_host (s : State) (e : Event) : (s.postEvent e).host = s.host := rfl
@[simp] theorem State.postEvent_mailboxes (s : State) (e : Event) : (s.postEvent e).mailboxes = s.mailboxes := rfl
@[simp] theorem State.postEvent_cmdOrder (s : State) (e : Event) : (s.postEvent e).cmdOrder = s.cmdOrder := rfl
@[simp] theorem State.postEvent_fab (s : State) (e : Event) : (s.postEvent e).fab = s.fab := rfl
@[simp] theorem State.postEvent_coll (s : State) (e : Event) : (s.postEvent e).coll = s.coll := rfl
@[simp] theorem State.postEvent_power (s : State) (e : Event) : (s.postEvent e).power = s.power := rfl
@[simp] theorem State.postEvent_fw (s : State) (e : Event) : (s.postEvent e).fw = s.fw := rfl
@[simp] theorem State.postEvent_mgmt (s : State) (e : Event) : (s.postEvent e).mgmt = s.mgmt := rfl

/-! ### State.freshen -/

@[simp] theorem State.freshen_pending (s : State) : s.freshen.pending = s.pending := rfl
@[simp] theorem State.freshen_count (s : State) : s.freshen.count = s.count := rfl
@[simp] theorem State.freshen_life (s : State) : s.freshen.life = s.life := rfl
@[simp] theorem State.freshen_params (s : State) : s.freshen.params = s.params := rfl
@[simp] theorem State.freshen_atolls (s : State) : s.freshen.atolls = s.atolls := rfl
@[simp] theorem State.freshen_parts (s : State) : s.freshen.parts = s.parts := rfl
@[simp] theorem State.freshen_reconfs (s : State) : s.freshen.reconfs = s.reconfs := rfl
@[simp] theorem State.freshen_reconfNext (s : State) : s.freshen.reconfNext = s.reconfNext := rfl
@[simp] theorem State.freshen_mem (s : State) : s.freshen.mem = s.mem := rfl
@[simp] theorem State.freshen_net (s : State) : s.freshen.net = s.net := rfl
@[simp] theorem State.freshen_flt (s : State) : s.freshen.flt = s.flt := rfl
@[simp] theorem State.freshen_host (s : State) : s.freshen.host = s.host := rfl
@[simp] theorem State.freshen_mailboxes (s : State) : s.freshen.mailboxes = s.mailboxes := rfl
@[simp] theorem State.freshen_cmdOrder (s : State) : s.freshen.cmdOrder = s.cmdOrder := rfl
@[simp] theorem State.freshen_events (s : State) : s.freshen.events = s.events := rfl
@[simp] theorem State.freshen_fab (s : State) : s.freshen.fab = s.fab := rfl
@[simp] theorem State.freshen_coll (s : State) : s.freshen.coll = s.coll := rfl
@[simp] theorem State.freshen_power (s : State) : s.freshen.power = s.power := rfl
@[simp] theorem State.freshen_fw (s : State) : s.freshen.fw = s.fw := rfl
@[simp] theorem State.freshen_mgmt (s : State) : s.freshen.mgmt = s.mgmt := rfl

/-! ### State.askReset -/

@[simp] theorem State.askReset_pending (s : State) (c : Bool) : (s.askReset c).pending = s.pending := rfl
@[simp] theorem State.askReset_count (s : State) (c : Bool) : (s.askReset c).count = s.count := rfl
@[simp] theorem State.askReset_freeCtr (s : State) (c : Bool) : (s.askReset c).freeCtr = s.freeCtr := rfl
@[simp] theorem State.askReset_life (s : State) (c : Bool) : (s.askReset c).life = s.life := rfl
@[simp] theorem State.askReset_params (s : State) (c : Bool) : (s.askReset c).params = s.params := rfl
@[simp] theorem State.askReset_atolls (s : State) (c : Bool) : (s.askReset c).atolls = s.atolls := rfl
@[simp] theorem State.askReset_parts (s : State) (c : Bool) : (s.askReset c).parts = s.parts := rfl
@[simp] theorem State.askReset_reconfs (s : State) (c : Bool) : (s.askReset c).reconfs = s.reconfs := rfl
@[simp] theorem State.askReset_reconfNext (s : State) (c : Bool) : (s.askReset c).reconfNext = s.reconfNext := rfl
@[simp] theorem State.askReset_mem (s : State) (c : Bool) : (s.askReset c).mem = s.mem := rfl
@[simp] theorem State.askReset_net (s : State) (c : Bool) : (s.askReset c).net = s.net := rfl
@[simp] theorem State.askReset_host (s : State) (c : Bool) : (s.askReset c).host = s.host := rfl
@[simp] theorem State.askReset_mailboxes (s : State) (c : Bool) : (s.askReset c).mailboxes = s.mailboxes := rfl
@[simp] theorem State.askReset_cmdOrder (s : State) (c : Bool) : (s.askReset c).cmdOrder = s.cmdOrder := rfl
@[simp] theorem State.askReset_events (s : State) (c : Bool) : (s.askReset c).events = s.events := rfl
@[simp] theorem State.askReset_fab (s : State) (c : Bool) : (s.askReset c).fab = s.fab := rfl
@[simp] theorem State.askReset_coll (s : State) (c : Bool) : (s.askReset c).coll = s.coll := rfl
@[simp] theorem State.askReset_power (s : State) (c : Bool) : (s.askReset c).power = s.power := rfl
@[simp] theorem State.askReset_fw (s : State) (c : Bool) : (s.askReset c).fw = s.fw := rfl
@[simp] theorem State.askReset_mgmt (s : State) (c : Bool) : (s.askReset c).mgmt = s.mgmt := rfl

/-! ### State.modPart -/

@[simp] theorem State.modPart_pending (s : State) (p : Nat) (f : Part → Part) : (s.modPart p f).pending = s.pending := by
  unfold State.modPart; split <;> rfl
@[simp] theorem State.modPart_count (s : State) (p : Nat) (f : Part → Part) : (s.modPart p f).count = s.count := by
  unfold State.modPart; split <;> rfl
@[simp] theorem State.modPart_freeCtr (s : State) (p : Nat) (f : Part → Part) : (s.modPart p f).freeCtr = s.freeCtr := by
  unfold State.modPart; split <;> rfl
@[simp] theorem State.modPart_life (s : State) (p : Nat) (f : Part → Part) : (s.modPart p f).life = s.life := by
  unfold State.modPart; split <;> rfl
@[simp] theorem State.modPart_params (s : State) (p : Nat) (f : Part → Part) : (s.modPart p f).params = s.params := by
  unfold State.modPart; split <;> rfl
@[simp] theorem State.modPart_atolls (s : State) (p : Nat) (f : Part → Part) : (s.modPart p f).atolls = s.atolls := by
  unfold State.modPart; split <;> rfl
@[simp] theorem State.modPart_reconfs (s : State) (p : Nat) (f : Part → Part) : (s.modPart p f).reconfs = s.reconfs := by
  unfold State.modPart; split <;> rfl
@[simp] theorem State.modPart_reconfNext (s : State) (p : Nat) (f : Part → Part) : (s.modPart p f).reconfNext = s.reconfNext := by
  unfold State.modPart; split <;> rfl
@[simp] theorem State.modPart_mem (s : State) (p : Nat) (f : Part → Part) : (s.modPart p f).mem = s.mem := by
  unfold State.modPart; split <;> rfl
@[simp] theorem State.modPart_net (s : State) (p : Nat) (f : Part → Part) : (s.modPart p f).net = s.net := by
  unfold State.modPart; split <;> rfl
@[simp] theorem State.modPart_flt (s : State) (p : Nat) (f : Part → Part) : (s.modPart p f).flt = s.flt := by
  unfold State.modPart; split <;> rfl
@[simp] theorem State.modPart_host (s : State) (p : Nat) (f : Part → Part) : (s.modPart p f).host = s.host := by
  unfold State.modPart; split <;> rfl
@[simp] theorem State.modPart_mailboxes (s : State) (p : Nat) (f : Part → Part) : (s.modPart p f).mailboxes = s.mailboxes := by
  unfold State.modPart; split <;> rfl
@[simp] theorem State.modPart_cmdOrder (s : State) (p : Nat) (f : Part → Part) : (s.modPart p f).cmdOrder = s.cmdOrder := by
  unfold State.modPart; split <;> rfl
@[simp] theorem State.modPart_events (s : State) (p : Nat) (f : Part → Part) : (s.modPart p f).events = s.events := by
  unfold State.modPart; split <;> rfl
@[simp] theorem State.modPart_fab (s : State) (p : Nat) (f : Part → Part) : (s.modPart p f).fab = s.fab := by
  unfold State.modPart; split <;> rfl
@[simp] theorem State.modPart_coll (s : State) (p : Nat) (f : Part → Part) : (s.modPart p f).coll = s.coll := by
  unfold State.modPart; split <;> rfl
@[simp] theorem State.modPart_power (s : State) (p : Nat) (f : Part → Part) : (s.modPart p f).power = s.power := by
  unfold State.modPart; split <;> rfl
@[simp] theorem State.modPart_fw (s : State) (p : Nat) (f : Part → Part) : (s.modPart p f).fw = s.fw := by
  unfold State.modPart; split <;> rfl
@[simp] theorem State.modPart_mgmt (s : State) (p : Nat) (f : Part → Part) : (s.modPart p f).mgmt = s.mgmt := by
  unfold State.modPart; split <;> rfl

end Sys2Proof.Machine
end

