-- ==== Sys2Proof/Laws/Memory.lean ====
section
/-! SUPPORT. Byte memory keeps its canonical form under every operation, and the read after a write; the same for tables. -/

namespace Sys2Proof.Machine

/-! ### Tables -/

/-- A table answers what was last set at a key. -/
@[simp] theorem Tbl.get?_set_self {α : Type} (t : Tbl α) (a : Nat) (v : α) : Tbl.get? (Tbl.set t a v) a = some v := by
  induction t with
  | nil => simp [Tbl.set, Tbl.get?]
  | cons e t ih =>
    obtain ⟨k, w⟩ := e
    unfold Tbl.set
    by_cases hk : k = a
    · simp [hk, Tbl.get?]
    · by_cases hl : a < k
      · simp [hk, hl, Tbl.get?]
      · simp [hk, hl, Tbl.get?, ih]

/-- Setting a key leaves every other key's value. -/
theorem Tbl.get?_set_ne {α : Type} (t : Tbl α) {a b : Nat} (v : α) (h : b ≠ a) : Tbl.get? (Tbl.set t a v) b = Tbl.get? t b := by
  induction t with
  | nil =>
    have hne : a ≠ b := fun e => h e.symm
    simp [Tbl.set, Tbl.get?, hne]
  | cons e t ih =>
    obtain ⟨k, w⟩ := e
    have hne : a ≠ b := fun e => h e.symm
    unfold Tbl.set
    by_cases hk : k = a
    · subst hk
      by_cases hl : b < k
      · simp only [if_true, Tbl.get?, hne, if_false, hl]
      · simp only [if_true, Tbl.get?, hne, if_false, hl]
    · by_cases hl : a < k
      · simp only [hk, if_false, hl, if_true, Tbl.get?, hne]
        by_cases hb : b < a
        · have : b < k := by omega
          have hkb : k ≠ b := by omega
          simp [hb, this, hkb]
        · simp [hb]
      · simp only [hk, if_false, hl, Tbl.get?, ih]

@[simp] theorem Tbl.getD_set_self {α : Type} (t : Tbl α) (a : Nat) (v d : α) : Tbl.getD (Tbl.set t a v) a d = v := by
  simp [Tbl.getD]

theorem Tbl.getD_set_ne {α : Type} (t : Tbl α) {a b : Nat} (v d : α) (h : b ≠ a) : Tbl.getD (Tbl.set t a v) b d = Tbl.getD t b d := by
  simp [Tbl.getD, Tbl.get?_set_ne t v h]

/-- Every entry of a table after a set is the new one or an old one. -/
theorem Tbl.mem_set {α : Type} {t : Tbl α} {a : Nat} {v : α} {e : Nat × α} (h : e ∈ Tbl.set t a v) : e = (a, v) ∨ e ∈ t := by
  induction t with
  | nil => simpa [Tbl.set] using h
  | cons x t ih =>
    obtain ⟨k, w⟩ := x
    unfold Tbl.set at h
    split at h
    · rcases List.mem_cons.1 h with h | h
      · exact .inl h
      · exact .inr (List.mem_cons_of_mem _ h)
    · split at h
      · rcases List.mem_cons.1 h with h | h
        · exact .inl h
        · exact .inr h
      · rcases List.mem_cons.1 h with h | h
        · exact .inr (h ▸ List.mem_cons_self ..)
        · exact (ih h).imp id (List.mem_cons_of_mem _)

/-- The value a table answers is the default or an entry's. -/
theorem Tbl.getD_mem {α : Type} (t : Tbl α) (a : Nat) (d : α) : Tbl.getD t a d = d ∨ ∃ e ∈ t, e.2 = Tbl.getD t a d := by
  induction t with
  | nil => exact .inl rfl
  | cons x t ih =>
    obtain ⟨k, w⟩ := x
    by_cases hk : k = a
    · exact .inr ⟨(k, w), List.mem_cons_self .., by simp [Tbl.getD, Tbl.get?, hk]⟩
    · by_cases hl : a < k
      · exact .inl (by simp [Tbl.getD, Tbl.get?, hk, hl])
      · have e : Tbl.getD ((k, w) :: t) a d = Tbl.getD t a d := by simp [Tbl.getD, Tbl.get?, hk, hl]
        rw [e]
        exact ih.imp id fun ⟨y, hy, he⟩ => ⟨y, List.mem_cons_of_mem _ hy, he⟩

@[simp] theorem State.setAtoll_atoll (s : State) (g : Nat) (x : Atoll) : (s.setAtoll g x).atoll g = x := by
  simp [State.atoll, State.setAtoll]
@[simp] theorem State.modAtoll_atoll (s : State) (g : Nat) (f : Atoll → Atoll) : (s.modAtoll g f).atoll g = f (s.atoll g) := by
  simp [State.modAtoll]
theorem State.modAtoll_atoll_ne (s : State) {g h : Nat} (f : Atoll → Atoll) (hg : h ≠ g) : (s.modAtoll g f).atoll h = s.atoll h := by
  simp [State.modAtoll, State.setAtoll, State.atoll, Tbl.getD_set_ne _ _ _ hg]
@[simp] theorem State.modShoal_shoal (s : State) (h : Nat) (f : Shoal → Shoal) : (s.modShoal h f).shoal h = f (s.shoal h) := by
  simp [State.modShoal, State.shoal]
theorem State.modShoal_shoal_ne (s : State) {h k : Nat} (f : Shoal → Shoal) (hk : k ≠ h) : (s.modShoal h f).shoal k = s.shoal k := by
  simp [State.modShoal, State.shoal, Tbl.getD_set_ne _ _ _ hk]
@[simp] theorem State.modMbox_mbox (s : State) (m : Nat) (f : Mailbox → Mailbox) : (s.modMbox m f).mbox m = f (s.mbox m) := by
  simp [State.modMbox, State.mbox]
theorem State.modMbox_mbox_ne (s : State) {m n : Nat} (f : Mailbox → Mailbox) (hn : n ≠ m) : (s.modMbox m f).mbox n = s.mbox n := by
  simp [State.modMbox, State.mbox, Tbl.getD_set_ne _ _ _ hn]
theorem State.modPart_part (s : State) (p : Nat) (f : Part → Part) : (s.modPart p f).part? p = (s.part? p).map f := by
  unfold State.modPart
  cases h : s.part? p with
  | none => simp [h]
  | some x => simp [State.part?]

/-! ### Byte memory -/

theorem Mem.put_mem {m : Mem} {a : Nat} {v : Byte} {e : Nat × Byte} (h : e ∈ Mem.put m a v) : e = (a, v) ∨ e ∈ m := by
  induction m with
  | nil => simpa [Mem.put] using h
  | cons x t ih =>
    obtain ⟨k, w⟩ := x
    unfold Mem.put at h
    split at h
    · rcases List.mem_cons.1 h with h | h
      · exact .inl h
      · exact .inr (List.mem_cons_of_mem _ h)
    · split at h
      · rcases List.mem_cons.1 h with h | h
        · exact .inl h
        · exact .inr h
      · rcases List.mem_cons.1 h with h | h
        · exact .inr (h ▸ List.mem_cons_self ..)
        · exact (ih h).imp id (List.mem_cons_of_mem _)

/-- Putting a non-zero byte keeps the form. -/
theorem Mem.put_wf {m : Mem} (hm : Memory.wf m) (a : Nat) {v : Byte} (hv : v ≠ 0) : Memory.wf (Mem.put m a v) := by
  refine ⟨?_, fun e he => ?_⟩
  · obtain ⟨hs, -⟩ := hm
    induction m with
    | nil => simp [Mem.put]
    | cons x t ih =>
      obtain ⟨k, w⟩ := x
      obtain ⟨hk, ht⟩ := List.pairwise_cons.1 hs
      unfold Mem.put
      split
      · rename_i e
        subst e
        exact List.pairwise_cons.2 ⟨hk, ht⟩
      · split
        · rename_i hl
          refine List.pairwise_cons.2 ⟨fun y hy => ?_, hs⟩
          rcases List.mem_cons.1 hy with h | h
          · simpa [h] using hl
          · exact Nat.lt_trans hl (hk y h)
        · rename_i hne hl
          refine List.pairwise_cons.2 ⟨fun y hy => ?_, ih ht⟩
          rcases Mem.put_mem hy with h | h
          · simp only [h]; omega
          · exact hk y h
  · rcases Mem.put_mem he with h | h
    · simpa [h] using hv
    · exact hm.2 e h

/-- Filtering keeps the form. -/
theorem Memory.wf_filter {m : Mem} (hm : Memory.wf m) (q : Nat × Byte → Bool) : Memory.wf (m.filter q) :=
  ⟨hm.1.filter q, fun e he => hm.2 e (List.mem_filter.1 he).1⟩

/-- A byte write keeps the form. -/
theorem Mem.write_wf {m : Mem} (hm : Memory.wf m) (a : Nat) (v : Byte) : Memory.wf (Mem.write m a v) := by
  unfold Mem.write
  split
  · exact Memory.wf_filter hm _
  · exact Mem.put_wf hm a ‹_›

/-- A run of byte writes keeps the form. -/
theorem Mem.writeBytes_wf {m : Mem} (hm : Memory.wf m) (a : Nat) (bs : List Byte) : Memory.wf (Mem.writeBytes m a bs) := by
  induction bs generalizing m a with
  | nil => exact hm
  | cons b bs ih => exact ih (Mem.write_wf hm a b) (a + 1)

/-- A value write keeps the form. -/
theorem Mem.writeNat_wf {m : Mem} (hm : Memory.wf m) (a n v : Nat) : Memory.wf (Mem.writeNat m a n v) :=
  Mem.writeBytes_wf hm a _

/-- Clearing a range keeps the form. -/
theorem Mem.clear_wf {m : Mem} (hm : Memory.wf m) (a n : Nat) : Memory.wf (Mem.clear m a n) := Memory.wf_filter hm _

theorem Memory.wf_nil : Memory.wf [] := ⟨List.Pairwise.nil, fun _ h => absurd h List.not_mem_nil⟩

/-- A byte below every address listed reads 0. -/
theorem Mem.read_below {m : Mem} {a : Nat} (h : ∀ e ∈ m, a < e.1) : Mem.read m a = 0 := by
  cases m with
  | nil => rfl
  | cons e t =>
    have := h e (List.mem_cons_self ..)
    have hne : e.1 ≠ a := by omega
    simp [Mem.read, hne, this]

theorem Mem.read_put {m : Mem} (hm : Memory.wf m) (a b : Nat) (v : Byte) :
    Mem.read (Mem.put m a v) b = if b = a then v else Mem.read m b := by
  obtain ⟨hs, -⟩ := hm
  induction m with
  | nil =>
    by_cases h : b = a
    · simp [Mem.put, Mem.read, h]
    · have : a ≠ b := fun e => h e.symm
      simp [Mem.put, Mem.read, h, this]
  | cons x t ih =>
    obtain ⟨k, w⟩ := x
    obtain ⟨hk, ht⟩ := List.pairwise_cons.1 hs
    have h0 := ih ht
    unfold Mem.put
    by_cases h1 : k = a
    · subst h1
      by_cases hb : b = k
      · simp [Mem.read, hb]
      · have hb' : k ≠ b := fun e => hb e.symm
        simp [Mem.read, hb, hb']
    · by_cases h2 : a < k
      · by_cases hb : b = a
        · simp [h1, h2, Mem.read, hb]
        · have hb' : a ≠ b := fun e => hb e.symm
          by_cases hl : b < a
          · have h3 : k ≠ b := by omega
            have h4 : b < k := by omega
            simp [h1, h2, Mem.read, hb, hb', hl, h3, h4]
          · simp [h1, h2, Mem.read, hb, hb', hl]
      · simp only [h1, h2, if_false, Mem.read]
        by_cases hkb : k = b
        · have : b ≠ a := by omega
          simp [hkb, this]
        · by_cases hl : b < k
          · have : b ≠ a := by omega
            simp [hkb, hl, this]
          · simp [hkb, hl, h0]

theorem Mem.read_filter {m : Mem} (hm : Memory.wf m) (q : Nat → Bool) (b : Nat) :
    Mem.read (m.filter fun e => q e.1) b = if q b then Mem.read m b else 0 := by
  obtain ⟨hs, -⟩ := hm
  induction m with
  | nil => simp [Mem.read]
  | cons x t ih =>
    obtain ⟨k, w⟩ := x
    obtain ⟨hk, ht⟩ := List.pairwise_cons.1 hs
    have h0 := ih ht
    by_cases hq : q k = true
    · rw [List.filter_cons_of_pos (by simpa using hq)]
      by_cases hkb : k = b
      · subst hkb; simp [Mem.read, hq]
      · by_cases hl : b < k
        · simp [Mem.read, hkb, hl]
        · simp [Mem.read, hkb, hl, h0]
    · rw [List.filter_cons_of_neg (by simpa using hq), h0]
      by_cases hkb : k = b
      · subst hkb; simp [hq]
      · by_cases hl : b < k
        · have : Mem.read t b = 0 := Mem.read_below fun e he => by have := hk e he; simp only at this; omega
          simp [Mem.read, hkb, hl, this]
        · simp [Mem.read, hkb, hl]

/-- R1 of chapter 0: a byte reads as last written, and a write leaves every other byte. -/
theorem Mem.read_write {m : Mem} (hm : Memory.wf m) (a b : Nat) (v : Byte) :
    Mem.read (Mem.write m a v) b = if b = a then v else Mem.read m b := by
  unfold Mem.write
  split
  · rename_i h0
    rw [Mem.read_filter hm (fun k => k != a) b]
    by_cases hb : b = a
    · simp [hb, h0]
    · simp [hb]
  · exact Mem.read_put hm a b v

/-- A run of writes changes the bytes it covers and no other. -/
theorem Mem.read_writeBytes {m : Mem} (hm : Memory.wf m) (a b : Nat) (bs : List Byte) :
    Mem.read (Mem.writeBytes m a bs) b = if a ≤ b ∧ b < a + bs.length then bs.getD (b - a) 0 else Mem.read m b := by
  induction bs generalizing m a with
  | nil =>
    have : ¬ (a ≤ b ∧ b < a + ([] : List Byte).length) := by simp
    rw [if_neg this]; rfl
  | cons v bs ih =>
    rw [Mem.writeBytes, ih (Mem.write_wf hm a v) (a + 1), Mem.read_write hm]
    by_cases h1 : b = a
    · subst h1
      have : ¬ (b + 1 ≤ b ∧ b < b + 1 + bs.length) := by omega
      rw [if_neg this]
      simp
    · by_cases h2 : a + 1 ≤ b ∧ b < a + 1 + bs.length
      · have h3 : a ≤ b ∧ b < a + (v :: bs).length := by simp; omega
        rw [if_pos h2, if_pos h3]
        have : b - a = (b - (a + 1)) + 1 := by omega
        rw [this]; rfl
      · have h3 : ¬ (a ≤ b ∧ b < a + (v :: bs).length) := by simp; omega
        rw [if_neg h2, if_neg h3, if_neg h1]

/-- A cleared range reads 0, every other byte as before. -/
theorem Mem.read_clear {m : Mem} (hm : Memory.wf m) (a n b : Nat) :
    Mem.read (Mem.clear m a n) b = if a ≤ b ∧ b < a + n then 0 else Mem.read m b := by
  unfold Mem.clear
  rw [Mem.read_filter hm (fun k => decide (k < a) || decide (a + n ≤ k)) b]
  by_cases h : a ≤ b ∧ b < a + n
  · have : ¬ (b < a ∨ a + n ≤ b) := by omega
    simp [h, this]
  · have : b < a ∨ a + n ≤ b := by omega
    simp [h, this]

end Sys2Proof.Machine
end

