-- ==== Sys2Proof/Laws/Ops.lean ====
section
/-! SUPPORT. What each shared operation of Machine/Ops.lean can do, one lemma each: records, notices, floods, fences, escalations,
rollback triggers, touches; and the terms of Safety.lean over them. -/

namespace Sys2Proof.Machine

/-! ### Changes of one atoll -/

/-- A change of one atoll leaves every other one. -/
theorem State.onlyAtoll_modAtoll (s : State) (g : Nat) (f : Atoll → Atoll) : s.onlyAtoll (s.modAtoll g f) g :=
  ⟨rfl, fun _ h => State.modAtoll_atoll_ne s f h⟩
theorem State.onlyAtoll_refl (s : State) (g : Nat) : s.onlyAtoll s g := ⟨rfl, fun _ _ => rfl⟩
theorem State.onlyAtoll_trans {s t u : State} {g : Nat} (h : s.onlyAtoll t g) (k : t.onlyAtoll u g) : s.onlyAtoll u g := by
  obtain ⟨h1, h2⟩ := h
  obtain ⟨k1, k2⟩ := k
  refine ⟨?_, fun a ha => (k2 a ha).trans (h2 a ha)⟩
  rw [k1, h1]

@[simp] theorem Atoll.modCore_core (a : Atoll) (c : Nat) (f : Core → Core) : (a.modCore c f).core c = f (a.core c) := by
  simp [Atoll.modCore, Atoll.core]
theorem Atoll.modCore_core_ne (a : Atoll) {c d : Nat} (f : Core → Core) (h : d ≠ c) : (a.modCore c f).core d = a.core d := by
  simp [Atoll.modCore, Atoll.core, Tbl.getD_set_ne _ _ _ h]
@[simp] theorem Atoll.modEngine_engine (a : Atoll) (e : Nat) (f : Engine → Engine) : (a.modEngine e f).engine e = f (a.engine e) := by
  simp [Atoll.modEngine, Atoll.engine]
theorem Atoll.modEngine_engine_ne (a : Atoll) {e d : Nat} (f : Engine → Engine) (h : d ≠ e) :
    (a.modEngine e f).engine d = a.engine d := by
  simp [Atoll.modEngine, Atoll.engine, Tbl.getD_set_ne _ _ _ h]
@[simp] theorem Atoll.modVec_vec (a : Atoll) (v : Nat) (f : VecEngine → VecEngine) : (a.modVec v f).vec v = f (a.vec v) := by
  simp [Atoll.modVec, Atoll.vec]
@[simp] theorem Atoll.modSeq_seq (a : Atoll) (u : Nat) (f : Sequencer → Sequencer) : (a.modSeq u f).seq u = f (a.seq u) := by
  simp [Atoll.modSeq, Atoll.seq]
theorem Atoll.modSeq_seq_ne (a : Atoll) {u v : Nat} (f : Sequencer → Sequencer) (h : v ≠ u) : (a.modSeq u f).seq v = a.seq v := by
  simp [Atoll.modSeq, Atoll.seq, Tbl.getD_set_ne _ _ _ h]
@[simp] theorem Atoll.modQueue_queue (a : Atoll) (q : Nat) (f : Queue → Queue) : (a.modQueue q f).queue q = f (a.queue q) := by
  simp [Atoll.modQueue, Atoll.queue]
theorem Atoll.modQueue_queue_ne (a : Atoll) {q r : Nat} (f : Queue → Queue) (h : r ≠ q) :
    (a.modQueue q f).queue r = a.queue r := by
  simp [Atoll.modQueue, Atoll.queue, Tbl.getD_set_ne _ _ _ h]
@[simp] theorem Part.modStream_stream (p : Part) (st : Nat) (f : Stream → Stream) : (p.modStream st f).stream st = f (p.stream st) := by
  simp [Part.modStream, Part.stream]
theorem Part.modStream_stream_ne (p : Part) {st x : Nat} (f : Stream → Stream) (h : x ≠ st) :
    (p.modStream st f).stream x = p.stream x := by
  simp [Part.modStream, Part.stream, Tbl.getD_set_ne _ _ _ h]

/-- A register of a core reads as last written; x0 reads 0. -/
theorem Core.reg_setReg (c : Core) (r n : Nat) (v : DWord) :
    (c.setReg r v).reg n = if n = 0 then 0 else if n = r then v else c.reg n := by
  by_cases hn : n = 0
  · simp [Core.reg, hn]
  · by_cases hr : r = 0
    · have : n ≠ r := by omega
      simp [Core.reg, Core.setReg, hr, hn]
    · by_cases h : n = r
      · simp [Core.reg, Core.setReg, hr, h]
      · simp [Core.reg, Core.setReg, hr, hn, h, Tbl.getD_set_ne _ _ _ h]

/-! ### Records (10 R269-R271) -/

/-- A record changes the fault state alone: one collector and the wear events. -/
theorem State.raise_frame (s : State) (r : RecIn) :
    ∃ c w, s.raise r = { s with flt := { s.flt with collectors := c, wear := w } } := ⟨_, _, rfl⟩

/-- A record stands in its die's collector. -/
theorem State.recorded_raise (s : State) (r : RecIn) : s.recorded (s.raise r) r.unit r.cls := by
  refine ⟨{ unit := r.unit, cls := r.cls, opKind := r.opKind, opCode := r.opCode % 4096, count := s.count, temp := (s.sensed r.unit).1,
            volt := (s.sensed r.unit).2, jobTag := ((r.part.bind fun p => s.part? p).map Part.jobTag).getD 0,
            seq := (s.collector (uNode r.unit)).seq, part := r.part, scope := r.scope, actions := r.actions,
            detail := detailBits r.detail, coalesce := 0 }, rfl, rfl, rfl, rfl, ?_⟩
  exact Tbl.getD_set_self _ _ _ _

/-- What leaves the collectors keeps a record. -/
theorem State.recorded.mono {s t t' : State} {u : Word} {cls : Half} (h : s.recorded t u cls)
    (k : t'.flt.collectors = t.flt.collectors) : s.recorded t' u cls := by
  obtain ⟨r, h1, h2, h3, h4, h5⟩ := h
  exact ⟨r, h1, h2, h3, h4, by simpa [State.collector, k] using h5⟩

/-- A record of a state with the same collector and count. -/
theorem State.recorded.congr {s s' t : State} {u : Word} {cls : Half} (h : s'.recorded t u cls)
    (k : s'.flt.collectors = s.flt.collectors) (hc : s'.count = s.count) : s.recorded t u cls := by
  obtain ⟨r, h1, h2, h3, h4, h5⟩ := h
  have hn : s'.nextSeq u = s.nextSeq u := by simp [State.nextSeq, State.collector, k]
  exact ⟨r, h1, h2, h3.trans hc, h4.trans hn, by rw [h5]; simp [State.nextSeq, State.collector, k]⟩

@[simp] theorem State.raise_fenced (s : State) (r : RecIn) : (s.raise r).flt.fenced = s.flt.fenced := rfl
@[simp] theorem State.raise_isFenced (s : State) (r : RecIn) (u : Word) : (s.raise r).isFenced u = s.isFenced u := rfl
@[simp] theorem State.raise_atoll (s : State) (r : RecIn) (g : Nat) : (s.raise r).atoll g = s.atoll g := rfl
@[simp] theorem State.raise_positionOf (s : State) (r : RecIn) (g : Nat) : (s.raise r).positionOf g = s.positionOf g := rfl

/-! ### Events and floods -/

/-- A notice hands the hub one event. -/
theorem State.notice_frame (s : State) (p kind status : Nat) (seq : Word) (report : Half) :
    ∃ e, s.notice p kind status seq report = { s with events := s.events ++ [e] } := ⟨_, rfl⟩

theorem State.notice_fold_frame (l : Tbl Part) (s : State) (kind : Nat) (seq : Word) :
    ∃ es, l.foldl (fun t e => t.notice e.1 kind 0 seq) s = { s with events := es } := by
  induction l generalizing s with
  | nil => exact ⟨s.events, rfl⟩
  | cons x l ih =>
    obtain ⟨es, h⟩ := ih (s.notice x.1 kind 0 seq)
    exact ⟨es, by rw [List.foldl_cons, h]; rfl⟩

/-- Notices to every partition change the events alone. -/
theorem State.noticeAll_frame (s : State) (kind : Nat) (seq : Word) : ∃ es, s.noticeAll kind seq = { s with events := es } :=
  State.notice_fold_frame s.parts s kind seq

/-- A flood changes the flood number and the floods to send. -/
theorem State.flood_frame (s : State) (tag : Word) (reason : Nat) (rst : Bool) (step seq : Word) :
    ∃ n fs, s.flood tag reason rst step seq = { s with flt := { s.flt with floodNumber := n, floodsOut := fs } } := ⟨_, _, rfl⟩

/-- Floods for every job tag change the flood number and the floods to send. -/
theorem State.floodAll_frame (s : State) (reason : Nat) (rst : Bool) (seq : Word) :
    ∃ n fs, s.floodAll reason rst seq = { s with flt := { s.flt with floodNumber := n, floodsOut := fs } } := by
  unfold State.floodAll
  suffices h : ∀ (l : Tbl Part) (a : List Word × State),
      (∃ n fs, a.2 = { s with flt := { s.flt with floodNumber := n, floodsOut := fs } }) →
      ∃ n fs, (l.foldl (fun (a : List Word × State) e =>
        if a.1.contains e.2.jobTag ∨ e.2.jobTag = 0 then a
        else (e.2.jobTag :: a.1, a.2.flood e.2.jobTag reason rst (if e.2.stepOpen then e.2.step else 0) seq)) a).2 =
          { s with flt := { s.flt with floodNumber := n, floodsOut := fs } } from h _ _ ⟨_, _, rfl⟩
  intro l
  induction l with
  | nil => exact fun a h => h
  | cons x l ih =>
    intro a h
    rw [List.foldl_cons]
    apply ih
    split
    · exact h
    · obtain ⟨n, fs, h⟩ := h
      exact ⟨_, _, by simp only [h]; rfl⟩

/-- Asking for a module reset changes that request alone. -/
theorem State.askReset_frame (s : State) (c : Bool) : ∃ r, s.askReset c = { s with flt := { s.flt with resetPending := r } } := ⟨_, rfl⟩

/-! ### Fences and escalations -/

/-- The health check posts notices and asks for a module reset, or does nothing. -/
theorem State.checkHealth_frame (s : State) :
    ∃ es r, s.checkHealth = { s with events := es, flt := { s.flt with resetPending := r } } := by
  unfold State.checkHealth
  split
  · obtain ⟨es, h⟩ := s.noticeAll_frame 7 0
    exact ⟨es, _, by rw [h]; rfl⟩
  · exact ⟨s.events, s.flt.resetPending, rfl⟩

/-- A fence changes the fenced units, the fence map entries to write, the events and the reset request. -/
theorem State.fenceUnit_frame (s : State) (u : Word) (cls : Half) (seq : Word) (source : BitVec 2) (retry : Bool) :
    ∃ es r fs q, s.fenceUnit u cls seq source retry =
      { s with events := es, flt := { s.flt with resetPending := r, fenced := fs, fenceQueue := q } } := by
  unfold State.fenceUnit
  split
  · exact ⟨_, _, _, _, rfl⟩
  · obtain ⟨es, r, h⟩ := (s.modFlt fun f => { f with fenced := f.fenced ++ [u], fenceQueue := f.fenceQueue ++
      [{ unit := u, cls := cls, source := source, retry := retry, boot := f.boot, recordSeq := seq }] }).checkHealth_frame
    exact ⟨es, r, _, _, by rw [h]; rfl⟩

/-- The fenced units after a fence. -/
theorem State.fenceUnit_fenced (s : State) (u : Word) (cls : Half) (seq : Word) (source : BitVec 2) (retry : Bool) :
    (s.fenceUnit u cls seq source retry).flt.fenced = if s.isFenced u then s.flt.fenced else s.flt.fenced ++ [u] := by
  unfold State.fenceUnit
  split
  · rfl
  · obtain ⟨es, r, h⟩ := (s.modFlt fun f => { f with fenced := f.fenced ++ [u], fenceQueue := f.fenceQueue ++
      [{ unit := u, cls := cls, source := source, retry := retry, boot := f.boot, recordSeq := seq }] }).checkHealth_frame
    rw [h]; rfl

/-- A fenced unit is fenced, and no unit returns. -/
@[simp] theorem State.fenceUnit_isFenced (s : State) (u : Word) (cls : Half) (seq : Word) (source : BitVec 2) (retry : Bool) :
    (s.fenceUnit u cls seq source retry).isFenced u = true := by
  unfold State.isFenced
  rw [State.fenceUnit_fenced]
  split
  · assumption
  · simp

theorem State.fenceUnit_isFenced_of (s : State) {v : Word} (u : Word) (cls : Half) (seq : Word) (source : BitVec 2) (retry : Bool)
    (h : s.isFenced v = true) : (s.fenceUnit u cls seq source retry).isFenced v = true := by
  unfold State.isFenced at *
  rw [State.fenceUnit_fenced]
  split
  · exact h
  · rw [List.contains_iff_mem] at h ⊢; exact List.mem_append_left _ h

@[simp] theorem State.fenceUnit_collectors (s : State) (u : Word) (cls : Half) (seq : Word) (source : BitVec 2) (retry : Bool) :
    (s.fenceUnit u cls seq source retry).flt.collectors = s.flt.collectors := by
  obtain ⟨es, r, fs, q, h⟩ := s.fenceUnit_frame u cls seq source retry
  rw [h]
@[simp] theorem State.fenceUnit_atolls (s : State) (u : Word) (cls : Half) (seq : Word) (source : BitVec 2) (retry : Bool) :
    (s.fenceUnit u cls seq source retry).atolls = s.atolls := by
  obtain ⟨es, r, fs, q, h⟩ := s.fenceUnit_frame u cls seq source retry
  rw [h]
@[simp] theorem State.fenceUnit_atoll (s : State) (u : Word) (cls : Half) (seq : Word) (source : BitVec 2) (retry : Bool) (g : Nat) :
    (s.fenceUnit u cls seq source retry).atoll g = s.atoll g := by simp [State.atoll]
@[simp] theorem State.fenceUnit_parts (s : State) (u : Word) (cls : Half) (seq : Word) (source : BitVec 2) (retry : Bool) :
    (s.fenceUnit u cls seq source retry).parts = s.parts := by
  obtain ⟨es, r, fs, q, h⟩ := s.fenceUnit_frame u cls seq source retry
  rw [h]
@[simp] theorem State.fenceUnit_count (s : State) (u : Word) (cls : Half) (seq : Word) (source : BitVec 2) (retry : Bool) :
    (s.fenceUnit u cls seq source retry).count = s.count := by
  obtain ⟨es, r, fs, q, h⟩ := s.fenceUnit_frame u cls seq source retry
  rw [h]
@[simp] theorem State.fenceUnit_life (s : State) (u : Word) (cls : Half) (seq : Word) (source : BitVec 2) (retry : Bool) :
    (s.fenceUnit u cls seq source retry).life = s.life := by
  obtain ⟨es, r, fs, q, h⟩ := s.fenceUnit_frame u cls seq source retry
  rw [h]

/-- A record, then its fence: the record stands and the unit is fenced. -/
theorem State.recorded_fenceUnit (s : State) (r : RecIn) (u : Word) (cls : Half) (seq : Word) (source : BitVec 2) (retry : Bool) :
    s.recorded ((s.raise r).fenceUnit u cls seq source retry) r.unit r.cls :=
  (s.recorded_raise r).mono (by simp)

/-- An escalation changes the escalations of the last second; a fatal one also floods, posts and asks for a reset. -/
theorem State.escalate_frame (s : State) (seq : Word) :
    ∃ ev es ft fq n fs r, s.escalate seq =
      { s with events := ev, flt := { s.flt with escalations := es, fatal := ft, fatalSeq := fq, floodNumber := n, floodsOut := fs,
                                                 resetPending := r } } := by
  unfold State.escalate
  simp only
  split
  · obtain ⟨n, fs, h⟩ := State.floodAll_frame ((s.modFlt fun f => { f with escalations :=
      (s.flt.escalations.filter fun t => decide (s.count.toNat - t.toNat < 100000000)) ++ [s.count] }).modFlt fun f =>
        { f with fatal := true, fatalSeq := seq }) 1 true seq
    rw [h]
    obtain ⟨es, h⟩ := State.noticeAll_frame ({ (s.modFlt fun f => { f with escalations :=
      (s.flt.escalations.filter fun t => decide (s.count.toNat - t.toNat < 100000000)) ++ [s.count] }).modFlt fun f =>
        { f with fatal := true, fatalSeq := seq } with flt := { ((s.modFlt fun f => { f with escalations :=
      (s.flt.escalations.filter fun t => decide (s.count.toNat - t.toNat < 100000000)) ++ [s.count] }).modFlt fun f =>
        { f with fatal := true, fatalSeq := seq }).flt with floodNumber := n, floodsOut := fs } }) 7 seq
    rw [h]
    exact ⟨_, _, _, _, _, _, _, rfl⟩
  · exact ⟨_, _, _, _, _, _, _, rfl⟩

/-- A trigger changes its partition alone. -/
theorem State.trigger_frame (s : State) (p : Nat) (x : Trigger) : ∃ ps, s.trigger p x = { s with parts := ps } := by
  unfold State.trigger State.modPart
  split
  · exact ⟨_, rfl⟩
  · exact ⟨s.parts, rfl⟩

/-- A whole-atoll fence fences the unit and its site; what else changes is the events, the fences and the partition's triggers. -/
theorem State.fenceAtoll_spec (s : State) (g : Nat) (u : Word) (cls : Half) (seq : Word) (addr : Option DWord) :
    (s.fenceAtoll g u cls seq addr).isFenced u = true ∧ (s.fenceAtoll g u cls seq addr).isFenced (siteUnit g) = true ∧
    ∃ es r fs q ps, s.fenceAtoll g u cls seq addr =
      { s with events := es, flt := { s.flt with resetPending := r, fenced := fs, fenceQueue := q }, parts := ps } := by
  have h1 := s.fenceUnit_isFenced u cls seq 1 false
  have h2 := State.fenceUnit_isFenced_of _ (siteUnit g) cls seq 1 false h1
  have h3 := (s.fenceUnit u cls seq).fenceUnit_isFenced (siteUnit g) cls seq 1 false
  obtain ⟨es, r, fs, q, k⟩ := s.fenceUnit_frame u cls seq 1 false
  obtain ⟨es', r', fs', q', k'⟩ := (s.fenceUnit u cls seq).fenceUnit_frame (siteUnit g) cls seq 1 false
  unfold State.fenceAtoll
  split
  · rename_i p pos _
    obtain ⟨ps, e⟩ := ((s.fenceUnit u cls seq).fenceUnit (siteUnit g) cls seq).trigger_frame p
      { cls := cls, addr := addr, position := some pos, recordSeq := seq }
    refine ⟨?_, ?_, es', r', fs', q', ps, ?_⟩
    · rw [e]; exact h2
    · rw [e]; exact h3
    · rw [e, k', k]
  · refine ⟨h2, h3, es', r', fs', q', s.parts, ?_⟩
    rw [k', k]

@[simp] theorem State.fenceAtoll_collectors (s : State) (g : Nat) (u : Word) (cls : Half) (seq : Word) (addr : Option DWord) :
    (s.fenceAtoll g u cls seq addr).flt.collectors = s.flt.collectors := by
  obtain ⟨-, -, es, r, fs, q, ps, h⟩ := s.fenceAtoll_spec g u cls seq addr
  rw [h]

/-- A touch changes the touch log alone. -/
theorem State.touchUnit_frame (s : State) (u : Word) (p : Nat) : ∃ l, s.touchUnit u p = { s with flt := { s.flt with touch := l } } := by
  unfold State.touchUnit
  split
  · exact ⟨s.flt.touch, rfl⟩
  · exact ⟨_, rfl⟩

end Sys2Proof.Machine
end

