-- ==== Sys2Proof/Laws/Lagoon.lean ====
section
/-! SUPPORT. What stores to a lagoon do (03 R25, R54). -/

namespace Sys2Proof.Machine

/-- Writing a run in two parts. -/
theorem Mem.writeBytes_append (m : Mem) (a : Nat) (xs ys : List Byte) :
    Mem.writeBytes m a (xs ++ ys) = Mem.writeBytes (Mem.writeBytes m a xs) (a + xs.length) ys := by
  induction xs generalizing m a with
  | nil => simp [Mem.writeBytes]
  | cons x xs ih => simp [Mem.writeBytes, ih, Nat.add_assoc, Nat.add_comm 1]

theorem Atoll.storeLines_frame (k : Nat) (a : Atoll) (off : Nat) (tag : BitVec 5) (data : List Byte) :
    ∃ l m, Atoll.storeLines k a off tag data = { a with lagoon := l, lineMeta := m } := by
  induction k generalizing a off data with
  | zero => exact ⟨_, _, rfl⟩
  | succ k ih =>
    unfold Atoll.storeLines
    split
    · exact ⟨_, _, rfl⟩
    · obtain ⟨l, m, h⟩ := ih (a.storeLine off tag (data.take (128 - off % 128))) (off + (128 - off % 128))
        (data.drop (128 - off % 128))
      exact ⟨l, m, by rw [h]; rfl⟩

theorem Atoll.storeLines_lagoon (k : Nat) (a : Atoll) (off : Nat) (tag : BitVec 5) (data : List Byte) (h : data.length < k) :
    (Atoll.storeLines k a off tag data).lagoon = Mem.writeBytes a.lagoon off data := by
  induction k generalizing a off data with
  | zero => omega
  | succ k ih =>
    unfold Atoll.storeLines
    split
    · rename_i e
      have : data = [] := by simpa using e
      subst this; rfl
    · rename_i e
      have hd : 0 < data.length := by cases data <;> simp_all
      have hn : 0 < 128 - off % 128 := by omega
      simp only []
      rw [ih _ _ _ (by simp only [List.length_drop]; omega)]
      have hs : (a.storeLine off tag (data.take (128 - off % 128))).lagoon =
          Mem.writeBytes a.lagoon off (data.take (128 - off % 128)) := rfl
      rw [hs]
      by_cases hle : 128 - off % 128 ≤ data.length
      · have := Mem.writeBytes_append a.lagoon off (data.take (128 - off % 128)) (data.drop (128 - off % 128))
        rw [List.take_append_drop, List.length_take, Nat.min_eq_left hle] at this
        exact this.symm
      · rw [List.take_of_length_le (by omega), List.drop_eq_nil_of_le (by omega)]; rfl

/-- A store changes the bytes and the line metadata alone. -/
theorem Atoll.store_frame (a : Atoll) (off : Nat) (tag : BitVec 5) (data : List Byte) :
    ∃ l m, a.store off tag data = { a with lagoon := l, lineMeta := m } := Atoll.storeLines_frame _ a off tag data

/-- A store writes its bytes. -/
@[simp] theorem Atoll.store_lagoon (a : Atoll) (off : Nat) (tag : BitVec 5) (data : List Byte) :
    (a.store off tag data).lagoon = Mem.writeBytes a.lagoon off data :=
  Atoll.storeLines_lagoon _ a off tag data (by omega)

@[simp] theorem Atoll.store_cores (a : Atoll) (off : Nat) (tag : BitVec 5) (data : List Byte) :
    (a.store off tag data).cores = a.cores := by
  obtain ⟨l, m, h⟩ := a.store_frame off tag data
  rw [h]

/-- A write that no tile op holds stores at once. -/
theorem State.lagoonWrite_free (s : State) (t off : Nat) (tag : BitVec 5) (data : List Byte)
    (h : s.writeHeld t off data.length = false) : s.lagoonWrite t off tag data = s.modAtoll t fun a => a.store off tag data := by
  simp [State.lagoonWrite, h]

/-- A lagoon write changes its own atoll alone. -/
theorem State.onlyAtoll_lagoonWrite (s : State) (t off : Nat) (tag : BitVec 5) (data : List Byte) :
    s.onlyAtoll (s.lagoonWrite t off tag data) t := by
  unfold State.lagoonWrite
  split
  · exact s.onlyAtoll_modAtoll t _
  · exact s.onlyAtoll_modAtoll t _

/-- Bytes stored read back, and every other byte reads as before. -/
theorem Atoll.read_store {a : Atoll} (h : Memory.wf a.lagoon) (off : Nat) (tag : BitVec 5) (data : List Byte) (b : Nat) :
    Mem.read (a.store off tag data).lagoon b = if off ≤ b ∧ b < off + data.length then data.getD (b - off) 0 else Mem.read a.lagoon b := by
  rw [Atoll.store_lagoon, Mem.read_writeBytes h]

end Sys2Proof.Machine
end

