-- ==== Sys2Proof/Laws/Spine.lean ====
section
/-! SUPPORT. The spine of a state: its queue, local count and lifecycle. One lemma for each shared operation that keeps all three
(`_spine`), and for each of those that move the lifecycle the one that says the queue stays (`_queue`). -/

namespace Sys2Proof.Machine

/-- The queue, the local count and the lifecycle of a module. -/
def State.spine (s : State) : List Instr × DWord × LifeSt := (s.pending, s.count, s.life)

theorem State.pending_of_spine {s t : State} (h : t.spine = s.spine) : t.pending = s.pending := congrArg (fun x => x.1) h

theorem State.count_of_spine {s t : State} (h : t.spine = s.spine) : t.count = s.count := congrArg (fun x => x.2.1) h

theorem State.life_of_spine {s t : State} (h : t.spine = s.spine) : t.life = s.life := congrArg (fun x => x.2.2) h

@[simp] theorem State.spine_mk (a b c d e f g h i j k l m n o p q r u v w) :
    (State.mk a b c d e f g h i j k l m n o p q r u v w).spine = (a, b, d) := rfl

@[simp] theorem State.spine_eta (s : State) : (s.pending, s.count, s.life) = s.spine := rfl

@[simp] theorem State.spine_foldl {α : Type} (f : State → α → State) (l : List α) (s : State)
    (h : ∀ t x, (f t x).spine = t.spine) : (l.foldl f s).spine = s.spine := by
  induction l generalizing s with
  | nil => rfl
  | cons x r ih => rw [List.foldl_cons, ih, h]

theorem State.spine_foldl_fst {α β : Type} (f : State × β → α → State × β) (l : List α) (s : State) (b : β)
    (h : ∀ t b x, (f (t, b) x).1.spine = t.spine) : (l.foldl f (s, b)).1.spine = s.spine := by
  induction l generalizing s b with
  | nil => rfl
  | cons x r ih => rw [List.foldl_cons, ← h s b x]; exact ih _ _

theorem State.spine_foldl_snd {α β : Type} (f : β × State → α → β × State) (l : List α) (s : State) (b : β)
    (h : ∀ t b x, (f (b, t) x).2.spine = t.spine) : (l.foldl f (b, s)).2.spine = s.spine := by
  induction l generalizing s b with
  | nil => rfl
  | cons x r ih => rw [List.foldl_cons, ← h s b x]; exact ih _ _

/-- Every state an access of a bank command may go on with has the spine of s. -/
def RunOut.spines (o : RunOut) (s : State) : Prop :=
  match o with
  | .waits t => t.spine = s.spine
  | .ends t _ _ => t.spine = s.spine

/-- The same of a cache access. -/
def CacheOut.spines (o : CacheOut) (s : State) : Prop :=
  match o with
  | .waits t => t.spine = s.spine
  | .ends t _ _ => t.spine = s.spine

/-- The same of a bank command. -/
def BankOut.spines (o : BankOut) (s : State) : Prop :=
  match o with
  | .waits t => t.spine = s.spine
  | .fails t _ => t.spine = s.spine
  | .writes t _ _ => t.spine = s.spine

/-- The same of an atomic's read. -/
def AtomicRead.spines (o : AtomicRead) (s : State) : Prop :=
  match o with
  | .done t => t.spine = s.spine
  | .ok t _ => t.spine = s.spine

/-- The same of a send. -/
def SendOut.spines (o : SendOut) (s : State) : Prop :=
  match o with
  | .sent t => t.spine = s.spine
  | _ => True

/-- The same of a check of the host's cached lines. -/
def BiOut.spines (o : BiOut) (s : State) : Prop :=
  match o with
  | .clear => True
  | .waits t => t.spine = s.spine
  | .timeout t => t.spine = s.spine

/-- The same of a vector operation's write. -/
def Written.spines (o : Written) (s : State) : Prop :=
  match o with
  | .done t => t.spine = s.spine
  | .waits t => t.spine = s.spine
  | .fails t _ => t.spine = s.spine

theorem RunOut.spines.waits {o : RunOut} {s t : State} (h : o.spines s) (e : o = .waits t) : t.spine = s.spine := by
  subst e; exact h

theorem RunOut.spines.ends {o : RunOut} {s t : State} {st : Nat} {d : List Byte} (h : o.spines s)
    (e : o = .ends t st d) : t.spine = s.spine := by
  subst e; exact h

theorem CacheOut.spines.waits {o : CacheOut} {s t : State} (h : o.spines s) (e : o = .waits t) : t.spine = s.spine := by
  subst e; exact h

theorem CacheOut.spines.ends {o : CacheOut} {s t : State} {st : Nat} {d : List Byte} (h : o.spines s)
    (e : o = .ends t st d) : t.spine = s.spine := by
  subst e; exact h

theorem BankOut.spines.waits {o : BankOut} {s t : State} (h : o.spines s) (e : o = .waits t) : t.spine = s.spine := by
  subst e; exact h

theorem BankOut.spines.fails {o : BankOut} {s t : State} {st : Nat} (h : o.spines s) (e : o = .fails t st) : t.spine = s.spine := by
  subst e; exact h

theorem BankOut.spines.writes {o : BankOut} {s t : State} {rs : List TileOut} {b : Bool} (h : o.spines s)
    (e : o = .writes t rs b) : t.spine = s.spine := by
  subst e; exact h

theorem AtomicRead.spines.done {o : AtomicRead} {s t : State} (h : o.spines s) (e : o = .done t) : t.spine = s.spine := by
  subst e; exact h

theorem AtomicRead.spines.ok {o : AtomicRead} {s t : State} {v : DWord} (h : o.spines s) (e : o = .ok t v) : t.spine = s.spine := by
  subst e; exact h

theorem SendOut.spines.sent {o : SendOut} {s t : State} (h : o.spines s) (e : o = .sent t) : t.spine = s.spine := by
  subst e; exact h

theorem BiOut.spines.waits {o : BiOut} {s t : State} (h : o.spines s) (e : o = .waits t) : t.spine = s.spine := by
  subst e; exact h

theorem BiOut.spines.timeout {o : BiOut} {s t : State} (h : o.spines s) (e : o = .timeout t) : t.spine = s.spine := by
  subst e; exact h

theorem Written.spines.done {o : Written} {s t : State} (h : o.spines s) (e : o = .done t) : t.spine = s.spine := by
  subst e; exact h

theorem Written.spines.waits {o : Written} {s t : State} (h : o.spines s) (e : o = .waits t) : t.spine = s.spine := by
  subst e; exact h

theorem Written.spines.fails {o : Written} {s t : State} {st : Nat} (h : o.spines s) (e : o = .fails t st) : t.spine = s.spine := by
  subst e; exact h

@[simp] theorem State.pending_foldl {α : Type} (f : State → α → State) (l : List α) (s : State)
    (h : ∀ t x, (f t x).spine.1 = t.spine.1) : (l.foldl f s).spine.1 = s.spine.1 := by
  induction l generalizing s with
  | nil => rfl
  | cons x r ih => rw [List.foldl_cons, ih, h]

@[simp] theorem State.setAtoll_spine (s : State) (g : ℕ) (a : Atoll) : (State.setAtoll s g a).spine = s.spine := by
  rfl

@[simp] theorem State.modAtoll_spine (s : State) (g : ℕ) (f : Atoll → Atoll) : (State.modAtoll s g f).spine = s.spine := by
  rfl

@[simp] theorem State.modFlt_spine (s : State) (f : FaultSt → FaultSt) : (State.modFlt s f).spine = s.spine := by
  rfl

@[simp] theorem State.raise_spine (s : State) (r : RecIn) : (State.raise s r).spine = s.spine := by
  rfl

@[simp] theorem State.absorb_spine (s : State) (t : ℕ) : (State.absorb s t).spine = s.spine := by
  unfold State.absorb
  try dsimp only
  (repeat' split) <;> simp

@[simp] theorem State.bayUnpublish_spine (s : State) (g : ℕ) (bay : ℕ) : (State.bayUnpublish s g bay).spine = s.spine := by
  unfold State.bayUnpublish
  try dsimp only
  grind [State.modAtoll_spine, State.spine_mk, State.spine_foldl]

@[simp] theorem State.modShoal_spine (s : State) (h : ℕ) (f : Shoal → Shoal) : (State.modShoal s h f).spine = s.spine := by
  rfl

@[simp] theorem State.bankLate_spine (s : State) (addr : ℕ) : (State.bankLate s addr).spine = s.spine := by
  unfold State.bankLate
  try dsimp only
  (repeat' split) <;> simp

@[simp] theorem State.modMem_spine (s : State) (f : MemSt → MemSt) : (State.modMem s f).spine = s.spine := by
  rfl

@[simp] theorem State.dramWrite_spine (s : State) (a : ℕ) (data : List Byte) : (State.dramWrite s a data).spine = s.spine := by
  unfold State.dramWrite
  try dsimp only
  (repeat' split) <;> simp

@[simp] theorem State.lagoonWrite_spine (s : State) (t : ℕ) (off : ℕ) (tag : BitVec 5) (data : List Byte) :
    (State.lagoonWrite s t off tag data).spine = s.spine := by
  unfold State.lagoonWrite
  simp [apply_ite Prod.fst, apply_ite State.spine]

@[simp] theorem State.writePlace_spine (s : State) (pl : Place) (tag : BitVec 5) (data : List Byte) :
    (State.writePlace s pl tag data).spine = s.spine := by
  unfold State.writePlace
  try dsimp only
  (repeat' split) <;> simp

@[simp] theorem State.physWrite_spine (x0 : ℕ) (x1 : State) (x2 : Option ℕ) (x3 : ℕ) (x4 : BitVec 5) (x5 : List Byte) :
    (State.physWrite x0 x1 x2 x3 x4 x5).1.spine = x1.spine := by
  induction x0 generalizing x1 x3 x5 with
  | zero => rfl
  | succ k ih => unfold State.physWrite; dsimp only; (repeat' split) <;> simp_all <;> (repeat' split) <;> simp_all

@[simp] theorem State.pwrite_spine (s : State) (who : Option ℕ) (addr : ℕ) (tag : BitVec 5) (data : List Byte) :
    (State.pwrite s who addr tag data).1.spine = s.spine := by
  unfold State.pwrite
  try dsimp only
  (repeat' split) <;> simp

@[simp] theorem State.writeBack_spine (s : State) (g : ℕ) (c : CacheLine) : (State.writeBack s g c).spine = s.spine := by
  unfold State.writeBack
  try dsimp only
  (repeat' split) <;> simp

@[simp] theorem State.cacheAlloc_spine (s : State) (g : ℕ) (bay : ℕ) (set : ℕ) : (State.cacheAlloc s g bay set).1.spine
    = s.spine := by
  unfold State.cacheAlloc
  try dsimp only
  (repeat' split) <;> simp

@[simp] theorem State.modHost_spine (s : State) (f : HostSt → HostSt) : (State.modHost s f).spine = s.spine := by
  rfl

theorem State.biCheck_spine (x0 : State) (x1 : List (ℕ × ℕ × Bool)) : (State.biCheck x0 x1).spines x0 := by
  unfold State.biCheck
  dsimp only
  (repeat' split) <;> simp_all [BiOut.spines]

@[simp] theorem State.biThen_spine (s : State) (rs : List (Nat × Nat × Bool)) (late go : State → State)
    (hl : ∀ t, (late t).spine = t.spine) (hg : (go s).spine = s.spine) : (s.biThen rs late go).spine = s.spine := by
  have h := s.biCheck_spine rs
  unfold State.biThen
  split <;> simp_all [BiOut.spines]

@[simp] theorem State.flushBay_spine (s : State) (g : ℕ) (bay : ℕ) : (State.flushBay s g bay).spine = s.spine := by
  unfold State.flushBay
  simp [apply_ite Prod.fst, apply_ite State.spine]

@[simp] theorem State.dropBay_spine (s : State) (g : ℕ) (bay : ℕ) : (State.dropBay s g bay).spine = s.spine := by
  rfl

@[simp] theorem State.cacheCommand_spine (s : State) (g : ℕ) (bay : ℕ) (k : CacheCmdKind) (who : CacheIssuer) :
    (State.cacheCommand s g bay k who).spine = s.spine := by
  unfold State.cacheCommand
  try dsimp only
  (repeat' split) <;> simp

theorem State.cacheRead_spine (x0 : State) (x1 : ℕ) (x2 : ℕ) (x3 : ℕ) : (State.cacheRead x0 x1 x2 x3).spines x0 := by
  unfold State.cacheRead
  dsimp only
  (repeat' split) <;> simp_all [CacheOut.spines]
  all_goals first
    | exact (State.biCheck_spine _ _).waits ‹_›
    | exact (State.biCheck_spine _ _).timeout ‹_›

theorem State.cacheWrite_spine (x0 : State) (x1 : ℕ) (x2 : ℕ) (x3 : List Byte) : (State.cacheWrite x0 x1 x2 x3).spines x0 := by
  unfold State.cacheWrite
  dsimp only
  (repeat' split) <;> simp_all [CacheOut.spines]
  all_goals first
    | exact (State.biCheck_spine _ _).waits ‹_›
    | exact (State.biCheck_spine _ _).timeout ‹_›

@[simp] theorem State.endLoad_spine (s : State) (g : ℕ) (who : Requester) (addr : Word) (size : ℕ) (sgn : Bool) (st : ℕ) (data
    : List Byte) : (State.endLoad s g who addr size sgn st data).spine = s.spine := by
  unfold State.endLoad
  try dsimp only
  (repeat' split) <;> simp

@[simp] theorem State.endStore_spine (s : State) (g : ℕ) (who : Requester) (addr : Word) (st : ℕ) :
    (State.endStore s g who addr st).spine = s.spine := by
  unfold State.endStore
  try dsimp only
  (repeat' split) <;> simp

@[simp] theorem State.finishBayChange_spine (s : State) (g : ℕ) (c : BayChange) : (State.finishBayChange s g c).spine = s.spine := by
  unfold State.finishBayChange
  try dsimp only
  (repeat' split) <;> simp

@[simp] theorem State.askReset_spine (s : State) (counted : Bool) : (State.askReset s counted).spine = s.spine := by
  rfl

@[simp] theorem State.postEvent_spine (s : State) (e : Event) : (State.postEvent s e).spine = s.spine := by
  rfl

@[simp] theorem State.notice_spine (s : State) (p : ℕ) (kind : ℕ) (status : ℕ) (seq : Word) (report : Half) :
    (State.notice s p kind status seq report).spine = s.spine := by
  rfl

@[simp] theorem State.noticeAll_spine (s : State) (kind : ℕ) (seq : Word) : (State.noticeAll s kind seq).spine = s.spine := by
  unfold State.noticeAll
  simp

@[simp] theorem State.checkHealth_spine (s : State) : (State.checkHealth s).spine = s.spine := by
  unfold State.checkHealth
  simp [apply_ite Prod.fst, apply_ite State.spine]

@[simp] theorem State.fenceUnit_spine (s : State) (u : Word) (cls : Half) (seq : Word) (source : BitVec 2) (retry : Bool) :
    (State.fenceUnit s u cls seq source retry).spine = s.spine := by
  unfold State.fenceUnit
  simp [apply_ite Prod.fst, apply_ite State.spine]

@[simp] theorem State.modPart_spine (s : State) (p : ℕ) (f : Part → Part) : (State.modPart s p f).spine = s.spine := by
  unfold State.modPart
  try dsimp only
  (repeat' split) <;> simp

@[simp] theorem State.trigger_spine (s : State) (p : ℕ) (t : Trigger) : (State.trigger s p t).spine = s.spine := by
  unfold State.trigger
  simp

@[simp] theorem State.lagoonDecode_spine (s : State) (t : ℕ) (off : ℕ) (d : Decoded) (src : ℕ) (op : ℕ × ℕ) :
    (State.lagoonDecode s t off d src op).spine = s.spine := by
  unfold State.lagoonDecode
  try dsimp only
  (repeat' split) <;> simp

@[simp] theorem State.lagoonRead_spine (s : State) (t : ℕ) (off : ℕ) (n : ℕ) (d : Decoded) (op : ℕ × ℕ) :
    (State.lagoonRead s t off n d op).1.spine = s.spine := by
  unfold State.lagoonRead
  try dsimp only
  (repeat' split) <;> simp

@[simp] theorem State.load_spine (x0 : State) (x1 : ℕ) (x2 : Requester) (x3 : Word) (x4 : ℕ) (x5 : Bool) (x6 : Decoded) :
    (State.load x0 x1 x2 x3 x4 x5 x6).spine = x0.spine := by
  have h := x0.cacheRead_spine x1 (laOffset x3) x4
  unfold State.load; dsimp only; (repeat' split) <;> simp_all [CacheOut.spines] <;> (repeat' split) <;> simp_all

@[simp] theorem State.storeTo_spine (x0 : State) (x1 : ℕ) (x2 : Requester) (x3 : Word) (x4 : BitVec 5) (x5 : List Byte) :
    (State.storeTo x0 x1 x2 x3 x4 x5).spine = x0.spine := by
  have h := x0.cacheWrite_spine x1 (laOffset x3) x5
  unfold State.storeTo; dsimp only; (repeat' split) <;> simp_all [CacheOut.spines] <;> (repeat' split) <;> simp_all

@[simp] theorem State.modFw_spine (s : State) (f : FwSt → FwSt) : (State.modFw s f).spine = s.spine := by
  rfl

@[simp] theorem State.modSession_spine (s : State) (id : ℕ) (f : SpdmSession → SpdmSession) : (State.modSession s id f).spine
    = s.spine := by
  rfl

@[simp] theorem State.modMgmt_spine (s : State) (f : MgmtSt → MgmtSt) : (State.modMgmt s f).spine = s.spine := by
  rfl

@[simp] theorem State.spdmSend_spine (s : State) (session : ℕ) (bs : List Byte) : (State.spdmSend s session bs).spine = s.spine := by
  unfold State.spdmSend
  try dsimp only
  (repeat' split) <;> simp

@[simp] theorem State.freshen_spine (s : State) : (State.freshen s).spine = s.spine := by
  rfl

@[simp] theorem State.spdmAnswer_spine (s : State) (r : SpdmRequest) (go : State → SpdmRequest → State × SpdmRsp)
    (h : ∀ t q, (go t q).1.spine = t.spine) : (s.spdmAnswer r go).spine = s.spine := by
  unfold State.spdmAnswer
  dsimp only
  (repeat' split) <;> simp_all

@[simp] theorem spdmAlgorithms_spine (s : State) (r : SpdmRequest) : (spdmAlgorithms s r).1.spine = s.spine := by
  unfold spdmAlgorithms
  simp [apply_ite Prod.fst, apply_ite State.spine]

@[simp] theorem spdmCapabilities_spine (s : State) (r : SpdmRequest) : (spdmCapabilities s r).1.spine = s.spine := by
  unfold spdmCapabilities
  simp [apply_ite Prod.fst, apply_ite State.spine]

@[simp] theorem spdmCertificate_spine (s : State) (r : SpdmRequest) : (spdmCertificate s r).1.spine = s.spine := by
  unfold spdmCertificate
  try dsimp only
  (repeat' split) <;> simp

@[simp] theorem spdmChallenge_spine (s : State) (r : SpdmRequest) : (spdmChallenge s r).1.spine = s.spine := by
  unfold spdmChallenge
  simp [apply_ite Prod.fst, apply_ite State.spine]

@[simp] theorem spdmChunkGet_spine (s : State) (r : SpdmRequest) : (spdmChunkGet s r).1.spine = s.spine := by
  unfold spdmChunkGet
  try dsimp only
  (repeat' split) <;> simp

@[simp] theorem spdmVersion_spine (s : State) (x1 : SpdmRequest) : (spdmVersion s x1).1.spine = s.spine := by
  rfl

@[simp] theorem spdmDigests_spine (s : State) (x1 : SpdmRequest) : (spdmDigests s x1).1.spine = s.spine := by
  unfold spdmDigests
  simp [apply_ite Prod.fst, apply_ite State.spine]

@[simp] theorem spdmMeasurements_spine (s : State) (r : SpdmRequest) : (spdmMeasurements s r).1.spine = s.spine := by
  unfold spdmMeasurements
  try dsimp only
  (repeat' split) <;> simp

@[simp] theorem spdmKeyExchange_spine (s : State) (r : SpdmRequest) : (spdmKeyExchange s r).1.spine = s.spine := by
  unfold spdmKeyExchange
  try dsimp only
  (repeat' split) <;> simp

@[simp] theorem spdmFinish_spine (s : State) (r : SpdmRequest) : (spdmFinish s r).1.spine = s.spine := by
  unfold spdmFinish
  simp [apply_ite Prod.fst, apply_ite State.spine]

@[simp] theorem spdmHeartbeat_spine (s : State) (r : SpdmRequest) : (spdmHeartbeat s r).1.spine = s.spine := by
  unfold spdmHeartbeat
  simp [apply_ite Prod.fst, apply_ite State.spine]

@[simp] theorem spdmKeyUpdate_spine (s : State) (r : SpdmRequest) : (spdmKeyUpdate s r).1.spine = s.spine := by
  unfold spdmKeyUpdate
  simp [apply_ite Prod.fst, apply_ite State.spine]

@[simp] theorem spdmEndSession_spine (s : State) (r : SpdmRequest) : (spdmEndSession s r).1.spine = s.spine := by
  unfold spdmEndSession
  simp [apply_ite Prod.fst, apply_ite State.spine]

@[simp] theorem spdmUnsupported_spine (s : State) (x1 : SpdmRequest) : (spdmUnsupported s x1).1.spine = s.spine := by
  rfl

@[simp] theorem spdmOf_spine (code : ℕ) (a : State) (x2 : SpdmRequest) : (spdmOf code a x2).1.spine = a.spine := by
  unfold spdmOf
  try dsimp only
  (repeat' split) <;> simp

@[simp] theorem spdmChunkSend_spine (s : State) (r : SpdmRequest) : (spdmChunkSend s r).1.spine = s.spine := by
  unfold spdmChunkSend
  try dsimp only
  (repeat' split) <;> simp

@[simp] theorem State.bankEnd_spine (s : State) (g : ℕ) (st : ℕ) (off : ℕ) (low : Bool) : (State.bankEnd s g st off low).spine
    = s.spine := by
  rfl

theorem State.runRead_spine (x0 : ℕ) (x1 : State) (x2 : ℕ) (x3 : ℕ) (x4 : ℕ) : (State.runRead x0 x1 x2 x3 x4).spines x1 := by
  induction x0 generalizing x1 x3 x4 with
  | zero => simp [State.runRead, RunOut.spines]
  | succ k ih =>
    have hc := x1.cacheRead_spine x2 (laOffset (BitVec.ofNat 32 x3)) (min x4 (128 - x3 % 128))
    unfold State.runRead
    dsimp only
    split
    · rfl
    · split
      · split
        · simp_all [CacheOut.spines, RunOut.spines]
        · rename_i s1 st bs e
          have hi := ih s1 (x3 + min x4 (128 - x3 % 128)) (x4 - min x4 (128 - x3 % 128))
          split
          · split <;> simp_all [CacheOut.spines, RunOut.spines]
          · simp_all [CacheOut.spines, RunOut.spines]
      · have hi := ih x1 (x3 + min x4 (128 - x3 % 128)) (x4 - min x4 (128 - x3 % 128))
        split
        · rfl
        · split
          · rfl
          · split <;> simp_all [RunOut.spines]

theorem State.readRun_spine (x0 : State) (x1 : ℕ) (x2 : ℕ) (x3 : ℕ) : (State.readRun x0 x1 x2 x3).spines x0 := by
  unfold State.readRun; dsimp only; (repeat' split)
  · rfl
  · exact State.runRead_spine _ _ _ _ _
  · rfl
  · exact State.runRead_spine _ _ _ _ _

@[simp] theorem State.readRuns_spine (x0 : List (ℕ × ℕ)) (x1 : State) (x2 : ℕ) : (State.readRuns x0 x1 x2).1.spine = x1.spine := by
  induction x0 generalizing x1 with
  | nil => rfl
  | cons e r ih =>
    have h := x1.readRun_spine x2 e.1 e.2
    unfold State.readRuns
    dsimp only
    split <;> simp_all [RunOut.spines] <;> split <;> simp_all

theorem State.bankRun_spine (x0 : State) (x1 : ℕ) (x2 : BankCmd) : (State.bankRun x0 x1 x2).spines x0 := by
  unfold State.bankRun
  dsimp only
  (repeat' split) <;> simp_all [BankOut.spines]

@[simp] theorem State.putRuns_spine (s : State) (g : ℕ) (rs : List TileOut) : (State.putRuns s g rs).spine = s.spine := by
  unfold State.putRuns
  try dsimp only
  grind [State.lagoonWrite_spine, State.spine_mk, State.spine_foldl]

@[simp] theorem State.bankLines_spine (x0 : State) (x1 : ℕ) (x2 : BankCmd) : (State.bankLines x0 x1 x2).1.spine = x0.spine := by
  unfold State.bankLines; dsimp only; refine State.spine_foldl_fst _ _ _ _ (fun t b x => ?_)
  have h := t.bankRun_spine x1 x2
  dsimp only
  split <;> simp_all [BankOut.spines]

@[simp] theorem State.bankHead_spine (s : State) (g code : Nat) (bad : Option Word) : (s.bankHead g code bad).spine = s.spine := by
  unfold State.bankHead
  split
  · rfl
  · rename_i o _ _
    dsimp only
    split
    · rfl
    · split
      · simp
      · split
        · simp
        · split
          · simp
          · have h := State.bankRun_spine s g (bankCmd o.cmd)
            split
            · exact h.waits ‹_›
            · simp [h.fails ‹_›]
            · have e := h.writes ‹_›
              (repeat' split) <;> simp [e]

@[simp] theorem State.bankPost_spine (s : State) (g : ℕ) (post : Option (BitVec 256)) : (State.bankPost s g post).spine
    = s.spine := by
  unfold State.bankPost
  try dsimp only
  (repeat' split) <;> simp

@[simp] theorem State.bankRow_spine (s : State) (g : ℕ) (code : ℕ) (post : Option (BitVec 256)) (bad : Option Word) :
    (State.bankRow s g code post bad).spine = s.spine := by
  unfold State.bankRow
  try dsimp only
  (repeat' split) <;> simp

@[simp] theorem State.modFab_spine (s : State) (f : FabSt → FabSt) : (State.modFab s f).spine = s.spine := by
  rfl

@[simp] theorem State.modStrait_spine (s : State) (d : ℕ) (f : Strait → Strait) : (State.modStrait s d f).spine = s.spine := by
  rfl

@[simp] theorem State.modLink_spine (s : State) (l : ℕ) (f : FLink → FLink) : (State.modLink s l f).spine = s.spine := by
  rfl

@[simp] theorem State.dropLink_spine (s : State) (l : ℕ) : (State.dropLink s l).spine = s.spine := by
  rfl

@[simp] theorem State.retrainAll_spine (x0 : State) : (State.retrainAll x0).spine = x0.spine := by
  unfold State.retrainAll
  (try dsimp only)
  refine State.spine_foldl _ _ _ (fun t x => ?_)
  (repeat' split) <;> simp_all

@[simp] theorem State.beginModuleReset_queue (x0 : State) : (State.beginModuleReset x0).spine.1 = x0.spine.1 := by
  unfold State.beginModuleReset; dsimp only; rw [State.modFlt_spine]; split
  · rw [State.retrainAll_spine]; rfl
  · rfl

@[simp] theorem State.modFwHub_spine (s : State) (h : ℕ) (f : FwHub → FwHub) : (State.modFwHub s h f).spine = s.spine := by
  rfl

@[simp] theorem State.bootFw_spine (s : State) (h : ℕ) : (State.bootFw s h).spine = s.spine := by
  unfold State.bootFw
  try dsimp only
  (repeat' split) <;> simp

@[simp] theorem State.modNet_spine (s : State) (f : NetSt → NetSt) : (State.modNet s f).spine = s.spine := by
  rfl

@[simp] theorem State.modPower_spine (s : State) (f : PowerSt → PowerSt) : (State.modPower s f).spine = s.spine := by
  rfl

@[simp] theorem State.unfence_spine (s : State) (u : Word) : (State.unfence s u).spine = s.spine := by
  unfold State.unfence
  try dsimp only
  (repeat' split) <;> simp

@[simp] theorem State.testProcessor_spine (s : State) (h : ℕ) (i : ℕ) (ok : Bool) : (State.testProcessor s h i ok).spine
    = s.spine := by
  unfold State.testProcessor
  try dsimp only
  (repeat' split) <;> simp

@[simp] theorem State.modLife_queue (x0 : State) (x1 : LifeSt → LifeSt) : (State.modLife x0 x1).spine.1 = x0.spine.1 := by
  rfl

@[simp] theorem State.noteTrip_spine (s : State) : (State.noteTrip s).spine = s.spine := by
  unfold State.noteTrip
  try dsimp only
  (repeat' split) <;> simp

@[simp] theorem State.bootHubs_queue (s : State) (t : BringUp) : (State.bootHubs s t).spine.1 = s.spine.1 := by
  unfold State.bootHubs
  try dsimp only
  (repeat' split) <;> simp

@[simp] theorem State.countReset_spine (s : State) (counted : Bool) : (State.countReset s counted).spine = s.spine := by
  unfold State.countReset
  try dsimp only
  (repeat' split) <;> simp

@[simp] theorem State.request_spine (s : State) (q : LedgerReq) : (State.request s q).spine = s.spine := by
  unfold State.request
  try dsimp only
  (repeat' split) <;> simp

@[simp] theorem State.raiseRegions_spine (x0 : State) : (State.raiseRegions x0).spine = x0.spine := by
  unfold State.raiseRegions
  dsimp only
  refine State.spine_foldl _ _ _ (fun t x => ?_)
  (repeat' split) <;> simp_all <;> (repeat' split) <;> simp_all

@[simp] theorem State.resolveClears_spine (s : State) (t : BringUp) (fresh : Bool) : (State.resolveClears s t fresh).spine
    = s.spine := by
  unfold State.resolveClears
  try dsimp only
  (repeat' split) <;> simp

@[simp] theorem State.flood_spine (s : State) (jobTag : Word) (reason : ℕ) (rst : Bool) (step : Word) (seq : Word) :
    (State.flood s jobTag reason rst step seq).spine = s.spine := by
  rfl

@[simp] theorem State.floodAll_spine (s : State) (reason : Nat) (rst : Bool) (seq : Word) :
    (s.floodAll reason rst seq).spine = s.spine := by
  unfold State.floodAll
  refine State.spine_foldl_snd _ _ _ _ (fun t b x => ?_)
  dsimp only
  split <;> simp

@[simp] theorem State.escalate_spine (s : State) (seq : Word) : (State.escalate s seq).spine = s.spine := by
  unfold State.escalate
  try dsimp only
  (repeat' split) <;> simp

@[simp] theorem State.fenceManager_spine (s : State) (node : ℕ) (cls : Half) (seq : Word) :
    (State.fenceManager s node cls seq).spine = s.spine := by
  unfold State.fenceManager
  try dsimp only
  (repeat' split) <;> simp

@[simp] theorem State.unpowered_queue (x0 : State) : (State.unpowered x0).spine.1 = x0.spine.1 := by
  rfl

@[simp] theorem State.tripOff_queue (x0 : State) (x1 : ℕ) : (State.tripOff x0 x1).spine.1 = x0.spine.1 := by
  rfl

@[simp] theorem State.stepDown_spine (s : State) (key : ℕ) : (State.stepDown s key).spine = s.spine := by
  rfl

@[simp] theorem State.shed_spine (x0 : ℕ) (x1 : State) : (State.shed x0 x1).spine = x1.spine := by
  induction x0 generalizing x1 with
  | zero => rfl
  | succ k ih => unfold State.shed; dsimp only; (repeat' split) <;> simp_all

@[simp] theorem State.fitBudget_spine (s : State) : (State.fitBudget s).spine = s.spine := by
  unfold State.fitBudget
  try dsimp only
  (repeat' split) <;> simp

@[simp] theorem State.fenceAtoll_spine (s : State) (g : ℕ) (u : Word) (cls : Half) (seq : Word) (addr : Option DWord) :
    (State.fenceAtoll s g u cls seq addr).spine = s.spine := by
  unfold State.fenceAtoll
  try dsimp only
  (repeat' split) <;> simp

@[simp] theorem State.fenceSites_spine (s : State) (gs : List ℕ) (cls : Half) (seq : Word) :
    (State.fenceSites s gs cls seq).spine = s.spine := by
  unfold State.fenceSites
  simp

@[simp] theorem State.dropWaits_spine (s : State) (g : ℕ) (c : ℕ) : (State.dropWaits s g c).spine = s.spine := by
  rfl

@[simp] theorem State.wakeCore_spine (s : State) (g : ℕ) (c : ℕ) : (State.wakeCore s g c).spine = s.spine := by
  unfold State.wakeCore
  try dsimp only
  (repeat' split) <;> simp

@[simp] theorem State.wakeSeq_spine (s : State) (g : ℕ) (u : ℕ) : (State.wakeSeq s g u).spine = s.spine := by
  rfl

@[simp] theorem State.wakeAtollObj_spine (s : State) (g : ℕ) (o : ℕ) : (State.wakeAtollObj s g o).spine = s.spine := by
  unfold State.wakeAtollObj
  try dsimp only
  grind [State.wakeCore_spine, State.wakeSeq_spine, State.modAtoll_spine, State.spine_mk, State.spine_foldl]

@[simp] theorem State.signalAtoll_spine (s : State) (g : ℕ) (o : ℕ) (inc : ℕ) : (State.signalAtoll s g o inc).spine = s.spine := by
  unfold State.signalAtoll
  simp

@[simp] theorem State.stopStream_spine (s : State) (p : ℕ) (st : ℕ) (status : ℕ) (kind : ℕ) (at_ : ℕ) (off : ℕ) (cause : ℕ)
    (word : DWord) (seq : Word) (quiet : Bool) : (State.stopStream s p st status kind at_ off cause word seq quiet).spine
    = s.spine := by
  unfold State.stopStream
  try dsimp only
  (repeat' split) <;> simp

@[simp] theorem State.stopAllFenced_spine (s : State) (p : ℕ) (cause : ℕ) (seq : Word) :
    (State.stopAllFenced s p cause seq).spine = s.spine := by
  unfold State.stopAllFenced
  try dsimp only
  grind [State.modPart_spine, State.stopStream_spine, State.spine_mk, State.spine_foldl]

@[simp] theorem State.judge_spine (s : State) (p : ℕ) (st : ℕ) (idx : ℕ) (v : Verdict) : (State.judge s p st idx v).spine
    = s.spine := by
  unfold State.judge
  try dsimp only
  (repeat' split) <;> simp

@[simp] theorem State.finishCmd_spine (s : State) (p : ℕ) (st : ℕ) (idx : ℕ) : (State.finishCmd s p st idx).spine = s.spine := by
  unfold State.finishCmd
  try dsimp only
  (repeat' split) <;> simp

theorem State.modN_spine (k : Nat) :
    (∀ s p st idx v, (State.completeCmdN k s p st idx v).spine = s.spine) ∧
      (∀ s o inc, (State.signalModN k s o inc).spine = s.spine) ∧ ∀ s o ws, (State.wakeModN k s o ws).spine = s.spine := by
  induction k with
  | zero => exact ⟨fun _ _ _ _ _ => by simp [State.completeCmdN], fun _ _ _ => by simp [State.signalModN], fun _ _ _ => by simp [State.wakeModN]⟩
  | succ k ih =>
    obtain ⟨h1, h2, h3⟩ := ih
    refine ⟨fun s p st idx v => ?_, fun s o inc => ?_, fun s o ws => ?_⟩
    · unfold State.completeCmdN
      dsimp only
      (repeat' split) <;> simp_all
    · unfold State.signalModN
      dsimp only
      rw [h3, State.modMem_spine]
    · cases ws with
      | nil => unfold State.wakeModN; rfl
      | cons w ws =>
        unfold State.wakeModN
        dsimp only
        rw [h3]
        split <;> simp_all

@[simp] theorem State.completeCmdN_spine (k : Nat) (s : State) (p st idx : Nat) (v : Verdict) :
    (State.completeCmdN k s p st idx v).spine = s.spine := (State.modN_spine k).1 s p st idx v

@[simp] theorem State.signalModN_spine (k : Nat) (s : State) (o inc : Nat) : (State.signalModN k s o inc).spine = s.spine :=
  (State.modN_spine k).2.1 s o inc

@[simp] theorem State.wakeModN_spine (k : Nat) (s : State) (o : Nat) (ws : List WaitEntry) :
    (State.wakeModN k s o ws).spine = s.spine := (State.modN_spine k).2.2 s o ws

@[simp] theorem State.completeCmd_spine (x0 : State) (x1 : ℕ) (x2 : ℕ) (x3 : ℕ) (x4 : Verdict) :
    (State.completeCmd x0 x1 x2 x3 x4).spine = x0.spine := by
  unfold State.completeCmd
  exact State.completeCmdN_spine _ _ _ _ _ _

@[simp] theorem State.deliverMem_spine (s : State) (r : MemRun) (w : DWord) : (State.deliverMem s r w).spine = s.spine := by
  unfold State.deliverMem
  try dsimp only
  (repeat' split) <;> simp

@[simp] theorem State.modUnit_spine (s : State) (h : ℕ) (u : ℕ) (f : StreamUnit → StreamUnit) : (State.modUnit s h u f).spine
    = s.spine := by
  rfl

@[simp] theorem State.endMem_spine (s : State) (h : ℕ) (u : ℕ) (r : MemRun) : (State.endMem s h u r).spine = s.spine := by
  unfold State.endMem
  try dsimp only
  (repeat' split) <;> simp

@[simp] theorem State.rollOrStop_spine (s : State) (p : ℕ) (t : Trigger) : (State.rollOrStop s p t).spine = s.spine := by
  unfold State.rollOrStop
  try dsimp only
  (repeat' split) <;> simp

@[simp] theorem State.fenceStreamUnit_spine (s : State) (h : ℕ) (u : ℕ) (cls : Half) (seq : Word) :
    (State.fenceStreamUnit s h u cls seq).spine = s.spine := by
  unfold State.fenceStreamUnit
  try dsimp only
  (repeat' split) <;> simp

@[simp] theorem State.modColl_spine (s : State) (k : CollKey) (f : Coll → Coll) : (State.modColl s k f).spine = s.spine := by
  rfl

@[simp] theorem State.signalMod_spine (s : State) (o : ℕ) (inc : ℕ) : (State.signalMod s o inc).spine = s.spine := by
  unfold State.signalMod
  try dsimp only
  (repeat' split) <;> simp

@[simp] theorem State.endColl_spine (s : State) (k : CollKey) (status : ℕ) : (State.endColl s k status).spine = s.spine := by
  unfold State.endColl
  try dsimp only
  (repeat' split) <;> simp

@[simp] theorem State.abortColls_spine (s : State) (cls : Half) (seq : Word) : (State.abortColls s cls seq).spine = s.spine := by
  unfold State.abortColls
  try dsimp only
  (repeat' split) <;> simp

@[simp] theorem State.wantRetire_spine (s : State) (c : ℕ) : (State.wantRetire s c).spine = s.spine := by
  unfold State.wantRetire
  simp [apply_ite Prod.fst, apply_ite State.spine]

@[simp] theorem State.fenceLane_spine (s : State) (l : ℕ) (sub : ℕ) : (State.fenceLane s l sub).spine = s.spine := by
  unfold State.fenceLane
  try dsimp only
  (repeat' split) <;> simp

@[simp] theorem State.hubLost_queue (s : State) (h : ℕ) : (State.hubLost s h).spine.1 = s.spine.1 := by
  unfold State.hubLost
  try dsimp only
  (repeat' split) <;> simp

@[simp] theorem State.goFatal_spine (s : State) (seq : Word) : (State.goFatal s seq).spine = s.spine := by
  unfold State.goFatal
  try dsimp only
  (repeat' split) <;> simp

@[simp] theorem State.goDark_queue (s : State) (key : ℕ) (cls : Half) (seq : Word) (mark : RegionState) :
    (State.goDark s key cls seq mark).spine.1 = s.spine.1 := by
  unfold State.goDark
  try dsimp only
  (repeat' split) <;> simp

@[simp] theorem State.losePhase_queue (s : State) (key : ℕ) (phase : ℕ) (cls : Half) (seq : Word) :
    (State.losePhase s key phase cls seq).spine.1 = s.spine.1 := by
  unfold State.losePhase
  try dsimp only
  (repeat' split) <;> simp

@[simp] theorem State.wantMigration_spine (s : State) (g : ℕ) : (State.wantMigration s g).spine = s.spine := by
  unfold State.wantMigration
  try dsimp only
  (repeat' split) <;> simp

@[simp] theorem State.batchEnd_spine (s : State) (p : ℕ) (st : ℕ) (idx : ℕ) (w : DWord) : (State.batchEnd s p st idx w).spine
    = s.spine := by
  unfold State.batchEnd
  try dsimp only
  (repeat' split) <;> simp

@[simp] theorem State.deliverOp_spine (s : State) (g : ℕ) (src : OpSource) (origin : ℕ) (w : DWord) (notify : Bool) (obj : ℕ) :
    (State.deliverOp s g src origin w notify obj).spine = s.spine := by
  unfold State.deliverOp
  try dsimp only
  (repeat' split) <;> simp

@[simp] theorem State.escalateAtoll_spine (s : State) (g : ℕ) (cls : Half) (seq : Word) :
    (State.escalateAtoll s g cls seq).spine = s.spine := by
  unfold State.escalateAtoll
  try dsimp only
  (repeat' split) <;> simp

@[simp] theorem State.releaseHeld_spine (s : State) (t : ℕ) : (State.releaseHeld s t).spine = s.spine := by
  unfold State.releaseHeld
  simp

@[simp] theorem State.releaseAround_spine (s : State) (g : ℕ) : (State.releaseAround s g).spine = s.spine := by
  unfold State.releaseAround
  try dsimp only
  grind [State.releaseHeld_spine, State.spine_mk, State.spine_foldl]

@[simp] theorem State.fenceEngine_spine (s : State) (g : ℕ) (e : ℕ) (cls : Half) (seq : Word) (used : ℕ) :
    (State.fenceEngine s g e cls seq used).spine = s.spine := by
  unfold State.fenceEngine
  try dsimp only
  (repeat' split) <;> simp

@[simp] theorem State.fenceVec_spine (s : State) (g : ℕ) (v : ℕ) (cls : Half) (seq : Word) :
    (State.fenceVec s g v cls seq).spine = s.spine := by
  unfold State.fenceVec
  try dsimp only
  grind [State.modAtoll_spine, State.fenceUnit_spine, State.wantMigration_spine, State.escalateAtoll_spine, State.deliverOp_spine, State.spine_mk, State.spine_foldl]

@[simp] theorem State.routeEntry_spine (s : State) (a : ℕ) (d : ℕ) : (State.routeEntry s a d).spine = s.spine := by
  rfl

@[simp] theorem State.fenceNeighbour_spine (s : State) (g : ℕ) (dir : ℕ) : (State.fenceNeighbour s g dir).spine = s.spine := by
  unfold State.fenceNeighbour
  try dsimp only
  (repeat' split) <;> simp

@[simp] theorem State.contain_queue (s : State) (u : Word) (cls : Half) (seq : Word) : (State.contain s u cls seq).spine.1
    = s.spine.1 := by
  unfold State.contain
  try dsimp only
  (repeat' split) <;> simp

@[simp] theorem State.failTest_queue (s : State) (u : Word) (cls : Half) : (State.failTest s u cls).spine.1 = s.spine.1 := by
  unfold State.failTest
  try dsimp only
  (repeat' split) <;> simp

@[simp] theorem State.failCores_queue (s : State) : (State.failCores s).spine.1 = s.spine.1 := by
  unfold State.failCores
  simp [apply_ite Prod.fst, apply_ite State.spine]

@[simp] theorem State.raisedRuns_spine (x0 : State) (x1 : List Word) : (State.raisedRuns x0 x1).spine = x0.spine := by
  unfold State.raisedRuns
  (try dsimp only)
  refine State.spine_foldl _ _ _ (fun t x => ?_)
  (repeat' split) <;> simp_all

@[simp] theorem State.linkRecord_spine (s : State) (l : ℕ) (lane : ℕ) (cls : Half) (actions : ℕ) (scope : ℕ) :
    (State.linkRecord s l lane cls actions scope).spine = s.spine := by
  rfl

@[simp] theorem State.trainLink_spine (s : State) (l : ℕ) (lane0 : Bool) (lane1 : Bool) :
    (State.trainLink s l lane0 lane1).spine = s.spine := by
  unfold State.trainLink
  try dsimp only
  (repeat' split) <;> simp

@[simp] theorem State.testLinks_spine (s : State) (t : BringUp) : (State.testLinks s t).spine = s.spine := by
  unfold State.testLinks
  simp [apply_ite Prod.fst, apply_ite State.spine]

@[simp] theorem State.rebuildDram_spine (s : State) (spare : ℕ) (localSize : ℕ) : (State.rebuildDram s spare localSize).spine
    = s.spine := by
  rfl

@[simp] theorem State.testChannels_spine (s : State) (t : BringUp) (fresh : Bool) : (State.testChannels s t fresh).spine
    = s.spine := by
  unfold State.testChannels
  simp [apply_ite Prod.fst, apply_ite State.spine]

@[simp] theorem State.spreadFirmware_queue (s : State) : (State.spreadFirmware s).spine.1 = s.spine.1 := by
  rfl

@[simp] theorem State.stampPatrols_spine (x0 : State) : (State.stampPatrols x0).spine = x0.spine := by
  unfold State.stampPatrols
  simp only [State.modFlt_spine]
  refine State.spine_foldl _ _ _ (fun t x => ?_)
  (repeat' split) <;> simp_all

@[simp] theorem State.endTimeline_queue (x0 : State) (x1 : BringUp) : (State.endTimeline x0 x1).spine.1 = x0.spine.1 := by
  unfold State.endTimeline
  extract_lets fresh s1 k s2 s3 s4 s5 s6 st s7 s8 s9
  have h1 : s1.spine.1 = x0.spine.1 := by unfold s1; rw [State.raiseRegions_spine, State.resolveClears_spine]
  have hk : k.spine.1 = x0.spine.1 := by
    unfold k
    rw [State.pending_foldl _ _ _ (fun t x => by split <;> simp), h1]
  split
  · exact hk
  have h2 : s2.spine.1 = x0.spine.1 := by unfold s2; rw [State.failCores_queue, hk]
  have h3 : s3.spine.1 = x0.spine.1 := by unfold s3; rw [State.pending_foldl _ _ _ (fun t x => by simp), h2]
  have h4 : s4.spine.1 = x0.spine.1 := by
    unfold s4; rw [State.raisedRuns_spine, State.testLinks_spine, State.testChannels_spine, h3]
  have h5 : s5.spine.1 = x0.spine.1 := by unfold s5; rw [State.spreadFirmware_queue, State.stampPatrols_spine, h4]
  have h6 : s6.spine.1 = x0.spine.1 := by unfold s6; rw [State.modNet_spine, h5]
  have h7 : s7.spine.1 = x0.spine.1 := by unfold s7; rw [State.modLife_queue, h6]
  have h8 : s8.spine.1 = x0.spine.1 := by unfold s8; rw [State.modFlt_spine, h7]
  have h9 : s9.spine.1 = x0.spine.1 := by unfold s9; rw [State.postEvent_spine, h8]
  split
  · exact h9
  split
  · rw [State.beginModuleReset_queue, h9]
  · rw [State.askReset_spine, State.modMgmt_spine, h9]

@[simp] theorem State.powerUp_queue (x0 : State) : (State.powerUp x0).spine.1 = x0.spine.1 := by
  rfl

@[simp] theorem State.powerOn_queue (s : State) (t : BringUp) : (State.powerOn s t).spine.1 = s.spine.1 := by
  unfold State.powerOn
  try dsimp only
  (repeat' split) <;> simp

@[simp] theorem State.absorbPeer_spine (s : State) (g : ℕ) (c : ℕ) (h : ℕ) : (State.absorbPeer s g c h).spine = s.spine := by
  unfold State.absorbPeer
  try dsimp only
  (repeat' split) <;> simp

@[simp] theorem State.freeHandle_spine (s : State) (g : ℕ) (c : ℕ) (h : ℕ) : (State.freeHandle s g c h).spine = s.spine := by
  rfl

@[simp] theorem State.settleClose_spine (s : State) (p : ℕ) (g : ℕ) (c : ℕ) (h : ℕ) : (State.settleClose s p g c h).spine
    = s.spine := by
  unfold State.settleClose
  try dsimp only
  (repeat' split) <;> simp

@[simp] theorem State.modHandle_spine (s : State) (g : ℕ) (c : ℕ) (h : ℕ) (f : Handle → Handle) :
    (State.modHandle s g c h f).spine = s.spine := by
  rfl

@[simp] theorem State.closeSend_spine (s : State) (g : ℕ) (c : ℕ) (h : ℕ) : (State.closeSend s g c h).spine = s.spine := by
  unfold State.closeSend
  try dsimp only
  (repeat' split) <;> simp

@[simp] theorem State.coreRet_spine (s : State) (g : ℕ) (c : ℕ) (rd : ℕ) (v : DWord) : (State.coreRet s g c rd v).spine
    = s.spine := by
  rfl

theorem State.trySend_spine (s : State) (g c h : Nat) (words : List DWord) (tuple : Bool) :
    (s.trySend g c h words tuple).spines s := by
  unfold State.trySend
  split
  · rename_i x pt _ _
    split
    · trivial
    split
    · trivial
    rename_i r _
    extract_lets a k p base next v la len body rl slot data s1
    have hn : ∀ t m w u, (next t m w u).spine = t.spine := fun t m w u =>
      (State.modHandle_spine _ _ _ _ _).trans (State.modAtoll_spine _ _ _)
    split
    · trivial
    split
    · trivial
    split
    · split
      · trivial
      split
      · trivial
      split
      · trivial
      split
      · trivial
      split
      · trivial
      split
      · trivial
      split
      · trivial
      · extract_lets d2 s2 s3
        refine (hn _ _ _ _).trans ((State.modAtoll_spine _ _ _).trans ?_)
        unfold s2
        split
        · exact State.modAtoll_spine _ _ _
        · rfl
    · split
      · trivial
      · exact (hn _ _ _ _).trans (State.modAtoll_spine _ _ _)
  · trivial

@[simp] theorem State.coreSend_spine (x0 : State) (x1 : ℕ) (x2 : ℕ) (x3 : ℕ) (x4 : DWord) (x5 : List DWord) (x6 : Bool) :
    (State.coreSend x0 x1 x2 x3 x4 x5 x6).spine = x0.spine := by
  have h := x0.trySend_spine x1 x2 x4.toNat x5 x6
  unfold State.coreSend; (repeat' split) <;> simp_all [SendOut.spines] <;> (repeat' split) <;> simp_all

@[simp] theorem State.handled_spine (s : State) (g : ℕ) (c : ℕ) (port : ℕ) : (State.handled s g c port).spine = s.spine := by
  unfold State.handled
  try dsimp only
  (repeat' split) <;> simp

@[simp] theorem State.physRead_spine (x0 : ℕ) (x1 : State) (x2 : Option ℕ) (x3 : ℕ) (x4 : ℕ) :
    (State.physRead x0 x1 x2 x3 x4).1.spine = x1.spine := by
  induction x0 generalizing x3 x4 with
  | zero => rfl
  | succ k ih => unfold State.physRead; dsimp only; (repeat' split) <;> simp_all <;> (repeat' split) <;> simp_all

@[simp] theorem State.pread_spine (s : State) (who : Option ℕ) (addr : ℕ) (n : ℕ) : (State.pread s who addr n).1.spine = s.spine := by
  unfold State.pread
  try dsimp only
  (repeat' split) <;> simp

@[simp] theorem State.readUnits_spine (x0 : ℕ) (x1 : State) (x2 : Option ℕ) (x3 : ℕ) (x4 : ℕ) :
    (State.readUnits x0 x1 x2 x3 x4).1.spine = x1.spine := by
  induction x0 generalizing x1 x3 x4 with
  | zero => rfl
  | succ k ih => unfold State.readUnits; dsimp only; (repeat' split) <;> simp_all

@[simp] theorem State.readMem_spine (s : State) (who : Option ℕ) (a : ℕ) (n : ℕ) : (State.readMem s who a n).1.spine = s.spine := by
  unfold State.readMem
  try dsimp only
  (repeat' split) <;> simp

@[simp] theorem Coll.apexWords_spine (c : Coll) (s : State) (b : ℕ) (n : ℕ) : (Coll.apexWords c s b n).1.spine = s.spine := by
  unfold Coll.apexWords
  try dsimp only
  (repeat' split) <;> simp

@[simp] theorem Coll.eRefs_spine (c : Coll) (s : State) (x2 : ℕ) : (Coll.eRefs c s x2).1.spine = s.spine := by
  unfold Coll.eRefs
  try dsimp only
  (repeat' split) <;> simp

@[simp] theorem Coll.header_spine (c : Coll) (s : State) : (Coll.header c s).1.spine = s.spine := by
  unfold Coll.header
  try dsimp only
  (repeat' split) <;> simp

@[simp] theorem State.writeAll_spine (x0 : List (ℕ × ℕ × List Byte)) (x1 : State) (x2 : Option ℕ) :
    (State.writeAll x0 x1 x2).1.spine = x1.spine := by
  induction x0 generalizing x1 with
  | nil => rfl
  | cons e r ih => unfold State.writeAll; dsimp only; (repeat' split) <;> simp_all

@[simp] theorem Coll.unwire_spine (c : Coll) (s : State) (f : Fmt) (base : ℕ) (total : ℕ) (scales : ℕ) (b : ℕ) (blocks : List
    (List Byte)) : (Coll.unwire c s f base total scales b blocks).1.spine = s.spine := by
  unfold Coll.unwire
  try dsimp only
  (repeat' split) <;> simp

@[simp] theorem Coll.wire_spine (c : Coll) (s : State) (gather : Bool) (f : Fmt) (base : ℕ) (total : ℕ) (scales : ℕ) (b : ℕ) (n
    : ℕ) : (Coll.wire c s gather f base total scales b n).1.spine = s.spine := by
  unfold Coll.wire
  try dsimp only
  (repeat' split) <;> simp

@[simp] theorem State.dropDma_spine (s : State) (order : ℕ) : (State.dropDma s order).spine = s.spine := by
  rfl

@[simp] theorem State.ackOwner_spine (s : State) (m : TxMsg) (status : ℕ) (nbytes : ℕ) :
    (State.ackOwner s m status nbytes).spine = s.spine := by
  unfold State.ackOwner
  try dsimp only
  (repeat' split) <;> simp

@[simp] theorem State.failColl_spine (s : State) (k : CollKey) (st : ℕ) : (State.failColl s k st).spine = s.spine := by
  unfold State.failColl
  try dsimp only
  (repeat' split) <;> simp

@[simp] theorem State.arrive_spine (s : State) (d : ℕ) (link : Option ℕ) (p : FPkt) : (State.arrive s d link p).spine = s.spine := by
  rfl

@[simp] theorem State.inject_spine (s : State) (m : TxMsg) (resent : Bool) : (State.inject s m resent).spine = s.spine := by
  unfold State.inject
  try dsimp only
  (repeat' split) <;> simp

@[simp] theorem State.pumpTx_spine (x0 : ℕ) (x1 : State) : (State.pumpTx x0 x1).spine = x1.spine := by
  induction x0 generalizing x1 with
  | zero => rfl
  | succ k ih => unfold State.pumpTx; dsimp only; (repeat' split) <;> simp_all

@[simp] theorem State.sendMsgs_spine (s : State) (ms : List TxMsg) : (State.sendMsgs s ms).spine = s.spine := by
  unfold State.sendMsgs
  try dsimp only
  (repeat' split) <;> simp

@[simp] theorem State.askWindow_spine (x0 : State) (x1 : CollKey) : (State.askWindow x0 x1).spine = x0.spine := by
  unfold State.askWindow
  split
  · rfl
  refine State.spine_foldl _ _ _ (fun t o => ?_)
  split
  · rfl
  split
  · rfl
  refine State.spine_foldl _ _ _ (fun u i => ?_)
  split
  · rfl
  dsimp only
  (repeat' split) <;> simp [apply_ite Prod.fst, apply_ite State.spine]

@[simp] theorem State.collDrop_spine (s : State) (d : ℕ) : (State.collDrop s d).spine = s.spine := by
  rfl

@[simp] theorem State.remember_spine (s : State) (m : FMsg) (status : ℕ) : (State.remember s m status).spine = s.spine := by
  rfl

@[simp] theorem State.ackMsg_spine (s : State) (d : ℕ) (m : FMsg) (status : ℕ) (nbytes : ℕ) :
    (State.ackMsg s d m status nbytes).spine = s.spine := by
  unfold State.ackMsg
  try dsimp only
  (repeat' split) <;> simp

@[simp] theorem State.collPacket_spine (s : State) (d kind : Nat) (ctrl : Option Nat)
    (go : State → Coll → CollHdr → List Byte → State × Bool) (h : ∀ t c x bs, (go t c x bs).1.spine = t.spine) :
    (s.collPacket d kind ctrl go).spine = s.spine := by
  unfold State.collPacket
  dsimp only
  (repeat' split) <;> simp_all

@[simp] theorem State.gatherSend_spine (s : State) (k : CollKey) : (State.gatherSend s k).spine = s.spine := by
  unfold State.gatherSend
  try dsimp only
  (repeat' split) <;> simp

@[simp] theorem State.readF32_spine (s : State) (who : Option ℕ) (a : ℕ) (n : ℕ) : (State.readF32 s who a n).1.spine = s.spine := by
  unfold State.readF32
  try dsimp only
  (repeat' split) <;> simp

@[simp] theorem State.readF32s_spine (x0 : List (ℕ × ℕ)) (x1 : State) (x2 : Option ℕ) : (State.readF32s x0 x1 x2).1.spine
    = x1.spine := by
  induction x0 generalizing x1 with
  | nil => rfl
  | cons e r ih => unfold State.readF32s; dsimp only; (repeat' split) <;> simp_all

@[simp] theorem State.runTile_spine (s : State) (k : CollKey) (die i : Nat) : (s.runTile k die i).spine = s.spine := by
  unfold State.runTile
  split
  · rfl
  rename_i c _
  split
  rename_i s1 st h e
  have h1 : s1.spine = s.spine := by rw [← c.header_spine s, e]
  split
  · rw [State.failColl_spine, h1]
  split
  extract_lets who mp src dst n r z
  split
  rename_i s2 st2 ls e2
  have h2 : s2.spine = s.spine := by rw [← h1, ← State.readF32s_spine _ s1 who, e2]
  split
  · rw [State.failColl_spine, h2]
  extract_lets g x b skip y wf
  split
  rename_i s3 stw m old e3
  have h3 : s3.spine = s.spine := by
    rw [← h2]
    split at e3
    · rw [← State.readMem_spine s2 who (src + mp.work + 2 * n * i) (2 * n), e3]
    · cases e3; rfl
  split
  · rw [State.failColl_spine, h3]
  extract_lets work ws
  split
  rename_i s4 st4 m4 e4
  have h4 : s4.spine = s.spine := by rw [← h3, ← State.writeAll_spine ws s3 who, e4]
  split
  · rw [State.failColl_spine, h4]
  extract_lets s5
  rw [State.modColl_spine, ← h4]
  unfold s5
  split
  · rw [State.modStrait_spine]
  · rfl

@[simp] theorem State.sendTile_spine (s : State) (k : CollKey) (i : ℕ) : (State.sendTile s k i).spine = s.spine := by
  unfold State.sendTile
  try dsimp only
  grind [Coll.header_spine, State.failColl_spine, Coll.wire_spine, Coll.unwire_spine, State.sendMsgs_spine, State.spine_mk, State.spine_foldl]

@[simp] theorem State.endUpdate_spine (s : State) (k : CollKey) : (s.endUpdate k).spine = s.spine := by
  unfold State.endUpdate
  split
  · rfl
  rename_i c _
  split
  rename_i s1 st h e
  have h1 : s1.spine = s.spine := by rw [← c.header_spine s, e]
  split
  · rw [State.failColl_spine, h1]
  extract_lets who src dst
  split
  rename_i s2 st2 ps e2
  have h2 : s2.spine = s.spine := by rw [← h1, ← State.readF32_spine s1 who (src + 4) 2, e2]
  split
  · rw [State.failColl_spine, h2]
  extract_lets b
  split
  rename_i s3 st3 n e3
  have h3 : s3.spine = s.spine := by rw [← h2, ← State.writeAll_spine _ s2 who, e3]
  split
  · rw [State.failColl_spine, h3]
  · exact h3

@[simp] theorem State.runTiles_spine (s : State) (k : CollKey) : (State.runTiles s k).spine = s.spine := by
  unfold State.runTiles
  try dsimp only
  grind [State.modColl_spine, State.runTile_spine, State.sendTile_spine, State.endUpdate_spine, State.spine_mk, State.spine_foldl]

@[simp] theorem State.ownChunk_spine (x0 : State) (x1 : CollKey) (x2 : Nat) : (x0.ownChunk x1 x2).spine = x0.spine := by
  unfold State.ownChunk
  split
  · rfl
  rename_i c _
  extract_lets d n
  split
  · rfl
  split
  rename_i s1 st refs e
  have h1 : s1.spine = x0.spine := by rw [← c.eRefs_spine x0 x2, e]
  split
  · rw [State.failColl_spine, h1]
  extract_lets s2
  have h2 : s2.spine = x0.spine := by
    unfold s2
    split
    · exact h1
    · rw [State.sendMsgs_spine, State.modColl_spine, h1]
  split
  · exact h2
  rename_i c2 _
  extract_lets own
  split
  rename_i s3 st3 wire e3
  have h3 : s3.spine = x0.spine := by
    rw [← h2]
    split at e3
    · rw [← c2.wire_spine s2 false d.fs d.src d.blocks 0 (d.chunk d.rank x2).1 n, e3]
    · cases e3; rfl
  split
  · rw [State.failColl_spine, h3]
  extract_lets c3 s4 full data
  have h4 : s4.spine = x0.spine := by unfold s4; rw [State.modColl_spine, h3]
  split
  · exact h4
  split
  rename_i s5 st5 hd e5
  have h5 : s5.spine = x0.spine := by rw [← h4, ← c3.header_spine s4, e5]
  split
  · rw [State.failColl_spine, h5]
  extract_lets addr
  refine (State.biThen_spine _ _ _ _ (fun t => State.failColl_spine _ _ _) ?_).trans h5
  split
  rename_i t1 st6 n6 e6
  have h6 : t1.spine = s5.spine := by
    rw [← s5.pwrite_spine (some c.part) addr (BitVec.ofNat 5 d.fd.code) data.flatten, e6]
  split
  · rw [State.failColl_spine, h6]
  extract_lets t2
  have h7 : t2.spine = s5.spine := by unfold t2; rw [State.modColl_spine, h6]
  split <;> rw [State.sendMsgs_spine, h7]

@[simp] theorem State.pushColl_spine (x0 : ℕ) (x1 : State) (x2 : CollKey) : (State.pushColl x0 x1 x2).spine = x1.spine := by
  induction x0 generalizing x1 with
  | zero => rfl
  | succ k ih => unfold State.pushColl; dsimp only; (repeat' split) <;> simp_all [State.spine_foldl]

@[simp] theorem State.push_spine (s : State) (k : CollKey) : (State.push s k).spine = s.spine := by
  unfold State.push
  try dsimp only
  (repeat' split) <;> simp

@[simp] theorem State.skewCheck_spine (s : State) (k : CollKey) : (s.skewCheck k).spine = s.spine := by
  unfold State.skewCheck
  split
  · rfl
  rename_i c _
  split
  · rfl
  split
  rename_i s1 st h e
  have h1 : s1.spine = s.spine := by rw [← c.header_spine s, e]
  split
  · rw [State.failColl_spine, h1]
  extract_lets src
  split
  rename_i s2 st2 x bs e2
  have h2 : s2.spine = s.spine := by rw [← h1, ← State.readMem_spine s1 (some c.part) src 4, e2]
  split
  · rw [State.failColl_spine, h2]
  extract_lets l
  split
  · exact h2
  · rw [State.modStrait_spine, State.raise_spine, State.modColl_spine, h2]

@[simp] theorem State.collRow_spine (s : State) (k : CollKey) (op : ℕ) : (State.collRow s k op).spine = s.spine := by
  unfold State.collRow
  try dsimp only
  (repeat' split) <;> simp

@[simp] theorem State.gatherOwn_spine (s : State) (k : CollKey) : (State.gatherOwn s k).spine = s.spine := by
  unfold State.gatherOwn
  try dsimp only
  (repeat' split) <;> simp

@[simp] theorem State.settleMsg_spine (s : State) (m : TxMsg) : (State.settleMsg s m).spine = s.spine := by
  unfold State.settleMsg
  try dsimp only
  (repeat' split) <;> simp

@[simp] theorem State.coreFault_spine (s : State) (g : ℕ) (c : ℕ) (store : Bool) (ad : DWord) (st : ℕ) :
    (State.coreFault s g c store ad st).spine = s.spine := by
  rfl

theorem State.atomicRead_spine (x0 : State) (x1 : ℕ) (x2 : ℕ) (x3 : DWord) (x4 : ℕ) (x5 : Bool) (x6 : Decoded) :
    (State.atomicRead x0 x1 x2 x3 x4 x5 x6).spines x0 := by
  unfold State.atomicRead; dsimp only; (repeat' split) <;> simp_all [AtomicRead.spines]
  all_goals first
    | exact (State.cacheRead_spine _ _ _ _).waits ‹_›
    | exact (State.cacheRead_spine _ _ _ _).ends ‹_›

@[simp] theorem State.corePut_spine (s : State) (g : ℕ) (c : ℕ) (rd : ℕ) (len : ℕ) (v : DWord) :
    (State.corePut s g c rd len v).spine = s.spine := by
  rfl

@[simp] theorem State.enqueueMem_spine (s : State) (h : ℕ) (u : ℕ) (c : MemCmd) : (State.enqueueMem s h u c).spine = s.spine := by
  rfl

@[simp] theorem State.postDma_spine (s : State) (g : ℕ) (core : ℕ) (v : DWord) : (State.postDma s g core v).spine = s.spine := by
  unfold State.postDma
  try dsimp only
  (repeat' split) <;> simp

@[simp] theorem State.coreStore_spine (s : State) (g : ℕ) (c : ℕ) (ad : DWord) (n : ℕ) (v : DWord) (len : ℕ) :
    (State.coreStore s g c ad n v len).spine = s.spine := by
  unfold State.coreStore
  try dsimp only
  (repeat' split) <;> simp

@[simp] theorem State.coreAtomic_spine (s : State) (g c rd f5 n : Nat) (ad r2 : DWord) (dec : Decoded) (len : Nat) :
    (s.coreAtomic g c rd f5 n ad r2 dec len).spine = s.spine := by
  unfold State.coreAtomic
  have h := State.atomicRead_spine s g c ad n (f5 != 2) dec
  split
  · simp
  · split
    · exact h.done ‹_›
    · have e := h.ok ‹_›
      dsimp only
      (repeat' split) <;> simp [e]

@[simp] theorem State.coreTrap_spine (s : State) (g : ℕ) (c : ℕ) (cause : ℕ) (tval : DWord) :
    (State.coreTrap s g c cause tval).spine = s.spine := by
  rfl

@[simp] theorem State.csrWrite_spine (s : State) (g : ℕ) (c : ℕ) (num : ℕ) (v : DWord) : (State.csrWrite s g c num v).spine
    = s.spine := by
  unfold State.csrWrite
  try dsimp only
  (repeat' split) <;> simp

@[simp] theorem State.coreCsr_spine (s : State) (g : ℕ) (c : ℕ) (rd : ℕ) (rs1 : ℕ) (f3 : ℕ) (num : ℕ) (len : ℕ) (insn : ℕ) :
    (State.coreCsr s g c rd rs1 f3 num len insn).spine = s.spine := by
  unfold State.coreCsr
  try dsimp only
  (repeat' split) <;> simp

@[simp] theorem State.popDma_spine (s : State) (g : ℕ) (core : ℕ) (rd : ℕ) : (State.popDma s g core rd).spine = s.spine := by
  unfold State.popDma
  try dsimp only
  (repeat' split) <;> simp

@[simp] theorem State.coreLoad_spine (s : State) (g : ℕ) (c : ℕ) (rd : ℕ) (ad : DWord) (n : ℕ) (sgn : Bool) (dec : Decoded) (len
    : ℕ) : (State.coreLoad s g c rd ad n sgn dec len).spine = s.spine := by
  unfold State.coreLoad
  try dsimp only
  (repeat' split) <;> simp

@[simp] theorem State.coreExec_spine (s : State) (g : ℕ) (c : ℕ) (i : ℕ) (raw : ℕ) (len : ℕ) (dec : Decoded) :
    (State.coreExec s g c i raw len dec).spine = s.spine := by
  unfold State.coreExec
  try dsimp only
  (repeat' split) <;> simp

@[simp] theorem State.coreWait_spine (s : State) (g : ℕ) (c : ℕ) (rd : ℕ) (objs : List (DWord × Word)) (any : Bool) :
    (State.coreWait s g c rd objs any).spine = s.spine := by
  unfold State.coreWait
  try dsimp only
  (repeat' split) <;> simp

@[simp] theorem State.sramDecode_spine (s : State) (g : ℕ) (c : ℕ) (addr : ℕ) (d : Decoded) :
    (State.sramDecode s g c addr d).spine = s.spine := by
  unfold State.sramDecode
  try dsimp only
  (repeat' split) <;> simp

@[simp] theorem State.dramTaken_spine (s : State) (a : ℕ) (d : Decoded) : (State.dramTaken s a d).spine = s.spine := by
  unfold State.dramTaken
  try dsimp only
  (repeat' split) <;> simp

@[simp] theorem State.linkEcc_spine (s : State) (c : ℕ) (d : Decoded) : (State.linkEcc s c d).spine = s.spine := by
  unfold State.linkEcc
  try dsimp only
  (repeat' split) <;> simp

@[simp] theorem State.dramDecode_spine (s : State) (who : Option ℕ) (a : ℕ) (d : Decoded) (src : ℕ) (op : ℕ × ℕ) :
    (State.dramDecode s who a d src op).spine = s.spine := by
  unfold State.dramDecode
  try dsimp only
  (repeat' split) <;> simp

@[simp] theorem State.stagingDecode_spine (s : State) (h : ℕ) (off : ℕ) (d : Decoded) (src : ℕ) (op : ℕ × ℕ) :
    (State.stagingDecode s h off d src op).spine = s.spine := by
  unfold State.stagingDecode
  try dsimp only
  (repeat' split) <;> simp

@[simp] theorem State.placeDecode_spine (s : State) (who : Option ℕ) (pl : Place) (d : Decoded) (src : ℕ) (op : ℕ × ℕ) :
    (State.placeDecode s who pl d src op).spine = s.spine := by
  unfold State.placeDecode
  try dsimp only
  (repeat' split) <;> simp

@[simp] theorem State.badWord_spine (s : State) (who : Option ℕ) (bad : Option ℕ) (op : ℕ × ℕ) :
    (State.badWord s who bad op).spine = s.spine := by
  unfold State.badWord
  try dsimp only
  (repeat' split) <;> simp

@[simp] theorem State.touchUnit_spine (s : State) (u : Word) (p : ℕ) : (State.touchUnit s u p).spine = s.spine := by
  unfold State.touchUnit
  try dsimp only
  (repeat' split) <;> simp

@[simp] theorem State.startRun_spine (s : State) (h : ℕ) (u : ℕ) (x3 : ℕ) (v : ℕ) (r : MemRun) :
    (State.startRun s h u x3 v r).spine = s.spine := by
  unfold State.startRun
  simp

@[simp] theorem State.memRow_spine (s : State) (h u code : Nat) (bad : Option Nat) (go : State → MemCmd → State × MemRun)
    (hg : ∀ t c, (go t c).1.spine = t.spine) : (s.memRow h u code bad go).spine = s.spine := by
  unfold State.memRow
  split
  · rfl
  split
  · rfl
  extract_lets op cs r0
  split
  · rfl
  split
  · simp
  split
  · simp
  refine State.biThen_spine _ _ _ _ (fun t => by simp) ?_
  dsimp only
  simp [hg]

@[simp] theorem State.memLocal_spine (s : State) (h u code : Nat) (bad : Option Nat) (plan : State → MemCmd → State × Plan)
    (hp : ∀ t c, (plan t c).1.spine = t.spine) : (s.memLocal h u code bad plan).spine = s.spine := by
  unfold State.memLocal
  exact State.memRow_spine _ _ _ _ _ _ (fun t c => hp t c)

@[simp] theorem State.readRows_spine (x0 : List (ℕ × ℕ)) (x1 : State) (x2 : Option ℕ) : (State.readRows x0 x1 x2).1.spine
    = x1.spine := by
  induction x0 generalizing x1 with
  | nil => rfl
  | cons e r ih => unfold State.readRows; dsimp only; (repeat' split) <;> simp_all

@[simp] theorem State.planCompress_spine (s : State) (m : MemCmd) : (State.planCompress s m).1.spine = s.spine := by
  unfold State.planCompress
  try dsimp only
  (repeat' split) <;> simp

@[simp] theorem State.planCopy_spine (s : State) (c : MemCmd) : (State.planCopy s c).1.spine = s.spine := by
  unfold State.planCopy
  try dsimp only
  (repeat' split) <;> simp

@[simp] theorem State.planDecompress_spine (s : State) (m : MemCmd) : (State.planDecompress s m).1.spine = s.spine := by
  unfold State.planDecompress
  try dsimp only
  (repeat' split) <;> simp

@[simp] theorem State.planFactor_spine (s : State) (m : MemCmd) : (State.planFactor s m).1.spine = s.spine := by
  unfold State.planFactor
  try dsimp only
  (repeat' split) <;> simp

@[simp] theorem State.readIndices_spine (s : State) (who : Option ℕ) (c : SuCmd) : (State.readIndices s who c).1.spine = s.spine := by
  unfold State.readIndices
  try dsimp only
  (repeat' split) <;> simp

@[simp] theorem State.planMove_spine (s : State) (m : MemCmd) : (State.planMove s m).1.spine = s.spine := by
  unfold State.planMove
  try dsimp only
  (repeat' split) <;> simp

@[simp] theorem State.planReduce_spine (s : State) (m : MemCmd) : (State.planReduce s m).1.spine = s.spine := by
  unfold State.planReduce
  try dsimp only
  (repeat' split) <;> simp

@[simp] theorem State.setBanks_spine (s : State) (bs : List ℕ) (st : BankState) : (State.setBanks s bs st).spine = s.spine := by
  unfold State.setBanks
  simp [apply_ite Prod.fst, apply_ite State.spine]

@[simp] theorem State.writeAccepted_spine (s : State) (bs : List ℕ) (ws : List (ℕ × ℕ × List Byte)) (who : Option ℕ) :
    (State.writeAccepted s bs ws who).1.spine = s.spine := by
  unfold State.writeAccepted
  try dsimp only
  (repeat' split) <;> simp

@[simp] theorem State.modMbox_spine (s : State) (m : ℕ) (f : Mailbox → Mailbox) : (State.modMbox s m f).spine = s.spine := by
  rfl

@[simp] theorem State.mbFin_spine (s : State) (m : ℕ) (c : MbCmd) (st : ℕ) (off : ℕ) (final : Bool) (frees : Bool) (result : ℕ)
    (data : List Byte) : (State.mbFin s m c st off final frees result data).spine = s.spine := by
  unfold State.mbFin
  simp [apply_ite Prod.fst, apply_ite State.spine]

@[simp] theorem State.mbEnd_spine (s : State) (m : ℕ) (c : MbCmd) (st : ℕ) (off : ℕ) (result : ℕ) (data : List Byte) :
    (State.mbEnd s m c st off result data).spine = s.spine := by
  unfold State.mbEnd
  simp

@[simp] theorem State.endDump_spine (s : State) (d : Dump) : (State.endDump s d).spine = s.spine := by
  unfold State.endDump
  try dsimp only
  (repeat' split) <;> simp

@[simp] theorem State.dumpStep_spine (s : State) (d : Dump) : (State.dumpStep s d).spine = s.spine := by
  unfold State.dumpStep
  try dsimp only
  (repeat' split) <;> simp

@[simp] theorem State.startDump_spine (s : State) (cause : ℕ) (seq : Word) : (State.startDump s cause seq).spine = s.spine := by
  rfl

@[simp] theorem State.flushAtoll_spine (x0 : State) (x1 : ℕ) : (State.flushAtoll x0 x1).spine = x0.spine := by
  unfold State.flushAtoll
  dsimp only
  rw [State.releaseAround_spine, State.modAtoll_spine]

@[simp] theorem State.abortAtoll_spine (x0 : State) (x1 : ℕ) : (State.abortAtoll x0 x1).spine = x0.spine := by
  unfold State.abortAtoll
  dsimp only
  rw [State.modAtoll_spine, State.dropWaits_spine, State.dropWaits_spine, State.flushAtoll_spine]

@[simp] theorem State.endBatches_spine (s : State) (g : ℕ) : (State.endBatches s g).spine = s.spine := by
  unfold State.endBatches
  try dsimp only
  (repeat' split) <;> simp

@[simp] theorem State.closeSendEnd_spine (s : State) (p : ℕ) (x2 : Handle) : (State.closeSendEnd s p x2).spine = s.spine := by
  unfold State.closeSendEnd
  try dsimp only
  (repeat' split) <;> simp

@[simp] theorem State.killSender_spine (s : State) (p : ℕ) (x2 : Handle) : (State.killSender s p x2).spine = s.spine := by
  unfold State.killSender
  try dsimp only
  (repeat' split) <;> simp

@[simp] theorem State.resetEndpoint_spine (s : State) (g : ℕ) (c : ℕ) : (State.resetEndpoint s g c).spine = s.spine := by
  unfold State.resetEndpoint
  try dsimp only
  grind [State.closeSendEnd_spine, State.killSender_spine, State.modAtoll_spine, State.spine_mk, State.spine_foldl]

@[simp] theorem State.beginAtollReset_spine (x0 : State) (x1 : ℕ) : (State.beginAtollReset x0 x1).spine = x0.spine := by
  unfold State.beginAtollReset
  dsimp only
  rw [State.modAtoll_spine, State.resetEndpoint_spine, State.resetEndpoint_spine, State.dropWaits_spine, State.dropWaits_spine, State.releaseAround_spine, State.endBatches_spine, State.modAtoll_spine]

@[simp] theorem State.leaveLane_spine (s : State) (g : ℕ) (i : ℕ) : (State.leaveLane s g i).spine = s.spine := by
  unfold State.leaveLane
  try dsimp only
  (repeat' split) <;> simp

@[simp] theorem State.clearLanes_spine (x0 : State) (x1 : ℕ) : (State.clearLanes x0 x1).spine = x0.spine := by
  unfold State.clearLanes
  refine State.spine_foldl _ _ _ (fun t x => State.spine_foldl _ _ _ (fun u y => ?_))
  simp

@[simp] theorem State.dropMem_spine (s : State) (f : MemCmd → Bool) : (State.dropMem s f).spine = s.spine := by
  rfl

@[simp] theorem State.endAtollReset_spine (x0 : State) (x1 : ℕ) : (State.endAtollReset x0 x1).spine = x0.spine := by
  unfold State.endAtollReset
  dsimp only
  rw [State.modAtoll_spine, State.clearLanes_spine, State.dropMem_spine]

@[simp] theorem State.releaseAtoll_spine (s : State) (g : ℕ) : (State.releaseAtoll s g).spine = s.spine := by
  rfl

@[simp] theorem State.remapPart_spine (s : State) (p : ℕ) : (State.remapPart s p).spine = s.spine := by
  unfold State.remapPart
  try dsimp only
  (repeat' split) <;> simp

@[simp] theorem State.resetCore_spine (s : State) (g : ℕ) (c : ℕ) : (State.resetCore s g c).spine = s.spine := by
  unfold State.resetCore
  simp

@[simp] theorem State.resetCores_spine (s : State) (g : ℕ) : (State.resetCores s g).spine = s.spine := by
  unfold State.resetCores
  simp

@[simp] theorem State.setSplit_spine (s : State) (p : ℕ) (split : Bool) : (State.setSplit s p split).spine = s.spine := by
  unfold State.setSplit
  try dsimp only
  (repeat' split) <;> simp

@[simp] theorem State.takeAtoll_spine (s : State) (g : ℕ) (p : ℕ) (split : Bool) (epoch : BitVec 4) :
    (State.takeAtoll s g p split epoch).spine = s.spine := by
  rfl

@[simp] theorem State.zeroAtoll_spine (s : State) (g : ℕ) : (State.zeroAtoll s g).spine = s.spine := by
  rfl

@[simp] theorem State.replayLink_spine (s : State) (l : ℕ) : (State.replayLink s l).spine = s.spine := by
  rfl

@[simp] theorem State.emitPacket_spine (s : State) (l : ℕ) (p : OutPkt) : (State.emitPacket s l p).spine = s.spine := by
  unfold State.emitPacket
  try dsimp only
  (repeat' split) <;> simp

@[simp] theorem State.pumpLink_spine (x0 : ℕ) (x1 : State) (x2 : ℕ) : (State.pumpLink x0 x1 x2).spine = x1.spine := by
  induction x0 generalizing x1 with
  | zero => rfl
  | succ k ih => unfold State.pumpLink; dsimp only; (repeat' split) <;> simp_all

@[simp] theorem State.flushLink_spine (s : State) (l : ℕ) : (State.flushLink s l).spine = s.spine := by
  unfold State.flushLink
  try dsimp only
  (repeat' split) <;> simp

@[simp] theorem State.sendFill_spine (s : State) (l : ℕ) : (State.sendFill s l).spine = s.spine := by
  unfold State.sendFill
  try dsimp only
  (repeat' split) <;> simp

@[simp] theorem State.acceptCodeword_spine (s : State) (l : ℕ) (cw : Codeword) : (State.acceptCodeword s l cw).spine = s.spine := by
  unfold State.acceptCodeword
  try dsimp only
  (repeat' split) <;> simp

@[simp] theorem State.badPacket_spine (s : State) (d : ℕ) : (State.badPacket s d).spine = s.spine := by
  rfl

@[simp] theorem State.countFec_spine (s : State) (l : ℕ) : (State.countFec s l).spine = s.spine := by
  unfold State.countFec
  try dsimp only
  (repeat' split) <;> simp

@[simp] theorem State.countRetry_spine (s : State) (l : ℕ) (lane : ℕ) : (State.countRetry s l lane).spine = s.spine := by
  unfold State.countRetry
  try dsimp only
  (repeat' split) <;> simp

@[simp] theorem State.deliverMsg_spine (s : State) (d : ℕ) (m : FMsg) (sync : Bool) : (State.deliverMsg s d m sync).spine
    = s.spine := by
  unfold State.deliverMsg
  try dsimp only
  (repeat' split) <;> simp

@[simp] theorem State.putLink_spine (s : State) (src : Option ℕ) (l : ℕ) (p : FPkt) : (State.putLink s src l p).spine = s.spine := by
  unfold State.putLink
  try dsimp only
  (repeat' split) <;> simp

@[simp] theorem State.remoteWrite_spine (s : State) (c : MemCmd) : (State.remoteWrite s c).1.spine = s.spine := by
  unfold State.remoteWrite
  try dsimp only
  (repeat' split) <;> simp

@[simp] theorem State.takeLocal_spine (s : State) (d : ℕ) (p : FPkt) : (State.takeLocal s d p).spine = s.spine := by
  unfold State.takeLocal
  try dsimp only
  (repeat' split) <;> simp

@[simp] theorem State.replicate_spine (s : State) (d : ℕ) (src : Option ℕ) (p : FPkt) : (State.replicate s d src p).spine
    = s.spine := by
  unfold State.replicate
  simp [apply_ite Prod.fst, apply_ite State.spine]

@[simp] theorem State.retrain_spine (s : State) (l : ℕ) (mask : ℕ) (lane : ℕ) : (State.retrain s l mask lane).spine = s.spine := by
  unfold State.retrain
  try dsimp only
  (repeat' split) <;> simp

@[simp] theorem State.routePacket_spine (s : State) (d : ℕ) (src : Option ℕ) (p : FPkt) : (State.routePacket s d src p).spine
    = s.spine := by
  unfold State.routePacket
  try dsimp only
  (repeat' split) <;> simp

@[simp] theorem State.sendSignal_spine (s : State) (p : ℕ) (dest : ℕ) (obj : ℕ) (inc : ℕ) :
    (State.sendSignal s p dest obj inc).spine = s.spine := by
  unfold State.sendSignal
  try dsimp only
  (repeat' split) <;> simp

@[simp] theorem State.closeStage_spine (s : State) (n : ℕ) : (State.closeStage s n).1.spine = s.spine := by
  unfold State.closeStage
  try dsimp only
  (repeat' split) <;> simp

@[simp] theorem State.finishActivation_spine (s : State) (a : Activation) : (State.finishActivation s a).spine = s.spine := by
  unfold State.finishActivation
  try dsimp only
  (repeat' split) <;> simp

@[simp] theorem State.nameStaged_spine (s : State) : (State.nameStaged s).spine = s.spine := by
  rfl

@[simp] theorem State.nextDie_spine (s : State) (a : Activation) : (State.nextDie s a).spine = s.spine := by
  unfold State.nextDie
  simp [apply_ite Prod.fst, apply_ite State.spine]

@[simp] theorem State.openStage_spine (s : State) (pldm : Bool) : (State.openStage s pldm).spine = s.spine := by
  unfold State.openStage
  try dsimp only
  (repeat' split) <;> simp

@[simp] theorem State.putStage_spine (s : State) (off : ℕ) (data : List Byte) : (State.putStage s off data).spine = s.spine := by
  unfold State.putStage
  try dsimp only
  (repeat' split) <;> simp

@[simp] theorem State.restartHub_spine (s : State) (h : ℕ) (i : FwInfo) : (State.restartHub s h i).spine = s.spine := by
  rfl

@[simp] theorem State.answerRead_spine (s : State) (line : ℕ) : (State.answerRead s line).spine = s.spine := by
  rfl

@[simp] theorem State.hostRead_spine (s : State) (line : ℕ) (use : HostCacheUse) (dec : Decoded) :
    (State.hostRead s line use dec).spine = s.spine := by
  unfold State.hostRead
  try dsimp only
  (repeat' split) <;> simp

@[simp] theorem State.sendPending_spine (s : State) : (State.sendPending s).spine = s.spine := by
  unfold State.sendPending
  try dsimp only
  (repeat' split) <;> simp

@[simp] theorem State.noteChange_spine (s : State) (old : State) : (State.noteChange s old).spine = s.spine := by
  unfold State.noteChange
  simp [apply_ite Prod.fst, apply_ite State.spine]

@[simp] theorem State.paramEffect_spine (s : State) (n : ℕ) : (State.paramEffect s n).spine = s.spine := by
  unfold State.paramEffect
  try dsimp only
  (repeat' split) <;> simp

@[simp] theorem State.setLinkConfig_spine (s : State) (l : ℕ) (v : ℕ) : (State.setLinkConfig s l v).spine = s.spine := by
  unfold State.setLinkConfig
  try dsimp only
  (repeat' split) <;> simp

@[simp] theorem State.enterFlood_spine (x0 : State) (x1 : ℕ) (x2 : Word) (x3 : Half) : (State.enterFlood x0 x1 x2 x3).spine
    = x0.spine := by
  unfold State.enterFlood
  dsimp only
  rw [State.modFlt_spine]

@[simp] theorem State.fenceHub_spine (s : State) (h : ℕ) (cls : Half) (seq : Word) : (State.fenceHub s h cls seq).spine
    = s.spine := by
  unfold State.fenceHub
  simp

@[simp] theorem State.beginPartReset_spine (s : State) (p : ℕ) (abort : Bool) : (State.beginPartReset s p abort).spine = s.spine := by
  unfold State.beginPartReset
  try dsimp only
  (repeat' split) <;> simp

@[simp] theorem State.jobAbort_spine (s : State) (p : ℕ) : (State.jobAbort s p).spine = s.spine := by
  unfold State.jobAbort
  try dsimp only
  (repeat' split) <;> simp

@[simp] theorem State.sendFlood_spine (s : State) (but : Option ℕ) (ps : List FPkt) : (State.sendFlood s but ps).spine = s.spine := by
  unfold State.sendFlood
  simp [apply_ite Prod.fst, apply_ite State.spine]

@[simp] theorem State.standbyFails_spine (s : State) : (State.standbyFails s).spine = s.spine := by
  unfold State.standbyFails
  try dsimp only
  (repeat' split) <;> simp

@[simp] theorem State.swapHub_queue (s : State) (h : ℕ) : (State.swapHub s h).spine.1 = s.spine.1 := by
  rfl

@[simp] theorem State.takeFlood_spine (s : State) (x1 : ℕ) (l : ℕ) (p : FPkt) : (State.takeFlood s x1 l p).spine = s.spine := by
  unfold State.takeFlood
  try dsimp only
  (repeat' split) <;> simp

@[simp] theorem State.timeoutCommands_spine (x0 : State) : (State.timeoutCommands x0).spine = x0.spine := by
  unfold State.timeoutCommands
  dsimp only
  rw [State.spine_foldl _ _ _ (fun t x => by simp), State.modMem_spine, State.spine_foldl _ _ _ (fun t x => by simp)]

@[simp] theorem State.mctp_spine (s : State) (type : Byte) (data : List Byte) : (State.mctp s type data).spine = s.spine := by
  rfl

@[simp] theorem State.pldm_spine (s : State) (type : ℕ) (cmd : ℕ) (cc : ℕ) (data : List Byte) :
    (State.pldm s type cmd cc data).spine = s.spine := by
  rfl

@[simp] theorem State.pldmVerify_spine (s : State) : (State.pldmVerify s).spine = s.spine := by
  unfold State.pldmVerify
  try dsimp only
  grind [State.pldm_spine, State.closeStage_spine, State.modMgmt_spine, State.spine_mk, State.spine_foldl]

@[simp] theorem State.tap_spine (s : State) (width : ℕ) (v : BitVec 128) : (State.tap s width v).spine = s.spine := by
  rfl

@[simp] theorem State.tapIr_spine (s : State) (ir : Byte) : (State.tapIr s ir).spine = s.spine := by
  rfl

@[simp] theorem State.msix_spine (s : State) (v : ℕ) : (State.msix s v).spine = s.spine := by
  unfold State.msix
  try dsimp only
  (repeat' split) <;> simp

@[simp] theorem State.eventTo_spine (s : State) (e : Event) (m : ℕ) : (State.eventTo s e m).spine = s.spine := by
  unfold State.eventTo
  try dsimp only
  (repeat' split) <;> simp

@[simp] theorem State.queuePldm_spine (s : State) (cls : ℕ) (data : List Byte) (status : Bool) :
    (State.queuePldm s cls data status).spine = s.spine := by
  rfl

@[simp] theorem State.deliverEvent_spine (s : State) (e : Event) : (State.deliverEvent s e).spine = s.spine := by
  unfold State.deliverEvent
  try dsimp only
  (repeat' split) <;> simp

@[simp] theorem State.mbLong_spine (s : State) (m : Nat) (c : MbCmd) (go : State → MbCmd → State)
    (h : ∀ t d, (go t d).spine = t.spine) : (s.mbLong m c go).spine = s.spine := by
  unfold State.mbLong
  dsimp only
  split
  · exact State.mbEnd_spine _ _ _ _ _ _ _
  · rw [h, State.mbFin_spine, State.modMbox_spine]

@[simp] theorem State.mbStart_spine (s : State) (m : ℕ) (slot : ℕ) (r : BitVec 2048) : (State.mbStart s m slot r).spine
    = s.spine := by
  unfold State.mbStart
  try dsimp only
  (repeat' split) <;> simp

@[simp] theorem State.endBankPower_spine (s : State) (h : ℕ) (b : ℕ) (on : Bool) (code : ℕ) :
    (State.endBankPower s h b on code).spine = s.spine := by
  unfold State.endBankPower
  simp

@[simp] theorem State.bankOff_spine (s : State) (h : ℕ) (b : ℕ) : (State.bankOff s h b).spine = s.spine := by
  unfold State.bankOff
  simp

@[simp] theorem State.modWindow_spine (s : State) (w : ℕ) (f : Window → Window) : (State.modWindow s w f).spine = s.spine := by
  rfl

@[simp] theorem State.closeWindow_spine (s : State) (w : ℕ) (keep : Bool) : (State.closeWindow s w keep).spine = s.spine := by
  rfl

@[simp] theorem State.endRetire_spine (s : State) (c : ℕ) (st : ℕ) : (State.endRetire s c st).spine = s.spine := by
  unfold State.endRetire
  simp

@[simp] theorem State.mapRuns_spine (x0 : State) (x1 : MemRun → MemRun) : (State.mapRuns x0 x1).spine = x0.spine := by
  unfold State.mapRuns
  refine State.spine_foldl _ _ _ (fun t x => State.spine_foldl _ _ _ (fun u y => ?_))
  split <;> simp

@[simp] theorem State.scrubWord_spine (s : State) (w : SramWord) (dec : Decoded) : (State.scrubWord s w dec).spine = s.spine := by
  unfold State.scrubWord
  try dsimp only
  (repeat' split) <;> simp

@[simp] theorem State.causeDeliver_spine (s : State) (n : ℕ) (m : CMsg) : (State.causeDeliver s n m).spine = s.spine := by
  rfl

@[simp] theorem State.causeSend_spine (s : State) (n : ℕ) (m : CMsg) : (State.causeSend s n m).spine = s.spine := by
  unfold State.causeSend
  try dsimp only
  (repeat' split) <;> simp

@[simp] theorem State.countLink_spine (s : State) (l : OnDieLink) (retrain : Bool) : (State.countLink s l retrain).spine
    = s.spine := by
  unfold State.countLink
  try dsimp only
  (repeat' split) <;> simp

@[simp] theorem State.onDieRecord_spine (s : State) (l : OnDieLink) (cls : Half) (scope : ℕ) (actions : ℕ) :
    (State.onDieRecord s l cls scope actions).spine = s.spine := by
  rfl

@[simp] theorem State.retryLink_spine (s : State) (l : OnDieLink) : (State.retryLink s l).spine = s.spine := by
  unfold State.retryLink
  try dsimp only
  (repeat' split) <;> simp

@[simp] theorem State.setMeshStep_spine (s : State) (d : ℕ) (half : ℕ) (step : BitVec 4) :
    (State.setMeshStep s d half step).spine = s.spine := by
  unfold State.setMeshStep
  simp [apply_ite Prod.fst, apply_ite State.spine]

@[simp] theorem State.writeDirectory_spine (s : State) (m : ℕ) (c : MbCmd) (p : ℕ) (bad : Option ℕ) :
    (State.writeDirectory s m c p bad).spine = s.spine := by
  unfold State.writeDirectory
  try dsimp only
  grind [State.mbEnd_spine, State.modMem_spine, State.biThen_spine, State.readMem_spine, State.badWord_spine, State.pwrite_spine, State.spine_mk, State.spine_foldl]

@[simp] theorem State.writeRecordCmd_spine (s : State) (m : ℕ) (c : MbCmd) (p : ℕ) : (State.writeRecordCmd s m c p).spine
    = s.spine := by
  unfold State.writeRecordCmd
  try dsimp only
  (repeat' split) <;> simp

@[simp] theorem State.writeList_spine (s : State) (m : ℕ) (c : MbCmd) (p : ℕ) : (State.writeList s m c p).spine = s.spine := by
  unfold State.writeList
  try dsimp only
  (repeat' split) <;> simp

@[simp] theorem State.catWrite_spine (s : State) (m : ℕ) (c : MbCmd) (p : ℕ) (bad : Option ℕ) :
    (State.catWrite s m c p bad).spine = s.spine := by
  unfold State.catWrite
  try dsimp only
  (repeat' split) <;> simp

theorem State.hostPut_spine (x0 : State) (x1 : ℕ) (x2 : List Byte) {t : State} (h : State.hostPut x0 x1 x2 = some t) : t.spine
    = x0.spine := by
  unfold State.hostPut at h; split at h
  · cases h
  · cases h; rw [State.modHost_spine]

@[simp] theorem State.putStatus_spine (s : State) (p : ℕ) (st : ℕ) : (State.putStatus s p st).spine = s.spine := by
  unfold State.putStatus
  try dsimp only
  grind [State.modPart_spine, State.hostPut_spine, State.biThen_spine, State.pwrite_spine, State.spine_mk, State.spine_foldl]

@[simp] theorem State.zeroBanks_spine (s : State) (banks : BitVec 256) : (State.zeroBanks s banks).spine = s.spine := by
  unfold State.zeroBanks
  simp [apply_ite Prod.fst, apply_ite State.spine]

@[simp] theorem State.dropEntries_spine (s : State) (f : BitVec 128 → Bool) : (State.dropEntries s f).spine = s.spine := by
  rfl

@[simp] theorem State.destroyPart_spine (s : State) (p : ℕ) : (State.destroyPart s p).spine = s.spine := by
  unfold State.destroyPart
  try dsimp only
  (repeat' split) <;> simp

@[simp] theorem State.dropColls_spine (s : State) (p : ℕ) (tag : Word) : (State.dropColls s p tag).spine = s.spine := by
  unfold State.dropColls
  try dsimp only
  (repeat' split) <;> simp

@[simp] theorem State.endPartReset_spine (s : State) (p : ℕ) : (State.endPartReset s p).spine = s.spine := by
  unfold State.endPartReset
  try dsimp only
  (repeat' split) <;> simp

@[simp] theorem State.freeWaiter_spine (s : State) (w : WaitEntry) : (State.freeWaiter s w).spine = s.spine := by
  unfold State.freeWaiter
  try dsimp only
  (repeat' split) <;> simp

@[simp] theorem State.sendHome_spine (s : State) (p : ℕ) : (State.sendHome s p).spine = s.spine := by
  unfold State.sendHome
  try dsimp only
  grind [State.modPart_spine, State.spine_mk, State.spine_foldl]

@[simp] theorem State.settleStreamCloses_spine (s : State) (m : ℕ) : (State.settleStreamCloses s m).spine = s.spine := by
  unfold State.settleStreamCloses
  try dsimp only
  grind [State.mbEnd_spine, State.modPart_spine, State.spine_mk, State.spine_foldl]

@[simp] theorem State.clearTouch_spine (s : State) (g : ℕ) : (State.clearTouch s g).spine = s.spine := by
  unfold State.clearTouch
  try dsimp only
  (repeat' split) <;> simp

@[simp] theorem State.dropBankOps_spine (s : State) (g : ℕ) : (State.dropBankOps s g).spine = s.spine := by
  unfold State.dropBankOps
  try dsimp only
  grind [State.modAtoll_spine, State.escalateAtoll_spine, State.signalAtoll_spine, State.deliverOp_spine, State.spine_mk, State.spine_foldl]

@[simp] theorem State.emptyCaches_spine (s : State) (g : ℕ) : (State.emptyCaches s g).spine = s.spine := by
  unfold State.emptyCaches
  try dsimp only
  (repeat' split) <;> simp

@[simp] theorem State.patrolPass_spine (s : State) (u : Word) (test : ℕ) : (State.patrolPass s u test).spine = s.spine := by
  unfold State.patrolPass
  try dsimp only
  (repeat' split) <;> simp

@[simp] theorem State.suspect_spine (s : State) (u : Word) (full : Bool) (seq : Word) : (State.suspect s u full seq).spine
    = s.spine := by
  unfold State.suspect
  try dsimp only
  (repeat' split) <;> simp

@[simp] theorem State.patrolFail_queue (s : State) (u : Word) (test : ℕ) (word : ℕ) (expected : ℕ) (observed : ℕ) (full : Bool)
    : (State.patrolFail s u test word expected observed full).spine.1 = s.spine.1 := by
  unfold State.patrolFail
  try dsimp only
  (repeat' split) <;> simp

@[simp] theorem State.microtest_queue (s : State) (u : Word) (test : ℕ) (r : PatrolResult) :
    (State.microtest s u test r).spine.1 = s.spine.1 := by
  unfold State.microtest
  try dsimp only
  (repeat' split) <;> simp

@[simp] theorem State.ageingMargin_queue (s : State) (key : ℕ) : (State.ageingMargin s key).spine.1 = s.spine.1 := by
  unfold State.ageingMargin
  try dsimp only
  (repeat' split) <;> simp

@[simp] theorem State.replan_queue (s : State) (key : ℕ) : (State.replan s key).spine.1 = s.spine.1 := by
  unfold State.replan
  try dsimp only
  (repeat' split) <;> simp

@[simp] theorem State.patrolMargin_queue (s : State) (g : ℕ) (raised : PatrolResult) : (State.patrolMargin s g raised).spine.1
    = s.spine.1 := by
  unfold State.patrolMargin
  try dsimp only
  (repeat' split) <;> simp

@[simp] theorem State.startSuite_spine (s : State) (g : ℕ) : (State.startSuite s g).spine = s.spine := by
  rfl

@[simp] theorem State.suiteReturn_spine (s : State) (g : ℕ) : (State.suiteReturn s g).spine = s.spine := by
  unfold State.suiteReturn
  try dsimp only
  (repeat' split) <;> simp

@[simp] theorem State.dropSuite_spine (s : State) (g : ℕ) : (State.dropSuite s g).spine = s.spine := by
  rfl

@[simp] theorem State.movePosition_spine (s : State) (p : ℕ) (pos : ℕ) (h : ℕ) : (State.movePosition s p pos h).spine = s.spine := by
  unfold State.movePosition
  try dsimp only
  (repeat' split) <;> simp

@[simp] theorem State.putPosition_spine (s : State) (p : ℕ) (pos : ℕ) (g : ℕ) : (State.putPosition s p pos g).spine = s.spine := by
  unfold State.putPosition
  try dsimp only
  (repeat' split) <;> simp

@[simp] theorem State.placeRange_spine (s : State) (p : ℕ) (lo : ℕ) (hi : ℕ) : (State.placeRange s p lo hi).spine = s.spine := by
  unfold State.placeRange
  try dsimp only
  grind [State.putPosition_spine, State.remapPart_spine, State.spine_mk, State.spine_foldl]

@[simp] theorem State.removePosition_spine (s : State) (p : ℕ) (pos : ℕ) : (State.removePosition s p pos).spine = s.spine := by
  unfold State.removePosition
  try dsimp only
  (repeat' split) <;> simp

@[simp] theorem State.containAs_queue (s : State) (u : Word) (cls : Half) (seq : Word) (source : BitVec 2) :
    (State.containAs s u cls seq source).spine.1 = s.spine.1 := by
  unfold State.containAs
  try dsimp only
  (repeat' split) <;> simp

@[simp] theorem State.grantHead_spine (s : State) (q : LedgerReq) (step : ℕ) : (State.grantHead s q step).spine = s.spine := by
  unfold State.grantHead
  try dsimp only
  (repeat' split) <;> simp

@[simp] theorem State.throttleDown_spine (s : State) (key : ℕ) : (State.throttleDown s key).spine = s.spine := by
  unfold State.throttleDown
  try dsimp only
  (repeat' split) <;> simp

@[simp] theorem State.throttleUp_spine (s : State) (key : ℕ) : (State.throttleUp s key).spine = s.spine := by
  unfold State.throttleUp
  try dsimp only
  (repeat' split) <;> simp

@[simp] theorem State.epochDiscard_spine (s : State) (g : ℕ) (queue : ℕ) : (State.epochDiscard s g queue).spine = s.spine := by
  unfold State.epochDiscard
  try dsimp only
  (repeat' split) <;> simp

@[simp] theorem State.discardEntry_spine (s : State) (g : ℕ) (queue : ℕ) (e : QEntry) : (State.discardEntry s g queue e).spine
    = s.spine := by
  unfold State.discardEntry
  simp [apply_ite Prod.fst, apply_ite State.spine]

@[simp] theorem State.sendLane_spine (s : State) (g : ℕ) (i : ℕ) (e : QEntry) : (State.sendLane s g i e).spine = s.spine := by
  unfold State.sendLane
  try dsimp only
  (repeat' split) <;> simp

@[simp] theorem State.laneArrival_spine (s : State) (g : ℕ) (i : ℕ) : (State.laneArrival s g i).spine = s.spine := by
  unfold State.laneArrival
  try dsimp only
  (repeat' split) <;> simp

@[simp] theorem State.ownArrival_spine (s : State) (g : ℕ) : (State.ownArrival s g).spine = s.spine := by
  unfold State.ownArrival
  try dsimp only
  (repeat' split) <;> simp

@[simp] theorem State.seqError_spine (s : State) (g : ℕ) (u : ℕ) (code : ℕ) : (State.seqError s g u code).spine = s.spine := by
  unfold State.seqError
  try dsimp only
  (repeat' split) <;> simp

@[simp] theorem State.mailboxWrite_spine (s : State) (m : ℕ) (off : ℕ) (h : RegHalf) (v : DWord) :
    (State.mailboxWrite s m off h v).spine = s.spine := by
  unfold State.mailboxWrite
  try dsimp only
  (repeat' split) <;> simp

@[simp] theorem State.bar0Write_spine (s : State) (off : ℕ) (h : RegHalf) (v : DWord) : (State.bar0Write s off h v).spine
    = s.spine := by
  unfold State.bar0Write
  try dsimp only
  (repeat' split) <;> simp

@[simp] theorem State.abandonOps_spine (s : State) (g : ℕ) (te : ℕ → OpSource → Bool) (ve : ℕ → OpSource → Bool) (be
    : OpSource → Bool) : (State.abandonOps s g te ve be).spine = s.spine := by
  unfold State.abandonOps
  try dsimp only
  grind [State.modAtoll_spine, State.deliverOp_spine, State.releaseAround_spine, State.signalAtoll_spine, State.spine_mk, State.spine_foldl]

@[simp] theorem State.markClear_spine (s : State) (us : List Word) : (State.markClear s us).spine = s.spine := by
  rfl

@[simp] theorem State.clearPhase_spine (s : State) (u : Word) : (State.clearPhase s u).spine = s.spine := by
  rfl

@[simp] theorem State.flushInputs_spine (s : State) (g : ℕ) (u : ℕ) : (State.flushInputs s g u).spine = s.spine := by
  rfl

@[simp] theorem State.stopSeq_spine (s : State) (g : ℕ) (u : ℕ) : (State.stopSeq s g u).spine = s.spine := by
  rfl

@[simp] theorem State.resetUnit_spine (s : State) (g : ℕ) (kind : ℕ) (index : ℕ) : (State.resetUnit s g kind index).spine
    = s.spine := by
  unfold State.resetUnit
  try dsimp only
  (repeat' split) <;> simp

@[simp] theorem State.settlePartReset_spine (s : State) (p : ℕ) : (State.settlePartReset s p).spine = s.spine := by
  unfold State.settlePartReset
  try dsimp only
  (repeat' split) <;> simp

@[simp] theorem State.abortAtolls_spine (s : State) (gs : List ℕ) : (State.abortAtolls s gs).spine = s.spine := by
  unfold State.abortAtolls
  simp [apply_ite Prod.fst, apply_ite State.spine]

@[simp] theorem State.abortPart_spine (s : State) (p : ℕ) : (State.abortPart s p).spine = s.spine := by
  unfold State.abortPart
  try dsimp only
  (repeat' split) <;> simp

@[simp] theorem State.takeSpares_spine (s : State) (p : ℕ) (rep : List ℕ) (seq : Word) : (State.takeSpares s p rep seq).1.spine
    = s.spine := by
  unfold State.takeSpares
  try dsimp only
  (repeat' split) <;> simp

@[simp] theorem State.beginOutside_spine (s : State) (p : ℕ) (x2 : Part) (c : Trigger) : (State.beginOutside s p x2 c).spine
    = s.spine := by
  unfold State.beginOutside
  try dsimp only
  (repeat' split) <;> simp

@[simp] theorem State.beginRollback_spine (s : State) (p : ℕ) (x2 : Part) (c : Trigger) : (State.beginRollback s p x2 c).spine
    = s.spine := by
  unfold State.beginRollback
  try dsimp only
  (repeat' split) <;> simp

@[simp] theorem State.poisonDark_spine (s : State) (g : ℕ) (h : ℕ) : (State.poisonDark s g h).spine = s.spine := by
  unfold State.poisonDark
  try dsimp only
  (repeat' split) <;> simp

theorem State.replacePosition_spine (x0 : State) (x1 : ℕ) (x2 : ℕ) (x3 : Option ℕ) {t : State} (h
    : State.replacePosition x0 x1 x2 x3 = some t) : t.spine = x0.spine := by
  unfold State.replacePosition at h
  (repeat' split at h) <;> simp_all <;> subst h <;> simp

@[simp] theorem State.replaceAll_spine (x0 : State) (x1 : ℕ) (x2 : Rollback) : (State.replaceAll x0 x1 x2).1.spine = x0.spine := by
  unfold State.replaceAll
  refine State.spine_foldl_fst _ _ _ _ (fun t b x => ?_)
  dsimp only
  (repeat' split) <;> try rfl
  exact State.replacePosition_spine _ _ _ _ ‹_›

@[simp] theorem State.sendEpochs_spine (s : State) (g : ℕ) (new : BitVec 4) : (State.sendEpochs s g new).spine = s.spine := by
  unfold State.sendEpochs
  simp [apply_ite Prod.fst, apply_ite State.spine]

@[simp] theorem State.descDecode_spine (s : State) (g : ℕ) (entry : BitVec 128) (bad : ℕ) :
    (State.descDecode s g entry bad).spine = s.spine := by
  unfold State.descDecode
  try dsimp only
  (repeat' split) <;> simp

@[simp] theorem State.armAtoll_spine (s : State) (g : ℕ) (o : ℕ) (v : Word) : (State.armAtoll s g o v).spine = s.spine := by
  unfold State.armAtoll
  simp

@[simp] theorem State.installDesc_spine (s : State) (g : ℕ) (d : Desc) (number : ℕ) (record : BitVec 14) (held : Bool) :
    (State.installDesc s g d number record held).spine = s.spine := by
  unfold State.installDesc
  simp [apply_ite Prod.fst, apply_ite State.spine]

@[simp] theorem State.loadDesc_spine (s : State) (g : ℕ) (entry : BitVec 128) (number : ℕ) (record : BitVec 14) (epoch
    : BitVec 4) (held : Bool) (bad : Option ℕ) : (State.loadDesc s g entry number record epoch held bad).1.spine = s.spine := by
  unfold State.loadDesc
  try dsimp only
  (repeat' split) <;> simp

@[simp] theorem State.reinstall_spine (s : State) (p : ℕ) (q : ℕ) (descs : Tbl (ℕ × ℕ)) (e : BitVec 4) :
    (State.reinstall s p q descs e).spine = s.spine := by
  unfold State.reinstall
  try dsimp only
  (repeat' split) <;> simp

@[simp] theorem State.finishOutside_spine (s : State) (p : ℕ) (x2 : Part) (r : Rollback) : (State.finishOutside s p x2 r).spine
    = s.spine := by
  unfold State.finishOutside
  try dsimp only
  grind [State.replaceAll_spine, State.reinstall_spine, State.modAtoll_spine, State.modPart_spine, State.spine_mk, State.spine_foldl]

@[simp] theorem State.restoreChannels_spine (s : State) (p : ℕ) (q : ℕ) (st : StepStart) :
    (State.restoreChannels s p q st).spine = s.spine := by
  unfold State.restoreChannels
  try dsimp only
  (repeat' split) <;> simp

@[simp] theorem State.settleAll_spine (s : State) (p : ℕ) (x2 : Part) : (State.settleAll s p x2).spine = s.spine := by
  unfold State.settleAll
  simp [apply_ite Prod.fst, apply_ite State.spine]

@[simp] theorem State.restoreObjects_spine (s : State) (p : ℕ) (x2 : Part) (st : StepStart) :
    (State.restoreObjects s p x2 st).spine = s.spine := by
  unfold State.restoreObjects
  try dsimp only
  (repeat' split) <;> simp

@[simp] theorem State.stopReplay_spine (s : State) (p : ℕ) (status : ℕ) (c : Trigger) : (State.stopReplay s p status c).spine
    = s.spine := by
  unfold State.stopReplay
  try dsimp only
  (repeat' split) <;> simp

@[simp] theorem State.finishRollback_spine (s : State) (p : ℕ) (x2 : Part) (r : Rollback) (e : BitVec 4) :
    (State.finishRollback s p x2 r e).spine = s.spine := by
  unfold State.finishRollback
  try dsimp only
  (repeat' split) <;> simp

@[simp] theorem State.joinRollback_spine (s : State) (p : ℕ) (x2 : Part) (r : Rollback) : (State.joinRollback s p x2 r).spine
    = s.spine := by
  unfold State.joinRollback
  try dsimp only
  (repeat' split) <;> simp

@[simp] theorem State.seqGo_spine (s : State) (g : ℕ) (u : ℕ) (pc : ℕ) : (State.seqGo s g u pc).spine = s.spine := by
  unfold State.seqGo
  simp [apply_ite Prod.fst, apply_ite State.spine]

@[simp] theorem State.seqNext_spine (s : State) (g : ℕ) (u : ℕ) : (State.seqNext s g u).spine = s.spine := by
  unfold State.seqNext
  simp

theorem State.issueTile_spine (x0 : State) (x1 : ℕ) (x2 : ℕ) (x3 : BitVec 512) (x4 : OpSource) {t : State} (h
    : State.issueTile x0 x1 x2 x3 x4 = some t) : t.spine = x0.spine := by
  unfold State.issueTile at h
  dsimp only at h
  (repeat' split at h) <;> simp_all <;> subst h <;> simp

@[simp] theorem State.issueVec_spine (s : State) (g : ℕ) (v : ℕ) (o : VecOp) : (State.issueVec s g v o).spine = s.spine := by
  unfold State.issueVec
  try dsimp only
  (repeat' split) <;> simp

theorem State.seqIssue_spine (x0 : State) (x1 : ℕ) (x2 : ℕ) (x3 : DWord) {t : State} (h : State.seqIssue x0 x1 x2 x3 = some t)
    : t.spine = x0.spine := by
  unfold State.seqIssue at h
  dsimp only at h
  split at h
  · cases h; simp
  split at h
  · exact (State.issueTile_spine _ _ _ _ _ h).trans (by simp)
  · cases h; simp

@[simp] theorem State.seqTake_spine (s : State) (g : ℕ) (u : ℕ) (p : ℕ) : (State.seqTake s g u p).spine = s.spine := by
  unfold State.seqTake
  try dsimp only
  (repeat' split) <;> simp

@[simp] theorem State.seqEmit_spine (s : State) (g : ℕ) (u : ℕ) (e : DWord) : (State.seqEmit s g u e).spine = s.spine := by
  unfold State.seqEmit
  try dsimp only
  (repeat' split) <;> simp

@[simp] theorem State.seqAct_spine (s : State) (g : ℕ) (u : ℕ) (e : DWord) : (State.seqAct s g u e).spine = s.spine := by
  unfold State.seqAct
  try dsimp only
  grind [State.seqNext_spine, State.seqIssue_spine, State.modAtoll_spine, State.seqGo_spine, State.seqError_spine, State.seqTake_spine, State.seqEmit_spine, State.signalAtoll_spine, State.spine_mk, State.spine_foldl]

@[simp] theorem State.seqMismatch_spine (s : State) (g : ℕ) (u : ℕ) (point : ℕ) (v0 : DWord) (v1 : DWord) :
    (State.seqMismatch s g u point v0 v1).spine = s.spine := by
  unfold State.seqMismatch
  try dsimp only
  (repeat' split) <;> simp

@[simp] theorem State.seqRow_spine (s : State) (g : ℕ) (u : ℕ) (code : ℕ) (chk : CompareOutcome) :
    (State.seqRow s g u code chk).spine = s.spine := by
  unfold State.seqRow
  try dsimp only
  (repeat' split) <;> simp

@[simp] theorem State.withFetchWord_spine (s : State) (nbits : ℕ) (w : ℕ) : (State.withFetchWord s nbits w).spine = s.spine := by
  rfl

@[simp] theorem State.settleBarriers_spine (s : State) (p : ℕ) (st : ℕ) : (State.settleBarriers s p st).spine = s.spine := by
  unfold State.settleBarriers
  try dsimp only
  (repeat' split) <;> simp

@[simp] theorem State.takeCmd_spine (s : State) (p : ℕ) (st : ℕ) (c : SCmd) : (State.takeCmd s p st c).spine = s.spine := by
  unfold State.takeCmd
  try dsimp only
  (repeat' split) <;> simp

@[simp] theorem State.barrier_spine (s : State) (p : ℕ) (st : ℕ) (x3 : Part) (c : SCmd) : (State.barrier s p st x3 c).spine
    = s.spine := by
  unfold State.barrier
  try dsimp only
  (repeat' split) <;> simp

@[simp] theorem State.failCmd_spine (s : State) (p : ℕ) (st : ℕ) (c : SCmd) (status : ℕ) (off : ℕ) (cause : ℕ) (word : DWord) :
    (State.failCmd s p st c status off cause word).spine = s.spine := by
  unfold State.failCmd
  try dsimp only
  (repeat' split) <;> simp

@[simp] theorem State.doneCmd_spine (s : State) (p : ℕ) (st : ℕ) (c : SCmd) (v : Verdict) : (State.doneCmd s p st c v).spine
    = s.spine := by
  unfold State.doneCmd
  try dsimp only
  (repeat' split) <;> simp

@[simp] theorem State.beginStep_spine (s : State) (p : ℕ) (st : ℕ) (x3 : Part) (c : SCmd) : (State.beginStep s p st x3 c).spine
    = s.spine := by
  unfold State.beginStep
  try dsimp only
  (repeat' split) <;> simp

@[simp] theorem State.putReconf_spine (s : State) (p : ℕ) (st : ℕ) (c : SCmd) (flush : Bool) (barrier : Bool) (record : ℕ)
    (pairs : List (ℕ × ℕ)) : (State.putReconf s p st c flush barrier record pairs).spine = s.spine := by
  unfold State.putReconf
  try dsimp only
  (repeat' split) <;> simp

@[simp] theorem State.catalogueSwitch_spine (s : State) (p : ℕ) (st : ℕ) (x3 : Part) (c : SCmd) :
    (State.catalogueSwitch s p st x3 c).spine = s.spine := by
  unfold State.catalogueSwitch
  try dsimp only
  (repeat' split) <;> simp

@[simp] theorem State.collFails_spine (s : State) (p : ℕ) (st : ℕ) (c : SCmd) (status : ℕ) (offset : ℕ) (ticket : ℕ) :
    (State.collFails s p st c status offset ticket).spine = s.spine := by
  unfold State.collFails
  try dsimp only
  (repeat' split) <;> simp

@[simp] theorem State.collective_spine (x0 : State) (x1 x2 : Nat) (x3 : Part) (x4 : SCmd) :
    (x0.collective x1 x2 x3 x4).spine = x0.spine := by
  unfold State.collective
  extract_lets a t0
  split
  · rw [State.collFails_spine]
  refine State.biThen_spine _ _ _ _ (fun t => State.collFails_spine _ _ _ _ _ _ _) ?_
  split
  rename_i s1 e bs' bs h
  have h1 : s1.spine = x0.spine := by rw [← x0.readMem_spine (some x1) a 128, h]
  split
  · rw [State.collFails_spine, h1]
  extract_lets img d prof alone n key
  split
  · rw [State.collFails_spine, h1]
  split
  · rw [State.collFails_spine, h1]
  split
  · rw [State.collFails_spine, h1]
  split
  rename_i s2 e2 b2 ml h
  have h2 : s2.spine = x0.spine := by
    rw [← h1]
    split at h
    · cases h; rfl
    · rw [← s1.readMem_spine (some x1) d.maddr (2 * n), h]
  split
  · rw [State.collFails_spine, h2]
  extract_lets ms
  split
  · rw [State.collFails_spine, h2]
  split
  rename_i s3 e3 b3 hd h
  have h3 : s3.spine = x0.spine := by
    rw [← h2]
    split at h
    · rw [← s2.readMem_spine (some x1) d.state 64, h]
    · cases h; rfl
  split
  · rw [State.collFails_spine, h3]
  split
  · rw [State.collFails_spine, h3]
  extract_lets t4 s4 cs
  have ht : t4.spine = x0.spine := by unfold t4; rw [State.modColl_spine, State.takeCmd_spine, h3]
  have hs : s4.spine = x0.spine := by
    unfold s4
    rw [State.spine_foldl _ _ _ (fun t x => by simp), State.takeCmd_spine, h3]
  split
  · split
    · rw [State.completeCmd_spine, ht]
    · exact ht
  · rw [State.spine_mk, State.spine_eta, hs]

@[simp] theorem State.commitStep_spine (s : State) (p : ℕ) (st : ℕ) (x3 : Part) (c : SCmd) :
    (State.commitStep s p st x3 c).spine = s.spine := by
  unfold State.commitStep
  try dsimp only
  (repeat' split) <;> simp

@[simp] theorem State.reconfigure_spine (s : State) (p : ℕ) (st : ℕ) (x3 : Part) (c : SCmd) :
    (State.reconfigure s p st x3 c).spine = s.spine := by
  unfold State.reconfigure
  try dsimp only
  (repeat' split) <;> simp

@[simp] theorem State.pumpBatch_spine (x0 : ℕ) (x1 : State) (x2 : ℕ) (x3 : ℕ) (x4 : ℕ) : (State.pumpBatch x0 x1 x2 x3 x4).spine
    = x1.spine := by
  induction x0 generalizing x1 with
  | zero => rfl
  | succ k ih =>
    unfold State.pumpBatch
    dsimp only
    (repeat' split) <;> simp_all
    rename_i h
    rw [State.issueTile_spine _ _ _ _ _ h, State.modPart_spine]

@[simp] theorem State.pumpBatches_spine (s : State) (p : ℕ) (st : ℕ) : (State.pumpBatches s p st).spine = s.spine := by
  unfold State.pumpBatches
  try dsimp only
  grind [State.pumpBatch_spine, State.spine_mk, State.spine_foldl]

@[simp] theorem State.tileBatch_spine (s : State) (p : ℕ) (st : ℕ) (x3 : Part) (c : SCmd) : (State.tileBatch s p st x3 c).spine
    = s.spine := by
  unfold State.tileBatch
  simp [apply_ite Prod.fst, apply_ite State.spine]

@[simp] theorem State.armMod_spine (s : State) (o : ℕ) (v : Word) : (State.armMod s o v).spine = s.spine := by
  unfold State.armMod
  try dsimp only
  (repeat' split) <;> simp

@[simp] theorem State.syncFails_spine (s : State) (p : ℕ) (st : ℕ) (c : SCmd) (n : ℕ) (status : ℕ) :
    (State.syncFails s p st c n status).spine = s.spine := by
  unfold State.syncFails
  try dsimp only
  (repeat' split) <;> simp

@[simp] theorem State.streamSync_spine (s : State) (p : ℕ) (st : ℕ) (x3 : Part) (c : SCmd) :
    (State.streamSync s p st x3 c).spine = s.spine := by
  unfold State.streamSync
  try dsimp only
  (repeat' split) <;> simp

@[simp] theorem State.updateParam_spine (s : State) (p : ℕ) (st : ℕ) (c : SCmd) : (State.updateParam s p st c).spine = s.spine := by
  unfold State.updateParam
  try dsimp only
  (repeat' split) <;> simp

@[simp] theorem State.writeRecord_spine (s : State) (p st : Nat) (c : SCmd) (data : List Byte) (after : State → State)
    (ha : ∀ t, (after t).spine = t.spine) : (s.writeRecord p st c data after).spine = s.spine := by
  unfold State.writeRecord
  extract_lets ticket a
  split
  · split
    · rw [State.doneCmd_spine, ha]
      exact State.hostPut_spine _ _ _ ‹_›
    · simp
  · refine State.biThen_spine _ _ _ _ (fun t => by simp) ?_
    dsimp only
    split <;> simp [ha]

@[simp] theorem State.fenceQuery_spine (s : State) (p : ℕ) (st : ℕ) (x3 : Part) (c : SCmd) :
    (State.fenceQuery s p st x3 c).spine = s.spine := by
  unfold State.fenceQuery
  try dsimp only
  (repeat' split) <;> simp

@[simp] theorem State.marker_spine (s : State) (p : ℕ) (st : ℕ) (x3 : Part) (c : SCmd) : (State.marker s p st x3 c).spine
    = s.spine := by
  unfold State.marker
  try dsimp only
  (repeat' split) <;> simp

@[simp] theorem State.memoryCmd_spine (s : State) (p : ℕ) (st : ℕ) (x3 : Part) (c : SCmd) : (State.memoryCmd s p st x3 c).spine
    = s.spine := by
  unfold State.memoryCmd
  try dsimp only
  (repeat' split) <;> simp

@[simp] theorem State.dispatch_spine (s : State) (p : ℕ) (st : ℕ) (x3 : Part) (c : SCmd) : (State.dispatch s p st x3 c).spine
    = s.spine := by
  unfold State.dispatch
  try dsimp only
  (repeat' split) <;> simp

@[simp] theorem State.takeEntry_spine (s : State) (p : ℕ) (st : ℕ) (bs : List Byte) : (State.takeEntry s p st bs).spine
    = s.spine := by
  unfold State.takeEntry
  try dsimp only
  (repeat' split) <;> simp

@[simp] theorem State.fetchEntry_spine (s : State) (p : ℕ) (st : ℕ) (ok : Bool) : (State.fetchEntry s p st ok).spine = s.spine := by
  unfold State.fetchEntry
  try dsimp only
  grind [State.stopStream_spine, State.takeEntry_spine, State.biThen_spine, State.pread_spine, State.badWord_spine, State.spine_mk, State.spine_foldl]

@[simp] theorem State.lateWaits_spine (s : State) (p : ℕ) (st : ℕ) : (State.lateWaits s p st).spine = s.spine := by
  unfold State.lateWaits
  try dsimp only
  (repeat' split) <;> simp

@[simp] theorem State.startCmd_spine (s : State) (p : ℕ) (st : ℕ) (want : SCmd → Bool) : (State.startCmd s p st want).spine
    = s.spine := by
  unfold State.startCmd
  try dsimp only
  (repeat' split) <;> simp

@[simp] theorem State.endReconf_spine (s : State) (r : Reconf) : (State.endReconf s r).spine = s.spine := by
  unfold State.endReconf
  try dsimp only
  (repeat' split) <;> simp

@[simp] theorem State.modReconf_spine (s : State) (id : ℕ) (f : Reconf → Reconf) : (State.modReconf s id f).spine = s.spine := by
  rfl

@[simp] theorem State.tryEnd_spine (s : State) (id : ℕ) : (State.tryEnd s id).spine = s.spine := by
  unfold State.tryEnd
  try dsimp only
  (repeat' split) <;> simp

@[simp] theorem State.writeRuns_spine (s : State) (g : ℕ) (odd : Bool) (outs : List TileOut) :
    (State.writeRuns s g odd outs).spine = s.spine := by
  unfold State.writeRuns
  try dsimp only
  grind [State.lagoonWrite_spine, State.spine_mk, State.spine_foldl]

@[simp] theorem State.finishTile_spine (s : State) (g : ℕ) (e : ℕ) (r : TileRun) : (State.finishTile s g e r).spine = s.spine := by
  unfold State.finishTile
  try dsimp only
  (repeat' split) <;> simp

@[simp] theorem State.tileStart_spine (s : State) (g : ℕ) (op : TileOp) (bad : Option Word) :
    (State.tileStart s g op bad).1.spine = s.spine := by
  unfold State.tileStart
  try dsimp only
  (repeat' split) <;> simp

@[simp] theorem State.dropVec_spine (s : State) (g : ℕ) (v : ℕ) : (State.dropVec s g v).spine = s.spine := by
  rfl

@[simp] theorem State.gatherAll_spine (s : State) (g : ℕ) (v : ℕ) (d : VecDesc) (i0 : ℕ) (n : ℕ) (a : List ℕ) (x7 : VecOp) :
    (State.gatherAll s g v d i0 n a x7).1.spine = s.spine := by
  fun_induction State.gatherAll <;> simp_all

@[simp] theorem State.vecLagoon_spine (x0 : State) (x1 : ℕ) (x2 : Fmt) (x3 : ℕ) (x4 : ℕ) (x5 : ℕ) :
    (State.vecLagoon x0 x1 x2 x3 x4 x5).1.spine = x0.spine := by
  have h := x0.readRun_spine x1 (x3 + rowBit x2 x4 / 8) ((rowBit x2 (x4 + x5 - 1) + x2.bits + 7) / 8 - rowBit x2 x4 / 8)
  unfold State.vecLagoon; dsimp only; split <;> simp_all [RunOut.spines]

@[simp] theorem State.vecSources_spine (x0 : State) (x1 : ℕ) (x2 : VecDesc) (x3 : VecOp) (x4 : ℕ) (x5 : ℕ) (x6 : List ℕ) :
    (State.vecSources x0 x1 x2 x3 x4 x5 x6).1.spine = x0.spine := by
  induction x6 generalizing x0 with
  | nil => rfl
  | cons i is ih => unfold State.vecSources; dsimp only; (repeat' split) <;> simp_all <;> (repeat' split) <;> simp_all

theorem State.vecWrite_spine (x0 : State) (x1 : ℕ) (x2 : VecDesc) (x3 : VecOp) (x4 : ℕ) (x5 : List ℕ) :
    (State.vecWrite x0 x1 x2 x3 x4 x5).spines x0 := by
  unfold State.vecWrite; dsimp only; (repeat' split) <;> simp_all [Written.spines]
  all_goals first
    | exact (State.cacheWrite_spine _ _ _ _).waits ‹_›
    | exact (State.cacheWrite_spine _ _ _ _).ends ‹_›

@[simp] theorem State.vecLine_spine (x0 : State) (x1 x2 : Nat) (x3 : VecOp) : (x0.vecLine x1 x2 x3).spine = x0.spine := by
  unfold State.vecLine
  extract_lets d m srcs
  split
  rename_i i0 n e
  have hg := x0.gatherAll_spine x1 x2 d i0 n srcs x3
  split
  · rename_i e1
    rw [e1] at hg
    exact hg
  · rename_i e1
    rw [e1] at hg
    rw [State.seqError_spine, State.dropVec_spine]
    exact hg
  · rename_i e1
    rw [e1] at hg
    rw [State.modAtoll_spine, State.dropVec_spine]
    exact hg
  rename_i s1 _ o1 e1
  rw [e1] at hg
  have hs := s1.vecSources_spine x1 d o1 i0 n srcs
  generalize s1.vecSources x1 d o1 i0 n srcs = q at hs
  obtain ⟨s2, w, st, encs⟩ := q
  replace hs : s2.spine = x0.spine := hs.trans hg
  split
  rename_i e2
  cases e2
  split
  · exact hs
  split
  · exact (State.modAtoll_spine _ _ _).trans hs
  extract_lets ctr bs vals out
  have hv := s2.vecWrite_spine x1 d o1 o1.done out
  split
  · exact (hv.waits ‹_›).trans hs
  · exact (State.modAtoll_spine _ _ _).trans ((hv.fails ‹_›).trans hs)
  · exact (State.modAtoll_spine _ _ _).trans ((State.freshen_spine _).trans ((hv.done ‹_›).trans hs))

@[simp] theorem State.vecStart_spine (s : State) (g : ℕ) (v : ℕ) (code : ℕ) (bad : Option Word) :
    (State.vecStart s g v code bad).spine = s.spine := by
  unfold State.vecStart
  try dsimp only
  (repeat' split) <;> simp

@[simp] theorem State.vecWatchdog_spine (s : State) (g : ℕ) (v : ℕ) : (State.vecWatchdog s g v).spine = s.spine := by
  unfold State.vecWatchdog
  try dsimp only
  (repeat' split) <;> simp

end Sys2Proof.Machine
end

