-- ==== Sys2Proof/Tests/Slice0.lean ====
section
/-! SUPPORT. Tests of the model: values the spec works out, ill-formed commands that WellFormed refuses, and for every statement with
hypotheses a state and operands that meet them, clause by clause. -/

namespace Sys2Proof.Tests

open Sys2Proof.Machine

set_option Elab.async false

/-! ### Small states -/

/-- A module that is ready, with both hubs usable and nothing else set. -/
def up : State :=
  { State.reset with life := { LifeSt.reset with state := .ready, powered := true, usable := 3, standby := true } }

/-- The ready module with atoll g as given. -/
def upA (g : Nat) (a : Atoll) : State := { up with atolls := [(g, a)] }

/-- An atoll of partition 0. -/
def own (g : Nat) : Atoll := { Atoll.reset g with assigned := true }

/-- Atoll 0 with bay 23 in cache mode over the hub window of lagoon 0, and a line of it being filled. -/
def caching : Atoll :=
  { Atoll.reset 0 with
    bayCache := 0x800000, cacheBase := 0xF200000000,
    cache := [(wayKey 23 0 0, { index := 0, dirty := false, poisoned := false, filling := true, data := [] })] }

/-- Atoll 0 with core 0 running from its private SRAM. -/
def coring (x : Tbl DWord) (m : Mem) : Atoll :=
  { Atoll.reset 0 with cores := [(0, { Core.reset with running := true, x := x, sram := m })] }

/-- A tile operation of a descriptor of zeros from core 0. -/
def tileOp : TileOp := { desc := 0, src := .core 0, seed := 0, origin := 0, replayed := false, spent := 0 }

/-- Its run, started and refused. -/
def tileRun : TileRun := { op := tileOp, status := 0, offset := 0, apexPass := false, cycles := 0 }

/-- Atoll 319 with one bank command, and its outcome. -/
def banking (cmd : BitVec 256) (x : Option (Nat × Nat × Bool)) : State :=
  upA 319 { Atoll.reset 319 with bankOps := [{ cmd := cmd, src := .core 0, outcome := x }] }

/-- A vector operation of one FP32 element of lagoon 0, not started. -/
def vecOp (op : Nat) : VecOp :=
  { desc := BitVec.ofNat 320 (op + 0x1010000), src := .core 0, epoch := 0, seed := 0, buf := [], taken := [], done := 0,
    status := 0, offset := 0, apexPass := false, stop := false, cycles := 0 }

/-- Atoll 0 with vector engine 1 as given. -/
def vecing (q : List VecOp) (c : Option VecOp) : State := upA 0 { Atoll.reset 0 with vecs := [(1, { queue := q, cur := c })] }

/-- A queue entry of epoch 0. -/
def qEnt (token : Bool) (kind : Nat) : QEntry := { data := BitVec.ofNat 256 (kind * 2 ^ 13), token := token, epoch := 0 }

/-- An enabled queue with entries. -/
def qOf (es : List QEntry) (n : Nat) : Queue :=
  { enable := true, closed := false, ents := es, spill := if n = 0 then none else some (0, 0, 1), spHead := 0, spCount := n }

/-- A sequencer that runs a program of one entry. -/
def seqOf (e : DWord) : Sequencer := { Sequencer.reset with prog := [e], state := .running }

/-- A partition with positions on atolls. -/
def part (pos : Tbl Nat) : Part :=
  { jobTag := 7, x0 := 0, y0 := 0, w := 2, h := 1, split := false, staging := 0, dram := [], posAtoll := pos, epoch := 0,
    epochTimes := [], inReset := false, aborting := false, stepOpen := false, replaying := false, step := 0, seed := 0,
    commitStep := 0, start := none, rollbacks := [], replayLimit := 3, firstSymbol := none, stalled := false, seqWatch := false,
    triggers := [], rollback := none, migrations := [], migrateWanted := [], params := [], updSlots := [], installer := [],
    streams := [], runtime := 0 }

/-- Atolls 0 and 1 at positions 0 and 1 of partition 0. -/
def pair (a b : Atoll) (x : Part) : State := { up with atolls := [(0, a), (1, b)], parts := [(0, x)] }

/-- The partition of `pair`. -/
def part2 : Part := part [(0, 0), (1, 1)]

/-- Atoll g of partition 0 with a core 0. -/
def ownC (g : Nat) (k : Core) : Atoll := { own g with cores := [(0, k)] }

/-- A core that runs, with two registers set. -/
def coreXY (x y : DWord) : Core := { Core.reset with running := true, x := [(1, x), (2, y)] }

/-- A send handle to port 15 of core 0 at position 1. -/
def sendH : Handle :=
  { send := true, peerPos := 1, peerCore := 0, peerHandle := 0, port := 15, bulk := false, cap := 1, out := 0, seq := 0,
    connecting := false, closing := false, dead := false, since := 0 }

/-- A published small ring of 256 slots, with messages. -/
def ring (kind queue : Nat) (ms : List PortMsg) : ChPort :=
  { sizeM1 := 255, base := 0, handler := 0, queue := queue, kind := kind, publish := true, error := 0, msgs := ms, wr := 0 }

/-- A core that runs, with a ring at port 15. -/
def ringCore (p : ChPort) : Core := { Core.reset with running := true, sel := 15, ports := [(15, p)] }

/-- A message. -/
def msg : PortMsg := { chan := 0, seq := 0, at_ := 0, words := 1, recLen := 0, bodyLen := 0 }

/-- A core 0 of atoll 0 that sends to atoll 1 through handle 63. -/
def sending (y : DWord) (b : CoreBlock) : State :=
  pair (ownC 0 { coreXY 63 y with handles := [(63, sendH)], block := b }) (ownC 1 (ringCore (ring 0 0 []))) part2

/-- A reconfiguration of position 0 of partition p. -/
def rec_ (p : Nat) : Reconf :=
  { id := 0, part := p, stream := 0, idx := 0, flush := false, barrier := false, record := 0, pairs := [(0, 0, 0)], epoch := none,
    quiescent := [], answers := [], checking := false, go := false, ends := [], readyList := [] }

/-- Its part in the atoll. -/
def arec : AtollReconf :=
  { cmd := 0, flush := false, epoch := 1, entry := 0, number := 0, record := 0, barrier := false, reported := false, flag := false,
    stopped := false, timedOut := false, arrived := 0 }

/-- Atoll 0 of partition 31 in a reconfiguration. -/
def reconfing (a : Option AtollReconf) (t : TessState) (r : Reconf) : State :=
  { up with
    atolls := [(0, { own 0 with partition := 31, reconf := a, tess := t })], parts := [(31, part [(0, 0)])], reconfs := [r] }

/-- A COPY of 32 bytes by the DMA port of atoll 0. -/
def copyCmd : MemCmd := { img := 1, src := .port 0, part := 0, seed := 0, order := 0 }

/-- Stream unit 3 of shoal 15. -/
def unit3 (q : List MemCmd) (c : Option MemRun) : State :=
  { up with mem := { MemSt.reset with shoals := [(15, { Shoal.reset with units := [(3, { queue := q, cur := c })] })] } }

/-- A run of it that has ended well. -/
def copyRun : MemRun :=
  { cmd := copyCmd, status := 0, offset := 0, bytesDone := 32, apexLow := false, unacked := 0, writes := [], addr := none }

/-- Core 0 of atoll 0 at an instruction, with two registers set. -/
def atInstr (i : Nat) (x y : DWord) : State := upA 0 (coring [(1, x), (2, y)] (Mem.writeBytes [] 0 (leBytes 4 i)))

/-- Link 95 as given. -/
def lnk (f : FLink) : State := { up with fab := { FabSt.reset with links := [(95, f)] } }

/-- A trained link to module 6. -/
def link2 : FLink :=
  { FLink.reset with state := 2, peerModule := 6, peerFwd := true, peerIdValid := true, peerFormat := some false }

/-- A packet of one 64-byte unit to module m. -/
def pkt (m : Nat) : FPkt :=
  { word := routeWord 1 1 false m 0 0 0 0, data := leBytes 8 (msgHeader 0 16 0 false false none) ++ List.replicate 16 0 }

/-- A packet at a link output. -/
def outPkt (mcast : Bool) : OutPkt :=
  { src := none, pkt := pkt 6, out := { pkt 6 with word := routeWord 1 1 mcast 6 0 0 0 0 } }

/-- Module 5, with strait die 5, link 95 and messages of its own. -/
def modl (d : Strait) (f : FLink) (m : List TxMsg) : State :=
  { up with
    life := { up.life with moduleId := some 5 },
    fab := { FabSt.reset with straits := [(5, d)], links := [(95, f)], unacked := m, routes := [(6, 0x80 + 95)] } }

/-- A message taken from the fabric. -/
def fmsg (kind : Nat) (pay : List Byte) : FMsg :=
  { src := 11, srcEnd := 0, dend := 0, vc := 1, kind := kind, seq := 0, mcast := false, copy := false, group := 0, payload := pay }

/-- A signal sent to module 11. -/
def txm : TxMsg :=
  { mcast := false, copy := none, dest := 11, vc := 1, kind := 1, srcEnd := 5, dend := 0, seq := 0, sync := true, payload := [],
    owner := .signal, tries := 0, targets := [], acked := [], ticket := 0 }

/-- The payload of a remote write of 128 bytes that ends with window 1023. -/
def remotePay : List Byte :=
  leBytes 8 1023 ++ leBytes 4 1 ++ leBytes 4 7 ++ leBytes 8 3968 ++ leBytes 8 0 ++ List.replicate 128 1

/-- DRAM of one channel, 2 MiB in partition 0, with window 1023 open on 4096 bytes of it. -/
def remoteSt (open_ : Bool) : State :=
  { up with
    parts := [(0, { part2 with dram := [(0, 1)] })],
    fab := { FabSt.reset with straits := [(5, { Strait.reset with remoteIn := [fmsg 0 remotePay] })] },
    mem := { MemSt.reset with
      map := { chans := [127], inter := 2097152, local_ := 0, spare := 0, size := 2097152 },
      windows := [(1023, { Window.reset with open_ := open_, generation := 1, size := 4096, jobTag := 7 })] } }

theorem remote_place (i : Nat) (h : i < 2) :
    (remoteSt true).place (some 0) (3968 + i * 128) true = .ok (.dram (3968 + i * 128)) := by
  have : i = 0 ∨ i = 1 := by omega
  rcases this with rfl | rfl <;> decide +kernel

/-- A mesh packet. -/
def mpkt (input dst : Nat) : MPkt := { src := 0, dst := dst, vc := 0, upper := false, input := input, since := 0, payload := [7] }

/-- The mesh of isle d with power, and packets at a router. -/
def mesh (d r : Nat) (ps : List MPkt) : State :=
  { up with power := { PowerSt.reset with state := [(d * 16 + 12, .on)] }, net := { NetSt.reset with routers := [(r, ps)] } }

/-- A mailbox command with an opcode, a header partition and payload fields at byte offsets. -/
def mb (op p : Nat) (fs : List (Nat × Nat)) : MbCmd :=
  { slot := 7, img := BitVec.ofNat 2048 (op + p * 2 ^ 48 + (fs.map fun e => e.2 * 256 ^ e.1).sum), order := 3, accepted := false,
    discard := false, word := 0 }

/-- A ready module with one command started in mailbox m. -/
def mbx (m : Nat) (c : MbCmd) (s : State := up) : State := { s with mailboxes := [(m, { Mailbox.reset with started := [c] })] }

/-- DRAM of channels 126 and 127, one page each and one spare page each. -/
def dram2 : DramMap := { chans := [126, 127], inter := 4096, local_ := 0, spare := 4096, size := 8192 }

/-- The ready module with memory as given. -/
def memSt (m : MemSt) : State := { up with mem := m }

/-- Channel 127 retiring. -/
def retiring (left : Nat) : Retire := { chan := 127, moved := 0, pagesLeft := left, cls := 0, seq := 0, source := 0 }

/-- Shoal 15 with bank 15 in a state. -/
def bank15 (b : BankState) : MemSt := { MemSt.reset with shoals := [(15, { Shoal.reset with banks := [(15, b)] })] }

/-- A collective of two members, of rank 1, over two FP32 blocks of partition 0's DRAM. -/
def cimg (op : Nat) : BitVec 1024 :=
  BitVec.ofNat 1024 (op + 0x10000 + 2 ^ 32 + 2 ^ 48 + 0xFFFF * 2 ^ 64 + 2 ^ 128 + 0x1000 * 2 ^ 256 + 0x8000 * 2 ^ 448 + 1 * 2 ^ 608)

/-- Its key. -/
def ckey : CollKey := { jobTag := 7, collId := 0xFFFF, step := 1 }

/-- It with all its work done. -/
def coll (op : Nat) : Coll :=
  { key := ckey, part := 0, st := 0, idx := 0, img := cimg op, members := [5, 11], running := true, window := 4, asked := [(0, 1), (1, 1)],
    doneAt := [], given := [(0, [0])], accs := [], written := [0], joined := [], sentTo := [0], arrived := [(0, [0])], tiles := [0],
    skew := false, low := false, nonfinite := false, seed := 0, finished := none }

/-- A module that has accepted a collective, with a message for it at strait die 5. -/
def colls (cs : List Coll) (ms : List FMsg) : State :=
  { remoteSt false with
    life := { up.life with moduleId := some 5 }, coll := { list := cs },
    fab := { FabSt.reset with straits := [(5, { Strait.reset with collIn := ms })] } }

/-- A collective message to or from rank 1. -/
def cmsg (kind owner ctrl blocks : Nat) (data : List Byte) : FMsg :=
  fmsg kind (leBytes 24 (0xFFFF + owner * 2 ^ 16 + ctrl * 2 ^ 48 + 1 * 2 ^ 56 + blocks * 2 ^ 104 + 7 * 2 ^ 128 + 1 * 2 ^ 160) ++ data)

/-- The ready module with fault state as given. -/
def fltSt (f : FaultSt) : State := { up with flt := f }

/-- An error record. -/
def errRec : ErrRec :=
  { unit := 0, cls := 1, opKind := 0, opCode := 0, count := 0, temp := 0, volt := 0, jobTag := 0, seq := 0, part := none, scope := 0,
    actions := 0, detail := 0, coalesce := 0 }

/-- A fence map entry of atoll 319. -/
def fenceE (source : BitVec 2) : FenceEntry :=
  { unit := siteUnit 319, cls := clsPatrol, source := source, retry := false, boot := 0, recordSeq := 0 }

/-- The ready module with a partition 31 as given, of atoll 0 at position 255. -/
def p31 (f : Part → Part) (a : Atoll) : State :=
  { up with atolls := [(0, { a with partition := 31 })], parts := [(31, f (part [(255, 0)]))] }

/-- Why a step rolls back. -/
def trig : Trigger := { cls := clsPatrol, addr := none, position := none, recordSeq := 0 }

/-- A rollback in progress. -/
def rollb (outside : Bool) : Rollback :=
  { replace := [], spares := [], outside := outside, stop := none, cause := trig, descs := [] }

/-- A crash dump with units to read. -/
def dump (taking : Bool) (us : List Word) : Dump :=
  { cause := 1, complete := false, taking := taking, start := 0, stop := 0, recordSeq := 0, sections := [], toRead := us, unread := !taking }

/-- A host port that is up. -/
def hostOn : HostSt := { HostSt.reset with linkUp := true, perst := false }

/-- A flood. -/
def floodE : Flood := { jobTag := 7, origin := 5, number := 1, boot := 1, reason := 5, originReset := true, step := 0, recordSeq := 0 }

/-- The same collective with rank 0, over one block, so that its shard is empty. -/
def coll0 : Coll := { coll 6 with img := cimg 6 - BitVec.ofNat 1024 (2 ^ 48 + 2 ^ 128), accs := [], tiles := [] }

/-- The module that runs it. -/
def coll0S : State := colls [coll0] []

/-- Its header, read. -/
def coll0H : State × Nat × ShardState := coll0.header coll0S

theorem coll0_live : coll0S.coll? ckey = some coll0 := by decide +kernel

theorem coll0_header : coll0.header coll0S = coll0H := rfl

theorem coll0_headerOk : coll0H.2.1 = stOk := by decide +kernel

theorem coll0_end : (coll0S.endUpdate ckey).coll? ckey = some coll0 := by
  unfold State.endUpdate
  rw [coll0_live]
  simp only [coll0_header, coll0_headerOk]
  decide +kernel

/-- The module after a gathered block has been stored. -/
def gathered : State :=
  ((coll 3).unwire ((colls [coll 3] [cmsg 5 0 0 1 (List.replicate 128 1)]).modStrait 5 fun x => { x with collIn := [] })
    (coll 3).d.fs (coll 3).d.dst (coll 3).d.blocks (coll 3).d.state (((coll 3).d.chunk 0 0).1 + 0)
    (chunks 33 128 ((cmsg 5 0 0 1 (List.replicate 128 1)).payload.drop 24))).1

/-- A module with a dump and a DUMP_READ of its first 64 bytes. -/
def dumping : State :=
  mbx 33 (mb 0x106 0 [(16, 4096), (28, 64)])
    { up with host := hostOn, flt := { FaultSt.reset with dump := some (dump false []) } }

/-- It after these bytes are in host memory. -/
def dumped : State :=
  dumping.modHost fun h => { h with
    mem := Mem.writeBytes h.mem 4096 (((dumping.dumpBytes (dump false [])).drop 0).take 64),
    memPoison := h.memPoison.filter fun l => !(decide (4096 / 64 ≤ l) &&
      decide (l < (4096 + (((dumping.dumpBytes (dump false [])).drop 0).take 64).length + 63) / 64)) }

/-- A ready module with 256 MiB of DRAM on channel 127, all of it given to the host. -/
def hdmSt (h : HostSt) : State :=
  { up with
    host := { h with hdmCommitted := true, hdmSize := 268435456 },
    mem := { MemSt.reset with map := { chans := [127], inter := 268435456, local_ := 0, spare := 0, size := 268435456 } } }

/-- A host port whose snoop filter has no free way for the last line of it. -/
def sfFull : HostSt :=
  { hostOn with sf := (List.range 16).map fun w => (sfSet (268435455 / 64) * 16 + w, (w, false)) }

/-- A stream command with fields at byte offsets. -/
def scm (fs : List (Nat × Nat)) : SCmd :=
  { idx := 5, img := BitVec.ofNat 512 (fs.map fun e => e.2 * 256 ^ e.1).sum, toIssue := [], left := 0, waitsFor := [], since := 0 }

/-- An open stream of a ring in host memory, with waiting and started commands. -/
def opened (ws ss : List SCmd) : Stream :=
  { Stream.reset with open_ := true, ringHost := true, waiting := ws, started := ss.map fun c => { c with idx := 4 } }

/-- A partition with stream 3 as given. -/
def strP (y : Stream) : Part := { part [(255, 0)] with streams := [(3, y)] }

/-- It as partition 31 of a ready module. -/
def strS (y : Stream) : State := p31 (fun _ => strP y) (own 0)

/-- A partition with DRAM and a TILE_BATCH of one tile. -/
def batchP : Part := { strP (opened [scm [(0, 0x84), (3, 255), (8, 64)]] []) with dram := [(0, 1)] }

/-- It as partition 31. -/
def batchS : State :=
  { p31 (fun _ => batchP) (own 0) with
    mem := { MemSt.reset with map := { chans := [127], inter := 2097152, local_ := 0, spare := 0, size := 2097152 } } }

/-- A bring-up in which every test passes. -/
def bu : BringUp :=
  { failingUnits := [], raisedFails := [], failingBanks := [], failingChannels := [], linkLanes := [], hubSecure := 0,
    hubProcessors := 0, hubWatchdogs := 0, strap := 0 }

/-- A module in it. -/
def booting : State := { up with life := { up.life with state := .bringup, tests := some bu } }

/-- The ready module with power state as given. -/
def pwr (p : PowerSt) : State := { up with power := p }

/-- The ready module with firmware state as given. -/
def fwUp (f : FwSt) : State := { up with fw := f }

/-- An activation of the factory image at a step. -/
def act (step : Nat) (todo : List Nat) : Activation :=
  { info := FwInfo.factory, step := step, todo := todo, deferred := [], second := false, updated := 0 }

/-- A hub that runs an image above its floor. -/
def secure : FwHub := { FwHub.reset with running := { FwInfo.factory with security := 1 } }

/-- An SPDM request. -/
def spdm (session : Nat) (a b : Byte) (data : List Byte) : SpdmRequest :=
  { session := session, param1 := a, param2 := b, payload := data, authOk := true }

/-- The ready module with management state as given. -/
def mg (m : MgmtSt) : State := { up with mgmt := m }

/-- A platform event. -/
def pev : PldmEvent := { cls := 0, data := [1], status := false, tries := 0, id := 1 }

/-! ### Ill-formed commands, one for each check of WellFormed -/

/-- A bring-up that names a unit that does not exist, then a bank, a channel and a link out of range. -/
def buBad (u : List (Word × Half)) (r : List Word) (b : List (Nat × Nat)) (c : List Nat) (l : List (Nat × Nat)) : BringUp :=
  { failingUnits := u, raisedFails := r, failingBanks := b, failingChannels := c, linkLanes := l, hubSecure := 0,
    hubProcessors := 0, hubWatchdogs := 0, strap := 0 }

theorem illformed_unitDieKind : unitWf (mkUnit 4 0 0 0 0 0 0x3FF) = false := by decide
theorem illformed_unitDie : unitWf (mkUnit 1 16 0 0 0 0 0x3FF) = false := by decide
theorem illformed_unitSite : unitWf (mkUnit 0 0 0 20 0 0 0x3FF) = false := by decide
theorem illformed_unitHalf : unitWf (mkUnit 1 0 1 0 0 0 0x3FF) = false := by decide
theorem illformed_unitKind : unitWf (mkUnit 1 0 0 0 1 0 0x3FF) = false := by decide
theorem illformed_unitIndex : unitWf (mkUnit 0 0 0 0 1 4 0x3FF) = false := by decide
theorem illformed_unitSub : unitWf (mkUnit 0 0 0 0 5 0 192) = false := by decide
theorem illformed_atollRegister : (Instr.registerWrite (.atoll 0 6) 0).wf = false := by decide
theorem illformed_csr : (Instr.registerWrite (.csr 0 0 4096) 0).wf = false := by decide
theorem illformed_shoalRegister : (Instr.registerWrite (.shoal 0 1) 0).wf = false := by decide
theorem illformed_isleRegister : (Instr.registerWrite (.isle 0 2) 0).wf = false := by decide
theorem illformed_straitRegister : (Instr.registerWrite (.strait 0 3) 0).wf = false := by decide
theorem illformed_collectorRegister : (Instr.registerWrite (.collector 0 1) 0).wf = false := by decide
theorem illformed_bar0 : (Instr.registerWrite (.bar0 4 .full) 0).wf = false := by decide
theorem illformed_lagoonLoad : (Instr.lagoonLoad 0 .bank 0 129 false .clean).wf = false := by decide
theorem illformed_lagoonStore : (Instr.lagoonStore 0 .bank 0 0 []).wf = false := by decide
theorem illformed_neighbourSelf : (Instr.neighbourRequest 3 3 0 (.read 1) .clean).wf = false := by decide
theorem illformed_neighbourRead : (Instr.neighbourRequest 3 4 0 (.read 129) .clean).wf = false := by decide
theorem illformed_neighbourWrite : (Instr.neighbourRequest 3 4 0 (.write 0 []) .clean).wf = false := by decide
theorem illformed_cacheFill : (Instr.cacheFill 0 2097152 .clean).wf = false := by decide
theorem illformed_cacheDramTimeout : (Instr.cacheDramTimeout 0 2097152).wf = false := by decide
theorem illformed_dramScrub : (Instr.dramScrub 0 134217728 .clean).wf = false := by decide
theorem illformed_lagoonScrub : (Instr.lagoonScrub (.lagoon 0 786432) .clean).wf = false := by decide
theorem illformed_scrubForcedCycle : (Instr.scrubForcedCycle (.staging 0 2097152) .clean).wf = false := by decide
theorem illformed_retirementPageMove : (Instr.retirementPageMove [64] false).wf = false := by decide
theorem illformed_meshPacket : (Instr.meshPacket 0 0 0 (.inject 0 0 0 (List.replicate 4097 0))).wf = false := by
  decide +kernel
theorem illformed_linkRetrain : (Instr.linkRetrain (.causeway 5 5)).wf = false := by decide
theorem illformed_linkRetrainDone : (Instr.linkRetrainDone (.causeway 5 5) true).wf = false := by decide
theorem illformed_causewayMessage : (Instr.causewayMessage 0 0 [] true).wf = false := by decide
theorem illformed_codewordControl : (Instr.codewordReceive 0 { ctrl := 0x100000, body := [], fec := .good 0 }).wf = false := by decide
theorem illformed_codewordBody : (Instr.codewordReceive 0 { ctrl := 0, body := [0], fec := .good 0 }).wf = false := by decide
theorem illformed_telemetry : (Instr.telemetrySample 0 0 { words := [0, 0, 0, 0, 0] }).wf = false := by decide
theorem illformed_microtestUnit : (Instr.gapPatrolMicrotest 0xFFFFFFFF 0 .pass).wf = false := by decide
theorem illformed_microtestResult : (Instr.gapPatrolMicrotest (siteUnit 0) 0 (.fail 0xFFFFFFFF 0 0 0 0)).wf = false := by decide
theorem illformed_forcedSlot : (Instr.gapPatrolForcedSlot 0xFFFFFFFF 0 .pass).wf = false := by decide
theorem illformed_fullPatrolComplete : (Instr.fullPatrolComplete 0 .pass (.fail 0xFFFFFFFF 0 0 0 0)).wf = false := by decide
theorem illformed_blockWatchdog : (Instr.blockWatchdog 0xFFFFFFFF).wf = false := by decide
theorem illformed_diagRun : (Instr.diagRun 0 (some 0xFFFFFFFF)).wf = false := by decide
theorem illformed_moduleReset : (Instr.moduleReset (buBad [(0xFFFFFFFF, 0)] [] [] [] [])).wf = false := by decide
theorem illformed_powerOn : (Instr.powerOn (buBad [] [0xFFFFFFFF] [] [] [])).wf = false := by decide
theorem illformed_modResetNRise : (Instr.modResetNRise (buBad [] [] [(16, 0)] [] [])).wf = false := by decide
theorem illformed_channel : (Instr.powerOn (buBad [] [] [] [128] [])).wf = false := by decide
theorem illformed_link : (Instr.powerOn (buBad [] [] [] [] [(96, 0)])).wf = false := by decide
theorem illformed_hostMemRead : (Instr.hostMemRead 32 .uncached .clean).wf = false := by decide
theorem illformed_hostMemWrite : (Instr.hostMemWrite 64 [0]).wf = false := by decide
theorem illformed_hostLinkTraining : (Instr.hostLinkTraining .gt64 17).wf = false := by decide
theorem illformed_hdmDecoderCommit : (Instr.hdmDecoderCommit true 4096 0 1 256).wf = false := by decide

/-! ### Values that the spec works out -/

/-- Table 0-9: matrix engine 2 of the atoll at isle die 5, half B, row 2, column 3, and the same engine at half A. -/
theorem test_unit_id : engineUnit 233 2 = 0x05B44BFF ∧ engineUnit 213 2 = 0x05344BFF := by decide

/-- 15, worked example: phase 4 of region 9 of isle die 5. -/
theorem test_phase_unit_id : mkUnit 0 5 0 0 14 4 9 = 0x05039009 := by decide

/-- 06, one address through the map: channel 113 at channel-local address 0x2468A890. -/
theorem test_dram_map :
    ({ chans := List.range 128, inter := 17179869184, local_ := 0, spare := 0, size := 2199023255552 } : DramMap).locate 0x1234567890 =
      (113, 0x2468A890) := by decide +kernel

/-- 11, worked example: the routing word of the flood of module 1,000. -/
theorem test_flood_route : routeWord 3 7 false 0 0 1000 0 0 = 0x000000FA0000001F := by decide

/-- 11, worked example: its payload. -/
theorem test_flood_payload :
    ({ jobTag := 0x2A6C, origin := 1000, number := 0x17, boot := 0x52, reason := 1, originReset := true, step := 48377,
       recordSeq := 0x1A4 } : Flood).bytes =
      [0x6C, 0x2A, 0, 0, 0xE8, 0x03, 0x17, 0, 0x52, 0, 0, 0, 1, 1, 0, 0, 0xF9, 0xBC, 0, 0, 0xA4, 1, 0, 0, 0, 0, 0, 0, 0, 0, 0, 0] := by
  decide +kernel

/-- 02, worked example: the sum of the three blocks on the grid, as an exact value. -/
def gridSum : Val := .fin false 0x18200FFFFFFFFFFFFFFFFFFFFFFFFFFFFFFFF (-143)

/-- 02, Table 2-5: a term of -0.75 grid units truncates to -1, and one block's products to 3 x 2^143. -/
theorem test_grid_truncation :
    (blockAcc 16 [.fin true 3 (-145)]).sum = -1 ∧
      (blockAcc 16 [(Fmt.dec .e4m3 0x4C).mul ((Fmt.dec .e4m3 0x3A).mul (.fin false 1 (-1))),
        (Fmt.dec .e4m3 0xB0).mul ((Fmt.dec .e4m3 0x44).mul (.fin false 1 (-1)))]).sum = 3 * 2 ^ 143 := by
  decide +kernel

/-- 02, worked example: the outputs of that accumulator, rounded to nearest and stochastically. -/
theorem test_grid_rounding :
    Fmt.enc .bf16 .rne gridSum = 0x4041 ∧ Fmt.enc .fp32 .rne gridSum = 0x40410080 ∧
      Fmt.enc .bf16 (.stoch 0x2A10) gridSum = 0x4042 ∧ Fmt.enc .bf16 (.stoch 0x7FFF) gridSum = 0x4041 := by
  decide +kernel

/-- 12, Table 12-13: SET_PARAM 0x0400 of partition 2 through mailbox 3, with a value. -/
def setJoin (v : Nat) : MbCmd := mb 3 2 [(2, 0x42), (4, 16), (7, 1), (16, 0x400), (24, v)]

/-- A ready module with partition 2. -/
def module2 : State := { up with parts := [(2, part [(255, 0)])] }

/-- 12, worked example: the value 100 fails at offset 24 with OUT_OF_RANGE, and the value 8,192 passes. -/
theorem test_set_param_checks :
    module2.mbCheck 3 (setJoin 100).img = some (0x103, 24) ∧ module2.mbCheck 3 (setJoin 8192).img = none ∧
      module2.mbCheck 4 (setJoin 8192).img = some (0x103, 6) := by
  decide +kernel

/-- A part of the next state. -/
def nextField {α : Type} (o : Host.Outcome State Fault Refusal) (f : State → α) : Option α :=
  match o with
  | .next t => some (f t)
  | .fault _ => none
  | .refused _ => none

/-- 12, worked example: the setting takes effect and answers the previous value 4,096. -/
theorem test_set_param : nextField (exec (.setParam 3) { module2 with mailboxes := [(3, { Mailbox.reset with started := [setJoin 8192] })] })
    (fun t => (t.pparam 2 0x400, (t.mbox 3).fin.map fun f => (fld f.compl 2 0 16, fld f.compl 16 0 64))) =
      some (8192, [(0, 4096)]) := by
  decide +kernel

/-- 15, worked example: 6.3 A in region 9 of isle die 5 after the loss of phase 4 lowers its ceiling to 1.0 GHz. -/
theorem test_region_derate :
    nextField (step { pwr { PowerSt.reset with state := [(89, .on)], lost := [(89, 0x10)] } with
      pending := [.regionCurrentDerate 5 9 6300] }) (fun t => Tbl.getD t.power.ceiling 89 0) = some 1 := by
  decide +kernel

/-- 00 R7: an idle step of a ready module is one tick. -/
theorem test_empty_queue_ticks : nextField (step up) (fun t => (t.count, t.pending)) = some (1, []) := by decide +kernel

/-- 00 R7: a module without power keeps its count. -/
theorem test_no_power_no_tick : nextField (step State.reset) (fun t => t.count) = some 0 := by decide +kernel

/-- A register write to an offset of no table is the one fault. -/
theorem test_unknown_register : execRegisterWrite (.isle 0 0xFF8) 0 up = .fault .noSuchPart := by rfl

/-- 17 R417: the 32 bits of IDCODE. -/
theorem test_idcode : nextField (exec .idcode up) (fun t => t.mgmt.out.getLast?) = some (some (.tap 32 0x1329677B)) := by
  decide +kernel

/-! ### Witnesses -/

theorem witness_LagoonAccess :
    (∃ (g : Fin 320) (c : Fin 2) (rd : Fin 32) (addr : Word) (size : Nat) (sgn : Bool) (s : State),
    s.unitRuns g = true ∧
    0 < size ∧
    size ≤ 128 ∧
    laTarget addr = 0 ∧
    laOffset addr + size ≤ 0x1800000 ∧
    (s.atoll g).bayBlocked (bayOf (laOffset addr)) = false ∧
    (s.atoll g).bayBlocked (bayOf (laOffset addr + size - 1)) = false ∧
    (s.atoll g).poisoned (laOffset addr) size = false) ∧
    (∃ (g : Fin 320) (c : Fin 2) (rd : Fin 32) (addr : Word) (tag : BitVec 5) (data : List Byte) (s : State),
    s.unitRuns g = true ∧
    0 < data.length ∧
    data.length ≤ 256 ∧
    laTarget addr = 0 ∧
    laOffset addr + data.length ≤ 0x1800000 ∧
    Memory.wf (s.atoll g).lagoon ∧
    (s.atoll g).bayBlocked (bayOf (laOffset addr)) = false ∧
    (s.atoll g).bayBlocked (bayOf (laOffset addr + data.length - 1)) = false ∧
    s.writeHeld g (laOffset addr) data.length = false) ∧
    (∃ (target source : Fin 320) (off n : Nat) (s : State),
    s.running = true ∧
    (s.atoll target).frozen = false ∧
    off < 0x1800000 ∧
    s.nbrStatus source target off = stOk ∧
    0 < n ∧
    n ≤ 128 ∧
    (s.atoll target).poisoned off n = false) ∧
    (∃ (target source : Fin 320) (off : Nat) (tag : BitVec 5) (data : List Byte) (dec : Decoded) (s : State),
    s.running = true ∧
    (s.atoll target).frozen = false ∧
    off < 0x1800000 ∧
    s.nbrStatus source target off = stOk ∧
    s.writeHeld target off data.length = false ∧
    Memory.wf (s.atoll target).lagoon) ∧
    (∃ (target source : Fin 320) (off : Nat) (req : NbrAccess) (dec : Decoded) (s : State),
    (s.nbrStatus source target off = acUnreachable ∨ s.nbrStatus source target off = acBayMode)) ∧
    (∃ (target source : Fin 320) (off : Nat) (req : NbrAccess) (dec : Decoded) (s : State),
    (s.nbrStatus source target off = acUnreachable ∨ s.nbrStatus source target off = acBayMode)) :=
  ⟨⟨319, 1, 31, 0x17FFF80, 128, true, up, by decide +kernel, by decide +kernel, by decide +kernel, by decide +kernel,
    by decide +kernel, by decide +kernel, by decide +kernel, by decide +kernel⟩,
    ⟨319, 1, 31, 0x17FFF00, 5, List.replicate 256 1, up, by decide +kernel, by decide +kernel, by decide +kernel,
      by decide +kernel, by decide +kernel, by decide +kernel, by decide +kernel, by decide +kernel, by decide +kernel⟩,
    ⟨0, 1, 0x17FFFFF, 1, { up with atolls := [(0, own 0), (1, own 1)] }, by decide +kernel, by decide +kernel,
      by decide +kernel, by decide +kernel, by decide +kernel, by decide +kernel, by decide +kernel⟩,
    ⟨319, 1, 0x17FFFFF, 0, [7], .clean, { up with atolls := [(1, own 1), (319, own 319)] }, by decide +kernel,
      by decide +kernel, by decide +kernel, by decide +kernel, by decide +kernel, by decide +kernel⟩,
    ⟨0, 1, 0, .read 1, .clean, up, by decide +kernel⟩,
    ⟨0, 1, 0x17FFFFF, .read 1, .clean, { up with atolls := [(0, { own 0 with bayCache := 0x800000 }), (1, own 1)] },
      by decide +kernel⟩⟩

theorem witness_CacheBays :
    (∃ (g : Fin 320) (bay : Fin 24) (who : CacheIssuer) (s : State),
    s.unitRuns g = true ∧
    (s.atoll g).hasCacheCmd bay .flush who = true ∧
    s.hostClear) ∧
    (∃ (g : Fin 320) (bay : Fin 24) (who : CacheIssuer) (s : State),
    s.unitRuns g = true ∧
    (s.atoll g).hasCacheCmd bay .invalidate who = true) ∧
    (∃ (g : Fin 320) (bay : Fin 24) (who : CacheIssuer) (s : State),
    s.unitRuns g = true ∧
    (s.atoll g).hasCacheCmd bay .flushInvalidate who = true ∧
    s.hostClear) ∧
    (∃ (g : Fin 320) (line bay set l w : Nat) (c : CacheLine) (pl : Place) (data : List Byte) (s s1 : State),
    s.unitRuns g = true ∧
    s.hostClear ∧
    (s.atoll g).cacheSet (line * 256) = some (bay, set, l) ∧
    (s.atoll g).findWay bay set l = some w ∧
    Tbl.get? (s.atoll g).cache (wayKey bay set w) = some c ∧
    c.filling = true ∧
    s.place (s.partOf g) ((s.atoll g).cacheBase.toNat + l * 256) false = .ok pl ∧
    s.pread (s.partOf g) ((s.atoll g).cacheBase.toNat + l * 256) 256 = (s1, stOk, data)) ∧
    (∃ (g : Fin 320) (line bay set l w : Nat) (c : CacheLine) (s : State),
    s.unitRuns g = true ∧
    (s.atoll g).cacheSet (line * 256) = some (bay, set, l) ∧
    (s.atoll g).findWay bay set l = some w ∧
    Tbl.get? (s.atoll g).cache (wayKey bay set w) = some c ∧
    c.filling = true) ∧
    (∃ (g : Fin 320) (bay : Fin 24) (s : State),
    s.unitRuns g = true ∧
    ((s.atoll g).cacheCmds.any fun c => c.bay == bay.val && c.kind != .invalidate) = true) ∧
    (∃ (g : Fin 320) (bay : Fin 24) (toCache : Bool) (s : State),
    s.unitRuns g = true ∧
    (s.atoll g).bayCache.getLsbD bay ≠ toCache ∧
    ((s.atoll g).changes.any fun c => c.bay == bay.val) = false) ∧
    (∃ (g : Fin 320) (bay : Fin 24) (c : BayChange) (s : State),
    s.unitRuns g = true ∧
    s.hostClear ∧
    (s.atoll g).changes.find? (fun c => c.bay == bay.val) = some c) :=
  ⟨⟨0, 23, .seq 5, upA 0 { caching with cacheCmds := [{ bay := 23, kind := .flush, seq := some 5, started := false }] },
    by decide +kernel, by decide +kernel, rfl⟩,
    ⟨0, 23, .manager, upA 0 caching, by decide +kernel, by decide +kernel⟩,
    ⟨0, 23, .manager, upA 0 caching, by decide +kernel, by decide +kernel, rfl⟩,
    ⟨0, 0, 23, 0, 0, 0, { index := 0, dirty := false, poisoned := false, filling := true, data := [] }, .lagoon 0 0,
      List.replicate 256 0, upA 0 caching, upA 0 caching, by decide +kernel, rfl, by decide +kernel, by decide +kernel,
      by decide +kernel, by decide +kernel, by decide +kernel, by decide +kernel⟩,
    ⟨0, 0, 23, 0, 0, 0, { index := 0, dirty := false, poisoned := false, filling := true, data := [] }, upA 0 caching,
      by decide +kernel, by decide +kernel, by decide +kernel, by decide +kernel, by decide +kernel⟩,
    ⟨0, 23, upA 0 { caching with cacheCmds := [{ bay := 23, kind := .flush, seq := none, started := true }] },
      by decide +kernel, by decide +kernel⟩,
    ⟨0, 23, false, upA 0 caching, by decide +kernel, by decide +kernel, by decide +kernel⟩,
    ⟨0, 23, { bay := 23, toCache := false }, upA 0 { caching with changes := [{ bay := 23, toCache := false }] },
      by decide +kernel, rfl, by decide +kernel⟩⟩

theorem witness_TileOps :
    (∃ (g : Fin 320) (core : Fin 2) (rd rs1 rs2 : Fin 32) (x : Nat) (bs : List Byte) (s : State),
    s.coreRuns g core = true ∧
    (((s.atoll g).core core).reg rs2).toNat ≤ 3 ∧
    s.coreBytes g core (((s.atoll g).core core).reg rs1) 64 = .ok bs ∧
    s.engineFor g (((s.atoll g).core core).reg rs2).toNat = some x ∧
    ((s.atoll g).engine x).queue.length < 4) ∧
    (∃ (g : Fin 320) (core : Fin 2) (rd rs1 : Fin 32) (s : State),
    s.coreRuns g core = true) ∧
    (∃ (g : Fin 320) (core : Fin 2) (rd : Fin 32) (s : State),
    s.coreRuns g core = true) ∧
    (∃ (g : Fin 320) (e : Fin 4) (op : TileOp) (rest : List TileOp) (s : State),
    ((s.atoll g).engine e).queue = op :: rest ∧
    ((s.atoll g).engine e).cur = none ∧
    s.unitRuns g = true ∧
    s.isFenced (engineUnit g e) = false) ∧
    (∃ (g : Fin 320) (e : Fin 4) (r : TileRun) (s : State),
    ((s.atoll g).engine e).cur = some r ∧
    s.unitRuns g = true ∧
    (s.atoll g).canDeliver r.op.src r.op.origin = true) ∧
    (∃ (g : Fin 320) (e : Fin 4) (r : TileRun) (s : State),
    ((s.atoll g).engine e).cur = some r ∧
    s.unitRuns g = true) :=
  ⟨⟨0, 0, 0, 0, 2, 3, List.replicate 64 0, upA 0 (coring [(2, 3)] []), by decide +kernel, by decide +kernel, rfl,
    by decide +kernel, by decide +kernel⟩,
    ⟨0, 0, 0, 31, upA 0 (coring [(31, 7)] []), by decide +kernel⟩,
    ⟨0, 0, 0, upA 0 (coring [] []), by decide +kernel⟩,
    ⟨0, 3, tileOp, [], upA 0 { Atoll.reset 0 with engines := [(3, { queue := [tileOp], cur := none })] }, by decide +kernel,
      by decide +kernel, by decide +kernel, by decide +kernel⟩,
    ⟨0, 3, tileRun, upA 0 { Atoll.reset 0 with engines := [(3, { queue := [], cur := some tileRun })] }, by decide +kernel,
      by decide +kernel, by decide +kernel⟩,
    ⟨0, 3, tileRun, upA 0 { Atoll.reset 0 with engines := [(3, { queue := [], cur := some tileRun })] }, by decide +kernel,
      by decide +kernel⟩⟩

theorem witness_BankOps :
    (∃ (g : Fin 320) (i : Instr) (code : Nat) (o : BankOp) (rest : List BankOp) (t0 off : Nat) (rs : List TileOut) (low : Bool) (s s1 : State),
    ((i = .bankAdd g none none ∧ code = 1) ∨ (i = .bankMax g none none ∧ code = 2) ∨ (i = .bankScale g none none ∧ code = 3) ∨ (i = .bankConvert g none none ∧ code = 4) ∨ (i = .bankApex g none none ∧ code = 5) ∨ (i = .bankZero g none none ∧ code = 6)) ∧
    (s.atoll g).bankOps = o :: rest ∧
    o.outcome = none ∧
    s.unitRuns g = true ∧
    s.isFenced (bankUnits g) = false ∧
    (bankCmd o.cmd).op = code ∧
    firstBad o.cmd.toNat (bankChecks o.cmd) = none ∧
    s.resolve g (BitVec.ofNat 32 (bankCmd o.cmd).dst) ((bankCmd o.cmd).lines * 128) = .ok (t0, off) ∧
    s.bankRun g (bankCmd o.cmd) = .writes s1 rs low ∧
    (s1.atoll g).bankOps = o :: rest ∧
    s1.runsOk g rs = 0 ∧
    s1.runsHeld g rs = false) ∧
    (∃ (g : Fin 320) (o : BankOp) (rest : List BankOp) (s : State),
    (s.atoll g).bankOps = o :: rest ∧
    o.outcome = none ∧
    s.unitRuns g = true ∧
    s.isFenced (bankUnits g) = false ∧
    (bankCmd o.cmd).op = 6 ∧
    firstBad o.cmd.toNat (bankChecks o.cmd) = none ∧
    laTarget (BitVec.ofNat 32 (bankCmd o.cmd).dst) = 0 ∧
    s.resolve g (BitVec.ofNat 32 (bankCmd o.cmd).dst) ((bankCmd o.cmd).lines * 128) = .ok (g.val, laOffset (BitVec.ofNat 32 (bankCmd o.cmd).dst)) ∧
    s.writeHeld g (laOffset (BitVec.ofNat 32 (bankCmd o.cmd).dst)) ((bankCmd o.cmd).lines * 128) = false ∧
    Memory.wf (s.atoll g).lagoon) ∧
    (∃ (g : Fin 320) (o : BankOp) (rest : List BankOp) (x : Nat × Nat × Bool) (s : State),
    (s.atoll g).bankOps = o :: rest ∧
    o.outcome = some x ∧
    s.unitRuns g = true) :=
  ⟨⟨319, .bankZero 319 none none, 6, { cmd := 6, src := .core 0, outcome := none }, [], 319, 0, [(0, 0, List.replicate 128 0)],
    false, banking 6 none, banking 6 none, Or.inr (Or.inr (Or.inr (Or.inr (Or.inr ⟨rfl, rfl⟩)))), by decide +kernel,
    by decide +kernel, by decide +kernel, by decide +kernel, by decide +kernel, rfl, rfl, rfl, by decide +kernel,
    by decide +kernel, by decide +kernel⟩,
    ⟨319, { cmd := 6, src := .core 0, outcome := none }, [], banking 6 none, by decide +kernel, by decide +kernel,
      by decide +kernel, by decide +kernel, by decide +kernel, rfl, by decide +kernel, rfl, by decide +kernel,
      by decide +kernel⟩,
    ⟨319, { cmd := 6, src := .core 0, outcome := some (0, 0, false) }, [], (0, 0, false), banking 6 (some (0, 0, false)),
      by decide +kernel, by decide +kernel, by decide +kernel⟩⟩

theorem witness_VectorOps :
    (∃ (g : Fin 320) (v : Fin 2) (i : Instr) (code : Nat) (o : VecOp) (rest : List VecOp) (s : State),
    (i, code) ∈ [(.vecAdd g v none, 0x00), (.vecSub g v none, 0x01), (.vecMul g v none, 0x02), (.vecFma g v none, 0x03), (.vecMax g v none, 0x04), (.vecMin g v none, 0x05), (.vecAbs g v none, 0x06), (.vecNeg g v none, 0x07), (.vecRecip g v none, 0x08), (.vecRsqrt g v none, 0x09), (.vecSqrt g v none, 0x0A), (.vecLdexp g v none, 0x0B), (.vecCmpEq g v none, 0x10), (.vecCmpLt g v none, 0x11), (.vecCmpLe g v none, 0x12), (.vecSelect g v none, 0x13), (.vecConvert g v none, 0x20), (.vecExp g v none, 0x30), (.vecLog g v none, 0x31), (.vecSigmoid g v none, 0x32), (.vecTanh g v none, 0x33), (.vecGelu g v none, 0x34), (.vecSilu g v none, 0x35), (.vecStats g v none, 0x40), (.redSum g v none, 0x50), (.redSumsq g v none, 0x51), (.redDot g v none, 0x52), (.redMax g v none, 0x53), (.redMin g v none, 0x54), (.redArgmax g v none, (0x55 : Nat))] ∧
    ((s.atoll g).vec v).queue = o :: rest ∧
    ((s.atoll g).vec v).cur = none ∧
    s.unitRuns g = true ∧
    s.isFenced (vecUnit g v) = false ∧
    (vecDesc o.desc).op = code ∧
    firstBad o.desc.toNat (vecChecks (s.atoll g) (o.seqOf v) o.desc) = none) ∧
    (∃ (g : Fin 320) (v : Fin 2) (o o1 : VecOp) (a1 : Atoll) (encs : List (List Nat)) (s s1 s2 s3 : State),
    ((s.atoll g).vec v).cur = some o ∧
    s.unitRuns g = true ∧
    o.status = 0 ∧
    o.done < (vecDesc o.desc).outs ∧
    let d := vecDesc o.desc
    let m := d.lineElems o.done
    let r := d.inRange o.done m
    let srcs := List.range (vecArity d.op)
    s.gatherAll g v d r.1 r.2 srcs o = (s1, .ready a1 o1) ∧
    s1.vecSources g d o1 r.1 r.2 srcs = (s2, false, stOk, encs) ∧
    s2.vecWrite g d o1 o1.done (d.encode o1.seed o1.done (vecResults d o1.done m (encs.zipIdx.map fun e => d.vals s2.freeCtr e.2 r.1 e.1) ((if vecSums d.op then srcs.map fun i => s2.vecBounds g d.fs (d.src i) r.1 r.2 s2.freeCtr i else []).map Prod.fst))) = .done s3) ∧
    (∃ (g : Fin 320) (v : Fin 2) (o : VecOp) (s : State),
    ((s.atoll g).vec v).cur = some o ∧
    s.unitRuns g = true ∧
    o.status = 0 ∧
    o.done < (vecDesc o.desc).outs) ∧
    (∃ (g : Fin 320) (v : Fin 2) (o : VecOp) (s : State),
    ((s.atoll g).vec v).cur = some o ∧
    s.unitRuns g = true ∧
    (o.status ≠ 0 ∨ (vecDesc o.desc).outs ≤ o.done)) ∧
    (∃ (g : Fin 320) (v : Fin 2) (o : VecOp) (s : State),
    ((s.atoll g).vec v).cur = some o ∧
    s.unitRuns g = true ∧
    (o.status ≠ 0 ∨ (vecDesc o.desc).outs ≤ o.done)) ∧
    (∃ (g : Fin 320) (v : Fin 2) (o : VecOp) (s : State),
    ((s.atoll g).vec v).cur = some o ∧
    s.unitRuns g = true ∧
    s.isFenced (vecUnit g v) = false) :=
  ⟨⟨0, 1, .redArgmax 0 1 none, 0x55, vecOp 0x55, [], vecing [vecOp 0x55] none, by decide +kernel, by decide +kernel,
    by decide +kernel, by decide +kernel, by decide +kernel, by decide +kernel,
    Option.isNone_iff_eq_none.mp (by decide +kernel)⟩,
    ⟨0, 1, vecOp 6, vecOp 6, (vecing [] (some (vecOp 6))).atoll 0, [[0]], vecing [] (some (vecOp 6)),
      vecing [] (some (vecOp 6)), vecing [] (some (vecOp 6)), (vecing [] (some (vecOp 6))).lagoonWrite 0 0 1 [0, 0, 0, 0],
      by decide +kernel, by decide +kernel, by decide +kernel, by decide +kernel, rfl, by decide +kernel, rfl⟩,
    ⟨0, 1, vecOp 6, vecing [] (some (vecOp 6)), by decide +kernel, by decide +kernel, by decide +kernel, by decide +kernel⟩,
    ⟨0, 1, { vecOp 6 with done := 1 }, vecing [] (some { vecOp 6 with done := 1 }), by decide +kernel, by decide +kernel,
      by decide +kernel⟩,
    ⟨0, 1, { vecOp 6 with status := 5 }, vecing [] (some { vecOp 6 with status := 5 }), by decide +kernel, by decide +kernel,
      by decide +kernel⟩,
    ⟨0, 1, vecOp 6, vecing [] (some (vecOp 6)), by decide +kernel, by decide +kernel, by decide +kernel⟩⟩

theorem witness_SequencerEntries :
  ∃ (g : Fin 320) (u : Fin 6) (e : DWord) (s : State),
    s.seqReady g u = true ∧
    ((s.atoll g).seq u).prog[((s.atoll g).seq u).pc]? = some e ∧
    badEntry ((s.atoll g).seq u) e = false :=
  ⟨319, 5, 0, upA 319 { Atoll.reset 319 with seqs := [(5, seqOf 0)] }, by decide +kernel, by decide +kernel, by decide +kernel⟩

theorem witness_QueuesAndLanes :
    (∃ (g : Fin 320) (u : Fin 6) (id : Nat) (w : DWord) (rest : List (Nat × DWord)) (s : State),
    ((s.atoll g).seq u).inbox = (id, w) :: rest ∧
    s.unitRuns g = true) ∧
    (∃ (g : Fin 320) (n : Nat) (e : QEntry) (rest : List (Nat × QEntry)) (s : State),
    (s.atoll g).ownIn = (n, e) :: rest ∧
    s.unitRuns g = true ∧
    e.epoch = (s.atoll g).epoch ∧
    e.token = false ∧
    ((s.atoll g).queue n).enable = true ∧
    ((s.atoll g).queue n).spCount = 0 ∧
    ((s.atoll g).queue n).ents.length < 16) ∧
    (∃ (g : Fin 320) (i : Fin 8) (e : QEntry) (rest : List QEntry) (s : State),
    Tbl.getD (s.atoll g).laneIn i [] = e :: rest ∧
    s.unitRuns g = true ∧
    (s.atoll g).ptEn.getLsbD i = false ∧
    e.epoch = (s.atoll g).epoch ∧
    e.token = false ∧
    (s.atoll g).laneEn.getLsbD i = true ∧
    ((s.atoll g).queue (24 + i.val)).enable = true ∧
    ((s.atoll g).queue (24 + i.val)).spCount = 0 ∧
    ((s.atoll g).queue (24 + i.val)).ents.length < 16) ∧
    (∃ (g : Fin 320) (n : Nat) (e : QEntry) (rest : List (Nat × QEntry)) (s : State),
    (s.atoll g).ownIn = (n, e) :: rest ∧
    (s.atoll g).ownHold.isSome = true ∧
    s.unitRuns g = true ∧
    e.epoch = (s.atoll g).epoch + 1 ∧
    e.token = false) ∧
    (∃ (g : Fin 320) (q : Fin 32) (e : QEntry) (rest : List QEntry) (s : State),
    ((s.atoll g).queue q).ents = e :: rest ∧
    s.unitRuns g = true ∧
    e.token = true ∧
    e.kind = 5) ∧
    (∃ (g : Fin 320) (q : Fin 32) (u p : Nat) (e : QEntry) (rest : List QEntry) (s : State),
    ((s.atoll g).queue q).ents = e :: rest ∧
    s.unitRuns g = true ∧
    e.token = true ∧
    e.kind = 6 ∧
    (s.atoll g).readerOf q = some (u, p) ∧
    ((s.atoll g).seq u).state ≠ .error) ∧
    (∃ (g : Fin 320) (q : Fin 32) (s : State),
    s.unitRuns g = true ∧
    0 < ((s.atoll g).queue q).spCount ∧
    ((s.atoll g).queue q).ents.length < 16) ∧
    (∃ (g : Fin 320) (l : Fin 8) (s : State),
    0 < Tbl.getD (s.atoll g).creditBack l 0) ∧
    (∃ (g : Fin 320) (v : Fin 2) (o : VecOp) (x y : Nat) (s : State),
    ((s.atoll g).vec v).cur = some o ∧
    (s.atoll g).starved o = some (x, y) ∧
    s.unitRuns g = true) :=
  ⟨⟨319, 5, 7, 0, [], upA 319 { Atoll.reset 319 with seqs := [(5, { Sequencer.reset with inbox := [(7, 0)] })] },
    by decide +kernel, by decide +kernel⟩,
    ⟨319, 23, qEnt false 0, [], upA 319 { Atoll.reset 319 with ownIn := [(23, qEnt false 0)], queues := [(23, qOf [] 0)] },
      by decide +kernel, by decide +kernel, by decide +kernel, by decide +kernel, by decide +kernel, by decide +kernel,
      by decide +kernel⟩,
    ⟨319, 7, qEnt false 0, [],
      upA 319 { Atoll.reset 319 with laneIn := [(7, [qEnt false 0])], laneEn := 0x80, queues := [(31, qOf (List.replicate 15 (qEnt false 0)) 0)] },
      by decide +kernel, by decide +kernel, by decide +kernel, by decide +kernel, by decide +kernel, by decide +kernel,
      by decide +kernel, by decide +kernel, by decide +kernel⟩,
    ⟨319, 23, { qEnt false 0 with epoch := 1 }, [],
      upA 319 { Atoll.reset 319 with ownIn := [(23, { qEnt false 0 with epoch := 1 })], ownHold := some 0 }, by decide +kernel,
      by decide +kernel, by decide +kernel, by decide +kernel, by decide +kernel⟩,
    ⟨319, 31, qEnt true 5, [], upA 319 { Atoll.reset 319 with queues := [(31, qOf [qEnt true 5] 0)] }, by decide +kernel,
      by decide +kernel, by decide +kernel, by decide +kernel⟩,
    ⟨319, 23, 5, 3, qEnt true 6, [],
      upA 319 { Atoll.reset 319 with queues := [(23, qOf [qEnt true 6] 0)], seqs := [(5, { seqOf 0 with inBind := [0, 0, 0, 23] })] },
      by decide +kernel, by decide +kernel, by decide +kernel, by decide +kernel, by decide +kernel, by decide +kernel⟩,
    ⟨319, 31, upA 319 { Atoll.reset 319 with queues := [(31, qOf [] 1)] }, by decide +kernel, by decide +kernel,
      by decide +kernel⟩,
    ⟨319, 7, upA 319 { Atoll.reset 319 with creditBack := [(7, 1)] }, by decide +kernel⟩,
    ⟨0, 1, { vecOp 0 with desc := BitVec.ofNat 320 (0x1010A00 + 0x10000000000000000) }, 0, 1,
      upA 0 { Atoll.reset 0 with vecs := [(1, { queue := [], cur := some { vecOp 0 with desc := BitVec.ofNat 320 (0x1010A00 + 0x10000000000000000) } })], queues := [(1, qOf (List.replicate 16 (qEnt false 0)) 0)] },
      by decide +kernel, by decide +kernel, by decide +kernel⟩⟩

theorem witness_Channels :
    (∃ (g : Fin 320) (core : Fin 2) (rd rs1 rs2 : Fin 32) (p pos h r : Nat) (s : State),
    let k := (s.atoll g).core core
    s.coreRuns g core = true ∧
    (k.reg rs1).toNat / 65536 = 0 ∧
    bits (k.reg rs1).toNat 5 3 = 0 ∧
    (k.reg rs2).toNat ≠ 0 ∧
    (k.reg rs2).toNat ≤ 32768 ∧
    s.positionOf g = some (p, pos) ∧
    k.freeHandle? = some h ∧
    s.atollAt p (bits (k.reg rs1).toNat 8 8) = some r) ∧
    (∃ (g : Fin 320) (r : ConnReq) (rest : List ConnReq) (h f : Nat) (s : State),
    (s.atoll g).connIn = r :: rest ∧
    s.running = true ∧
    s.connectCheck g r = .ok h ∧
    s.atollAt r.part r.fromPos = some f) ∧
    (∃ (g : Fin 320) (core : Fin 2) (r : ConnAns) (rest : List ConnAns) (rd : Nat) (since : DWord) (s : State),
    ((s.atoll g).core core).answers = r :: rest ∧
    ((s.atoll g).core core).block = .connect rd r.handle since ∧
    0 ≤ r.result ∧
    rd ≠ 0 ∧
    s.unitRuns g = true) ∧
    (∃ (g : Fin 320) (core : Fin 2) (rd h : Nat) (since : DWord) (s : State),
    ((s.atoll g).core core).block = .connect rd h since ∧
    s.unitRuns g = true ∧
    rd ≠ 0) ∧
    (∃ (g : Fin 320) (core : Fin 2) (rd rs1 rs2 : Fin 32) (pt r : Nat) (x : Handle) (s : State),
    let k := (s.atoll g).core core
    s.coreRuns g core = true ∧
    (k.reg rs1).toNat ≤ 63 ∧
    Tbl.get? k.handles (k.reg rs1).toNat = some x ∧
    x.send = true ∧
    x.connecting = false ∧
    x.closing = false ∧
    x.dead = false ∧
    x.bulk = false ∧
    x.out < x.cap ∧
    s.partOf g = some pt ∧
    s.atollAt pt x.peerPos = some r ∧
    (s.atoll r).inReset = false ∧
    (((s.atoll r).core x.peerCore).port x.port).publish = true) ∧
    (∃ (g : Fin 320) (core : Fin 2) (w : Fin 4) (rd rs1 rs2 : Fin 32) (pt r : Nat) (x : Handle) (s : State),
    let k := (s.atoll g).core core
    s.coreRuns g core = true ∧
    (k.reg rs1).toNat ≤ 63 ∧
    Tbl.get? k.handles (k.reg rs1).toNat = some x ∧
    x.send = true ∧
    x.connecting = false ∧
    x.closing = false ∧
    x.dead = false ∧
    x.bulk = false ∧
    x.out < x.cap ∧
    s.partOf g = some pt ∧
    s.atollAt pt x.peerPos = some r ∧
    (s.atoll r).inReset = false ∧
    (((s.atoll r).core x.peerCore).port x.port).publish = true ∧
    (k.reg rs2).toNat + 8 * (w.val + 1) ≤ 0x10000) ∧
    (∃ (g : Fin 320) (core : Fin 2) (rd h : Nat) (words : List DWord) (ref : Option DWord) (since : DWord) (s s1 : State),
    ((s.atoll g).core core).block = .send rd h words ref since ∧
    s.unitRuns g = true ∧
    s.trySend g core h words ref.isNone = .sent s1 ∧
    rd ≠ 0) ∧
    (∃ (g : Fin 320) (core : Fin 2) (rd h p : Nat) (words : List DWord) (ref : Option DWord) (since : DWord) (x : Handle) (y : Part) (s : State),
    ((s.atoll g).core core).block = .send rd h words ref since ∧
    Tbl.get? ((s.atoll g).core core).handles h = some x ∧
    s.partOf g = some p ∧
    s.part? p = some y ∧
    s.unitRuns g = true) ∧
    (∃ (g : Fin 320) (core : Fin 2) (rd rs1 : Fin 32) (s : State),
    s.coreRuns g core = true) ∧
    (∃ (g : Fin 320) (core : Fin 2) (s : State),
    s.coreRuns g core = true) ∧
    (∃ (g : Fin 320) (core : Fin 2) (i : Nat) (m : PortMsg) (s : State),
    let k := (s.atoll g).core core
    k.nextPort = some (i, m) ∧
    s.unitRuns g = true ∧
    k.running = true ∧
    ((s.atoll g).split = true ∨ core = 0) ∧
    k.mask = false ∧
    k.active = none ∧
    k.block.dispatchable = true) ∧
    (∃ (g : Fin 320) (core : Fin 2) (port : Fin 16) (m : PortMsg) (rest : List PortMsg) (s : State),
    let p := ((s.atoll g).core core).port port
    p.msgs = m :: rest ∧
    s.unitRuns g = true ∧
    p.publish = true ∧
    p.kind = 1 ∧
    ((s.atoll g).queue p.queue).enable = true ∧
    ((s.atoll g).queue p.queue).spCount = 0 ∧
    ((s.atoll g).queue p.queue).ents.length < 16) ∧
    (∃ (g : Fin 320) (core : Fin 2) (v : DWord) (s : State),
    let k := (s.atoll g).core core
    let q := { k.port k.sel.toNat with kind := bits v.toNat 1 2, queue := bits v.toNat 8 5, handler := bits v.toNat 17 15 }
    s.coreRuns g core = true ∧
    v.getLsbD 0 = true ∧
    (k.port k.sel.toNat).publish = false ∧
    (s.atoll g).publishError core k.sel.toNat q = 0) ∧
    (∃ (g : Fin 320) (core : Fin 2) (v : DWord) (s : State),
    let k := (s.atoll g).core core
    s.coreRuns g core = true ∧
    v.getLsbD 0 = false ∧
    (k.port k.sel.toNat).publish = true) ∧
    (∃ (g : Fin 320) (core : Fin 2) (v : DWord) (p : Nat) (x : Handle) (s : State),
    s.coreRuns g core = true ∧
    Tbl.get? ((s.atoll g).core core).handles (bits v.toNat 0 6) = some x ∧
    s.partOf g = some p ∧
    x.send = true ∧
    x.connecting = false ∧
    x.dead = false) :=
  ⟨⟨0, 0, 31, 1, 2, 0, 0, 0, 1, pair (ownC 0 (coreXY 0x100 32768)) (own 1) part2, by decide +kernel, by decide +kernel,
    by decide +kernel, by decide +kernel, by decide +kernel, by decide +kernel, by decide +kernel, by decide +kernel⟩,
    ⟨1, { fromPos := 0, fromCore := 0, fromHandle := 0, part := 0, core := 0, port := 15, reserved := false, cap := 256 }, [],
      0, 0,
      pair (own 0) { ownC 1 (ringCore (ring 0 0 [])) with connIn := [{ fromPos := 0, fromCore := 0, fromHandle := 0, part := 0, core := 0, port := 15, reserved := false, cap := 256 }] } part2,
      by decide +kernel, by decide +kernel, by decide +kernel, by decide +kernel⟩,
    ⟨0, 0, { handle := 63, result := 0, peerHandle := 0, bulk := false }, [], 31, 0,
      upA 0 (ownC 0 { Core.reset with answers := [{ handle := 63, result := 0, peerHandle := 0, bulk := false }], block := .connect 31 63 0 }),
      by decide +kernel, by decide +kernel, by decide +kernel, by decide +kernel, by decide +kernel⟩,
    ⟨0, 0, 31, 63, 0, upA 0 (ownC 0 { Core.reset with block := .connect 31 63 0 }), by decide +kernel, by decide +kernel,
      by decide +kernel⟩,
    ⟨0, 0, 31, 1, 2, 0, 1, sendH, sending 0 .none, by decide +kernel, by decide +kernel, by decide +kernel, by decide +kernel,
      by decide +kernel, by decide +kernel, by decide +kernel, by decide +kernel, by decide +kernel, by decide +kernel,
      by decide +kernel, by decide +kernel, by decide +kernel⟩,
    ⟨0, 0, 3, 31, 1, 2, 0, 1, sendH, sending 0xFFE0 .none, by decide +kernel, by decide +kernel, by decide +kernel,
      by decide +kernel, by decide +kernel, by decide +kernel, by decide +kernel, by decide +kernel, by decide +kernel,
      by decide +kernel, by decide +kernel, by decide +kernel, by decide +kernel, by decide +kernel⟩,
    ⟨0, 0, 31, 63, [1], none, 0, sending 0 (.send 31 63 [1] none 0),
      (match (sending 0 (.send 31 63 [1] none 0)).trySend 0 0 63 [1] true with | .sent t => t | _ => up), by decide +kernel,
      by decide +kernel, rfl, by decide +kernel⟩,
    ⟨0, 0, 31, 63, 0, [1], none, 0, sendH, part2, sending 0 (.send 31 63 [1] none 0), by decide +kernel, by decide +kernel,
      by decide +kernel, by decide +kernel, by decide +kernel⟩,
    ⟨0, 0, 31, 1, upA 0 (coring [] []), by decide +kernel⟩,
    ⟨0, 0, upA 0 (coring [] []), by decide +kernel⟩,
    ⟨0, 0, 15, msg, upA 0 (ownC 0 (ringCore (ring 0 0 [msg]))), by decide +kernel, by decide +kernel, by decide +kernel,
      by decide +kernel, by decide +kernel, by decide +kernel, by decide +kernel⟩,
    ⟨0, 0, 15, msg, [], upA 0 { ownC 0 (ringCore (ring 1 23 [msg])) with queues := [(23, qOf [] 0)] }, by decide +kernel,
      by decide +kernel, by decide +kernel, by decide +kernel, by decide +kernel, by decide +kernel, by decide +kernel⟩,
    ⟨0, 0, 1, upA 0 (ownC 0 (ringCore { ring 0 0 [] with publish := false })), by decide +kernel, by decide +kernel,
      by decide +kernel, by decide +kernel⟩,
    ⟨0, 0, 0, upA 0 (ownC 0 (ringCore (ring 0 0 []))), by decide +kernel, by decide +kernel, by decide +kernel⟩,
    ⟨0, 0, 63, 0, sendH, sending 0 .none, by decide +kernel, by decide +kernel, by decide +kernel, by decide +kernel,
      by decide +kernel, by decide +kernel⟩⟩

theorem witness_Reconfiguration :
    (∃ (p : Fin 32) (x : Part) (r : Reconf) (s : State),
    s.part? p = some x ∧
    (s.reconfs.filter fun r => r.part == p.val).find? (fun r => r.epoch.isNone && (s.reconfs.filter fun r => r.part == p.val).all fun q => decide (q.id ≥ r.id) || (q.pairs.all fun a => r.pairs.all fun b => a.1 != b.1)) = some r ∧
    s.running = true ∧
    (Tbl.get? x.epochTimes (x.epoch + 1).toNat = none ∨ 400 ≤ s.count.toNat - (Tbl.getD x.epochTimes (x.epoch + 1).toNat 0).toNat)) ∧
    (∃ (g : Fin 320) (p pos : Nat) (r : Reconf) (s : State),
    s.positionOf g = some (p, pos) ∧
    s.unitRuns g = true ∧
    (s.atoll g).reconf = none ∧
    s.reconfs.find? (fun r => r.part == p && r.epoch.isSome && (r.pairs.any fun x => x.1 == pos) && !(r.ends.any fun e => e.1 == pos)) = some r) ∧
    (∃ (g : Fin 320) (p pos : Nat) (rc : AtollReconf) (s : State),
    (s.atoll g).reconf = some rc ∧
    s.positionOf g = some (p, pos) ∧
    s.unitRuns g = true ∧
    rc.flush = false ∧
    rc.reported = false ∧
    (s.atoll g).tess = .draining ∧
    (s.atoll g).holdsDrain = none) ∧
    (∃ (g : Fin 320) (p pos : Nat) (rc : AtollReconf) (r : Reconf) (s : State),
    (s.atoll g).reconf = some rc ∧
    s.positionOf g = some (p, pos) ∧
    s.reconf? rc.cmd = some r ∧
    s.unitRuns g = true ∧
    r.go = false ∧
    rc.reported = true ∧
    (r.pairs.all fun x => r.quiescent.contains x.1) = true ∧
    (r.answers.any fun e => e.1 == pos) = false) ∧
    (∃ (p : Fin 32) (r : Reconf) (s : State),
    s.reconfs.find? (fun r => r.part == p.val && r.checking && (r.pairs.all fun x => r.answers.any fun e => e.1 == x.1)) = some r) ∧
    (∃ (p : Fin 32) (r : Reconf) (s : State),
    s.reconfs.find? (fun r => r.part == p.val && r.epoch.isSome && !r.flush && !r.go && (s.reconfAtolls r).all fun e => (s.atoll e.2).reconf.any fun k => k.cmd == r.id) = some r) ∧
    (∃ (g : Fin 320) (p pos st : Nat) (bad : Option Nat) (rc : AtollReconf) (r : Reconf) (s s1 : State),
    (s.atoll g).reconf = some rc ∧
    s.positionOf g = some (p, pos) ∧
    s.reconf? rc.cmd = some r ∧
    s.unitRuns g = true ∧
    (rc.flush = true ∨ r.go = true) ∧
    s.loadDesc g rc.entry rc.number rc.record rc.epoch rc.barrier bad = (s1, st)) ∧
    (∃ (p : Fin 32) (g : Fin 320) (pos : Nat) (r : Reconf) (s : State),
    s.positionOf g = some (p.val, pos) ∧
    s.running = true ∧
    (s.atoll g).tess = .held ∧
    s.reconfs.find? (fun r => r.part == p.val && r.barrier && (r.ends.any fun e => e.1 == pos && (e.2 == 0 || e.2 == 3)) && !r.readyList.contains pos) = some r) ∧
    (∃ (g : Fin 320) (s : State),
    s.unitRuns g = true ∧
    (s.atoll g).tess = .held ∧
    (s.atoll g).goSent = true) :=
  ⟨⟨31, part [(0, 0)], rec_ 31, reconfing none .running (rec_ 31), by decide +kernel, by decide +kernel, by decide +kernel,
    by decide +kernel⟩,
    ⟨0, 31, 0, { rec_ 31 with epoch := some 1 }, reconfing none .running { rec_ 31 with epoch := some 1 }, by decide +kernel,
      by decide +kernel, by decide +kernel, by decide +kernel⟩,
    ⟨0, 31, 0, arec, reconfing (some arec) .draining { rec_ 31 with epoch := some 1 }, by decide +kernel, by decide +kernel,
      by decide +kernel, by decide +kernel, by decide +kernel, by decide +kernel, by decide +kernel⟩,
    ⟨0, 31, 0, { arec with reported := true }, { rec_ 31 with epoch := some 1, quiescent := [0] },
      reconfing (some { arec with reported := true }) .draining { rec_ 31 with epoch := some 1, quiescent := [0] },
      by decide +kernel, by decide +kernel, by decide +kernel, by decide +kernel, by decide +kernel, by decide +kernel,
      by decide +kernel, by decide +kernel⟩,
    ⟨31, { rec_ 31 with epoch := some 1, checking := true, answers := [(0, true)] },
      reconfing (some arec) .draining { rec_ 31 with epoch := some 1, checking := true, answers := [(0, true)] },
      by decide +kernel⟩,
    ⟨31, { rec_ 31 with epoch := some 1 }, reconfing (some arec) .draining { rec_ 31 with epoch := some 1 }, by decide +kernel⟩,
    ⟨0, 31, 0, 1, some 0, { arec with flush := true }, { rec_ 31 with epoch := some 1 },
      reconfing (some { arec with flush := true }) .draining { rec_ 31 with epoch := some 1 },
      ((reconfing (some { arec with flush := true }) .draining { rec_ 31 with epoch := some 1 }).loadDesc 0 0 0 0 1 false (some 0)).1,
      by decide +kernel, by decide +kernel, by decide +kernel, by decide +kernel, by decide +kernel, rfl⟩,
    ⟨31, 0, 0, { rec_ 31 with epoch := some 1, barrier := true, ends := [(0, 3)] },
      reconfing none .held { rec_ 31 with epoch := some 1, barrier := true, ends := [(0, 3)] }, by decide +kernel,
      by decide +kernel, by decide +kernel, by decide +kernel⟩,
    ⟨319, upA 319 { own 319 with tess := .held, goSent := true }, by decide +kernel, by decide +kernel, by decide +kernel⟩⟩

theorem witness_MemoryCommands :
    (∃ (g : Fin 320) (core : Fin 2) (v : DWord) (p h u : Nat) (s : State),
    s.partOf g = some p ∧
    s.unitForDie (g.val / 40) = some (h, u) ∧
    s.coreRuns g ((s.atoll g).coreIdx core) = true ∧
    s.portPosted g < 16) ∧
    (∃ (g : Fin 320) (core : Fin 2) (rd : Fin 32) (s : State),
    s.coreRuns g ((s.atoll g).coreIdx core) = true) ∧
    (∃ (h : Fin 16) (u : Fin 4) (i : Instr) (code x v : Nat) (plan : State → MemCmd → State × Plan) (c : MemCmd) (q : Plan) (s s1 : State),
    ((i = .dmaCopy h u none ∧ code = 1 ∧ plan = State.planCopy) ∨ (i = .gather h u none ∧ code = 0x10 ∧ plan = State.planMove) ∨ (i = .scatter h u none ∧ code = 0x11 ∧ plan = State.planMove) ∨ (i = .reduceSum h u none ∧ code = 0x20 ∧ plan = State.planReduce) ∨ (i = .mxCompress h u none ∧ code = 0x30 ∧ plan = State.planCompress) ∨ (i = .mxDecompress h u none ∧ code = 0x31 ∧ plan = State.planDecompress) ∨ (i = .factorStats h u none ∧ code = 0x40 ∧ plan = State.planFactor)) ∧
    s.running = true ∧
    s.isFenced (streamUnitId h u) = false ∧
    (s.sunit h u).cur = none ∧
    s.hostClear ∧
    s.memQueue h u = some (x, v, c) ∧
    s.memFenced c = false ∧
    fld c.img 0 0 8 = code ∧
    firstBad c.img.toNat (if code = 1 then dmaChecks c.src c.img else suChecks c.src c.img) = none ∧
    plan s c = (s1, q)) ∧
    (∃ (h : Fin 16) (u : Fin 4) (r : MemRun) (s : State),
    (s.sunit h u).cur = some r ∧
    s.running = true ∧
    s.isFenced (streamUnitId h u) = false ∧
    r.unacked = 0 ∧
    s.canDeliverMem r.cmd.src = true ∧
    s.outputsHeld (some r.cmd.part) r.writes = false ∧
    s.hostClear) ∧
    (∃ (h : Fin 16) (u : Fin 4) (r : MemRun) (s : State),
    (s.sunit h u).cur = some r ∧
    s.running = true ∧
    s.isFenced (streamUnitId h u) = false ∧
    r.unacked = 0 ∧
    s.canDeliverMem r.cmd.src = true ∧
    s.outputsHeld (some r.cmd.part) r.writes = false) ∧
    (∃ (h : Fin 16) (u : Fin 4) (r : MemRun) (s : State),
    (s.sunit h u).cur = some r ∧
    s.running = true ∧
    s.isFenced (streamUnitId h u) = false ∧
    s.canDeliverMem r.cmd.src = true) :=
  ⟨⟨0, 0, 1, 0, 0, 0, upA 0 (ownC 0 { Core.reset with running := true }), by decide +kernel, by decide +kernel,
    by decide +kernel, by decide +kernel⟩,
    ⟨0, 0, 31, upA 0 (coring [] []), by decide +kernel⟩,
    ⟨15, 3, .dmaCopy 15 3 none, 1, 15, 3, State.planCopy, copyCmd, (State.planCopy (unit3 [copyCmd] none) copyCmd).2,
      unit3 [copyCmd] none, (State.planCopy (unit3 [copyCmd] none) copyCmd).1, Or.inl ⟨rfl, rfl, rfl⟩, by decide +kernel,
      by decide +kernel, by decide +kernel, rfl, by decide +kernel, by decide +kernel, by decide +kernel,
      Option.isNone_iff_eq_none.mp (by decide +kernel), (Prod.eta _).symm⟩,
    ⟨15, 3, copyRun, unit3 [] (some copyRun), by decide +kernel, by decide +kernel, by decide +kernel, by decide +kernel,
      by decide +kernel, by decide +kernel, rfl⟩,
    ⟨15, 3, copyRun, unit3 [] (some copyRun), by decide +kernel, by decide +kernel, by decide +kernel, by decide +kernel,
      by decide +kernel, by decide +kernel⟩,
    ⟨15, 3, copyRun, unit3 [] (some copyRun), by decide +kernel, by decide +kernel, by decide +kernel, by decide +kernel⟩⟩

theorem witness_ScalarCores :
    (∃ (g : Fin 320) (core : Fin 2) (i f7 f3 rd rs1 rs2 : Nat) (f : DWord → DWord → DWord) (s : State),
    let k := (s.atoll g).core core
    s.coreRuns g core = true ∧
    k.pc.toNat % 2 = 0 ∧
    k.pc.toNat + 4 ≤ 0x10000 ∧
    k.instrLen = 4 ∧
    rd < 32 ∧
    rs1 < 32 ∧
    rs2 < 32 ∧
    i = rvR f7 rs2 rs1 f3 rd 0x33 ∧
    Mem.readNat k.sram k.pc.toNat 4 = i ∧
    ((f7 = 0 ∧ f3 = 0 ∧ f = fun a b => a + b) ∨ (f7 = 0x20 ∧ f3 = 0 ∧ f = fun a b => a - b) ∨ (f7 = 0 ∧ f3 = 4 ∧ f = fun a b => a ^^^ b) ∨ (f7 = 0 ∧ f3 = 6 ∧ f = fun a b => a ||| b) ∨ (f7 = 0 ∧ f3 = 7 ∧ f = fun a b => a &&& b) ∨ (f7 = 0 ∧ f3 = 3 ∧ f = fun a b => if a.toNat < b.toNat then 1 else 0) ∨ (f7 = 1 ∧ f3 = 0 ∧ f = fun a b => a * b) ∨ (f7 = 1 ∧ f3 = 7 ∧ f = fun a b => if b = 0 then a else BitVec.ofNat 64 (a.toNat % b.toNat)))) ∧
    (∃ (g : Fin 320) (core : Fin 2) (imm : Int) (rd rs1 : Nat) (s : State),
    let k := (s.atoll g).core core
    s.coreRuns g core = true ∧
    k.pc.toNat % 2 = 0 ∧
    k.pc.toNat + 4 ≤ 0x10000 ∧
    k.instrLen = 4 ∧
    rd < 32 ∧
    rs1 < 32 ∧
    -2048 ≤ imm ∧
    imm < 2048 ∧
    Mem.readNat k.sram k.pc.toNat 4 = rvI imm rs1 0 rd 0x13) ∧
    (∃ (g : Fin 320) (core : Fin 2) (rd rs1 : Nat) (s : State),
    let k := (s.atoll g).core core
    s.coreRuns g core = true ∧
    k.pc.toNat % 2 = 0 ∧
    k.pc.toNat + 4 ≤ 0x10000 ∧
    k.instrLen = 4 ∧
    rd < 32 ∧
    rs1 < 32 ∧
    (k.reg rs1).toNat + 8 ≤ 0x10000 ∧
    Mem.readNat k.sram k.pc.toNat 4 = rvI 0 rs1 3 rd 0x03) ∧
    (∃ (g : Fin 320) (core : Fin 2) (rs1 rs2 : Nat) (s : State),
    let k := (s.atoll g).core core
    s.coreRuns g core = true ∧
    k.pc.toNat % 2 = 0 ∧
    k.pc.toNat + 4 ≤ 0x10000 ∧
    k.instrLen = 4 ∧
    Memory.wf k.sram ∧
    rs1 < 32 ∧
    rs2 < 32 ∧
    (k.reg rs1).toNat + 8 ≤ 0x10000 ∧
    Mem.readNat k.sram k.pc.toNat 4 = rvS 0 rs2 rs1 3) ∧
    (∃ (g : Fin 320) (core : Fin 2) (off rd rs1 rs2 : Nat) (s : State),
    let k := (s.atoll g).core core
    s.coreRuns g core = true ∧
    k.pc.toNat % 2 = 0 ∧
    k.pc.toNat + 4 ≤ 0x10000 ∧
    k.instrLen = 4 ∧
    rd < 32 ∧
    rs1 < 32 ∧
    rs2 < 32 ∧
    off < 2048 ∧
    off % 2 = 0 ∧
    (Mem.readNat k.sram k.pc.toNat 4 = rvJ off rd ∨ Mem.readNat k.sram k.pc.toNat 4 = rvB off rs1 0 + rs2 * 2 ^ 20)) ∧
    (∃ (g : Fin 320) (core : Fin 2) (off rd rs1 rs2 : Nat) (s : State),
    let k := (s.atoll g).core core
    s.coreRuns g core = true ∧
    k.pc.toNat % 2 = 0 ∧
    k.pc.toNat + 4 ≤ 0x10000 ∧
    k.instrLen = 4 ∧
    rd < 32 ∧
    rs1 < 32 ∧
    rs2 < 32 ∧
    off < 2048 ∧
    off % 2 = 0 ∧
    (Mem.readNat k.sram k.pc.toNat 4 = rvJ off rd ∨ Mem.readNat k.sram k.pc.toNat 4 = rvB off rs1 0 + rs2 * 2 ^ 20)) ∧
    (∃ (g : Fin 320) (core : Fin 2) (imm rd : Nat) (s : State),
    let k := (s.atoll g).core core
    s.coreRuns g core = true ∧
    k.pc.toNat % 2 = 0 ∧
    k.pc.toNat + 2 ≤ 0x10000 ∧
    k.instrLen = 2 ∧
    rd < 32 ∧
    0 < rd ∧
    imm < 32 ∧
    Mem.readNat k.sram k.pc.toNat 2 = rd * 2 ^ 7 + imm * 2 ^ 2 + 1) ∧
    (∃ (g : Fin 320) (core : Fin 2) (s : State),
    let k := (s.atoll g).core core
    s.coreRuns g core = true ∧
    k.pc.toNat % 2 = 0 ∧
    k.pc.toNat + 4 ≤ 0x10000 ∧
    k.instrLen = 4 ∧
    Mem.readNat k.sram k.pc.toNat 4 = 0x73) ∧
    (∃ (g : Fin 320) (core : Fin 2) (s : State),
    let k := (s.atoll g).core core
    s.coreRuns g core = true ∧
    k.pc.toNat % 2 = 0 ∧
    k.pc.toNat + 4 ≤ 0x10000 ∧
    k.instrLen = 4 ∧
    Mem.readNat k.sram k.pc.toNat 4 = 0x30200073) ∧
    (∃ (g : Fin 320) (core : Fin 2) (point : Fin 6) (v0 v1 : DWord) (dec : Decoded) (s : State),
    let k := (s.atoll g).core core
    s.coreRuns g core = true ∧
    k.pc.toNat % 2 = 0 ∧
    k.pc.toNat + 4 ≤ 0x10000 ∧
    (s.atoll g).split = false) :=
  ⟨⟨0, 0, rvR 1 2 1 7 31 0x33, 1, 7, 31, 1, 2, fun a b => if b = 0 then a else BitVec.ofNat 64 (a.toNat % b.toNat),
    atInstr (rvR 1 2 1 7 31 0x33) 7 0, by decide +kernel, by decide +kernel, by decide +kernel, by decide +kernel,
    by decide +kernel, by decide +kernel, by decide +kernel, rfl, by decide +kernel,
    Or.inr (Or.inr (Or.inr (Or.inr (Or.inr (Or.inr (Or.inr ⟨rfl, rfl, rfl⟩))))))⟩,
    ⟨0, 0, -2048, 31, 1, atInstr (rvI (-2048) 1 0 31 0x13) 0 0, by decide +kernel, by decide +kernel, by decide +kernel,
      by decide +kernel, by decide +kernel, by decide +kernel, by decide +kernel, by decide +kernel, by decide +kernel⟩,
    ⟨0, 0, 31, 1, atInstr (rvI 0 1 3 31 0x03) 0xFFF8 0, by decide +kernel, by decide +kernel, by decide +kernel,
      by decide +kernel, by decide +kernel, by decide +kernel, by decide +kernel, by decide +kernel⟩,
    ⟨0, 0, 1, 2, atInstr (rvS 0 2 1 3) 0xFFF8 5, by decide +kernel, by decide +kernel, by decide +kernel, by decide +kernel,
      by decide +kernel, by decide +kernel, by decide +kernel, by decide +kernel, by decide +kernel⟩,
    ⟨0, 0, 2046, 31, 1, 2, atInstr (rvJ 2046 31) 0 0, by decide +kernel, by decide +kernel, by decide +kernel,
      by decide +kernel, by decide +kernel, by decide +kernel, by decide +kernel, by decide +kernel, by decide +kernel,
      by decide +kernel⟩,
    ⟨0, 0, 2046, 31, 1, 2, atInstr (rvB 2046 1 0 + 2 * 2 ^ 20) 0 0, by decide +kernel, by decide +kernel, by decide +kernel,
      by decide +kernel, by decide +kernel, by decide +kernel, by decide +kernel, by decide +kernel, by decide +kernel,
      by decide +kernel⟩,
    ⟨0, 0, 31, 31, atInstr (31 * 2 ^ 7 + 31 * 2 ^ 2 + 1) 0 0, by decide +kernel, by decide +kernel, by decide +kernel,
      by decide +kernel, by decide +kernel, by decide +kernel, by decide +kernel, by decide +kernel⟩,
    ⟨0, 0, atInstr 0x73 0 0, by decide +kernel, by decide +kernel, by decide +kernel, by decide +kernel, by decide +kernel⟩,
    ⟨0, 0, atInstr 0x30200073 0 0, by decide +kernel, by decide +kernel, by decide +kernel, by decide +kernel,
      by decide +kernel⟩,
    ⟨0, 0, 5, 1, 2, .clean, atInstr 0x13 0 0, by decide +kernel, by decide +kernel, by decide +kernel, by decide +kernel⟩⟩

theorem witness_UnlistedCustomTraps :
  ∃ (g : Fin 320) (core : Fin 2) (s : State),
    let k := (s.atoll g).core core
    let i := Mem.readNat k.sram k.pc.toNat 4
    s.coreRuns g core = true ∧
    k.pc.toNat % 2 = 0 ∧
    k.pc.toNat + 4 ≤ 0x10000 ∧
    k.instrLen = 4 ∧
    ((bits i 0 7 = 0x0B ∧ customOk i = false) ∨ bits i 0 7 = 0x2B ∨ bits i 0 7 = 0x5B ∨ bits i 0 7 = 0x7B) :=
  ⟨0, 0, atInstr 0x7B 0 0, by decide +kernel, by decide +kernel, by decide +kernel, by decide +kernel, by decide +kernel⟩

theorem witness_Synchronisation :
    (∃ (g : Fin 320) (core : Fin 2) (rd rs1 rs2 : Fin 32) (s : State),
    let k := (s.atoll g).core core
    s.coreRuns g core = true ∧
    objNameOk (k.reg rs1) = true ∧
    objScope (k.reg rs1) = 0 ∧
    bits (k.reg rs2).toNat 0 32 ≤ ((s.atoll g).obj (objNumber (k.reg rs1))).toNat) ∧
    (∃ (g : Fin 320) (core : Fin 2) (rd rs1 rs2 : Fin 32) (s : State),
    let k := (s.atoll g).core core
    s.coreRuns g core = true ∧
    objNameOk (k.reg rs1) = true ∧
    objScope (k.reg rs1) = 0 ∧
    s.mem.modWaits.length ≤ 1024 ∧
    ((s.atoll g).obj (objNumber (k.reg rs1))).toNat < bits (k.reg rs2).toNat 0 32) ∧
    (∃ (g : Fin 320) (core : Fin 2) (rd rs1 rs2 : Fin 32) (m : Nat) (s : State),
    let k := (s.atoll g).core core
    let nm (i : Nat) : DWord := BitVec.ofNat 64 (Mem.readNat k.sram ((k.reg rs1).toNat + 16 * i) 8)
    let tg (i : Nat) : Nat := Mem.readNat k.sram ((k.reg rs1).toNat + 16 * i + 8) 4
    s.coreRuns g core = true ∧
    0 < (k.reg rs2).toNat ∧
    (k.reg rs2).toNat ≤ 8 ∧
    (k.reg rs1).toNat + 16 * (k.reg rs2).toNat ≤ 0x10000 ∧
    m < (k.reg rs2).toNat ∧
    (∀ i, i < (k.reg rs2).toNat → objNameOk (nm i) = true ∧ objScope (nm i) = 0 ∧ Mem.readNat k.sram ((k.reg rs1).toNat + 16 * i + 12) 4 = 0) ∧
    tg m ≤ ((s.atoll g).obj (objNumber (nm m))).toNat ∧
    (∀ i, i < m → ((s.atoll g).obj (objNumber (nm i))).toNat < tg i)) ∧
    (∃ (g : Fin 320) (core : Fin 2) (rs1 rs2 : Fin 32) (s : State),
    let k := (s.atoll g).core core
    s.coreRuns g core = true ∧
    objNameOk (k.reg rs1) = true ∧
    objScope (k.reg rs1) = 0 ∧
    (∀ w ∈ (s.atoll g).waits, w.obj ≠ objNumber (k.reg rs1))) ∧
    (∃ (g : Fin 320) (core c : Fin 2) (rs1 rs2 : Fin 32) (rd : Nat) (nm : DWord) (tgt : Word) (since : DWord) (s : State),
    let k := (s.atoll g).core core
    s.coreRuns g core = true ∧
    k.reg rs1 = nm ∧
    objNameOk nm = true ∧
    objScope nm = 0 ∧
    c ≠ core ∧
    rd ≠ 0 ∧
    ((s.atoll g).core c).block = .wait rd [(nm, tgt)] false since ∧
    (s.atoll g).waits = [{ obj := objNumber nm, target := tgt, who := .core g c 0 }] ∧
    tgt.toNat ≤ min 0xFFFFFFFF (((s.atoll g).obj (objNumber nm)).toNat + bits (k.reg rs2).toNat 0 16)) ∧
    (∃ (g : Fin 320) (core : Fin 2) (rs1 rs2 : Fin 32) (s : State),
    let k := (s.atoll g).core core
    s.coreRuns g core = true ∧
    objNameOk (k.reg rs1) = true ∧
    objScope (k.reg rs1) = 0 ∧
    (∀ w ∈ (s.atoll g).waits, w.obj ≠ objNumber (k.reg rs1))) ∧
    (∃ (g : Fin 320) (core : Fin 2) (rd : Nat) (objs : List (DWord × Word)) (any : Bool) (since : DWord) (s : State),
    ((s.atoll g).core core).block = .wait rd objs any since ∧
    s.unitRuns g = true) :=
  ⟨⟨0, 0, 31, 1, 2, atInstr 0x13 63 0, by decide +kernel, by decide +kernel, by decide +kernel, by decide +kernel⟩,
    ⟨0, 0, 31, 1, 2, atInstr 0x13 63 0xFFFFFFFF, by decide +kernel, by decide +kernel, by decide +kernel, by decide +kernel,
      by decide +kernel⟩,
    ⟨0, 0, 31, 1, 2, 7, upA 0 (coring [(1, 0xFF80), (2, 8)] ((List.range 7).map fun i => (0xFF80 + 16 * i + 8, 1))),
      by decide +kernel, by decide +kernel, by decide +kernel, by decide +kernel, by decide +kernel, by decide +kernel,
      by decide +kernel, by decide +kernel⟩,
    ⟨0, 0, 1, 2, atInstr 0x13 63 0xFFFF, by decide +kernel, by decide +kernel, by decide +kernel, by decide +kernel⟩,
    ⟨0, 0, 1, 1, 2, 31, 63, 0xFFFF, 0,
      upA 0 { own 0 with cores := [(0, coreXY 63 0xFFFF), (1, { Core.reset with running := true, block := .wait 31 [(63, 0xFFFF)] false 0 })], waits := [{ obj := 63, target := 0xFFFF, who := .core 0 1 0 }] },
      by decide +kernel, by decide +kernel, by decide +kernel, by decide +kernel, by decide +kernel, by decide +kernel,
      by decide +kernel, by decide +kernel, by decide +kernel⟩,
    ⟨0, 0, 1, 2, atInstr 0x13 63 5, by decide +kernel, by decide +kernel, by decide +kernel, by decide +kernel⟩,
    ⟨0, 1, 31, [(63, 1)], false, 0,
      upA 0 { own 0 with cores := [(1, { Core.reset with block := .wait 31 [(63, 1)] false 0 })] }, by decide +kernel,
      by decide +kernel⟩⟩

theorem witness_RegisterWrites :
    (∃ (g : Fin 320) (off : Nat) (v : DWord) (s : State),
    s.clocked = true ∧
    (s.atollReg g off).isSome = true) ∧
    (∃ (g : Fin 320) (core : Fin 2) (v : DWord) (s : State),
    s.unitRuns g = true) ∧
    (∃ (g : Fin 320) (core : Fin 2) (v : DWord) (s : State),
    s.unitRuns g = true) ∧
    (∃ (h : Fin 16) (off : Nat) (v : DWord) (s : State),
    s.clocked = true ∧
    (s.shoalReg h off).isSome = true) ∧
    (∃ (d : Fin 8) (v : DWord) (s : State),
    s.clocked = true) ∧
    (∃ (x : Fin 6) (l : Fin 16) (v : DWord) (s : State),
    s.clocked = true) ∧
    (∃ (x : Fin 6) (v : DWord) (s : State),
    s.clocked = true) ∧
    (∃ (node : Fin 32) (v : DWord) (s : State),
    s.clocked = true) ∧
    (∃ (v : DWord) (s : State),
    s.bar0Open = true) ∧
    (∃ (off : Nat) (h : RegHalf) (v : DWord) (s : State),
    (off < 0x028 ∨ 0x52000 ≤ off)) ∧
    (∃ (off : Nat) (h : RegHalf) (v : DWord) (s : State),
    (off < 0x028 ∨ 0x52000 ≤ off)) ∧
    (∃ (g : Fin 320) (off : Nat) (v : DWord) (s : State),
    s.atollReg g off = none) :=
  ⟨⟨319, 0x048, 1, up, by decide +kernel, by decide +kernel⟩,
    ⟨319, 1, 1, up, by decide +kernel⟩,
    ⟨319, 1, 1, up, by decide +kernel⟩,
    ⟨15, 0x068, 1, up, by decide +kernel, by decide +kernel⟩,
    ⟨7, 1, up, by decide +kernel⟩,
    ⟨5, 15, 1, up, by decide +kernel⟩,
    ⟨5, 1, up, by decide +kernel⟩,
    ⟨31, 1, up, by decide +kernel⟩,
    ⟨1, { up with host := { HostSt.reset with perst := false } }, by decide +kernel⟩,
    ⟨0x027, .full, 1, up, by decide +kernel⟩,
    ⟨0x52000, .lo, 1, up, by decide +kernel⟩,
    ⟨319, 0x3, 1, up, by decide +kernel⟩⟩

theorem witness_FabricLinks :
    (∃ (l : Fin 96) (cw : Codeword) (n : Nat) (s : State),
    (s.link l).alive = true ∧
    s.life.frozen = false ∧
    cw.fec = .good n ∧
    n ≤ 13 ∧
    bits cw.ctrl.toNat 12 8 = (s.link l).rxNext) ∧
    (∃ (l : Fin 96) (cw : Codeword) (s : State),
    (s.link l).alive = true ∧
    s.life.frozen = false ∧
    (s.link l).seeking = false ∧
    (cw.fec = .uncorrectable ∨ bits cw.ctrl.toNat 12 8 ≠ (s.link l).rxNext ∧ cw.fec = .good 0)) ∧
    (∃ (l : Fin 96) (cw : Codeword) (s : State),
    (s.link l).alive = true ∧
    s.life.frozen = false ∧
    (s.link l).seeking = false ∧
    (cw.fec = .uncorrectable ∨ bits cw.ctrl.toNat 12 8 ≠ (s.link l).rxNext ∧ cw.fec = .good 0)) ∧
    (∃ (l : Fin 96) (s : State),
    (s.link l).alive = true ∧
    s.life.frozen = false ∧
    (s.link l).replay ≠ []) ∧
    (∃ (l : Fin 96) (lane : Fin 2) (s : State),
    (s.link l).state = 2 ∧
    (s.link l).retraining = 0 ∧
    (s.link l).fencedLanes = 0 ∧
    s.life.frozen = false ∧
    s.param 0x0808 ≤ (s.retriesIn l 100000).length ∧
    lane.val = (if ((s.retriesIn l 100000).countP fun e => e.2 == 1) > ((s.retriesIn l 100000).countP fun e => e.2 == 0) then 1 else 0)) ∧
    (∃ (l : Fin 96) (s : State),
    (s.link l).carries = true ∧
    ((s.link l).waiting.any fun p => decide ((s.link l).left p.out.code < p.out.units)) = true ∧
    s.life.frozen = false) ∧
    (∃ (l : Fin 96) (lane : Fin 2) (s : State),
    (s.link l).state = 2 ∧
    (s.link l).retraining = 0 ∧
    (s.link l).fencedLanes = 0) ∧
    (∃ (l : Fin 96) (lane : Fin 2) (s : State),
    (s.link l).retraining = BitVec.ofNat 2 (2 ^ lane.val) ∧
    (s.link l).fencedLanes = 0 ∧
    (s.link l).enable = true ∧
    (s.link l).peerFormat = some s.cells) ∧
    (∃ (l : Fin 96) (lane0 lane1 : Bool) (s : State),
    s.life.powered = true ∧
    (s.link l).state ≤ 1 ∧
    (s.link l).enable = true) ∧
    (∃ (l : Fin 96) (s : State),
    (s.link l).alive = true ∧
    s.life.frozen = false ∧
    (s.link l).replay.length < 255 ∧
    (s.controlPacket l).units ≤ (s.link l).left 7) ∧
    (∃ (l : Fin 96) (fwd idv fmt : Bool) (id link : Nat) (b : List Byte) (rest : List (List Byte)) (s : State),
    (s.link l).controlIn = b :: rest ∧
    leNat (b.take 8) = msgHeader 0 16 0 false false none ∧
    id < 8192 ∧
    link < 128 ∧
    leNat ((b.drop 8).take 16) = b2n fwd + 2 * b2n idv + 4 * b2n fmt + id * 2 ^ 16 + link * 2 ^ 32) :=
  ⟨⟨95, { ctrl := 0xFF000, body := [], fec := .good 13 }, 13, lnk { link2 with rxNext := 255 }, by decide +kernel,
    by decide +kernel, by decide +kernel, by decide +kernel, by decide +kernel⟩,
    ⟨95, { ctrl := 0, body := [], fec := .uncorrectable }, lnk link2, by decide +kernel, by decide +kernel, by decide +kernel,
      by decide +kernel⟩,
    ⟨95, { ctrl := 0xFF000, body := [], fec := .good 0 }, lnk link2, by decide +kernel, by decide +kernel, by decide +kernel,
      by decide +kernel⟩,
    ⟨95, lnk { link2 with replay := [{ seq := 0, body := [], credit := 0, pkt := none }] }, by decide +kernel,
      by decide +kernel, by decide +kernel⟩,
    ⟨95, 1, lnk { link2 with retries := List.replicate 16 (0, 1) }, by decide +kernel, by decide +kernel, by decide +kernel,
      by decide +kernel, by decide +kernel, by decide +kernel⟩,
    ⟨95, lnk { link2 with waiting := [outPkt false] }, by decide +kernel, by decide +kernel, by decide +kernel⟩,
    ⟨95, 1, lnk link2, by decide +kernel, by decide +kernel, by decide +kernel⟩,
    ⟨95, 1, lnk { link2 with retraining := 2, state := 3 }, by decide +kernel, by decide +kernel, by decide +kernel,
      by decide +kernel⟩,
    ⟨95, true, false, lnk FLink.reset, by decide +kernel, by decide +kernel, by decide +kernel⟩,
    ⟨95, lnk { link2 with allowance := [(7, 2)] }, by decide +kernel, by decide +kernel, by decide +kernel, by decide +kernel⟩,
    ⟨95, true, true, true, 8191, 127,
      leBytes 8 (msgHeader 0 16 0 false false none) ++ leBytes 16 (7 + 8191 * 2 ^ 16 + 127 * 2 ^ 32), [],
      lnk { link2 with controlIn := [leBytes 8 (msgHeader 0 16 0 false false none) ++ leBytes 16 (7 + 8191 * 2 ^ 16 + 127 * 2 ^ 32)] },
      by decide +kernel, by decide +kernel, by decide +kernel, by decide +kernel, by decide +kernel⟩⟩

theorem witness_FabricMessages :
    (∃ (d : Fin 6) (a : Arrived) (rest : List Arrived) (s : State),
    (s.strait d).arrivals = a :: rest ∧
    s.life.powered = true ∧
    s.forwards = true ∧
    s.ownId = some a.pkt.dest ∧
    a.pkt.kind = 1 ∧
    a.pkt.bad s.cells = false ∧
    a.pkt.mcast = false ∧
    (a.link.isSome = true → a.pkt.hops ≠ s.param 0x0805) ∧
    bits (leNat (a.pkt.data.take 8)) 9 12 = 15 ∧
    (a.pkt.data.length = 24 ∨ a.pkt.data.length = 56) ∧
    msgBad 1 ((a.pkt.data.drop 8).take 16) = false) ∧
    (∃ (d : Fin 6) (a : Arrived) (rest : List Arrived) (l : Nat) (ls : List Nat) (s : State),
    (s.strait d).arrivals = a :: rest ∧
    s.life.powered = true ∧
    s.forwards = true ∧
    s.ownId ≠ some a.pkt.dest ∧
    a.pkt.bad s.cells = false ∧
    a.pkt.kind ≠ 7 ∧
    a.pkt.mcast = false ∧
    (a.link.isSome = true → a.pkt.hops ≠ s.param 0x0805) ∧
    bits (s.route a.pkt.dest) 24 2 = 0 ∧
    s.routeLinks (s.route a.pkt.dest) = l :: ls) ∧
    (∃ (d : Fin 6) (a : Arrived) (rest : List Arrived) (s : State),
    (s.strait d).arrivals = a :: rest ∧
    s.life.powered = true ∧
    s.forwards = true ∧
    s.ownId ≠ some a.pkt.dest ∧
    a.pkt.bad s.cells = false ∧
    a.pkt.kind ≠ 7 ∧
    a.pkt.mcast = false ∧
    bits (s.route a.pkt.dest) 24 1 = 0) ∧
    (∃ (d : Fin 6) (r : Reasm) (rest : List Reasm) (s : State),
    (s.strait d).reasm = r :: rest) ∧
    (∃ (l : Fin 96) (s : State),
    ((s.link l).waiting.any fun p => p.out.mcast && decide ((s.link l).left p.out.code < p.out.units)) = true) ∧
    (∃ (d : Fin 6) (a : FMsg) (rest : List FMsg) (m : TxMsg) (s : State),
    (s.strait d).ackIn = a :: rest ∧
    s.life.powered = true ∧
    s.life.frozen = false ∧
    s.fab.waiting = [] ∧
    m ∈ s.fab.unacked ∧
    m.owner = .signal ∧
    m.mcast = false ∧
    m.copy = none ∧
    m.dest = a.src ∧
    m.seq = bits (leNat a.payload) 0 16 ∧
    m.vc = bits (leNat a.payload) 16 2 ∧
    bits (leNat a.payload) 40 1 = 0 ∧
    (∀ x ∈ s.fab.unacked, x.seq = m.seq → x.vc = m.vc → x.dest = m.dest → x = m)) ∧
    (∃ (d : Fin 6) (m : TxMsg) (us : List TxMsg) (s : State),
    s.fab.unacked = m :: us ∧
    m.mcast = false ∧
    m.copy = none ∧
    m.dest % 6 = d.val ∧
    s.life.powered = true ∧
    s.life.frozen = false ∧
    m.tries < s.param 0x0802) ∧
    (∃ (d : Fin 6) (m : TxMsg) (us : List TxMsg) (s : State),
    s.fab.unacked = m :: us ∧
    m.mcast = false ∧
    m.copy = none ∧
    m.dest % 6 = d.val ∧
    s.life.powered = true ∧
    s.life.frozen = false ∧
    s.param 0x0802 ≤ m.tries ∧
    m.owner = .signal ∧
    s.fab.waiting = []) ∧
    (∃ (d : Fin 6) (m : TxMsg) (us : List TxMsg) (s : State),
    s.fab.unacked = m :: us ∧
    m.mcast = true ∧
    m.srcEnd = d.val ∧
    s.life.powered = true ∧
    s.life.frozen = false ∧
    (∀ i, i < m.targets.length → i ∈ m.acked) ∧
    (∀ u ∈ us, u.copy ≠ some m.dest) ∧
    s.fab.waiting = []) ∧
    (∃ (d : Fin 6) (m : FMsg) (rest : List FMsg) (s : State),
    let w := leNat (m.payload.take 2)
    let off := leNat ((m.payload.drop 16).take 5)
    let data := m.payload.drop 32
    let a := (s.window w).base.toNat + off
    (s.strait d).remoteIn = m :: rest ∧
    s.running = true ∧
    (s.strait d).accepted = false ∧
    s.hostClear ∧
    (s.window w).open_ = true ∧
    ((s.part? (s.window w).partition).map Part.inReset) = some false ∧
    (s.window w).generation.toNat = leNat ((m.payload.drop 8).take 4) ∧
    (s.window w).jobTag.toNat = leNat ((m.payload.drop 12).take 4) ∧
    off + data.length ≤ (s.window w).size.toNat ∧
    0 < data.length ∧
    a % 128 + data.length ≤ 128 ∧
    s.place (some (s.window w).partition) a true = .ok (.dram a) ∧
    s.chan (s.dramChannel a) ≠ .unbacked ∧
    Memory.wf s.mem.dram ∧
    (∀ i, i < 2 → ∀ g o, s.place (some (s.window w).partition) (a + i * 128) true ≠ .ok (.lagoon g o))) ∧
    (∃ (d : Fin 6) (m : FMsg) (rest : List FMsg) (s : State),
    let w := leNat (m.payload.take 2)
    (s.strait d).remoteIn = m :: rest ∧
    s.running = true ∧
    (s.strait d).accepted = false ∧
    (s.window w).open_ = false) ∧
    (∃ (d : Fin 6) (m : FMsg) (rest : List FMsg) (p : Nat) (x : Part) (s : State),
    let o := bits (leNat m.payload) 0 13
    (s.strait d).syncIn = m :: rest ∧
    s.running = true ∧
    Tbl.get? s.mem.objOwner o = some p ∧
    s.part? p = some x ∧
    x.jobTag.toNat = bits (leNat m.payload) 32 32 ∧
    x.inReset = false ∧
    (∀ w ∈ s.mem.modWaits, w.obj ≠ o)) ∧
    (∃ (d : Fin 6) (port : Fin 18) (meas : PortSample) (s : State),
    s.life.powered = true ∧
    s.life.frozen = false ∧
    s.param 0x0806 = 0) ∧
    (∃ (h : Fin 16) (u : Fin 4) (x v : Nat) (c : MemCmd) (s : State),
    s.running = true ∧
    s.isFenced (streamUnitId h u) = false ∧
    (s.sunit h u).cur = none ∧
    s.hostClear ∧
    s.memQueue h u = some (x, v, c) ∧
    s.memFenced c = false ∧
    fld c.img 0 0 8 = 2 ∧
    firstBad c.img.toNat (dmaChecks c.src c.img) = none) :=
  ⟨⟨5, { link := some 95, held := true, pkt := pkt 5 }, [],
    modl { Strait.reset with arrivals := [{ link := some 95, held := true, pkt := pkt 5 }] } link2 [], by decide +kernel,
    by decide +kernel, by decide +kernel, by decide +kernel, by decide +kernel, by decide +kernel, by decide +kernel,
    by decide +kernel, by decide +kernel, by decide +kernel, by decide +kernel⟩,
    ⟨5, { link := none, held := false, pkt := pkt 6 }, [], 95, [],
      modl { Strait.reset with arrivals := [{ link := none, held := false, pkt := pkt 6 }] } link2 [], by decide +kernel,
      by decide +kernel, by decide +kernel, by decide +kernel, by decide +kernel, by decide +kernel, by decide +kernel,
      by decide +kernel, by decide +kernel, by decide +kernel⟩,
    ⟨5, { link := none, held := false, pkt := pkt 6 }, [],
      modl { Strait.reset with arrivals := [{ link := none, held := false, pkt := pkt 6 }] } FLink.reset [], by decide +kernel,
      by decide +kernel, by decide +kernel, by decide +kernel, by decide +kernel, by decide +kernel, by decide +kernel,
      by decide +kernel⟩,
    ⟨5,
      { src := 1, vc := 0, mcast := false, dest := 5, msgId := 255, since := 0, head := none, cells := [], kind := 0, dend := 16 },
      [],
      modl { Strait.reset with reasm := [{ src := 1, vc := 0, mcast := false, dest := 5, msgId := 255, since := 0, head := none, cells := [], kind := 0, dend := 16 }] } link2 [],
      by decide +kernel⟩,
    ⟨95, lnk { link2 with waiting := [outPkt true] }, by decide +kernel⟩,
    ⟨5, fmsg 2 (leBytes 16 (1 * 2 ^ 16)), [], txm,
      modl { Strait.reset with ackIn := [fmsg 2 (leBytes 16 (1 * 2 ^ 16))] } link2 [txm], by decide +kernel, by decide +kernel,
      by decide +kernel, by decide +kernel, by decide +kernel, by decide +kernel, by decide +kernel, by decide +kernel,
      by decide +kernel, by decide +kernel, by decide +kernel, by decide +kernel, by simp [modl]⟩,
    ⟨5, { txm with tries := 2 }, [], modl Strait.reset link2 [{ txm with tries := 2 }], by decide +kernel, by decide +kernel,
      by decide +kernel, by decide +kernel, by decide +kernel, by decide +kernel, by decide +kernel⟩,
    ⟨5, { txm with tries := 3 }, [], modl Strait.reset link2 [{ txm with tries := 3 }], by decide +kernel, by decide +kernel,
      by decide +kernel, by decide +kernel, by decide +kernel, by decide +kernel, by decide +kernel, by decide +kernel,
      by decide +kernel⟩,
    ⟨5, { txm with mcast := true, targets := [9], acked := [0] }, [],
      modl Strait.reset link2 [{ txm with mcast := true, targets := [9], acked := [0] }], by decide +kernel, by decide +kernel,
      by decide +kernel, by decide +kernel, by decide +kernel, by decide +kernel, by decide +kernel, by decide +kernel⟩,
    ⟨5, fmsg 0 remotePay, [], remoteSt true, by decide +kernel, by decide +kernel, by decide +kernel, rfl, by decide +kernel,
      by decide +kernel, by decide +kernel, by decide +kernel, by decide +kernel, by decide +kernel, by decide +kernel,
      by decide +kernel, by decide +kernel, by decide +kernel,
      fun i hi g o h => nomatch Except.ok.inj (h.symm.trans (remote_place i hi))⟩,
    ⟨5, fmsg 0 remotePay, [], remoteSt false, by decide +kernel, by decide +kernel, by decide +kernel, by decide +kernel⟩,
    ⟨5, fmsg 1 (leBytes 16 (8191 + 7 * 2 ^ 32)), [], 0, part2,
      { modl { Strait.reset with syncIn := [fmsg 1 (leBytes 16 (8191 + 7 * 2 ^ 32))] } link2 [] with parts := [(0, part2)], mem := { MemSt.reset with objOwner := [(8191, 0)] } },
      by decide +kernel, by decide +kernel, by decide +kernel, by decide +kernel, by decide +kernel, by decide +kernel,
      by decide +kernel⟩,
    ⟨5, 17, { words := [] }, up, by decide +kernel, by decide +kernel, by decide +kernel⟩,
    ⟨15, 3, 15, 3, { copyCmd with img := 2 }, unit3 [{ copyCmd with img := 2 }] none, by decide +kernel, by decide +kernel,
      by decide +kernel, rfl, by decide +kernel, by decide +kernel, by decide +kernel,
      Option.isNone_iff_eq_none.mp (by decide +kernel)⟩⟩

theorem witness_NetworkAndClocks :
    (∃ (d : Fin 8) (x : Fin 10) (y : Fin 4) (dst : Nat) (cls : Fin 4) (payload : List Byte) (s : State),
    let r := d.val * 40 + y.val * 10 + x.val
    s.clocked = true ∧
    (s.region (d.val * 16 + 12)).powered = true ∧
    dst < 320 ∧
    payload.length ≤ 256 ∧
    s.routerQ r = []) ∧
    (∃ (d : Fin 8) (x : Fin 10) (y : Fin 4) (p : MPkt) (s : State),
    let r := d.val * 40 + y.val * 10 + x.val
    s.clocked = true ∧
    (s.region (d.val * 16 + 12)).powered = true ∧
    s.routerQ r = [p] ∧
    p.input < 6 ∧
    p.dst = r) ∧
    (∃ (d : Fin 8) (x : Fin 10) (y : Fin 4) (p : MPkt) (s : State),
    let r := d.val * 40 + y.val * 10 + x.val
    s.clocked = true ∧
    (s.region (d.val * 16 + 12)).powered = true ∧
    s.routerQ r = [p] ∧
    p.input < 6 ∧
    p.dst / 40 = d.val ∧
    x.val < p.dst % 10 ∧
    s.flt.fenced = [] ∧
    s.net.linkFenced = [] ∧
    s.net.retraining = [] ∧
    s.routerQ (r + 1) = [] ∧
    p.payload.length ≤ 256) ∧
    (∃ (d : Fin 8) (x : Fin 10) (y : Fin 4) (p : MPkt) (h : MeshHop) (l : OnDieLink) (s : State),
    s.clocked = true ∧
    (s.region (d.val * 16 + 12)).powered = true ∧
    s.meshPick d x y = some (p, h) ∧
    hopLink d x y h = some l) ∧
    (∃ (l : OnDieLink) (s : State),
    s.clocked = true ∧
    l ∉ s.net.retraining ∧
    l ∉ s.net.linkFenced ∧
    s.isFenced (onDieUnit l) = false) ∧
    (∃ (l : OnDieLink) (s : State),
    s.clocked = true ∧
    l ∈ s.net.retraining) ∧
    (∃ (k : Fin 4) (die : Fin 16) (grp : Fin 7) (m : Fin 6) (s : State),
    s.clocked = true ∧
    OnDieLink.port k die grp m ∈ s.net.retraining) ∧
    (∃ (node : Fin 32) (header : Word) (payload : List Word) (path : List Nat) (s : State),
    s.clocked = true ∧
    bits header.toNat 29 3 < 6 ∧
    payload.length = bits header.toNat 12 6 + 1 ∧
    bits header.toNat 28 1 = 0 ∧
    s.causePath 33 node (bits header.toNat 23 5) = some path) ∧
    (∃ (node : Fin 32) (header : Word) (payload : List Word) (crcOk : Bool) (s : State),
    s.clocked = true ∧
    (crcOk = false ∨ 6 ≤ bits header.toNat 29 3)) ∧
    (∃ (node : Fin 32) (header : Word) (payload : List Word) (crcOk : Bool) (s : State),
    s.clocked = true ∧
    (crcOk = false ∨ 6 ≤ bits header.toNat 29 3)) ∧
    (∃ (s : State),
    s.hubRuns = true ∧
    s.net.causeWaiting = []) ∧
    (∃ (node : Fin 32) (s : State),
    s.clocked = true ∧
    s.net.osc1 = true ∧
    node.val ∉ s.net.onOsc1) ∧
    (∃ (s : State),
    s.life.powered = true) ∧
    (∃ (d : Fin 8) (half : Fin 2) (step : BitVec 4) (s : State),
    s.clocked = true) ∧
    (∃ (d : Fin 8) (r : Fin 10) (s : State),
    let key := d.val * 16 + r.val
    s.clocked = true ∧
    (s.region key).powered = true ∧
    s.stepNow key ≠ s.stepFor key ∧
    s.regionReconf key = false) ∧
    (∃ (g : Fin 320) (s : State),
    s.clocked = true) :=
  ⟨⟨7, 9, 3, 319, 3, List.replicate 256 7, mesh 7 0 [], by decide +kernel, by decide +kernel, by decide +kernel,
    by decide +kernel, by decide +kernel⟩,
    ⟨7, 9, 3, mpkt 5 319, mesh 7 319 [mpkt 5 319], by decide +kernel, by decide +kernel, by decide +kernel, by decide +kernel,
      by decide +kernel⟩,
    ⟨0, 8, 3, mpkt 0 39, mesh 0 38 [mpkt 0 39], by decide +kernel, by decide +kernel, by decide +kernel, by decide +kernel,
      by decide +kernel, by decide +kernel, by decide +kernel, by decide +kernel, by decide +kernel, by decide +kernel,
      by decide +kernel⟩,
    ⟨0, 0, 0, mpkt 5 1, .dir 2 false, .mesh 0 0 0 2, mesh 0 0 [mpkt 5 1], by decide +kernel, by decide +kernel,
      by decide +kernel, by decide +kernel⟩,
    ⟨.mesh 7 9 3 3, up, by decide +kernel, by decide +kernel, by decide +kernel, by decide +kernel⟩,
    ⟨.isthmus 7 3, { up with net := { NetSt.reset with retraining := [.isthmus 7 3] } }, by decide +kernel, by decide +kernel⟩,
    ⟨3, 15, 6, 5, { up with net := { NetSt.reset with retraining := [.port 3 15 6 5] } }, by decide +kernel, by decide +kernel⟩,
    ⟨31, BitVec.ofNat 32 (5 * 2 ^ 29 + 31 * 2 ^ 23), [0], [31], up, by decide +kernel, by decide +kernel, by decide +kernel,
      by decide +kernel, by decide +kernel⟩,
    ⟨31, 0, [], false, up, by decide +kernel, by decide +kernel⟩,
    ⟨31, 0xC0000000, [], true, up, by decide +kernel, by decide +kernel⟩,
    ⟨up, by decide +kernel, by decide +kernel⟩,
    ⟨31, up, by decide +kernel, by decide +kernel, by decide +kernel⟩,
    ⟨up, by decide +kernel⟩,
    ⟨7, 1, 15, up, by decide +kernel⟩,
    ⟨7, 9, { up with power := { PowerSt.reset with state := [(121, .on)], ceiling := [(121, 1)] } }, by decide +kernel,
      by decide +kernel, by decide +kernel, by decide +kernel⟩,
    ⟨319, up, by decide +kernel⟩⟩

theorem witness_MemoryRows :
    (∃ (ch : Fin 128) (word : Nat) (s : State),
    s.clocked = true ∧
    s.chan ch = .healthy) ∧
    (∃ (ch : Fin 128) (word n a : Nat) (s : State),
    s.clocked = true ∧
    s.chan ch = .healthy ∧
    s.pageServed ch (word / 64) = some a ∧
    a % 4096 = 0 ∧
    s.dramChannel (a + word % 64 * 64) = ch.val ∧
    (a + word % 64 * 64) / 64 ∉ s.mem.dramPoison) ∧
    (∃ (w : SramWord) (s : State),
    s.clocked = true) ∧
    (∃ (g : Fin 320) (k n : Nat) (s : State),
    s.clocked = true ∧
    k < 786432 ∧
    (s.atoll g).poisoned (k * 32) 32 = false) ∧
    (∃ (m : Fin 34) (c : MbCmd) (s : State),
    s.mbFirst m 0x30E c ∧
    flag c.img 18 1 = false ∧
    ((s.part? (mbPartition c.img)).map fun x => x.ownsBank (bankOf c).1 (bankOf c).2) = some true ∧
    s.bankInCat (bankOf c).2 = false ∧
    s.mbRoom m ∧
    flag c.img 18 0 = false ∧
    s.bank (bankOf c).1 (bankOf c).2 = .on) ∧
    (∃ (h b : Fin 16) (s : State),
    s.clocked = true ∧
    s.bank h b = .draining ∧
    s.bankOpen h b = false) ∧
    (∃ (h b : Fin 16) (s : State),
    s.clocked = true ∧
    s.bank h b = .draining ∧
    s.bankOpen h b = true) ∧
    (∃ (h b : Fin 16) (s : State),
    s.clocked = true ∧
    s.bank h b = .off) ∧
    (∃ (h b : Fin 16) (rest : List LedgerReq) (s : State),
    s.power.queue = .bank h b :: rest ∧
    s.clocked = true ∧
    s.bank h b = .off ∧
    (s.fits (.bank h b)).isSome = true) ∧
    (∃ (m : Fin 34) (c : MbCmd) (x : Part) (s : State),
    let w := fld c.img 16 0 16
    s.mbFirst m 0x309 c ∧
    s.part? (mbPartition c.img) = some x ∧
    w ≠ 0xFFFF ∧
    (s.window w).free (mbPartition c.img) = true ∧
    s.windowReach (mbPartition c.img) (fld c.img 24 0 40) (fld c.img 32 0 40) = true) ∧
    (∃ (m : Fin 34) (c : MbCmd) (x : Part) (s : State),
    let w := fld c.img 16 0 16
    s.mbFirst m 0x30A c ∧
    s.part? (mbPartition c.img) = some x ∧
    (s.window w).open_ = true ∧
    (s.window w).partition = mbPartition c.img) ∧
    (∃ (w : Fin 1024) (t0 : DWord) (s : State),
    (s.window w).closing = some t0 ∧
    s.clocked = true ∧
    1000 ≤ s.count.toNat - t0.toNat) ∧
    (∃ (m : Fin 34) (c : MbCmd) (x : Part) (s : State),
    let w := fld c.img 16 0 16
    s.mbFirst m 0x30B c ∧
    s.part? (mbPartition c.img) = some x ∧
    ((s.window w).partition = mbPartition c.img ∨ ((s.window w).open_ = false ∧ (s.window w).reserved = false))) ∧
    (∃ (ch : Fin 128) (rest : List Nat) (s : State),
    s.clocked = true ∧
    s.mem.retiring = none ∧
    s.mem.retireQueue = ch.val :: rest ∧
    s.mem.map.pages + (s.hosted ch).length ≤ ((s.spareHomes ch).map s.spareLeft).foldl (· + ·) 0) ∧
    (∃ (r : Retire) (key a home : Nat) (s : State),
    s.mem.retiring = some r ∧
    s.clocked = true ∧
    0 < r.pagesLeft ∧
    s.retirePage r = some (key, a) ∧
    s.spareHomes r.chan = [home] ∧
    0 < s.spareLeft home) ∧
    (∃ (r : Retire) (s : State),
    s.mem.retiring = some r ∧
    s.clocked = true ∧
    r.pagesLeft = 0) ∧
    (∃ (m : Fin 34) (c : MbCmd) (s : State),
    s.mbFirst m 0x207 c ∧
    s.chan (fld c.img 16 0 8) = .healthy ∧
    s.mbRoom m) :=
  ⟨⟨127, 0, up, by decide +kernel, by decide +kernel⟩,
    ⟨127, 63, 2, 4096, memSt { MemSt.reset with map := dram2 }, by decide +kernel, by decide +kernel, by decide +kernel,
      by decide +kernel, by decide +kernel, by decide +kernel⟩,
    ⟨.staging 15 2097152, up, by decide +kernel⟩,
    ⟨319, 786431, 1, up, by decide +kernel, by decide +kernel, by decide +kernel⟩,
    ⟨33, mb 0x30E 31 [(16, 15), (17, 0)],
      mbx 33 (mb 0x30E 31 [(16, 15), (17, 0)]) { up with parts := [(31, { part2 with staging := BitVec.ofNat 256 (2 ^ 240) })] },
      by unfold State.mbFirst; decide +kernel, by decide +kernel, by decide +kernel, by decide +kernel,
      by unfold State.mbRoom; decide +kernel, by decide +kernel, by decide +kernel⟩,
    ⟨15, 15, memSt (bank15 .draining), by decide +kernel, by decide +kernel, by decide +kernel⟩,
    ⟨15, 15,
      memSt { MemSt.reset with shoals := [(15, { Shoal.reset with banks := [(15, .draining)], units := [(3, { queue := [], cur := some { copyRun with accepted := [255] } })] })] },
      by decide +kernel, by decide +kernel, by decide +kernel⟩,
    ⟨15, 15, memSt (bank15 .off), by decide +kernel, by decide +kernel⟩,
    ⟨15, 15, [], { memSt (bank15 .off) with power := { PowerSt.reset with queue := [.bank 15 15] } }, by decide +kernel,
      by decide +kernel, by decide +kernel, by decide +kernel⟩,
    ⟨1, mb 0x309 0 [(16, 1023), (24, 0), (32, 2097152)], { part2 with dram := [(0, 1)] },
      mbx 1 (mb 0x309 0 [(16, 1023), (24, 0), (32, 2097152)]) { remoteSt false with mem := { (remoteSt false).mem with windows := [] } },
      by unfold State.mbFirst; decide +kernel, by decide +kernel, by decide +kernel, by decide +kernel, by decide +kernel⟩,
    ⟨1, mb 0x30A 0 [(16, 1023)], { part2 with dram := [(0, 1)] }, mbx 1 (mb 0x30A 0 [(16, 1023)]) (remoteSt true),
      by unfold State.mbFirst; decide +kernel, by decide +kernel, by decide +kernel, by decide +kernel⟩,
    ⟨1023, 0, { memSt { MemSt.reset with windows := [(1023, { Window.reset with closing := some 0 })] } with count := 1000 },
      by decide +kernel, by decide +kernel, by decide +kernel⟩,
    ⟨1, mb 0x30B 0 [(16, 1023)], { part2 with dram := [(0, 1)] }, mbx 1 (mb 0x30B 0 [(16, 1023)]) (remoteSt true),
      by unfold State.mbFirst; decide +kernel, by decide +kernel, by decide +kernel⟩,
    ⟨127, [], memSt { MemSt.reset with map := dram2, retireQueue := [127] }, by decide +kernel, by decide +kernel,
      by decide +kernel, by decide +kernel⟩,
    ⟨retiring 1, 127 * 2 ^ 40, 4096, 126, memSt { MemSt.reset with map := dram2, retiring := some (retiring 1) },
      by decide +kernel, by decide +kernel, by decide +kernel, by decide +kernel, by decide +kernel, by decide +kernel⟩,
    ⟨retiring 0, memSt { MemSt.reset with map := dram2, retiring := some (retiring 0) }, by decide +kernel, by decide +kernel,
      by decide +kernel⟩,
    ⟨33, mb 0x207 0 [(16, 127)], mbx 33 (mb 0x207 0 [(16, 127)]), by unfold State.mbFirst; decide +kernel, by decide +kernel,
      by unfold State.mbRoom; decide +kernel⟩⟩

theorem witness_Collectives :
    (∃ (c : Coll) (s : State),
    s.coll.list.find? (fun x => !x.running) = some c ∧
    s.coll? c.key = some c ∧
    s.running = true ∧
    s.coll.list.countP Coll.live < 8 ∧
    s.hostClear ∧
    (c.d.op = 6 ∨ c.d.op = 0x10) ∧
    c.d.reduces = false) ∧
    (∃ (k : CollKey) (i : Instr) (code : Nat) (c : Coll) (s : State),
    ((i = .reduceScatter k ∧ code = 1) ∨ (i = .allReduce k ∧ code = 2)) ∧
    s.coll? k = some c ∧
    s.running = true ∧
    c.live = true ∧
    c.d.op = code ∧
    c.accs = [] ∧
    (∀ r, r < c.d.n → c.d.chunkCount r ≤ Tbl.getD c.asked r 0) ∧
    c.skew = false ∧
    s.collComplete c = true) ∧
    (∃ (k : CollKey) (c : Coll) (s : State),
    s.coll? k = some c ∧
    s.running = true ∧
    c.live = true ∧
    c.d.op = 3 ∧
    (∀ r ∈ c.others, r ∈ c.sentTo) ∧
    c.skew = false ∧
    s.collComplete c = true) ∧
    (∃ (k : CollKey) (i : Instr) (code : Nat) (c : Coll) (s : State),
    ((i = .reduceUpdate k ∧ code = 4) ∨ (i = .reduceUpdateGather k ∧ code = 5)) ∧
    s.coll? k = some c ∧
    s.running = true ∧
    c.live = true ∧
    c.d.op = code ∧
    c.accs = [] ∧
    (∀ r, r < c.d.n → c.d.chunkCount r ≤ Tbl.getD c.asked r 0) ∧
    (∀ j, j < c.shardSize.2 → j ∈ c.tiles) ∧
    c.skew = false ∧
    s.skewCheck k = s ∧
    s.collComplete c = true) ∧
    (∃ (k : CollKey) (c c1 : Coll) (s s1 s2 : State),
    s.coll? k = some c ∧
    s.running = true ∧
    c.live = true ∧
    c.d.op = 6 ∧
    c.skew = false ∧
    s.skewCheck k = s ∧
    (List.range c.shardSize.2).foldl (fun t i => if ((t.coll? k).map Coll.live).getD false then t.runTile k 0 i else t) s = s1 ∧
    ((s1.coll? k).map Coll.live) = some true ∧
    s1.endUpdate k = s2 ∧
    s2.coll? k = some c1 ∧
    c1.live = true) ∧
    (∃ (k : CollKey) (c : Coll) (s : State),
    s.coll? k = some c ∧
    s.running = true ∧
    c.live = true ∧
    c.d.op = 0x10 ∧
    s.hostClear) ∧
    (∃ (k : CollKey) (c : Coll) (s : State),
    s.coll? k = some c ∧
    s.running = true ∧
    c.live = true) :=
  ⟨⟨{ coll 6 with running := false }, colls [{ coll 6 with running := false }] [], by decide +kernel, by decide +kernel,
    by decide +kernel, by decide +kernel, rfl, by decide +kernel, by decide +kernel⟩,
    ⟨ckey, .allReduce ckey, 2, coll 2, colls [coll 2] [], Or.inr ⟨rfl, rfl⟩, by decide +kernel, by decide +kernel,
      by decide +kernel, by decide +kernel, by decide +kernel, by decide +kernel, by decide +kernel, by decide +kernel⟩,
    ⟨ckey, coll 3, colls [coll 3] [], by decide +kernel, by decide +kernel, by decide +kernel, by decide +kernel,
      by decide +kernel, by decide +kernel, by decide +kernel⟩,
    ⟨ckey, .reduceUpdateGather ckey, 5, coll 5, colls [coll 5] [], Or.inr ⟨rfl, rfl⟩, by decide +kernel, by decide +kernel,
      by decide +kernel, by decide +kernel, by decide +kernel, by decide +kernel, by decide +kernel, by decide +kernel,
      by decide +kernel, by decide +kernel⟩,
    ⟨ckey, coll0, coll0, coll0S, coll0S, coll0S.endUpdate ckey, coll0_live, by decide +kernel, by decide +kernel,
      by decide +kernel, by decide +kernel, by decide +kernel, by decide +kernel, by decide +kernel, rfl, coll0_end,
      by decide +kernel⟩,
    ⟨ckey, coll 0x10, colls [coll 0x10] [], by decide +kernel, by decide +kernel, by decide +kernel, by decide +kernel,
      by unfold State.hostClear; decide +kernel⟩,
    ⟨ckey, coll 1, colls [coll 1] [], by decide +kernel, by decide +kernel, by decide +kernel⟩⟩

theorem witness_CollectivePackets :
    (∃ (d : Fin 6) (m : FMsg) (rest : List FMsg) (c : Coll) (s : State),
    let h := collHdr m.payload
    (s.strait d).collIn = m :: rest ∧
    s.running = true ∧
    m.kind = 4 ∧
    (∀ e ∈ s.parts, e.2.jobTag = h.key.jobTag → e.2.inReset = false) ∧
    s.coll? h.key = some c ∧
    c.live = true ∧
    h.owner = c.d.rank ∧
    h.sender < c.d.n ∧
    h.chunk < c.d.chunkCount c.d.rank ∧
    c.d.reduces = true ∧
    c.d.op ≠ 3 ∧
    h.blocks = (if c.d.supplied then 0 else (c.d.chunk c.d.rank h.chunk).2) ∧
    c.accs = [] ∧
    h.chunk ∉ c.written ∧
    2 ≤ c.d.n ∧
    (∀ r, r < c.d.n → c.d.chunkCount r ≤ Tbl.getD c.asked r 0)) ∧
    (∃ (d : Fin 6) (m : FMsg) (rest : List FMsg) (c : Coll) (s : State),
    let h := collHdr m.payload
    (s.strait d).collIn = m :: rest ∧
    s.running = true ∧
    m.kind = 3 ∧
    h.ctrl = 0 ∧
    (∀ e ∈ s.parts, e.2.jobTag = h.key.jobTag → e.2.inReset = false) ∧
    s.coll? h.key = some c ∧
    c.live = true ∧
    h.owner = c.d.rank ∧
    h.sender < c.d.n) ∧
    (∃ (d : Fin 6) (m : FMsg) (rest : List FMsg) (c : Coll) (ws : List (List Byte)) (s s1 : State),
    let h := collHdr m.payload
    let s0 := s.modStrait d fun x => { x with collIn := rest }
    (s.strait d).collIn = m :: rest ∧
    s.running = true ∧
    m.kind = 3 ∧
    h.ctrl = 1 ∧
    (∀ e ∈ s.parts, e.2.jobTag = h.key.jobTag → e.2.inReset = false) ∧
    s.coll? h.key = some c ∧
    c.live = true ∧
    h.owner ≠ c.d.rank ∧
    h.sender = h.owner ∧
    h.chunk < c.d.chunkCount h.owner ∧
    h.chunk ∉ Tbl.getD c.given h.owner [] ∧
    c.wire s0 false c.d.fs c.d.src c.d.blocks 0 (c.d.chunk h.owner h.chunk).1 (c.d.chunk h.owner h.chunk).2 = (s1, stOk, ws) ∧
    s1.coll? h.key = some c) ∧
    (∃ (d : Fin 6) (m : FMsg) (rest : List FMsg) (c : Coll) (s : State),
    let h := collHdr m.payload
    (s.strait d).collIn = m :: rest ∧
    s.running = true ∧
    m.kind = 3 ∧
    h.ctrl = 2 ∧
    (∀ e ∈ s.parts, e.2.jobTag = h.key.jobTag → e.2.inReset = false) ∧
    s.coll? h.key = some c ∧
    c.live = true ∧
    h.owner ≠ c.d.rank ∧
    h.sender = h.owner ∧
    h.chunk < c.d.chunkCount h.owner ∧
    c.accs = [] ∧
    (∀ r, r < c.d.n → c.d.chunkCount r ≤ Tbl.getD c.asked r 0)) ∧
    (∃ (d : Fin 6) (m : FMsg) (rest : List FMsg) (c : Coll) (s s1 : State),
    let h := collHdr m.payload
    let s0 := s.modStrait d fun x => { x with collIn := rest }
    let w := wireBytes true c.d.fs
    (s.strait d).collIn = m :: rest ∧
    s.running = true ∧
    m.kind = 5 ∧
    (∀ e ∈ s.parts, e.2.jobTag = h.key.jobTag → e.2.inReset = false) ∧
    s.coll? h.key = some c ∧
    c.live = true ∧
    c.d.op = 3 ∧
    c.d.reduces = false ∧
    h.owner ≠ c.d.rank ∧
    h.sender = h.owner ∧
    h.format = c.d.fs.code ∧
    h.owner < c.d.n ∧
    h.chunk < c.d.chunkCount h.owner ∧
    h.first + h.blocks ≤ (c.d.chunk h.owner h.chunk).2 ∧
    (m.payload.drop 24).length = h.blocks * w ∧
    c.unwire s0 c.d.fs c.d.dst c.d.blocks c.d.state ((c.d.chunk h.owner h.chunk).1 + h.first) (chunks 33 w (m.payload.drop 24)) = (s1, stOk) ∧
    s1.coll? h.key = some c) ∧
    (∃ (d : Fin 6) (m : FMsg) (rest : List FMsg) (s : State),
    (s.strait d).collIn = m :: rest ∧
    s.running = true ∧
    m.kind = 3 ∧
    (collHdr m.payload).ctrl = 0 ∧
    (∀ e ∈ s.parts, e.2.jobTag = (collHdr m.payload).key.jobTag → e.2.inReset = false) ∧
    s.coll? (collHdr m.payload).key = none ∧
    (s.strait d).early.length < 4096) ∧
    (∃ (d : Fin 6) (e : FMsg × DWord) (rest : List (FMsg × DWord)) (s : State),
    (s.strait d).early = e :: rest) :=
  ⟨⟨5, cmsg 4 1 0 1 [], [], { coll 1 with written := [] }, colls [{ coll 1 with written := [] }] [cmsg 4 1 0 1 []],
    by decide +kernel, by decide +kernel, by decide +kernel, by decide +kernel, by decide +kernel, by decide +kernel,
    by decide +kernel, by decide +kernel, by decide +kernel, by decide +kernel, by decide +kernel, by decide +kernel,
    by decide +kernel, by decide +kernel, by decide +kernel, by decide +kernel⟩,
    ⟨5, cmsg 3 1 0 0 [], [], coll 1, colls [coll 1] [cmsg 3 1 0 0 []], by decide +kernel, by decide +kernel, by decide +kernel,
      by decide +kernel, by decide +kernel, by decide +kernel, by decide +kernel, by decide +kernel, by decide +kernel⟩,
    ⟨5, cmsg 3 0 1 0 [], [], { coll 1 with given := [] }, [List.replicate 128 0],
      colls [{ coll 1 with given := [] }] [cmsg 3 0 1 0 []],
      (colls [{ coll 1 with given := [] }] [cmsg 3 0 1 0 []]).modStrait 5 fun x => { x with collIn := [] }, by decide +kernel,
      by decide +kernel, by decide +kernel, by decide +kernel, by decide +kernel, by decide +kernel, by decide +kernel,
      by decide +kernel, by decide +kernel, by decide +kernel, by decide +kernel, by decide +kernel, by decide +kernel⟩,
    ⟨5, cmsg 3 0 2 0 [], [], coll 1, colls [coll 1] [cmsg 3 0 2 0 []], by decide +kernel, by decide +kernel, by decide +kernel,
      by decide +kernel, by decide +kernel, by decide +kernel, by decide +kernel, by decide +kernel, by decide +kernel,
      by decide +kernel, by decide +kernel, by decide +kernel⟩,
    ⟨5, cmsg 5 0 0 1 (List.replicate 128 1), [], coll 3, colls [coll 3] [cmsg 5 0 0 1 (List.replicate 128 1)], gathered,
      by decide +kernel, by decide +kernel, by decide +kernel, by decide +kernel, by decide +kernel, by decide +kernel,
      by decide +kernel, by decide +kernel, by decide +kernel, by decide +kernel, by decide +kernel, by decide +kernel,
      by decide +kernel, by decide +kernel, by decide +kernel, by decide +kernel, by decide +kernel⟩,
    ⟨5, cmsg 3 1 0 0 [], [], colls [] [cmsg 3 1 0 0 []], by decide +kernel, by decide +kernel, by decide +kernel,
      by decide +kernel, by decide +kernel, by decide +kernel, by decide +kernel⟩,
    ⟨5, (cmsg 3 1 0 0 [], 0), [], modl { Strait.reset with early := [(cmsg 3 1 0 0 [], 0)] } link2 [], by decide +kernel⟩⟩

theorem witness_PatrolAndMigration :
    (∃ (g : Fin 320) (e : Fin 4) (test : Fin 16) (i : Instr) (s : State),
    (i = .gapPatrolMicrotest (engineUnit g e) test .pass ∨ i = .gapPatrolForcedSlot (engineUnit g e) test .pass) ∧
    s.patrols (engineUnit g e) = true ∧
    s.patrolBusy (engineUnit g e) = (false, false)) ∧
    (∃ (g : Fin 320) (e : Fin 4) (test : Fin 16) (u word : Word) (tb : Byte) (ex ob : DWord) (s : State),
    s.patrols (engineUnit g e) = true ∧
    s.patrolBusy (engineUnit g e) = (false, false)) ∧
    (∃ (g : Fin 320) (s : State),
    s.hubRuns = true ∧
    s.running = true ∧
    s.siteHealthy g = true ∧
    (s.atoll g).suite = false ∧
    s.isSpare g = false ∧
    s.flt.suites.length < s.param 0x0A02 ∧
    s.positionOf g = none) ∧
    (∃ (g : Fin 320) (s : State),
    s.running = true ∧
    g.val ∈ s.flt.suites ∧
    Tbl.get? s.flt.suiteHome g = none) ∧
    (∃ (g : Fin 320) (tb : Byte) (word : Word) (ex ob : DWord) (raised : PatrolResult) (s : State),
    s.running = true ∧
    g.val ∈ s.flt.suites) ∧
    (∃ (p : Fin 32) (pos : Fin 256) (x : Part) (g h : Nat) (s : State),
    s.part? p = some x ∧
    s.hubRuns = true ∧
    x.inReset = false ∧
    x.rolling = false ∧
    pos.val ∈ x.migrateWanted ∧
    (∀ m ∈ x.migrations, m.position ≠ pos.val) ∧
    s.atollAt p pos = some g ∧
    s.chooseSpare x pos = some h) ∧
    (∃ (p : Fin 32) (pos : Fin 256) (x : Part) (m : Migration) (g : Nat) (s : State),
    s.part? p = some x ∧
    x.migrations.find? (fun m => m.position == pos.val) = some m ∧
    s.atollAt p pos = some g ∧
    m.patrol = false ∧
    s.hubRuns = true ∧
    s.unitRuns g = true ∧
    x.rolling = false ∧
    s.reconfs = [] ∧
    s.opsInFlight g = false ∧
    s.siteHealthy m.spare = true ∧
    (s.atoll m.spare).assigned = false ∧
    (s.atoll g).bayCache = 0) ∧
    (∃ (e : FenceEntry) (rest : List FenceEntry) (s : State),
    s.flt.fenceQueue = e :: rest ∧
    s.clocked = true ∧
    s.flt.fenceMap.length < 2048) ∧
    (∃ (node : Fin 32) (r : ErrRec) (rest : List ErrRec) (s : State),
    (s.collector node).ring = r :: rest ∧
    s.hubRuns = true) ∧
    (∃ (node : Fin 32) (e : CoalEntry) (rest : List CoalEntry) (s : State),
    (s.collector node).coal = e :: rest ∧
    s.clocked = true ∧
    (s.collector node).ring.length ≤ 62) ∧
    (∃ (s : State),
    s.hubRuns = true) ∧
    (∃ (s : State),
    s.hubRuns = true) :=
  ⟨⟨319, 3, 15, .gapPatrolMicrotest (engineUnit 319 3) 15 .pass, up, Or.inl rfl, by decide +kernel, by decide +kernel⟩,
    ⟨319, 3, 15, engineUnit 319 3, 0, 0, 1, 2, up, by decide +kernel, by decide +kernel⟩,
    ⟨319, fltSt { FaultSt.reset with suites := [1, 2, 3] }, by decide +kernel, by decide +kernel, by decide +kernel,
      by decide +kernel, by decide +kernel, by decide +kernel, by decide +kernel⟩,
    ⟨319, fltSt { FaultSt.reset with suites := [319] }, by decide +kernel, by decide +kernel, by decide +kernel⟩,
    ⟨319, 0, 0, 1, 2, .pass, fltSt { FaultSt.reset with suites := [319] }, by decide +kernel, by decide +kernel⟩,
    ⟨31, 255, { part [(255, 0)] with migrateWanted := [255] }, 0,
      ((p31 (fun x => { x with migrateWanted := [255] }) (own 0)).chooseSpare { part [(255, 0)] with migrateWanted := [255] } 255).getD 0,
      p31 (fun x => { x with migrateWanted := [255] }) (own 0), by decide +kernel, by decide +kernel, by decide +kernel,
      by decide +kernel, by decide +kernel, by decide +kernel, by decide +kernel, by decide +kernel⟩,
    ⟨31, 255,
      { part [(255, 0)] with migrations := [{ position := 255, source := 0, spare := 319, patrol := false, back := false }] },
      { position := 255, source := 0, spare := 319, patrol := false, back := false }, 0,
      p31 (fun x => { x with migrations := [{ position := 255, source := 0, spare := 319, patrol := false, back := false }] }) (own 0),
      by decide +kernel, by decide +kernel, by decide +kernel, by decide +kernel, by decide +kernel, by decide +kernel,
      by decide +kernel, by decide +kernel, by decide +kernel, by decide +kernel, by decide +kernel, by decide +kernel⟩,
    ⟨fenceE 1, [], fltSt { FaultSt.reset with fenceQueue := [fenceE 1] }, by decide +kernel, by decide +kernel,
      by decide +kernel⟩,
    ⟨31, errRec, [], fltSt { FaultSt.reset with collectors := [(31, { Collector.reset with ring := [errRec] })] },
      by decide +kernel, by decide +kernel⟩,
    ⟨31, { first := errRec, last := errRec, count := 2 }, [],
      fltSt { FaultSt.reset with collectors := [(31, { Collector.reset with ring := List.replicate 62 errRec, coal := [{ first := errRec, last := errRec, count := 2 }] })] },
      by decide +kernel, by decide +kernel, by decide +kernel⟩,
    ⟨up, by decide +kernel⟩,
    ⟨up, by decide +kernel⟩⟩

theorem witness_RollbackAndWatchdogs :
    (∃ (p : Fin 32) (x : Part) (c : Trigger) (cs : List Trigger) (s : State),
    s.part? p = some x ∧
    x.triggers = c :: cs ∧
    s.hubRuns = true ∧
    s.running = true ∧
    x.inReset = false ∧
    x.rollback = none ∧
    x.inStep = true) ∧
    (∃ (p : Fin 32) (x : Part) (r : Rollback) (s : State),
    s.part? p = some x ∧
    x.rollback = some r ∧
    r.outside = false ∧
    r.replace = [] ∧
    r.stop = none ∧
    s.hubRuns = true ∧
    s.running = true ∧
    x.inReset = false ∧
    x.triggers = [] ∧
    (∀ e ∈ x.posAtoll, (s.atoll e.2).inReset = false) ∧
    Tbl.get? x.epochTimes (x.epoch + 1).toNat = none) ∧
    (∃ (p : Fin 32) (x : Part) (r : Rollback) (s : State),
    s.part? p = some x ∧
    x.rollback = some r ∧
    r.outside = true ∧
    r.replace = [] ∧
    s.hubRuns = true ∧
    s.running = true ∧
    x.inReset = false ∧
    x.triggers = [] ∧
    (∀ e ∈ x.posAtoll, (s.atoll e.2).inReset = false)) ∧
    (∃ (g : Fin 320) (core : Fin 2) (s : State),
    s.unitRuns g = true ∧
    ((s.atoll g).core core).running = true ∧
    ((s.atoll g).core core).block = .none ∧
    ((s.atoll g).split = true ∨ core = 0)) ∧
    (∃ (g : Fin 320) (u : Fin 6) (p pos o : Nat) (n : Word) (x : Part) (s : State),
    ((s.atoll g).seq u).block = .sync o n ∧
    s.positionOf g = some (p, pos) ∧
    s.part? p = some x ∧
    s.unitRuns g = true) ∧
    (∃ (h : Fin 16) (u : Fin 4) (s : State),
    s.running = true ∧
    s.isFenced (streamUnitId h u) = false ∧
    (s.sunit h u).cur.isSome = true) ∧
    (∃ (g : Fin 320) (p pos : Nat) (x : Part) (r : Rollback) (s : State),
    s.positionOf g = some (p, pos) ∧
    s.part? p = some x ∧
    x.rollback = some r ∧
    s.running = true ∧
    (s.atoll g).aborting = true ∧
    (s.atoll g).inReset = false) :=
  ⟨⟨31, { part [(255, 0)] with triggers := [trig], stepOpen := true }, trig, [],
    p31 (fun x => { x with triggers := [trig], stepOpen := true }) (own 0), by decide +kernel, by decide +kernel,
    by decide +kernel, by decide +kernel, by decide +kernel, by decide +kernel, by decide +kernel⟩,
    ⟨31, { part [(255, 0)] with rollback := some (rollb false), epoch := 15 }, rollb false,
      p31 (fun x => { x with rollback := some (rollb false), epoch := 15 }) (own 0), by decide +kernel, by decide +kernel,
      by decide +kernel, by decide +kernel, by decide +kernel, by decide +kernel, by decide +kernel, by decide +kernel,
      by decide +kernel, by decide +kernel, by decide +kernel⟩,
    ⟨31, { part [(255, 0)] with rollback := some (rollb true) }, rollb true,
      p31 (fun x => { x with rollback := some (rollb true) }) (own 0), by decide +kernel, by decide +kernel, by decide +kernel,
      by decide +kernel, by decide +kernel, by decide +kernel, by decide +kernel, by decide +kernel, by decide +kernel⟩,
    ⟨319, 1, upA 319 { Atoll.reset 319 with split := true, cores := [(1, { Core.reset with running := true })] },
      by decide +kernel, by decide +kernel, by decide +kernel, by decide +kernel⟩,
    ⟨0, 5, 31, 255, 63, 1, part [(255, 0)], p31 id { own 0 with seqs := [(5, { Sequencer.reset with block := .sync 63 1 })] },
      by decide +kernel, by decide +kernel, by decide +kernel, by decide +kernel⟩,
    ⟨15, 3, unit3 [] (some copyRun), by decide +kernel, by decide +kernel, by decide +kernel⟩,
    ⟨0, 31, 255, { part [(255, 0)] with rollback := some (rollb false) }, rollb false,
      p31 (fun x => { x with rollback := some (rollb false) }) { own 0 with aborting := true }, by decide +kernel,
      by decide +kernel, by decide +kernel, by decide +kernel, by decide +kernel, by decide +kernel⟩⟩

theorem witness_HubsAndFloods :
    (∃ (node : Fin 32) (s : State),
    s.life.powered = true ∧
    s.life.frozen = false ∧
    node.val < 30 ∧
    node.val ∉ s.flt.mgrFenced) ∧
    (∃ (node : Fin 32) (s : State),
    s.hubRuns = true ∧
    node.val < 30 ∧
    node.val ∉ s.flt.mgrFenced ∧
    300000 ≤ s.count.toNat - Tbl.getD s.flt.hbLast node 0) ∧
    (∃ (h : Fin 2) (s : State),
    s.life.powered = true ∧
    s.life.frozen = false ∧
    s.life.usable.getLsbD h = true) ∧
    (∃ (h : Fin 2) (s : State),
    s.life.powered = true ∧
    s.life.frozen = false ∧
    s.life.usable.getLsbD h = true) ∧
    (∃ (s : State),
    s.life.powered = true ∧
    s.life.frozen = false ∧
    s.life.state = .ready ∧
    s.life.standby = true ∧
    s.life.failingHub = true ∧
    s.life.activeHub < 2) ∧
    (∃ (s : State),
    s.life.powered = true ∧
    s.life.frozen = false ∧
    s.life.state = .ready ∧
    s.flt.mgrFenced = [] ∧
    300000 ≤ s.silence 0 ∧
    300000 ≤ s.silence 1 ∧
    s.flt.resetPending = none) ∧
    (∃ (s : State),
    s.hubRuns = true) ∧
    (∃ (s : State),
    s.hubRuns = true) ∧
    (∃ (x : Fin 6) (f : Flood) (rest : List Flood) (s : State),
    s.life.powered = true ∧
    s.life.frozen = false ∧
    (s.strait x).floodIn = [] ∧
    s.flt.floodsOut = f :: rest) ∧
    (∃ (x : Fin 6) (l : Nat) (p : FPkt) (rest : List (Nat × FPkt)) (s : State),
    let r := BitVec.ofNat 256 (leNat ((p.data.drop 8).take 32))
    s.life.powered = true ∧
    s.life.frozen = false ∧
    (s.strait x).floodIn = (l, p) :: rest ∧
    fld r 0 0 32 ≠ 0 ∧
    1 ≤ fld r 12 0 8 ∧
    fld r 12 0 8 ≤ 5 ∧
    s.forwards = true ∧
    (∃ k ∈ s.floodKeys, k.1 = fld r 4 0 13 ∧ k.2.1 = BitVec.ofNat 32 (fld r 8 0 32) ∧ k.2.2.1 = BitVec.ofNat 16 (fld r 6 0 16))) ∧
    (∃ (m : Fin 34) (c : MbCmd) (s : State),
    s.mbFirst m 0x204 c ∧
    s.tagged (fld c.img 16 0 32) = []) ∧
    (∃ (m : Fin 34) (c : MbCmd) (p : Nat) (x : Part) (s : State),
    s.mbFirst m 0x204 c ∧
    s.tagged (fld c.img 16 0 32) = [p] ∧
    s.part? p = some x ∧
    x.inReset = false ∧
    s.mbOnPart p ≠ [] ∧
    p ∉ s.flt.abortPending) :=
  ⟨⟨29, up, by decide +kernel, by decide +kernel, by decide +kernel, by decide +kernel⟩,
    ⟨29, { up with count := 300000 }, by decide +kernel, by decide +kernel, by decide +kernel, by decide +kernel⟩,
    ⟨1, up, by decide +kernel, by decide +kernel, by decide +kernel⟩,
    ⟨1, up, by decide +kernel, by decide +kernel, by decide +kernel⟩,
    ⟨{ up with life := { up.life with failingHub := true, activeHub := 1 } }, by decide +kernel, by decide +kernel,
      by decide +kernel, by decide +kernel, by decide +kernel, by decide +kernel⟩,
    ⟨{ up with count := 300000 }, by decide +kernel, by decide +kernel, by decide +kernel, by decide +kernel,
      by decide +kernel, by decide +kernel, by decide +kernel⟩,
    ⟨up, by decide +kernel⟩,
    ⟨up, by decide +kernel⟩,
    ⟨5, floodE, [], fltSt { FaultSt.reset with floodsOut := [floodE] }, by decide +kernel, by decide +kernel,
      by decide +kernel, by decide +kernel⟩,
    ⟨5, 95, { word := 0, data := leBytes 8 0 ++ leBytes 32 (7 + 5 * 2 ^ 32 + 1 * 2 ^ 48 + 1 * 2 ^ 64 + 5 * 2 ^ 96) }, [],
      { modl { Strait.reset with floodIn := [(95, { word := 0, data := leBytes 8 0 ++ leBytes 32 (7 + 5 * 2 ^ 32 + 1 * 2 ^ 48 + 1 * 2 ^ 64 + 5 * 2 ^ 96) })] } link2 [] with flt := { FaultSt.reset with floodFilter := [(5, 1, 1, 0)] } },
      by decide +kernel, by decide +kernel, by decide +kernel, by decide +kernel, by decide +kernel, by decide +kernel,
      by decide +kernel, by decide +kernel⟩,
    ⟨33, mb 0x204 0 [(16, 9)], mbx 33 (mb 0x204 0 [(16, 9)]), by unfold State.mbFirst; decide +kernel, by decide +kernel⟩,
    ⟨33, mb 0x204 0 [(16, 7)], 0, part2,
      { up with parts := [(0, part2)], mailboxes := [(33, { Mailbox.reset with started := [mb 0x204 0 [(16, 7)]] }), (1, { Mailbox.reset with started := [mb 0x305 0 []] })] },
      by unfold State.mbFirst; decide +kernel, by decide +kernel, by decide +kernel, by decide +kernel, by decide +kernel,
      by decide +kernel⟩⟩

theorem witness_ResetsAndFences :
    (∃ (m : Fin 34) (c : MbCmd) (g : Fin 320) (core : Fin 2) (x : Part) (s : State),
    s.mbFirst m 0x200 c ∧
    s.part? (mbPartition c.img) = some x ∧
    fld c.img 16 0 32 = (atollUnit g 3 core 0x3FF).toNat ∧
    (s.atoll g).inReset = false ∧
    (s.atoll g).split = true) ∧
    (∃ (m : Fin 34) (c : MbCmd) (g : Nat) (x : Part) (s : State),
    s.mbFirst m 0x201 c ∧
    s.part? (mbPartition c.img) = some x ∧
    s.atollAt (mbPartition c.img) (fld c.img 16 0 8) = some g ∧
    s.reconfCovers (mbPartition c.img) (fld c.img 16 0 8) = false ∧
    s.mbRoom m ∧
    (s.atoll g).inReset = false) ∧
    (∃ (g : Fin 320) (s : State),
    (s.atoll g).inReset = true ∧
    s.clocked = true) ∧
    (∃ (m : Fin 34) (c : MbCmd) (x : Part) (s : State),
    s.mbFirst m 0x202 c ∧
    s.part? (mbPartition c.img) = some x ∧
    s.mbRoom m ∧
    x.inReset = false) ∧
    (∃ (p : Fin 32) (x : Part) (s : State),
    s.part? p = some x ∧
    x.inReset = true ∧
    s.clocked = true ∧
    s.hubRuns = true ∧
    (∀ e ∈ x.posAtoll, (s.atoll e.2).inReset = false) ∧
    s.mbRunningOn p 0x302 = []) ∧
    (∃ (m : Fin 34) (c : MbCmd) (s : State),
    s.mbFirst m 0x203 c) ∧
    (∃ (m : Fin 34) (c : MbCmd) (s : State),
    s.mbFirst m 0x208 c ∧
    s.life.state = .outOfService) ∧
    (∃ (m : Fin 34) (c : MbCmd) (e : FenceEntry) (s : State),
    s.mbFirst m 0x205 c ∧
    s.fenceEntries.find? (fun e => e.unit == BitVec.ofNat 32 (fld c.img 16 0 32)) = some e) ∧
    (∃ (m : Fin 34) (c : MbCmd) (g : Fin 320) (s : State),
    s.mbFirst m 0x206 c ∧
    fld c.img 16 0 32 = (siteUnit g).toNat ∧
    s.positionOf g = none) ∧
    (∃ (m : Fin 34) (c : MbCmd) (fail : Option Word) (s : State),
    s.mbFirst m 0x108 c ∧
    ((uAtoll (BitVec.ofNat 32 (fld c.img 16 0 32))).bind s.positionOf) = none ∧
    s.mbRoom m) :=
  ⟨⟨1, mb 0x200 0 [(16, (atollUnit 319 3 1 0x3FF).toNat)], 319, 1, part2,
    mbx 1 (mb 0x200 0 [(16, (atollUnit 319 3 1 0x3FF).toNat)]) { up with parts := [(0, part2)], atolls := [(319, { own 319 with split := true })] },
    by unfold State.mbFirst; decide +kernel, by decide +kernel, by decide +kernel, by decide +kernel, by decide +kernel⟩,
    ⟨1, mb 0x201 0 [(16, 1)], 1, part2, mbx 1 (mb 0x201 0 [(16, 1)]) (pair (own 0) (own 1) part2),
      by unfold State.mbFirst; decide +kernel, by decide +kernel, by decide +kernel, by decide +kernel,
      by unfold State.mbRoom; decide +kernel, by decide +kernel⟩,
    ⟨319, upA 319 { own 319 with inReset := true }, by decide +kernel, by decide +kernel⟩,
    ⟨33, mb 0x202 31 [], part [(255, 0)], mbx 33 (mb 0x202 31 []) (p31 id (own 0)), by unfold State.mbFirst; decide +kernel,
      by decide +kernel, by unfold State.mbRoom; decide +kernel, by decide +kernel⟩,
    ⟨31, { part [(255, 0)] with inReset := true }, p31 (fun x => { x with inReset := true }) (own 0), by decide +kernel,
      by decide +kernel, by decide +kernel, by decide +kernel, by decide +kernel, by decide +kernel⟩,
    ⟨33, mb 0x203 0 [], mbx 33 (mb 0x203 0 []), by unfold State.mbFirst; decide +kernel⟩,
    ⟨33, mb 0x208 0 [], mbx 33 (mb 0x208 0 []) { up with life := { up.life with state := .outOfService } },
      by unfold State.mbFirst; decide +kernel, by decide +kernel⟩,
    ⟨33, mb 0x205 0 [(16, (siteUnit 319).toNat)], fenceE 1,
      mbx 33 (mb 0x205 0 [(16, (siteUnit 319).toNat)]) (fltSt { FaultSt.reset with fenceMap := [fenceE 1] }),
      by unfold State.mbFirst; decide +kernel, by decide +kernel⟩,
    ⟨33, mb 0x206 0 [(16, (siteUnit 319).toNat)], 319, mbx 33 (mb 0x206 0 [(16, (siteUnit 319).toNat)]),
      by unfold State.mbFirst; decide +kernel, by decide +kernel, by decide +kernel⟩,
    ⟨33, mb 0x108 0 [(16, (siteUnit 319).toNat)], none, mbx 33 (mb 0x108 0 [(16, (siteUnit 319).toNat)]),
      by unfold State.mbFirst; decide +kernel, by decide +kernel, by unfold State.mbRoom; decide +kernel⟩⟩

theorem witness_Dumps :
    (∃ (m : Fin 34) (d : Dump) (u : Word) (rest : List Word) (s : State),
    s.hubRuns = true ∧
    s.flt.dump = some d ∧
    d.taking = true ∧
    d.toRead = u :: rest) ∧
    (∃ (m : Fin 34) (d : Dump) (s : State),
    s.hubRuns = true ∧
    s.flt.dump = some d ∧
    d.taking = true ∧
    d.toRead = []) ∧
    (∃ (m : Fin 34) (c : MbCmd) (s : State),
    s.mbFirst m 0x105 c ∧
    s.flt.dump = none ∧
    s.flt.fatal = false ∧
    s.mbRoom m) ∧
    (∃ (d : Dump) (u : Word) (rest : List Word) (s : State),
    s.hubRuns = true ∧
    s.flt.dump = some d ∧
    d.taking = true ∧
    d.toRead = u :: rest ∧
    s.dumpSkips u = false) ∧
    (∃ (m : Fin 34) (c : MbCmd) (d : Dump) (u : State) (s : State),
    s.mbFirst m 0x106 c ∧
    s.flt.dump = some d ∧
    d.taking = false ∧
    s.mbRoom m ∧
    s.hostPut (fld c.img 16 0 64) (((s.dumpBytes d).drop (fld c.img 24 0 32)).take (fld c.img 28 0 32)) = some u) ∧
    (∃ (m : Fin 34) (c : MbCmd) (s : State),
    s.mbFirst m 0x106 c ∧
    s.flt.dump = none) ∧
    (∃ (m : Fin 34) (c : MbCmd) (s : State),
    s.mbFirst m 0x107 c) :=
  ⟨⟨0, dump true [1], 1, [], fltSt { FaultSt.reset with dump := some (dump true [1]) }, by decide +kernel, by decide +kernel,
    by decide +kernel, by decide +kernel⟩,
    ⟨0, dump true [], fltSt { FaultSt.reset with dump := some (dump true []) }, by decide +kernel, by decide +kernel,
      by decide +kernel, by decide +kernel⟩,
    ⟨33, mb 0x105 0 [], mbx 33 (mb 0x105 0 []), by unfold State.mbFirst; decide +kernel, by decide +kernel, by decide +kernel,
      by unfold State.mbRoom; decide +kernel⟩,
    ⟨dump true [siteUnit 0], siteUnit 0, [], fltSt { FaultSt.reset with dump := some (dump true [siteUnit 0]) },
      by decide +kernel, by decide +kernel, by decide +kernel, by decide +kernel, by decide +kernel⟩,
    ⟨33, mb 0x106 0 [(16, 4096), (28, 64)], dump false [], dumped, dumping, by unfold State.mbFirst; decide +kernel,
      by decide +kernel, by decide +kernel, by unfold State.mbRoom; decide +kernel, by decide +kernel⟩,
    ⟨33, mb 0x106 0 [], mbx 33 (mb 0x106 0 []), by unfold State.mbFirst; decide +kernel, by decide +kernel⟩,
    ⟨33, mb 0x107 0 [], mbx 33 (mb 0x107 0 []), by unfold State.mbFirst; decide +kernel⟩⟩

theorem witness_MailboxRings :
    (∃ (m : Fin 33) (i : Fin 8) (s : State),
    s.hubRuns = true ∧
    s.host.perst = false ∧
    (s.mbox m).busy.getLsbD i = false) ∧
    (∃ (m : Fin 33) (v : DWord) (s : State),
    s.hubRuns = true ∧
    s.host.perst = false) ∧
    (∃ (m : Fin 33) (v : DWord) (s : State),
    s.hubRuns = true ∧
    s.host.perst = false) ∧
    (∃ (m : Fin 33) (f : MbFin) (rest : List MbFin) (s : State),
    s.hubRuns = true ∧
    (s.mbox m).fin = f :: rest ∧
    ((s.mbox m).cqTail + 1) % 32 ≠ (s.mbox m).cqHead ∧
    fld f.compl 4 0 16 ≠ 4) ∧
    (∃ (f : MbFin) (rest : List MbFin) (s : State),
    s.hubRuns = true ∧
    (s.mbox 33).fin = f :: rest ∧
    fld f.compl 4 0 16 ≠ 4) ∧
    (∃ (m : Fin 33) (e : Event) (rest : List Event) (s : State),
    s.hubRuns = true ∧
    s.events = e :: rest ∧
    e.mailboxes = [m.val] ∧
    ((s.mbox m).eqTail + 1) % 32 ≠ (s.mbox m).eqHead) :=
  ⟨⟨32, 7, { up with host := hostOn }, by decide +kernel, by decide +kernel, by decide +kernel⟩,
    ⟨32, 31, { up with host := hostOn }, by decide +kernel, by decide +kernel⟩,
    ⟨32, 31, { up with host := hostOn }, by decide +kernel, by decide +kernel⟩,
    ⟨32, { slot := 7, compl := 0, irq := true, frees := true, data := [] }, [],
      { up with mailboxes := [(32, { Mailbox.reset with fin := [{ slot := 7, compl := 0, irq := true, frees := true, data := [] }] })] },
      by decide +kernel, by decide +kernel, by decide +kernel, by decide +kernel⟩,
    ⟨{ slot := 7, compl := 0, irq := true, frees := true, data := [] }, [],
      { up with mailboxes := [(33, { Mailbox.reset with fin := [{ slot := 7, compl := 0, irq := true, frees := true, data := [] }] })] },
      by decide +kernel, by decide +kernel, by decide +kernel⟩,
    ⟨32, { type := 1, content := [], mailboxes := [32] }, [],
      { up with events := [{ type := 1, content := [], mailboxes := [32] }] }, by decide +kernel, by decide +kernel,
      by decide +kernel, by decide +kernel⟩⟩

theorem witness_MailboxReads :
    (∃ (m : Fin 34) (c : MbCmd) (s : State),
    s.mbFirst m 1 c) ∧
    (∃ (m : Fin 34) (c : MbCmd) (s : State),
    s.mbFirst m 2 c ∧
    s.mbAbsent m = false ∧
    paramModule (fld c.img 16 0 16) = true) ∧
    (∃ (m : Fin 34) (c : MbCmd) (x : Part) (s : State),
    s.mbFirst m 2 c ∧
    s.mbAbsent m = false ∧
    paramModule (fld c.img 16 0 16) = false ∧
    s.part? (mbPartition c.img) = some x) ∧
    (∃ (m : Fin 34) (c : MbCmd) (s : State),
    s.mbFirst m 4 c ∧
    s.mbAbsent m = false) ∧
    (∃ (m : Fin 34) (c : MbCmd) (s : State),
    s.mbFirst m 0x100 c ∧
    m.val = 0 ∧
    fld c.img 16 0 32 = 0xFFFFFFFF) ∧
    (∃ (m : Fin 34) (c : MbCmd) (s : State),
    s.mbFirst m 0x101 c) ∧
    (∃ (m : Fin 34) (c : MbCmd) (s : State),
    s.mbFirst m 0x102 c ∧
    s.mbAbsent m = false) ∧
    (∃ (m : Fin 34) (c : MbCmd) (s : State),
    s.mbFirst m 0x103 c ∧
    fld c.img 20 0 8 = 1) ∧
    (∃ (m : Fin 34) (c : MbCmd) (s : State),
    s.mbFirst m 0x104 c) ∧
    (∃ (m : Fin 34) (c : MbCmd) (s : State),
    s.mbFirst m 0x404 c) :=
  ⟨⟨33, mb 1 0 [], mbx 33 (mb 1 0 []), by unfold State.mbFirst; decide +kernel⟩,
    ⟨33, mb 2 0 [(16, 0x0F03)], mbx 33 (mb 2 0 [(16, 0x0F03)]), by unfold State.mbFirst; decide +kernel, by decide +kernel,
      by decide +kernel⟩,
    ⟨33, mb 2 31 [(16, 0x0501)], part [(255, 0)], mbx 33 (mb 2 31 [(16, 0x0501)]) (p31 id (own 0)),
      by unfold State.mbFirst; decide +kernel, by decide +kernel, by decide +kernel, by decide +kernel⟩,
    ⟨33, mb 4 0 [], mbx 33 (mb 4 0 []), by unfold State.mbFirst; decide +kernel, by decide +kernel⟩,
    ⟨0, mb 0x100 0 [(16, 0xFFFFFFFF)], mbx 0 (mb 0x100 0 [(16, 0xFFFFFFFF)]), by unfold State.mbFirst; decide +kernel,
      by decide +kernel, by decide +kernel⟩,
    ⟨33, mb 0x101 0 [], mbx 33 (mb 0x101 0 []), by unfold State.mbFirst; decide +kernel⟩,
    ⟨33, mb 0x102 0 [], mbx 33 (mb 0x102 0 []), by unfold State.mbFirst; decide +kernel, by decide +kernel⟩,
    ⟨33, mb 0x103 0 [(20, 1)], mbx 33 (mb 0x103 0 [(20, 1)]), by unfold State.mbFirst; decide +kernel, by decide +kernel⟩,
    ⟨33, mb 0x104 0 [], mbx 33 (mb 0x104 0 []), by unfold State.mbFirst; decide +kernel⟩,
    ⟨33, mb 0x404 0 [], mbx 33 (mb 0x404 0 []), by unfold State.mbFirst; decide +kernel⟩⟩

theorem witness_MailboxSettings :
    (∃ (m : Fin 34) (c : MbCmd) (x : Part) (s : State),
    s.mbFirst m 3 c ∧
    paramModule (fld c.img 16 0 16) = false ∧
    s.part? (mbPartition c.img) = some x) ∧
    (∃ (m : Fin 34) (c : MbCmd) (s : State),
    s.mbFirst m 3 c ∧
    paramModule (fld c.img 16 0 16) = true ∧
    fld c.img 16 0 16 ∉ [0x0402, 0x0600, 0x0601, 0x0800, 0x0806, 0x0F00]) ∧
    (∃ (m : Fin 34) (c : MbCmd) (s : State),
    s.mbFirst m 3 c ∧
    fld c.img 16 0 16 ∈ [0x0402, 0x0600, 0x0601, 0x0800] ∧
    s.parts ≠ []) ∧
    (∃ (m : Fin 34) (c : MbCmd) (s : State),
    s.mbFirst m 0x400 c) ∧
    (∃ (m : Fin 34) (c : MbCmd) (k : Nat) (s : State),
    s.mbFirst m 0x401 c ∧
    k < fld c.img 18 0 8) ∧
    (∃ (m : Fin 34) (c : MbCmd) (s : State),
    s.mbFirst m 0x402 c) ∧
    (∃ (m : Fin 34) (c : MbCmd) (s : State),
    s.mbFirst m 0x403 c ∧
    (s.link (fld c.img 16 0 8)).enable = false) :=
  ⟨⟨33, mb 3 31 [(16, 0x0501)], part [(255, 0)], mbx 33 (mb 3 31 [(16, 0x0501)]) (p31 id (own 0)),
    by unfold State.mbFirst; decide +kernel, by decide +kernel, by decide +kernel⟩,
    ⟨33, mb 3 0 [(16, 0x0F03)], mbx 33 (mb 3 0 [(16, 0x0F03)]), by unfold State.mbFirst; decide +kernel, by decide +kernel,
      by decide +kernel⟩,
    ⟨33, mb 3 0 [(16, 0x0402)], mbx 33 (mb 3 0 [(16, 0x0402)]) (p31 id (own 0)), by unfold State.mbFirst; decide +kernel,
      by decide +kernel, by decide +kernel⟩,
    ⟨33, mb 0x400 0 [], mbx 33 (mb 0x400 0 []), by unfold State.mbFirst; decide +kernel⟩,
    ⟨33, mb 0x401 0 [(18, 255)], 254, mbx 33 (mb 0x401 0 [(18, 255)]), by unfold State.mbFirst; decide +kernel,
      by decide +kernel⟩,
    ⟨33, mb 0x402 0 [], mbx 33 (mb 0x402 0 []), by unfold State.mbFirst; decide +kernel⟩,
    ⟨33, mb 0x403 0 [(16, 95)], mbx 33 (mb 0x403 0 [(16, 95)]) (lnk { FLink.reset with enable := false }),
      by unfold State.mbFirst; decide +kernel, by decide +kernel⟩⟩

theorem witness_HostMemory :
    (∃ (a : Nat) (s : State),
    s.hdmReach a = true ∧
    s.life.state = .ready ∧
    (∀ w ∈ s.host.biWaits, w.hostRead ≠ some (a / 64, .uncached))) ∧
    (∃ (a : Nat) (use : HostCacheUse) (dec : Decoded) (s : State),
    s.hdmReach a = true ∧
    s.life.state = .ready ∧
    use ≠ .uncached ∧
    (∀ w ∈ s.host.biWaits, w.hostRead ≠ some (a / 64, use)) ∧
    s.host.way? (a / 64) = none ∧
    s.host.freeWay (a / 64) = none) ∧
    (∃ (a : Nat) (use : HostCacheUse) (w : Nat) (s : State),
    s.hdmReach a = true ∧
    s.life.state = .ready ∧
    use ≠ .uncached ∧
    (∀ w ∈ s.host.biWaits, w.hostRead ≠ some (a / 64, use)) ∧
    s.host.way? (a / 64) = none ∧
    s.host.freeWay (a / 64) = some w) ∧
    (∃ (a : Nat) (use : HostCacheUse) (dec : Decoded) (s : State),
    s.hdmReach a = true ∧
    s.life.state = .moduleReset) ∧
    (∃ (a : Nat) (data : List Byte) (i : Nat) (s : State),
    Memory.wf s.mem.dram ∧
    data.length = 64 ∧
    a % 64 = 0 ∧
    s.hdmReach a = true ∧
    s.hdmReach (a + 63) = true ∧
    a < s.mem.map.size ∧
    s.life.state = .ready ∧
    s.chan (s.dramChannel a) ≠ .unbacked ∧
    i < 64) ∧
    (∃ (line : Nat) (w : BiWait) (s : State),
    s.host.biWaits.find? (fun w => w.line == line) = some w ∧
    w.inv = true) ∧
    (∃ (line : Nat) (w : BiWait) (s : State),
    s.host.biWaits.find? (fun w => w.line == line && !w.expired) = some w ∧
    w.hostRead = none) ∧
    (∃ (a : Nat) (s : State),
    s.hostUp = true ∧
    s.life.powered = true ∧
    s.life.frozen = false) :=
  ⟨⟨268435455, hdmSt hostOn, by decide +kernel, by decide +kernel, (fun _ h => nomatch h)⟩,
    ⟨268435455, .exclusive, .clean, hdmSt sfFull, by decide +kernel, by decide +kernel, by decide +kernel,
      (fun _ h => nomatch h), by decide +kernel, by decide +kernel⟩,
    ⟨268435455, .exclusive, 0, hdmSt hostOn, by decide +kernel, by decide +kernel, by decide +kernel, (fun _ h => nomatch h),
      by decide +kernel, by decide +kernel⟩,
    ⟨268435455, .exclusive, .clean, { hdmSt hostOn with life := { up.life with state := .moduleReset } }, by decide +kernel,
      by decide +kernel⟩,
    ⟨268435392, List.replicate 64 255, 63, hdmSt hostOn, by decide +kernel, by decide +kernel, by decide +kernel,
      by decide +kernel, by decide +kernel, by decide +kernel, by decide +kernel, by decide +kernel, by decide +kernel⟩,
    ⟨4194303, { line := 4194303, inv := true, hostRead := none, since := 0, expired := false },
      { up with host := { hostOn with biWaits := [{ line := 4194303, inv := true, hostRead := none, since := 0, expired := false }] } },
      by decide +kernel, by decide +kernel⟩,
    ⟨4194303, { line := 4194303, inv := true, hostRead := none, since := 0, expired := false },
      { up with host := { hostOn with biWaits := [{ line := 4194303, inv := true, hostRead := none, since := 0, expired := false }] } },
      by decide +kernel, by decide +kernel⟩,
    ⟨268435455, hdmSt hostOn, by decide +kernel, by decide +kernel, by decide +kernel⟩⟩

theorem witness_HostLink :
    (∃ (rate : HostRate) (width : Nat) (s : State),
    s.life.powered = true ∧
    s.life.frozen = false ∧
    s.host.perst = false ∧
    (s.region (30 * 16 + 2)).gone = false) ∧
    (∃ (base k ways gran : Nat) (s : State),
    s.host.linkUp = true ∧
    s.host.perst = false ∧
    s.host.hdmCommitted = false ∧
    ways ∈ [1, 2, 4, 8] ∧
    gran ∈ [256, 512, 1024, 2048, 4096, 8192, 16384] ∧
    0 < k ∧
    base % 268435456 = 0) ∧
    (∃ (base size ways gran : Nat) (s : State),
    s.host.linkUp = true ∧
    s.host.perst = false) ∧
    (∃ (op : Half) (payload : List Byte) (s : State),
    s.host.linkUp = true ∧
    s.host.perst = false ∧
    s.life.powered = true ∧
    s.life.frozen = false) ∧
    (∃ (x : SpdmSession) (slot : Byte) (key : BitVec 256) (s : State),
    s.hubRuns = true ∧
    x ∈ s.fw.sessions ∧
    x.finished = true) ∧
    (∃ (x : SpdmSession) (slot : Byte) (s : State),
    s.hubRuns = true ∧
    x ∈ s.fw.sessions ∧
    x.finished = true ∧
    (∃ k ∈ s.host.ideKeys, k.2.1 = slot.toNat)) ∧
    (∃ (v : Fin 67) (s : State),
    s.host.linkUp = true ∧
    s.host.perst = false ∧
    s.host.msixEnable = true ∧
    s.host.msixMask = false ∧
    s.life.frozen = false ∧
    s.host.vecPending = [v.val]) :=
  ⟨⟨.gt64, 16,
    { up with host := { hostOn with linkUp := false }, power := { PowerSt.reset with state := [(30 * 16 + 2, .on)] } },
    by decide +kernel, by decide +kernel, by decide +kernel, by decide +kernel⟩,
    ⟨268435456, 1, 8, 16384, { up with host := hostOn }, by decide +kernel, by decide +kernel, by decide +kernel,
      by decide +kernel, by decide +kernel, by decide +kernel, by decide +kernel⟩,
    ⟨1, 1, 3, 100, { up with host := hostOn }, by decide +kernel, by decide +kernel⟩,
    ⟨0xFFFF, [], { up with host := hostOn }, by decide +kernel, by decide +kernel, by decide +kernel, by decide +kernel⟩,
    ⟨{ id := 1, finished := true, keyGen := 0 }, 255, 1,
      { up with fw := { FwSt.reset with sessions := [{ id := 1, finished := true, keyGen := 0 }] } }, by decide +kernel,
      by decide +kernel, by decide +kernel⟩,
    ⟨{ id := 1, finished := true, keyGen := 0 }, 255,
      { up with host := { hostOn with ideKeys := [(0, 255, 1)] }, fw := { FwSt.reset with sessions := [{ id := 1, finished := true, keyGen := 0 }] } },
      by decide +kernel, by decide +kernel, by decide +kernel, ⟨(0, 255, 1), by decide +kernel, rfl⟩⟩,
    ⟨66, { up with host := { hostOn with msixEnable := true, vecPending := [66] } }, by decide +kernel, by decide +kernel,
      by decide +kernel, by decide +kernel, by decide +kernel, by decide +kernel⟩⟩

theorem witness_Partitions :
    (∃ (m : Fin 34) (c : MbCmd) (s : State),
    let p := mbPartition c.img
    let w := fld c.img 22 0 6 + 1
    let h := fld c.img 23 0 3 + 1
    s.mbFirst m 0x300 c ∧
    s.mbRoom m ∧
    s.part? p = none ∧
    s.resourcesTaken p (fld c.img 20 0 6) (fld c.img 21 0 3) w h (BitVec.ofNat 256 (fld c.img 32 0 256)) (payloadDram c.img) = false ∧
    s.sitesFor (w * h) = true) ∧
    (∃ (m : Fin 34) (c : MbCmd) (x : Part) (s : State),
    s.mbFirst m 0x300 c ∧
    s.part? (mbPartition c.img) = some x) ∧
    (∃ (m : Fin 34) (c : MbCmd) (x : Part) (s : State),
    let p := mbPartition c.img
    let h := fld c.img 23 0 3 + 1
    let banks := BitVec.ofNat 256 (fld c.img 32 0 256)
    s.mbFirst m 0x301 c ∧
    s.mbRoom m ∧
    s.part? p = some x ∧
    x.inStep = false ∧
    x.idle = true ∧
    x.jobTag = BitVec.ofNat 32 (fld c.img 16 0 32) ∧
    s.resourcesTaken p x.x0 x.y0 x.w h (banks &&& ~~~x.staging) (payloadDram c.img) = false ∧
    s.sitesFor (x.w * h - x.w * x.h) = true) ∧
    (∃ (m : Fin 34) (c : MbCmd) (x : Part) (s : State),
    s.mbFirst m 0x301 c ∧
    s.part? (mbPartition c.img) = some x ∧
    x.inStep = true) ∧
    (∃ (m : Fin 34) (c : MbCmd) (x : Part) (s : State),
    s.mbFirst m 0x302 c ∧
    s.mbRoom m ∧
    s.part? (mbPartition c.img) = some x) ∧
    (∃ (m : Fin 34) (c : MbCmd) (x : Part) (s : State),
    let st := fld c.img 16 0 2
    s.mbFirst m 0x303 c ∧
    s.part? (mbPartition c.img) = some x ∧
    (x.stream st).open_ = false ∧
    flag c.img 17 0 = true ∧
    flag c.img 17 1 = true) ∧
    (∃ (m : Fin 34) (c : MbCmd) (x : Part) (s : State),
    s.mbFirst m 0x303 c ∧
    s.part? (mbPartition c.img) = some x ∧
    (x.stream (fld c.img 16 0 2)).open_ = true) ∧
    (∃ (m : Fin 34) (c : MbCmd) (x : Part) (s : State),
    let st := fld c.img 16 0 2
    s.mbFirst m 0x304 c ∧
    s.mbRoom m ∧
    s.part? (mbPartition c.img) = some x ∧
    (x.stream st).open_ = true ∧
    ((s.mbOnPart (mbPartition c.img)).any fun e => e.2.accepted && mbOp e.2.img == 0x304 && fld e.2.img 16 0 2 == st) = false ∧
    (∀ d ∈ (s.mbox m).running, d.order ≠ c.order)) ∧
    (∃ (m : Fin 34) (c : MbCmd) (x : Part) (s : State),
    let st := fld c.img 16 0 2
    s.mbFirst m 0x305 c ∧
    s.part? (mbPartition c.img) = some x ∧
    (x.stream st).open_ = true ∧
    (x.stream st).stopped = true ∧
    (x.stream st).closing = false) ∧
    (∃ (m : Fin 34) (c : MbCmd) (x : Part) (s : State),
    s.mbFirst m 0x305 c ∧
    s.part? (mbPartition c.img) = some x ∧
    (x.stream (fld c.img 16 0 2)).stopped = false) :=
  ⟨⟨33, mb 0x300 31 [(20, 63), (21, 7)], mbx 33 (mb 0x300 31 [(20, 63), (21, 7)]), by unfold State.mbFirst; decide +kernel,
    by unfold State.mbRoom; decide +kernel, by decide +kernel, by decide +kernel, by decide +kernel⟩,
    ⟨33, mb 0x300 31 [], part [(255, 0)], mbx 33 (mb 0x300 31 []) (p31 id (own 0)), by unfold State.mbFirst; decide +kernel,
      by decide +kernel⟩,
    ⟨33, mb 0x301 31 [(16, 7), (22, 1), (23, 1)], part [(255, 0)],
      mbx 33 (mb 0x301 31 [(16, 7), (22, 1), (23, 1)]) (p31 id (own 0)), by unfold State.mbFirst; decide +kernel,
      by unfold State.mbRoom; decide +kernel, by decide +kernel, by decide +kernel, by decide +kernel, by decide +kernel,
      by decide +kernel, by decide +kernel⟩,
    ⟨33, mb 0x301 31 [], { part [(255, 0)] with stepOpen := true },
      mbx 33 (mb 0x301 31 []) (p31 (fun x => { x with stepOpen := true }) (own 0)), by unfold State.mbFirst; decide +kernel,
      by decide +kernel, by decide +kernel⟩,
    ⟨33, mb 0x302 31 [], part [(255, 0)], mbx 33 (mb 0x302 31 []) (p31 id (own 0)), by unfold State.mbFirst; decide +kernel,
      by unfold State.mbRoom; decide +kernel, by decide +kernel⟩,
    ⟨33, mb 0x303 31 [(16, 3), (17, 3)], part [(255, 0)], mbx 33 (mb 0x303 31 [(16, 3), (17, 3)]) (p31 id (own 0)),
      by unfold State.mbFirst; decide +kernel, by decide +kernel, by decide +kernel, by decide +kernel, by decide +kernel⟩,
    ⟨33, mb 0x303 31 [(16, 3)], strP (opened [] []), mbx 33 (mb 0x303 31 [(16, 3)]) (strS (opened [] [])),
      by unfold State.mbFirst; decide +kernel, by decide +kernel, by decide +kernel⟩,
    ⟨33, mb 0x304 31 [(16, 3)], strP (opened [] []), mbx 33 (mb 0x304 31 [(16, 3)]) (strS (opened [] [])),
      by unfold State.mbFirst; decide +kernel, by unfold State.mbRoom; decide +kernel, by decide +kernel, by decide +kernel,
      by decide +kernel, by decide +kernel⟩,
    ⟨33, mb 0x305 31 [(16, 3)], strP { opened [] [] with stopped := true },
      mbx 33 (mb 0x305 31 [(16, 3)]) (strS { opened [] [] with stopped := true }), by unfold State.mbFirst; decide +kernel,
      by decide +kernel, by decide +kernel, by decide +kernel, by decide +kernel⟩,
    ⟨33, mb 0x305 31 [(16, 3)], strP (opened [] []), mbx 33 (mb 0x305 31 [(16, 3)]) (strS (opened [] [])),
      by unfold State.mbFirst; decide +kernel, by decide +kernel, by decide +kernel⟩⟩

theorem witness_Catalogue :
    (∃ (m : Fin 34) (c : MbCmd) (x : Part) (s : State),
    let p := mbPartition c.img
    let e := dirEntry c.img 0
    s.mbFirst m 0x306 c ∧
    s.part? p = some x ∧
    s.mem.catWaiting = [] ∧
    s.catHeld c.img = false ∧
    fld c.img 18 0 8 = 1 ∧
    fld e 0 0 2 ≠ 2 ∧
    (fld (Tbl.getD s.mem.directory (fld c.img 16 0 16) 0) 0 0 2 = 0 ∨ fld (Tbl.getD s.mem.directory (fld c.img 16 0 16) 0) 1 0 5 = p)) ∧
    (∃ (m : Fin 34) (c : MbCmd) (x : Part) (s : State),
    let p := mbPartition c.img
    let r := BitVec.ofNat 512 (fld c.img 24 0 512)
    s.mbFirst m 0x307 c ∧
    s.part? p = some x ∧
    s.mem.catWaiting = [] ∧
    s.catHeld c.img = false ∧
    (flag (Tbl.getD s.mem.records (fld c.img 16 0 16) 0) 0 0 = false ∨ fld (Tbl.getD s.mem.records (fld c.img 16 0 16) 0) 3 0 5 = p) ∧
    (∀ l, recordList r = some l → (s.foreignLists p).any (rangeMeets l) = false)) ∧
    (∃ (m : Fin 34) (c : MbCmd) (x : Part) (s : State),
    s.mbFirst m 0x307 c ∧
    s.part? (mbPartition c.img) = some x ∧
    s.mem.catWaiting = [] ∧
    s.catHeld c.img = false ∧
    flag (Tbl.getD s.mem.records (fld c.img 16 0 16) 0) 0 0 = true ∧
    fld (Tbl.getD s.mem.records (fld c.img 16 0 16) 0) 3 0 5 ≠ mbPartition c.img) ∧
    (∃ (m : Fin 34) (c : MbCmd) (x : Part) (s : State),
    s.mbFirst m 0x307 c ∧
    s.part? (mbPartition c.img) = some x ∧
    s.mem.catWaiting = [] ∧
    s.catHeld c.img = true) ∧
    (∃ (m : Fin 34) (c : MbCmd) (x : Part) (k : Nat) (s : State),
    let p := mbPartition c.img
    s.mbFirst m 0x308 c ∧
    s.part? p = some x ∧
    s.mem.catWaiting = [] ∧
    s.catHeld c.img = false ∧
    (s.foreignLists p).any (rangeMeets (fld c.img 16 0 32, fld c.img 20 0 8)) = false ∧
    k < fld c.img 20 0 8) ∧
    (∃ (m : Nat) (c : MbCmd) (rest : List (Nat × MbCmd)) (x : Part) (s : State),
    let r := BitVec.ofNat 512 (fld c.img 24 0 512)
    s.hubRuns = true ∧
    s.mem.catWaiting = (m, c) :: rest ∧
    s.catHeld c.img = false ∧
    mbOp c.img = 0x307 ∧
    s.part? (mbPartition c.img) = some x ∧
    flag (Tbl.getD s.mem.records (fld c.img 16 0 16) 0) 0 0 = false ∧
    recordList r = none) ∧
    (∃ (m : Fin 34) (c : MbCmd) (x : Part) (k : Nat) (s : State),
    let o := fld c.img 16 0 16
    let n := fld c.img 18 0 16
    s.mbFirst m 0x30C c ∧
    s.part? (mbPartition c.img) = some x ∧
    o ≠ 0xFFFF ∧
    o + n ≤ 8192 ∧
    (∀ i, i < n → Tbl.get? s.mem.objOwner (o + i) = none) ∧
    k < n) ∧
    (∃ (m : Fin 34) (c : MbCmd) (x : Part) (k : Nat) (s : State),
    let o := fld c.img 16 0 16
    let n := fld c.img 18 0 16
    s.mbFirst m 0x30D c ∧
    s.part? (mbPartition c.img) = some x ∧
    s.mem.modWaits = [] ∧
    (∀ i, i < n → Tbl.get? s.mem.objOwner (o + i) = some (mbPartition c.img)) ∧
    k < n) ∧
    (∃ (m : Fin 34) (c : MbCmd) (x : Part) (k : Nat) (s : State),
    s.mbFirst m 0x30D c ∧
    s.part? (mbPartition c.img) = some x ∧
    k < fld c.img 18 0 16 ∧
    Tbl.get? s.mem.objOwner (fld c.img 16 0 16 + k) ≠ some (mbPartition c.img)) :=
  ⟨⟨33, mb 0x306 31 [(16, 16383), (18, 1)], part [(255, 0)], mbx 33 (mb 0x306 31 [(16, 16383), (18, 1)]) (p31 id (own 0)),
    by unfold State.mbFirst; decide +kernel, by decide +kernel, by decide +kernel, by decide +kernel, by decide +kernel,
    by decide +kernel, by decide +kernel⟩,
    ⟨33, mb 0x307 31 [(16, 0x3FFE), (24, 1)], part [(255, 0)], mbx 33 (mb 0x307 31 [(16, 0x3FFE), (24, 1)]) (p31 id (own 0)),
      by unfold State.mbFirst; decide +kernel, by decide +kernel, by decide +kernel, by decide +kernel, by decide +kernel,
      (fun _ h => absurd h (by rw [show recordList (BitVec.ofNat 512 (fld (mb 0x307 31 [(16, 0x3FFE), (24, 1)]).img 24 0 512)) = none from by decide +kernel]; exact nofun))⟩,
    ⟨33, mb 0x307 31 [(16, 5)], part [(255, 0)],
      mbx 33 (mb 0x307 31 [(16, 5)]) { p31 id (own 0) with mem := { MemSt.reset with records := [(5, 1)] } },
      by unfold State.mbFirst; decide +kernel, by decide +kernel, by decide +kernel, by decide +kernel, by decide +kernel,
      by decide +kernel⟩,
    ⟨33, mb 0x307 31 [(16, 5)], part [(255, 0)],
      mbx 33 (mb 0x307 31 [(16, 5)]) { p31 id (own 0) with reconfs := [{ rec_ 31 with record := 5 }] },
      by unfold State.mbFirst; decide +kernel, by decide +kernel, by decide +kernel, by decide +kernel⟩,
    ⟨33, mb 0x308 31 [(16, 5), (20, 54)], part [(255, 0)], 53, mbx 33 (mb 0x308 31 [(16, 5), (20, 54)]) (p31 id (own 0)),
      by unfold State.mbFirst; decide +kernel, by decide +kernel, by decide +kernel, by decide +kernel, by decide +kernel,
      by decide +kernel⟩,
    ⟨33, mb 0x307 31 [(16, 5)], [], part [(255, 0)],
      { p31 id (own 0) with mem := { MemSt.reset with catWaiting := [(33, mb 0x307 31 [(16, 5)])] } }, by decide +kernel,
      by decide +kernel, by decide +kernel, by decide +kernel, by decide +kernel, by decide +kernel, by decide +kernel⟩,
    ⟨33, mb 0x30C 31 [(16, 8190), (18, 2)], part [(255, 0)], 1, mbx 33 (mb 0x30C 31 [(16, 8190), (18, 2)]) (p31 id (own 0)),
      by unfold State.mbFirst; decide +kernel, by decide +kernel, by decide +kernel, by decide +kernel, by decide +kernel,
      by decide +kernel⟩,
    ⟨33, mb 0x30D 31 [(16, 8191), (18, 1)], part [(255, 0)], 0,
      mbx 33 (mb 0x30D 31 [(16, 8191), (18, 1)]) { p31 id (own 0) with mem := { MemSt.reset with objOwner := [(8191, 31)] } },
      by unfold State.mbFirst; decide +kernel, by decide +kernel, by decide +kernel, by decide +kernel, by decide +kernel⟩,
    ⟨33, mb 0x30D 31 [(16, 8191), (18, 1)], part [(255, 0)], 0, mbx 33 (mb 0x30D 31 [(16, 8191), (18, 1)]) (p31 id (own 0)),
      by unfold State.mbFirst; decide +kernel, by decide +kernel, by decide +kernel, by decide +kernel⟩⟩

theorem witness_StreamFetching :
    (∃ (p : Fin 32) (st : Fin 4) (x : Part) (bs : List Byte) (i : Instr) (s : State),
    (i = .streamFetch p st true ∨ i = .streamPoll p st true) ∧
    s.part? p = some x ∧
    (x.stream st).open_ = true ∧
    (x.stream st).stopped = false ∧
    (x.stream st).closing = false ∧
    s.streamsRun x = true ∧
    (x.stream st).ringHost = true ∧
    s.hostGet ((x.stream st).ring.toNat + 64 * ((x.stream st).fetched % 2 ^ (x.stream st).sizeLog2)) 64 = some bs) ∧
    (∃ (p : Fin 32) (st : Fin 4) (x : Part) (i : Instr) (s : State),
    (i = .streamFetch p st false ∨ i = .streamPoll p st false) ∧
    s.part? p = some x ∧
    (x.stream st).open_ = true ∧
    (x.stream st).stopped = false ∧
    (x.stream st).closing = false ∧
    s.streamsRun x = true ∧
    (x.stream st).ringHost = true) ∧
    (∃ (p : Fin 32) (st : Fin 4) (x : Part) (s : State),
    s.part? p = some x ∧
    (x.stream st).statusDue = true ∧
    s.running = true ∧
    s.life.failingHub = false ∧
    (x.stream st).statusHost = true ∧
    s.hostUp = true ∧
    Memory.wf s.host.mem) ∧
    (∃ (p : Fin 32) (st : Fin 4) (x : Part) (c : SCmd) (s : State),
    s.part? p = some x ∧
    s.streamsRun x = true ∧
    (x.stream st).open_ = true ∧
    (x.stream st).stopped = false ∧
    (x.stream st).closing = false ∧
    (x.stream st).waiting.head? = some c ∧
    streamOpcode c.op = false) ∧
    (∃ (p : Fin 32) (st : Fin 4) (x : Part) (c : SCmd) (k : Chk) (s : State),
    s.part? p = some x ∧
    s.streamsRun x = true ∧
    (x.stream st).open_ = true ∧
    (x.stream st).stopped = false ∧
    (x.stream st).closing = false ∧
    (x.stream st).waiting.head? = some c ∧
    streamOpcode c.op = true ∧
    firstBad c.body.toNat (c.checks p st) = some k) ∧
    (∃ (p : Fin 32) (st : Fin 4) (x : Part) (c : SCmd) (h u : Nat) (s : State),
    s.nextCmd p st x c ∧
    memOpcode c.op = true ∧
    s.unitForStream = some (h, u)) :=
  ⟨⟨31, 3, strP (opened [] []), List.replicate 64 0, .streamPoll 31 3 true, { strS (opened [] []) with host := hostOn },
    Or.inr rfl, by decide +kernel, by decide +kernel, by decide +kernel, by decide +kernel, by decide +kernel,
    by decide +kernel, by decide +kernel⟩,
    ⟨31, 3, strP (opened [] []), .streamFetch 31 3 false, { strS (opened [] []) with host := hostOn }, Or.inl rfl,
      by decide +kernel, by decide +kernel, by decide +kernel, by decide +kernel, by decide +kernel, by decide +kernel⟩,
    ⟨31, 3, strP { opened [] [] with statusDue := true, statusHost := true },
      { strS { opened [] [] with statusDue := true, statusHost := true } with host := hostOn }, by decide +kernel,
      by decide +kernel, by decide +kernel, by decide +kernel, by decide +kernel, by decide +kernel,
      by unfold Memory.wf; decide +kernel⟩,
    ⟨31, 3, strP (opened [scm [(0, 0x7F)]] []), scm [(0, 0x7F)], strS (opened [scm [(0, 0x7F)]] []), by decide +kernel,
      by decide +kernel, by decide +kernel, by decide +kernel, by decide +kernel, by decide +kernel, by decide +kernel⟩,
    ⟨31, 3, strP (opened [scm [(0, 0x80), (3, 1)]] []), scm [(0, 0x80), (3, 1)],
      (firstBad (scm [(0, 0x80), (3, 1)]).body.toNat ((scm [(0, 0x80), (3, 1)]).checks 31 3)).get (by decide +kernel),
      strS (opened [scm [(0, 0x80), (3, 1)]] []), by decide +kernel, by decide +kernel, by decide +kernel, by decide +kernel,
      by decide +kernel, by decide +kernel, by decide +kernel, (Option.some_get _).symm⟩,
    ⟨31, 3, strP (opened [scm [(0, 1)]] []), scm [(0, 1)], 0, 0, strS (opened [scm [(0, 1)]] []),
      by unfold State.nextCmd; decide +kernel, by decide +kernel, by decide +kernel⟩⟩

theorem witness_StreamCommands :
    (∃ (p : Fin 32) (st : Fin 4) (x : Part) (c : SCmd) (s : State),
    s.nextCmd p st x c ∧
    c.op = 0x80 ∧
    x.stepOpen = false) ∧
    (∃ (p : Fin 32) (st : Fin 4) (x : Part) (c : SCmd) (s : State),
    s.nextCmd p st x c ∧
    c.op = 0x80 ∧
    x.stepOpen = true) ∧
    (∃ (p : Fin 32) (st : Fin 4) (x : Part) (c : SCmd) (s : State),
    s.nextCmd p st x c ∧
    c.op = 0x81 ∧
    x.stepOpen = true ∧
    x.step.toNat = fld c.img 4 0 32) ∧
    (∃ (p : Fin 32) (st : Fin 4) (x : Part) (c : SCmd) (s : State),
    s.nextCmd p st x c ∧
    c.op = 0x82) ∧
    (∃ (p : Fin 32) (st : Fin 4) (x : Part) (c : SCmd) (s : State),
    let r := Tbl.getD s.mem.records (fld c.img 4 0 14) 0
    s.nextCmd p st x c ∧
    c.op = 0x83) ∧
    (∃ (p : Fin 32) (st : Fin 4) (x : Part) (c : SCmd) (g e k : Nat) (bs : List Byte) (s : State),
    s.nextCmd p st x c ∧
    c.op = 0x84 ∧
    fld c.img 4 0 12 = 0 ∧
    Tbl.get? x.posAtoll (fld c.img 3 0 8) = some g ∧
    (s.atoll g).inReset = false ∧
    s.unitRuns g = true ∧
    s.hostClear ∧
    s.readMem (some p) (fld c.img 8 0 40) 64 = (s, stOk, k, bs) ∧
    s.engineFor g (fld c.img 2 0 2) = some e ∧
    ((s.atoll g).engine e).queue.length < 4 ∧
    (x.stream st).started = []) ∧
    (∃ (p : Fin 32) (st : Fin 4) (x : Part) (c : SCmd) (s : State),
    s.nextCmd p st x c ∧
    c.op = 0x85 ∧
    x.idle = true) ∧
    (∃ (p : Fin 32) (st : Fin 4) (x : Part) (c d : SCmd) (u : Fin 4) (s : State),
    s.nextCmd p st x c ∧
    c.op = 0x85 ∧
    fld c.img 2 u 1 = 1 ∧
    d ∈ (x.stream u).started ∧
    s.mem.modWaits = []) ∧
    (∃ (p : Fin 32) (st : Fin 4) (x : Part) (c : SCmd) (s : State),
    s.nextCmd p st x c ∧
    c.op = 0x86 ∧
    fld c.img 2 0 2 = 0 ∧
    flag c.img 1 0 = false ∧
    s.mem.modWaits = []) ∧
    (∃ (p : Fin 32) (st : Fin 4) (x : Part) (c : SCmd) (s : State),
    s.nextCmd p st x c ∧
    c.op = 0x86 ∧
    fld c.img 2 0 2 = 1 ∧
    fld c.img 15 6 2 = 2 ∧
    flag c.img 1 0 = false ∧
    s.mem.modWaits = []) ∧
    (∃ (p : Fin 32) (st : Fin 4) (x : Part) (c : SCmd) (s : State),
    s.nextCmd p st x c ∧
    c.op = 0x86 ∧
    fld c.img 2 0 2 = 2 ∧
    s.mem.modWaits = [] ∧
    0 < s.pparam p 0x0501) ∧
    (∃ (p : Fin 32) (st : Fin 4) (x : Part) (c : SCmd) (s : State),
    s.nextCmd p st x c ∧
    c.op = 0x87) ∧
    (∃ (p : Fin 32) (st : Fin 4) (x : Part) (c : SCmd) (s : State),
    s.nextCmd p st x c ∧
    c.op = 0x89 ∧
    flag c.img 2 0 = true ∧
    s.hostUp = true ∧
    Memory.wf s.host.mem) ∧
    (∃ (p : Fin 32) (st : Fin 4) (x : Part) (c : SCmd) (s : State),
    s.nextCmd p st x c ∧
    c.op = 0x8A ∧
    flag c.img 2 0 = true ∧
    s.hostUp = true ∧
    Memory.wf s.host.mem) :=
  ⟨⟨31, 3, strP (opened [scm [(0, 0x80)]] []), scm [(0, 0x80)], strS (opened [scm [(0, 0x80)]] []),
    by unfold State.nextCmd; decide +kernel, by decide +kernel, by decide +kernel⟩,
    ⟨31, 3, { strP (opened [scm [(0, 0x80)]] []) with stepOpen := true }, scm [(0, 0x80)],
      p31 (fun _ => { strP (opened [scm [(0, 0x80)]] []) with stepOpen := true }) (own 0),
      by unfold State.nextCmd; decide +kernel, by decide +kernel, by decide +kernel⟩,
    ⟨31, 3, { strP (opened [scm [(0, 0x81)]] []) with stepOpen := true }, scm [(0, 0x81)],
      p31 (fun _ => { strP (opened [scm [(0, 0x81)]] []) with stepOpen := true }) (own 0),
      by unfold State.nextCmd; decide +kernel, by decide +kernel, by decide +kernel, by decide +kernel⟩,
    ⟨31, 3, strP (opened [scm [(0, 0x82)]] []), scm [(0, 0x82)], strS (opened [scm [(0, 0x82)]] []),
      by unfold State.nextCmd; decide +kernel, by decide +kernel⟩,
    ⟨31, 3, strP (opened [scm [(0, 0x83)]] []), scm [(0, 0x83)], strS (opened [scm [(0, 0x83)]] []),
      by unfold State.nextCmd; decide +kernel, by decide +kernel⟩,
    ⟨31, 3, batchP, scm [(0, 0x84), (3, 255), (8, 64)], 0, 0, (batchS.readMem (some 31) 64 64).2.2.1,
      (batchS.readMem (some 31) 64 64).2.2.2, batchS, by unfold State.nextCmd; decide +kernel, by decide +kernel,
      by decide +kernel, by decide +kernel, by decide +kernel, by decide +kernel, by unfold State.hostClear; decide +kernel,
      by decide +kernel, by decide +kernel, by decide +kernel, by decide +kernel⟩,
    ⟨31, 3, strP (opened [scm [(0, 0x85)]] []), scm [(0, 0x85)], strS (opened [scm [(0, 0x85)]] []),
      by unfold State.nextCmd; decide +kernel, by decide +kernel, by decide +kernel⟩,
    ⟨31, 3, { part [(255, 0)] with streams := [(2, opened [] [scm [(0, 0x85)]]), (3, opened [scm [(0, 0x85), (2, 4)]] [])] },
      scm [(0, 0x85), (2, 4)], { scm [(0, 0x85)] with idx := 4 }, 2,
      p31 (fun _ => { part [(255, 0)] with streams := [(2, opened [] [scm [(0, 0x85)]]), (3, opened [scm [(0, 0x85), (2, 4)]] [])] }) (own 0),
      by unfold State.nextCmd; decide +kernel, by decide +kernel, by decide +kernel, by decide +kernel, by decide +kernel⟩,
    ⟨31, 3, strP (opened [scm [(0, 0x86), (8, 8191), (15, 128)]] []), scm [(0, 0x86), (8, 8191), (15, 128)],
      { strS (opened [scm [(0, 0x86), (8, 8191), (15, 128)]] []) with mem := { MemSt.reset with objOwner := [(8191, 31)] } },
      by unfold State.nextCmd; decide +kernel, by decide +kernel, by decide +kernel, by decide +kernel, by decide +kernel⟩,
    ⟨31, 3, strP (opened [scm [(0, 0x86), (2, 1), (8, 8191), (15, 128)]] []), scm [(0, 0x86), (2, 1), (8, 8191), (15, 128)],
      { strS (opened [scm [(0, 0x86), (2, 1), (8, 8191), (15, 128)]] []) with mem := { MemSt.reset with objOwner := [(8191, 31)] } },
      by unfold State.nextCmd; decide +kernel, by decide +kernel, by decide +kernel, by decide +kernel, by decide +kernel,
      by decide +kernel⟩,
    ⟨31, 3, strP (opened [scm [(0, 0x86), (2, 2), (8, 8191), (15, 128)]] []), scm [(0, 0x86), (2, 2), (8, 8191), (15, 128)],
      { strS (opened [scm [(0, 0x86), (2, 2), (8, 8191), (15, 128)]] []) with mem := { MemSt.reset with objOwner := [(8191, 31)] } },
      by unfold State.nextCmd; decide +kernel, by decide +kernel, by decide +kernel, by decide +kernel, by decide +kernel⟩,
    ⟨31, 3, strP (opened [scm [(0, 0x87), (44, 0x3F800000)]] []), scm [(0, 0x87), (44, 0x3F800000)],
      strS (opened [scm [(0, 0x87), (44, 0x3F800000)]] []), by unfold State.nextCmd; decide +kernel, by decide +kernel⟩,
    ⟨31, 3, strP (opened [scm [(0, 0x89), (2, 1)]] []), scm [(0, 0x89), (2, 1)],
      { strS (opened [scm [(0, 0x89), (2, 1)]] []) with host := hostOn }, by unfold State.nextCmd; decide +kernel,
      by decide +kernel, by decide +kernel, by decide +kernel, by unfold Memory.wf; decide +kernel⟩,
    ⟨31, 3, strP (opened [scm [(0, 0x8A), (2, 1)]] []), scm [(0, 0x8A), (2, 1)],
      { strS (opened [scm [(0, 0x8A), (2, 1)]] []) with host := hostOn }, by unfold State.nextCmd; decide +kernel,
      by decide +kernel, by decide +kernel, by decide +kernel, by unfold Memory.wf; decide +kernel⟩⟩

theorem witness_PowerAndReset :
    (∃ (b : BringUp) (s : State),
    s.life.state = .off ∧
    s.mgmt.modResetLow = false) ∧
    (∃ (b : BringUp) (s : State),
    s.life.state = .off ∧
    s.mgmt.modResetLow = true) ∧
    (∃ (s : State),
    s.life.state ≠ .off ∧
    s.life.state ≠ .tripped) ∧
    (∃ (s : State),
    s.life.powered = true ∧
    (∃ e ∈ s.power.temp, 920 ≤ e.2.toInt)) ∧
    (∃ (b : BringUp) (counted : Bool) (since : DWord) (s : State),
    s.flt.resetPending = some (counted, since) ∧
    s.life.powered = true ∧
    s.life.state = .ready ∧
    s.life.frozen = false ∧
    s.flt.fatal = false ∧
    s.flt.dump = none ∧
    s.mgmt.modResetLow = false) ∧
    (∃ (s : State),
    s.mgmt.modResetLow = false ∧
    s.life.powered = true) ∧
    (∃ (b : BringUp) (s : State),
    s.life.state = .moduleReset ∧
    s.life.frozen = false ∧
    s.life.tests = none) ∧
    (∃ (b : BringUp) (s : State),
    s.life.state = .stopped ∧
    s.life.powered = false) ∧
    (∃ (s : State),
    s.mgmt.modResetLow = true ∧
    s.life.state ≠ .off) :=
  ⟨⟨bu, State.reset, by decide +kernel, by decide +kernel⟩,
    ⟨bu, { State.reset with mgmt := { MgmtSt.reset with modResetLow := true } }, by decide +kernel, by decide +kernel⟩,
    ⟨up, by decide +kernel, by decide +kernel⟩,
    ⟨pwr { PowerSt.reset with temp := [(505, 920)] }, by decide +kernel, by decide +kernel⟩,
    ⟨bu, false, 0, fltSt { FaultSt.reset with resetPending := some (false, 0) }, by decide +kernel, by decide +kernel,
      by decide +kernel, by decide +kernel, by decide +kernel, by decide +kernel, by decide +kernel⟩,
    ⟨up, by decide +kernel, by decide +kernel⟩,
    ⟨bu, { up with life := { up.life with state := .moduleReset } }, by decide +kernel, by decide +kernel, by decide +kernel⟩,
    ⟨bu, { State.reset with life := { LifeSt.reset with state := .stopped } }, by decide +kernel, by decide +kernel⟩,
    ⟨{ up with mgmt := { MgmtSt.reset with modResetLow := true } }, by decide +kernel, by decide +kernel⟩⟩

theorem witness_BringUpEnds :
    (∃ (b : BringUp) (s : State),
    s.life.tests = some b ∧
    (s.life.state = .bringup ∨ s.life.state = .moduleReset) ∧
    s.life.frozen = false ∧
    s.ticks = true ∧
    s.mgmt.resetHeld = false ∧
    (∀ e ∈ b.failingUnits, uKind e.1 ≠ 14)) ∧
    (∃ (core : FwCore) (sealOk : Bool) (x : FwCoreSt) (s : State),
    s.life.state = .bringup ∧
    s.life.frozen = false ∧
    s.life.tests.isSome = true ∧
    Tbl.getD s.fw.cores (fwCoreNum core) { blocks := 0, asks := 0, running := false, failed := false } = x ∧
    x.running = false ∧
    x.failed = false) ∧
    (∃ (core : FwCore) (last sealOk : Bool) (x : FwCoreSt) (s : State),
    s.life.state = .bringup ∧
    s.life.frozen = false ∧
    s.life.tests.isSome = true ∧
    Tbl.getD s.fw.cores (fwCoreNum core) { blocks := 0, asks := 0, running := false, failed := false } = x ∧
    x.running = false ∧
    x.failed = false) ∧
    (∃ (i : FwInfo) (s : State),
    let b := 1 - s.life.activeHub
    s.hubRuns = true ∧
    s.life.usable = 3 ∧
    s.life.standby = false ∧
    s.fw.activation = none ∧
    s.life.activeHub < 2 ∧
    (s.fwHub s.life.activeHub).running.version ≠ (s.fwHub b).running.version ∧
    (s.fwHub b).booted < 2 ∧
    ((s.fwHub s.life.activeHub).slot (s.fwHub s.life.activeHub).booted).info = some i ∧
    (s.fwHub b).floor ≤ i.security ∧
    i.version = (s.fwHub s.life.activeHub).running.version) ∧
    (∃ (core : FwCore) (h : Fin 2) (key : BitVec 256) (s : State),
    s.life.powered = true ∧
    s.life.frozen = false) :=
  ⟨⟨bu, booting, by decide +kernel, by decide +kernel, by decide +kernel, by decide +kernel, by decide +kernel,
    (fun _ h => nomatch h)⟩,
    ⟨.manager 31, true, { blocks := 0, asks := 0, running := false, failed := false }, booting, by decide +kernel,
      by decide +kernel, by decide +kernel, by decide +kernel, by decide +kernel, by decide +kernel⟩,
    ⟨.scalar 319 1, true, true, { blocks := 0, asks := 0, running := false, failed := false }, booting, by decide +kernel,
      by decide +kernel, by decide +kernel, by decide +kernel, by decide +kernel, by decide +kernel⟩,
    ⟨FwInfo.factory,
      { fwUp { FwSt.reset with hubs := [(1, { FwHub.reset with running := { FwInfo.factory with version := 1 } })] } with life := { up.life with standby := false } },
      by decide +kernel, by decide +kernel, by decide +kernel, by decide +kernel, by decide +kernel, by decide +kernel,
      by decide +kernel, by decide +kernel, by decide +kernel, by decide +kernel⟩,
    ⟨.manager 31, 1, 1, up, by decide +kernel, by decide +kernel⟩⟩

theorem witness_PowerDelivery :
    (∃ (node : Fin 32) (r : Fin 13) (phase : Fin 9) (s : State),
    let key := node.val * 16 + r.val
    let lost := Tbl.getD s.power.lost key 0 ||| BitVec.ofNat 9 (2 ^ phase.val)
    s.life.powered = true ∧
    phase.val < (phasesOf key).1 ∧
    (Tbl.getD s.power.lost key 0).getLsbD phase = false ∧
    ¬(r.val = 2 ∧ node.val = 30)) ∧
    (∃ (d : Fin 8) (r : Fin 10) (ma : Half) (s : State),
    let key := d.val * 16 + r.val
    (s.region key).powered = true ∧
    Tbl.getD s.power.lost key 0 ≠ 0 ∧
    6000 < ma.toNat) ∧
    (∃ (node : Fin 32) (r : Fin 13) (s : State),
    let key := node.val * 16 + r.val
    s.life.powered = true ∧
    (phasesOf key).1 ≠ 0 ∧
    s.region key = .off ∧
    s.life.frozen = false ∧
    .region key 0 ∉ s.power.queue) ∧
    (∃ (node : Fin 32) (r : Fin 13) (level : Fin 4) (s : State),
    let key := node.val * 16 + r.val
    s.life.powered = true ∧
    (phasesOf key).1 ≠ 0 ∧
    s.life.frozen = false ∧
    keyLogic key = true ∧
    (s.region key).powered = true) ∧
    (∃ (k st step : Nat) (rest : List LedgerReq) (s : State),
    s.power.queue = .region k st :: rest ∧
    s.life.powered = true ∧
    s.life.frozen = false ∧
    s.power.ramping.length < s.param 0x0F03 ∧
    s.fits (.region k st) = some step ∧
    (∀ n ∈ edgeAdjacent k, s.drawsHigh n = false)) ∧
    (∃ (k st step n : Nat) (rest : List LedgerReq) (s : State),
    s.power.queue = .region k st :: rest ∧
    s.life.powered = true ∧
    s.life.frozen = false ∧
    s.power.ramping.length < s.param 0x0F03 ∧
    s.fits (.region k st) = some step ∧
    n ∈ edgeAdjacent k ∧
    s.drawsHigh n = true) ∧
    (∃ (node : Fin 32) (r : Fin 13) (stage : Nat) (s : State),
    let key := node.val * 16 + r.val
    s.power.ramping.find? (fun e => e.1 == key) = some (key, stage) ∧
    s.life.frozen = false) ∧
    (∃ (dw : Half) (below : Bool) (s : State),
    s.life.powered = true ∧
    s.life.frozen = false) :=
  ⟨⟨31, 1, 5, up, by decide +kernel, by decide +kernel, by decide +kernel, by decide +kernel⟩,
    ⟨7, 9, 6001, pwr { PowerSt.reset with state := [(121, .on)], lost := [(121, 1)] }, by decide +kernel, by decide +kernel,
      by decide +kernel⟩,
    ⟨30, 2, up, by decide +kernel, by decide +kernel, by decide +kernel, by decide +kernel, by decide +kernel⟩,
    ⟨7, 9, 3, pwr { PowerSt.reset with state := [(121, .on)] }, by decide +kernel, by decide +kernel, by decide +kernel,
      by decide +kernel, by decide +kernel⟩,
    ⟨121, 3, 3, [], pwr { PowerSt.reset with queue := [.region 121 3] }, by decide +kernel, by decide +kernel,
      by decide +kernel, by decide +kernel, by decide +kernel, by decide +kernel⟩,
    ⟨121, 3, 3, 120, [], pwr { PowerSt.reset with queue := [.region 121 3], current := [(120, 1)] }, by decide +kernel,
      by decide +kernel, by decide +kernel, by decide +kernel, by decide +kernel, by decide +kernel, by decide +kernel⟩,
    ⟨7, 9, 3, pwr { PowerSt.reset with ramping := [(121, 3)] }, by decide +kernel, by decide +kernel⟩,
    ⟨1, true, up, by decide +kernel, by decide +kernel⟩⟩

theorem witness_HeatAndAgeing :
    (∃ (node : Fin 32) (r : Fin 13) (v : BitVec 12) (cool : Bool) (s : State),
    let key := node.val * 16 + r.val
    s.life.powered = true ∧
    s.life.frozen = false ∧
    keyLogic key = true ∧
    (s.region key).powered = true ∧
    8 * (s.param 0x0F01 : Int) ≤ v.toInt) ∧
    (∃ (node : Fin 32) (r : Fin 13) (v : BitVec 12) (s : State),
    let key := node.val * 16 + r.val
    s.life.powered = true ∧
    (phasesOf key).1 ≠ 0 ∧
    v.toInt < 8 * (s.param 0x0F01 : Int)) ∧
    (∃ (node : Fin 32) (r : Fin 13) (s : State),
    let key := node.val * 16 + r.val
    s.life.powered = true ∧
    s.life.frozen = false ∧
    840 ≤ (Tbl.getD s.power.temp key 0).toInt ∧
    s.throttled key = true ∧
    s.flt.fatal = false) ∧
    (∃ (node : Fin 32) (r : Fin 13) (a b : Word) (s : State),
    let key := node.val * 16 + r.val
    (s.region key).powered = true ∧
    s.life.frozen = false ∧
    keyLogic key = true) ∧
    (∃ (c : Fin 5) (s : State),
    s.life.powered = true ∧
    s.power.converters.getLsbD c = true) ∧
    (∃ (node : Fin 32) (r : Fin 13) (slack : Nat) (s : State),
    let key := node.val * 16 + r.val
    (s.region key).powered = true ∧
    s.life.frozen = false) ∧
    (∃ (s : State),
    s.life.powered = true ∧
    s.life.frozen = false ∧
    s.power.slack = []) ∧
    (∃ (key sl : Nat) (s : State),
    s.life.powered = true ∧
    s.life.frozen = false ∧
    key ∈ allRegions ∧
    s.power.slack = [(key, sl)] ∧
    sl < 4 ∧
    Tbl.getD s.power.setpoint key (regionWindow key (s.stepNow key)).1 + 5 ≤ (regionWindow key (s.stepNow key)).2) :=
  ⟨⟨7, 9, 1000, false, pwr { PowerSt.reset with state := [(121, .on)] }, by decide +kernel, by decide +kernel,
    by decide +kernel, by decide +kernel, by decide +kernel⟩,
    ⟨31, 1, 0, up, by decide +kernel, by decide +kernel, by decide +kernel⟩,
    ⟨31, 1, pwr { PowerSt.reset with temp := [(497, 840)] }, by decide +kernel, by decide +kernel, by decide +kernel,
      by decide +kernel, by decide +kernel⟩,
    ⟨7, 9, 1, 0, pwr { PowerSt.reset with state := [(121, .on)] }, by decide +kernel, by decide +kernel, by decide +kernel⟩,
    ⟨4, up, by decide +kernel, by decide +kernel⟩,
    ⟨7, 9, 0, pwr { PowerSt.reset with state := [(121, .on)] }, by decide +kernel, by decide +kernel⟩,
    ⟨up, by decide +kernel, by decide +kernel, by decide +kernel⟩,
    ⟨121, 3, pwr { PowerSt.reset with slack := [(121, 3)] }, by decide +kernel, by decide +kernel, by decide +kernel,
      by decide +kernel, by decide +kernel, by decide +kernel⟩⟩

theorem witness_FirmwareUpdate :
    (∃ (m : Fin 34) (c : MbCmd) (bs : List Byte) (h : Nat) (s : State),
    s.mbFirst m 0x500 c ∧
    s.mbRoom m ∧
    s.fw.activation = none ∧
    s.fw.session = none ∧
    flag c.img 32 0 = true ∧
    flag c.img 32 1 = false ∧
    s.hostGet (fld c.img 16 0 64) (fld c.img 28 0 32) = some bs ∧
    h ∈ s.stageHubs) ∧
    (∃ (m : Fin 34) (c : MbCmd) (s : State),
    s.mbFirst m 0x500 c ∧
    s.fw.activation.isSome = true) ∧
    (∃ (m : Fin 34) (c : MbCmd) (i : FwInfo) (s : State),
    s.activateFirst m 0 c ∧
    s.mbRoom m ∧
    s.fw.activation = none ∧
    s.fw.staged = some i ∧
    s.life.state = .ready ∧
    s.life.usable.getLsbD (1 - s.life.activeHub) = true ∧
    s.flt.dump = none ∧
    s.fw.session = none ∧
    i.meets s.fwActive = true ∧
    i.scalar ∈ s.scalarsHeld) ∧
    (∃ (m : Fin 34) (c : MbCmd) (i : FwInfo) (s : State),
    s.activateFirst m 1 c ∧
    s.fw.activation = none ∧
    s.fw.staged = some i) ∧
    (∃ (m : Fin 34) (c : MbCmd) (i : FwInfo) (s : State),
    s.activateFirst m 2 c ∧
    s.mbRoom m ∧
    s.fw.activation = none ∧
    s.fw.staged = some i) ∧
    (∃ (m : Fin 34) (c : MbCmd) (r : Instr) (mode : Nat) (s : State),
    (r, mode) ∈ [(.fwActivateHitless m, 0), (.fwActivateReset m, 1), (.fwActivateDeferred m, 2)] ∧
    s.activateFirst m mode c ∧
    s.fw.activation = none ∧
    s.fw.staged = none) ∧
    (∃ (m : Fin 34) (c : MbCmd) (s : State),
    s.activateFirst m 3 c ∧
    s.mbRoom m ∧
    s.fw.activation = none ∧
    s.life.usable = 3 ∧
    (s.fwHub 0).running = (s.fwHub 1).running ∧
    (s.fwHub 0).floor < (s.fwHub 0).running.security ∧
    (s.fwHub 1).floor < (s.fwHub 1).running.security) ∧
    (∃ (m : Fin 34) (c : MbCmd) (s : State),
    s.mbFirst m 0x502 c) ∧
    (∃ (a : Activation) (s : State),
    let b := 1 - s.life.activeHub
    s.hubRuns = true ∧
    s.life.usable.getLsbD b = true ∧
    s.life.standby = false ∧
    s.fw.activation = some a ∧
    a.step = 1) ∧
    (∃ (a : Activation) (s : State),
    s.hubRuns = true ∧
    s.fw.activation = some a ∧
    a.step = 2 ∧
    s.life.standby = true ∧
    s.life.activeHub < 2) ∧
    (∃ (node : Fin 32) (a : Activation) (rest : List Nat) (s : State),
    s.hubRuns = true ∧
    s.fw.activation = some a ∧
    a.step = 6 ∧
    a.todo = node.val :: rest ∧
    s.quietDie node = true) ∧
    (∃ (node : Fin 32) (a : Activation) (rest : List Nat) (s : State),
    s.hubRuns = true ∧
    s.fw.activation = some a ∧
    a.step = 6 ∧
    a.todo = node.val :: rest ∧
    s.quietDie node = true ∧
    node.val < 30 ∧
    node.val ∉ s.flt.mgrFenced) ∧
    (∃ (node : Fin 32) (a : Activation) (x : Nat) (rest : List Nat) (s : State),
    s.hubRuns = true ∧
    s.fw.activation = some a ∧
    a.step = 6 ∧
    a.todo = node.val :: x :: rest ∧
    s.quietDie node = false) :=
  ⟨⟨33, mb 0x500 0 [(32, 1), (28, 64)], List.replicate 64 0, 1,
    mbx 33 (mb 0x500 0 [(32, 1), (28, 64)]) { up with host := hostOn }, by unfold State.mbFirst; decide +kernel,
    by unfold State.mbRoom; decide +kernel, by decide +kernel, by decide +kernel, by decide +kernel, by decide +kernel,
    by decide +kernel, by decide +kernel⟩,
    ⟨33, mb 0x500 0 [], mbx 33 (mb 0x500 0 []) (fwUp { FwSt.reset with activation := some (act 1 []) }),
      by unfold State.mbFirst; decide +kernel, by decide +kernel⟩,
    ⟨33, mb 0x501 0 [], FwInfo.factory, mbx 33 (mb 0x501 0 []) (fwUp { FwSt.reset with staged := some FwInfo.factory }),
      by unfold State.activateFirst; decide +kernel, by unfold State.mbRoom; decide +kernel, by decide +kernel,
      by decide +kernel, by decide +kernel, by decide +kernel, by decide +kernel, by decide +kernel, by decide +kernel,
      by decide +kernel⟩,
    ⟨33, mb 0x501 0 [(16, 1)], FwInfo.factory,
      mbx 33 (mb 0x501 0 [(16, 1)]) (fwUp { FwSt.reset with staged := some FwInfo.factory }),
      by unfold State.activateFirst; decide +kernel, by decide +kernel, by decide +kernel⟩,
    ⟨33, mb 0x501 0 [(16, 2)], FwInfo.factory,
      mbx 33 (mb 0x501 0 [(16, 2)]) (fwUp { FwSt.reset with staged := some FwInfo.factory }),
      by unfold State.activateFirst; decide +kernel, by unfold State.mbRoom; decide +kernel, by decide +kernel,
      by decide +kernel⟩,
    ⟨33, mb 0x501 0 [(16, 2)], .fwActivateDeferred 33, 2, mbx 33 (mb 0x501 0 [(16, 2)]), by decide +kernel,
      by unfold State.activateFirst; decide +kernel, by decide +kernel, by decide +kernel⟩,
    ⟨33, mb 0x501 0 [(16, 3)], mbx 33 (mb 0x501 0 [(16, 3)]) (fwUp { FwSt.reset with hubs := [(0, secure), (1, secure)] }),
      by unfold State.activateFirst; decide +kernel, by unfold State.mbRoom; decide +kernel, by decide +kernel,
      by decide +kernel, by decide +kernel, by decide +kernel, by decide +kernel⟩,
    ⟨33, mb 0x502 0 [], mbx 33 (mb 0x502 0 []), by unfold State.mbFirst; decide +kernel⟩,
    ⟨act 1 [], { fwUp { FwSt.reset with activation := some (act 1 []) } with life := { up.life with standby := false } },
      by decide +kernel, by decide +kernel, by decide +kernel, by decide +kernel, by decide +kernel⟩,
    ⟨act 2 [], fwUp { FwSt.reset with activation := some (act 2 []) }, by decide +kernel, by decide +kernel, by decide +kernel,
      by decide +kernel, by decide +kernel⟩,
    ⟨31, act 6 [31], [], fwUp { FwSt.reset with activation := some (act 6 [31]) }, by decide +kernel, by decide +kernel,
      by decide +kernel, by decide +kernel, by decide +kernel⟩,
    ⟨29, act 6 [29], [], fwUp { FwSt.reset with activation := some (act 6 [29]) }, by decide +kernel, by decide +kernel,
      by decide +kernel, by decide +kernel, by decide +kernel, by decide +kernel, by decide +kernel⟩,
    ⟨31, act 6 [31, 0], 0, [],
      { fwUp { FwSt.reset with activation := some (act 6 [31, 0]) } with flt := { FaultSt.reset with dump := some (dump true []) } },
      by decide +kernel, by decide +kernel, by decide +kernel, by decide +kernel, by decide +kernel⟩⟩

theorem witness_Attestation :
    (∃ (r : SpdmRequest) (s : State),
    s.hubRuns = true ∧
    r.session = 0) ∧
    (∃ (r : SpdmRequest) (s : State),
    s.spdmOpen r ∧
    s.fw.spdmStage ≠ 0 ∧
    spdmField r 8 4 = 0) ∧
    (∃ (r : SpdmRequest) (s : State),
    s.spdmOpen r ∧
    s.fw.spdmTransfer = 0 ∧
    2 ≤ s.fw.spdmStage ∧
    bits (spdmField r 4 4) 8 1 = 1 ∧
    bits (spdmField r 8 4) 2 1 = 1) ∧
    (∃ (r : SpdmRequest) (i : Instr) (code : Byte) (s : State),
    (i, code) ∈ [(.spdmGetDigests r, 0x01), (.spdmGetCertificate r, 0x02), (.spdmChallenge r, 0x03), (.spdmGetMeasurements r, 0x60)] ∧
    s.spdmOpen r ∧
    s.fw.spdmTransfer = 0 ∧
    3 ≤ s.fw.spdmStage ∧
    r.param1 = 0 ∧
    r.param2.toNat ≤ 6) ∧
    (∃ (r : SpdmRequest) (s : State),
    s.spdmOpen r ∧
    s.fw.spdmTransfer = 0 ∧
    3 ≤ s.fw.spdmStage ∧
    r.param2 = 0) ∧
    (∃ (r : SpdmRequest) (x : SpdmSession) (s : State),
    s.spdmOpen r ∧
    s.fw.spdmTransfer = 0 ∧
    x ∈ s.fw.sessions ∧
    x.id = r.session ∧
    x.finished = false) ∧
    (∃ (r : SpdmRequest) (x : SpdmSession) (s : State),
    s.spdmOpen r ∧
    s.fw.spdmTransfer = 0 ∧
    x ∈ s.fw.sessions ∧
    x.id = r.session ∧
    x.finished = true ∧
    s.param 0x1001 ≠ 0) ∧
    (∃ (r : SpdmRequest) (x : SpdmSession) (s : State),
    s.spdmOpen r ∧
    s.fw.spdmTransfer = 0 ∧
    x ∈ s.fw.sessions ∧
    x.id = r.session ∧
    x.finished = true ∧
    1 ≤ r.param1.toNat ∧
    r.param1.toNat ≤ 3) ∧
    (∃ (r : SpdmRequest) (x : SpdmSession) (s : State),
    s.spdmOpen r ∧
    s.fw.spdmTransfer = 0 ∧
    x ∈ s.fw.sessions ∧
    x.id = r.session ∧
    x.finished = true) ∧
    (∃ (r : SpdmRequest) (s : State),
    s.spdmOpen r ∧
    s.fw.spdmTransfer = 0 ∧
    r.param1.getLsbD 0 = false ∧
    spdmField r 0 2 = 0) ∧
    (∃ (r : SpdmRequest) (bs : List Byte) (s : State),
    s.spdmOpen r ∧
    17 ≤ s.fw.spdmTransfer ∧
    s.fw.chunkOut = some (0, bs) ∧
    spdmField r 0 2 = 0) ∧
    (∃ (r : SpdmRequest) (s : State),
    s.spdmOpen r ∧
    s.fw.spdmTransfer = 0) :=
  ⟨⟨spdm 0 0 0 [], up, by decide +kernel, by decide +kernel⟩,
    ⟨spdm 0 0 0 [], fwUp { FwSt.reset with spdmStage := 1 }, by unfold State.spdmOpen; decide +kernel, by decide +kernel,
      by decide +kernel⟩,
    ⟨spdm 0 0 0 [0, 0, 0, 0, 0, 1, 0, 0, 4, 0, 0, 0], fwUp { FwSt.reset with spdmStage := 2 },
      by unfold State.spdmOpen; decide +kernel, by decide +kernel, by decide +kernel, by decide +kernel, by decide +kernel⟩,
    ⟨spdm 0 0 6 [], .spdmGetMeasurements (spdm 0 0 6 []), 0x60, fwUp { FwSt.reset with spdmStage := 3 }, by decide +kernel,
      by unfold State.spdmOpen; decide +kernel, by decide +kernel, by decide +kernel, by decide +kernel, by decide +kernel⟩,
    ⟨spdm 0 0 0 [], fwUp { FwSt.reset with spdmStage := 3 }, by unfold State.spdmOpen; decide +kernel, by decide +kernel,
      by decide +kernel, by decide +kernel⟩,
    ⟨spdm 1 0 0 [], { id := 1, finished := false, keyGen := 0 },
      fwUp { FwSt.reset with sessions := [{ id := 1, finished := false, keyGen := 0 }] },
      by unfold State.spdmOpen; decide +kernel, by decide +kernel, by decide +kernel, by decide +kernel, by decide +kernel⟩,
    ⟨spdm 1 0 0 [], { id := 1, finished := true, keyGen := 0 },
      { fwUp { FwSt.reset with sessions := [{ id := 1, finished := true, keyGen := 0 }] } with params := [(0x1001, 1)] },
      by unfold State.spdmOpen; decide +kernel, by decide +kernel, by decide +kernel, by decide +kernel, by decide +kernel,
      by decide +kernel⟩,
    ⟨spdm 1 3 0 [], { id := 1, finished := true, keyGen := 0 },
      fwUp { FwSt.reset with sessions := [{ id := 1, finished := true, keyGen := 0 }] },
      by unfold State.spdmOpen; decide +kernel, by decide +kernel, by decide +kernel, by decide +kernel, by decide +kernel,
      by decide +kernel, by decide +kernel⟩,
    ⟨spdm 1 0 0 [], { id := 1, finished := true, keyGen := 0 },
      fwUp { FwSt.reset with sessions := [{ id := 1, finished := true, keyGen := 0 }] },
      by unfold State.spdmOpen; decide +kernel, by decide +kernel, by decide +kernel, by decide +kernel, by decide +kernel⟩,
    ⟨spdm 0 0 0 [], up, by unfold State.spdmOpen; decide +kernel, by decide +kernel, by decide +kernel, by decide +kernel⟩,
    ⟨spdm 0 0 0 [], [1], fwUp { FwSt.reset with spdmTransfer := 17, chunkOut := some (0, [1]) },
      by unfold State.spdmOpen; decide +kernel, by decide +kernel, by decide +kernel, by decide +kernel⟩,
    ⟨spdm 0 0 0 [], up, by unfold State.spdmOpen; decide +kernel, by decide +kernel⟩⟩

theorem witness_ManagementPlane :
    (∃ (r : BitVec 2048) (s : State),
    s.hubRuns = true ∧
    s.mbCheck 33 r = none ∧
    ((mbActsOn 33 r).map s.partResetting).getD false = false ∧
    s.mbExecutorFree 33 = true) ∧
    (∃ (r : BitVec 2048) (st off : Nat) (s : State),
    s.hubRuns = true ∧
    s.mbCheck 33 r = some (st, off)) ∧
    (∃ (type : Byte) (s : State),
    s.mgmtBasic = true ∧
    type.toNat ∉ [0x00, 0x01, 0x05, 0x06, 0x7E]) ∧
    (∃ (eid : Byte) (s : State),
    s.mgmtBasic = true) ∧
    (∃ (tid : Byte) (s : State),
    s.mgmtBasic = true) ∧
    (∃ (type : Byte) (record : Word) (i : Instr) (s : State),
    i ∈ [.getTid, .getPldmTypes, .getPldmCommands type, .getPldmVersion type, .getPdr record] ∧
    s.mgmtServes = true) ∧
    (∃ (enable : Bool) (addr : Byte) (s : State),
    s.mgmtServes = true) ∧
    (∃ (e : PldmEvent) (rest : List PldmEvent) (s : State),
    s.mgmtServes = true ∧
    s.mgmt.queue = e :: rest) ∧
    (∃ (addr : Byte) (e : PldmEvent) (rest : List PldmEvent) (answered : Bool) (s : State),
    s.mgmtServes = true ∧
    s.mgmt.receiver = some addr ∧
    s.mgmt.queue = e :: rest ∧
    e.tries < 4 ∧
    e ∉ rest) ∧
    (∃ (id : Nat) (v y : Int) (s : State),
    s.mgmtServes = true ∧
    100 ≤ id ∧
    id ≤ 103 ∧
    Tbl.get? s.mgmt.sensors id = some y ∧
    y ≠ s.sensorValue id v ∧
    s.mgmt.queue.length < 64) ∧
    (∃ (id : Nat) (v : Int) (s : State),
    s.mgmtServes = true ∧
    id ∈ sensorIds ∧
    s.sensorUp id = false) ∧
    (∃ (payload : List Byte) (s : State),
    s.mgmtServes = true ∧
    s.fw.session = none ∧
    s.fw.activation = none) ∧
    (∃ (payload : List Byte) (n : Nat) (s : State),
    s.mgmtServes = true ∧
    s.fw.session = some (true, n) ∧
    s.mgmt.pldmFw ≠ 0) ∧
    (∃ (i : FwInfo) (s : State),
    s.mgmtServes = true ∧
    s.fw.activation = none ∧
    s.fw.staged = some i) ∧
    (∃ (a : Byte) (s : State),
    s.busUp = true ∧
    s.mgmt.dynAddr = none) ∧
    (∃ (s : State),
    s.busUp = true ∧
    s.mgmt.i3c = false ∧
    s.mgmt.queue ≠ []) :=
  ⟨⟨BitVec.ofNat 2048 1, up, by decide +kernel, by decide +kernel, by decide +kernel, by decide +kernel⟩,
    ⟨BitVec.ofNat 2048 0xFFFF, mbBadOpcode, 0, up, by decide +kernel, by decide +kernel⟩,
    ⟨0x03, up, by decide +kernel, by decide +kernel⟩,
    ⟨8, up, by decide +kernel⟩,
    ⟨1, up, by decide +kernel⟩,
    ⟨0x06, 0, .getPldmVersion 0x06, up, by decide +kernel, by decide +kernel⟩,
    ⟨true, 16, up, by decide +kernel⟩,
    ⟨pev, [], mg { MgmtSt.reset with queue := [pev] }, by decide +kernel, by decide +kernel⟩,
    ⟨16, pev, [], true, mg { MgmtSt.reset with queue := [pev], receiver := some 16 }, by decide +kernel, by decide +kernel,
      by decide +kernel, by decide +kernel, by decide +kernel⟩,
    ⟨100, 0, 0, mg { MgmtSt.reset with sensors := [(100, 0)] }, by decide +kernel, by decide +kernel, by decide +kernel,
      by decide +kernel, by decide +kernel, by decide +kernel⟩,
    ⟨6, 0, up, by decide +kernel, by decide +kernel, by decide +kernel⟩,
    ⟨[], up, by decide +kernel, by decide +kernel, by decide +kernel⟩,
    ⟨[], 0, { fwUp { FwSt.reset with session := some (true, 0) } with mgmt := { MgmtSt.reset with pldmFw := 1 } },
      by decide +kernel, by decide +kernel, by decide +kernel⟩,
    ⟨FwInfo.factory, fwUp { FwSt.reset with staged := some FwInfo.factory }, by decide +kernel, by decide +kernel,
      by decide +kernel⟩,
    ⟨8, up, by decide +kernel, by decide +kernel⟩,
    ⟨mg { MgmtSt.reset with queue := [pev] }, by decide +kernel, by decide +kernel, by decide +kernel⟩⟩

theorem witness_FreezeAndTap :
    (∃ (n : Bool) (s : State),
    s.life.powered = true ∧
    s.life.frozen = false ∧
    s.flt.dump = none) ∧
    (∃ (s : State),
    s.life.powered = true) ∧
    (∃ (s : State),
    s.life.powered = true) ∧
    (∃ (v : DWord) (s : State),
    s.life.powered = true) ∧
    (∃ (s : State),
    s.life.powered = true) ∧
    (∃ (u : Word) (first n : Half) (s : State),
    s.life.powered = true) ∧
    (∃ (u : Word) (next left : Nat) (w : DWord) (s : State),
    s.life.powered = true ∧
    s.mgmt.dbg = some (u, next, left) ∧
    0 < left ∧
    s.dumpSkips u = false ∧
    unitValid u = true ∧
    (s.dumpWords u)[next]? = some w) ∧
    (∃ (u : Word) (next left : Nat) (answered : Bool) (s : State),
    s.life.powered = true ∧
    s.mgmt.dbg = some (u, next, left) ∧
    0 < left ∧
    s.dumpSkips u = true) ∧
    (∃ (s : State),
    s.life.powered = true) ∧
    (∃ (code : Byte) (s : State),
    s.life.powered = true ∧
    code.toNat ∉ [0x01, 0x02, 0x03, 0x10, 0x11, 0x12]) :=
  ⟨⟨true, up, by decide +kernel, by decide +kernel, by decide +kernel⟩,
    ⟨up, by decide +kernel⟩,
    ⟨up, by decide +kernel⟩,
    ⟨1, up, by decide +kernel⟩,
    ⟨up, by decide +kernel⟩,
    ⟨0xFFFFFFFF, 0xFFFF, 1, up, by decide +kernel⟩,
    ⟨siteUnit 319, 0, 1, ((up.dumpWords (siteUnit 319))[0]?).getD 0, mg { MgmtSt.reset with dbg := some (siteUnit 319, 0, 1) },
      by decide +kernel, by decide +kernel, by decide +kernel, by decide +kernel, by decide +kernel, by decide +kernel⟩,
    ⟨siteUnit 319, 0, 1, true,
      { mg { MgmtSt.reset with dbg := some (siteUnit 319, 0, 1) } with flt := { FaultSt.reset with fenced := [siteUnit 319] } },
      by decide +kernel, by decide +kernel, by decide +kernel, by decide +kernel⟩,
    ⟨up, by decide +kernel⟩,
    ⟨0xFF, up, by decide +kernel, by decide +kernel⟩⟩

theorem witness_IdleStepTicks :
    (∃ s : State, s.pending = [] ∧ s.life.powered = true ∧ (s.net.osc0 = true ∨ s.net.osc1 = true)) ∧
    (∃ s : State, s.pending = [] ∧ (s.life.powered = false ∨ (s.net.osc0 = false ∧ s.net.osc1 = false))) :=
  ⟨⟨up, by decide +kernel, by decide +kernel, by decide +kernel⟩, ⟨State.reset, by decide +kernel, by decide +kernel⟩⟩

theorem witness_EveryOtherCommandCompletes : ∃ c : Instr, ∀ r v, c ≠ .registerWrite r v := ⟨.freezeState, nofun⟩

theorem witness_StreamResumeRule :
    ∃ (m : Fin 34) (c : MbCmd) (x : Part) (s : State), s.mbFirst m 0x305 c ∧ s.part? (mbPartition c.img) = some x ∧
      (x.stream (fld c.img 16 0 2)).open_ = true ∧ (x.stream (fld c.img 16 0 2)).stopped = true ∧
      (x.stream (fld c.img 16 0 2)).closing = false :=
  ⟨33, mb 0x305 31 [(16, 3)], strP { opened [] [] with stopped := true },
    mbx 33 (mb 0x305 31 [(16, 3)]) (strS { opened [] [] with stopped := true }), by unfold State.mbFirst; decide +kernel,
    by decide +kernel, by decide +kernel, by decide +kernel, by decide +kernel⟩

/-- The ready module with bank 15 of shoal 15 in a state, owned by partition 31. -/
def bankOf (b : BankState) : State :=
  { p31 (fun x => { x with staging := BitVec.allOnes 256 }) (own 0) with mem := bank15 b }

theorem witness_OffBankRule :
    (∃ (h b : Fin 16) (s : State), s.clocked = true ∧ s.bank h b = .off) ∧
    (∃ (h b : Fin 16) (n : Nat) (who : Option Nat) (s : State), s.bank h b = .off ∧ n < 0x400000 ∧
      s.mem.map.size ≤ 0xF000000000 ∧ ∀ p, who = some p → ∃ x, s.part? p = some x ∧ x.ownsBank h b = true) ∧
    (∃ (h b : Fin 16) (n : Nat) (who : Option Nat) (s : State), (s.bank h b = .closing ∨ s.bank h b = .draining) ∧
      n < 0x400000 ∧ s.mem.map.size ≤ 0xF000000000 ∧
      ∀ p, who = some p → ∃ x, s.part? p = some x ∧ x.ownsBank h b = true) := by
  refine ⟨⟨15, 15, bankOf .off, by decide +kernel, by decide +kernel⟩,
    ⟨15, 15, 0x3FFFFF, some 31, bankOf .off, by decide +kernel, by decide +kernel, by decide +kernel, ?_⟩,
    ⟨15, 15, 0x3FFFFF, some 31, bankOf .draining, by decide +kernel, by decide +kernel, by decide +kernel, ?_⟩⟩ <;>
  · intro p hp
    cases hp
    exact ⟨{ part [(255, 0)] with staging := BitVec.allOnes 256 }, by decide +kernel, by decide +kernel⟩

/-- A module that has tripped. -/
def tripped : State := { State.reset with life := { LifeSt.reset with state := .tripped } }

/-- A ready module with a command waiting. -/
def queued (c : Instr) : State := { up with pending := [c, .freezeState] }

theorem witness_FreezeEdgeRule :
    (∃ s : State, s.life.frozen = true) ∧ (∃ s : State, s.lifeOk ∧ s.life.state = .tripped) ∧
    (∃ s t : State, s.mgmt.modResetLow = true ∧ s.life.state ≠ .off ∧ exec .coldResetRequest s = .next t) ∧
    (∃ (b : BringUp) (s t : State), s.life.state = .off ∧ exec (.powerOn b) s = .next t) :=
  ⟨⟨{ up with life := { up.life with frozen := true } }, by decide +kernel⟩,
    ⟨tripped, by unfold State.lifeOk; decide +kernel, by decide +kernel⟩,
    ⟨mg { MgmtSt.reset with modResetLow := true }, _, by decide +kernel, by decide +kernel, rfl⟩,
    ⟨bu, State.reset, _, by decide +kernel, rfl⟩⟩

theorem witness_QueueIsTakenInOrder : ∃ s t : State, step s = .next t := ⟨queued .freezeState, _, rfl⟩

theorem witness_MemoryStaysCanonical : ∃ s t : State, s.memOk ∧ step s = .next t :=
  ⟨queued .freezeState, _, by unfold State.memOk Memory.wf; decide +kernel, rfl⟩

theorem witness_LifecycleStaysCoherent : ∃ s t : State, s.lifeOk ∧ step s = .next t :=
  ⟨queued .inputOvervoltage, _, by unfold State.lifeOk; decide +kernel, rfl⟩

theorem witness_LocalCountOnlyRestartsAtPower : ∃ s t : State, step s = .next t := ⟨queued .inputOvervoltage, _, rfl⟩

end Sys2Proof.Tests
end

namespace Sys2Proof.Machine

/-! ### Rows that keep the spine

One lemma for each row with branches of its own: it answers a next state, whose queue, local count and lifecycle are those it met.
`exec_keepsSpine` joins them with the rows that are one shared operation. -/

/-- A row answers a next state, with the queue, local count and lifecycle of s. -/
def KeepsSpine (s : State) (o : Host.Outcome State Fault Refusal) : Prop := ∃ t, o = .next t ∧ t.spine = s.spine

@[simp] theorem keepsSpine_next (s t : State) : KeepsSpine s (.next t) ↔ t.spine = s.spine := by
  constructor
  · rintro ⟨u, h, e⟩
    cases h
    exact e
  · exact fun h => ⟨t, rfl, h⟩

theorem KeepsSpine.spine {s t : State} {o : Host.Outcome State Fault Refusal} (h : KeepsSpine s o) (e : o = .next t) :
    t.spine = s.spine := by
  subst e
  exact (keepsSpine_next s t).mp h

@[simp] theorem State.mbRow_keepsSpine (s : State) (m op : Nat) (go : MbCmd → State) (h : ∀ c, (go c).spine = s.spine) :
    KeepsSpine s (s.mbRow m op go) := by
  unfold State.mbRow
  rw [keepsSpine_next]
  split <;> simp [h]

@[simp] theorem State.mbHomeRow_keepsSpine (s : State) (m op : Nat) (go : MbCmd → State) (h : ∀ c, (go c).spine = s.spine) :
    KeepsSpine s (s.mbHomeRow m op go) := by
  refine s.mbRow_keepsSpine m op _ fun c => ?_
  split <;> simp [h]

@[simp] theorem State.mbPartRow_keepsSpine (s : State) (m op : Nat) (go : MbCmd → Nat → Part → State)
    (h : ∀ c p x, (go c p x).spine = s.spine) : KeepsSpine s (s.mbPartRow m op go) := by
  refine s.mbRow_keepsSpine m op _ fun c => ?_
  split <;> simp [h]

@[simp] theorem State.activateRow_keepsSpine (s : State) (m mode : Nat) (go : MbCmd → State)
    (h : ∀ c, (go c).spine = s.spine) : KeepsSpine s (s.activateRow m mode go) := by
  unfold State.activateRow
  rw [keepsSpine_next]
  (repeat' split) <;> simp [h]

/-- A state that an operation answers beside another value keeps the spine that the operation keeps. -/
theorem spine_of_fst {α : Type} {s t : State} {p : State × α} {x : α} (h : p.1.spine = s.spine) (e : p = (t, x)) :
    t.spine = s.spine := by
  subst e
  exact h

@[simp] theorem State.catRow_keepsSpine (s : State) (m op : Nat) (bad : Option Nat) : KeepsSpine s (s.catRow m op bad) := by
  unfold State.catRow
  refine s.mbPartRow_keepsSpine _ _ _ fun c p x => ?_
  (repeat' split) <;> simp

@[simp] theorem execLagoonLoad_keepsSpine (g who addr size sgn dec) (s : State) :
    KeepsSpine s (execLagoonLoad g who addr size sgn dec s) := by
  unfold execLagoonLoad
  (repeat' split) <;> simp

@[simp] theorem execLagoonStore_keepsSpine (g who addr tag data) (s : State) :
    KeepsSpine s (execLagoonStore g who addr tag data s) := by
  unfold execLagoonStore
  (repeat' split) <;> simp

@[simp] theorem execNeighbourRequest_keepsSpine (target source offset req dec) (s : State) :
    KeepsSpine s (execNeighbourRequest target source offset req dec s) := by
  unfold execNeighbourRequest
  dsimp only
  (repeat' split) <;> simp

@[simp] theorem execCacheFill_keepsSpine (g line dec) (s : State) : KeepsSpine s (execCacheFill g line dec s) := by
  unfold execCacheFill
  rw [keepsSpine_next]
  dsimp only
  (repeat' split) <;> try rfl
  refine s.biThen_spine _ _ _ (fun t => State.modAtoll_spine _ _ _) ?_
  (repeat' split) <;> simp

@[simp] theorem execCacheDramTimeout_keepsSpine (g line) (s : State) : KeepsSpine s (execCacheDramTimeout g line s) := by
  unfold execCacheDramTimeout
  dsimp only
  (repeat' split) <;> simp

@[simp] theorem execBayFlushTimeout_keepsSpine (g bay) (s : State) : KeepsSpine s (execBayFlushTimeout g bay s) := by
  unfold execBayFlushTimeout
  dsimp only
  (repeat' split) <;> simp

@[simp] theorem execBayModeChange_keepsSpine (g bay toCache) (s : State) :
    KeepsSpine s (execBayModeChange g bay toCache s) := by
  unfold execBayModeChange
  dsimp only
  (repeat' split) <;> simp

@[simp] theorem execBayModeChangeDone_keepsSpine (g bay) (s : State) : KeepsSpine s (execBayModeChangeDone g bay s) := by
  unfold execBayModeChangeDone
  (repeat' split) <;> simp

@[simp] theorem execMbDoorbell_keepsSpine (m slots) (s : State) : KeepsSpine s (execMbDoorbell m slots s) := by
  unfold execMbDoorbell
  rw [keepsSpine_next]
  split
  · rfl
  refine State.spine_foldl _ _ _ fun t i => ?_
  split <;> simp

@[simp] theorem execMbCqHead_keepsSpine (m head) (s : State) : KeepsSpine s (execMbCqHead m head s) := by
  unfold execMbCqHead
  (repeat' split) <;> simp

@[simp] theorem execMbEqHead_keepsSpine (m head) (s : State) : KeepsSpine s (execMbEqHead m head s) := by
  unfold execMbEqHead
  (repeat' split) <;> simp

@[simp] theorem execCompletionPost_keepsSpine (m) (s : State) : KeepsSpine s (execCompletionPost m s) := by
  unfold execCompletionPost
  dsimp only
  (repeat' split) <;> simp

@[simp] theorem execEventPost_keepsSpine (s : State) : KeepsSpine s (execEventPost s) := by
  unfold execEventPost
  (repeat' split) <;> simp

@[simp] theorem execTopIssue_keepsSpine (g core rd rs1 rs2) (s : State) : KeepsSpine s (execTopIssue g core rd rs1 rs2 s) := by
  unfold execTopIssue
  rw [keepsSpine_next]
  dsimp only
  split
  · rfl
  split
  · simp
  split
  · simp
  split
  · rw [State.modAtoll_spine, s.issueTile_spine _ _ _ _ ‹_›]
  · rfl

@[simp] theorem execTopPoll_keepsSpine (g core rd rs1) (s : State) : KeepsSpine s (execTopPoll g core rd rs1 s) := by
  unfold execTopPoll
  (repeat' split) <;> simp

@[simp] theorem execTessEpoch_keepsSpine (g core rd) (s : State) : KeepsSpine s (execTessEpoch g core rd s) := by
  unfold execTessEpoch
  (repeat' split) <;> simp

@[simp] theorem execTileOpStart_keepsSpine (g e bad) (s : State) : KeepsSpine s (execTileOpStart g e bad s) := by
  unfold execTileOpStart
  dsimp only
  (repeat' split) <;> simp

@[simp] theorem execTileOpComplete_keepsSpine (g e chk) (s : State) : KeepsSpine s (execTileOpComplete g e chk s) := by
  unfold execTileOpComplete
  (repeat' split) <;> simp

@[simp] theorem execMatrixEngineWatchdog_keepsSpine (g e) (s : State) : KeepsSpine s (execMatrixEngineWatchdog g e s) := by
  unfold execMatrixEngineWatchdog
  (repeat' split) <;> simp

@[simp] theorem execBankOpComplete_keepsSpine (g) (s : State) : KeepsSpine s (execBankOpComplete g s) := by
  unfold execBankOpComplete
  dsimp only
  (repeat' split) <;> simp

@[simp] theorem execLaneEntryArrival_keepsSpine (g src) (s : State) : KeepsSpine s (execLaneEntryArrival g src s) := by
  unfold execLaneEntryArrival
  (repeat' split) <;> simp

@[simp] theorem execEpochHoldExpiry_keepsSpine (g src) (s : State) : KeepsSpine s (execEpochHoldExpiry g src s) := by
  unfold execEpochHoldExpiry
  dsimp only
  (repeat' split) <;> simp

@[simp] theorem execQueueHeadToken_keepsSpine (g q) (s : State) : KeepsSpine s (execQueueHeadToken g q s) := by
  unfold execQueueHeadToken
  dsimp only
  (repeat' split) <;> simp

@[simp] theorem execSpillRefill_keepsSpine (g q) (s : State) : KeepsSpine s (execSpillRefill g q s) := by
  unfold execSpillRefill
  dsimp only
  (repeat' split) <;> simp

@[simp] theorem execLaneCreditReturn_keepsSpine (g lane) (s : State) : KeepsSpine s (execLaneCreditReturn g lane s) := by
  unfold execLaneCreditReturn
  dsimp only
  (repeat' split) <;> simp

@[simp] theorem execVecLineRelease_keepsSpine (g v residueOk) (s : State) :
    KeepsSpine s (execVecLineRelease g v residueOk s) := by
  unfold execVecLineRelease
  (repeat' split) <;> simp

@[simp] theorem execVectorOpComplete_keepsSpine (g v) (s : State) : KeepsSpine s (execVectorOpComplete g v s) := by
  unfold execVectorOpComplete
  dsimp only
  (repeat' split) <;> simp

@[simp] theorem execChConnect_keepsSpine (g core rd rs1 rs2) (s : State) :
    KeepsSpine s (execChConnect g core rd rs1 rs2 s) := by
  unfold execChConnect
  dsimp only
  (repeat' split) <;> simp

@[simp] theorem execConnectRequest_keepsSpine (g) (s : State) : KeepsSpine s (execConnectRequest g s) := by
  unfold execConnectRequest
  dsimp only
  (repeat' split) <;> simp

@[simp] theorem execConnectAnswer_keepsSpine (g core) (s : State) : KeepsSpine s (execConnectAnswer g core s) := by
  unfold execConnectAnswer
  dsimp only
  (repeat' split) <;> simp

@[simp] theorem execConnectTimeout_keepsSpine (g core) (s : State) : KeepsSpine s (execConnectTimeout g core s) := by
  unfold execConnectTimeout
  (repeat' split) <;> simp

@[simp] theorem execChSend_keepsSpine (g core rd rs1 rs2) (s : State) : KeepsSpine s (execChSend g core rd rs1 rs2 s) := by
  unfold execChSend
  (repeat' split) <;> simp

@[simp] theorem execChSendTuple_keepsSpine (g core wordsM1 rd rs1 rs2) (s : State) :
    KeepsSpine s (execChSendTuple g core wordsM1 rd rs1 rs2 s) := by
  unfold execChSendTuple
  dsimp only
  (repeat' split) <;> simp

@[simp] theorem execChSendResume_keepsSpine (g core) (s : State) : KeepsSpine s (execChSendResume g core s) := by
  unfold execChSendResume
  rw [keepsSpine_next]
  split
  · split
    · rfl
    split
    · rw [State.coreRet_spine, (s.trySend_spine _ _ _ _ _).sent ‹_›]
    · simp
    · rfl
  · rfl

@[simp] theorem execChannelStall_keepsSpine (g core) (s : State) : KeepsSpine s (execChannelStall g core s) := by
  unfold execChannelStall
  (repeat' split) <;> simp

@[simp] theorem execHandlerDispatch_keepsSpine (g core) (s : State) : KeepsSpine s (execHandlerDispatch g core s) := by
  unfold execHandlerDispatch
  dsimp only
  (repeat' split) <;> simp

@[simp] theorem execChRecv_keepsSpine (g core rd rs1) (s : State) : KeepsSpine s (execChRecv g core rd rs1 s) := by
  unfold execChRecv
  (repeat' split) <;> simp

@[simp] theorem execChHret_keepsSpine (g core) (s : State) : KeepsSpine s (execChHret g core s) := by
  unfold execChHret
  (repeat' split) <;> simp

@[simp] theorem execChQueueDelivery_keepsSpine (g core port) (s : State) :
    KeepsSpine s (execChQueueDelivery g core port s) := by
  unfold execChQueueDelivery
  dsimp only
  (repeat' split) <;> simp

@[simp] theorem execChPortPublish_keepsSpine (g core v) (s : State) : KeepsSpine s (execChPortPublish g core v s) := by
  unfold execChPortPublish
  (repeat' split) <;> simp

@[simp] theorem execChPortUnpublish_keepsSpine (g core v) (s : State) : KeepsSpine s (execChPortUnpublish g core v s) := by
  unfold execChPortUnpublish
  (repeat' split) <;> simp

@[simp] theorem execChClose_keepsSpine (g core v) (s : State) : KeepsSpine s (execChClose g core v s) := by
  unfold execChClose
  (repeat' split) <;> simp

@[simp] theorem execSeqCompletion_keepsSpine (g u) (s : State) : KeepsSpine s (execSeqCompletion g u s) := by
  unfold execSeqCompletion
  dsimp only
  (repeat' split) <;> simp

@[simp] theorem execJoinStarve_keepsSpine (g v) (s : State) : KeepsSpine s (execJoinStarve g v s) := by
  unfold execJoinStarve
  dsimp only
  (repeat' split) <;> simp

@[simp] theorem execMemoryCommandComplete_keepsSpine (h u residueOk) (s : State) :
    KeepsSpine s (execMemoryCommandComplete h u residueOk s) := by
  unfold execMemoryCommandComplete
  dsimp only
  (repeat' split) <;> simp

@[simp] theorem execDmaTimeout_keepsSpine (h u) (s : State) : KeepsSpine s (execDmaTimeout h u s) := by
  unfold execDmaTimeout
  (repeat' split) <;> simp

@[simp] theorem execCodewordReceive_keepsSpine (l cw) (s : State) : KeepsSpine s (execCodewordReceive l cw s) := by
  unfold execCodewordReceive
  dsimp only
  (repeat' split) <;> simp

@[simp] theorem execReplayTimeout_keepsSpine (l) (s : State) : KeepsSpine s (execReplayTimeout l s) := by
  unfold execReplayTimeout
  dsimp only
  (repeat' split) <;> simp

@[simp] theorem execLinkRetryLimit_keepsSpine (l) (s : State) : KeepsSpine s (execLinkRetryLimit l s) := by
  unfold execLinkRetryLimit
  dsimp only
  (repeat' split) <;> simp

@[simp] theorem execLinkCreditTimeout_keepsSpine (l) (s : State) : KeepsSpine s (execLinkCreditTimeout l s) := by
  unfold execLinkCreditTimeout
  dsimp only
  (repeat' split) <;> simp

@[simp] theorem execLaneSignalLoss_keepsSpine (l lane) (s : State) : KeepsSpine s (execLaneSignalLoss l lane s) := by
  unfold execLaneSignalLoss
  dsimp only
  (repeat' split) <;> simp

@[simp] theorem execLaneRetrainDone_keepsSpine (l lane ok) (s : State) : KeepsSpine s (execLaneRetrainDone l lane ok s) := by
  unfold execLaneRetrainDone
  dsimp only
  (repeat' split) <;> simp

@[simp] theorem execLinkTraining_keepsSpine (l lane0 lane1) (s : State) : KeepsSpine s (execLinkTraining l lane0 lane1 s) := by
  unfold execLinkTraining
  (repeat' split) <;> simp

@[simp] theorem execLinkControlSend_keepsSpine (l) (s : State) : KeepsSpine s (execLinkControlSend l s) := by
  unfold execLinkControlSend
  dsimp only
  (repeat' split) <;> simp

@[simp] theorem execLinkControl_keepsSpine (l) (s : State) : KeepsSpine s (execLinkControl l s) := by
  unfold execLinkControl
  dsimp only
  (repeat' split) <;> simp

@[simp] theorem execFabricPacketArrival_keepsSpine (d) (s : State) : KeepsSpine s (execFabricPacketArrival d s) := by
  unfold execFabricPacketArrival
  dsimp only
  (repeat' split) <;> simp

@[simp] theorem execReassemblyTimeout_keepsSpine (d) (s : State) : KeepsSpine s (execReassemblyTimeout d s) := by
  unfold execReassemblyTimeout
  (repeat' split) <;> simp

@[simp] theorem execMcastBranchTimeout_keepsSpine (l) (s : State) : KeepsSpine s (execMcastBranchTimeout l s) := by
  unfold execMcastBranchTimeout
  dsimp only
  (repeat' split) <;> simp

@[simp] theorem execRemoteWriteArrival_keepsSpine (d) (s : State) : KeepsSpine s (execRemoteWriteArrival d s) := by
  unfold execRemoteWriteArrival
  rw [keepsSpine_next]
  dsimp only
  split
  · rfl
  split
  · rfl
  split
  · split <;> simp
  refine (State.biThen_spine _ _ _ _ (fun t => ?_) ?_).trans (s.modStrait_spine _ _)
  · simp
  · split <;> simp

@[simp] theorem execSyncSignalArrival_keepsSpine (d) (s : State) : KeepsSpine s (execSyncSignalArrival d s) := by
  unfold execSyncSignalArrival
  dsimp only
  (repeat' split) <;> simp

@[simp] theorem execTelemetrySample_keepsSpine (d port meas) (s : State) :
    KeepsSpine s (execTelemetrySample d port meas s) := by
  unfold execTelemetrySample
  (repeat' split) <;> simp

@[simp] theorem execCollectiveStart_keepsSpine (s : State) : KeepsSpine s (execCollectiveStart s) := by
  unfold execCollectiveStart
  (repeat' split) <;> simp

@[simp] theorem execCollApex_keepsSpine (d) (s : State) : KeepsSpine s (execCollApex d s) := by
  unfold execCollApex
  rw [keepsSpine_next]
  refine s.collPacket_spine _ _ _ _ fun t c h body => ?_
  dsimp only
  (repeat' split) <;> simp

@[simp] theorem execCollJoin_keepsSpine (d) (s : State) : KeepsSpine s (execCollJoin d s) := by
  unfold execCollJoin
  rw [keepsSpine_next]
  refine s.collPacket_spine _ _ _ _ fun t c h body => ?_
  split <;> simp

@[simp] theorem execCollGrant_keepsSpine (d) (s : State) : KeepsSpine s (execCollGrant d s) := by
  unfold execCollGrant
  rw [keepsSpine_next]
  refine s.collPacket_spine _ _ _ _ fun t c h body => ?_
  dsimp only
  (repeat' split) <;> simp

@[simp] theorem execCollDone_keepsSpine (d) (s : State) : KeepsSpine s (execCollDone d s) := by
  unfold execCollDone
  rw [keepsSpine_next]
  refine s.collPacket_spine _ _ _ _ fun t c h body => ?_
  dsimp only
  split <;> simp

@[simp] theorem execCollData_keepsSpine (d residueOk) (s : State) : KeepsSpine s (execCollData d residueOk s) := by
  unfold execCollData
  rw [keepsSpine_next]
  split
  · simp
  refine s.collPacket_spine _ _ _ _ fun t c h body => ?_
  dsimp only
  (repeat' split) <;> simp

@[simp] theorem execEarlyPoolExpiry_keepsSpine (d) (s : State) : KeepsSpine s (execEarlyPoolExpiry d s) := by
  unfold execEarlyPoolExpiry
  (repeat' split) <;> simp

@[simp] theorem execLocalUpdate_keepsSpine (k bad) (s : State) : KeepsSpine s (execLocalUpdate k bad s) := by
  unfold execLocalUpdate
  rw [keepsSpine_next]
  dsimp only
  have hfold (l : List Nat) (u : State) :
      (l.foldl (fun t i => if ((t.coll? k).map Coll.live).getD false then t.runTile k 0 i else t) u).spine = u.spine :=
    State.spine_foldl _ _ _ fun t i => by split <;> simp
  (repeat' split) <;> simp [hfold]

@[simp] theorem execDensityProfile_keepsSpine (k bad) (s : State) : KeepsSpine s (execDensityProfile k bad s) := by
  unfold execDensityProfile
  rw [keepsSpine_next]
  split
  · rfl
  dsimp only
  split
  · rfl
  refine s.biThen_spine _ _ _ (fun t => by simp) ?_
  (repeat' split) <;> simp

@[simp] theorem execCollTimeout_keepsSpine (k) (s : State) : KeepsSpine s (execCollTimeout k s) := by
  unfold execCollTimeout
  (repeat' split) <;> simp

@[simp] theorem execAck_keepsSpine (d) (s : State) : KeepsSpine s (execAck d s) := by
  unfold execAck
  dsimp only
  (repeat' split) <;> simp

@[simp] theorem execFabricAckTimeout_keepsSpine (d) (s : State) : KeepsSpine s (execFabricAckTimeout d s) := by
  unfold execFabricAckTimeout
  dsimp only
  (repeat' split) <;> simp

@[simp] theorem execMcastClose_keepsSpine (d) (s : State) : KeepsSpine s (execMcastClose d s) := by
  unfold execMcastClose
  dsimp only
  (repeat' split) <;> simp

@[simp] theorem execRegionCurrentDerate_keepsSpine (d r milliamps) (s : State) :
    KeepsSpine s (execRegionCurrentDerate d r milliamps s) := by
  unfold execRegionCurrentDerate
  dsimp only
  (repeat' split) <;> simp

@[simp] theorem execLedgerRequest_keepsSpine (node r target) (s : State) :
    KeepsSpine s (execLedgerRequest node r target s) := by
  unfold execLedgerRequest
  dsimp only
  (repeat' split) <;> simp

@[simp] theorem execLedgerGrant_keepsSpine (s : State) : KeepsSpine s (execLedgerGrant s) := by
  unfold execLedgerGrant
  (repeat' split) <;> simp

@[simp] theorem execLedgerNeighbourWait_keepsSpine (s : State) : KeepsSpine s (execLedgerNeighbourWait s) := by
  unfold execLedgerNeighbourWait
  dsimp only
  (repeat' split) <;> simp

@[simp] theorem execRampStage_keepsSpine (node r) (s : State) : KeepsSpine s (execRampStage node r s) := by
  unfold execRampStage
  dsimp only
  (repeat' split) <;> simp

@[simp] theorem execInputPowerCheck_keepsSpine (deciwatts below10ms) (s : State) :
    KeepsSpine s (execInputPowerCheck deciwatts below10ms s) := by
  unfold execInputPowerCheck
  (repeat' split) <;> simp

@[simp] theorem execThermalSample_keepsSpine (node r eighths cool10ms) (s : State) :
    KeepsSpine s (execThermalSample node r eighths cool10ms s) := by
  unfold execThermalSample
  dsimp only
  (repeat' split) <;> simp

@[simp] theorem execThermal_keepsSpine (node r) (s : State) : KeepsSpine s (execThermal node r s) := by
  unfold execThermal
  dsimp only
  (repeat' split) <;> simp

@[simp] theorem execAgeingSample_keepsSpine (node r slack) (s : State) : KeepsSpine s (execAgeingSample node r slack s) := by
  unfold execAgeingSample
  dsimp only
  (repeat' split) <;> simp

@[simp] theorem execQuery_keepsSpine (m) (s : State) : KeepsSpine s (execQuery m s) := by
  unfold execQuery
  (repeat' split) <;> simp

@[simp] theorem execGetParam_keepsSpine (m) (s : State) : KeepsSpine s (execGetParam m s) := by
  unfold execGetParam
  refine s.mbHomeRow_keepsSpine _ _ _ fun c => ?_
  dsimp only
  (repeat' split) <;> simp

@[simp] theorem execSetParam_keepsSpine (m) (s : State) : KeepsSpine s (execSetParam m s) := by
  unfold execSetParam
  refine s.mbRow_keepsSpine _ _ _ fun c => ?_
  dsimp only
  (repeat' split) <;> simp

@[simp] theorem execSuspectRead_keepsSpine (m) (s : State) : KeepsSpine s (execSuspectRead m s) := by
  unfold execSuspectRead
  refine s.mbHomeRow_keepsSpine _ _ _ fun c => ?_
  split <;> simp

@[simp] theorem execScalarInstruction_keepsSpine (g core chk dec) (s : State) :
    KeepsSpine s (execScalarInstruction g core chk dec s) := by
  unfold execScalarInstruction
  dsimp only
  (repeat' split) <;> simp

@[simp] theorem execSyncWait_keepsSpine (g core rd rs1 rs2) (s : State) : KeepsSpine s (execSyncWait g core rd rs1 rs2 s) := by
  unfold execSyncWait
  (repeat' split) <;> simp

@[simp] theorem execSyncWaitany_keepsSpine (g core rd rs1 rs2) (s : State) :
    KeepsSpine s (execSyncWaitany g core rd rs1 rs2 s) := by
  unfold execSyncWaitany
  dsimp only
  (repeat' split) <;> simp

@[simp] theorem execSyncSignal_keepsSpine (g core rs1 rs2) (s : State) : KeepsSpine s (execSyncSignal g core rs1 rs2 s) := by
  unfold execSyncSignal
  dsimp only
  (repeat' split) <;> simp

@[simp] theorem execSyncArm_keepsSpine (g core rs1 rs2) (s : State) : KeepsSpine s (execSyncArm g core rs1 rs2 s) := by
  unfold execSyncArm
  dsimp only
  (repeat' split) <;> simp

@[simp] theorem execSyncWaitTimeout_keepsSpine (g core) (s : State) : KeepsSpine s (execSyncWaitTimeout g core s) := by
  unfold execSyncWaitTimeout
  (repeat' split) <;> simp

@[simp] theorem execDramScrub_keepsSpine (ch word dec) (s : State) : KeepsSpine s (execDramScrub ch word dec s) := by
  unfold execDramScrub
  dsimp only
  (repeat' split) <;> simp

@[simp] theorem execLagoonScrub_keepsSpine (w dec) (s : State) : KeepsSpine s (execLagoonScrub w dec s) := by
  unfold execLagoonScrub
  (repeat' split) <;> simp

@[simp] theorem execScrubForcedCycle_keepsSpine (w dec) (s : State) : KeepsSpine s (execScrubForcedCycle w dec s) := by
  unfold execScrubForcedCycle
  (repeat' split) <;> simp

@[simp] theorem execBankPower_keepsSpine (m) (s : State) : KeepsSpine s (execBankPower m s) := by
  unfold execBankPower
  refine s.mbRow_keepsSpine _ _ _ fun c => ?_
  dsimp only
  rw [apply_ite State.spine, apply_ite State.spine, State.mbEnd_spine, State.mbEnd_spine, State.mbLong_spine, ite_self, ite_self]
  intro t c'
  (repeat' split) <;> simp

@[simp] theorem execBankDrainDone_keepsSpine (h b) (s : State) : KeepsSpine s (execBankDrainDone h b s) := by
  unfold execBankDrainDone
  (repeat' split) <;> simp

@[simp] theorem execBankDrainTimeout_keepsSpine (h b) (s : State) : KeepsSpine s (execBankDrainTimeout h b s) := by
  unfold execBankDrainTimeout
  (repeat' split) <;> simp

@[simp] theorem execBankOffRequest_keepsSpine (h b) (s : State) : KeepsSpine s (execBankOffRequest h b s) := by
  unfold execBankOffRequest
  (repeat' split) <;> simp

@[simp] theorem execBankPowerUpDone_keepsSpine (h b) (s : State) : KeepsSpine s (execBankPowerUpDone h b s) := by
  unfold execBankPowerUpDone
  (repeat' split) <;> simp

@[simp] theorem execWindowOpen_keepsSpine (m) (s : State) : KeepsSpine s (execWindowOpen m s) := by
  unfold execWindowOpen
  refine s.mbPartRow_keepsSpine _ _ _ fun c p x => ?_
  dsimp only
  (repeat' split) <;> simp

@[simp] theorem execWindowClose_keepsSpine (m) (s : State) : KeepsSpine s (execWindowClose m s) := by
  unfold execWindowClose
  refine s.mbPartRow_keepsSpine _ _ _ fun c p x => ?_
  dsimp only
  (repeat' split) <;> simp

@[simp] theorem execWindowCloseComplete_keepsSpine (w) (s : State) : KeepsSpine s (execWindowCloseComplete w s) := by
  unfold execWindowCloseComplete
  dsimp only
  (repeat' split) <;> simp

@[simp] theorem execWindowQuery_keepsSpine (m) (s : State) : KeepsSpine s (execWindowQuery m s) := by
  unfold execWindowQuery
  refine s.mbPartRow_keepsSpine _ _ _ fun c p x => ?_
  dsimp only
  (repeat' split) <;> simp

@[simp] theorem execChannelRetirementStart_keepsSpine (ch cause) (s : State) :
    KeepsSpine s (execChannelRetirementStart ch cause s) := by
  unfold execChannelRetirementStart
  dsimp only
  (repeat' split) <;> simp

@[simp] theorem execRetirementPageMove_keepsSpine (badWords unreadable) (s : State) :
    KeepsSpine s (execRetirementPageMove badWords unreadable s) := by
  unfold execRetirementPageMove
  dsimp only
  (repeat' split) <;> simp

@[simp] theorem execChannelRetirementDone_keepsSpine (s : State) : KeepsSpine s (execChannelRetirementDone s) := by
  unfold execChannelRetirementDone
  (repeat' split) <;> simp

@[simp] theorem execChannelRetire_keepsSpine (m) (s : State) : KeepsSpine s (execChannelRetire m s) := by
  unfold execChannelRetire
  refine s.mbRow_keepsSpine _ _ _ fun c => ?_
  dsimp only
  (repeat' split) <;> simp

@[simp] theorem execMeshPacket_keepsSpine (d x y ev) (s : State) : KeepsSpine s (execMeshPacket d x y ev s) := by
  unfold execMeshPacket
  dsimp only
  (repeat' split) <;> simp

@[simp] theorem execLinkRetrain_keepsSpine (l) (s : State) : KeepsSpine s (execLinkRetrain l s) := by
  unfold execLinkRetrain
  (repeat' split) <;> simp

@[simp] theorem execLinkRetrainDone_keepsSpine (l ok) (s : State) : KeepsSpine s (execLinkRetrainDone l ok s) := by
  unfold execLinkRetrainDone
  (repeat' split) <;> simp

@[simp] theorem execCausewayRouteRewrite_keepsSpine (s : State) : KeepsSpine s (execCausewayRouteRewrite s) := by
  unfold execCausewayRouteRewrite
  (repeat' split) <;> simp

@[simp] theorem execCausewayMessage_keepsSpine (node header payload crcOk) (s : State) :
    KeepsSpine s (execCausewayMessage node header payload crcOk s) := by
  unfold execCausewayMessage
  rw [keepsSpine_next]
  dsimp only
  have hfold (l : List Nat) (m : CMsg) :
      (l.foldl (fun t n => if (s.causePath 33 n node).isSome then t.causeDeliver n m else t) s).spine = s.spine :=
    State.spine_foldl _ _ _ fun t n => by split <;> simp
  (repeat' split) <;> simp [hfold]

@[simp] theorem execOscFailover_keepsSpine (node) (s : State) : KeepsSpine s (execOscFailover node s) := by
  unfold execOscFailover
  (repeat' split) <;> simp

@[simp] theorem execArithmeticStepChange_keepsSpine (d r) (s : State) : KeepsSpine s (execArithmeticStepChange d r s) := by
  unfold execArithmeticStepChange
  dsimp only
  (repeat' split) <;> simp

@[simp] theorem execArithmeticUngate_keepsSpine (g) (s : State) : KeepsSpine s (execArithmeticUngate g s) := by
  unfold execArithmeticUngate
  (repeat' split) <;> simp

@[simp] theorem execReconfDispatch_keepsSpine (p) (s : State) : KeepsSpine s (execReconfDispatch p s) := by
  unfold execReconfDispatch
  dsimp only
  (repeat' split) <;> simp

@[simp] theorem execReconfArrival_keepsSpine (g) (s : State) : KeepsSpine s (execReconfArrival g s) := by
  unfold execReconfArrival
  dsimp only
  (repeat' split) <;> simp

@[simp] theorem execQuiescentReport_keepsSpine (g) (s : State) : KeepsSpine s (execQuiescentReport g s) := by
  unfold execQuiescentReport
  dsimp only
  (repeat' split) <;> simp

@[simp] theorem execCheck_keepsSpine (g) (s : State) : KeepsSpine s (execCheck g s) := by
  unfold execCheck
  dsimp only
  (repeat' split) <;> simp

@[simp] theorem execCheckAnswer_keepsSpine (p) (s : State) : KeepsSpine s (execCheckAnswer p s) := by
  unfold execCheckAnswer
  (repeat' split) <;> simp

@[simp] theorem execDrainTimeout_keepsSpine (p) (s : State) : KeepsSpine s (execDrainTimeout p s) := by
  unfold execDrainTimeout
  rw [keepsSpine_next]
  split
  · rfl
  dsimp only
  rw [State.modReconf_spine]
  refine State.spine_foldl _ _ _ fun t e => ?_
  split <;> simp

@[simp] theorem execDescriptorInstall_keepsSpine (g bad) (s : State) : KeepsSpine s (execDescriptorInstall g bad s) := by
  unfold execDescriptorInstall
  dsimp only
  (repeat' split) <;> simp

@[simp] theorem execReady_keepsSpine (p g) (s : State) : KeepsSpine s (execReady p g s) := by
  unfold execReady
  (repeat' split) <;> simp

@[simp] theorem execGo_keepsSpine (g) (s : State) : KeepsSpine s (execGo g s) := by
  unfold execGo
  dsimp only
  (repeat' split) <;> simp

@[simp] theorem execStreamStatusWrite_keepsSpine (p st) (s : State) : KeepsSpine s (execStreamStatusWrite p st s) := by
  unfold execStreamStatusWrite
  (repeat' split) <;> simp

@[simp] theorem execPartitionCreate_keepsSpine (m) (s : State) : KeepsSpine s (execPartitionCreate m s) := by
  unfold execPartitionCreate
  refine s.mbRow_keepsSpine _ _ _ fun c => ?_
  dsimp only
  (repeat' split) <;> simp

@[simp] theorem execPartitionResize_keepsSpine (m) (s : State) : KeepsSpine s (execPartitionResize m s) := by
  unfold execPartitionResize
  refine s.mbPartRow_keepsSpine _ _ _ fun c p x => ?_
  dsimp only
  (repeat' split) <;> simp

@[simp] theorem execStreamOpen_keepsSpine (m) (s : State) : KeepsSpine s (execStreamOpen m s) := by
  unfold execStreamOpen
  refine s.mbPartRow_keepsSpine _ _ _ fun c p x => ?_
  dsimp only
  (repeat' split) <;> simp

@[simp] theorem execStreamClose_keepsSpine (m) (s : State) : KeepsSpine s (execStreamClose m s) := by
  unfold execStreamClose
  dsimp only
  (repeat' split) <;> simp

@[simp] theorem execStreamResume_keepsSpine (m) (s : State) : KeepsSpine s (execStreamResume m s) := by
  unfold execStreamResume
  refine s.mbPartRow_keepsSpine _ _ _ fun c p x => ?_
  dsimp only
  (repeat' split) <;> simp

@[simp] theorem execCatalogueWriteRelease_keepsSpine (s : State) : KeepsSpine s (execCatalogueWriteRelease s) := by
  unfold execCatalogueWriteRelease
  (repeat' split) <;> simp

@[simp] theorem execSyncAlloc_keepsSpine (m) (s : State) : KeepsSpine s (execSyncAlloc m s) := by
  unfold execSyncAlloc
  refine s.mbPartRow_keepsSpine _ _ _ fun c p x => ?_
  dsimp only
  (repeat' split) <;> simp

@[simp] theorem execSyncFree_keepsSpine (m) (s : State) : KeepsSpine s (execSyncFree m s) := by
  unfold execSyncFree
  refine s.mbPartRow_keepsSpine _ _ _ fun c p x => ?_
  dsimp only
  (repeat' split) <;> simp

@[simp] theorem execMigrationStart_keepsSpine (p pos) (s : State) : KeepsSpine s (execMigrationStart p pos s) := by
  unfold execMigrationStart
  (repeat' split) <;> simp

@[simp] theorem execMigrationCutOver_keepsSpine (p pos) (s : State) : KeepsSpine s (execMigrationCutOver p pos s) := by
  unfold execMigrationCutOver
  dsimp only
  (repeat' split) <;> simp

@[simp] theorem execFullPatrol_keepsSpine (g) (s : State) : KeepsSpine s (execFullPatrol g s) := by
  unfold execFullPatrol
  (repeat' split) <;> simp

@[simp] theorem execFenceMapWrite_keepsSpine (s : State) : KeepsSpine s (execFenceMapWrite s) := by
  unfold execFenceMapWrite
  dsimp only
  (repeat' split) <;> simp

@[simp] theorem execFaultCollectorDrain_keepsSpine (node) (s : State) : KeepsSpine s (execFaultCollectorDrain node s) := by
  unfold execFaultCollectorDrain
  dsimp only
  (repeat' split) <;> simp

@[simp] theorem execCoalesceRelease_keepsSpine (node) (s : State) : KeepsSpine s (execCoalesceRelease node s) := by
  unfold execCoalesceRelease
  dsimp only
  (repeat' split) <;> simp

@[simp] theorem execWearScoreUpdate_keepsSpine (s : State) : KeepsSpine s (execWearScoreUpdate s) := by
  unfold execWearScoreUpdate
  (repeat' split) <;> simp

@[simp] theorem execWearCheckpoint_keepsSpine (s : State) : KeepsSpine s (execWearCheckpoint s) := by
  unfold execWearCheckpoint
  (repeat' split) <;> simp

@[simp] theorem execStepRollback_keepsSpine (p) (s : State) : KeepsSpine s (execStepRollback p s) := by
  unfold execStepRollback
  (repeat' split) <;> simp

@[simp] theorem execStepAbortStall_keepsSpine (g) (s : State) : KeepsSpine s (execStepAbortStall g s) := by
  unfold execStepAbortStall
  dsimp only
  (repeat' split) <;> simp

@[simp] theorem execRollbackRestart_keepsSpine (p) (s : State) : KeepsSpine s (execRollbackRestart p s) := by
  unfold execRollbackRestart
  dsimp only
  (repeat' split) <;> simp

@[simp] theorem execScalarWatchdog_keepsSpine (g core) (s : State) : KeepsSpine s (execScalarWatchdog g core s) := by
  unfold execScalarWatchdog
  dsimp only
  (repeat' split) <;> simp

@[simp] theorem execSeqWaitWatchdog_keepsSpine (g u) (s : State) : KeepsSpine s (execSeqWaitWatchdog g u s) := by
  unfold execSeqWaitWatchdog
  (repeat' split) <;> simp

@[simp] theorem execManagerHeartbeat_keepsSpine (node) (s : State) : KeepsSpine s (execManagerHeartbeat node s) := by
  unfold execManagerHeartbeat
  (repeat' split) <;> simp

@[simp] theorem execHeartbeatMiss_keepsSpine (node) (s : State) : KeepsSpine s (execHeartbeatMiss node s) := by
  unfold execHeartbeatMiss
  (repeat' split) <;> simp

@[simp] theorem execHeartbeatWordUpdate_keepsSpine (s : State) : KeepsSpine s (execHeartbeatWordUpdate s) := by
  unfold execHeartbeatWordUpdate
  dsimp only
  (repeat' split) <;> simp

@[simp] theorem execStatusReport_keepsSpine (s : State) : KeepsSpine s (execStatusReport s) := by
  unfold execStatusReport
  (repeat' split) <;> simp

@[simp] theorem execAbortFlood_keepsSpine (x) (s : State) : KeepsSpine s (execAbortFlood x s) := by
  unfold execAbortFlood
  (repeat' split) <;> simp

@[simp] theorem execResetUnit_keepsSpine (m) (s : State) : KeepsSpine s (execResetUnit m s) := by
  unfold execResetUnit
  refine s.mbPartRow_keepsSpine _ _ _ fun c p x => ?_
  dsimp only
  (repeat' split) <;> simp

@[simp] theorem execResetAtoll_keepsSpine (m) (s : State) : KeepsSpine s (execResetAtoll m s) := by
  unfold execResetAtoll
  refine s.mbPartRow_keepsSpine _ _ _ fun c p x => ?_
  dsimp only
  split
  · simp
  split
  · rfl
  refine s.mbLong_spine _ _ _ fun t c' => ?_
  split <;> simp

@[simp] theorem execAtollDrainTimeout_keepsSpine (g) (s : State) : KeepsSpine s (execAtollDrainTimeout g s) := by
  unfold execAtollDrainTimeout
  (repeat' split) <;> simp

@[simp] theorem execPartitionResetDone_keepsSpine (p) (s : State) : KeepsSpine s (execPartitionResetDone p s) := by
  unfold execPartitionResetDone
  (repeat' split) <;> simp

@[simp] theorem execServiceClear_keepsSpine (m) (s : State) : KeepsSpine s (execServiceClear m s) := by
  unfold execServiceClear
  (repeat' split) <;> simp

@[simp] theorem execFenceClear_keepsSpine (m) (s : State) : KeepsSpine s (execFenceClear m s) := by
  unfold execFenceClear
  refine s.mbRow_keepsSpine _ _ _ fun c => ?_
  dsimp only
  (repeat' split) <;> simp

@[simp] theorem execDiagRun_keepsSpine (m fail) (s : State) : KeepsSpine s (execDiagRun m fail s) := by
  unfold execDiagRun
  refine s.mbRow_keepsSpine _ _ _ fun c => ?_
  dsimp only
  (repeat' split) <;> simp

@[simp] theorem execDump_keepsSpine (m) (s : State) : KeepsSpine s (execDump m s) := by
  unfold execDump
  (repeat' split) <;> simp

@[simp] theorem execDumpUnitTimeout_keepsSpine (s : State) : KeepsSpine s (execDumpUnitTimeout s) := by
  unfold execDumpUnitTimeout
  (repeat' split) <;> simp

@[simp] theorem execDumpRead_keepsSpine (m) (s : State) : KeepsSpine s (execDumpRead m s) := by
  unfold execDumpRead
  refine s.mbRow_keepsSpine _ _ _ fun c => ?_
  split
  · simp
  split
  · rfl
  refine s.mbLong_spine _ _ _ fun t c' => ?_
  dsimp only
  split
  · simp
  · rw [State.mbEnd_spine, t.hostPut_spine _ _ ‹_›]

@[simp] theorem execHostMemRead_keepsSpine (addr cache dec) (s : State) : KeepsSpine s (execHostMemRead addr cache dec s) := by
  unfold execHostMemRead
  dsimp only
  (repeat' split) <;> simp

@[simp] theorem execHostMemWrite_keepsSpine (addr data) (s : State) : KeepsSpine s (execHostMemWrite addr data s) := by
  unfold execHostMemWrite
  (repeat' split) <;> simp

@[simp] theorem execBirsp_keepsSpine (line) (s : State) : KeepsSpine s (execBirsp line s) := by
  unfold execBirsp
  (repeat' split) <;> simp

@[simp] theorem execHostBiTimeout_keepsSpine (line) (s : State) : KeepsSpine s (execHostBiTimeout line s) := by
  unfold execHostBiTimeout
  (repeat' split) <;> simp

@[simp] theorem execH2dSnoop_keepsSpine (addr) (s : State) : KeepsSpine s (execH2dSnoop addr s) := by
  unfold execH2dSnoop
  (repeat' split) <;> simp

@[simp] theorem execPerst_keepsSpine (level) (s : State) : KeepsSpine s (execPerst level s) := by
  unfold execPerst
  (repeat' split) <;> simp

@[simp] theorem execHostLinkTraining_keepsSpine (rate width) (s : State) :
    KeepsSpine s (execHostLinkTraining rate width s) := by
  unfold execHostLinkTraining
  dsimp only
  (repeat' split) <;> simp

@[simp] theorem execHdmDecoderCommit_keepsSpine (commit base size ways granularity) (s : State) :
    KeepsSpine s (execHdmDecoderCommit commit base size ways granularity s) := by
  unfold execHdmDecoderCommit
  dsimp only
  (repeat' split) <;> simp

@[simp] theorem execCxlMailboxCommand_keepsSpine (opcode payload) (s : State) :
    KeepsSpine s (execCxlMailboxCommand opcode payload s) := by
  unfold execCxlMailboxCommand
  (repeat' split) <;> simp

@[simp] theorem execIdeKm_keepsSpine (session c) (s : State) : KeepsSpine s (execIdeKm session c s) := by
  unfold execIdeKm
  dsimp only
  (repeat' split) <;> simp

@[simp] theorem execMsixVectorUnmask_keepsSpine (v) (s : State) : KeepsSpine s (execMsixVectorUnmask v s) := by
  unfold execMsixVectorUnmask
  (repeat' split) <;> simp

@[simp] theorem execFirmwareBlockReceive_keepsSpine (core last crcOk sealOk) (s : State) :
    KeepsSpine s (execFirmwareBlockReceive core last crcOk sealOk s) := by
  unfold execFirmwareBlockReceive
  dsimp only
  (repeat' split) <;> simp

@[simp] theorem execFwStage_keepsSpine (m) (s : State) : KeepsSpine s (execFwStage m s) := by
  unfold execFwStage
  refine s.mbRow_keepsSpine _ _ _ fun c => ?_
  dsimp only
  split
  · simp
  split
  · simp
  split
  · simp
  refine s.mbLong_spine _ _ _ fun t c' => ?_
  split
  · simp
  rename_i bs _
  have h1 : ((if flag c.img 32 0 then t.openStage false else t).putStage (fld c.img 24 0 32) bs).spine = t.spine := by
    split <;> simp
  split
  · rw [State.mbEnd_spine, h1]
  have h2 := (State.closeStage_spine _ (((((if flag c.img 32 0 then t.openStage false else t).putStage (fld c.img 24 0 32)
    bs).fw.session.map fun e => e.2).getD 0))).trans h1
  split <;> rw [State.mbEnd_spine, spine_of_fst h2 ‹_›]

@[simp] theorem execFwActivateReset_keepsSpine (m) (s : State) : KeepsSpine s (execFwActivateReset m s) := by
  unfold execFwActivateReset
  (repeat' split) <;> simp

@[simp] theorem execFwActivateDeferred_keepsSpine (m) (s : State) : KeepsSpine s (execFwActivateDeferred m s) := by
  unfold execFwActivateDeferred
  (repeat' split) <;> simp

@[simp] theorem execFwRaiseFloor_keepsSpine (m) (s : State) : KeepsSpine s (execFwRaiseFloor m s) := by
  unfold execFwRaiseFloor
  dsimp only
  (repeat' split) <;> simp

@[simp] theorem execManagerUpdate_keepsSpine (node resumed) (s : State) : KeepsSpine s (execManagerUpdate node resumed s) := by
  unfold execManagerUpdate
  (repeat' split) <;> simp

@[simp] theorem execFwQuietTimeout_keepsSpine (node) (s : State) : KeepsSpine s (execFwQuietTimeout node s) := by
  unfold execFwQuietTimeout
  (repeat' split) <;> simp

@[simp] theorem execSealKeyLoad_keepsSpine (core source roleBit key) (s : State) :
    KeepsSpine s (execSealKeyLoad core source roleBit key s) := by
  unfold execSealKeyLoad
  (repeat' split) <;> simp

@[simp] theorem execMctpMailboxCommand_keepsSpine (req) (s : State) : KeepsSpine s (execMctpMailboxCommand req s) := by
  unfold execMctpMailboxCommand
  (repeat' split) <;> simp

@[simp] theorem execMctpUnsupportedMessage_keepsSpine (type) (s : State) :
    KeepsSpine s (execMctpUnsupportedMessage type s) := by
  unfold execMctpUnsupportedMessage
  (repeat' split) <;> simp

@[simp] theorem execSetEndpointId_keepsSpine (eid) (s : State) : KeepsSpine s (execSetEndpointId eid s) := by
  unfold execSetEndpointId
  (repeat' split) <;> simp

@[simp] theorem execGetTid_keepsSpine (s : State) : KeepsSpine s (execGetTid s) := by
  unfold execGetTid
  (repeat' split) <;> simp

@[simp] theorem execSetTid_keepsSpine (tid) (s : State) : KeepsSpine s (execSetTid tid s) := by
  unfold execSetTid
  (repeat' split) <;> simp

@[simp] theorem execGetPldmTypes_keepsSpine (s : State) : KeepsSpine s (execGetPldmTypes s) := by
  unfold execGetPldmTypes
  (repeat' split) <;> simp

@[simp] theorem execGetPldmCommands_keepsSpine (type) (s : State) : KeepsSpine s (execGetPldmCommands type s) := by
  unfold execGetPldmCommands
  (repeat' split) <;> simp

@[simp] theorem execGetPldmVersion_keepsSpine (type) (s : State) : KeepsSpine s (execGetPldmVersion type s) := by
  unfold execGetPldmVersion
  (repeat' split) <;> simp

@[simp] theorem execSensorRefresh_keepsSpine (id v) (s : State) : KeepsSpine s (execSensorRefresh id v s) := by
  unfold execSensorRefresh
  dsimp only
  (repeat' split) <;> simp

@[simp] theorem execGetPdr_keepsSpine (record) (s : State) : KeepsSpine s (execGetPdr record s) := by
  unfold execGetPdr
  dsimp only
  (repeat' split) <;> simp

@[simp] theorem execSetEventReceiver_keepsSpine (enable addr) (s : State) :
    KeepsSpine s (execSetEventReceiver enable addr s) := by
  unfold execSetEventReceiver
  (repeat' split) <;> simp

@[simp] theorem execPollForPlatformEventMessage_keepsSpine (s : State) : KeepsSpine s (execPollForPlatformEventMessage s) := by
  unfold execPollForPlatformEventMessage
  (repeat' split) <;> simp

@[simp] theorem execPlatformEventMessage_keepsSpine (answered) (s : State) :
    KeepsSpine s (execPlatformEventMessage answered s) := by
  unfold execPlatformEventMessage
  (repeat' split) <;> simp

@[simp] theorem execPldmFirmwareUpdate_keepsSpine (c) (s : State) : KeepsSpine s (execPldmFirmwareUpdate c s) := by
  unfold execPldmFirmwareUpdate
  dsimp only
  (repeat' split) <;> simp

@[simp] theorem execActivateFirmware_keepsSpine (s : State) : KeepsSpine s (execActivateFirmware s) := by
  unfold execActivateFirmware
  (repeat' split) <;> simp

@[simp] theorem execI3cCcc_keepsSpine (c) (s : State) : KeepsSpine s (execI3cCcc c s) := by
  unfold execI3cCcc
  rw [keepsSpine_next]
  extract_lets n arg s1 say direct
  have h1 : s1.spine = s.spine := by
    unfold s1
    split <;> simp
  simp [say, apply_ite State.spine, h1]

@[simp] theorem execSmbusAlertResponse_keepsSpine (s : State) : KeepsSpine s (execSmbusAlertResponse s) := by
  unfold execSmbusAlertResponse
  (repeat' split) <;> simp

@[simp] theorem execTestLogicReset_keepsSpine (s : State) : KeepsSpine s (execTestLogicReset s) := by
  unfold execTestLogicReset
  (repeat' split) <;> simp

@[simp] theorem execIdcode_keepsSpine (s : State) : KeepsSpine s (execIdcode s) := by
  unfold execIdcode
  (repeat' split) <;> simp

@[simp] theorem execSamplePreload_keepsSpine (preload) (s : State) : KeepsSpine s (execSamplePreload preload s) := by
  unfold execSamplePreload
  (repeat' split) <;> simp

@[simp] theorem execExtest_keepsSpine (s : State) : KeepsSpine s (execExtest s) := by
  unfold execExtest
  (repeat' split) <;> simp

@[simp] theorem execDbgSel_keepsSpine (v) (s : State) : KeepsSpine s (execDbgSel v s) := by
  unfold execDbgSel
  (repeat' split) <;> simp

@[simp] theorem execDbgData_keepsSpine (answered) (s : State) : KeepsSpine s (execDbgData answered s) := by
  unfold execDbgData
  (repeat' split) <;> simp

@[simp] theorem execFreezeState_keepsSpine (s : State) : KeepsSpine s (execFreezeState s) := by
  unfold execFreezeState
  (repeat' split) <;> simp

@[simp] theorem execBypass_keepsSpine (code) (s : State) : KeepsSpine s (execBypass code s) := by
  unfold execBypass
  (repeat' split) <;> simp

/-- The rows that may change the lifecycle or end power, and the register write, which may fault. -/
def movesLife : Instr → Bool
  | .oscillatorsLost | .gapPatrolMicrotest .. | .gapPatrolForcedSlot .. | .fullPatrolComplete .. | .vectorEngineWatchdog ..
  | .blockWatchdog .. | .hubLiveness .. | .hubWatchdog .. | .hubFailover | .bothHubsLost | .moduleReset .. | .unitFence ..
  | .moduleIdSet .. | .powerOn .. | .bringupStateDecision | .standbyImageSync | .phaseLoss .. | .thermalTrip
  | .droopSignature .. | .busConverterLoss .. | .ageingReplan | .fwActivateHitless .. | .handover | .freeze ..
  | .inputUndervoltage | .inputOvervoltage | .modResetNFall | .modResetNRise .. | .coldResetRequest | .standbyMirrorReady
  | .registerWrite .. => true
  | _ => false

/-- Every row that moves no lifecycle: it is one shared operation, a mailbox row of one operation, or (the last
alternative) a row with a simp lemma of its own above. -/
theorem exec_keepsSpine (i : Instr) (s : State) (h : movesLife i = false) : KeepsSpine s (exec i s) := by
  cases i with
  | oscillatorsLost | gapPatrolMicrotest | gapPatrolForcedSlot | fullPatrolComplete | vectorEngineWatchdog | blockWatchdog
  | hubLiveness | hubWatchdog | hubFailover | bothHubsLost | moduleReset | unitFence | moduleIdSet | powerOn
  | bringupStateDecision | standbyImageSync | phaseLoss | thermalTrip | droopSignature | busConverterLoss | ageingReplan
  | fwActivateHitless | handover | freeze | inputUndervoltage | inputOvervoltage | modResetNFall | modResetNRise
  | coldResetRequest | standbyMirrorReady | registerWrite => cases h
  | bankAdd | bankMax | bankScale | bankConvert | bankApex | bankZero | bayFlush | bayInvalidate | bayFlushInvalidate
  | vecAdd | vecSub | vecMul | vecFma | vecMax | vecMin | vecAbs | vecNeg | vecRecip | vecRsqrt | vecSqrt | vecLdexp
  | vecCmpEq | vecCmpLt | vecCmpLe | vecSelect | vecConvert | vecExp | vecLog | vecSigmoid | vecTanh | vecGelu | vecSilu
  | vecStats | redSum | redSumsq | redDot | redMax | redMin | redArgmax | seqNop | seqIssue | seqLoop | seqEndloop | seqJump
  | seqBrsel | seqTake | seqEmit | seqSignal | seqWait | seqCache | seqOpwait | seqHalt | dmaPortPost | dmaCompletionPop
  | dmaCopy | dmaRemoteWrite | gather | scatter | reduceSum | mxCompress | mxDecompress | factorStats | meshClockStep
  | reduceScatter | allReduce | allGather | reduceUpdate | reduceUpdateGather | streamFetch | streamPoll | streamCommandStart
  | stepBegin | stepCommit | reconfigure | catalogueSwitch | tileBatch | barrier | streamSyncArm | streamSyncSignal
  | streamSyncWait | updateParam | fenceQuery | marker | spdmGetVersion | spdmGetCapabilities | spdmNegotiateAlgorithms
  | spdmGetDigests | spdmGetCertificate | spdmChallenge | spdmGetMeasurements | spdmKeyExchange | spdmFinish | spdmHeartbeat
  | spdmKeyUpdate | spdmEndSession | spdmChunkSend | spdmChunkGet | spdmUnsupported | smbusTimeout | i3cIdleTimeout =>
    exact ⟨_, rfl, by simp⟩
  | jobAbort | dumpRelease | resetPartition | resetModule | correlate | logRead | fenceMapRead | telemetryRead | wearRead
  | linkStateRead | routeWrite | mcastWrite | linkConfigWrite | partitionDestroy | directoryWrite | recordWrite | listWrite
  | fwStatus =>
    simp [exec, execJobAbort, execDumpRelease, execResetPartition, execResetModule, execCorrelate, execLogRead, execFenceMapRead,
      execTelemetryRead, execWearRead, execLinkStateRead, execRouteWrite, execMcastWrite, execLinkConfigWrite,
      execPartitionDestroy, execDirectoryWrite, execRecordWrite, execListWrite, execFwStatus]
  | _ => simp [exec]

/-! ### The clock: the local count and the power

What moves the lifecycle keeps the local count and the power, or takes the power away and the count to 0 with it. -/

/-- The local count and the power of a spine. -/
def clockOf (x : List Instr × DWord × LifeSt) : DWord × Bool := (x.2.1, x.2.2.powered)

/-- Spine y has the local count and power of x, or has lost its power with the count at 0. -/
def ClockKept (x y : List Instr × DWord × LifeSt) : Prop := clockOf y = clockOf x ∨ clockOf y = (0, false)

@[simp] theorem ClockKept.refl (x : List Instr × DWord × LifeSt) : ClockKept x x := .inl rfl

theorem ClockKept.trans {x y z : List Instr × DWord × LifeSt} (h : ClockKept x y) (k : ClockKept y z) : ClockKept x z := by
  rcases k with k | k
  · exact h.imp k.trans k.trans
  · exact .inr k

/-- A step between states of one clock changes nothing. -/
theorem ClockKept.of_eq {x y : List Instr × DWord × LifeSt} (h : clockOf y = clockOf x) : ClockKept x y := .inl h

theorem ClockKept.foldl {α : Type} (f : State → α → State) (l : List α) (s : State)
    (h : ∀ t x, ClockKept t.spine (f t x).spine) : ClockKept s.spine (l.foldl f s).spine := by
  induction l generalizing s with
  | nil => exact .refl _
  | cons x r ih => exact (h s x).trans (ih (f s x))

theorem clockOf_foldl {α : Type} (f : State → α → State) (l : List α) (s : State)
    (h : ∀ t x, clockOf (f t x).spine = clockOf t.spine) : clockOf (l.foldl f s).spine = clockOf s.spine := by
  induction l generalizing s with
  | nil => rfl
  | cons x r ih => exact (ih (f s x)).trans (h s x)

@[simp] theorem State.modLife_clock (s : State) (f : LifeSt → LifeSt) (h : ∀ l, (f l).powered = l.powered) :
    clockOf (s.modLife f).spine = clockOf s.spine :=
  Prod.ext rfl (h s.life)

@[simp] theorem State.hubLost_clock (s : State) (h : Nat) : clockOf (s.hubLost h).spine = clockOf s.spine := by
  unfold State.hubLost
  split <;> simp

@[simp] theorem State.goDark_clock (s : State) (key : Nat) (cls : Half) (seq : Word) (mark : RegionState) :
    clockOf (s.goDark key cls seq mark).spine = clockOf s.spine := by
  unfold State.goDark
  dsimp only
  (repeat' split) <;> simp

@[simp] theorem State.beginModuleReset_clock (s : State) : clockOf s.beginModuleReset.spine = clockOf s.spine := by
  unfold State.beginModuleReset
  dsimp only
  rw [State.modFlt_spine]
  split
  · rw [State.retrainAll_spine]
    rfl
  · rfl

@[simp] theorem State.bootHubs_clock (s : State) (t : BringUp) : clockOf (s.bootHubs t).spine = clockOf s.spine := by
  unfold State.bootHubs
  dsimp only
  split <;> simp

@[simp] theorem State.spreadFirmware_clock (s : State) : clockOf s.spreadFirmware.spine = clockOf s.spine := rfl

@[simp] theorem State.swapHub_clock (s : State) (h : Nat) : clockOf (s.swapHub h).spine = clockOf s.spine := rfl

@[simp] theorem State.ageingMargin_clock (s : State) (key : Nat) : clockOf (s.ageingMargin key).spine = clockOf s.spine := by
  unfold State.ageingMargin
  dsimp only
  (repeat' split) <;> simp

@[simp] theorem State.replan_clock (s : State) (key : Nat) : clockOf (s.replan key).spine = clockOf s.spine := by
  unfold State.replan
  dsimp only
  (repeat' split) <;> simp

@[simp] theorem State.patrolMargin_clock (s : State) (g : Nat) (raised : PatrolResult) :
    clockOf (s.patrolMargin g raised).spine = clockOf s.spine := by
  unfold State.patrolMargin
  dsimp only
  split
  · rw [clockOf_foldl _ _ _ fun t k => t.replan_clock k, State.modFlt_spine]
  · simp

@[simp] theorem State.unpowered_clock (s : State) : clockOf s.unpowered.spine = (0, false) := rfl

@[simp] theorem State.tripOff_clock (s : State) (cause : Nat) : clockOf (s.tripOff cause).spine = (0, false) := rfl

/-- What a lost phase of the isthmus costs may be the power of the whole module (15 R382). -/
theorem State.losePhase_clockKept (s : State) (key phase : Nat) (cls : Half) (seq : Word) :
    ClockKept s.spine (s.losePhase key phase cls seq).spine := by
  unfold State.losePhase
  dsimp only
  split
  · split
    · exact .inr (State.tripOff_clock _ _)
    · simp
  · split
    · exact .of_eq (by simp)
    · simp

theorem State.contain_clockKept (s : State) (u : Word) (cls : Half) (seq : Word) :
    ClockKept s.spine (s.contain u cls seq).spine := by
  unfold State.contain
  dsimp only
  split
  · exact s.losePhase_clockKept _ _ _ _
  · refine .of_eq ?_
    (repeat' split) <;> simp

theorem State.containAs_clockKept (s : State) (u : Word) (cls : Half) (seq : Word) (source : BitVec 2) :
    ClockKept s.spine (s.containAs u cls seq source).spine := by
  unfold State.containAs
  rw [State.modFlt_spine]
  exact s.contain_clockKept _ _ _

theorem State.raise_contain_clockKept (s : State) (r : RecIn) (u : Word) (cls : Half) (seq : Word) :
    ClockKept s.spine ((s.raise r).contain u cls seq).spine := by
  simpa using (s.raise r).contain_clockKept u cls seq

theorem State.failTest_clockKept (s : State) (u : Word) (cls : Half) : ClockKept s.spine (s.failTest u cls).spine := by
  unfold State.failTest
  dsimp only
  split
  · exact .refl _
  split
  · split <;> simp
  · exact s.raise_contain_clockKept _ _ _ _

theorem State.failCores_clockKept (s : State) : ClockKept s.spine s.failCores.spine := by
  unfold State.failCores
  refine ClockKept.foldl _ _ _ fun t e => ?_
  split
  · exact .refl _
  split <;> exact t.failTest_clockKept _ _

theorem State.patrolFail_clockKept (s : State) (u : Word) (test word expected observed : Nat) (full : Bool) :
    ClockKept s.spine (s.patrolFail u test word expected observed full).spine := by
  unfold State.patrolFail
  dsimp only
  split
  · rw [State.suspect_spine]
    exact s.raise_contain_clockKept _ _ _ _
  · exact s.raise_contain_clockKept _ _ _ _

theorem State.microtest_clockKept (s : State) (u : Word) (test : Nat) (r : PatrolResult) :
    ClockKept s.spine (s.microtest u test r).spine := by
  unfold State.microtest
  split
  · simp
  · exact s.patrolFail_clockKept _ _ _ _ _ _

/-- The end of a timeline loses power only where a unit that fails its test takes the last bus converters. -/
theorem State.endTimeline_clockKept (s : State) (t : BringUp) : ClockKept s.spine (s.endTimeline t).spine := by
  unfold State.endTimeline
  extract_lets fresh s1 k s2 s3 s4 s5 s6 st s7 s8 s9
  have h1 : s1.spine = s.spine := by
    unfold s1
    simp
  have hk : ClockKept s1.spine k.spine := by
    refine ClockKept.foldl _ _ _ fun x e => ?_
    split
    · exact x.failTest_clockKept _ _
    · exact .refl _
  have h2 : ClockKept k.spine s2.spine := k.failCores_clockKept
  have h3 : s3.spine = s2.spine := by
    unfold s3
    rw [State.spine_foldl _ _ _ fun x e => State.modShoal_spine _ _ _]
  have h4 : s4.spine = s2.spine := by
    unfold s4
    rw [State.raisedRuns_spine, State.testLinks_spine, State.testChannels_spine, h3]
  have h5 : clockOf s5.spine = clockOf s2.spine := by
    unfold s5
    rw [State.spreadFirmware_clock, State.stampPatrols_spine, h4]
  have h6 : clockOf s6.spine = clockOf s2.spine := by
    unfold s6
    rw [State.modNet_spine, h5]
  have h7 : clockOf s7.spine = clockOf s2.spine := by
    unfold s7
    rw [State.modLife_clock, h6]
    exact fun _ => rfl
  have h9 : clockOf s9.spine = clockOf s2.spine := by
    unfold s9 s8
    rw [State.postEvent_spine, State.modFlt_spine, h7]
  rw [h1] at hk
  split
  · exact hk
  refine (hk.trans h2).trans (.of_eq ?_)
  split
  · exact h9
  split
  · rw [State.beginModuleReset_clock, h9]
  · rw [State.askReset_spine, State.modMgmt_spine, h9]

/-! ### Rows that move the lifecycle -/

/-- A row answers a next state that keeps the local count and the power, or has lost power. -/
def KeepsClock (s : State) (o : Host.Outcome State Fault Refusal) : Prop := ∃ t, o = .next t ∧ ClockKept s.spine t.spine

theorem keepsClock_next (s t : State) : KeepsClock s (.next t) ↔ ClockKept s.spine t.spine := by
  constructor
  · rintro ⟨u, h, e⟩
    cases h
    exact e
  · exact fun h => ⟨t, rfl, h⟩

theorem keepsClock_of_clock {s t : State} (h : clockOf t.spine = clockOf s.spine) : KeepsClock s (.next t) := ⟨t, rfl, .inl h⟩

theorem KeepsSpine.keepsClock {s : State} {o : Host.Outcome State Fault Refusal} (h : KeepsSpine s o) : KeepsClock s o := by
  obtain ⟨t, e, k⟩ := h
  exact ⟨t, e, by rw [k]; exact .refl _⟩

theorem State.mbRow_keepsClock (s : State) (m op : Nat) (go : MbCmd → State) (h : ∀ c, ClockKept s.spine (go c).spine) :
    KeepsClock s (s.mbRow m op go) := by
  unfold State.mbRow
  rw [keepsClock_next]
  split
  · exact .refl _
  · exact h _

theorem State.mbLong_clock (s : State) (m : Nat) (c : MbCmd) (go : State → MbCmd → State)
    (h : ∀ t d, clockOf (go t d).spine = clockOf t.spine) : clockOf (s.mbLong m c go).spine = clockOf s.spine := by
  unfold State.mbLong
  dsimp only
  split
  · simp
  · rw [h, State.mbFin_spine, State.modMbox_spine]

theorem execPhaseLoss_keepsClock (node r phase) (s : State) : KeepsClock s (execPhaseLoss node r phase s) := by
  unfold execPhaseLoss
  rw [keepsClock_next]
  dsimp only
  split
  · exact .refl _
  · simpa using State.losePhase_clockKept (s.raise _) _ _ _ _

theorem execThermalTrip_keepsClock (s : State) : KeepsClock s (execThermalTrip s) := by
  unfold execThermalTrip
  rw [keepsClock_next]
  split
  · exact .inr (s.tripOff_clock 0)
  · exact .refl _

theorem execDroopSignature_keepsClock (node r before after) (s : State) :
    KeepsClock s (execDroopSignature node r before after s) := by
  unfold execDroopSignature
  refine keepsClock_of_clock ?_
  dsimp only
  (repeat' split) <;> simp

theorem execBusConverterLoss_keepsClock (c) (s : State) : KeepsClock s (execBusConverterLoss c s) := by
  unfold execBusConverterLoss
  rw [keepsClock_next]
  split
  · exact .refl _
  · simpa using State.losePhase_clockKept (s.raise _) _ _ _ _

theorem execAgeingReplan_keepsClock (s : State) : KeepsClock s (execAgeingReplan s) := by
  unfold execAgeingReplan
  refine keepsClock_of_clock ?_
  split
  · exact clockOf_foldl _ _ _ fun t k => t.replan_clock k
  · rfl

theorem execModuleIdSet_keepsClock (m) (s : State) : KeepsClock s (execModuleIdSet m s) := by
  unfold execModuleIdSet
  refine s.mbRow_keepsClock _ _ _ fun c => .of_eq ?_
  dsimp only
  (repeat' split) <;> simp

theorem execOscillatorsLost_keepsClock (s : State) : KeepsClock s (execOscillatorsLost s) := by
  unfold execOscillatorsLost
  refine keepsClock_of_clock ?_
  split <;> simp

theorem execGapPatrolMicrotest_keepsClock (unit test r) (s : State) : KeepsClock s (execGapPatrolMicrotest unit test r s) := by
  unfold execGapPatrolMicrotest
  rw [keepsClock_next]
  split
  · exact s.microtest_clockKept _ _ _
  · exact .refl _

theorem execGapPatrolForcedSlot_keepsClock (unit test r) (s : State) : KeepsClock s (execGapPatrolForcedSlot unit test r s) := by
  unfold execGapPatrolForcedSlot
  rw [keepsClock_next]
  split
  · exact s.microtest_clockKept _ _ _
  · exact .refl _

theorem execFullPatrolComplete_keepsClock (g atStep raised) (s : State) :
    KeepsClock s (execFullPatrolComplete g atStep raised s) := by
  unfold execFullPatrolComplete
  rw [keepsClock_next]
  split
  · exact .refl _
  extract_lets s1
  have h1 : s1.spine = s.spine := by
    unfold s1
    simp
  split
  · rename_i s2 _
    have h2 : s2.spine = s.spine := (s1.modAtoll_spine _ _).trans h1
    exact .of_eq (by simp [h2])
  · rw [State.modFlt_spine, ← h1]
    exact s1.patrolFail_clockKept _ _ _ _ _ _

theorem execBlockWatchdog_keepsClock (unit) (s : State) : KeepsClock s (execBlockWatchdog unit s) := by
  unfold execBlockWatchdog
  rw [keepsClock_next]
  extract_lets cur busy
  split
  · exact .refl _
  · exact s.raise_contain_clockKept _ _ _ _

theorem execVectorEngineWatchdog_keepsClock (g w) (s : State) : KeepsClock s (execVectorEngineWatchdog g w s) := by
  unfold execVectorEngineWatchdog
  rw [keepsClock_next]
  split
  · exact .refl _
  split
  · split <;> simp
  split
  · exact .refl _
  split
  · exact .refl _
  · exact s.raise_contain_clockKept _ _ _ _

theorem execHubLiveness_keepsClock (h) (s : State) : KeepsClock s (execHubLiveness h s) := by
  unfold execHubLiveness
  refine keepsClock_of_clock ?_
  split <;> simp

theorem execHubWatchdog_keepsClock (h) (s : State) : KeepsClock s (execHubWatchdog h s) := by
  unfold execHubWatchdog
  refine keepsClock_of_clock ?_
  (repeat' split) <;> simp

theorem execHubFailover_keepsClock (s : State) : KeepsClock s (execHubFailover s) := by
  unfold execHubFailover
  refine keepsClock_of_clock ?_
  dsimp only
  split
  · rfl
  rw [State.noteChange_spine, State.escalate_spine, State.spine_foldl _ _ _ fun t e => by split <;> simp]
  simp

theorem execBothHubsLost_keepsClock (s : State) : KeepsClock s (execBothHubsLost s) := by
  unfold execBothHubsLost
  refine keepsClock_of_clock ?_
  dsimp only
  split <;> simp

theorem execUnitFence_keepsClock (m) (s : State) : KeepsClock s (execUnitFence m s) := by
  unfold execUnitFence
  refine s.mbRow_keepsClock _ _ _ fun c => ?_
  rw [State.mbEnd_spine]
  split
  · exact .refl _
  · exact s.containAs_clockKept _ _ _ _

theorem execInputUndervoltage_keepsClock (s : State) : KeepsClock s (execInputUndervoltage s) :=
  (keepsClock_next s _).mpr (.inr s.unpowered_clock)

theorem execInputOvervoltage_keepsClock (s : State) : KeepsClock s (execInputOvervoltage s) := by
  unfold execInputOvervoltage
  rw [keepsClock_next]
  split
  · exact .refl _
  · exact .inr (s.tripOff_clock 1)

theorem execModuleReset_keepsClock (tests) (s : State) : KeepsClock s (execModuleReset tests s) := by
  unfold execModuleReset
  refine keepsClock_of_clock ?_
  dsimp only
  (repeat' split) <;> simp

theorem execBringupStateDecision_keepsClock (s : State) : KeepsClock s (execBringupStateDecision s) := by
  unfold execBringupStateDecision
  rw [keepsClock_next]
  split
  · exact .refl _
  dsimp only
  split
  · exact .refl _
  · exact s.endTimeline_clockKept _

theorem execStandbyImageSync_keepsClock (s : State) : KeepsClock s (execStandbyImageSync s) := by
  unfold execStandbyImageSync
  refine keepsClock_of_clock ?_
  dsimp only
  split <;> simp

theorem execModResetNFall_keepsClock (s : State) : KeepsClock s (execModResetNFall s) := by
  unfold execModResetNFall
  refine keepsClock_of_clock ?_
  dsimp only
  (repeat' split) <;> simp

theorem execColdResetRequest_keepsClock (s : State) : KeepsClock s (execColdResetRequest s) := by
  unfold execColdResetRequest
  rw [keepsClock_next]
  split
  · exact .refl _
  · exact .inr rfl

theorem execFwActivateHitless_keepsClock (m) (s : State) : KeepsClock s (execFwActivateHitless m s) := by
  unfold execFwActivateHitless State.activateRow
  refine keepsClock_of_clock ?_
  dsimp only
  (repeat' split) <;> simp [State.mbLong_clock]

theorem execStandbyMirrorReady_keepsClock (s : State) : KeepsClock s (execStandbyMirrorReady s) := by
  unfold execStandbyMirrorReady
  refine keepsClock_of_clock ?_
  dsimp only
  (repeat' split) <;> simp

theorem execHandover_keepsClock (s : State) : KeepsClock s (execHandover s) := by
  unfold execHandover
  refine keepsClock_of_clock ?_
  dsimp only
  split
  · rfl
  split
  · rfl
  · simp

theorem execFreeze_keepsClock (noticeFirst) (s : State) : KeepsClock s (execFreeze noticeFirst s) := by
  unfold execFreeze
  refine keepsClock_of_clock ?_
  dsimp only
  split <;> simp

/-- The write of every owner is a change that keeps the spine; a fault answers no state. -/
theorem execRegisterWrite_spine {r : RegName} {v : DWord} {s t : State} (h : execRegisterWrite r v s = .next t) :
    t.spine = s.spine := by
  cases r
  all_goals
    simp only [execRegisterWrite] at h
    (repeat' split at h) <;> cases h <;> simp

/-- The two rows that can begin a new boot: POWER_ON and the rise of MOD_RESET_N. -/
def startsBoot : Instr → Bool
  | .powerOn _ | .modResetNRise _ => true
  | _ => false

theorem KeepsClock.clockKept {s t : State} {o : Host.Outcome State Fault Refusal} (h : KeepsClock s o) (e : o = .next t) :
    ClockKept s.spine t.spine := by
  subst e
  exact (keepsClock_next s t).mp h

/-- The rows that move the lifecycle, but for the two that can begin a new boot. -/
theorem exec_keepsClock {i : Instr} {s : State} (hi : startsBoot i = false) (hm : ¬movesLife i = false)
    (hr : ¬∃ r v, i = .registerWrite r v) : KeepsClock s (exec i s) := by
  cases i with
  | oscillatorsLost => exact execOscillatorsLost_keepsClock s
  | gapPatrolMicrotest unit test r => exact execGapPatrolMicrotest_keepsClock unit test r s
  | gapPatrolForcedSlot unit test r => exact execGapPatrolForcedSlot_keepsClock unit test r s
  | fullPatrolComplete g atStep raised => exact execFullPatrolComplete_keepsClock g atStep raised s
  | vectorEngineWatchdog g w => exact execVectorEngineWatchdog_keepsClock g w s
  | blockWatchdog unit => exact execBlockWatchdog_keepsClock unit s
  | hubLiveness h => exact execHubLiveness_keepsClock h s
  | hubWatchdog h => exact execHubWatchdog_keepsClock h s
  | hubFailover => exact execHubFailover_keepsClock s
  | bothHubsLost => exact execBothHubsLost_keepsClock s
  | moduleReset tests => exact execModuleReset_keepsClock tests s
  | unitFence m => exact execUnitFence_keepsClock m s
  | moduleIdSet m => exact execModuleIdSet_keepsClock m s
  | bringupStateDecision => exact execBringupStateDecision_keepsClock s
  | standbyImageSync => exact execStandbyImageSync_keepsClock s
  | phaseLoss node r phase => exact execPhaseLoss_keepsClock node r phase s
  | thermalTrip => exact execThermalTrip_keepsClock s
  | droopSignature node r before after => exact execDroopSignature_keepsClock node r before after s
  | busConverterLoss c => exact execBusConverterLoss_keepsClock c s
  | ageingReplan => exact execAgeingReplan_keepsClock s
  | fwActivateHitless m => exact execFwActivateHitless_keepsClock m s
  | handover => exact execHandover_keepsClock s
  | freeze noticeFirst => exact execFreeze_keepsClock noticeFirst s
  | inputUndervoltage => exact execInputUndervoltage_keepsClock s
  | inputOvervoltage => exact execInputOvervoltage_keepsClock s
  | modResetNFall => exact execModResetNFall_keepsClock s
  | coldResetRequest => exact execColdResetRequest_keepsClock s
  | standbyMirrorReady => exact execStandbyMirrorReady_keepsClock s
  | registerWrite r v => exact absurd ⟨r, v, rfl⟩ hr
  | powerOn | modResetNRise => cases hi
  | _ => exact absurd rfl hm

theorem exec_clockKept {i : Instr} {s t : State} (hi : startsBoot i = false) (h : exec i s = .next t) :
    ClockKept s.spine t.spine := by
  by_cases hm : movesLife i = false
  · rw [(exec_keepsSpine i s hm).spine h]
    exact .refl _
  by_cases hr : ∃ r v, i = .registerWrite r v
  · obtain ⟨r, v, rfl⟩ := hr
    rw [execRegisterWrite_spine h]
    exact .refl _
  · exact (exec_keepsClock hi hm hr).clockKept h

/-! ### The boot number -/

@[simp] theorem State.raise_boot (s : State) (r : RecIn) : (s.raise r).flt.boot = s.flt.boot := rfl

@[simp] theorem State.fenceUnit_boot (s : State) (u : Word) (cls : Half) (seq : Word) (source : BitVec 2) (retry : Bool) :
    (s.fenceUnit u cls seq source retry).flt.boot = s.flt.boot := by
  obtain ⟨es, r, fs, q, h⟩ := s.fenceUnit_frame u cls seq source retry
  rw [h]

@[simp] theorem State.unfence_boot (s : State) (u : Word) : (s.unfence u).flt.boot = s.flt.boot := by
  unfold State.unfence
  dsimp only
  (repeat' split) <;> rfl

@[simp] theorem State.testProcessor_boot (s : State) (h i : Nat) (ok : Bool) :
    (s.testProcessor h i ok).flt.boot = s.flt.boot := by
  unfold State.testProcessor
  dsimp only
  (repeat' split) <;> simp

@[simp] theorem State.bootFw_boot (s : State) (h : Nat) : (s.bootFw h).flt.boot = s.flt.boot := by
  unfold State.bootFw
  dsimp only
  split <;> rfl

@[simp] theorem State.noteTrip_boot (s : State) : s.noteTrip.flt.boot = s.flt.boot := by
  unfold State.noteTrip
  split <;> rfl

theorem State.boot_foldl {α : Type} (f : State → α → State) (l : List α) (s : State)
    (h : ∀ t x, (f t x).flt.boot = t.flt.boot) : (l.foldl f s).flt.boot = s.flt.boot := by
  induction l generalizing s with
  | nil => rfl
  | cons x r ih => exact (ih (f s x)).trans (h s x)

@[simp] theorem State.bootHubs_boot (s : State) (t : BringUp) : (s.bootHubs t).flt.boot = s.flt.boot := by
  unfold State.bootHubs
  extract_lets s1 s2 a b s3 any_
  have h1 : s1.flt.boot = s.flt.boot := State.boot_foldl _ _ _ fun x k => State.testProcessor_boot _ _ _ _
  have h3 : s3.flt.boot = s.flt.boot := by
    unfold s3 s2
    rw [State.modLife_flt, State.bootFw_boot, State.bootFw_boot, h1]
  split
  · rw [State.modFw_flt, State.noteTrip_boot, h3]
  · rw [← h3]
    rfl

theorem State.powerOn_boot (s : State) (t : BringUp) : (s.powerOn t).flt.boot = s.flt.boot + 1 := by
  unfold State.powerOn
  dsimp only
  split
  · rfl
  · exact State.bootHubs_boot _ t

theorem State.powerOn_clock (s : State) (t : BringUp) : clockOf (s.powerOn t).spine = (0, true) := by
  unfold State.powerOn
  dsimp only
  split
  · rfl
  · exact (State.bootHubs_clock _ t).trans rfl

theorem execModResetNRise_keepsClock (b : BringUp) (s : State) (h : ¬(s.life.state = .stopped ∧ s.life.powered = false)) :
    KeepsClock s (execModResetNRise b s) := by
  unfold execModResetNRise
  refine keepsClock_of_clock ?_
  dsimp only
  split
  · split
    · simp
    · simp_all
  · (repeat' split) <;> simp

/-! ### A step -/

theorem step_nil {s : State} (h : s.pending = []) : step s = .next (idleTick s) := by
  unfold step
  rw [h]

theorem step_cons {s : State} {c : Instr} {rest : List Instr} (h : s.pending = c :: rest) :
    step s = exec c { s with pending := rest } := by
  unfold step
  rw [h]

theorem idleTick_of_ticks {s : State} (h : s.ticks = true) : idleTick s = { s with count := s.count + 1 } := if_pos h

theorem idleTick_of_not_ticks {s : State} (h : s.ticks = false) : idleTick s = s := if_neg (by simp [h])

theorem count_eq_of_clock {x y : State} (h : clockOf x.spine = clockOf y.spine) : x.count = y.count := congrArg Prod.fst h

/-- A kept clock, told of the states: the count stays, or it is 0 without power. -/
theorem ClockKept.count {s t : State} (h : ClockKept s.spine t.spine) :
    t.count = s.count ∨ t.count = 0 ∧ t.life.powered = false :=
  h.imp count_eq_of_clock fun e => ⟨congrArg Prod.fst e, congrArg Prod.snd e⟩

/-- A new boot: the count is 0 and the boot number is the next one. -/
theorem State.powerOn_newBoot (s : State) (b : BringUp) : (s.powerOn b).count = 0 ∧ (s.powerOn b).flt.boot = s.flt.boot + 1 :=
  ⟨congrArg Prod.fst (s.powerOn_clock b), s.powerOn_boot b⟩

theorem execPowerOn_cases {b : BringUp} {s t : State} (h : execPowerOn b s = .next t) :
    t = s ∨ s.life.state = .off ∧ t.count = 0 ∧ t.flt.boot = s.flt.boot + 1 := by
  unfold execPowerOn at h
  split at h <;> cases h
  · exact .inr ⟨‹_›, s.powerOn_newBoot b⟩
  · exact .inl rfl

theorem execModResetNRise_cases {b : BringUp} {s t : State} (h : execModResetNRise b s = .next t) :
    ClockKept s.spine t.spine ∨
      (s.life.state = .stopped ∧ s.life.powered = false) ∧ t.count = 0 ∧ t.flt.boot = s.flt.boot + 1 := by
  by_cases hs : s.life.state = .stopped ∧ s.life.powered = false
  · refine .inr ⟨hs, ?_⟩
    obtain ⟨hstop, hoff⟩ := hs
    have he : execModResetNRise b s = .next ((s.modMgmt fun g => { g with modResetLow := false }).powerOn b) := by
      simp [execModResetNRise, hstop, hoff]
    rw [he] at h
    cases h
    exact State.powerOn_newBoot _ b
  · exact .inl ((execModResetNRise_keepsClock b s hs).clockKept h)

/-- Settles O54: an idle step ticks at most once, the two rows that power the module on begin a boot, and every other row keeps the
clock or loses power (`exec_clockKept`). -/
theorem localCountOnlyRestartsAtPower : Obligations.LocalCountOnlyRestartsAtPower := by
  unfold Obligations.LocalCountOnlyRestartsAtPower
  intro s t h
  rcases hp : s.pending with _ | ⟨c, rest⟩
  · rw [step_nil hp] at h
    cases h
    unfold idleTick
    split
    · exact .inr (.inl ⟨rfl, rfl⟩)
    · exact .inl rfl
  rw [step_cons hp] at h
  by_cases hc : startsBoot c = false
  · exact (exec_clockKept hc h).count.imp_right fun k => .inr (k.imp_right .inl)
  cases c with
  | powerOn b =>
    rcases execPowerOn_cases h with rfl | ⟨hoff, h0, hb⟩
    · exact .inl rfl
    · exact .inr (.inr ⟨h0, .inr ⟨hb, b, .inl ⟨rfl, hoff⟩⟩⟩)
  | modResetNRise b =>
    rcases execModResetNRise_cases h with hk | ⟨hstop, h0, hb⟩
    · exact hk.count.imp_right fun k => .inr (k.imp_right .inl)
    · exact .inr (.inr ⟨h0, .inr ⟨hb, b, .inr ⟨rfl, hstop⟩⟩⟩)
  | _ => exact absurd rfl hc

/-- Every byte memory is empty at reset: no atoll, DRAM or host byte is written, and the firmware stores have no staged bytes. -/
theorem reset_memories : ∀ m ∈ State.reset.memories, m = [] := by
  decide

/-- Settles O47: at reset every byte memory is empty and the module is off without power. -/
theorem resetKeepsInvariants : Obligations.ResetKeepsInvariants := by
  unfold Obligations.ResetKeepsInvariants
  refine ⟨fun m hm => ?_, ?_⟩
  · rw [reset_memories m hm]
    exact ⟨List.Pairwise.nil, nofun⟩
  · exact ⟨fun _ => rfl, fun _ => .inl rfl, Nat.zero_le 1⟩

/-- Settles O44: on an empty queue a step is an idle tick. -/
theorem idleStepTicks : Obligations.IdleStepTicks := by
  unfold Obligations.IdleStepTicks
  intro s hp
  rw [step_nil hp]
  refine ⟨fun hpow hosc => ?_, fun h => ?_⟩
  · have ht : s.ticks = true := by simpa [State.ticks, hpow] using hosc
    rw [idleTick_of_ticks ht]
  · have ht : s.ticks = false := by
      rcases h with h | ⟨h0, h1⟩
      · simp [State.ticks, h]
      · simp [State.ticks, h0, h1]
    rw [idleTick_of_not_ticks ht]

/-! ### Bit fields of a written word -/

@[simp] theorem countOf_toNat (v : DWord) : (countOf v).toNat = bits v.toNat 0 32 := by
  simp [countOf, bits]

theorem bits_one_eq_getLsbD {w : Nat} (v : BitVec w) (i : Nat) : (bits v.toNat i 1 == 1) = v.getLsbD i := by
  rw [BitVec.getLsbD, Nat.testBit_eq_decide_div_mod_eq, bits, pow_one]
  rfl

/-- A field of the low byte of a value is that field of the value. -/
theorem bits_low_byte (n lo k : Nat) (h : lo + k ≤ 8) : bits (bits n 0 8) lo k = bits n lo k := by
  have hk : 2 ^ 8 = 2 ^ lo * 2 ^ (8 - lo) := by rw [← pow_add]; congr 1; omega
  have hd : 2 ^ k ∣ 2 ^ (8 - lo) := pow_dvd_pow 2 (by omega)
  unfold bits
  rw [pow_zero, Nat.div_one, hk, Nat.mod_mul_right_div_self, Nat.mod_mod_of_dvd _ hd]

/-! ### What a register write does to its owner -/

theorem Atoll.regWrite_lagoon (a : Atoll) (off : Nat) (v : DWord) : (a.regWrite off v).lagoon = a.lagoon := by
  simp [Atoll.regWrite, apply_ite Atoll.lagoon]

theorem Atoll.regWrite_cores (a : Atoll) (off : Nat) (v : DWord) : (a.regWrite off v).cores = a.cores := by
  simp [Atoll.regWrite, apply_ite Atoll.cores]

theorem Atoll.regWrite_partition (a : Atoll) (v : DWord) :
    (a.regWrite 0x008 v).assigned = v.getLsbD 8 ∧ (a.regWrite 0x008 v).partition.toNat = bits v.toNat 0 5 := by
  simp [Atoll.regWrite, bits]

theorem Atoll.regWrite_cacheBase (a : Atoll) (v : DWord) :
    (a.regWrite 0x020 v).cacheBase.toNat = bits v.toNat 12 28 * 4096 := by
  have h : bits v.toNat 12 28 < 2 ^ 28 := Nat.mod_lt _ (by decide)
  simp only [Atoll.regWrite, reduceIte, Nat.reduceEqDiff, BitVec.toNat_ofNat]
  omega

theorem Atoll.regWrite_split (a : Atoll) (v : DWord) : (a.regWrite 0x028 v).split = v.getLsbD 0 := rfl

theorem Atoll.regWrite_epochDiscard (a : Atoll) (v : DWord) :
    (a.regWrite 0x0C0 v).epochDiscard.toNat = bits v.toNat 0 32 := countOf_toNat v

/-- A read-only register keeps its value. -/
theorem Atoll.regWrite_readOnly (a : Atoll) (v : DWord) {off : Nat}
    (h : off = 0x000 ∨ off = 0x010 ∨ off = 0x018 ∨ off = 0x080 ∨ off = 0x0D8 ∨ off = 0x100) : a.regWrite off v = a := by
  rcases h with rfl | rfl | rfl | rfl | rfl | rfl <;> rfl

theorem Shoal.regWrite_low (x : Shoal) (v : DWord) {off : Nat} (h : off ≤ 0x040) : x.regWrite off v = x := by
  unfold Shoal.regWrite
  rw [if_neg (by omega), if_neg (by omega), if_neg (by omega), if_neg (by omega)]

/-! ### Straits and links -/

@[simp] theorem State.modStrait_strait (s : State) (d : Nat) (f : Strait → Strait) :
    (s.modStrait d f).strait d = f (s.strait d) := Tbl.getD_set_self _ _ _ _

theorem State.modStrait_strait_ne (s : State) {d e : Nat} (f : Strait → Strait) (h : e ≠ d) :
    (s.modStrait d f).strait e = s.strait e := Tbl.getD_set_ne _ _ _ h

@[simp] theorem State.modStrait_link (s : State) (d l : Nat) (f : Strait → Strait) : (s.modStrait d f).link l = s.link l := rfl

@[simp] theorem State.modLink_link (s : State) (l : Nat) (f : FLink → FLink) : (s.modLink l f).link l = f (s.link l) :=
  Tbl.getD_set_self _ _ _ _

theorem State.modLink_link_ne (s : State) {l k : Nat} (f : FLink → FLink) (h : k ≠ l) : (s.modLink l f).link k = s.link k :=
  Tbl.getD_set_ne _ _ _ h

theorem State.dropLink_link_ne (s : State) {l k : Nat} (h : k ≠ l) : (s.dropLink l).link k = s.link k := by
  unfold State.dropLink
  rw [State.modStrait_link, State.modLink_link_ne _ _ h]

/-- Emptying a link leaves its configuration. -/
theorem State.dropLink_config (s : State) (l : Nat) :
    ((s.dropLink l).link l).enable = (s.link l).enable ∧ ((s.dropLink l).link l).dateline = (s.link l).dateline ∧
      ((s.dropLink l).link l).group = (s.link l).group := by
  unfold State.dropLink
  simp

theorem State.setLinkConfig_link_ne (s : State) {l k : Nat} (v : Nat) (h : k ≠ l) : (s.setLinkConfig l v).link k = s.link k := by
  unfold State.setLinkConfig
  dsimp only
  split
  · rw [State.dropLink_link_ne _ h, State.modLink_link_ne _ _ h]
  · rw [State.modLink_link_ne _ _ h]

/-- LINK_CONFIG: bit 0 enables, bit 4 marks the dateline, bits 7:5 give the group. -/
theorem State.setLinkConfig_config (s : State) (l v : Nat) :
    ((s.setLinkConfig l v).link l).enable = (bits v 0 1 == 1) ∧ ((s.setLinkConfig l v).link l).dateline = (bits v 4 1 == 1) ∧
      ((s.setLinkConfig l v).link l).group = bits v 5 3 := by
  have hb : bits v 0 1 = v % 2 := by simp [bits]
  unfold State.setLinkConfig
  dsimp only
  split
  · obtain ⟨he, hd, hg⟩ := State.dropLink_config (s.modLink l _) l
    rw [he, hd, hg, State.modLink_link, hb]
    exact ⟨rfl, rfl, rfl⟩
  · rw [State.modLink_link, hb]
    exact ⟨rfl, rfl, rfl⟩

theorem State.straitReg_linkConfig (s : State) (x : Nat) (l : Fin 16) : (s.straitReg x (0x090 + 8 * l)).isSome = true := by
  have hl := l.isLt
  unfold State.straitReg
  simp only
  rw [if_neg (by omega), if_neg (by omega), if_neg (by omega), if_pos (by omega)]
  rfl

/-! ### REGISTER_WRITE of each owner -/

theorem execRegisterWrite_atoll {g : Fin 320} {off : Nat} {s : State} (v : DWord) (hc : s.clocked = true)
    (h : (s.atollReg g off).isSome = true) :
    execRegisterWrite (.atoll g off) v s = .next (s.modAtoll g fun a => a.regWrite off v) := by
  have hn : (s.atollReg g off).isNone = false := Option.isNone_eq_false_iff.mpr h
  simp [execRegisterWrite, hn, hc]

theorem execRegisterWrite_csr {g : Fin 320} {core : Fin 2} {num : Nat} {s : State} (v : DWord) (hr : s.unitRuns g = true)
    (h : ((s.atoll g).core core).csrRead core num ≠ none) :
    execRegisterWrite (.csr g core num) v s = .next (s.csrWrite g core num v) := by
  simp [execRegisterWrite, h, hr]

theorem Core.csrRead_sel (k : Core) (hart : Nat) : k.csrRead hart 0x7C0 ≠ none := by
  simp [Core.csrRead, Core.chanCsr]

theorem Core.csrRead_mask (k : Core) (hart : Nat) : k.csrRead hart 0x7C3 ≠ none := by
  simp [Core.csrRead, Core.chanCsr]

theorem State.onlyCore_modCore (s : State) (g c : Nat) (f : Core → Core) :
    s.onlyCore (s.modAtoll g fun a => a.modCore c f) g c := by
  refine ⟨s.onlyAtoll_modAtoll g _, ?_, fun d hd => ?_⟩
  · rw [State.modAtoll_atoll]
    rfl
  · rw [State.modAtoll_atoll, Atoll.modCore_core_ne _ _ hd]

theorem execRegisterWrite_shoal {h : Fin 16} {off : Nat} {s : State} (v : DWord) (hc : s.clocked = true)
    (hs : (s.shoalReg h off).isSome = true) :
    execRegisterWrite (.shoal h off) v s = .next (s.modShoal h fun x => x.regWrite off v) := by
  have hn : (s.shoalReg h off).isNone = false := Option.isNone_eq_false_iff.mpr hs
  simp [execRegisterWrite, hn, hc]

theorem execRegisterWrite_linkConfig (x : Fin 6) (l : Fin 16) {s : State} (v : DWord) (hc : s.clocked = true) :
    execRegisterWrite (.strait x (0x090 + 8 * l)) v s = .next (s.setLinkConfig (16 * x + l) (bits v.toNat 0 8)) := by
  have hn : (s.straitReg x (0x090 + 8 * l)).isNone = false := Option.isNone_eq_false_iff.mpr (s.straitReg_linkConfig x l)
  have hl := l.isLt
  have hoff : 0x090 + 8 * l.val ≤ 0x108 := by omega
  simp [execRegisterWrite, hn, hc, hoff]

theorem execRegisterWrite_strait {x : Fin 6} {off : Nat} {s : State} (v : DWord) (hc : s.clocked = true) (ho : 0x108 < off)
    (h : (s.straitReg x off).isSome = true) :
    execRegisterWrite (.strait x off) v s = .next (s.modStrait x fun y => y.regWrite off v) := by
  have hn : (s.straitReg x off).isNone = false := Option.isNone_eq_false_iff.mpr h
  have hoff : ¬(0x090 ≤ off ∧ off ≤ 0x108) := by omega
  simp [execRegisterWrite, hn, hc, hoff]

theorem State.bar0Write_outside {off : Nat} (s : State) (h : RegHalf) (v : DWord) (ho : off < 0x028 ∨ 0x52000 ≤ off) :
    s.bar0Write off h v = s := by
  unfold State.bar0Write
  split
  · rfl
  · rw [if_neg (by omega), if_neg (by omega), if_neg (by omega), if_neg (by omega)]

/-- Settles O14, owner by owner: each write is its owner's `regWrite` (or `csrWrite`, `setLinkConfig`, `bar0Write`), which changes
the register's fields alone. -/
theorem registerWrites : Obligations.RegisterWrites := by
  unfold Obligations.RegisterWrites
  refine ⟨?atoll, ?sel, ?mask, ?shoal, ?isle, ?link, ?strait, ?collector, ?bar0, ?outside, ?unlisted⟩
  case atoll =>
    intro g off v s hc hr
    refine ⟨_, execRegisterWrite_atoll v hc hr, s.onlyAtoll_modAtoll g _, ?_⟩
    rw [State.modAtoll_atoll]
    refine ⟨Atoll.regWrite_lagoon _ _ _, Atoll.regWrite_cores _ _ _, ?_, ?_, ?_, ?_, Atoll.regWrite_readOnly _ v⟩
    · rintro rfl
      exact Atoll.regWrite_partition _ v
    · rintro rfl
      exact Atoll.regWrite_cacheBase _ v
    · rintro rfl
      exact Atoll.regWrite_split _ v
    · rintro rfl
      exact Atoll.regWrite_epochDiscard _ v
  case sel =>
    intro g core v s hr
    refine ⟨_, execRegisterWrite_csr v hr (Core.csrRead_sel _ _), s.onlyCore_modCore g core _, ?_⟩
    simp [State.csrWrite]
  case mask =>
    intro g core v s hr
    refine ⟨_, execRegisterWrite_csr v hr (Core.csrRead_mask _ _), s.onlyCore_modCore g core _, ?_⟩
    simp [State.csrWrite]
  case shoal =>
    intro h off v s hc hr
    refine ⟨_, execRegisterWrite_shoal v hc hr, rfl, fun x hx => State.modShoal_shoal_ne s _ hx, ?_⟩
    rw [State.modShoal_shoal]
    refine ⟨?_, ?_, Shoal.regWrite_low _ v⟩
    · rintro rfl
      exact countOf_toNat v
    · rintro rfl
      exact countOf_toNat v
  case isle =>
    intro d v s hc
    refine ⟨s.modNet fun n => { n with isleRetry := Tbl.set n.isleRetry d (countOf v) }, ?_, rfl, ?_⟩
    · simp [exec, execRegisterWrite, State.isleReg, hc]
    · simp [State.modNet]
  case link =>
    intro x l v s hc
    obtain ⟨he, hd, hg⟩ := s.setLinkConfig_config (16 * x + l) (bits v.toNat 0 8)
    refine ⟨_, execRegisterWrite_linkConfig x l v hc, ?_, ?_, ?_, fun y hy => s.setLinkConfig_link_ne _ hy⟩
    · rw [he, bits_low_byte _ _ _ (by decide), bits_one_eq_getLsbD]
    · rw [hd, bits_low_byte _ _ _ (by decide), bits_one_eq_getLsbD]
    · rw [hg, bits_low_byte _ _ _ (by decide)]
  case strait =>
    intro x v s hc
    refine ⟨_, execRegisterWrite_strait (off := 0x150) v hc (by decide) rfl, ?_, fun y hy => s.modStrait_strait_ne _ hy, rfl⟩
    rw [State.modStrait_strait]
    exact countOf_toNat v
  case collector =>
    intro node v s hc
    refine ⟨s.modFlt fun f => { f with
      collectors := Tbl.set f.collectors node { s.collector node with overflow := countOf v } }, ?_, ?_, fun n hn => ?_⟩
    · simp [exec, execRegisterWrite, State.collectorReg, hc]
    · exact Tbl.getD_set_self _ _ _ _
    · exact Tbl.getD_set_ne _ _ _ hn
  case bar0 =>
    intro v s ho
    refine ⟨s.modHost fun x => { x with biTimeouts := countOf v }, ?_, rfl, countOf_toNat v⟩
    simp [exec, execRegisterWrite, State.bar0Write, ho]
  case outside =>
    intro off h v s ho
    exact ⟨s, congrArg Host.Outcome.next (s.bar0Write_outside h v ho), rfl⟩
  case unlisted =>
    intro g off v s h
    simp [exec, execRegisterWrite, h]

end Sys2Proof.Machine

section
/-! SUPPORT. The statement of the state at reset (04 R110, 03 R55, 07 R187). -/

namespace Sys2Proof.Machine

/-- Settles O46: every field stands in the reset state as written, and an atoll that no step has touched is the atoll of reset. -/
theorem resetState : Obligations.ResetState := by
  refine ⟨rfl, fun _ => rfl, rfl, rfl, rfl, rfl, rfl, fun g => ⟨rfl, rfl, rfl, rfl, rfl, fun _ => rfl, rfl⟩⟩

end Sys2Proof.Machine
end

section
/-! SUPPORT. Exceptions of a scalar core, and the custom encodings that raise one (03 R73). -/

namespace Sys2Proof.Machine

@[simp] theorem Tbl.getD_set {α : Type} (t : Tbl α) (a b : Nat) (v d : α) :
    Tbl.getD (Tbl.set t a v) b d = if b = a then v else Tbl.getD t b d := by
  split
  · next h => rw [h, Tbl.getD_set_self]
  · next h => exact Tbl.getD_set_ne t v d h

/-- An exception writes its cause, pc and value to the CSRs of 0x342, 0x341 and 0x343. -/
theorem Core.takeTrap_csr (k : Core) (cause : Nat) (tval : DWord) :
    Tbl.getD (k.takeTrap cause tval).csr 0x341 0 = k.pc ∧
    Tbl.getD (k.takeTrap cause tval).csr 0x342 0 = BitVec.ofNat 64 cause ∧
    Tbl.getD (k.takeTrap cause tval).csr 0x343 0 = tval := by
  simp [Core.takeTrap]

@[simp] theorem Core.takeTrap_reg (k : Core) (cause : Nat) (tval : DWord) (r : Nat) : (k.takeTrap cause tval).reg r = k.reg r := rfl

/-- What an exception of a core leaves: every register, and everything beside that core. -/
theorem State.coreTrap_spec (s : State) (g c cause : Nat) (tval : DWord) :
    s.onlyCore (s.coreTrap g c cause tval) g c ∧
    Tbl.getD (((s.coreTrap g c cause tval).atoll g).core c).csr 0x341 0 = ((s.atoll g).core c).pc ∧
    Tbl.getD (((s.coreTrap g c cause tval).atoll g).core c).csr 0x342 0 = BitVec.ofNat 64 cause ∧
    Tbl.getD (((s.coreTrap g c cause tval).atoll g).core c).csr 0x343 0 = tval ∧
    ∀ r, (((s.coreTrap g c cause tval).atoll g).core c).reg r = ((s.atoll g).core c).reg r := by
  have h : ((s.coreTrap g c cause tval).atoll g).core c =
      Core.takeTrap { (s.atoll g).core c with reservation := none } cause tval := by
    unfold State.coreTrap
    rw [State.modAtoll_atoll, Atoll.modCore_core]
  rw [h]
  obtain ⟨h1, h2, h3⟩ := Core.takeTrap_csr { (s.atoll g).core c with reservation := none } cause tval
  exact ⟨s.onlyCore_modCore g c _, h1, h2, h3, fun _ => rfl⟩

/-- An instruction of a custom opcode that Table 3-15 does not list raises exception 2 with its word. -/
theorem State.coreExec_unlistedCustom (s : State) (g c i raw len : Nat) (dec : Decoded)
    (h : (bits i 0 7 = 0x0B ∧ customOk i = false) ∨ bits i 0 7 = 0x2B ∨ bits i 0 7 = 0x5B ∨ bits i 0 7 = 0x7B) :
    s.coreExec g c i raw len dec = s.coreTrap g c 2 (BitVec.ofNat 64 raw) := by
  unfold State.coreExec
  rcases h with ⟨h, hc⟩ | h | h | h
  · simp [h, hc]
  all_goals simp [h]

/-- A running core at an even pc with a 32-bit instruction inside its own SRAM executes that word. -/
theorem execScalarInstruction_word (g : Fin 320) (core : Fin 2) (s : State) (hrun : s.coreRuns g core = true)
    (heven : ((s.atoll g).core core).pc.toNat % 2 = 0) (hfit : ((s.atoll g).core core).pc.toNat + 4 ≤ 0x10000)
    (hlen : ((s.atoll g).core core).instrLen = 4) :
    execScalarInstruction g core .pass .clean s =
      .next (s.coreExec g core (Mem.readNat ((s.atoll g).core core).sram ((s.atoll g).core core).pc.toNat 4)
        (Mem.readNat ((s.atoll g).core core).sram ((s.atoll g).core core).pc.toNat 4) 4 .clean) := by
  have h2 : ¬ 0x10000 < ((s.atoll g).core core).pc.toNat + 2 := by omega
  have h4 : ¬ 0x10000 < ((s.atoll g).core core).pc.toNat + 4 := by omega
  simp [execScalarInstruction, hrun, heven, hlen, h2, h4, State.sramDecode, sramLost, sramSettled]

/-- Settles O12: such a word runs as an instruction of its core, which raises the exception. -/
theorem unlistedCustomTraps : Obligations.UnlistedCustomTraps := by
  intro g core s k i hrun heven hfit hlen hop
  refine ⟨_, execScalarInstruction_word g core s hrun heven hfit hlen, ?_⟩
  rw [State.coreExec_unlistedCustom s g core i i 4 .clean hop]
  exact s.coreTrap_spec g core 2 _

end Sys2Proof.Machine
end

section
/-! SUPPORT. Loads, stores and neighbour requests (03 R53, R54). -/

namespace Sys2Proof.Machine

/-- An access to the own lagoon inside it, both ends in bays that take accesses, resolves to it. -/
theorem State.resolve_own {s : State} {g n : Nat} {addr : Word} (ht : laTarget addr = 0) (hfit : laOffset addr + n ≤ 0x1800000)
    (hb : (s.atoll g).bayBlocked (bayOf (laOffset addr)) = false)
    (he : (s.atoll g).bayBlocked (bayOf (laOffset addr + n - 1)) = false) :
    s.resolve g addr n = .ok (g, laOffset addr) := by
  have h : ¬ 0x1800000 < laOffset addr + n := by omega
  simp [State.resolve, ht, h, hb, he]

/-- A clean read of words that no poison marks returns the bytes and changes nothing. -/
theorem State.lagoonRead_clean {s : State} {t off n : Nat} (op : Nat × Nat) (hp : (s.atoll t).poisoned off n = false) :
    s.lagoonRead t off n .clean op = (s, stOk, Mem.readBytes (s.atoll t).lagoon off n) := by
  simp [State.lagoonRead, hp, sramSettled, State.lagoonDecode]

/-- A load that ends well writes rd of its core, and no other register. -/
theorem State.endLoad_reg (s : State) (g : Nat) (c : Fin 2) (rd : Fin 32) (addr : Word) (size : Nat) (sgn : Bool)
    (data : List Byte) (r : Nat) :
    (((s.endLoad g (.core c rd) addr size sgn stOk data).atoll g).core ((s.atoll g).coreIdx c)).reg r =
      if r = 0 then 0 else if r = rd then extendBytes sgn size (leNat data)
      else ((s.atoll g).core ((s.atoll g).coreIdx c)).reg r := by
  have h : (((s.endLoad g (.core c rd) addr size sgn stOk data).atoll g).core ((s.atoll g).coreIdx c)).reg r =
      (((s.atoll g).core ((s.atoll g).coreIdx c)).setReg rd (extendBytes sgn size (leNat data))).reg r := by
    simp [State.endLoad, stOk]
    rfl
  rw [h, Core.reg_setReg]

/-- A store's end changes its own core alone, and no register. -/
theorem State.endStore_spec (s : State) (g : Nat) (c : Fin 2) (rd : Fin 32) (addr : Word) :
    ∃ k, s.endStore g (.core c rd) addr stOk = s.modAtoll g k ∧ (∀ a, (k a).lagoon = a.lagoon) ∧
      ∀ a d r, ((k a).core d).reg r = (a.core d).reg r := by
  refine ⟨fun a => a.modCore (a.coreIdx c) fun k => k.advance k.instrLen, by simp [State.endStore, stOk], fun _ => rfl, ?_⟩
  intro a d r
  by_cases h : d = a.coreIdx c
  · subst h
    rw [Atoll.modCore_core]
    rfl
  · rw [Atoll.modCore_core_ne _ _ h]

/-- A store that no tile op holds leaves its bytes in the lagoon, and every other byte as it was. -/
theorem State.lagoonWrite_read {s : State} {t off : Nat} (tag : BitVec 5) {data : List Byte}
    (hfree : s.writeHeld t off data.length = false) (hwf : Memory.wf (s.atoll t).lagoon) :
    (∀ i, (h : i < data.length) → Mem.read ((s.lagoonWrite t off tag data).atoll t).lagoon (off + i) = data[i]) ∧
    ∀ a, a < off ∨ off + data.length ≤ a →
      Mem.read ((s.lagoonWrite t off tag data).atoll t).lagoon a = Mem.read (s.atoll t).lagoon a := by
  rw [s.lagoonWrite_free t off tag data hfree, State.modAtoll_atoll]
  refine ⟨fun i h => ?_, fun a ha => ?_⟩
  · rw [Atoll.read_store hwf, if_pos (by omega)]
    simp [h]
  · rw [Atoll.read_store hwf, if_neg (by omega)]

/-- A lagoon write that no tile op holds leaves the registers of every core of the atoll. -/
theorem State.lagoonWrite_cores {s : State} {t off : Nat} (tag : BitVec 5) {data : List Byte}
    (hfree : s.writeHeld t off data.length = false) : ((s.lagoonWrite t off tag data).atoll t).cores = (s.atoll t).cores := by
  rw [s.lagoonWrite_free t off tag data hfree, State.modAtoll_atoll, Atoll.store_cores]

theorem lagoonLoad_completes {g : Fin 320} {c : Fin 2} {rd : Fin 32} {addr : Word} {size : Nat} {sgn : Bool} {s : State}
    (hrun : s.unitRuns g = true) (h0 : 0 < size) (hsize : size ≤ 128)
    (hr : s.resolve g addr size = .ok (g.val, laOffset addr)) (ht : laTarget addr = 0)
    (hp : (s.atoll g).poisoned (laOffset addr) size = false) :
    exec (.lagoonLoad g (.core c rd) addr size sgn .clean) s =
      .next (s.endLoad g (.core c rd) addr size sgn stOk (Mem.readBytes (s.atoll g).lagoon (laOffset addr) size)) := by
  simp [exec, execLagoonLoad, State.load, hrun, h0, hsize, ht, hr, State.lagoonRead_clean _ hp]

theorem lagoonStore_completes {g : Fin 320} {who : Requester} {addr : Word} {tag : BitVec 5} {data : List Byte} {s : State}
    (hrun : s.unitRuns g = true) (h0 : 0 < data.length) (hsize : data.length ≤ 256)
    (hr : s.resolve g addr data.length = .ok (g.val, laOffset addr)) (ht : laTarget addr = 0) :
    exec (.lagoonStore g who addr tag data) s =
      .next ((s.lagoonWrite g (laOffset addr) tag data).endStore g who addr stOk) := by
  simp only [exec, execLagoonStore, State.storeTo, hrun, h0, hsize, ht, hr]
  rfl

/-- A write that the target serves is a write of its lagoon. -/
theorem neighbourWrite_served {target source : Fin 320} {off : Nat} (tag : BitVec 5) (data : List Byte) (dec : Decoded) {s : State}
    (hrun : s.running = true) (hf : (s.atoll target).frozen = false) (hoff : off < 0x1800000)
    (hst : s.nbrStatus source target off = stOk) :
    exec (.neighbourRequest target source off (.write tag data) dec) s = .next (s.lagoonWrite target off tag data) := by
  have ho : ¬ 0x1800000 ≤ off := by omega
  simp [exec, execNeighbourRequest, hrun, hf, ho, hst, stOk, acDestReset]

/-- A read that the target serves, of words that no poison marks, changes nothing. -/
theorem neighbourRead_served {target source : Fin 320} {off n : Nat} {s : State}
    (hrun : s.running = true) (hf : (s.atoll target).frozen = false) (hoff : off < 0x1800000)
    (hst : s.nbrStatus source target off = stOk) (hp : (s.atoll target).poisoned off n = false) :
    exec (.neighbourRequest target source off (.read n) .clean) s = .next s := by
  have ho : ¬ 0x1800000 ≤ off := by omega
  simp [exec, execNeighbourRequest, hrun, hf, ho, hst, stOk, acDestReset, State.lagoonRead_clean _ hp]

/-- A request that the target refuses, other than one it absorbs in reset, changes nothing. -/
theorem neighbourRequest_refused {target source : Fin 320} {off : Nat} (req : NbrAccess) (dec : Decoded) {s : State}
    (h : s.nbrStatus source target off = acUnreachable ∨ s.nbrStatus source target off = acBayMode) :
    exec (.neighbourRequest target source off req dec) s = .next s := by
  rcases h with h | h <;> simp [exec, execNeighbourRequest, h, stOk, acDestReset, acUnreachable, acBayMode]

/-- Settles O1: each access resolves to the own lagoon or is served by its target, and its effect is the effect of one lagoon
read or write. -/
theorem lagoonAccess : Obligations.LagoonAccess := by
  refine ⟨?load, ?store, ?read, ?write, ?refused⟩
  case load =>
    intro g c rd addr size sgn s hrun h0 hsize ht hfit hb he hp
    refine ⟨_, lagoonLoad_completes hrun h0 hsize (State.resolve_own ht hfit hb he) ht hp, s.onlyCore_modCore g _ _, ?_, ?_⟩
    · intro hrd
      have : rd.val ≠ 0 := fun e => hrd (Fin.ext e)
      rw [State.endLoad_reg, if_neg this, if_pos rfl]
    · intro r hr
      rw [State.endLoad_reg, if_neg hr]
      split
      · next h0 => simp [Core.reg, h0]
      · rfl
  case store =>
    intro g c rd addr tag data s hrun h0 hsize ht hfit hwf hb he hfree
    obtain ⟨k, hk, hl, hreg⟩ := (s.lagoonWrite g (laOffset addr) tag data).endStore_spec g c rd addr
    obtain ⟨hin, hout⟩ := State.lagoonWrite_read tag hfree hwf
    refine ⟨_, lagoonStore_completes hrun h0 hsize (State.resolve_own ht hfit hb he) ht, ?_⟩
    rw [hk]
    dsimp only
    rw [State.modAtoll_atoll, hl]
    refine ⟨State.onlyAtoll_trans (s.onlyAtoll_lagoonWrite g _ tag data) (State.onlyAtoll_modAtoll _ g k), hin, hout, fun d r => ?_⟩
    rw [hreg, Atoll.core, Atoll.core, State.lagoonWrite_cores tag hfree]
  case read =>
    intro target source off n s hrun hf hoff hst _ _ hp
    exact ⟨s, neighbourRead_served hrun hf hoff hst hp, rfl⟩
  case write =>
    intro target source off tag data dec s hrun hf hoff hst hfree hwf
    exact ⟨_, neighbourWrite_served tag data dec hrun hf hoff hst, s.onlyAtoll_lagoonWrite target off tag data,
      State.lagoonWrite_read tag hfree hwf⟩
  case refused =>
    intro target source off req dec s h
    exact ⟨_, neighbourRequest_refused req dec h, rfl⟩

end Sys2Proof.Machine
end

section
/-! SUPPORT. The port of the bank operations: which of the operations an atoll's other work shares leave it as it is (03 R60). -/

namespace Sys2Proof.Machine

/-- The operations waiting at atoll g's bank command port. -/
def State.bankPort (s : State) (g : Nat) : List BankOp := (s.atoll g).bankOps

theorem State.bankPort_congr {s t : State} (h : t.atolls = s.atolls) (g : Nat) : t.bankPort g = s.bankPort g := by
  rw [State.bankPort, State.atoll, h]
  rfl

@[simp] theorem State.modAtoll_bankPort (s : State) (h : Nat) (f : Atoll → Atoll) (hf : ∀ a, (f a).bankOps = a.bankOps) (g : Nat) :
    (s.modAtoll h f).bankPort g = s.bankPort g := by
  unfold State.bankPort
  by_cases e : g = h
  · subst e
    rw [State.modAtoll_atoll, hf]
  · rw [State.modAtoll_atoll_ne s f e]

theorem State.foldl_bankPort {α : Type} (f : State → α → State) (l : List α) (s : State) (g : Nat)
    (h : ∀ t x, (f t x).bankPort g = t.bankPort g) : (l.foldl f s).bankPort g = s.bankPort g := by
  induction l generalizing s with
  | nil => rfl
  | cons x l ih => exact (ih (f s x)).trans (h s x)

@[simp] theorem Atoll.modCore_bankOps (a : Atoll) (c : Nat) (f : Core → Core) : (a.modCore c f).bankOps = a.bankOps := by rfl
@[simp] theorem Atoll.modSeq_bankOps (a : Atoll) (u : Nat) (f : Sequencer → Sequencer) : (a.modSeq u f).bankOps = a.bankOps := by rfl
@[simp] theorem Atoll.active_bankOps (a : Atoll) : a.active.bankOps = a.bankOps := by rfl

@[simp] theorem Atoll.store_bankOps (a : Atoll) (off : Nat) (tag : BitVec 5) (data : List Byte) :
    (a.store off tag data).bankOps = a.bankOps := by
  obtain ⟨l, m, h⟩ := a.store_frame off tag data
  rw [h]

/-! ### What changes no atoll -/

@[simp] theorem State.raise_bankPort (s : State) (r : RecIn) (g : Nat) : (s.raise r).bankPort g = s.bankPort g := rfl
@[simp] theorem State.modMem_bankPort (s : State) (f : MemSt → MemSt) (g : Nat) : (s.modMem f).bankPort g = s.bankPort g := rfl
@[simp] theorem State.modShoal_bankPort (s : State) (h : Nat) (f : Shoal → Shoal) (g : Nat) :
    (s.modShoal h f).bankPort g = s.bankPort g := rfl
@[simp] theorem State.modHost_bankPort (s : State) (f : HostSt → HostSt) (g : Nat) : (s.modHost f).bankPort g = s.bankPort g := rfl

@[simp] theorem State.modPart_bankPort (s : State) (p : Nat) (f : Part → Part) (g : Nat) :
    (s.modPart p f).bankPort g = s.bankPort g := by
  unfold State.modPart
  split <;> rfl

@[simp] theorem State.trigger_bankPort (s : State) (p : Nat) (t : Trigger) (g : Nat) : (s.trigger p t).bankPort g = s.bankPort g :=
  s.modPart_bankPort p _ g

@[simp] theorem State.notice_bankPort (s : State) (p kind status : Nat) (seq : Word) (report : Half) (g : Nat) :
    (s.notice p kind status seq report).bankPort g = s.bankPort g := rfl

@[simp] theorem State.stopStream_bankPort (s : State) (p st status kind at_ off cause : Nat) (word : DWord) (seq : Word)
    (quiet : Bool) (g : Nat) : (s.stopStream p st status kind at_ off cause word seq quiet).bankPort g = s.bankPort g := by
  unfold State.stopStream
  dsimp only
  (repeat' split) <;> simp

@[simp] theorem State.stopAllFenced_bankPort (s : State) (p cause : Nat) (seq : Word) (g : Nat) :
    (s.stopAllFenced p cause seq).bankPort g = s.bankPort g := by
  unfold State.stopAllFenced
  split
  · rfl
  · refine State.foldl_bankPort _ _ _ _ fun t st => ?_
    dsimp only
    split <;> simp

@[simp] theorem State.judge_bankPort (s : State) (p st idx : Nat) (v : Verdict) (g : Nat) :
    (s.judge p st idx v).bankPort g = s.bankPort g := by
  unfold State.judge
  (repeat' split) <;> simp

@[simp] theorem State.finishCmd_bankPort (s : State) (p st idx : Nat) (g : Nat) :
    (s.finishCmd p st idx).bankPort g = s.bankPort g := s.modPart_bankPort p _ g

/-! ### Waiters (05 R130) -/

@[simp] theorem State.dropWaits_bankPort (s : State) (x c : Nat) (g : Nat) : (s.dropWaits x c).bankPort g = s.bankPort g := by
  unfold State.dropWaits
  simp

@[simp] theorem State.wakeCore_bankPort (s : State) (x c : Nat) (g : Nat) : (s.wakeCore x c).bankPort g = s.bankPort g := by
  unfold State.wakeCore
  (repeat' split) <;> simp

@[simp] theorem State.wakeSeq_bankPort (s : State) (x u : Nat) (g : Nat) : (s.wakeSeq x u).bankPort g = s.bankPort g := by
  unfold State.wakeSeq
  simp

/-- A chain of completions, signals and wakes leaves every bank command port. -/
theorem State.wakeChain_bankPort (k g : Nat) :
    (∀ s p st idx v, (State.completeCmdN k s p st idx v).bankPort g = s.bankPort g) ∧
    (∀ s o inc, (State.signalModN k s o inc).bankPort g = s.bankPort g) ∧
    ∀ s o ws, (State.wakeModN k s o ws).bankPort g = s.bankPort g := by
  induction k with
  | zero =>
    exact ⟨fun _ _ _ _ _ => by rw [State.completeCmdN], fun _ _ _ => by rw [State.signalModN], fun _ _ _ => by rw [State.wakeModN]⟩
  | succ k ih =>
    obtain ⟨hcomplete, hsignal, hwake⟩ := ih
    refine ⟨fun s p st idx v => ?_, fun s o inc => ?_, fun s o ws => ?_⟩
    · unfold State.completeCmdN
      dsimp only
      (repeat' split) <;> simp [hsignal]
    · unfold State.signalModN
      simp [hwake]
    · cases ws with
      | nil => simp [State.wakeModN]
      | cons w ws =>
        unfold State.wakeModN
        rw [hwake]
        split <;> simp [hcomplete]

@[simp] theorem State.completeCmd_bankPort (s : State) (p st idx : Nat) (v : Verdict) (g : Nat) :
    (s.completeCmd p st idx v).bankPort g = s.bankPort g := (State.wakeChain_bankPort _ g).1 s p st idx v

@[simp] theorem State.wakeAtollObj_bankPort (s : State) (x o : Nat) (g : Nat) : (s.wakeAtollObj x o).bankPort g = s.bankPort g := by
  unfold State.wakeAtollObj
  refine State.foldl_bankPort _ _ _ _ fun t w => ?_
  split <;> simp

@[simp] theorem State.signalAtoll_bankPort (s : State) (x o inc : Nat) (g : Nat) :
    (s.signalAtoll x o inc).bankPort g = s.bankPort g := by
  unfold State.signalAtoll
  simp

@[simp] theorem State.batchEnd_bankPort (s : State) (p st idx : Nat) (w : DWord) (g : Nat) :
    (s.batchEnd p st idx w).bankPort g = s.bankPort g := by
  unfold State.batchEnd
  (repeat' split) <;> simp

/-- Delivering a completion word leaves every bank command port. -/
@[simp] theorem State.deliverOp_bankPort (s : State) (x : Nat) (src : OpSource) (origin : Nat) (w : DWord) (notify : Bool)
    (obj g : Nat) : (s.deliverOp x src origin w notify obj).bankPort g = s.bankPort g := by
  unfold State.deliverOp
  dsimp only
  (repeat' split) <;> simp

end Sys2Proof.Machine
end

section
/-! SUPPORT. Writes by module address and cache lines, as far as they leave an atoll's other fields. -/

namespace Sys2Proof.Machine

/-- A field of an atoll that its lagoon's bytes, tags and held writes do not touch. -/
def Atoll.OffLagoon {β : Type} (π : Atoll → β) : Prop :=
  ∀ a l m w, π { a with lagoon := l, lineMeta := m, heldWrites := w } = π a

theorem Atoll.offLagoon_cache : Atoll.OffLagoon Atoll.cache := fun _ _ _ _ => rfl
theorem Atoll.offLagoon_bankOps : Atoll.OffLagoon Atoll.bankOps := fun _ _ _ _ => rfl

/-- A lagoon write leaves such a field of every atoll. -/
theorem State.lagoonWrite_offLagoon {β : Type} {π : Atoll → β} (hπ : Atoll.OffLagoon π) (s : State) (t off : Nat) (tag : BitVec 5)
    (data : List Byte) (g : Nat) : π ((s.lagoonWrite t off tag data).atoll g) = π (s.atoll g) := by
  by_cases e : g = t
  · subst e
    unfold State.lagoonWrite
    split <;> rw [State.modAtoll_atoll]
    · exact hπ _ _ _ _
    · obtain ⟨l, m, h⟩ := (s.atoll g).store_frame off tag data
      rw [h]
      exact hπ _ _ _ _
  · rw [(s.onlyAtoll_lagoonWrite t off tag data).2 g e]

theorem State.writePlace_offLagoon {β : Type} {π : Atoll → β} (hπ : Atoll.OffLagoon π) (s : State) (pl : Place) (tag : BitVec 5)
    (data : List Byte) (g : Nat) : π ((s.writePlace pl tag data).atoll g) = π (s.atoll g) := by
  unfold State.writePlace
  split
  · unfold State.dramWrite
    dsimp only
    split <;> rfl
  · exact s.lagoonWrite_offLagoon hπ _ _ _ _ g
  · rfl

theorem State.physWrite_offLagoon {β : Type} {π : Atoll → β} (hπ : Atoll.OffLagoon π) (k : Nat) (s : State) (who : Option Nat)
    (addr : Nat) (tag : BitVec 5) (data : List Byte) (g : Nat) :
    π ((State.physWrite k s who addr tag data).1.atoll g) = π (s.atoll g) := by
  induction k generalizing s addr data with
  | zero => rfl
  | succ k ih =>
    unfold State.physWrite
    split
    · rfl
    · dsimp only
      split
      · unfold State.bankLate
        dsimp only
        (repeat' split) <;> rfl
      · rw [ih, s.writePlace_offLagoon hπ]

theorem State.writeBack_offLagoon {β : Type} {π : Atoll → β} (hπ : Atoll.OffLagoon π) (s : State) (x : Nat) (c : CacheLine)
    (g : Nat) : π ((s.writeBack x c).atoll g) = π (s.atoll g) := State.physWrite_offLagoon hπ _ _ _ _ _ _ g

end Sys2Proof.Machine
end

section
/-! SUPPORT. A bank operation from its operands to its end (03 R60, R61). -/

namespace Sys2Proof.Machine

/-- The state that a cache access goes on with. -/
def CacheOut.state : CacheOut → State
  | .waits t => t
  | .ends t _ _ => t

/-- The state that the read of a run goes on with. -/
def RunOut.state : RunOut → State
  | .waits t => t
  | .ends t _ _ => t

/-- The state that a bank operation goes on with. -/
def BankOut.state : BankOut → State
  | .waits t => t
  | .fails t _ => t
  | .writes t _ _ => t

@[simp] theorem State.writeBack_bankPort (s : State) (x : Nat) (c : CacheLine) (g : Nat) :
    (s.writeBack x c).bankPort g = s.bankPort g := s.writeBack_offLagoon Atoll.offLagoon_bankOps x c g

@[simp] theorem State.lagoonWrite_bankPort (s : State) (t off : Nat) (tag : BitVec 5) (data : List Byte) (g : Nat) :
    (s.lagoonWrite t off tag data).bankPort g = s.bankPort g := s.lagoonWrite_offLagoon Atoll.offLagoon_bankOps t off tag data g

@[simp] theorem Atoll.setLine_bankOps (a : Atoll) (bay set w : Nat) (c : CacheLine) : (a.setLine bay set w c).bankOps = a.bankOps := by
  rfl

@[simp] theorem State.cacheAlloc_bankPort (s : State) (x bay set g : Nat) :
    (s.cacheAlloc x bay set).1.bankPort g = s.bankPort g := by
  unfold State.cacheAlloc
  dsimp only
  (repeat' split) <;> simp

/-- A check of the host's cached lines changes the host alone. -/
theorem State.biCheck_bankPort {s t : State} {rs : List (Nat × Nat × Bool)} (h : s.biCheck rs = .waits t ∨ s.biCheck rs = .timeout t)
    (g : Nat) : t.bankPort g = s.bankPort g := by
  unfold State.biCheck at h
  dsimp only at h
  split at h
  · simp at h
  · split at h <;> simp at h <;> subst h <;> rfl

@[simp] theorem State.cacheRead_bankPort (s : State) (x off n g : Nat) :
    (s.cacheRead x off n).state.bankPort g = s.bankPort g := by
  unfold State.cacheRead
  dsimp only
  (repeat' split) <;> simp [CacheOut.state]
  · exact State.biCheck_bankPort (.inl ‹_›) g
  · exact State.biCheck_bankPort (.inr ‹_›) g

@[simp] theorem State.runRead_bankPort (k : Nat) (s : State) (x addr n g : Nat) :
    (State.runRead k s x addr n).state.bankPort g = s.bankPort g := by
  induction k generalizing s addr n with
  | zero => rfl
  | succ k ih =>
    have hrest (s1 : State) := ih s1 (addr + min n (128 - addr % 128)) (n - min n (128 - addr % 128))
    unfold State.runRead
    dsimp only
    split
    · rfl
    · split
      case isTrue =>
        have hc := s.cacheRead_bankPort x (laOffset (BitVec.ofNat 32 addr)) (min n (128 - addr % 128)) g
        split
        · next e => rwa [e] at hc
        · next s1 st bs e =>
          rw [e] at hc
          have h1 := (hrest s1).trans hc
          split
          · split <;> simp_all [RunOut.state]
          · exact hc
      case isFalse =>
        have h1 := hrest s
        split
        · rfl
        · split
          · rfl
          · split <;> simp_all [RunOut.state]

@[simp] theorem State.readRun_bankPort (s : State) (x addr n g : Nat) :
    (s.readRun x addr n).state.bankPort g = s.bankPort g := by
  unfold State.readRun
  dsimp only
  generalize (if laTarget (BitVec.ofNat 32 addr) = 5 then 0x20000000 else 0x1800000) = lim
  split
  · rfl
  · exact State.runRead_bankPort ..

@[simp] theorem State.readRuns_bankPort (rs : List (Nat × Nat)) (s : State) (x g : Nat) :
    (State.readRuns rs s x).1.bankPort g = s.bankPort g := by
  induction rs generalizing s with
  | nil => rfl
  | cons r rs ih =>
    have h := s.readRun_bankPort x r.1 r.2 g
    unfold State.readRuns
    split
    · next e => rwa [e] at h
    · next s1 st bs e =>
      rw [e] at h
      split
      · exact h
      · exact (ih s1).trans h

/-- A bank operation's reads leave every bank command port. -/
theorem State.bankRun_bankPort (s : State) (x : Nat) (b : BankCmd) (g : Nat) :
    (s.bankRun x b).state.bankPort g = s.bankPort g := by
  have h (rs : List (Nat × Nat)) := State.readRuns_bankPort rs s x g
  unfold State.bankRun
  dsimp only
  (repeat' split) <;> simp_all [BankOut.state]

@[simp] theorem State.putRuns_bankPort (s : State) (x : Nat) (rs : List TileOut) (g : Nat) :
    (s.putRuns x rs).bankPort g = s.bankPort g := by
  unfold State.putRuns
  refine State.foldl_bankPort _ _ _ _ fun t r => ?_
  split <;> simp

theorem State.foldl_fst_bankPort {α β : Type} (f : State × β → α → State × β) (l : List α) (s : State) (b : β) (g : Nat)
    (h : ∀ t c x, (f (t, c) x).1.bankPort g = t.bankPort g) : (l.foldl f (s, b)).1.bankPort g = s.bankPort g := by
  induction l generalizing s b with
  | nil => rfl
  | cons x l ih => exact (ih _ _).trans (h s b x)

@[simp] theorem State.bankLines_bankPort (s : State) (x : Nat) (b : BankCmd) (g : Nat) :
    (s.bankLines x b).1.bankPort g = s.bankPort g := by
  unfold State.bankLines
  refine State.foldl_fst_bankPort _ _ _ _ _ fun t low i => ?_
  have h := t.bankRun_bankPort x b g
  dsimp only
  split
  · next e =>
    rw [e] at h
    rw [State.putRuns_bankPort]
    exact h
  · rfl

/-- The end of the operation at the head of the port is its outcome; every operation behind it stays. -/
theorem State.bankEnd_bankPort {s : State} {g : Nat} {o : BankOp} {rest : List BankOp} (h : s.bankPort g = o :: rest)
    (st off : Nat) (low : Bool) :
    (s.bankEnd g st off low).bankPort g = { o with outcome := some (st, off, low) } :: rest := by
  unfold State.bankPort at h
  rw [State.bankPort, State.bankEnd, State.modAtoll_atoll, h]

/-- What an operation at the head of the port does when it passes its checks, reads its operands and its output runs can be
written: it writes them, line by line where source and output overlap, and ends with DONE. -/
theorem State.bankRow_runs {g code : Nat} {o : BankOp} {rest : List BankOp} {p : Nat × Nat} {rs : List TileOut} {low : Bool}
    {s s1 : State} (hq : s.bankPort g = o :: rest) (ho : o.outcome = none) (hrun : s.unitRuns g = true)
    (hf : s.isFenced (bankUnits g) = false) (hcode : (bankCmd o.cmd).op = code)
    (hchk : firstBad o.cmd.toNat (bankChecks o.cmd) = none)
    (hdst : s.resolve g (BitVec.ofNat 32 (bankCmd o.cmd).dst) ((bankCmd o.cmd).lines * 128) = .ok p)
    (hread : s.bankRun g (bankCmd o.cmd) = .writes s1 rs low) (hok : s1.runsOk g rs = 0) (hheld : s1.runsHeld g rs = false) :
    s.bankRow g code none none =
      if (bankCmd o.cmd).overlaps then
        (s1.bankLines g (bankCmd o.cmd)).1.bankEnd g stOk 0 (s1.bankLines g (bankCmd o.cmd)).2
      else (s1.putRuns g rs).bankEnd g stOk 0 low := by
  unfold State.bankPort at hq
  simp [State.bankRow, State.bankPost, State.bankHead, hq, ho, hrun, hf, hcode, hchk, hdst, hread, hok, hheld]

/-- Such an operation ends with DONE at the head of the port, and every other operation there stays. -/
theorem State.bankRow_outcome {g code : Nat} {o : BankOp} {rest : List BankOp} {s s1 : State} {rs : List TileOut} {low : Bool}
    (hq : s1.bankPort g = o :: rest)
    (h : s.bankRow g code none none =
      if (bankCmd o.cmd).overlaps then
        (s1.bankLines g (bankCmd o.cmd)).1.bankEnd g stOk 0 (s1.bankLines g (bankCmd o.cmd)).2
      else (s1.putRuns g rs).bankEnd g stOk 0 low) :
    ∃ l, (s.bankRow g code none none).bankPort g = { o with outcome := some (stOk, 0, l) } :: rest ∧
      ((bankCmd o.cmd).overlaps = false → l = low) := by
  rw [h]
  split
  · next ho => exact ⟨_, State.bankEnd_bankPort (by simpa using hq) _ _ _, fun e => by simp [ho] at e⟩
  · exact ⟨_, State.bankEnd_bankPort (by simpa using hq) _ _ _, fun _ => rfl⟩

/-- Zeros written over a range clear it. -/
theorem Atoll.read_store_zeros {a : Atoll} (h : Memory.wf a.lagoon) (off : Nat) (tag : BitVec 5) (n b : Nat) :
    Mem.read (a.store off tag (List.replicate n 0)).lagoon b = if off ≤ b ∧ b < off + n then 0 else Mem.read a.lagoon b := by
  rw [Atoll.read_store h, List.length_replicate]
  split
  · next hb =>
    have : b - off < n := by omega
    simp [this]
  · rfl

/-- BANK_ZERO writes zeros over its lines. -/
theorem State.bankRow_zero {g off : Nat} {o : BankOp} {rest : List BankOp} {s : State} (hq : s.bankPort g = o :: rest)
    (ho : o.outcome = none) (hrun : s.unitRuns g = true) (hf : s.isFenced (bankUnits g) = false)
    (hcode : (bankCmd o.cmd).op = 6) (hchk : firstBad o.cmd.toNat (bankChecks o.cmd) = none)
    (hdst : s.resolve g (BitVec.ofNat 32 (bankCmd o.cmd).dst) ((bankCmd o.cmd).lines * 128) = .ok (g, off))
    (hfree : s.writeHeld g off ((bankCmd o.cmd).lines * 128) = false) :
    s.bankRow g 6 none none =
      (s.modAtoll g fun a => a.store off (BitVec.ofNat 5 (bankCmd o.cmd).df)
        (List.replicate ((bankCmd o.cmd).lines * 128) 0)).bankEnd g stOk 0 false := by
  have hread : s.bankRun g (bankCmd o.cmd) = .writes s
      [((bankCmd o.cmd).dst, (bankCmd o.cmd).df, List.replicate ((bankCmd o.cmd).lines * 128) 0)] false := by
    simp [State.bankRun, hcode]
  have hover : (bankCmd o.cmd).overlaps = false := by simp [BankCmd.overlaps, hcode]
  rw [State.bankRow_runs hq ho hrun hf hcode hchk hdst hread (by simp [State.runsOk, hdst]) (by simp [State.runsHeld, hdst, hfree]),
    hover]
  simp [State.putRuns, hdst, State.lagoonWrite, hfree]

/-- BANK_OP_COMPLETE takes a finished operation off the head of the port. -/
theorem bankOpComplete_completes {g : Fin 320} {o : BankOp} {rest : List BankOp} {x : Nat × Nat × Bool} {s : State}
    (hq : s.bankPort g = o :: rest) (ho : o.outcome = some x) (hrun : s.unitRuns g = true) :
    completes (.bankOpComplete g) s fun t => t.bankPort g = rest := by
  have h1 : (s.modAtoll g fun a => { a with bankOps := rest }).bankPort g = rest := by
    rw [State.bankPort, State.modAtoll_atoll]
  unfold State.bankPort at hq
  refine ⟨_, rfl, ?_⟩
  simp only [hq, ho, hrun, Bool.not_true, Bool.false_eq_true, if_false]
  split
  · split
    · simp [h1]
    · exact h1
  · simp [h1]

/-- Settles O4: an operation's reads, writes and outcome as the lemmas above say, and its end off the port, which no delivery of
a completion word touches. -/
theorem bankOps : Obligations.BankOps := by
  refine ⟨?run, ?zero, ?complete⟩
  case run =>
    intro g i code o rest t0 off rs low s s1 hi hq ho hrun hf hcode hchk hdst hread hq1 hok hheld
    have hrow := State.bankRow_outcome hq1 (State.bankRow_runs hq ho hrun hf hcode hchk hdst hread hok hheld)
    rcases hi with ⟨rfl, rfl⟩ | ⟨rfl, rfl⟩ | ⟨rfl, rfl⟩ | ⟨rfl, rfl⟩ | ⟨rfl, rfl⟩ | ⟨rfl, rfl⟩ <;> exact ⟨_, rfl, hrow⟩
  case zero =>
    intro g o rest s hq ho hrun hf hcode hchk _ hdst hfree hwf
    refine ⟨_, congrArg Host.Outcome.next (State.bankRow_zero hq ho hrun hf hcode hchk hdst hfree), ?_, fun a hlo hhi => ?_, fun a ha => ?_⟩
    · exact State.onlyAtoll_trans (s.onlyAtoll_modAtoll g _) (State.onlyAtoll_modAtoll _ g _)
    all_goals
      rw [State.bankEnd, State.modAtoll_atoll, State.modAtoll_atoll]
      refine (Atoll.read_store_zeros hwf _ _ _ a).trans ?_
    · rw [if_pos ⟨hlo, hhi⟩]
    · rw [if_neg (by omega)]
  case complete =>
    intro g o rest x s hq ho hrun
    exact bankOpComplete_completes hq ho hrun

end Sys2Proof.Machine
end

section
/-! SUPPORT. Cache-mode bays: their lines, what commands and fills do to them, and mode changes (03 R62-R65). -/

namespace Sys2Proof.Machine

/-! ### Tables whose entries are removed -/

theorem Tbl.mem_of_get? {α : Type} {t : Tbl α} {k : Nat} {v : α} (h : Tbl.get? t k = some v) : (k, v) ∈ t := by
  induction t with
  | nil => simp [Tbl.get?] at h
  | cons e t ih =>
    obtain ⟨a, w⟩ := e
    unfold Tbl.get? at h
    split at h
    · next e => simp_all
    · split at h
      · simp at h
      · exact List.mem_cons_of_mem _ (ih h)

/-- A key that a filter removes is not found. -/
theorem Tbl.get?_filter_removed {α : Type} (t : Tbl α) (q : Nat × α → Bool) {k : Nat} (h : ∀ v, q (k, v) = false) :
    Tbl.get? (t.filter q) k = none := by
  cases e : Tbl.get? (t.filter q) k with
  | none => rfl
  | some v => simpa [h] using (List.mem_filter.1 (Tbl.mem_of_get? e)).2

@[simp] theorem Tbl.get?_erase_self {α : Type} (t : Tbl α) (k : Nat) : Tbl.get? (Tbl.erase t k) k = none :=
  Tbl.get?_filter_removed t _ fun _ => by simp

/-- Bytes that a filter removes read 0. -/
theorem Mem.read_filter_removed (m : Mem) (q : Nat × Byte → Bool) {a : Nat} (h : ∀ v, q (a, v) = false) :
    Mem.read (m.filter q) a = 0 := by
  induction m with
  | nil => rfl
  | cons e m ih =>
    obtain ⟨k, v⟩ := e
    by_cases hq : q (k, v) = true
    · have hk : k ≠ a := fun e => by simp [e, h] at hq
      rw [List.filter_cons_of_pos hq, Mem.read, if_neg hk]
      split
      · rfl
      · exact ih
    · rw [List.filter_cons_of_neg hq]
      exact ih

/-! ### Accesses that meet no line the host holds (12 R305) -/

theorem State.biThen_hostClear {s : State} (h : s.hostClear) (rs : List (Nat × Nat × Bool)) (late go : State → State) :
    s.biThen rs late go = go s := by
  have hs : ∀ a n wr, s.host.toSnoop a n wr = [] := fun a n wr => by
    unfold State.hostClear at h
    simp [HostSt.toSnoop, h]
  have hw : (rs.map fun r => (s.host.toSnoop r.1 r.2.1 r.2.2).map fun l => (l, r.2.2)).flatten = [] := by simp [hs]
  simp [State.biThen, State.biCheck, hw]

/-! ### Flush and invalidate (03 R63) -/

@[simp] theorem Atoll.endCacheCmd_cache (a : Atoll) (bay : Nat) (k : CacheCmdKind) (who : CacheIssuer) :
    (a.endCacheCmd bay k who).cache = a.cache := by
  cases who <;> rfl

/-- One line written back: clean afterwards, every other line of the atoll as it was. -/
theorem State.writeBack_get? (s : State) (g : Nat) (e : Nat × CacheLine) (k : Nat) :
    Tbl.get? (((s.writeBack g e.2).modAtoll g fun x =>
      { x with cache := Tbl.set x.cache e.1 { e.2 with dirty := false } }).atoll g).cache k =
      if k = e.1 then some { e.2 with dirty := false } else Tbl.get? (s.atoll g).cache k := by
  rw [State.modAtoll_atoll, s.writeBack_offLagoon Atoll.offLagoon_cache]
  split
  · next h => rw [h, Tbl.get?_set_self]
  · next h => exact Tbl.get?_set_ne _ _ h

/-- After a run of write-backs a line is clean, or as before and none of those written back while dirty. -/
theorem State.writeBacks_clean (l : List (Nat × CacheLine)) (s : State) (g k : Nat) (c : CacheLine)
    (h : Tbl.get? ((l.foldl (fun st e => if e.2.dirty then (st.writeBack g e.2).modAtoll g fun x =>
        { x with cache := Tbl.set x.cache e.1 { e.2 with dirty := false } } else st) s).atoll g).cache k = some c) :
    c.dirty = false ∨ Tbl.get? (s.atoll g).cache k = some c ∧ (k, c) ∉ l := by
  induction l generalizing s with
  | nil => exact .inr ⟨h, List.not_mem_nil⟩
  | cons e l ih =>
    rw [List.foldl_cons] at h
    refine (ih _ h).elim .inl fun ⟨hget, hl⟩ => ?_
    by_cases hd : e.2.dirty = true
    · rw [if_pos hd, State.writeBack_get?] at hget
      split at hget
      · cases hget
        exact .inl rfl
      · next hk => exact .inr ⟨hget, fun hm => (List.mem_cons.1 hm).elim (fun he => hk (congrArg Prod.fst he)) hl⟩
    · rw [if_neg hd] at hget
      by_cases he : (k, c) = e
      · subst he
        exact .inl (by simpa using hd)
      · exact .inr ⟨hget, fun hm => (List.mem_cons.1 hm).elim he hl⟩

/-- A flushed bay holds no dirty line. -/
theorem State.flushBay_clean {s : State} {g bay k : Nat} {c : CacheLine} (hk : k / 4096 = bay)
    (h : Tbl.get? ((s.flushBay g bay).atoll g).cache k = some c) : c.dirty = false := by
  refine (State.writeBacks_clean _ s g k c h).elim id fun ⟨hget, hl⟩ => absurd ?_ hl
  exact List.mem_filter.2 ⟨Tbl.mem_of_get? hget, by simpa using hk⟩

/-- A bay whose lines are discarded holds none. -/
theorem State.dropBay_empty (s : State) {g bay k : Nat} (hk : k / 4096 = bay) :
    Tbl.get? ((s.dropBay g bay).atoll g).cache k = none := by
  rw [State.dropBay, State.modAtoll_atoll]
  exact Tbl.get?_filter_removed _ _ fun _ => by simp [hk]

theorem bayFlush_completes {g : Fin 320} {bay : Fin 24} {who : CacheIssuer} {s : State} (hrun : s.unitRuns g = true)
    (hcmd : (s.atoll g).hasCacheCmd bay .flush who = true) (hh : s.hostClear) :
    exec (.bayFlush g bay who) s = .next ((s.flushBay g bay).modAtoll g fun x => x.endCacheCmd bay .flush who) := by
  simp [exec, execBayFlush, State.cacheCommand, hrun, hcmd, State.biThen_hostClear hh]

theorem bayInvalidate_completes {g : Fin 320} {bay : Fin 24} {who : CacheIssuer} {s : State} (hrun : s.unitRuns g = true)
    (hcmd : (s.atoll g).hasCacheCmd bay .invalidate who = true) :
    exec (.bayInvalidate g bay who) s = .next ((s.dropBay g bay).modAtoll g fun x => x.endCacheCmd bay .invalidate who) := by
  simp [exec, execBayInvalidate, State.cacheCommand, hrun, hcmd, State.biThen, State.biCheck]

theorem bayFlushInvalidate_completes {g : Fin 320} {bay : Fin 24} {who : CacheIssuer} {s : State} (hrun : s.unitRuns g = true)
    (hcmd : (s.atoll g).hasCacheCmd bay .flushInvalidate who = true) (hh : s.hostClear) :
    exec (.bayFlushInvalidate g bay who) s =
      .next (((s.flushBay g bay).dropBay g bay).modAtoll g fun x => x.endCacheCmd bay .flushInvalidate who) := by
  simp [exec, execBayFlushInvalidate, State.cacheCommand, hrun, hcmd, State.biThen_hostClear hh]

/-! ### Fills (03 R64) -/

/-- A clean read finds nothing to correct, poison or record. -/
@[simp] theorem State.placeDecode_clean (s : State) (who : Option Nat) (pl : Place) (src : Nat) (op : Nat × Nat) :
    s.placeDecode who pl .clean src op = s := by
  cases pl <;> rfl

theorem cacheFill_completes {g : Fin 320} {line bay set l w : Nat} {c : CacheLine} {pl : Place} {data : List Byte} {s s1 : State}
    (hrun : s.unitRuns g = true) (hh : s.hostClear) (hset : (s.atoll g).cacheSet (line * 256) = some (bay, set, l))
    (hway : (s.atoll g).findWay bay set l = some w) (hline : Tbl.get? (s.atoll g).cache (wayKey bay set w) = some c)
    (hfill : c.filling = true)
    (hplace : s.place (s.partOf g) ((s.atoll g).cacheBase.toNat + l * 256) false = .ok pl)
    (hread : s.pread (s.partOf g) ((s.atoll g).cacheBase.toNat + l * 256) 256 = (s1, stOk, data)) :
    exec (.cacheFill g line .clean) s = .next (s.modAtoll g fun x =>
      x.setLine bay set w { c with filling := false, poisoned := false, data := Mem.writeBytes [] 0 data }) := by
  simp [exec, execCacheFill, hrun, hset, hway, hline, hfill, State.biThen_hostClear hh, hplace, hread, stOk]

theorem cacheDramTimeout_completes {g : Fin 320} {line bay set l w : Nat} {c : CacheLine} {s : State}
    (hrun : s.unitRuns g = true) (hset : (s.atoll g).cacheSet (line * 256) = some (bay, set, l))
    (hway : (s.atoll g).findWay bay set l = some w) (hline : Tbl.get? (s.atoll g).cache (wayKey bay set w) = some c)
    (hfill : c.filling = true) :
    completes (.cacheDramTimeout g line) s fun t =>
      s.recorded t (bayUnit g bay) clsTimeout ∧ Tbl.get? (t.atoll g).cache (wayKey bay set w) = none := by
  refine ⟨_, by simp [exec, execCacheDramTimeout, hrun, hset, hway, hline, hfill]; rfl, ?_, ?_⟩
  · exact (State.recorded_raise _ _).congr rfl rfl
  · rw [State.raise_atoll, State.modAtoll_atoll, Tbl.get?_erase_self]

@[simp] theorem State.trigger_flt (s : State) (p : Nat) (x : Trigger) : (s.trigger p x).flt = s.flt := by
  obtain ⟨ps, h⟩ := s.trigger_frame p x
  rw [h]

/-- A unit recorded and fenced stays so while the fault state stays. -/
theorem State.recorded_and_fenced {s t : State} {r : RecIn} {cls : Half} {seq : Word}
    (h : t.flt = ((s.raise r).fenceUnit r.unit cls seq).flt) : s.recorded t r.unit r.cls ∧ t.isFenced r.unit = true := by
  refine ⟨(s.recorded_fenceUnit r r.unit cls seq 1 false).mono (congrArg FaultSt.collectors h), ?_⟩
  rw [State.isFenced, h]
  exact State.fenceUnit_isFenced ..

/-- A flush past its bound leaves its record and the fence of its bay. -/
theorem bayFlushTimeout_completes {g : Fin 320} {bay : Fin 24} {s : State} (hrun : s.unitRuns g = true)
    (hflush : ((s.atoll g).cacheCmds.any fun c => c.bay == bay.val && c.kind != .invalidate) = true) :
    completes (.bayFlushTimeout g bay) s fun t =>
      s.recorded t (bayUnit g bay) clsTimeout ∧ t.isFenced (bayUnit g bay) = true := by
  refine ⟨_, congrArg Host.Outcome.next (if_pos ⟨hrun, .inl hflush⟩), ?_⟩
  have h (t : State) := State.recorded_and_fenced (s := s) (t := t) (cls := clsTimeout) (seq := s.nextSeq (bayUnit g bay))
    (r := { unit := bayUnit g bay, cls := clsTimeout, part := s.partOf g, scope := 3, actions := actFenced,
            detail := [(32, 1), (33, bay)] })
  dsimp only
  split
  · exact h _ (State.trigger_flt ..)
  · exact h _ rfl

/-- A change of an atoll that leaves its bytes leaves every atoll's. -/
theorem State.modAtoll_lagoon (s : State) (g : Nat) {f : Atoll → Atoll} (hf : ∀ a, (f a).lagoon = a.lagoon) (h : Nat) :
    ((s.modAtoll g f).atoll h).lagoon = (s.atoll h).lagoon := by
  by_cases e : h = g
  · rw [e, State.modAtoll_atoll, hf]
  · rw [State.modAtoll_atoll_ne s f e]

/-! ### Mode changes (03 R65, Table 3-11) -/

/-- What of the module a change of mode does not touch when it starts: all but the atolls, and of these the mode, the busy bits and
the bytes. -/
def State.BaysKept (s t : State) : Prop :=
  t = { s with atolls := t.atolls } ∧ ∀ h, (t.atoll h).bayBusy = (s.atoll h).bayBusy ∧
    (t.atoll h).bayCache = (s.atoll h).bayCache ∧ (t.atoll h).lagoon = (s.atoll h).lagoon

theorem State.BaysKept.refl (s : State) : s.BaysKept s := ⟨rfl, fun _ => ⟨rfl, rfl, rfl⟩⟩

theorem State.BaysKept.trans {s t u : State} (h : s.BaysKept t) (k : t.BaysKept u) : s.BaysKept u := by
  obtain ⟨hs, ha⟩ := h
  obtain ⟨ks, ka⟩ := k
  refine ⟨by rw [ks, hs], fun x => ?_⟩
  obtain ⟨h1, h2, h3⟩ := ha x
  obtain ⟨k1, k2, k3⟩ := ka x
  exact ⟨k1.trans h1, k2.trans h2, k3.trans h3⟩

theorem State.baysKept_modAtoll (s : State) (g : Nat) {f : Atoll → Atoll}
    (hf : ∀ a, (f a).bayBusy = a.bayBusy ∧ (f a).bayCache = a.bayCache ∧ (f a).lagoon = a.lagoon) : s.BaysKept (s.modAtoll g f) := by
  refine ⟨rfl, fun h => ?_⟩
  by_cases e : h = g
  · subst e
    rw [State.modAtoll_atoll]
    exact hf _
  · rw [State.modAtoll_atoll_ne s f e]
    exact ⟨rfl, rfl, rfl⟩

theorem State.baysKept_foldl {α : Type} (f : State → α → State) (hf : ∀ (t : State) x, t.BaysKept (f t x)) (l : List α) (s : State) :
    s.BaysKept (l.foldl f s) := by
  induction l generalizing s with
  | nil => exact .refl s
  | cons x l ih => exact (hf s x).trans (ih (f s x))

theorem State.baysKept_bayUnpublish (s : State) (g bay : Nat) : s.BaysKept (s.bayUnpublish g bay) := by
  unfold State.bayUnpublish
  refine (State.baysKept_foldl _ (fun t x => ?_) _ s).trans (State.baysKept_modAtoll _ g fun _ => ⟨rfl, rfl, rfl⟩)
  split
  · exact .refl t
  · exact t.baysKept_modAtoll _ fun _ => ⟨rfl, rfl, rfl⟩

theorem bayModeChange_completes {g : Fin 320} {bay : Fin 24} {toCache : Bool} {s : State} (hrun : s.unitRuns g = true)
    (hne : (s.atoll g).bayCache.getLsbD bay ≠ toCache) (hno : ((s.atoll g).changes.any fun c => c.bay == bay.val) = false) :
    exec (.bayModeChange g bay toCache) s = .next ((s.bayUnpublish g bay).modAtoll g fun x =>
      { x with bayBusy := x.bayBusy ||| BitVec.ofNat 24 (2 ^ bay.val), changes := x.changes ++ [{ bay := bay, toCache := toCache }] }) := by
  exact congrArg Host.Outcome.next (if_pos ⟨hrun, hne, by simp [hno]⟩)

/-- A zeroed bay reads 0 everywhere. -/
theorem Atoll.zeroBay_read (a : Atoll) {bay x : Nat} (hx : x / 0x100000 = bay) : Mem.read (a.zeroBay bay).lagoon x = 0 := by
  refine Mem.read_filter_removed _ _ fun _ => ?_
  have h1 : ¬ x < bay * 0x100000 := by omega
  have h2 : ¬ bay * 0x100000 + 0x100000 ≤ x := by omega
  simp [h1, h2]

theorem getLsbD_ofNat_two_pow (b : Fin 24) : (BitVec.ofNat 24 (2 ^ b.val)).getLsbD b = true := by
  rw [BitVec.getLsbD_ofNat, Nat.testBit_two_pow_self, decide_eq_true b.isLt]
  rfl

/-- The end of a mode change: the bay not busy, in its new mode, and all its bytes 0. -/
theorem State.finishBayChange_spec (s : State) (g : Nat) {bay : Fin 24} {c : BayChange} (hc : c.bay = bay) :
    ((s.finishBayChange g c).atoll g).bayBusy.getLsbD bay = false ∧
    ((s.finishBayChange g c).atoll g).bayCache.getLsbD bay = c.toCache ∧
    ∀ a, a / 0x100000 = bay.val → Mem.read ((s.finishBayChange g c).atoll g).lagoon a = 0 := by
  unfold State.finishBayChange
  rw [State.modAtoll_atoll]
  generalize (if c.toCache then s else s.flushBay g c.bay).atoll g = x
  have hb := getLsbD_ofNat_two_pow bay
  refine ⟨?_, ?_, fun a ha => Atoll.zeroBay_read x (ha.trans hc.symm)⟩
  · rw [hc, BitVec.getLsbD_and, BitVec.getLsbD_not, hb]
    simp
  · dsimp only
    rw [hc]
    cases c.toCache
    · rw [if_neg Bool.false_ne_true, BitVec.getLsbD_and, BitVec.getLsbD_not, hb]
      simp
    · rw [if_pos rfl, BitVec.getLsbD_or, hb, Bool.or_true]

/-- Settles O2: each row's effect on the bay's lines, records and mode as the lemmas above say. -/
theorem cacheBays : Obligations.CacheBays := by
  refine ⟨?flush, ?invalidate, ?flushInvalidate, ?fill, ?dramTimeout, ?flushTimeout, ?change, ?done⟩
  case flush =>
    intro g bay who s hrun hcmd hh
    refine ⟨_, bayFlush_completes hrun hcmd hh, fun k c hk hget => ?_⟩
    rw [State.modAtoll_atoll, Atoll.endCacheCmd_cache] at hget
    exact State.flushBay_clean hk hget
  case invalidate =>
    intro g bay who s hrun hcmd
    refine ⟨_, bayInvalidate_completes hrun hcmd, ?_, fun k hk => ?_⟩
    · exact State.onlyAtoll_trans (s.onlyAtoll_modAtoll g _) (State.onlyAtoll_modAtoll _ g _)
    · rw [State.modAtoll_atoll, Atoll.endCacheCmd_cache, State.dropBay_empty s hk]
  case flushInvalidate =>
    intro g bay who s hrun hcmd hh
    refine ⟨_, bayFlushInvalidate_completes hrun hcmd hh, fun k hk => ?_⟩
    rw [State.modAtoll_atoll, Atoll.endCacheCmd_cache, State.dropBay_empty _ hk]
  case fill =>
    intro g line bay set l w c pl data s s1 hrun hh hset hway hline hfill hplace hread
    refine ⟨_, cacheFill_completes hrun hh hset hway hline hfill hplace hread, s.onlyAtoll_modAtoll g _, ?_⟩
    rw [State.modAtoll_atoll, Atoll.setLine, Tbl.get?_set_self]
  case dramTimeout =>
    intro g line bay set l w c s hrun hset hway hline hfill
    exact cacheDramTimeout_completes hrun hset hway hline hfill
  case flushTimeout =>
    intro g bay s hrun hflush
    exact bayFlushTimeout_completes hrun hflush
  case change =>
    intro g bay toCache s hrun hne hno
    obtain ⟨hs, ha⟩ := s.baysKept_bayUnpublish g bay
    obtain ⟨hbusy, hcache, -⟩ := ha g
    refine ⟨_, bayModeChange_completes hrun hne hno, ?_, ?_, ?_, fun h => ?_⟩
    · rw [State.modAtoll, State.setAtoll, hs]
    · rw [State.modAtoll_atoll, ← hbusy]
    · rw [State.modAtoll_atoll, ← hcache]
    · refine (State.modAtoll_lagoon _ g ?_ h).trans (ha h).2.2
      exact fun _ => rfl
  case done =>
    intro g bay c s hrun hh hfind
    have hc : c.bay = bay := by simpa using List.find?_some hfind
    refine ⟨s.finishBayChange g c, ?_, s.finishBayChange_spec g hc⟩
    simp [exec, execBayModeChangeDone, hfind, hrun, State.biThen_hostClear hh]

end Sys2Proof.Machine
end

section
namespace Sys2Proof.Machine

/-! ### Canonical byte memories

The predicate that O52 keeps, cut along the parts of the state that hold bytes. An operation that writes no byte has an `↔` lemma,
so a chain of such operations rewrites to the state it began with; one that writes has a lemma that keeps the predicate. -/

/-- The byte memories of an atoll, by the fields that hold them. -/
def Atoll.bytesOk (lagoon : Mem) (cache : Tbl CacheLine) (cores : Tbl Core) : Prop :=
  Memory.wf lagoon ∧ (∀ e ∈ cache, Memory.wf e.2.data) ∧ ∀ e ∈ cores, Memory.wf e.2.sram

/-- Every byte memory of an atoll is canonical. -/
def Atoll.memOk (a : Atoll) : Prop := Atoll.bytesOk a.lagoon a.cache a.cores

/-- Both firmware slots of a hub are canonical. -/
def FwHub.memOk (x : FwHub) : Prop := Memory.wf x.slot0.mem ∧ Memory.wf x.slot1.mem

/-- The byte memories of the module, by the fields that hold them. -/
def State.bytesOk (atolls : Tbl Atoll) (dram : Mem) (shoals : Tbl Shoal) (host : Mem) (hubs : Tbl FwHub) : Prop :=
  (∀ e ∈ atolls, e.2.memOk) ∧ Memory.wf dram ∧ (∀ e ∈ shoals, Memory.wf e.2.staging) ∧ Memory.wf host ∧ ∀ e ∈ hubs, e.2.memOk

theorem Atoll.memories_wf (a : Atoll) : (∀ m ∈ a.memories, Memory.wf m) ↔ a.memOk := by
  simp only [Atoll.memories, Atoll.memOk, Atoll.bytesOk, List.cons_append, List.forall_mem_cons, List.forall_mem_append,
    List.forall_mem_map]

theorem FwHub.memories_wf (x : FwHub) :
    (Memory.wf x.slot0.mem ∧ Memory.wf x.slot1.mem ∧ ∀ m ∈ [], Memory.wf m) ↔ x.memOk :=
  and_congr_right' (and_iff_left fun _ h => absurd h List.not_mem_nil)

theorem State.memOk_iff (s : State) : s.memOk ↔ State.bytesOk s.atolls s.mem.dram s.mem.shoals s.host.mem s.fw.hubs := by
  simp only [State.memOk, State.memories, State.bytesOk, List.cons_append, List.forall_mem_cons, List.forall_mem_append,
    List.forall_mem_map, List.forall_mem_flatten, Atoll.memories_wf, FwHub.memories_wf]
  constructor
  · rintro ⟨hd, hh, ⟨hs, ha⟩, hf⟩
    exact ⟨ha, hd, hs, hh, hf⟩
  · rintro ⟨ha, hd, hs, hh, hf⟩
    exact ⟨hd, hh, ⟨hs, ha⟩, hf⟩

@[simp] theorem State.memOk_mk (a b c d e f g h i j k l m n o p q r u v w) :
    (State.mk a b c d e f g h i j k l m n o p q r u v w).memOk ↔ State.bytesOk f j.dram j.shoals m.mem v.hubs :=
  State.memOk_iff _

@[simp] theorem State.bytesOk_eta (s : State) :
    State.bytesOk s.atolls s.mem.dram s.mem.shoals s.host.mem s.fw.hubs ↔ s.memOk := s.memOk_iff.symm

@[simp] theorem Atoll.memOk_mk
    (x0 x1 x2 x3 x4 x5 x6 lagoon x8 x9 x10 cache x12 x13 x14 x15 x16 x17 x18 x19 x20 x21 x22 x23 x24 x25 x26 x27 x28
      x29 x30 x31 x32 x33 x34 x35 x36 x37 x38 x39 x40 x41 x42 cores x44 x45 x46 x47 x48 x49 x50 x51 x52 x53 x54 x55
      x56) :
    (Atoll.mk x0 x1 x2 x3 x4 x5 x6 lagoon x8 x9 x10 cache x12 x13 x14 x15 x16 x17 x18 x19 x20 x21 x22 x23 x24 x25
      x26 x27 x28 x29 x30 x31 x32 x33 x34 x35 x36 x37 x38 x39 x40 x41 x42 cores x44 x45 x46 x47 x48 x49 x50 x51 x52
      x53 x54 x55 x56).memOk ↔
      Atoll.bytesOk lagoon cache cores :=
  Iff.rfl

@[simp] theorem Atoll.bytesOk_eta (a : Atoll) : Atoll.bytesOk a.lagoon a.cache a.cores ↔ a.memOk := Iff.rfl

@[simp] theorem State.memOk_ite (c : Prop) [Decidable c] (s t : State) :
    (if c then s else t).memOk ↔ if c then s.memOk else t.memOk := by
  split <;> rfl

@[simp] theorem Atoll.memOk_ite (c : Prop) [Decidable c] (a b : Atoll) :
    (if c then a else b).memOk ↔ if c then a.memOk else b.memOk := by
  split <;> rfl

/-! Tables of parts that hold bytes. -/

theorem Tbl.forall_set {α : Type} {P : α → Prop} {t : Tbl α} {v : α} (h : ∀ e ∈ t, P e.2) (hv : P v) (a : Nat) :
    ∀ e ∈ Tbl.set t a v, P e.2 := by
  intro e he
  rcases Tbl.mem_set he with rfl | he
  · exact hv
  · exact h e he

theorem Tbl.forall_getD {α : Type} {P : α → Prop} {t : Tbl α} {d : α} (h : ∀ e ∈ t, P e.2) (hd : P d) (a : Nat) :
    P (Tbl.getD t a d) := by
  rcases Tbl.getD_mem t a d with e | ⟨e, he, e'⟩
  · rwa [e]
  · exact e' ▸ h e he

/-- A set that keeps a property of its entry keeps it of the table, and adds it to no other entry. -/
theorem Tbl.forall_set_iff {α : Type} {P : α → Prop} (t : Tbl α) (a : Nat) {d v : α} (hd : P d)
    (hv : P v ↔ P (Tbl.getD t a d)) : (∀ e ∈ Tbl.set t a v, P e.2) ↔ ∀ e ∈ t, P e.2 := by
  induction t with
  | nil => simp_all [Tbl.set, Tbl.getD, Tbl.get?]
  | cons x t ih =>
    obtain ⟨k, w⟩ := x
    unfold Tbl.set
    by_cases hk : k = a
    · simp_all [Tbl.getD, Tbl.get?]
    · by_cases hl : a < k
      · simp_all [Tbl.getD, Tbl.get?]
      · have e : Tbl.getD ((k, w) :: t) a d = Tbl.getD t a d := by simp [Tbl.getD, Tbl.get?, hk, hl]
        rw [e] at hv
        simp only [if_neg hk, if_neg hl, List.forall_mem_cons, ih hv]

theorem Tbl.forall_filter {α : Type} {P : α → Prop} {t : Tbl α} (h : ∀ e ∈ t, P e.2) (q : Nat × α → Bool) :
    ∀ e ∈ t.filter q, P e.2 := fun e he => h e (List.mem_filter.1 he).1

theorem Tbl.forall_erase {α : Type} {P : α → Prop} {t : Tbl α} (h : ∀ e ∈ t, P e.2) (a : Nat) :
    ∀ e ∈ Tbl.erase t a, P e.2 := Tbl.forall_filter h _

theorem Tbl.forall_get? {α : Type} {P : α → Prop} {t : Tbl α} {v : α} {a : Nat} (h : ∀ e ∈ t, P e.2)
    (hv : Tbl.get? t a = some v) : P v := by
  induction t with
  | nil => simp [Tbl.get?] at hv
  | cons x t ih =>
    obtain ⟨k, w⟩ := x
    unfold Tbl.get? at hv
    split at hv
    · cases hv
      exact h _ (List.mem_cons_self ..)
    · split at hv
      · cases hv
      · exact ih (fun e he => h e (List.mem_cons_of_mem _ he)) hv

/-! Parts of a canonical state. -/

@[simp] theorem Atoll.reset_memOk (g : Nat) : (Atoll.reset g).memOk := ⟨Memory.wf_nil, nofun, nofun⟩

@[simp] theorem FwHub.reset_memOk : FwHub.reset.memOk := ⟨Memory.wf_nil, Memory.wf_nil⟩

@[simp] theorem State.atoll_memOk {s : State} (h : s.memOk) (g : Nat) : (s.atoll g).memOk := by
  obtain ⟨ha, -⟩ := s.memOk_iff.1 h
  exact Tbl.forall_getD ha (Atoll.reset_memOk g) g

theorem State.dram_wf {s : State} (h : s.memOk) : Memory.wf s.mem.dram := by
  obtain ⟨-, hd, -⟩ := s.memOk_iff.1 h
  exact hd

theorem State.staging_wf {s : State} (h : s.memOk) (k : Nat) : Memory.wf (s.shoal k).staging := by
  obtain ⟨-, -, hs, -⟩ := s.memOk_iff.1 h
  exact Tbl.forall_getD (P := fun x : Shoal => Memory.wf x.staging) hs Memory.wf_nil k

theorem State.hostMem_wf {s : State} (h : s.memOk) : Memory.wf s.host.mem := by
  obtain ⟨-, -, -, hh, -⟩ := s.memOk_iff.1 h
  exact hh

theorem State.fwHub_memOk {s : State} (h : s.memOk) (k : Nat) : (s.fwHub k).memOk := by
  obtain ⟨-, -, -, -, hf⟩ := s.memOk_iff.1 h
  exact Tbl.forall_getD hf FwHub.reset_memOk k

theorem Atoll.lagoon_wf {a : Atoll} (h : a.memOk) : Memory.wf a.lagoon := by
  obtain ⟨hl, -⟩ := h
  exact hl

theorem Atoll.core_sram_wf {a : Atoll} (h : a.memOk) (c : Nat) : Memory.wf (a.core c).sram := by
  obtain ⟨-, -, hc⟩ := h
  exact Tbl.forall_getD (P := fun x : Core => Memory.wf x.sram) hc Memory.wf_nil c

/-! Changes of one part. -/

@[simp] theorem State.setAtoll_memOk {s : State} (h : s.memOk) (g : Nat) {a : Atoll} (ha : a.memOk) :
    (s.setAtoll g a).memOk := by
  obtain ⟨h1, h2⟩ := s.memOk_iff.1 h
  exact (State.memOk_iff _).2 ⟨Tbl.forall_set h1 ha g, h2⟩

theorem State.modAtoll_keeps {s : State} (h : s.memOk) (g : Nat) {f : Atoll → Atoll} (hf : (f (s.atoll g)).memOk) :
    (s.modAtoll g f).memOk := State.setAtoll_memOk h g hf

@[simp] theorem State.modAtoll_memOk (s : State) (g : Nat) (f : Atoll → Atoll) (hf : ∀ a, (f a).memOk ↔ a.memOk) :
    (s.modAtoll g f).memOk ↔ s.memOk := by
  rw [State.memOk_iff, State.memOk_iff]
  exact and_congr_left' (Tbl.forall_set_iff _ _ (Atoll.reset_memOk g) (hf _))

@[simp] theorem Atoll.modCore_memOk (a : Atoll) (c : Nat) (f : Core → Core) (hf : ∀ k, (f k).sram = k.sram) :
    (a.modCore c f).memOk ↔ a.memOk := by
  refine and_congr_right' (and_congr_right' ?_)
  exact Tbl.forall_set_iff (P := fun x : Core => Memory.wf x.sram) _ _ (d := Core.reset) Memory.wf_nil (by rw [hf, Atoll.core])

theorem Atoll.modCore_keeps {a : Atoll} (h : a.memOk) (c : Nat) {f : Core → Core} (hf : Memory.wf (f (a.core c)).sram) :
    (a.modCore c f).memOk := by
  obtain ⟨h1, h2, h3⟩ := h
  exact ⟨h1, h2, Tbl.forall_set (P := fun x : Core => Memory.wf x.sram) h3 hf c⟩

@[simp] theorem State.modShoal_memOk (s : State) (k : Nat) (f : Shoal → Shoal) (hf : ∀ x, (f x).staging = x.staging) :
    (s.modShoal k f).memOk ↔ s.memOk := by
  rw [State.memOk_iff, State.memOk_iff]
  refine and_congr_right' (and_congr_right' (and_congr_left' ?_))
  exact Tbl.forall_set_iff (P := fun x : Shoal => Memory.wf x.staging) _ _ (d := Shoal.reset) Memory.wf_nil
    (by rw [hf, State.shoal])

theorem State.modShoal_keeps {s : State} (h : s.memOk) (k : Nat) {f : Shoal → Shoal}
    (hf : Memory.wf (f (s.shoal k)).staging) : (s.modShoal k f).memOk := by
  obtain ⟨h1, h2, h3, h4⟩ := s.memOk_iff.1 h
  exact (State.memOk_iff _).2 ⟨h1, h2, Tbl.forall_set (P := fun x : Shoal => Memory.wf x.staging) h3 hf k, h4⟩

/-- A change of memory that leaves DRAM and every shoal's staging writes no byte. -/
@[simp] theorem State.modMem_memOk (s : State) (f : MemSt → MemSt) (hd : ∀ m, (f m).dram = m.dram)
    (hs : ∀ m, ((f m).shoals.map fun e => e.2.staging) = m.shoals.map fun e => e.2.staging) :
    (s.modMem f).memOk ↔ s.memOk := by
  have h : ∀ t : Tbl Shoal, (∀ e ∈ t, Memory.wf e.2.staging) ↔ ∀ m ∈ t.map fun e => e.2.staging, Memory.wf m :=
    fun t => List.forall_mem_map.symm
  rw [State.memOk_iff, State.memOk_iff, State.modMem_mem, hd]
  unfold State.bytesOk
  rw [h, hs, ← h]
  rfl

@[simp] theorem State.modHost_memOk (s : State) (f : HostSt → HostSt) (hf : ∀ h, (f h).mem = h.mem) :
    (s.modHost f).memOk ↔ s.memOk := by
  rw [State.memOk_iff, State.memOk_iff, State.modHost_host, hf]
  rfl

@[simp] theorem State.modFw_memOk (s : State) (f : FwSt → FwSt) (hf : ∀ w, (f w).hubs = w.hubs) :
    (s.modFw f).memOk ↔ s.memOk := by
  rw [State.memOk_iff, State.memOk_iff, State.modFw_fw, hf]
  rfl

/-! Changes of what holds no bytes. -/

@[simp] theorem State.modFlt_memOk (s : State) (f : FaultSt → FaultSt) : (s.modFlt f).memOk ↔ s.memOk := Iff.rfl
@[simp] theorem State.modNet_memOk (s : State) (f : NetSt → NetSt) : (s.modNet f).memOk ↔ s.memOk := Iff.rfl
@[simp] theorem State.modPower_memOk (s : State) (f : PowerSt → PowerSt) : (s.modPower f).memOk ↔ s.memOk := Iff.rfl
@[simp] theorem State.modMgmt_memOk (s : State) (f : MgmtSt → MgmtSt) : (s.modMgmt f).memOk ↔ s.memOk := Iff.rfl
@[simp] theorem State.modLife_memOk (s : State) (f : LifeSt → LifeSt) : (s.modLife f).memOk ↔ s.memOk := Iff.rfl
@[simp] theorem State.modFab_memOk (s : State) (f : FabSt → FabSt) : (s.modFab f).memOk ↔ s.memOk := Iff.rfl
@[simp] theorem State.modMbox_memOk (s : State) (m : Nat) (f : Mailbox → Mailbox) :
    (s.modMbox m f).memOk ↔ s.memOk := Iff.rfl

@[simp] theorem State.modPart_memOk (s : State) (p : Nat) (f : Part → Part) : (s.modPart p f).memOk ↔ s.memOk := by
  unfold State.modPart
  split <;> rfl

/-! Folds. -/

/-- A fold of steps that write no byte. -/
@[simp] theorem State.memOk_foldl {α : Type} (f : State → α → State) (l : List α) (s : State)
    (h : ∀ t x, (f t x).memOk ↔ t.memOk) : (l.foldl f s).memOk ↔ s.memOk := by
  induction l generalizing s with
  | nil => rfl
  | cons x r ih => rw [List.foldl_cons, ih, h]

/-- The state that an operation answers beside another value. -/
theorem State.memOk_of_fst {α : Type} {t : State} {p : State × α} {x : α} (e : p = (t, x)) (h : p.1.memOk) : t.memOk := by
  subst e
  exact h

/-- A fold of steps that keep the memories canonical. -/
theorem State.foldl_keeps {α : Type} {f : State → α → State} (h : ∀ t x, t.memOk → (f t x).memOk) (l : List α)
    {s : State} (hs : s.memOk) : (l.foldl f s).memOk := by
  induction l generalizing s with
  | nil => exact hs
  | cons x r ih => exact ih (h s x hs)

/-- A fold of such steps that carries a value beside the state. -/
theorem State.foldl_fst_keeps {α β : Type} {f : State × β → α → State × β} (h : ∀ t b x, t.memOk → (f (t, b) x).1.memOk)
    (l : List α) {a : State × β} (ha : a.1.memOk) : (l.foldl f a).1.memOk := by
  induction l generalizing a with
  | nil => exact ha
  | cons x r ih => exact ih (h a.1 a.2 x ha)

end Sys2Proof.Machine
end

section
namespace Sys2Proof.Machine

/-! ### Parts: cores, atolls, shoals, the host port -/

@[simp] theorem Core.ite_sram (c : Prop) [Decidable c] (j k : Core) :
    (if c then j else k).sram = if c then j.sram else k.sram := by
  split <;> rfl

@[simp] theorem Core.modPort_sram (k : Core) (i : Nat) (f : ChPort → ChPort) : (k.modPort i f).sram = k.sram := by rfl
@[simp] theorem Core.takeTrap_sram (k : Core) (cause : Nat) (tval : DWord) : (k.takeTrap cause tval).sram = k.sram := by rfl
@[simp] theorem Core.advance_sram (k : Core) (len : Nat) : (k.advance len).sram = k.sram := by rfl
@[simp] theorem Core.mret_sram (k : Core) : k.mret.sram = k.sram := by rfl
@[simp] theorem Core.accessFault_sram (k : Core) (store : Bool) (addr : DWord) (status : Nat) :
    (k.accessFault store addr status).sram = k.sram := by rfl
@[simp] theorem Core.setReg_sram (k : Core) (r : Nat) (v : DWord) : (k.setReg r v).sram = k.sram := by
  simp [Core.setReg]

@[simp] theorem Atoll.modEngine_memOk (a : Atoll) (e : Nat) (f : Engine → Engine) :
    (a.modEngine e f).memOk ↔ a.memOk := Iff.rfl
@[simp] theorem Atoll.modVec_memOk (a : Atoll) (v : Nat) (f : VecEngine → VecEngine) :
    (a.modVec v f).memOk ↔ a.memOk := Iff.rfl
@[simp] theorem Atoll.modSeq_memOk (a : Atoll) (u : Nat) (f : Sequencer → Sequencer) :
    (a.modSeq u f).memOk ↔ a.memOk := Iff.rfl
@[simp] theorem Atoll.modQueue_memOk (a : Atoll) (q : Nat) (f : Queue → Queue) : (a.modQueue q f).memOk ↔ a.memOk := Iff.rfl
@[simp] theorem Atoll.active_memOk (a : Atoll) : a.active.memOk ↔ a.memOk := Iff.rfl
@[simp] theorem Atoll.poisonWord_memOk (a : Atoll) (w : Nat) : (a.poisonWord w).memOk ↔ a.memOk := Iff.rfl
@[simp] theorem Atoll.popQueue_memOk (a : Atoll) (n : Nat) : (a.popQueue n).memOk ↔ a.memOk := Iff.rfl
@[simp] theorem Atoll.setVecCur_memOk (a : Atoll) (v : Nat) (o : Option VecOp) : (a.setVecCur v o).memOk ↔ a.memOk := Iff.rfl
@[simp] theorem Atoll.flushQueue_memOk (a : Atoll) (n : Nat) : (a.flushQueue n).memOk ↔ a.memOk := Iff.rfl
@[simp] theorem Atoll.unconfigure_memOk (a : Atoll) : a.unconfigure.memOk ↔ a.memOk := Iff.rfl
@[simp] theorem Atoll.unconfigure_lagoon (a : Atoll) : a.unconfigure.lagoon = a.lagoon := by rfl
@[simp] theorem Atoll.unconfigure_cache (a : Atoll) : a.unconfigure.cache = a.cache := by rfl
@[simp] theorem Atoll.unconfigure_cores (a : Atoll) : a.unconfigure.cores = a.cores := by rfl
@[simp] theorem Atoll.movedTo_memOk (a site : Atoll) : (a.movedTo site).memOk ↔ a.memOk := Iff.rfl

@[simp] theorem Atoll.regWrite_memOk (a : Atoll) (off : Nat) (v : DWord) : (a.regWrite off v).memOk ↔ a.memOk := by
  simp [Atoll.regWrite]

@[simp] theorem Atoll.writePortRing_memOk (a : Atoll) (c : Nat) (v : DWord) : (a.writePortRing c v).memOk ↔ a.memOk := by
  simp [Atoll.writePortRing]

@[simp] theorem Atoll.writePortCtrl_memOk (a : Atoll) (c : Nat) (v : DWord) : (a.writePortCtrl c v).memOk ↔ a.memOk := by
  simp [Atoll.writePortCtrl]

@[simp] theorem Atoll.endCacheCmd_memOk (a : Atoll) (bay : Nat) (k : CacheCmdKind) (who : CacheIssuer) :
    (a.endCacheCmd bay k who).memOk ↔ a.memOk := by
  cases who <;> simp [Atoll.endCacheCmd]

@[simp] theorem Atoll.goes_memOk (a : Atoll) : a.goes.memOk ↔ a.memOk := by
  simp [Atoll.goes]

/-- A fold of changes that write no byte. -/
@[simp] theorem Atoll.memOk_foldl {α : Type} (f : Atoll → α → Atoll) (l : List α) (a : Atoll)
    (h : ∀ b x, (f b x).memOk ↔ b.memOk) : (l.foldl f a).memOk ↔ a.memOk := by
  induction l generalizing a with
  | nil => rfl
  | cons x r ih => rw [List.foldl_cons, ih, h]

@[simp] theorem Atoll.serveRepeat_memOk (a : Atoll) (o : VecOp) (d : VecDesc) : (a.serveRepeat o d).memOk ↔ a.memOk := by
  unfold Atoll.serveRepeat
  refine Atoll.memOk_foldl _ _ _ fun b i => ?_
  (repeat' split) <;> simp

theorem Atoll.setLine_memOk {a : Atoll} (h : a.memOk) (bay set w : Nat) {c : CacheLine} (hc : Memory.wf c.data) :
    (a.setLine bay set w c).memOk := by
  obtain ⟨hl, hd, hk⟩ := h
  exact ⟨hl, Tbl.forall_set (P := fun x : CacheLine => Memory.wf x.data) hd hc _, hk⟩

@[simp] theorem Atoll.store_memOk {a : Atoll} (h : a.memOk) (off : Nat) (tag : BitVec 5) (data : List Byte) :
    (a.store off tag data).memOk := by
  obtain ⟨l, m, e⟩ := a.store_frame off tag data
  have hl : l = Mem.writeBytes a.lagoon off data := by rw [← a.store_lagoon off tag data, e]
  obtain ⟨h1, h2, h3⟩ := h
  rw [e, hl]
  exact ⟨Mem.writeBytes_wf h1 _ _, h2, h3⟩

@[simp] theorem State.modAtoll_store_memOk {s : State} (hs : s.memOk) (t off : Nat) (tag : BitVec 5) (data : List Byte) :
    (s.modAtoll t fun a => a.store off tag data).memOk :=
  State.modAtoll_keeps hs t (Atoll.store_memOk (State.atoll_memOk hs t) off tag data)

@[simp] theorem Atoll.spillPut_memOk {a : Atoll} (h : a.memOk) (q : Queue) (slot : Nat) (e : QEntry) :
    (a.spillPut q slot e).memOk := by
  have h2 : ∀ x y,
      ((a.store x 0 (leBytes 32 e.data.toNat)).store y 0 [BitVec.ofNat 8 (e.epoch.toNat + 16 * b2n e.token)]).memOk :=
    fun x y => Atoll.store_memOk (Atoll.store_memOk h _ _ _) _ _ _
  unfold Atoll.spillPut
  dsimp only
  split
  · exact Atoll.store_memOk (h2 _ _) _ _ _
  · exact h2 _ _

@[simp] theorem Atoll.pushQueue_memOk {a : Atoll} (h : a.memOk) (n : Nat) (e : QEntry) : (a.pushQueue n e).memOk := by
  simp [Atoll.pushQueue, h]

theorem Atoll.accept_memOk {a b : Atoll} (h : a.memOk) {n : Nat} {e : QEntry} (hb : a.accept n e = some b) : b.memOk := by
  unfold Atoll.accept at hb
  (repeat' split at hb) <;> cases hb <;> simp [h]

@[simp] theorem Atoll.zeroBay_memOk {a : Atoll} (h : a.memOk) (bay : Nat) : (a.zeroBay bay).memOk := by
  obtain ⟨h1, h2, h3⟩ := h
  exact ⟨Mem.clear_wf h1 _ _, Tbl.forall_filter (P := fun x : CacheLine => Memory.wf x.data) h2 _, h3⟩

/-- Dropping cache lines keeps what stays canonical. -/
theorem Atoll.dropLines_memOk {a : Atoll} (h : a.memOk) (q : Nat × CacheLine → Bool) :
    ({ a with cache := a.cache.filter q } : Atoll).memOk := by
  obtain ⟨h1, h2, h3⟩ := h
  exact ⟨h1, Tbl.forall_filter (P := fun x : CacheLine => Memory.wf x.data) h2 _, h3⟩

@[simp] theorem Core.restart_sram_wf (k : Core) (clear : Bool) (hk : Memory.wf k.sram) :
    Memory.wf (k.restart clear).sram := by
  unfold Core.restart
  split
  · exact Memory.wf_nil
  · exact hk

/-- Restarting both cores keeps an atoll canonical. -/
theorem Atoll.restartCores_memOk {a : Atoll} (h : a.memOk) (clear : Bool) :
    ((a.modCore 0 fun k => k.restart clear).modCore 1 fun k => k.restart clear).memOk := by
  have h1 := Atoll.modCore_keeps h 0 (f := fun k => k.restart clear) (Core.restart_sram_wf _ clear (Atoll.core_sram_wf h 0))
  exact Atoll.modCore_keeps h1 1 (f := fun k => k.restart clear) (Core.restart_sram_wf _ clear (Atoll.core_sram_wf h1 1))

@[simp] theorem Shoal.regWrite_staging (x : Shoal) (off : Nat) (v : DWord) : (x.regWrite off v).staging = x.staging := by
  unfold Shoal.regWrite
  (repeat' split) <;> rfl

@[simp] theorem HostSt.snoop_mem (h : HostSt) (line : Nat) (inv : Bool) (r : Option (Nat × HostCacheUse)) (now : DWord) :
    (h.snoop line inv r now).mem = h.mem := by
  unfold HostSt.snoop
  split <;> rfl

@[simp] theorem HostSt.track_mem (h : HostSt) (line w : Nat) (m : Bool) : (h.track line w m).mem = h.mem := by rfl
@[simp] theorem HostSt.untrack_mem (h : HostSt) (line : Nat) : (h.untrack line).mem = h.mem := by rfl
@[simp] theorem HostSt.controllerReset_mem (h : HostSt) (perst : Bool) : (h.controllerReset perst).mem = h.mem := by rfl
@[simp] theorem HostSt.moduleReset_mem (h : HostSt) : h.moduleReset.mem = h.mem := by rfl
@[simp] theorem FwSt.moduleReset_hubs (w : FwSt) : w.moduleReset.hubs = w.hubs := by rfl
@[simp] theorem MemSt.moduleReset_dram (m : MemSt) : m.moduleReset.dram = m.dram := by rfl

end Sys2Proof.Machine
end

section
namespace Sys2Proof.Machine

/-! ### Answers that carry a state

The state that an access, a send or a bank command answers with is canonical. -/

/-- The state that an access of a bank command answers with is canonical. -/
def RunOut.memOk : RunOut → Prop
  | .waits t => t.memOk
  | .ends t _ _ => t.memOk

@[simp] theorem RunOut.memOk_waits (t : State) : (RunOut.waits t).memOk ↔ t.memOk := Iff.rfl
@[simp] theorem RunOut.memOk_ends (t : State) (st : Nat) (d : List Byte) : (RunOut.ends t st d).memOk ↔ t.memOk := Iff.rfl
theorem RunOut.memOk.waits {o : RunOut} {t : State} (h : o.memOk) (e : o = .waits t) : t.memOk := by
  subst e; exact h
theorem RunOut.memOk.ends {o : RunOut} {t : State} {st : Nat} {d : List Byte} (h : o.memOk) (e : o = .ends t st d) :
    t.memOk := by
  subst e; exact h

/-- The same of a cache access. -/
def CacheOut.memOk : CacheOut → Prop
  | .waits t => t.memOk
  | .ends t _ _ => t.memOk

@[simp] theorem CacheOut.memOk_waits (t : State) : (CacheOut.waits t).memOk ↔ t.memOk := Iff.rfl
@[simp] theorem CacheOut.memOk_ends (t : State) (st : Nat) (d : List Byte) :
    (CacheOut.ends t st d).memOk ↔ t.memOk := Iff.rfl
theorem CacheOut.memOk.waits {o : CacheOut} {t : State} (h : o.memOk) (e : o = .waits t) : t.memOk := by
  subst e; exact h
theorem CacheOut.memOk.ends {o : CacheOut} {t : State} {st : Nat} {d : List Byte} (h : o.memOk) (e : o = .ends t st d) :
    t.memOk := by
  subst e; exact h

/-- The same of a bank command. -/
def BankOut.memOk : BankOut → Prop
  | .waits t => t.memOk
  | .fails t _ => t.memOk
  | .writes t _ _ => t.memOk

@[simp] theorem BankOut.memOk_waits (t : State) : (BankOut.waits t).memOk ↔ t.memOk := Iff.rfl
@[simp] theorem BankOut.memOk_fails (t : State) (st : Nat) : (BankOut.fails t st).memOk ↔ t.memOk := Iff.rfl
@[simp] theorem BankOut.memOk_writes (t : State) (rs : List TileOut) (low : Bool) :
    (BankOut.writes t rs low).memOk ↔ t.memOk := Iff.rfl
theorem BankOut.memOk.waits {o : BankOut} {t : State} (h : o.memOk) (e : o = .waits t) : t.memOk := by
  subst e; exact h
theorem BankOut.memOk.fails {o : BankOut} {t : State} {st : Nat} (h : o.memOk) (e : o = .fails t st) : t.memOk := by
  subst e; exact h
theorem BankOut.memOk.writes {o : BankOut} {t : State} {rs : List TileOut} {low : Bool} (h : o.memOk)
    (e : o = .writes t rs low) : t.memOk := by
  subst e; exact h

/-- The same of an atomic's read. -/
def AtomicRead.memOk : AtomicRead → Prop
  | .ok t _ => t.memOk
  | .done t => t.memOk

@[simp] theorem AtomicRead.memOk_ok (t : State) (v : DWord) : (AtomicRead.ok t v).memOk ↔ t.memOk := Iff.rfl
@[simp] theorem AtomicRead.memOk_done (t : State) : (AtomicRead.done t).memOk ↔ t.memOk := Iff.rfl
theorem AtomicRead.memOk.ok {o : AtomicRead} {t : State} {v : DWord} (h : o.memOk) (e : o = .ok t v) : t.memOk := by
  subst e; exact h
theorem AtomicRead.memOk.done {o : AtomicRead} {t : State} (h : o.memOk) (e : o = .done t) : t.memOk := by
  subst e; exact h

/-- The same of a send, which answers with a state when it is sent. -/
def SendOut.memOk : SendOut → Prop
  | .sent t => t.memOk
  | _ => True

@[simp] theorem SendOut.memOk_sent (t : State) : (SendOut.sent t).memOk ↔ t.memOk := Iff.rfl
@[simp] theorem SendOut.memOk_blocked : SendOut.blocked.memOk := trivial
@[simp] theorem SendOut.memOk_status (n : Nat) : (SendOut.status n).memOk := trivial
@[simp] theorem SendOut.memOk_fault (a : DWord) (st : Nat) : (SendOut.fault a st).memOk := trivial
theorem SendOut.memOk.sent {o : SendOut} {t : State} (h : o.memOk) (e : o = .sent t) : t.memOk := by
  subst e; exact h

/-- The same of a check of the host's cached lines, which writes no byte: the state answered is canonical where s is. -/
def BiOut.memOk (o : BiOut) (s : State) : Prop :=
  match o with
  | .clear => True
  | .waits t => t.memOk ↔ s.memOk
  | .timeout t => t.memOk ↔ s.memOk

theorem BiOut.memOk.waits {o : BiOut} {s t : State} (h : o.memOk s) (e : o = .waits t) : t.memOk ↔ s.memOk := by
  subst e; exact h
theorem BiOut.memOk.timeout {o : BiOut} {s t : State} (h : o.memOk s) (e : o = .timeout t) : t.memOk ↔ s.memOk := by
  subst e; exact h

/-- The same of a vector operation's write. -/
def Written.memOk : Written → Prop
  | .done t => t.memOk
  | .waits t => t.memOk
  | .fails t _ => t.memOk

@[simp] theorem Written.memOk_done (t : State) : (Written.done t).memOk ↔ t.memOk := Iff.rfl
@[simp] theorem Written.memOk_waits (t : State) : (Written.waits t).memOk ↔ t.memOk := Iff.rfl
@[simp] theorem Written.memOk_fails (t : State) (st : Nat) : (Written.fails t st).memOk ↔ t.memOk := Iff.rfl
theorem Written.memOk.done {o : Written} {t : State} (h : o.memOk) (e : o = .done t) : t.memOk := by
  subst e; exact h
theorem Written.memOk.waits {o : Written} {t : State} (h : o.memOk) (e : o = .waits t) : t.memOk := by
  subst e; exact h
theorem Written.memOk.fails {o : Written} {t : State} {st : Nat} (h : o.memOk) (e : o = .fails t st) : t.memOk := by
  subst e; exact h

/-- The next state that a row answers with, where it answers with one, is canonical. -/
def RowMemOk : Host.Outcome State Fault Refusal → Prop
  | .next t => t.memOk
  | _ => True

@[simp] theorem rowMemOk_next (t : State) : RowMemOk (.next t) ↔ t.memOk := Iff.rfl
@[simp] theorem rowMemOk_fault (r : Fault) : RowMemOk (.fault r) := trivial
@[simp] theorem rowMemOk_refused (r : Refusal) : RowMemOk (.refused r) := trivial

@[simp] theorem rowMemOk_ite (c : Prop) [Decidable c] (o p : Host.Outcome State Fault Refusal) :
    RowMemOk (if c then o else p) ↔ if c then RowMemOk o else RowMemOk p := by
  split <;> rfl

end Sys2Proof.Machine
end

section
/-! SUPPORT. The operations of the state, in the order of their definitions: an operation that writes no byte keeps
`State.memOk` by an `↔`, one that writes keeps it from a canonical state. -/

namespace Sys2Proof.Machine

/-! ### Writes of bytes, cache bays and lagoon accesses -/

@[simp] theorem State.raise_memOk (s : State) (r : RecIn) : (s.raise r).memOk ↔ s.memOk := Iff.rfl

@[simp] theorem State.absorb_memOk (s : State) (t : Nat) : (s.absorb t).memOk ↔ s.memOk := by
  simp [State.absorb]

/-- A change of every core that leaves its own SRAM writes no byte of the atoll. -/
theorem Atoll.bytesOk_mapCores (lagoon : Mem) (cache : Tbl CacheLine) (cores : Tbl Core) (f : Nat × Core → Nat × Core)
    (hf : ∀ e, (f e).2.sram = e.2.sram) :
    Atoll.bytesOk lagoon cache (cores.map f) ↔ Atoll.bytesOk lagoon cache cores := by
  refine and_congr_right' (and_congr_right' ?_)
  rw [List.forall_mem_map]
  exact forall₂_congr fun e _ => by rw [hf]

@[simp] theorem State.bayUnpublish_memOk (s : State) (g bay : Nat) : (s.bayUnpublish g bay).memOk ↔ s.memOk := by
  unfold State.bayUnpublish
  dsimp only
  rw [State.modAtoll_memOk _ _ _ fun a => ?_]
  · refine State.memOk_foldl _ _ _ fun t x => ?_
    split
    · rfl
    · refine t.modAtoll_memOk _ _ fun b => b.modCore_memOk _ _ fun k => ?_
      split <;> rfl
  · exact Atoll.bytesOk_mapCores _ _ _ _ fun _ => rfl

@[simp] theorem State.bankLate_memOk (s : State) (addr : Nat) : (s.bankLate addr).memOk ↔ s.memOk := by
  simp [State.bankLate]

@[simp] theorem State.dramWrite_memOk (s : State) (a : Nat) (data : List Byte) (hs : s.memOk) :
    (s.dramWrite a data).memOk := by
  unfold State.dramWrite
  dsimp only
  split
  · simp [hs]
  · obtain ⟨h1, h2, h3⟩ := s.memOk_iff.1 hs
    exact (State.memOk_iff _).2 ⟨h1, Mem.writeBytes_wf h2 _ _, h3⟩

@[simp] theorem State.lagoonWrite_memOk (s : State) (t off : Nat) (tag : BitVec 5) (data : List Byte) (hs : s.memOk) :
    (s.lagoonWrite t off tag data).memOk := by
  unfold State.lagoonWrite
  split
  · simp [hs]
  · exact State.modAtoll_keeps hs t (Atoll.store_memOk (State.atoll_memOk hs t) _ _ _)

@[simp] theorem State.writePlace_memOk (s : State) (pl : Place) (tag : BitVec 5) (data : List Byte) (hs : s.memOk) :
    (s.writePlace pl tag data).memOk := by
  cases pl with
  | dram a => exact s.dramWrite_memOk a data hs
  | lagoon g off => exact s.lagoonWrite_memOk g off tag data hs
  | staging k off => exact State.modShoal_keeps hs k (Mem.writeBytes_wf (State.staging_wf hs k) _ _)

@[simp] theorem State.physWrite_memOk (n : Nat) (s : State) (who : Option Nat) (addr : Nat) (tag : BitVec 5)
    (data : List Byte) (hs : s.memOk) : (State.physWrite n s who addr tag data).1.memOk := by
  induction n generalizing s addr data with
  | zero => exact hs
  | succ k ih =>
    unfold State.physWrite
    dsimp only
    (repeat' split) <;> simp [hs, ih]

@[simp] theorem State.pwrite_memOk (s : State) (who : Option Nat) (addr : Nat) (tag : BitVec 5) (data : List Byte)
    (hs : s.memOk) : (s.pwrite who addr tag data).1.memOk := by
  simp [State.pwrite, hs]

@[simp] theorem State.writeBack_memOk (s : State) (g : Nat) (c : CacheLine) (hs : s.memOk) : (s.writeBack g c).memOk := by
  simp [State.writeBack, hs]

@[simp] theorem State.cacheAlloc_memOk (s : State) (g bay set : Nat) (hs : s.memOk) : (s.cacheAlloc g bay set).1.memOk := by
  unfold State.cacheAlloc
  dsimp only
  split
  · exact hs
  split
  · have h1 : ∀ c : CacheLine, (if c.dirty then s.writeBack g c else s).memOk := fun c => by
      split <;> simp [hs]
    exact State.modAtoll_keeps (h1 _) g (Atoll.dropLines_memOk (State.atoll_memOk (h1 _) g) _)
  · exact hs

theorem State.biCheck_memOk (s : State) (rs : List (Nat × Nat × Bool)) : (s.biCheck rs).memOk s := by
  have hm : ∀ (l : List (Nat × Bool)) (h : HostSt), (l.foldl (fun k x => k.snoop x.1 x.2 none s.count) h).mem = h.mem := by
    intro l
    induction l with
    | nil => exact fun _ => rfl
    | cons x l ih => exact fun h => (ih _).trans (h.snoop_mem _ _ _ _)
  unfold State.biCheck
  dsimp only
  (repeat' split) <;> simp [BiOut.memOk, hm]

@[simp] theorem State.biThen_memOk (s : State) (rs : List (Nat × Nat × Bool)) (late go : State → State)
    (hl : ∀ t, (late t).memOk ↔ t.memOk) (hg : (go s).memOk ↔ s.memOk) : (s.biThen rs late go).memOk ↔ s.memOk := by
  have h := s.biCheck_memOk rs
  unfold State.biThen
  split
  · exact hg
  next e => exact h.waits e
  next e => exact (hl _).trans (h.timeout e)

/-- A check of the host's lines, then an operation that keeps the memories canonical. -/
theorem State.biThen_keeps {s : State} (hs : s.memOk) (rs : List (Nat × Nat × Bool)) {late go : State → State}
    (hl : ∀ t, t.memOk → (late t).memOk) (hg : (go s).memOk) : (s.biThen rs late go).memOk := by
  have h := s.biCheck_memOk rs
  unfold State.biThen
  split
  · exact hg
  next e => exact (h.waits e).2 hs
  next e => exact hl _ ((h.timeout e).2 hs)

@[simp] theorem State.flushBay_memOk (s : State) (g bay : Nat) (hs : s.memOk) : (s.flushBay g bay).memOk := by
  unfold State.flushBay
  have hl : ∀ e ∈ (s.atoll g).bayLines bay, Memory.wf e.2.data := by
    obtain ⟨-, hc, -⟩ := State.atoll_memOk hs g
    exact fun e he => hc e (List.mem_filter.1 he).1
  generalize (s.atoll g).bayLines bay = l at hl
  induction l generalizing s with
  | nil => exact hs
  | cons e l ih =>
    obtain ⟨he, hl⟩ := List.forall_mem_cons.1 hl
    refine ih _ ?_ hl
    dsimp only
    split
    · have h1 := s.writeBack_memOk g e.2 hs
      obtain ⟨h2, h3, h4⟩ := State.atoll_memOk h1 g
      have hclean := Tbl.forall_set (P := fun x : CacheLine => Memory.wf x.data) (v := { e.2 with dirty := false }) h3 he
      exact State.modAtoll_keeps h1 g ⟨h2, hclean _, h4⟩
    · exact hs

@[simp] theorem State.dropBay_memOk (s : State) (g bay : Nat) (hs : s.memOk) : (s.dropBay g bay).memOk :=
  State.modAtoll_keeps hs g (Atoll.dropLines_memOk (State.atoll_memOk hs g) _)

@[simp] theorem State.cacheCommand_memOk (s : State) (g bay : Nat) (k : CacheCmdKind) (who : CacheIssuer) (hs : s.memOk) :
    (s.cacheCommand g bay k who).memOk := by
  unfold State.cacheCommand
  split
  · refine State.biThen_keeps hs _ (fun _ h => h) ?_
    dsimp only
    split <;> simp [hs]
  · exact hs

/-- The line that a table lookup finds, or the empty one, is canonical. -/
theorem Atoll.cacheLine_wf {a : Atoll} (h : a.memOk) (k l : Nat) :
    Memory.wf (Tbl.getD a.cache k { index := l, dirty := false, poisoned := false, filling := false, data := [] }).data := by
  obtain ⟨-, hc, -⟩ := h
  exact Tbl.forall_getD (P := fun x : CacheLine => Memory.wf x.data) hc Memory.wf_nil k

/-- Installing a canonical line keeps a canonical state. -/
theorem State.setLine_keeps {s : State} (hs : s.memOk) (g bay set w : Nat) {c : CacheLine} (hc : Memory.wf c.data) :
    (s.modAtoll g fun x => x.setLine bay set w c).memOk :=
  State.modAtoll_keeps hs g (Atoll.setLine_memOk (State.atoll_memOk hs g) bay set w hc)

@[simp] theorem State.cacheRead_memOk (s : State) (g off n : Nat) (hs : s.memOk) : (s.cacheRead g off n).memOk := by
  have hw := Atoll.cacheLine_wf (State.atoll_memOk hs g)
  unfold State.cacheRead
  dsimp only
  (repeat' split) <;> try simp [hs]
  · exact State.setLine_keeps hs g _ _ _ (hw _ _)
  · exact ((s.biCheck_memOk _).waits ‹_›).2 hs
  · exact ((s.biCheck_memOk _).timeout ‹_›).2 hs
  · exact State.setLine_keeps (s.cacheAlloc_memOk g _ _ hs) g _ _ _ Memory.wf_nil

@[simp] theorem State.cacheWrite_memOk (s : State) (g off : Nat) (data : List Byte) (hs : s.memOk) :
    (s.cacheWrite g off data).memOk := by
  have hw := Atoll.cacheLine_wf (State.atoll_memOk hs g)
  have ha := fun bay set => s.cacheAlloc_memOk g bay set hs
  unfold State.cacheWrite
  dsimp only
  (repeat' split) <;> try simp [hs]
  · exact State.setLine_keeps hs g _ _ _ (Mem.writeBytes_wf (hw _ _) _ _)
  · exact ((s.biCheck_memOk _).waits ‹_›).2 hs
  · exact ((s.biCheck_memOk _).timeout ‹_›).2 hs
  · exact State.setLine_keeps (ha _ _) g _ _ _ (Mem.writeBytes_wf Memory.wf_nil _ _)
  · exact State.setLine_keeps (ha _ _) g _ _ _ Memory.wf_nil

@[simp] theorem State.endLoad_memOk (s : State) (g : Nat) (who : Requester) (addr : Word) (size : Nat) (sgn : Bool)
    (st : Nat) (data : List Byte) : (s.endLoad g who addr size sgn st data).memOk ↔ s.memOk := by
  unfold State.endLoad
  (repeat' split) <;> simp

@[simp] theorem State.endStore_memOk (s : State) (g : Nat) (who : Requester) (addr : Word) (st : Nat) :
    (s.endStore g who addr st).memOk ↔ s.memOk := by
  unfold State.endStore
  (repeat' split) <;> simp

@[simp] theorem State.finishBayChange_memOk (s : State) (g : Nat) (c : BayChange) (hs : s.memOk) :
    (s.finishBayChange g c).memOk := by
  have h1 : (if c.toCache then s else s.flushBay g c.bay).memOk := by
    split <;> simp [hs]
  exact State.modAtoll_keeps h1 g (Atoll.zeroBay_memOk (State.atoll_memOk h1 g) c.bay)

/-! ### Records, events, fences and decoders of the lagoon -/

@[simp] theorem State.askReset_memOk (s : State) (counted : Bool) : (s.askReset counted).memOk ↔ s.memOk := Iff.rfl

@[simp] theorem State.postEvent_memOk (s : State) (e : Event) : (s.postEvent e).memOk ↔ s.memOk := Iff.rfl

@[simp] theorem State.notice_memOk (s : State) (p kind status : Nat) (seq : Word) (report : Half) :
    (s.notice p kind status seq report).memOk ↔ s.memOk := Iff.rfl

@[simp] theorem State.noticeAll_memOk (s : State) (kind : Nat) (seq : Word) : (s.noticeAll kind seq).memOk ↔ s.memOk := by
  simp [State.noticeAll]

@[simp] theorem State.checkHealth_memOk (s : State) : s.checkHealth.memOk ↔ s.memOk := by
  simp [State.checkHealth]

@[simp] theorem State.fenceUnit_memOk (s : State) (u : Word) (cls : Half) (seq : Word) (source : BitVec 2) (retry : Bool) :
    (s.fenceUnit u cls seq source retry).memOk ↔ s.memOk := by
  simp [State.fenceUnit]

@[simp] theorem State.trigger_memOk (s : State) (p : Nat) (t : Trigger) : (s.trigger p t).memOk ↔ s.memOk := by
  simp [State.trigger]

@[simp] theorem State.lagoonDecode_memOk (s : State) (t off : Nat) (d : Decoded) (src : Nat) (op : Nat × Nat) :
    (s.lagoonDecode t off d src op).memOk ↔ s.memOk := by
  unfold State.lagoonDecode
  (repeat' split) <;> simp

@[simp] theorem State.lagoonRead_memOk (s : State) (t off n : Nat) (d : Decoded) (op : Nat × Nat) :
    (s.lagoonRead t off n d op).1.memOk ↔ s.memOk := by
  unfold State.lagoonRead
  (repeat' split) <;> simp

@[simp] theorem State.load_memOk (s : State) (g : Nat) (who : Requester) (addr : Word) (size : Nat) (sgn : Bool)
    (dec : Decoded) (hs : s.memOk) : (s.load g who addr size sgn dec).memOk := by
  have h := s.cacheRead_memOk g (laOffset addr) size hs
  unfold State.load
  split
  · split
    next e => exact h.waits e
    next e => simpa using h.ends e
  · dsimp only
    (repeat' split) <;> simp [hs]

@[simp] theorem State.storeTo_memOk (s : State) (g : Nat) (who : Requester) (addr : Word) (tag : BitVec 5)
    (data : List Byte) (hs : s.memOk) : (s.storeTo g who addr tag data).memOk := by
  have h := s.cacheWrite_memOk g (laOffset addr) data hs
  unfold State.storeTo
  split
  · split
    next e => exact h.waits e
    next e => simpa using h.ends e
  · dsimp only
    (repeat' split) <;> simp [hs]

/-! ### SPDM requests -/

@[simp] theorem State.modSession_memOk (s : State) (id : Nat) (f : SpdmSession → SpdmSession) :
    (s.modSession id f).memOk ↔ s.memOk := Iff.rfl

@[simp] theorem State.spdmSend_memOk (s : State) (session : Nat) (bs : List Byte) :
    (s.spdmSend session bs).memOk ↔ s.memOk := by
  simp [State.spdmSend]

@[simp] theorem State.freshen_memOk (s : State) : s.freshen.memOk ↔ s.memOk := Iff.rfl

@[simp] theorem State.spdmAnswer_memOk (s : State) (r : SpdmRequest) (go : State → SpdmRequest → State × SpdmRsp)
    (h : ∀ t q, (go t q).1.memOk ↔ t.memOk) : (s.spdmAnswer r go).memOk ↔ s.memOk := by
  unfold State.spdmAnswer
  dsimp only
  (repeat' split) <;> simp [h]

@[simp] theorem spdmAlgorithms_memOk (s : State) (r : SpdmRequest) : (spdmAlgorithms s r).1.memOk ↔ s.memOk := by
  unfold spdmAlgorithms
  (repeat' split) <;> simp

@[simp] theorem spdmCapabilities_memOk (s : State) (r : SpdmRequest) : (spdmCapabilities s r).1.memOk ↔ s.memOk := by
  unfold spdmCapabilities
  (repeat' split) <;> simp

@[simp] theorem spdmCertificate_memOk (s : State) (r : SpdmRequest) : (spdmCertificate s r).1.memOk ↔ s.memOk := by
  unfold spdmCertificate
  (repeat' split) <;> simp

@[simp] theorem spdmChallenge_memOk (s : State) (r : SpdmRequest) : (spdmChallenge s r).1.memOk ↔ s.memOk := by
  unfold spdmChallenge
  (repeat' split) <;> simp

@[simp] theorem spdmChunkGet_memOk (s : State) (r : SpdmRequest) : (spdmChunkGet s r).1.memOk ↔ s.memOk := by
  unfold spdmChunkGet
  (repeat' split) <;> simp

@[simp] theorem spdmVersion_memOk (s : State) (r : SpdmRequest) : (spdmVersion s r).1.memOk ↔ s.memOk := Iff.rfl

@[simp] theorem spdmDigests_memOk (s : State) (r : SpdmRequest) : (spdmDigests s r).1.memOk ↔ s.memOk := by
  unfold spdmDigests
  (repeat' split) <;> simp

@[simp] theorem spdmMeasurements_memOk (s : State) (r : SpdmRequest) : (spdmMeasurements s r).1.memOk ↔ s.memOk := by
  unfold spdmMeasurements
  dsimp only
  (repeat' split) <;> simp

@[simp] theorem spdmKeyExchange_memOk (s : State) (r : SpdmRequest) : (spdmKeyExchange s r).1.memOk ↔ s.memOk := by
  unfold spdmKeyExchange
  (repeat' split) <;> simp

@[simp] theorem spdmFinish_memOk (s : State) (r : SpdmRequest) : (spdmFinish s r).1.memOk ↔ s.memOk := by
  unfold spdmFinish
  (repeat' split) <;> simp

@[simp] theorem spdmHeartbeat_memOk (s : State) (r : SpdmRequest) : (spdmHeartbeat s r).1.memOk ↔ s.memOk := by
  unfold spdmHeartbeat
  (repeat' split) <;> simp

@[simp] theorem spdmKeyUpdate_memOk (s : State) (r : SpdmRequest) : (spdmKeyUpdate s r).1.memOk ↔ s.memOk := by
  unfold spdmKeyUpdate
  (repeat' split) <;> simp

@[simp] theorem spdmEndSession_memOk (s : State) (r : SpdmRequest) : (spdmEndSession s r).1.memOk ↔ s.memOk := by
  unfold spdmEndSession
  (repeat' split) <;> simp

@[simp] theorem spdmUnsupported_memOk (s : State) (r : SpdmRequest) : (spdmUnsupported s r).1.memOk ↔ s.memOk := Iff.rfl

@[simp] theorem spdmOf_memOk (code : Nat) (a : State) (r : SpdmRequest) : (spdmOf code a r).1.memOk ↔ a.memOk := by
  unfold spdmOf
  (repeat' split) <;> simp

@[simp] theorem spdmChunkSend_memOk (s : State) (r : SpdmRequest) : (spdmChunkSend s r).1.memOk ↔ s.memOk := by
  unfold spdmChunkSend
  dsimp only
  (repeat' split) <;> simp

/-! ### Bank operations -/

@[simp] theorem State.bankEnd_memOk (s : State) (g st off : Nat) (low : Bool) :
    (s.bankEnd g st off low).memOk ↔ s.memOk := by
  simp [State.bankEnd]

@[simp] theorem State.runRead_memOk (n : Nat) (s : State) (g addr m : Nat) (hs : s.memOk) :
    (State.runRead n s g addr m).memOk := by
  induction n generalizing s addr m with
  | zero => exact hs
  | succ k ih =>
    have hc := fun a b => s.cacheRead_memOk g a b hs
    unfold State.runRead
    dsimp only
    split
    · exact hs
    split
    · split
      · exact (hc _ _).waits ‹_›
      · have h1 := (hc _ _).ends ‹_›
        split
        · split
          · exact (ih _ _ _ h1).ends ‹_›
          · exact ih _ _ _ h1
        · exact h1
    · split
      · exact hs
      · split
        · exact hs
        · split
          · exact (ih _ _ _ hs).ends ‹_›
          · exact ih _ _ _ hs

@[simp] theorem State.readRun_memOk (s : State) (g addr n : Nat) (hs : s.memOk) : (s.readRun g addr n).memOk := by
  unfold State.readRun
  dsimp only
  (repeat' split) <;> simp [hs]

@[simp] theorem State.readRuns_memOk (rs : List (Nat × Nat)) (s : State) (g : Nat) (hs : s.memOk) :
    (State.readRuns rs s g).1.memOk := by
  induction rs generalizing s with
  | nil => exact hs
  | cons e rs ih =>
    have h := s.readRun_memOk g e.1 e.2 hs
    unfold State.readRuns
    split
    next e => exact h.waits e
    next s1 st bs e =>
      split
      · exact h.ends e
      · exact ih s1 (h.ends e)

@[simp] theorem State.bankRun_memOk (s : State) (g : Nat) (b : BankCmd) (hs : s.memOk) : (s.bankRun g b).memOk := by
  unfold State.bankRun
  dsimp only
  (repeat' split) <;> simp [hs]

@[simp] theorem State.putRuns_memOk (s : State) (g : Nat) (rs : List TileOut) (hs : s.memOk) : (s.putRuns g rs).memOk := by
  refine State.foldl_keeps (fun t r ht => ?_) rs hs
  split <;> simp [ht]

@[simp] theorem State.bankLines_memOk (s : State) (g : Nat) (b : BankCmd) (hs : s.memOk) : (s.bankLines g b).1.memOk := by
  refine State.foldl_fst_keeps (fun t low i ht => ?_) _ hs
  have h := t.bankRun_memOk g b ht
  dsimp only
  split
  next e => exact State.putRuns_memOk _ _ _ (h.writes e)
  · exact ht

@[simp] theorem State.bankHead_memOk (s : State) (g code : Nat) (bad : Option Word) (hs : s.memOk) :
    (s.bankHead g code bad).memOk := by
  unfold State.bankHead
  dsimp only
  split
  · exact hs
  rename_i o _ _
  split
  · exact hs
  split
  · simp [hs]
  split
  · simp [hs]
  split
  · simp [hs]
  · have h := s.bankRun_memOk g (bankCmd o.cmd) hs
    split
    · exact h.waits ‹_›
    · have h1 := h.fails ‹_›
      simp [h1]
    · have h1 := h.writes ‹_›
      (repeat' split) <;> simp [h1]

@[simp] theorem State.bankPost_memOk (s : State) (g : Nat) (post : Option (BitVec 256)) :
    (s.bankPost g post).memOk ↔ s.memOk := by
  unfold State.bankPost
  (repeat' split) <;> simp

@[simp] theorem State.bankRow_memOk (s : State) (g code : Nat) (post : Option (BitVec 256)) (bad : Option Word)
    (hs : s.memOk) : (s.bankRow g code post bad).memOk := by
  simp [State.bankRow, hs]

/-! ### Reset, power and firmware boot -/

@[simp] theorem State.modStrait_memOk (s : State) (d : Nat) (f : Strait → Strait) :
    (s.modStrait d f).memOk ↔ s.memOk := Iff.rfl

@[simp] theorem State.modLink_memOk (s : State) (l : Nat) (f : FLink → FLink) : (s.modLink l f).memOk ↔ s.memOk := Iff.rfl

@[simp] theorem State.dropLink_memOk (s : State) (l : Nat) : (s.dropLink l).memOk ↔ s.memOk := Iff.rfl

@[simp] theorem State.retrainAll_memOk (s : State) : s.retrainAll.memOk ↔ s.memOk := by
  simp [State.retrainAll]

@[simp] theorem State.beginModuleReset_memOk (s : State) (hs : s.memOk) : s.beginModuleReset.memOk := by
  obtain ⟨-, hd, -, hh, hf⟩ := s.memOk_iff.1 hs
  unfold State.beginModuleReset
  dsimp only
  rw [State.modFlt_memOk]
  have h1 : State.bytesOk [] s.mem.dram [] s.host.mem s.fw.hubs := ⟨List.forall_mem_nil _, hd, List.forall_mem_nil _, hh, hf⟩
  split <;> simpa [MemSt.moduleReset] using h1

theorem State.modFwHub_keeps {s : State} (hs : s.memOk) (k : Nat) {f : FwHub → FwHub} (hf : (f (s.fwHub k)).memOk) :
    (s.modFwHub k f).memOk := by
  obtain ⟨h1, h2, h3, h4, h5⟩ := s.memOk_iff.1 hs
  exact (State.memOk_iff _).2 ⟨h1, h2, h3, h4, Tbl.forall_set h5 hf k⟩

@[simp] theorem State.modFwHub_memOk (s : State) (k : Nat) (f : FwHub → FwHub) (hf : ∀ x, (f x).memOk ↔ x.memOk) :
    (s.modFwHub k f).memOk ↔ s.memOk := by
  rw [State.memOk_iff, State.memOk_iff]
  refine and_congr_right' (and_congr_right' (and_congr_right' (and_congr_right' ?_)))
  exact Tbl.forall_set_iff _ _ FwHub.reset_memOk (hf _)

/-- Changes of a hub's pointers write no byte of its slots. -/
@[simp] theorem State.bootFw_memOk (s : State) (h : Nat) : (s.bootFw h).memOk ↔ s.memOk := by
  unfold State.bootFw
  dsimp only
  split
  · exact s.modFwHub_memOk h _ fun _ => Iff.rfl
  · exact State.modFwHub_memOk _ h _ fun _ => Iff.rfl
  · rfl

@[simp] theorem State.unfence_memOk (s : State) (u : Word) : (s.unfence u).memOk ↔ s.memOk := by
  simp [State.unfence]

@[simp] theorem State.testProcessor_memOk (s : State) (h i : Nat) (ok : Bool) :
    (s.testProcessor h i ok).memOk ↔ s.memOk := by
  simp [State.testProcessor]

@[simp] theorem State.noteTrip_memOk (s : State) : s.noteTrip.memOk ↔ s.memOk := by
  unfold State.noteTrip
  (repeat' split) <;> simp

@[simp] theorem State.bootHubs_memOk (s : State) (t : BringUp) : (s.bootHubs t).memOk ↔ s.memOk := by
  unfold State.bootHubs
  dsimp only
  split <;> simp

@[simp] theorem State.countReset_memOk (s : State) (counted : Bool) : (s.countReset counted).memOk ↔ s.memOk := by
  simp [State.countReset]

@[simp] theorem State.request_memOk (s : State) (q : LedgerReq) : (s.request q).memOk ↔ s.memOk := by
  unfold State.request
  (repeat' split) <;> simp

@[simp] theorem State.raiseRegions_memOk (s : State) : s.raiseRegions.memOk ↔ s.memOk := by
  refine State.memOk_foldl _ _ _ fun t k => ?_
  (repeat' split) <;> simp

@[simp] theorem State.resolveClears_memOk (s : State) (t : BringUp) (fresh : Bool) :
    (s.resolveClears t fresh).memOk ↔ s.memOk := by
  simp [State.resolveClears]

/-! ### Containment of faults and streams -/

@[simp] theorem State.flood_memOk (s : State) (jobTag : Word) (reason : Nat) (rst : Bool) (step seq : Word) :
    (s.flood jobTag reason rst step seq).memOk ↔ s.memOk := Iff.rfl

@[simp] theorem State.floodAll_memOk (s : State) (reason : Nat) (rst : Bool) (seq : Word) :
    (s.floodAll reason rst seq).memOk ↔ s.memOk := by
  obtain ⟨n, fs, e⟩ := s.floodAll_frame reason rst seq
  rw [e]
  exact Iff.rfl

@[simp] theorem State.escalate_memOk (s : State) (seq : Word) : (s.escalate seq).memOk ↔ s.memOk := by
  simp [State.escalate]

@[simp] theorem State.fenceManager_memOk (s : State) (node : Nat) (cls : Half) (seq : Word) :
    (s.fenceManager node cls seq).memOk ↔ s.memOk := by
  simp [State.fenceManager]

@[simp] theorem State.unpowered_memOk (s : State) (hs : s.memOk) : s.unpowered.memOk := by
  obtain ⟨-, -, -, hh, hf⟩ := s.memOk_iff.1 hs
  exact (State.memOk_iff _).2 ⟨List.forall_mem_nil _, Memory.wf_nil, List.forall_mem_nil _, hh, hf⟩

@[simp] theorem State.tripOff_memOk (s : State) (cause : Nat) (hs : s.memOk) : (s.tripOff cause).memOk := by
  simp [State.tripOff, hs]

@[simp] theorem State.stepDown_memOk (s : State) (key : Nat) : (s.stepDown key).memOk ↔ s.memOk := Iff.rfl

@[simp] theorem State.shed_memOk (n : Nat) (s : State) : (State.shed n s).memOk ↔ s.memOk := by
  induction n generalizing s with
  | zero => rfl
  | succ k ih =>
    unfold State.shed
    dsimp only
    (repeat' split) <;> simp [ih]

@[simp] theorem State.fitBudget_memOk (s : State) : s.fitBudget.memOk ↔ s.memOk := by
  simp [State.fitBudget]

@[simp] theorem State.fenceAtoll_memOk (s : State) (g : Nat) (u : Word) (cls : Half) (seq : Word) (addr : Option DWord) :
    (s.fenceAtoll g u cls seq addr).memOk ↔ s.memOk := by
  unfold State.fenceAtoll
  (repeat' split) <;> simp

@[simp] theorem State.fenceSites_memOk (s : State) (gs : List Nat) (cls : Half) (seq : Word) :
    (s.fenceSites gs cls seq).memOk ↔ s.memOk := by
  simp [State.fenceSites]

@[simp] theorem State.dropWaits_memOk (s : State) (g c : Nat) : (s.dropWaits g c).memOk ↔ s.memOk := by
  simp [State.dropWaits]

@[simp] theorem State.wakeCore_memOk (s : State) (g c : Nat) : (s.wakeCore g c).memOk ↔ s.memOk := by
  unfold State.wakeCore
  (repeat' split) <;> simp

@[simp] theorem State.wakeSeq_memOk (s : State) (g u : Nat) : (s.wakeSeq g u).memOk ↔ s.memOk := by
  simp [State.wakeSeq]

@[simp] theorem State.wakeAtollObj_memOk (s : State) (g o : Nat) : (s.wakeAtollObj g o).memOk ↔ s.memOk := by
  refine State.memOk_foldl _ _ _ fun t w => ?_
  split <;> simp

@[simp] theorem State.signalAtoll_memOk (s : State) (g o inc : Nat) : (s.signalAtoll g o inc).memOk ↔ s.memOk := by
  simp [State.signalAtoll]

@[simp] theorem State.stopStream_memOk (s : State) (p st status kind at_ off cause : Nat) (word : DWord) (seq : Word)
    (quiet : Bool) : (s.stopStream p st status kind at_ off cause word seq quiet).memOk ↔ s.memOk := by
  unfold State.stopStream
  (repeat' split) <;> simp

@[simp] theorem State.stopAllFenced_memOk (s : State) (p cause : Nat) (seq : Word) :
    (s.stopAllFenced p cause seq).memOk ↔ s.memOk := by
  unfold State.stopAllFenced
  (repeat' split) <;> simp

@[simp] theorem State.judge_memOk (s : State) (p st idx : Nat) (v : Verdict) : (s.judge p st idx v).memOk ↔ s.memOk := by
  unfold State.judge
  (repeat' split) <;> simp

@[simp] theorem State.finishCmd_memOk (s : State) (p st idx : Nat) : (s.finishCmd p st idx).memOk ↔ s.memOk := by
  simp [State.finishCmd]

theorem State.modN_memOk (k : Nat) :
    (∀ s p st idx v, (State.completeCmdN k s p st idx v).memOk ↔ s.memOk) ∧
    (∀ s o inc, (State.signalModN k s o inc).memOk ↔ s.memOk) ∧
    ∀ s o ws, (State.wakeModN k s o ws).memOk ↔ s.memOk := by
  induction k with
  | zero =>
    refine ⟨fun s p st idx v => ?_, fun s o inc => ?_, fun s o ws => ?_⟩
    · simp [State.completeCmdN]
    · simp [State.signalModN]
    · simp [State.wakeModN]
  | succ k ih =>
    obtain ⟨h1, h2, h3⟩ := ih
    refine ⟨fun s p st idx v => ?_, fun s o inc => ?_, fun s o ws => ?_⟩
    · unfold State.completeCmdN
      dsimp only
      (repeat' split) <;> simp [h2]
    · unfold State.signalModN
      dsimp only
      rw [h3]
      simp
    · cases ws with
      | nil => unfold State.wakeModN; rfl
      | cons w ws =>
        unfold State.wakeModN
        dsimp only
        rw [h3]
        split <;> simp [h1]

@[simp] theorem State.completeCmdN_memOk (k : Nat) (s : State) (p st idx : Nat) (v : Verdict) :
    (State.completeCmdN k s p st idx v).memOk ↔ s.memOk := (State.modN_memOk k).1 s p st idx v

@[simp] theorem State.signalModN_memOk (k : Nat) (s : State) (o inc : Nat) : (State.signalModN k s o inc).memOk ↔ s.memOk :=
  (State.modN_memOk k).2.1 s o inc

@[simp] theorem State.wakeModN_memOk (k : Nat) (s : State) (o : Nat) (ws : List WaitEntry) :
    (State.wakeModN k s o ws).memOk ↔ s.memOk := (State.modN_memOk k).2.2 s o ws

@[simp] theorem State.completeCmd_memOk (s : State) (p st idx : Nat) (v : Verdict) :
    (s.completeCmd p st idx v).memOk ↔ s.memOk := by
  simp [State.completeCmd]

@[simp] theorem State.deliverMem_memOk (s : State) (r : MemRun) (w : DWord) : (s.deliverMem r w).memOk ↔ s.memOk := by
  unfold State.deliverMem
  (repeat' split) <;> simp

@[simp] theorem State.modUnit_memOk (s : State) (h u : Nat) (f : StreamUnit → StreamUnit) :
    (s.modUnit h u f).memOk ↔ s.memOk := by
  simp [State.modUnit]

@[simp] theorem State.endMem_memOk (s : State) (h u : Nat) (r : MemRun) : (s.endMem h u r).memOk ↔ s.memOk := by
  simp [State.endMem]

@[simp] theorem State.rollOrStop_memOk (s : State) (p : Nat) (t : Trigger) : (s.rollOrStop p t).memOk ↔ s.memOk := by
  unfold State.rollOrStop
  (repeat' split) <;> simp

@[simp] theorem State.fenceStreamUnit_memOk (s : State) (h u : Nat) (cls : Half) (seq : Word) :
    (s.fenceStreamUnit h u cls seq).memOk ↔ s.memOk := by
  unfold State.fenceStreamUnit
  (repeat' split) <;> simp

@[simp] theorem State.modColl_memOk (s : State) (k : CollKey) (f : Coll → Coll) : (s.modColl k f).memOk ↔ s.memOk := Iff.rfl

@[simp] theorem State.signalMod_memOk (s : State) (o inc : Nat) : (s.signalMod o inc).memOk ↔ s.memOk := by
  unfold State.signalMod
  simp

@[simp] theorem State.endColl_memOk (s : State) (k : CollKey) (status : Nat) : (s.endColl k status).memOk ↔ s.memOk := by
  unfold State.endColl
  (repeat' split) <;> simp

@[simp] theorem State.abortColls_memOk (s : State) (cls : Half) (seq : Word) : (s.abortColls cls seq).memOk ↔ s.memOk := by
  simp [State.abortColls]

@[simp] theorem State.wantRetire_memOk (s : State) (c : Nat) : (s.wantRetire c).memOk ↔ s.memOk := by
  simp [State.wantRetire]

@[simp] theorem State.fenceLane_memOk (s : State) (l sub : Nat) : (s.fenceLane l sub).memOk ↔ s.memOk := by
  simp [State.fenceLane]

@[simp] theorem State.hubLost_memOk (s : State) (h : Nat) : (s.hubLost h).memOk ↔ s.memOk := by
  simp [State.hubLost]

@[simp] theorem State.goFatal_memOk (s : State) (seq : Word) : (s.goFatal seq).memOk ↔ s.memOk := by
  simp [State.goFatal]

@[simp] theorem State.goDark_memOk (s : State) (key : Nat) (cls : Half) (seq : Word) (mark : RegionState) :
    (s.goDark key cls seq mark).memOk ↔ s.memOk := by
  simp [State.goDark]

@[simp] theorem State.losePhase_memOk (s : State) (key phase : Nat) (cls : Half) (seq : Word) (hs : s.memOk) :
    (s.losePhase key phase cls seq).memOk := by
  simp [State.losePhase, hs]

@[simp] theorem State.wantMigration_memOk (s : State) (g : Nat) : (s.wantMigration g).memOk ↔ s.memOk := by
  unfold State.wantMigration
  (repeat' split) <;> simp

@[simp] theorem State.batchEnd_memOk (s : State) (p st idx : Nat) (w : DWord) : (s.batchEnd p st idx w).memOk ↔ s.memOk := by
  unfold State.batchEnd
  (repeat' split) <;> simp

@[simp] theorem State.deliverOp_memOk (s : State) (g : Nat) (src : OpSource) (origin : Nat) (w : DWord) (notify : Bool)
    (obj : Nat) : (s.deliverOp g src origin w notify obj).memOk ↔ s.memOk := by
  unfold State.deliverOp
  (repeat' split) <;> simp

@[simp] theorem State.escalateAtoll_memOk (s : State) (g : Nat) (cls : Half) (seq : Word) :
    (s.escalateAtoll g cls seq).memOk ↔ s.memOk := by
  unfold State.escalateAtoll
  (repeat' split) <;> simp

@[simp] theorem State.releaseHeld_memOk (s : State) (t : Nat) (hs : s.memOk) : (s.releaseHeld t).memOk :=
  State.foldl_keeps (fun u w hu => u.lagoonWrite_memOk t w.offset w.tag w.data hu) _ (by simp [hs])

@[simp] theorem State.releaseAround_memOk (s : State) (g : Nat) (hs : s.memOk) : (s.releaseAround g).memOk := by
  refine State.foldl_keeps (fun u d hu => ?_) _ (s.releaseHeld_memOk g hs)
  split <;> simp [hu]

@[simp] theorem State.fenceEngine_memOk (s : State) (g e : Nat) (cls : Half) (seq : Word) (used : Nat) (hs : s.memOk) :
    (s.fenceEngine g e cls seq used).memOk := by
  unfold State.fenceEngine
  dsimp only
  (repeat' split) <;> simp [hs]

@[simp] theorem State.fenceVec_memOk (s : State) (g v : Nat) (cls : Half) (seq : Word) :
    (s.fenceVec g v cls seq).memOk ↔ s.memOk := by
  have hd : ∀ (l : List VecOp) (t : State), (l.foldl (fun t o =>
      t.deliverOp g o.src 0 (opWord 0 0 false false false opAbandoned 0) false 0) t).memOk ↔ t.memOk :=
    fun l t => State.memOk_foldl _ l t fun t o => by simp
  unfold State.fenceVec
  dsimp only
  split
  · simp
  · rw [State.escalateAtoll_memOk, hd]
    simp

@[simp] theorem State.routeEntry_memOk (s : State) (a d : Nat) : (s.routeEntry a d).memOk ↔ s.memOk := by
  refine s.modAtoll_memOk _ _ fun x => ?_
  (repeat' split) <;> simp

@[simp] theorem State.fenceNeighbour_memOk (s : State) (g dir : Nat) : (s.fenceNeighbour g dir).memOk ↔ s.memOk := by
  unfold State.fenceNeighbour
  (repeat' split) <;> simp

@[simp] theorem State.contain_memOk (s : State) (u : Word) (cls : Half) (seq : Word) (hs : s.memOk) :
    (s.contain u cls seq).memOk := by
  unfold State.contain
  (repeat' split) <;> simp [hs]

@[simp] theorem State.failTest_memOk (s : State) (u : Word) (cls : Half) (hs : s.memOk) : (s.failTest u cls).memOk := by
  simp [State.failTest, hs]

@[simp] theorem State.failCores_memOk (s : State) (hs : s.memOk) : s.failCores.memOk := by
  refine State.foldl_keeps (fun t e ht => ?_) _ hs
  (repeat' split) <;> simp [ht]

@[simp] theorem State.raisedRuns_memOk (s : State) (fails : List Word) : (s.raisedRuns fails).memOk ↔ s.memOk := by
  simp [State.raisedRuns]

@[simp] theorem State.linkRecord_memOk (s : State) (l lane : Nat) (cls : Half) (actions scope : Nat) :
    (s.linkRecord l lane cls actions scope).memOk ↔ s.memOk := Iff.rfl

@[simp] theorem State.trainLink_memOk (s : State) (l : Nat) (lane0 lane1 : Bool) :
    (s.trainLink l lane0 lane1).memOk ↔ s.memOk := by
  simp [State.trainLink]

@[simp] theorem State.testLinks_memOk (s : State) (t : BringUp) : (s.testLinks t).memOk ↔ s.memOk := by
  simp [State.testLinks]

@[simp] theorem State.rebuildDram_memOk (s : State) (spare localSize : Nat) (hs : s.memOk) :
    (s.rebuildDram spare localSize).memOk := by
  obtain ⟨h1, -, h3⟩ := s.memOk_iff.1 hs
  exact (State.memOk_iff _).2 ⟨h1, Memory.wf_nil, h3⟩

@[simp] theorem State.testChannels_memOk (s : State) (t : BringUp) (fresh : Bool) (hs : s.memOk) :
    (s.testChannels t fresh).memOk := by
  simp [State.testChannels, hs]

@[simp] theorem State.spreadFirmware_memOk (s : State) : s.spreadFirmware.memOk ↔ s.memOk := Iff.rfl

@[simp] theorem State.stampPatrols_memOk (s : State) : s.stampPatrols.memOk ↔ s.memOk := by
  simp [State.stampPatrols]

@[simp] theorem State.endTimeline_memOk (s : State) (t : BringUp) (hs : s.memOk) : (s.endTimeline t).memOk := by
  have h1 : (t.failingUnits.foldl (fun x e => if x.life.powered then x.failTest e.1 e.2 else x)
      (s.resolveClears t (decide (s.life.state = .bringup))).raiseRegions).memOk := by
    refine State.foldl_keeps (fun x e hx => ?_) _ (by simp [hs])
    split <;> simp [hx]
  unfold State.endTimeline
  extract_lets fresh s1 k s2 s3 s4 s5 s6 state s7 s8 s9
  have h4 : s4.memOk := by
    have h3 : s3.memOk := (State.memOk_foldl _ _ _ fun x e => by simp).2 (k.failCores_memOk h1)
    simp [s4, h3]
  have h9 : s9.memOk := by simp [s9, s8, s7, s6, s5, h4]
  split
  · exact h1
  · (repeat' split) <;> simp [h9]

@[simp] theorem State.powerUp_memOk (s : State) (hs : s.memOk) : s.powerUp.memOk := by
  simp [State.powerUp, hs]

@[simp] theorem State.powerOn_memOk (s : State) (t : BringUp) (hs : s.memOk) : (s.powerOn t).memOk := by
  simp [State.powerOn, hs]

/-! ### Channels -/

@[simp] theorem State.absorbPeer_memOk (s : State) (g c h : Nat) : (s.absorbPeer g c h).memOk ↔ s.memOk := by
  unfold State.absorbPeer
  (repeat' split) <;> simp

@[simp] theorem State.freeHandle_memOk (s : State) (g c h : Nat) : (s.freeHandle g c h).memOk ↔ s.memOk := by
  simp [State.freeHandle]

@[simp] theorem State.settleClose_memOk (s : State) (p g c h : Nat) : (s.settleClose p g c h).memOk ↔ s.memOk := by
  unfold State.settleClose
  (repeat' split) <;> simp

@[simp] theorem State.modHandle_memOk (s : State) (g c h : Nat) (f : Handle → Handle) :
    (s.modHandle g c h f).memOk ↔ s.memOk := by
  refine s.modAtoll_memOk _ _ fun a => a.modCore_memOk _ _ fun k => ?_
  split <;> rfl

@[simp] theorem State.closeSend_memOk (s : State) (g c h : Nat) : (s.closeSend g c h).memOk ↔ s.memOk := by
  unfold State.closeSend
  (repeat' split) <;> simp

@[simp] theorem State.coreRet_memOk (s : State) (g c rd : Nat) (v : DWord) : (s.coreRet g c rd v).memOk ↔ s.memOk := by
  simp [State.coreRet]

@[simp] theorem State.trySend_memOk (s : State) (g c k : Nat) (words : List DWord) (tuple : Bool) (hs : s.memOk) :
    (s.trySend g c k words tuple).memOk := by
  unfold State.trySend
  split
  · rename_i x pt _ _
    split
    · trivial
    split
    · trivial
    rename_i r _
    extract_lets a q p base next v la len body rl slot data s1
    have hn : ∀ {t}, t.memOk → ∀ m w u, (next t m w u).memOk := fun ht m w u => by simp [next, ht]
    split
    · trivial
    split
    · trivial
    split
    · split
      · trivial
      split
      · trivial
      split
      · trivial
      split
      · trivial
      split
      · trivial
      split
      · trivial
      split
      · trivial
      · extract_lets data1 s2 s3
        have h2 : s2.memOk := by
          unfold s2
          split <;> simp [hs]
        exact hn (State.modAtoll_store_memOk h2 _ _ _ _) _ _ _
    · split
      · trivial
      · exact hn (State.modAtoll_keeps hs r (Atoll.store_memOk (Atoll.store_memOk (State.atoll_memOk hs r) _ _ _) _ _ _)) _ _ _
  · trivial

@[simp] theorem State.coreSend_memOk (s : State) (g c rd : Nat) (h : DWord) (words : List DWord) (tuple : Bool)
    (hs : s.memOk) : (s.coreSend g c rd h words tuple).memOk := by
  have hsend := s.trySend_memOk g c h.toNat words tuple hs
  unfold State.coreSend
  split
  next t e => simpa using hsend.sent e
  · split <;> simp [hs]
  · simp [hs]
  · simp [hs]

@[simp] theorem State.handled_memOk (s : State) (g c port : Nat) (hs : s.memOk) : (s.handled g c port).memOk := by
  have h1 : ∀ off tag hdr (f : ChPort → ChPort),
      (s.modAtoll g fun a => (a.store off tag hdr).modCore c fun x => x.modPort port f).memOk := fun off tag hdr f =>
    State.modAtoll_keeps hs g ((Atoll.modCore_memOk _ c (fun x => x.modPort port f) fun _ => rfl).2
      (Atoll.store_memOk (State.atoll_memOk hs g) off tag hdr))
  unfold State.handled
  dsimp only
  (repeat' split) <;> simp [hs, h1]

/-! ### Reads of memory and collectives -/

@[simp] theorem State.physRead_memOk (n : Nat) (s : State) (who : Option Nat) (i j : Nat) :
    (State.physRead n s who i j).1.memOk ↔ s.memOk := by
  induction n generalizing i j with
  | zero => rfl
  | succ k ih =>
    unfold State.physRead
    dsimp only
    (repeat' split) <;> simp [ih]

@[simp] theorem State.pread_memOk (s : State) (who : Option Nat) (addr n : Nat) :
    (s.pread who addr n).1.memOk ↔ s.memOk := by
  simp [State.pread]

@[simp] theorem State.readUnits_memOk (n : Nat) (s : State) (who : Option Nat) (i j : Nat) :
    (State.readUnits n s who i j).1.memOk ↔ s.memOk := by
  induction n generalizing s i j with
  | zero => rfl
  | succ k ih =>
    unfold State.readUnits
    dsimp only
    (repeat' split) <;> simp [ih]

@[simp] theorem State.readMem_memOk (s : State) (who : Option Nat) (a n : Nat) : (s.readMem who a n).1.memOk ↔ s.memOk := by
  simp [State.readMem]

@[simp] theorem Coll.apexWords_memOk (c : Coll) (s : State) (b n : Nat) : (c.apexWords s b n).1.memOk ↔ s.memOk := by
  unfold Coll.apexWords
  dsimp only
  (repeat' split) <;> simp

@[simp] theorem Coll.eRefs_memOk (c : Coll) (s : State) (x : Nat) : (c.eRefs s x).1.memOk ↔ s.memOk := by
  unfold Coll.eRefs
  (repeat' split) <;> simp

@[simp] theorem Coll.header_memOk (c : Coll) (s : State) : (c.header s).1.memOk ↔ s.memOk := by
  unfold Coll.header
  dsimp only
  (repeat' split) <;> simp

@[simp] theorem State.writeAll_memOk (ws : List (Nat × Nat × List Byte)) (s : State) (who : Option Nat) (hs : s.memOk) :
    (State.writeAll ws s who).1.memOk := by
  induction ws generalizing s with
  | nil => exact hs
  | cons w ws ih =>
    have h := s.pwrite_memOk who w.1 (BitVec.ofNat 5 w.2.1) w.2.2 hs
    unfold State.writeAll
    dsimp only
    split
    · exact h
    · exact ih _ h

@[simp] theorem Coll.unwire_memOk (c : Coll) (s : State) (f : Fmt) (base total scales b : Nat)
    (blocks : List (List Byte)) (hs : s.memOk) : (c.unwire s f base total scales b blocks).1.memOk := by
  simp [Coll.unwire, hs]

@[simp] theorem Coll.wire_memOk (c : Coll) (s : State) (gather : Bool) (f : Fmt) (base total scales b n : Nat) :
    (c.wire s gather f base total scales b n).1.memOk ↔ s.memOk := by
  unfold Coll.wire
  dsimp only
  (repeat' split) <;> simp

@[simp] theorem State.dropDma_memOk (s : State) (order : Nat) : (s.dropDma order).memOk ↔ s.memOk := Iff.rfl

@[simp] theorem State.ackOwner_memOk (s : State) (m : TxMsg) (status nbytes : Nat) :
    (s.ackOwner m status nbytes).memOk ↔ s.memOk := by
  unfold State.ackOwner
  (repeat' split) <;> simp

@[simp] theorem State.failColl_memOk (s : State) (k : CollKey) (st : Nat) : (s.failColl k st).memOk ↔ s.memOk := by
  simp [State.failColl]

@[simp] theorem State.arrive_memOk (s : State) (d : Nat) (link : Option Nat) (p : FPkt) :
    (s.arrive d link p).memOk ↔ s.memOk := Iff.rfl

@[simp] theorem State.inject_memOk (s : State) (m : TxMsg) (resent : Bool) : (s.inject m resent).memOk ↔ s.memOk := by
  simp [State.inject]

@[simp] theorem State.pumpTx_memOk (n : Nat) (s : State) : (State.pumpTx n s).memOk ↔ s.memOk := by
  induction n generalizing s with
  | zero => rfl
  | succ k ih =>
    unfold State.pumpTx
    dsimp only
    (repeat' split) <;> simp [ih]

@[simp] theorem State.sendMsgs_memOk (s : State) (ms : List TxMsg) : (s.sendMsgs ms).memOk ↔ s.memOk := by
  simp [State.sendMsgs]

@[simp] theorem State.askWindow_memOk (s : State) (k : CollKey) : (s.askWindow k).memOk ↔ s.memOk := by
  unfold State.askWindow
  split
  · rfl
  refine State.memOk_foldl _ _ _ (fun t o => ?_)
  split
  · rfl
  split
  · rfl
  refine State.memOk_foldl _ _ _ (fun u i => ?_)
  split
  · rfl
  dsimp only
  (repeat' split) <;> simp []

@[simp] theorem State.collDrop_memOk (s : State) (d : Nat) : (s.collDrop d).memOk ↔ s.memOk := Iff.rfl

@[simp] theorem State.remember_memOk (s : State) (m : FMsg) (status : Nat) : (s.remember m status).memOk ↔ s.memOk := Iff.rfl

@[simp] theorem State.ackMsg_memOk (s : State) (d : Nat) (m : FMsg) (status nbytes : Nat) :
    (s.ackMsg d m status nbytes).memOk ↔ s.memOk := by
  simp [State.ackMsg]

@[simp] theorem State.collPacket_memOk (s : State) (d kind : Nat) (ctrl : Option Nat)
    (go : State → Coll → CollHdr → List Byte → State × Bool) (h : ∀ t c x bs, (go t c x bs).1.memOk ↔ t.memOk) :
    (s.collPacket d kind ctrl go).memOk ↔ s.memOk := by
  unfold State.collPacket
  dsimp only
  (repeat' split) <;> simp [h]

@[simp] theorem State.gatherSend_memOk (s : State) (k : CollKey) : (s.gatherSend k).memOk ↔ s.memOk := by
  unfold State.gatherSend
  (repeat' split) <;> simp

@[simp] theorem State.readF32_memOk (s : State) (who : Option Nat) (a n : Nat) : (s.readF32 who a n).1.memOk ↔ s.memOk := by
  simp [State.readF32]

@[simp] theorem State.readF32s_memOk (rs : List (Nat × Nat)) (s : State) (who : Option Nat) :
    (State.readF32s rs s who).1.memOk ↔ s.memOk := by
  induction rs generalizing s with
  | nil => rfl
  | cons e r ih =>
    unfold State.readF32s
    dsimp only
    (repeat' split) <;> simp [ih]

@[simp] theorem State.runTile_memOk (s : State) (k : CollKey) (die i : Nat) (hs : s.memOk) : (s.runTile k die i).memOk := by
  unfold State.runTile
  split
  · exact hs
  rename_i c _
  split
  rename_i s1 st h e
  have h1 : s1.memOk := State.memOk_of_fst e ((c.header_memOk s).2 hs)
  split
  · rwa [State.failColl_memOk]
  split
  extract_lets who mp src dst n r z
  split
  rename_i s2 st2 ls e2
  have h2 : s2.memOk := State.memOk_of_fst e2 ((State.readF32s_memOk _ _ _).2 h1)
  split
  · rwa [State.failColl_memOk]
  extract_lets g x b skip y wf
  split
  rename_i s3 stw m old e3
  have h3 : s3.memOk := by
    split at e3
    · exact State.memOk_of_fst e3 ((s2.readMem_memOk _ _ _).2 h2)
    · cases e3
      exact h2
  split
  · rwa [State.failColl_memOk]
  extract_lets work ws
  split
  rename_i s4 st4 m4 e4
  have h4 : s4.memOk := State.memOk_of_fst e4 (State.writeAll_memOk _ _ _ h3)
  split
  · rwa [State.failColl_memOk]
  extract_lets s5
  rw [State.modColl_memOk]
  unfold s5
  split
  · rwa [State.modStrait_memOk]
  · exact h4

@[simp] theorem State.sendTile_memOk (s : State) (k : CollKey) (i : Nat) (hs : s.memOk) : (s.sendTile k i).memOk := by
  unfold State.sendTile
  split
  · exact hs
  rename_i c _
  split
  rename_i s1 st h e
  have h1 : s1.memOk := State.memOk_of_fst e ((c.header_memOk s).2 hs)
  split
  · rwa [State.failColl_memOk]
  split
  extract_lets mp set_ wf b0 parts
  refine State.foldl_keeps (fun u p hu => ?_) parts h1
  split
  rename_i u1 st1 ws e1
  have hu1 : u1.memOk := State.memOk_of_fst e1 ((c.wire_memOk u _ _ _ _ _ _ _).2 hu)
  split
  · rwa [State.failColl_memOk]
  split
  rename_i u2 st2 e2
  have hu2 : u2.memOk := State.memOk_of_fst e2 (c.unwire_memOk u1 _ _ _ _ _ _ hu1)
  split
  · rwa [State.failColl_memOk]
  · rwa [State.sendMsgs_memOk]

@[simp] theorem State.endUpdate_memOk (s : State) (k : CollKey) (hs : s.memOk) : (s.endUpdate k).memOk := by
  unfold State.endUpdate
  split
  · exact hs
  rename_i c _
  split
  rename_i s1 st h e
  have h1 : s1.memOk := State.memOk_of_fst e ((c.header_memOk s).2 hs)
  split
  · rwa [State.failColl_memOk]
  extract_lets who src dst
  split
  rename_i s2 st2 ps e2
  have h2 : s2.memOk := State.memOk_of_fst e2 ((s1.readF32_memOk _ _ _).2 h1)
  split
  · rwa [State.failColl_memOk]
  extract_lets b
  split
  rename_i s3 st3 n e3
  have h3 : s3.memOk := State.memOk_of_fst e3 (State.writeAll_memOk _ _ _ h2)
  split
  · rwa [State.failColl_memOk]
  · exact h3

@[simp] theorem State.runTiles_memOk (s : State) (k : CollKey) (hs : s.memOk) : (s.runTiles k).memOk := by
  unfold State.runTiles
  split
  · exact hs
  refine State.foldl_keeps (fun t i ht => ?_) _ hs
  split
  · exact ht
  rename_i c _
  split
  · exact ht
  extract_lets last t1 t2
  have h1 : t1.memOk := by
    unfold t1
    split <;> simp [ht]
  have h2 : t2.memOk := by
    unfold t2
    split <;> simp [h1]
  (repeat' split) <;> simp [h2]

@[simp] theorem State.ownChunk_memOk (s : State) (k : CollKey) (x : Nat) (hs : s.memOk) : (s.ownChunk k x).memOk := by
  unfold State.ownChunk
  split
  · exact hs
  rename_i c _
  extract_lets d n
  split
  · exact hs
  split
  rename_i s1 st refs e
  have h1 : s1.memOk := State.memOk_of_fst e ((c.eRefs_memOk s x).2 hs)
  split
  · rwa [State.failColl_memOk]
  extract_lets s2
  have h2 : s2.memOk := by
    unfold s2
    split <;> simp [h1]
  split
  · exact h2
  rename_i c2 _
  extract_lets own
  split
  rename_i s3 st3 wire e3
  have h3 : s3.memOk := by
    split at e3
    · exact State.memOk_of_fst e3 ((c2.wire_memOk s2 _ _ _ _ _ _ _).2 h2)
    · cases e3
      exact h2
  split
  · rwa [State.failColl_memOk]
  extract_lets c3 s4 full data
  have h4 : s4.memOk := by rwa [State.modColl_memOk]
  split
  · exact h4
  split
  rename_i s5 st5 hd e5
  have h5 : s5.memOk := State.memOk_of_fst e5 ((c3.header_memOk s4).2 h4)
  split
  · rwa [State.failColl_memOk]
  extract_lets addr
  refine State.biThen_keeps h5 _ (fun t ht => by rwa [State.failColl_memOk]) ?_
  split
  rename_i t1 st6 n6 e6
  have h6 : t1.memOk := State.memOk_of_fst e6 (s5.pwrite_memOk _ _ _ _ h5)
  split
  · rwa [State.failColl_memOk]
  extract_lets t2
  have h7 : t2.memOk := by rwa [State.modColl_memOk]
  split <;> rwa [State.sendMsgs_memOk]

@[simp] theorem State.pushColl_memOk (n : Nat) (s : State) (k : CollKey) (hs : s.memOk) : (State.pushColl n s k).memOk := by
  induction n generalizing s with
  | zero => exact hs
  | succ n ih =>
    unfold State.pushColl
    split
    · exact hs
    split
    · exact hs
    rename_i c _ _
    extract_lets s1
    have h1 : s1.memOk := by
      rw [State.askWindow_memOk]
      exact State.foldl_keeps (fun t a ht => t.ownChunk_memOk k a.1 ht) _ hs
    split
    · exact h1
    · exact ih s1 h1

@[simp] theorem State.push_memOk (s : State) (k : CollKey) (hs : s.memOk) : (s.push k).memOk := by
  simp [State.push, hs]

@[simp] theorem State.skewCheck_memOk (s : State) (k : CollKey) : (s.skewCheck k).memOk ↔ s.memOk := by
  unfold State.skewCheck
  split
  · rfl
  rename_i c _
  split
  · rfl
  split
  rename_i s1 st h e
  have h1 : s1.memOk ↔ s.memOk := by rw [← c.header_memOk s, e]
  split
  · rw [State.failColl_memOk, h1]
  extract_lets src
  split
  rename_i s2 st2 x bs e2
  have h2 : s2.memOk ↔ s.memOk := by rw [← h1, ← State.readMem_memOk s1 (some c.part) src 4, e2]
  split
  · rw [State.failColl_memOk, h2]
  extract_lets l
  split
  · exact h2
  · rw [State.modStrait_memOk, State.raise_memOk, State.modColl_memOk, h2]

@[simp] theorem State.collRow_memOk (s : State) (k : CollKey) (op : Nat) (hs : s.memOk) : (s.collRow k op).memOk := by
  unfold State.collRow
  dsimp only
  (repeat' split) <;> simp [hs]

@[simp] theorem State.gatherOwn_memOk (s : State) (k : CollKey) (hs : s.memOk) : (s.gatherOwn k).memOk := by
  unfold State.gatherOwn
  (repeat' split) <;> simp [hs]

@[simp] theorem State.settleMsg_memOk (s : State) (m : TxMsg) : (s.settleMsg m).memOk ↔ s.memOk := by
  simp [State.settleMsg]

/-! ### Scalar cores -/

@[simp] theorem State.coreFault_memOk (s : State) (g c : Nat) (store : Bool) (ad : DWord) (st : Nat) :
    (s.coreFault g c store ad st).memOk ↔ s.memOk := by
  simp [State.coreFault]

theorem State.atomicRead_memOk (s : State) (g c : Nat) (ad : DWord) (n : Nat) (store : Bool) (dec : Decoded) (hs : s.memOk) :
    (s.atomicRead g c ad n store dec).memOk := by
  unfold State.atomicRead
  split
  · exact hs
  · split
    · have hc := fun a b => s.cacheRead_memOk g a b hs
      split
      · exact (hc _ _).waits ‹_›
      · have h1 := (hc _ _).ends ‹_›
        split
        · exact h1
        · rwa [AtomicRead.memOk_done, State.coreFault_memOk]
    · split
      · rwa [AtomicRead.memOk_done, State.coreFault_memOk]
      · split
        rename_i t off _ _ s1 st d e
        have h1 : s1.memOk := State.memOk_of_fst e ((s.lagoonRead_memOk _ _ _ _ _).2 hs)
        split
        · exact h1
        · rwa [AtomicRead.memOk_done, State.coreFault_memOk]
  · rwa [AtomicRead.memOk_done, State.coreFault_memOk]

@[simp] theorem State.corePut_memOk (s : State) (g c rd len : Nat) (v : DWord) :
    (s.corePut g c rd len v).memOk ↔ s.memOk := by
  simp [State.corePut]

@[simp] theorem State.enqueueMem_memOk (s : State) (h u : Nat) (c : MemCmd) : (s.enqueueMem h u c).memOk ↔ s.memOk := by
  simp [State.enqueueMem]

@[simp] theorem State.postDma_memOk (s : State) (g core : Nat) (v : DWord) : (s.postDma g core v).memOk ↔ s.memOk := by
  unfold State.postDma
  (repeat' split) <;> simp

/-- A store to a core's own SRAM keeps it canonical. -/
theorem State.storeSram_keeps {s : State} (hs : s.memOk) (g c o n v len : Nat) :
    (s.modAtoll g fun a => a.modCore c fun k => { k with sram := Mem.writeNat k.sram o n v }.advance len).memOk := by
  have ha := State.atoll_memOk hs g
  refine State.modAtoll_keeps hs g (Atoll.modCore_keeps ha c ?_)
  exact Mem.writeNat_wf (Atoll.core_sram_wf ha c) _ _ _

@[simp] theorem State.coreStore_memOk (s : State) (g c : Nat) (ad : DWord) (n : Nat) (v : DWord) (len : Nat) (hs : s.memOk) :
    (s.coreStore g c ad n v len).memOk := by
  unfold State.coreStore
  split
  · exact State.storeSram_keeps hs g c _ _ _ _
  · simp [hs]
  · (repeat' split) <;> simp [hs]
  · simp [hs]

@[simp] theorem State.coreAtomic_memOk (s : State) (g c rd f5 n : Nat) (ad r2 : DWord) (dec : Decoded) (len : Nat)
    (hs : s.memOk) : (s.coreAtomic g c rd f5 n ad r2 dec len).memOk := by
  unfold State.coreAtomic
  split
  · simp [hs]
  · have h := s.atomicRead_memOk g c ad n (f5 != 2) dec hs
    split
    · exact h.done ‹_›
    · have h1 := h.ok ‹_›
      extract_lets resv ret
      have hresv : ∀ {u : State}, u.memOk → ∀ x, (resv u x).memOk := fun hu x => by simp [resv, hu]
      have hret : ∀ {u : State}, u.memOk → ∀ v, (ret u v).memOk := fun hu v => by simp [ret, hu]
      split
      · simp [hresv h1]
      split
      · split
        · simp [hret (hresv h1 _)]
        · simp [hresv h1]
      · simp [hret h1]

@[simp] theorem State.coreTrap_memOk (s : State) (g c cause : Nat) (tval : DWord) :
    (s.coreTrap g c cause tval).memOk ↔ s.memOk := by
  simp [State.coreTrap]

@[simp] theorem State.csrWrite_memOk (s : State) (g c num : Nat) (v : DWord) : (s.csrWrite g c num v).memOk ↔ s.memOk := by
  simp [State.csrWrite]

@[simp] theorem State.coreCsr_memOk (s : State) (g c rd rs1 f3 num len insn : Nat) :
    (s.coreCsr g c rd rs1 f3 num len insn).memOk ↔ s.memOk := by
  unfold State.coreCsr
  dsimp only
  (repeat' split) <;> simp

@[simp] theorem State.popDma_memOk (s : State) (g core rd : Nat) : (s.popDma g core rd).memOk ↔ s.memOk := by
  simp [State.popDma]

@[simp] theorem State.coreLoad_memOk (s : State) (g c rd : Nat) (ad : DWord) (n : Nat) (sgn : Bool) (dec : Decoded)
    (len : Nat) (hs : s.memOk) : (s.coreLoad g c rd ad n sgn dec len).memOk := by
  unfold State.coreLoad
  (repeat' split) <;> simp [hs]

@[simp] theorem State.coreExec_memOk (s : State) (g c i raw len : Nat) (dec : Decoded) (hs : s.memOk) :
    (s.coreExec g c i raw len dec).memOk := by
  unfold State.coreExec
  dsimp only
  (repeat' split) <;> simp [hs]

@[simp] theorem State.coreWait_memOk (s : State) (g c rd : Nat) (objs : List (DWord × Word)) (any : Bool) :
    (s.coreWait g c rd objs any).memOk ↔ s.memOk := by
  unfold State.coreWait
  (repeat' split) <;> simp

/-! ### Memory commands of the stream units -/

@[simp] theorem State.sramDecode_memOk (s : State) (g c addr : Nat) (d : Decoded) :
    (s.sramDecode g c addr d).memOk ↔ s.memOk := by
  unfold State.sramDecode
  (repeat' split) <;> simp

@[simp] theorem State.dramTaken_memOk (s : State) (a : Nat) (d : Decoded) (hs : s.memOk) : (s.dramTaken a d).memOk := by
  unfold State.dramTaken
  split
  · obtain ⟨h1, h2, h3⟩ := s.memOk_iff.1 hs
    exact (State.memOk_iff _).2 ⟨h1, Mem.writeBytes_wf h2 _ _, h3⟩
  · exact hs

@[simp] theorem State.linkEcc_memOk (s : State) (c : Nat) (d : Decoded) : (s.linkEcc c d).memOk ↔ s.memOk := by
  unfold State.linkEcc
  (repeat' split) <;> simp

@[simp] theorem State.dramDecode_memOk (s : State) (who : Option Nat) (a : Nat) (d : Decoded) (src : Nat)
    (op : Nat × Nat) (hs : s.memOk) : (s.dramDecode who a d src op).memOk := by
  unfold State.dramDecode
  dsimp only
  (repeat' split) <;> simp [hs]

@[simp] theorem State.stagingDecode_memOk (s : State) (h off : Nat) (d : Decoded) (src : Nat) (op : Nat × Nat) :
    (s.stagingDecode h off d src op).memOk ↔ s.memOk := by
  unfold State.stagingDecode
  (repeat' split) <;> simp

@[simp] theorem State.placeDecode_memOk (s : State) (who : Option Nat) (pl : Place) (d : Decoded) (src : Nat)
    (op : Nat × Nat) (hs : s.memOk) : (s.placeDecode who pl d src op).memOk := by
  unfold State.placeDecode
  (repeat' split) <;> simp [hs]

@[simp] theorem State.badWord_memOk (s : State) (who bad : Option Nat) (op : Nat × Nat) (hs : s.memOk) :
    (s.badWord who bad op).memOk := by
  unfold State.badWord
  (repeat' split) <;> simp [hs]

@[simp] theorem State.touchUnit_memOk (s : State) (u : Word) (p : Nat) : (s.touchUnit u p).memOk ↔ s.memOk := by
  unfold State.touchUnit
  (repeat' split) <;> simp

@[simp] theorem State.startRun_memOk (s : State) (h u x v : Nat) (r : MemRun) : (s.startRun h u x v r).memOk ↔ s.memOk := by
  simp [State.startRun]

@[simp] theorem State.memRow_memOk (s : State) (h u code : Nat) (bad : Option Nat)
    (go : State → MemCmd → State × MemRun) (hg : ∀ t c, (go t c).1.memOk ↔ t.memOk) (hs : s.memOk) :
    (s.memRow h u code bad go).memOk := by
  unfold State.memRow
  dsimp only
  (repeat' split) <;> simp [hs, hg]

@[simp] theorem State.memLocal_memOk (s : State) (h u code : Nat) (bad : Option Nat)
    (plan : State → MemCmd → State × Plan) (hp : ∀ t c, (plan t c).1.memOk ↔ t.memOk) (hs : s.memOk) :
    (s.memLocal h u code bad plan).memOk := by
  unfold State.memLocal
  dsimp only
  simp [hs, hp]

@[simp] theorem State.readRows_memOk (rs : List (Nat × Nat)) (s : State) (who : Option Nat) :
    (State.readRows rs s who).1.memOk ↔ s.memOk := by
  induction rs generalizing s with
  | nil => rfl
  | cons e r ih =>
    unfold State.readRows
    dsimp only
    (repeat' split) <;> simp [ih]

@[simp] theorem State.planCompress_memOk (s : State) (m : MemCmd) : (s.planCompress m).1.memOk ↔ s.memOk := by
  simp [State.planCompress]

@[simp] theorem State.planCopy_memOk (s : State) (c : MemCmd) : (s.planCopy c).1.memOk ↔ s.memOk := by
  simp [State.planCopy]

@[simp] theorem State.planDecompress_memOk (s : State) (m : MemCmd) : (s.planDecompress m).1.memOk ↔ s.memOk := by
  unfold State.planDecompress
  dsimp only
  (repeat' split) <;> simp

@[simp] theorem State.planFactor_memOk (s : State) (m : MemCmd) : (s.planFactor m).1.memOk ↔ s.memOk := by
  unfold State.planFactor
  dsimp only
  (repeat' split) <;> simp

@[simp] theorem State.readIndices_memOk (s : State) (who : Option Nat) (c : SuCmd) :
    (s.readIndices who c).1.memOk ↔ s.memOk := by
  simp [State.readIndices]

@[simp] theorem State.planMove_memOk (s : State) (m : MemCmd) : (s.planMove m).1.memOk ↔ s.memOk := by
  unfold State.planMove
  dsimp only
  (repeat' split) <;> simp

@[simp] theorem State.planReduce_memOk (s : State) (m : MemCmd) : (s.planReduce m).1.memOk ↔ s.memOk := by
  unfold State.planReduce
  dsimp only
  (repeat' split) <;> simp

@[simp] theorem State.setBanks_memOk (s : State) (bs : List Nat) (st : BankState) : (s.setBanks bs st).memOk ↔ s.memOk := by
  simp [State.setBanks]

@[simp] theorem State.writeAccepted_memOk (s : State) (bs : List Nat) (ws : List (Nat × Nat × List Byte))
    (who : Option Nat) (hs : s.memOk) : (s.writeAccepted bs ws who).1.memOk := by
  simp [State.writeAccepted, hs]

/-! ### Mailbox answers, dumps and resets of atolls -/

@[simp] theorem State.mbFin_memOk (s : State) (m : Nat) (c : MbCmd) (st off : Nat) (final frees : Bool) (result : Nat)
    (data : List Byte) : (s.mbFin m c st off final frees result data).memOk ↔ s.memOk := by
  simp [State.mbFin]

@[simp] theorem State.mbEnd_memOk (s : State) (m : Nat) (c : MbCmd) (st off result : Nat) (data : List Byte) :
    (s.mbEnd m c st off result data).memOk ↔ s.memOk := by
  simp [State.mbEnd]

@[simp] theorem State.endDump_memOk (s : State) (d : Dump) : (s.endDump d).memOk ↔ s.memOk := by
  unfold State.endDump
  (repeat' split) <;> simp

@[simp] theorem State.dumpStep_memOk (s : State) (d : Dump) : (s.dumpStep d).memOk ↔ s.memOk := by
  unfold State.dumpStep
  (repeat' split) <;> simp

@[simp] theorem State.startDump_memOk (s : State) (cause : Nat) (seq : Word) :
    (s.startDump cause seq).memOk ↔ s.memOk := Iff.rfl

@[simp] theorem State.flushAtoll_memOk (s : State) (g : Nat) (hs : s.memOk) : (s.flushAtoll g).memOk := by
  refine State.releaseAround_memOk _ g ((s.modAtoll_memOk g _ fun a => ?_).2 hs)
  simp

@[simp] theorem State.abortAtoll_memOk (s : State) (g : Nat) (hs : s.memOk) : (s.abortAtoll g).memOk := by
  have h1 : (((s.flushAtoll g).dropWaits g 0).dropWaits g 1).memOk := by simp [hs]
  unfold State.abortAtoll
  dsimp only
  refine State.modAtoll_keeps h1 g (Atoll.restartCores_memOk ?_ false)
  simp [State.atoll_memOk h1 g]

@[simp] theorem State.endBatches_memOk (s : State) (g : Nat) : (s.endBatches g).memOk ↔ s.memOk := by
  unfold State.endBatches
  (repeat' split) <;> simp

@[simp] theorem State.closeSendEnd_memOk (s : State) (p : Nat) (x : Handle) : (s.closeSendEnd p x).memOk ↔ s.memOk := by
  unfold State.closeSendEnd
  (repeat' split) <;> simp

@[simp] theorem State.killSender_memOk (s : State) (p : Nat) (x : Handle) : (s.killSender p x).memOk ↔ s.memOk := by
  unfold State.killSender
  (repeat' split) <;> simp

@[simp] theorem State.resetEndpoint_memOk (s : State) (g c : Nat) : (s.resetEndpoint g c).memOk ↔ s.memOk := by
  unfold State.resetEndpoint
  (repeat' split) <;> simp

@[simp] theorem State.beginAtollReset_memOk (s : State) (g : Nat) (hs : s.memOk) : (s.beginAtollReset g).memOk := by
  simp [State.beginAtollReset, hs]

@[simp] theorem State.leaveLane_memOk (s : State) (g i : Nat) : (s.leaveLane g i).memOk ↔ s.memOk := by
  unfold State.leaveLane
  (repeat' split) <;> simp

@[simp] theorem State.clearLanes_memOk (s : State) (g : Nat) : (s.clearLanes g).memOk ↔ s.memOk := by
  simp [State.clearLanes]

@[simp] theorem State.dropMem_memOk (s : State) (f : MemCmd → Bool) : (s.dropMem f).memOk ↔ s.memOk := by
  simp [State.dropMem]

@[simp] theorem State.endAtollReset_memOk (s : State) (g : Nat) (hs : s.memOk) : (s.endAtollReset g).memOk := by
  have h1 : ((s.dropMem (MemCmd.ofPort g)).clearLanes g).memOk := by simp [hs]
  obtain ⟨hl, -, hc⟩ := State.atoll_memOk h1 g
  unfold State.endAtollReset
  dsimp only
  refine State.modAtoll_keeps h1 g (Atoll.restartCores_memOk ?_ true)
  rw [Atoll.memOk_mk, Atoll.unconfigure_lagoon, Atoll.unconfigure_cores]
  exact ⟨hl, List.forall_mem_nil _, hc⟩

@[simp] theorem State.releaseAtoll_memOk (s : State) (g : Nat) : (s.releaseAtoll g).memOk ↔ s.memOk := by
  simp [State.releaseAtoll]

@[simp] theorem State.remapPart_memOk (s : State) (p : Nat) : (s.remapPart p).memOk ↔ s.memOk := by
  unfold State.remapPart
  (repeat' split) <;> simp

@[simp] theorem State.resetCore_memOk (s : State) (g c : Nat) (hs : s.memOk) : (s.resetCore g c).memOk := by
  have h1 : ((s.resetEndpoint g c).dropWaits g c).memOk := by simp [hs]
  have h2 := State.atoll_memOk h1 g
  exact State.modAtoll_keeps h1 g (Atoll.modCore_keeps h2 c (f := fun k => k.restart true)
    (Core.restart_sram_wf _ true (Atoll.core_sram_wf h2 c)))

@[simp] theorem State.resetCores_memOk (s : State) (g : Nat) (hs : s.memOk) : (s.resetCores g).memOk := by
  simp [State.resetCores, hs]

@[simp] theorem State.setSplit_memOk (s : State) (p : Nat) (split : Bool) (hs : s.memOk) : (s.setSplit p split).memOk := by
  unfold State.setSplit
  split
  · exact hs
  split
  · exact hs
  refine State.foldl_keeps (fun t e ht => ?_) _ ((s.modPart_memOk _ _).2 hs)
  exact Iff.mpr (State.modAtoll_memOk _ _ _ fun _ => Iff.rfl) (t.resetCores_memOk e.2 ht)

@[simp] theorem State.takeAtoll_memOk (s : State) (g p : Nat) (split : Bool) (epoch : BitVec 4) (hs : s.memOk) :
    (s.takeAtoll g p split epoch).memOk := by
  unfold State.takeAtoll
  dsimp only
  refine State.modAtoll_keeps hs g (Atoll.restartCores_memOk ?_ true)
  rw [Atoll.memOk_mk]
  exact State.atoll_memOk hs g

@[simp] theorem State.zeroAtoll_memOk (s : State) (g : Nat) (hs : s.memOk) : (s.zeroAtoll g).memOk := by
  obtain ⟨-, hc, hk⟩ := State.atoll_memOk hs g
  exact State.modAtoll_keeps hs g ⟨Memory.wf_nil, hc, hk⟩

/-! ### Links and messages -/

@[simp] theorem State.replayLink_memOk (s : State) (l : Nat) : (s.replayLink l).memOk ↔ s.memOk := Iff.rfl

@[simp] theorem State.emitPacket_memOk (s : State) (l : Nat) (p : OutPkt) : (s.emitPacket l p).memOk ↔ s.memOk := by
  simp [State.emitPacket]

@[simp] theorem State.pumpLink_memOk (n : Nat) (s : State) (i : Nat) : (State.pumpLink n s i).memOk ↔ s.memOk := by
  induction n generalizing s with
  | zero => rfl
  | succ k ih =>
    unfold State.pumpLink
    dsimp only
    (repeat' split) <;> simp [ih]

@[simp] theorem State.flushLink_memOk (s : State) (l : Nat) : (s.flushLink l).memOk ↔ s.memOk := by
  simp [State.flushLink]

@[simp] theorem State.sendFill_memOk (s : State) (l : Nat) : (s.sendFill l).memOk ↔ s.memOk := by
  simp [State.sendFill]

@[simp] theorem State.acceptCodeword_memOk (s : State) (l : Nat) (cw : Codeword) :
    (s.acceptCodeword l cw).memOk ↔ s.memOk := by
  simp [State.acceptCodeword]

@[simp] theorem State.badPacket_memOk (s : State) (d : Nat) : (s.badPacket d).memOk ↔ s.memOk := Iff.rfl

@[simp] theorem State.countFec_memOk (s : State) (l : Nat) : (s.countFec l).memOk ↔ s.memOk := by
  simp [State.countFec]

@[simp] theorem State.countRetry_memOk (s : State) (l lane : Nat) : (s.countRetry l lane).memOk ↔ s.memOk := by
  simp [State.countRetry]

@[simp] theorem State.deliverMsg_memOk (s : State) (d : Nat) (m : FMsg) (sync : Bool) :
    (s.deliverMsg d m sync).memOk ↔ s.memOk := by
  unfold State.deliverMsg
  dsimp only
  (repeat' split) <;> simp

@[simp] theorem State.putLink_memOk (s : State) (src : Option Nat) (l : Nat) (p : FPkt) :
    (s.putLink src l p).memOk ↔ s.memOk := by
  simp [State.putLink]

@[simp] theorem State.remoteWrite_memOk (s : State) (c : MemCmd) : (s.remoteWrite c).1.memOk ↔ s.memOk := by
  unfold State.remoteWrite
  (repeat' split) <;> simp

@[simp] theorem State.takeLocal_memOk (s : State) (d : Nat) (p : FPkt) : (s.takeLocal d p).memOk ↔ s.memOk := by
  simp [State.takeLocal]

@[simp] theorem State.replicate_memOk (s : State) (d : Nat) (src : Option Nat) (p : FPkt) :
    (s.replicate d src p).memOk ↔ s.memOk := by
  simp [State.replicate]

@[simp] theorem State.retrain_memOk (s : State) (l mask lane : Nat) : (s.retrain l mask lane).memOk ↔ s.memOk := by
  simp [State.retrain]

@[simp] theorem State.routePacket_memOk (s : State) (d : Nat) (src : Option Nat) (p : FPkt) :
    (s.routePacket d src p).memOk ↔ s.memOk := by
  unfold State.routePacket
  dsimp only
  (repeat' split) <;> simp

@[simp] theorem State.sendSignal_memOk (s : State) (p dest obj inc : Nat) :
    (s.sendSignal p dest obj inc).memOk ↔ s.memOk := by
  simp [State.sendSignal]

/-! ### Firmware stores and the host -/

@[simp] theorem FwHub.setSlot_memOk {x : FwHub} (hx : x.memOk) (n : Nat) {v : FwSlot} (hv : Memory.wf v.mem) :
    (x.setSlot n v).memOk := by
  obtain ⟨h0, h1⟩ := hx
  unfold FwHub.setSlot
  split
  · exact ⟨hv, h1⟩
  · exact ⟨h0, hv⟩

theorem FwHub.slot_wf {x : FwHub} (hx : x.memOk) (n : Nat) : Memory.wf (x.slot n).mem := by
  obtain ⟨h0, h1⟩ := hx
  unfold FwHub.slot
  split
  · exact h0
  · exact h1

/-- Rewriting one slot of several hubs keeps them canonical where the slot's new bytes are. -/
theorem State.setSlots_keeps {α : Type} {s : State} (hs : s.memOk) (hubs : List α) (hub : α → Nat)
    (v : α → FwHub → FwSlot) (hv : ∀ e x, x.memOk → Memory.wf (v e x).mem) :
    (hubs.foldl (fun t e => t.modFwHub (hub e) fun x => x.setSlot x.idle (v e x)) s).memOk :=
  State.foldl_keeps (fun t e ht => by
    have hx := State.fwHub_memOk ht (hub e)
    exact State.modFwHub_keeps ht _ (FwHub.setSlot_memOk hx _ (hv e _ hx))) hubs hs

@[simp] theorem State.closeStage_memOk (s : State) (n : Nat) (hs : s.memOk) : (s.closeStage n).1.memOk := by
  have ht : (s.modFw fun w => { w with session := none }).memOk := by simp [hs]
  unfold State.closeStage
  extract_lets t rs
  split
  · exact ht
  · split
    · exact ht
    · rename_i i _ _ _
      refine Iff.mpr (State.modFw_memOk _ _ fun _ => rfl) ?_
      exact State.setSlots_keeps ht rs Prod.fst (fun e x => { (x.slot x.idle) with info := some i })
        fun e x hx => FwHub.slot_wf hx _
  · exact ht

@[simp] theorem State.finishActivation_memOk (s : State) (a : Activation) : (s.finishActivation a).memOk ↔ s.memOk := by
  unfold State.finishActivation
  dsimp only
  (repeat' split) <;> simp

@[simp] theorem State.nameStaged_memOk (s : State) : s.nameStaged.memOk ↔ s.memOk := by
  refine State.memOk_foldl _ _ _ fun t h => t.modFwHub_memOk h _ fun x => ?_
  split <;> rfl

@[simp] theorem State.nextDie_memOk (s : State) (a : Activation) : (s.nextDie a).memOk ↔ s.memOk := by
  simp [State.nextDie]

@[simp] theorem State.openStage_memOk (s : State) (pldm : Bool) (hs : s.memOk) : (s.openStage pldm).memOk := by
  unfold State.openStage
  refine Iff.mpr (State.modFw_memOk _ _ fun _ => rfl) ?_
  exact State.setSlots_keeps hs _ id (fun _ _ => { mem := [], info := none }) fun _ _ _ => Memory.wf_nil

@[simp] theorem State.putStage_memOk (s : State) (off : Nat) (data : List Byte) (hs : s.memOk) :
    (s.putStage off data).memOk := by
  unfold State.putStage
  refine Iff.mpr (State.modFw_memOk _ _ fun _ => rfl) ?_
  exact State.setSlots_keeps hs _ id (fun _ x => { mem := Mem.writeBytes (x.slot x.idle).mem off data, info := none })
    fun _ x hx => Mem.writeBytes_wf (FwHub.slot_wf hx _) _ _

@[simp] theorem State.restartHub_memOk (s : State) (h : Nat) (i : FwInfo) : (s.restartHub h i).memOk ↔ s.memOk := by
  exact s.modFwHub_memOk h _ fun _ => Iff.rfl

@[simp] theorem State.answerRead_memOk (s : State) (line : Nat) : (s.answerRead line).memOk ↔ s.memOk := Iff.rfl

@[simp] theorem State.hostRead_memOk (s : State) (line : Nat) (use : HostCacheUse) (dec : Decoded) (hs : s.memOk) :
    (s.hostRead line use dec).memOk := by
  unfold State.hostRead
  dsimp only
  (repeat' split) <;> simp [hs]

@[simp] theorem State.sendPending_memOk (s : State) : s.sendPending.memOk ↔ s.memOk := by
  simp [State.sendPending]

@[simp] theorem State.noteChange_memOk (s old : State) : (s.noteChange old).memOk ↔ s.memOk := by
  simp [State.noteChange]

@[simp] theorem State.paramEffect_memOk (s : State) (n : Nat) (hs : s.memOk) : (s.paramEffect n).memOk := by
  simp [State.paramEffect, hs]

@[simp] theorem State.setLinkConfig_memOk (s : State) (l v : Nat) : (s.setLinkConfig l v).memOk ↔ s.memOk := by
  simp [State.setLinkConfig]

@[simp] theorem State.enterFlood_memOk (s : State) (origin : Nat) (boot : Word) (number : Half) :
    (s.enterFlood origin boot number).memOk ↔ s.memOk := by
  simp [State.enterFlood]

@[simp] theorem State.fenceHub_memOk (s : State) (h : Nat) (cls : Half) (seq : Word) :
    (s.fenceHub h cls seq).memOk ↔ s.memOk := by
  simp [State.fenceHub]

@[simp] theorem State.beginPartReset_memOk (s : State) (p : Nat) (abort : Bool) (hs : s.memOk) :
    (s.beginPartReset p abort).memOk := by
  unfold State.beginPartReset
  split
  · exact hs
  split
  · simp [hs]
  · extract_lets s1 s2
    refine State.foldl_keeps (fun t e ht => ?_) _ ?_
    · refine State.beginAtollReset_memOk _ _ ?_
      exact Iff.mpr (State.modAtoll_memOk _ _ _ fun _ => Iff.rfl) ht
    · have h2 : s2.memOk := by simp [s2, s1, hs]
      simp [h2]

@[simp] theorem State.jobAbort_memOk (s : State) (p : Nat) (hs : s.memOk) : (s.jobAbort p).memOk := by
  unfold State.jobAbort
  (repeat' split) <;> simp [hs]

@[simp] theorem State.sendFlood_memOk (s : State) (but : Option Nat) (ps : List FPkt) :
    (s.sendFlood but ps).memOk ↔ s.memOk := by
  simp [State.sendFlood]

@[simp] theorem State.standbyFails_memOk (s : State) : s.standbyFails.memOk ↔ s.memOk := by
  unfold State.standbyFails
  (repeat' split) <;> simp

@[simp] theorem State.swapHub_memOk (s : State) (h : Nat) : (s.swapHub h).memOk ↔ s.memOk := Iff.rfl

@[simp] theorem State.takeFlood_memOk (s : State) (x l : Nat) (p : FPkt) (hs : s.memOk) : (s.takeFlood x l p).memOk := by
  unfold State.takeFlood
  extract_lets r tag origin number boot reason s1
  split
  · simp [hs]
  split
  · exact hs
  split
  · exact hs
  have h1 : s1.memOk := by simp [s1, hs]
  split
  · exact State.foldl_keeps (fun t q ht => t.jobAbort_memOk q ht) _ h1
  · exact h1

@[simp] theorem State.timeoutCommands_memOk (s : State) : s.timeoutCommands.memOk ↔ s.memOk := by
  simp [State.timeoutCommands]

@[simp] theorem State.mctp_memOk (s : State) (type : Byte) (data : List Byte) : (s.mctp type data).memOk ↔ s.memOk := Iff.rfl

@[simp] theorem State.pldm_memOk (s : State) (type cmd cc : Nat) (data : List Byte) :
    (s.pldm type cmd cc data).memOk ↔ s.memOk := Iff.rfl

@[simp] theorem State.pldmVerify_memOk (s : State) (hs : s.memOk) : s.pldmVerify.memOk := by
  unfold State.pldmVerify
  split
  · simpa using hs
  split
  next e => simpa using State.memOk_of_fst e (s.closeStage_memOk _ hs)
  next e => simpa using State.memOk_of_fst e (s.closeStage_memOk _ hs)

@[simp] theorem State.tap_memOk (s : State) (width : Nat) (v : BitVec 128) : (s.tap width v).memOk ↔ s.memOk := Iff.rfl

@[simp] theorem State.tapIr_memOk (s : State) (ir : Byte) : (s.tapIr ir).memOk ↔ s.memOk := Iff.rfl

@[simp] theorem State.msix_memOk (s : State) (v : Nat) : (s.msix v).memOk ↔ s.memOk := by
  simp [State.msix]

@[simp] theorem State.eventTo_memOk (s : State) (e : Event) (m : Nat) : (s.eventTo e m).memOk ↔ s.memOk := by
  simp [State.eventTo]

@[simp] theorem State.queuePldm_memOk (s : State) (cls : Nat) (data : List Byte) (status : Bool) :
    (s.queuePldm cls data status).memOk ↔ s.memOk := Iff.rfl

@[simp] theorem State.deliverEvent_memOk (s : State) (e : Event) : (s.deliverEvent e).memOk ↔ s.memOk := by
  simp [State.deliverEvent]

/-! ### Long mailbox commands, windows and partitions -/

@[simp] theorem State.mbLong_memOk (s : State) (m : Nat) (c : MbCmd) (go : State → MbCmd → State)
    (h : ∀ t d, (go t d).memOk ↔ t.memOk) : (s.mbLong m c go).memOk ↔ s.memOk := by
  unfold State.mbLong
  dsimp only
  (repeat' split) <;> simp [h]

@[simp] theorem State.mbStart_memOk (s : State) (m slot : Nat) (r : BitVec 2048) : (s.mbStart m slot r).memOk ↔ s.memOk := by
  unfold State.mbStart
  (repeat' split) <;> simp

@[simp] theorem State.endBankPower_memOk (s : State) (h b : Nat) (on : Bool) (code : Nat) :
    (s.endBankPower h b on code).memOk ↔ s.memOk := by
  simp [State.endBankPower]

@[simp] theorem State.bankOff_memOk (s : State) (k b : Nat) (hs : s.memOk) : (s.bankOff k b).memOk := by
  unfold State.bankOff
  rw [State.endBankPower_memOk]
  exact State.modShoal_keeps hs k (Mem.clear_wf (State.staging_wf hs k) _ _)

@[simp] theorem State.modWindow_memOk (s : State) (w : Nat) (f : Window → Window) :
    (s.modWindow w f).memOk ↔ s.memOk := Iff.rfl

@[simp] theorem State.closeWindow_memOk (s : State) (w : Nat) (keep : Bool) :
    (s.closeWindow w keep).memOk ↔ s.memOk := Iff.rfl

@[simp] theorem State.endRetire_memOk (s : State) (c st : Nat) : (s.endRetire c st).memOk ↔ s.memOk := by
  simp [State.endRetire]

@[simp] theorem State.mapRuns_memOk (s : State) (f : MemRun → MemRun) : (s.mapRuns f).memOk ↔ s.memOk := by
  simp [State.mapRuns]

@[simp] theorem State.scrubWord_memOk (s : State) (w : SramWord) (dec : Decoded) : (s.scrubWord w dec).memOk ↔ s.memOk := by
  unfold State.scrubWord
  (repeat' split) <;> simp

@[simp] theorem State.causeDeliver_memOk (s : State) (n : Nat) (m : CMsg) : (s.causeDeliver n m).memOk ↔ s.memOk := Iff.rfl

@[simp] theorem State.causeSend_memOk (s : State) (n : Nat) (m : CMsg) : (s.causeSend n m).memOk ↔ s.memOk := by
  unfold State.causeSend
  dsimp only
  (repeat' split) <;> simp

@[simp] theorem State.countLink_memOk (s : State) (l : OnDieLink) (retrain : Bool) :
    (s.countLink l retrain).memOk ↔ s.memOk := by
  simp [State.countLink]

@[simp] theorem State.onDieRecord_memOk (s : State) (l : OnDieLink) (cls : Half) (scope actions : Nat) :
    (s.onDieRecord l cls scope actions).memOk ↔ s.memOk := Iff.rfl

@[simp] theorem State.retryLink_memOk (s : State) (l : OnDieLink) : (s.retryLink l).memOk ↔ s.memOk := by
  simp [State.retryLink]

@[simp] theorem State.setMeshStep_memOk (s : State) (d half : Nat) (step : BitVec 4) :
    (s.setMeshStep d half step).memOk ↔ s.memOk := by
  simp [State.setMeshStep]

@[simp] theorem State.writeDirectory_memOk (s : State) (m : Nat) (c : MbCmd) (p : Nat) (bad : Option Nat) (hs : s.memOk) :
    (s.writeDirectory m c p bad).memOk := by
  unfold State.writeDirectory
  extract_lets r first n es foreign inCat taken store src len
  have hstore : ∀ t : State, t.memOk → (store t).memOk := fun t ht => by simp [store, ht]
  clear_value es
  split
  · simp [hs]
  split
  · split
    · extract_lets len
      split
      · simp [hs]
      · refine State.biThen_keeps hs _ (fun t ht => by rwa [State.mbEnd_memOk]) ?_
        split
        rename_i t1 st n1 bs e
        have h1 : t1.memOk := State.memOk_of_fst e ((State.readMem_memOk _ _ _ _).2 (s.badWord_memOk _ _ _ hs))
        split
        · rwa [State.mbEnd_memOk]
        · exact hstore _ (t1.pwrite_memOk _ _ _ _ h1)
    · exact hstore s hs
  · exact hstore s hs

@[simp] theorem State.writeRecordCmd_memOk (s : State) (m : Nat) (c : MbCmd) (p : Nat) :
    (s.writeRecordCmd m c p).memOk ↔ s.memOk := by
  simp [State.writeRecordCmd]

@[simp] theorem State.writeList_memOk (s : State) (m : Nat) (c : MbCmd) (p : Nat) : (s.writeList m c p).memOk ↔ s.memOk := by
  simp [State.writeList]

@[simp] theorem State.catWrite_memOk (s : State) (m : Nat) (c : MbCmd) (p : Nat) (bad : Option Nat) (hs : s.memOk) :
    (s.catWrite m c p bad).memOk := by
  simp [State.catWrite, hs]

theorem State.hostPut_memOk {s t : State} (a : Nat) (data : List Byte) (h : s.hostPut a data = some t) (hs : s.memOk) :
    t.memOk := by
  obtain ⟨h1, h2, h3, h4, h5⟩ := s.memOk_iff.1 hs
  unfold State.hostPut at h
  split at h <;> cases h
  exact (State.memOk_iff _).2 ⟨h1, h2, h3, Mem.writeBytes_wf h4 _ _, h5⟩

@[simp] theorem State.putStatus_memOk (s : State) (p st : Nat) (hs : s.memOk) : (s.putStatus p st).memOk := by
  unfold State.putStatus
  split
  · exact hs
  dsimp only
  split
  · split
    next t e => simpa using State.hostPut_memOk _ _ e hs
    · exact hs
  · exact State.biThen_keeps hs _ (fun t ht => (State.modPart_memOk _ _ _).2 ht)
      ((State.modPart_memOk _ _ _).2 (State.pwrite_memOk _ _ _ _ _ hs))

@[simp] theorem State.zeroBanks_memOk (s : State) (banks : BitVec 256) (hs : s.memOk) : (s.zeroBanks banks).memOk := by
  refine State.foldl_keeps (fun t i ht => ?_) _ hs
  split
  · exact State.modShoal_keeps ht _ (Mem.clear_wf (State.staging_wf ht _) _ _)
  · exact ht

@[simp] theorem State.dropEntries_memOk (s : State) (f : BitVec 128 → Bool) : (s.dropEntries f).memOk ↔ s.memOk := Iff.rfl

@[simp] theorem State.destroyPart_memOk (s : State) (p : Nat) (hs : s.memOk) : (s.destroyPart p).memOk := by
  unfold State.destroyPart
  split
  · exact hs
  extract_lets open_ s1 s2 mine s3 s4
  have h1 : s1.memOk := State.foldl_keeps (fun t st ht => by simp [ht]) _ hs
  have h2 : s2.memOk := State.foldl_keeps (fun t e ht => by simp [ht]) _ h1
  have h3 : s3.memOk := Iff.mpr (State.modMem_memOk _ _ (fun _ => rfl) fun _ => rfl) (s2.zeroBanks_memOk _ h2)
  have h4 : s4.memOk := by rwa [State.dropEntries_memOk]
  simpa using h4

@[simp] theorem State.dropColls_memOk (s : State) (p : Nat) (tag : Word) : (s.dropColls p tag).memOk ↔ s.memOk := by
  simp [State.dropColls]

@[simp] theorem State.endPartReset_memOk (s : State) (p : Nat) : (s.endPartReset p).memOk ↔ s.memOk := by
  unfold State.endPartReset
  (repeat' split) <;> simp

@[simp] theorem State.freeWaiter_memOk (s : State) (w : WaitEntry) : (s.freeWaiter w).memOk ↔ s.memOk := by
  unfold State.freeWaiter
  (repeat' split) <;> simp

@[simp] theorem State.sendHome_memOk (s : State) (p : Nat) : (s.sendHome p).memOk ↔ s.memOk := by
  unfold State.sendHome
  (repeat' split) <;> simp

@[simp] theorem State.settleStreamCloses_memOk (s : State) (m : Nat) : (s.settleStreamCloses m).memOk ↔ s.memOk := by
  refine State.memOk_foldl _ _ _ fun t c => ?_
  dsimp only
  (repeat' split) <;> simp

@[simp] theorem State.clearTouch_memOk (s : State) (g : Nat) : (s.clearTouch g).memOk ↔ s.memOk := by
  unfold State.clearTouch
  (repeat' split) <;> simp

@[simp] theorem State.dropBankOps_memOk (s : State) (g : Nat) : (s.dropBankOps g).memOk ↔ s.memOk := by
  unfold State.dropBankOps
  extract_lets ops s1
  rw [State.escalateAtoll_memOk, State.memOk_foldl _ _ _ fun t o => ?_]
  · exact s.modAtoll_memOk g _ fun _ => Iff.rfl
  · extract_lets b w
    split
    · split <;> simp
    · simp

@[simp] theorem State.emptyCaches_memOk (s : State) (g : Nat) (hs : s.memOk) : (s.emptyCaches g).memOk := by
  have h1 := State.foldl_keeps (fun t b ht => State.flushBay_memOk t g b ht)
    ((List.range 24).filter fun b => (s.atoll g).bayCache.getLsbD b) hs
  obtain ⟨hl, -, hk⟩ := State.atoll_memOk h1 g
  exact State.modAtoll_keeps h1 g ⟨hl, List.forall_mem_nil _, hk⟩

/-! ### Patrol, placement and rollback -/

@[simp] theorem State.patrolPass_memOk (s : State) (u : Word) (test : Nat) : (s.patrolPass u test).memOk ↔ s.memOk := by
  unfold State.patrolPass
  (repeat' split) <;> simp

@[simp] theorem State.suspect_memOk (s : State) (u : Word) (full : Bool) (seq : Word) :
    (s.suspect u full seq).memOk ↔ s.memOk := by
  simp [State.suspect]

@[simp] theorem State.patrolFail_memOk (s : State) (u : Word) (test word expected observed : Nat) (full : Bool)
    (hs : s.memOk) : (s.patrolFail u test word expected observed full).memOk := by
  simp [State.patrolFail, hs]

@[simp] theorem State.microtest_memOk (s : State) (u : Word) (test : Nat) (r : PatrolResult) (hs : s.memOk) :
    (s.microtest u test r).memOk := by
  unfold State.microtest
  (repeat' split) <;> simp [hs]

@[simp] theorem State.ageingMargin_memOk (s : State) (key : Nat) : (s.ageingMargin key).memOk ↔ s.memOk := by
  simp [State.ageingMargin]

@[simp] theorem State.replan_memOk (s : State) (key : Nat) : (s.replan key).memOk ↔ s.memOk := by
  unfold State.replan
  (repeat' split) <;> simp

@[simp] theorem State.patrolMargin_memOk (s : State) (g : Nat) (raised : PatrolResult) :
    (s.patrolMargin g raised).memOk ↔ s.memOk := by
  simp [State.patrolMargin]

@[simp] theorem State.startSuite_memOk (s : State) (g : Nat) : (s.startSuite g).memOk ↔ s.memOk := by
  simp [State.startSuite]

@[simp] theorem State.suiteReturn_memOk (s : State) (g : Nat) : (s.suiteReturn g).memOk ↔ s.memOk := by
  unfold State.suiteReturn
  dsimp only
  (repeat' split) <;> simp

@[simp] theorem State.dropSuite_memOk (s : State) (g : Nat) : (s.dropSuite g).memOk ↔ s.memOk := by
  simp [State.dropSuite]

@[simp] theorem State.movePosition_memOk (s : State) (p pos k : Nat) (hs : s.memOk) : (s.movePosition p pos k).memOk := by
  unfold State.movePosition
  split
  · exact hs
  · rename_i g _
    have h1 : ((s.dropSuite k).setAtoll k ((s.atoll g).movedTo (s.atoll k))).memOk := by simp [hs]
    have h2 : ∀ a : Atoll, a.memOk → (((s.dropSuite k).setAtoll k ((s.atoll g).movedTo (s.atoll k))).setAtoll g a).memOk :=
      fun a ha => State.setAtoll_memOk h1 g ha
    simp [h2]

@[simp] theorem State.putPosition_memOk (s : State) (p pos g : Nat) (hs : s.memOk) : (s.putPosition p pos g).memOk := by
  unfold State.putPosition
  (repeat' split) <;> simp [hs]

@[simp] theorem State.placeRange_memOk (s : State) (p lo hi : Nat) (hs : s.memOk) : (s.placeRange p lo hi).memOk := by
  unfold State.placeRange
  split
  · exact hs
  extract_lets poss s1 s2
  have h1 : s1.memOk := State.foldl_keeps (fun t q ht => by dsimp only; split <;> simp [ht]) _ hs
  have h2 : s2.memOk := by
    refine State.foldl_keeps (fun t q ht => ?_) _ h1
    (repeat' split) <;> simp [ht]
  rwa [State.remapPart_memOk]

@[simp] theorem State.removePosition_memOk (s : State) (p pos : Nat) (hs : s.memOk) : (s.removePosition p pos).memOk := by
  unfold State.removePosition
  split
  · exact hs
  rename_i g _
  have h1 := State.zeroAtoll_memOk _ g (State.endAtollReset_memOk _ g (s.beginAtollReset_memOk g hs))
  simp [h1]

@[simp] theorem State.containAs_memOk (s : State) (u : Word) (cls : Half) (seq : Word) (source : BitVec 2) (hs : s.memOk) :
    (s.containAs u cls seq source).memOk := by
  simp [State.containAs, hs]

@[simp] theorem State.grantHead_memOk (s : State) (q : LedgerReq) (step : Nat) : (s.grantHead q step).memOk ↔ s.memOk := by
  unfold State.grantHead
  (repeat' split) <;> simp

@[simp] theorem State.throttleDown_memOk (s : State) (key : Nat) : (s.throttleDown key).memOk ↔ s.memOk := by
  simp [State.throttleDown]

@[simp] theorem State.throttleUp_memOk (s : State) (key : Nat) : (s.throttleUp key).memOk ↔ s.memOk := by
  simp [State.throttleUp]

@[simp] theorem State.epochDiscard_memOk (s : State) (g queue : Nat) : (s.epochDiscard g queue).memOk ↔ s.memOk := by
  simp [State.epochDiscard]

@[simp] theorem State.discardEntry_memOk (s : State) (g queue : Nat) (e : QEntry) :
    (s.discardEntry g queue e).memOk ↔ s.memOk := by
  simp [State.discardEntry]

@[simp] theorem State.sendLane_memOk (s : State) (g i : Nat) (e : QEntry) : (s.sendLane g i e).memOk ↔ s.memOk := by
  unfold State.sendLane
  (repeat' split) <;> simp

@[simp] theorem State.laneArrival_memOk (s : State) (g i : Nat) (hs : s.memOk) : (s.laneArrival g i).memOk := by
  unfold State.laneArrival
  dsimp only
  (repeat' split) <;> simp [hs]
  exact State.setAtoll_memOk hs g (Atoll.accept_memOk (State.atoll_memOk hs g) ‹_›)

@[simp] theorem State.ownArrival_memOk (s : State) (g : Nat) (hs : s.memOk) : (s.ownArrival g).memOk := by
  unfold State.ownArrival
  dsimp only
  (repeat' split) <;> simp [hs]
  exact State.setAtoll_memOk hs g (Atoll.accept_memOk (State.atoll_memOk hs g) ‹_›)

@[simp] theorem State.seqError_memOk (s : State) (g u code : Nat) : (s.seqError g u code).memOk ↔ s.memOk := by
  unfold State.seqError
  dsimp only
  (repeat' split) <;> simp

@[simp] theorem State.mailboxWrite_memOk (s : State) (m off : Nat) (h : RegHalf) (v : DWord) :
    (s.mailboxWrite m off h v).memOk ↔ s.memOk := by
  simp [State.mailboxWrite]

@[simp] theorem State.bar0Write_memOk (s : State) (off : Nat) (h : RegHalf) (v : DWord) :
    (s.bar0Write off h v).memOk ↔ s.memOk := by
  simp [State.bar0Write]

@[simp] theorem State.abandonOps_memOk (s : State) (g : Nat) (te ve : Nat → OpSource → Bool) (be : OpSource → Bool)
    (hs : s.memOk) : (s.abandonOps g te ve be).memOk := by
  unfold State.abandonOps
  extract_lets a tiles vecs banks s1 s2 s3
  have h1 : s1.memOk := Iff.mpr (State.modAtoll_memOk _ _ _ fun _ => Iff.rfl) hs
  have h2 : s2.memOk := State.foldl_keeps (fun t o ht => by simp [ht]) _ (s1.releaseAround_memOk g h1)
  have h3 : s3.memOk := State.foldl_keeps (fun t o ht => by simp [ht]) _ h2
  refine State.foldl_keeps (fun t o ht => ?_) _ h3
  extract_lets b
  split
  · split <;> simp [ht]
  · simp [ht]

@[simp] theorem State.markClear_memOk (s : State) (us : List Word) : (s.markClear us).memOk ↔ s.memOk := Iff.rfl

@[simp] theorem State.clearPhase_memOk (s : State) (u : Word) : (s.clearPhase u).memOk ↔ s.memOk := Iff.rfl

@[simp] theorem State.flushInputs_memOk (s : State) (g u : Nat) : (s.flushInputs g u).memOk ↔ s.memOk := by
  simp [State.flushInputs]

@[simp] theorem State.stopSeq_memOk (s : State) (g u : Nat) : (s.stopSeq g u).memOk ↔ s.memOk := by
  simp [State.stopSeq]

@[simp] theorem State.resetUnit_memOk (s : State) (g kind index : Nat) (hs : s.memOk) :
    (s.resetUnit g kind index).memOk := by
  simp [State.resetUnit, hs]

@[simp] theorem State.settlePartReset_memOk (s : State) (p : Nat) (hs : s.memOk) : (s.settlePartReset p).memOk := by
  unfold State.settlePartReset
  extract_lets s2
  have h2 : s2.memOk := State.foldl_keeps (fun t e ht => by simp [ht]) _ ((s.endPartReset_memOk p).2 hs)
  exact State.foldl_keeps (fun t e ht => by simp [ht]) _ h2

@[simp] theorem State.abortAtolls_memOk (s : State) (gs : List Nat) (hs : s.memOk) : (s.abortAtolls gs).memOk := by
  refine State.foldl_keeps (fun t g ht => ?_) gs hs
  split <;> simp [ht]

@[simp] theorem State.abortPart_memOk (s : State) (p : Nat) : (s.abortPart p).memOk ↔ s.memOk := by
  simp [State.abortPart]

@[simp] theorem State.takeSpares_memOk (s : State) (p : Nat) (rep : List Nat) (seq : Word) :
    (s.takeSpares p rep seq).1.memOk ↔ s.memOk := by
  unfold State.takeSpares
  (repeat' split) <;> simp

@[simp] theorem State.beginOutside_memOk (s : State) (p : Nat) (x : Part) (c : Trigger) (hs : s.memOk) :
    (s.beginOutside p x c).memOk := by
  simp [State.beginOutside, hs]

@[simp] theorem State.beginRollback_memOk (s : State) (p : Nat) (x : Part) (c : Trigger) (hs : s.memOk) :
    (s.beginRollback p x c).memOk := by
  simp [State.beginRollback, hs]

@[simp] theorem State.poisonDark_memOk (s : State) (g k : Nat) (hs : s.memOk) : (s.poisonDark g k).memOk := by
  unfold State.poisonDark
  dsimp only
  split
  · obtain ⟨-, hc, hk⟩ := State.atoll_memOk hs k
    exact State.modAtoll_keeps hs k ⟨Memory.wf_nil, hc, hk⟩
  · exact hs

theorem State.replacePosition_memOk {s t : State} {p q : Nat} {want : Option Nat} (hs : s.memOk)
    (h : s.replacePosition p q want = some t) : t.memOk := by
  unfold State.replacePosition at h
  split at h
  · split at h
    · cases h
    · cases h
      have h1 := fun g => s.emptyCaches_memOk g hs
      have h2 := fun g k => State.movePosition_memOk _ p q k (h1 g)
      simp [h2]
  · cases h

@[simp] theorem State.replaceAll_memOk (s : State) (p : Nat) (r : Rollback) (hs : s.memOk) : (s.replaceAll p r).1.memOk := by
  refine State.foldl_fst_keeps (fun t b q ht => ?_) r.replace hs
  split
  · exact ht
  split
  · exact ht
  split
  · rename_i e
    exact State.replacePosition_memOk ht e
  · exact ht

@[simp] theorem State.sendEpochs_memOk (s : State) (g : Nat) (new : BitVec 4) : (s.sendEpochs g new).memOk ↔ s.memOk := by
  simp [State.sendEpochs]

@[simp] theorem State.descDecode_memOk (s : State) (g : Nat) (entry : BitVec 128) (bad : Nat) :
    (s.descDecode g entry bad).memOk ↔ s.memOk := by
  simp [State.descDecode]

@[simp] theorem State.armAtoll_memOk (s : State) (g o : Nat) (v : Word) : (s.armAtoll g o v).memOk ↔ s.memOk := by
  simp [State.armAtoll]

@[simp] theorem State.installDesc_memOk (s : State) (g : Nat) (d : Desc) (number : Nat) (record : BitVec 14)
    (held : Bool) (hs : s.memOk) : (s.installDesc g d number record held).memOk := by
  unfold State.installDesc
  extract_lets change s1 q0 s2 s3
  have h1 : s1.memOk := State.foldl_keeps (fun t b ht => by simp [ht]) _ hs
  have h2 : s2.memOk := Iff.mpr (State.modAtoll_memOk _ _ _ fun a => by simp) h1
  have h3 : s3.memOk := by
    refine State.foldl_keeps (fun t i ht => ?_) _ h2
    exact Iff.mpr (State.modAtoll_memOk _ _ _ fun _ => Iff.rfl) ht
  refine State.foldl_keeps (fun t o ht => ?_) _ h3
  split <;> simp [ht]

@[simp] theorem State.loadDesc_memOk (s : State) (g : Nat) (entry : BitVec 128) (number : Nat) (record : BitVec 14)
    (epoch : BitVec 4) (held : Bool) (bad : Option Nat) (hs : s.memOk) :
    (s.loadDesc g entry number record epoch held bad).1.memOk := by
  unfold State.loadDesc
  dsimp only
  (repeat' split) <;> simp [hs]

@[simp] theorem State.reinstall_memOk (s : State) (p q : Nat) (descs : Tbl (Nat × Nat)) (e : BitVec 4) (hs : s.memOk) :
    (s.reinstall p q descs e).memOk := by
  unfold State.reinstall
  (repeat' split) <;> simp [hs]

@[simp] theorem State.finishOutside_memOk (s : State) (p : Nat) (x : Part) (r : Rollback) (hs : s.memOk) :
    (s.finishOutside p x r).memOk := by
  unfold State.finishOutside
  split
  rename_i s1 _ e
  have h1 : s1.memOk := State.memOk_of_fst e (s.replaceAll_memOk p r hs)
  extract_lets one
  rw [State.modPart_memOk]
  refine State.foldl_keeps (fun t q ht => ?_) _ h1
  unfold one
  split <;> simp [ht]

@[simp] theorem State.restoreChannels_memOk (s : State) (p q : Nat) (st : StepStart) :
    (s.restoreChannels p q st).memOk ↔ s.memOk := by
  unfold State.restoreChannels
  (repeat' split) <;> simp

@[simp] theorem State.settleAll_memOk (s : State) (p : Nat) (x : Part) : (s.settleAll p x).memOk ↔ s.memOk := by
  simp [State.settleAll]

@[simp] theorem State.restoreObjects_memOk (s : State) (p : Nat) (x : Part) (st : StepStart) :
    (s.restoreObjects p x st).memOk ↔ s.memOk := by
  simp [State.restoreObjects]

@[simp] theorem State.stopReplay_memOk (s : State) (p status : Nat) (c : Trigger) :
    (s.stopReplay p status c).memOk ↔ s.memOk := by
  unfold State.stopReplay
  (repeat' split) <;> simp

@[simp] theorem State.finishRollback_memOk (s : State) (p : Nat) (x : Part) (r : Rollback) (e : BitVec 4) (hs : s.memOk) :
    (s.finishRollback p x r e).memOk := by
  unfold State.finishRollback
  extract_lets st s1 poss
  have h1 : s1.memOk := by simp [s1, hs]
  split
  rename_i s2 placed e2
  have h2 : s2.memOk := State.memOk_of_fst e2 (s1.replaceAll_memOk p r h1)
  extract_lets s3 s4 stop
  have h3 : s3.memOk := State.foldl_keeps (fun t q ht => by simp [ht]) _ h2
  have h4 : s4.memOk := State.foldl_keeps (fun t q ht => by simp [ht]) _ h3
  split
  · exact h4
  rename_i y _
  extract_lets s5
  have h5 : s5.memOk := by simp [s5, h4]
  clear_value stop
  split
  · rw [State.notice_memOk, State.modPart_memOk]
    exact State.foldl_keeps (fun t k ht => by simp [ht]) _ h5
  · rw [State.stopReplay_memOk, State.modPart_memOk]
    refine State.foldl_keeps (fun t k ht => ?_) _ h5
    exact Iff.mpr (State.modAtoll_memOk _ _ _ fun _ => Iff.rfl) ht

@[simp] theorem State.joinRollback_memOk (s : State) (p : Nat) (x : Part) (r : Rollback) (hs : s.memOk) :
    (s.joinRollback p x r).memOk := by
  simp [State.joinRollback, hs]

/-! ### Sequencers and streams -/

@[simp] theorem State.seqGo_memOk (s : State) (g u pc : Nat) : (s.seqGo g u pc).memOk ↔ s.memOk := by
  simp [State.seqGo]

@[simp] theorem State.seqNext_memOk (s : State) (g u : Nat) : (s.seqNext g u).memOk ↔ s.memOk := by
  simp [State.seqNext]

@[simp] theorem State.issueTile_memOk (s : State) (g e : Nat) (desc : BitVec 512) (src : OpSource) {t : State}
    (h : State.issueTile s g e desc src = some t) : t.memOk ↔ s.memOk := by
  unfold State.issueTile at h
  dsimp only at h
  (repeat' split at h) <;> cases h <;> simp

@[simp] theorem State.issueVec_memOk (s : State) (g v : Nat) (o : VecOp) : (s.issueVec g v o).memOk ↔ s.memOk := by
  unfold State.issueVec
  (repeat' split) <;> simp

@[simp] theorem State.seqIssue_memOk (s : State) (g u : Nat) (e : DWord) {t : State} (h : State.seqIssue s g u e = some t) :
    t.memOk ↔ s.memOk := by
  unfold State.seqIssue at h
  dsimp only at h
  split at h
  · cases h; simp
  split at h
  · exact (State.issueTile_memOk _ _ _ _ _ h).trans (by simp)
  · cases h; simp

@[simp] theorem State.seqTake_memOk (s : State) (g u p : Nat) : (s.seqTake g u p).memOk ↔ s.memOk := by
  unfold State.seqTake
  dsimp only
  (repeat' split) <;> simp

@[simp] theorem State.seqEmit_memOk (s : State) (g u : Nat) (e : DWord) : (s.seqEmit g u e).memOk ↔ s.memOk := by
  simp [State.seqEmit]

@[simp] theorem State.seqAct_memOk (s : State) (g u : Nat) (e : DWord) : (s.seqAct g u e).memOk ↔ s.memOk := by
  have hseq : ∀ (f : Sequencer → Sequencer), (s.modAtoll g fun x => x.modSeq u f).memOk ↔ s.memOk := fun f => by simp
  unfold State.seqAct
  extract_lets a q b k s1
  have h1 : s1.memOk ↔ s.memOk := by
    rw [State.seqNext_memOk]
    exact State.modAtoll_memOk _ _ _ fun _ => Iff.rfl
  clear_value s1
  split
  · simp
  · split
    · rfl
    · rename_i t e1
      have ht : t.memOk ↔ s.memOk := s.seqIssue_memOk _ _ _ e1
      split <;> simp [ht]
  · simp [hseq]
  · split
    split
    · extract_lets s2
      have h2 : s2.memOk ↔ s.memOk := hseq _
      split <;> simp [h2]
    · simp
  · simp
  · split <;> simp
  · simp
  · simp
  · simp
  · split
    · simp
    · exact State.modAtoll_memOk _ _ _ fun _ => Iff.rfl
  · split <;> simp [h1]
  · split
    · simp
    · exact hseq _
  · exact hseq _

@[simp] theorem State.seqMismatch_memOk (s : State) (g u point : Nat) (v0 v1 : DWord) :
    (s.seqMismatch g u point v0 v1).memOk ↔ s.memOk := by
  simp [State.seqMismatch]

@[simp] theorem State.seqRow_memOk (s : State) (g u code : Nat) (chk : CompareOutcome) :
    (s.seqRow g u code chk).memOk ↔ s.memOk := by
  unfold State.seqRow
  dsimp only
  (repeat' split) <;> simp

@[simp] theorem State.withFetchWord_memOk (s : State) (nbits w : Nat) : (s.withFetchWord nbits w).memOk ↔ s.memOk := Iff.rfl

@[simp] theorem State.settleBarriers_memOk (s : State) (p st : Nat) : (s.settleBarriers p st).memOk ↔ s.memOk := by
  unfold State.settleBarriers
  (repeat' split) <;> simp

@[simp] theorem State.takeCmd_memOk (s : State) (p st : Nat) (c : SCmd) : (s.takeCmd p st c).memOk ↔ s.memOk := by
  simp [State.takeCmd]

@[simp] theorem State.barrier_memOk (s : State) (p st : Nat) (x : Part) (c : SCmd) :
    (s.barrier p st x c).memOk ↔ s.memOk := by
  simp [State.barrier]

@[simp] theorem State.failCmd_memOk (s : State) (p st : Nat) (c : SCmd) (status off cause : Nat) (word : DWord) :
    (s.failCmd p st c status off cause word).memOk ↔ s.memOk := by
  simp [State.failCmd]

@[simp] theorem State.doneCmd_memOk (s : State) (p st : Nat) (c : SCmd) (v : Verdict) :
    (s.doneCmd p st c v).memOk ↔ s.memOk := by
  simp [State.doneCmd]

@[simp] theorem State.beginStep_memOk (s : State) (p st : Nat) (x : Part) (c : SCmd) (hs : s.memOk) :
    (s.beginStep p st x c).memOk := by
  simp [State.beginStep, hs]

@[simp] theorem State.putReconf_memOk (s : State) (p st : Nat) (c : SCmd) (flush barrier : Bool) (record : Nat)
    (pairs : List (Nat × Nat)) : (s.putReconf p st c flush barrier record pairs).memOk ↔ s.memOk := by
  simp [State.putReconf]

@[simp] theorem State.catalogueSwitch_memOk (s : State) (p st : Nat) (x : Part) (c : SCmd) :
    (s.catalogueSwitch p st x c).memOk ↔ s.memOk := by
  unfold State.catalogueSwitch
  dsimp only
  (repeat' split) <;> simp

@[simp] theorem State.collFails_memOk (s : State) (p st : Nat) (c : SCmd) (status offset ticket : Nat) :
    (s.collFails p st c status offset ticket).memOk ↔ s.memOk := by
  simp [State.collFails]

@[simp] theorem State.collective_memOk (s : State) (p st : Nat) (x : Part) (c : SCmd) :
    (s.collective p st x c).memOk ↔ s.memOk := by
  unfold State.collective
  extract_lets a t0
  split
  · rw [State.collFails_memOk]
  refine State.biThen_memOk _ _ _ _ (fun t => State.collFails_memOk _ _ _ _ _ _ _) ?_
  split
  rename_i s1 e bs' bs h
  have h1 : s1.memOk ↔ s.memOk := by rw [← s.readMem_memOk (some p) a 128, h]
  split
  · rw [State.collFails_memOk, h1]
  extract_lets img d prof alone n key
  split
  · rw [State.collFails_memOk, h1]
  split
  · rw [State.collFails_memOk, h1]
  split
  · rw [State.collFails_memOk, h1]
  split
  rename_i s2 e2 b2 ml h
  have h2 : s2.memOk ↔ s.memOk := by
    rw [← h1]
    split at h
    · cases h
      rfl
    · rw [← s1.readMem_memOk (some p) d.maddr (2 * n), h]
  split
  · rw [State.collFails_memOk, h2]
  extract_lets ms
  split
  · rw [State.collFails_memOk, h2]
  split
  rename_i s3 e3 b3 hd h
  have h3 : s3.memOk ↔ s.memOk := by
    rw [← h2]
    split at h
    · rw [← s2.readMem_memOk (some p) d.state 64, h]
    · cases h
      rfl
  split
  · rw [State.collFails_memOk, h3]
  split
  · rw [State.collFails_memOk, h3]
  extract_lets t4 s4 cs
  have ht : t4.memOk ↔ s.memOk := by
    unfold t4
    rw [State.modColl_memOk, State.takeCmd_memOk, h3]
  have hs : s4.memOk ↔ s.memOk := by
    unfold s4
    rw [State.memOk_foldl _ _ _ (fun t x => by simp), State.takeCmd_memOk, h3]
  split
  · split
    · rw [State.completeCmd_memOk, ht]
    · exact ht
  · rw [State.memOk_mk, State.bytesOk_eta, hs]

@[simp] theorem State.commitStep_memOk (s : State) (p st : Nat) (x : Part) (c : SCmd) :
    (s.commitStep p st x c).memOk ↔ s.memOk := by
  simp [State.commitStep]

@[simp] theorem State.reconfigure_memOk (s : State) (p st : Nat) (x : Part) (c : SCmd) :
    (s.reconfigure p st x c).memOk ↔ s.memOk := by
  unfold State.reconfigure
  dsimp only
  (repeat' split) <;> simp

@[simp] theorem State.pumpBatch_memOk (n : Nat) (s : State) (i j l : Nat) : (State.pumpBatch n s i j l).memOk ↔ s.memOk := by
  induction n generalizing s with
  | zero => rfl
  | succ k ih =>
    unfold State.pumpBatch
    dsimp only
    (repeat' split) <;> try simp [ih]
    next h => rw [State.issueTile_memOk _ _ _ _ _ h, State.modPart_memOk]

@[simp] theorem State.pumpBatches_memOk (s : State) (p st : Nat) : (s.pumpBatches p st).memOk ↔ s.memOk := by
  unfold State.pumpBatches
  (repeat' split) <;> simp

@[simp] theorem State.tileBatch_memOk (s : State) (p st : Nat) (x : Part) (c : SCmd) :
    (s.tileBatch p st x c).memOk ↔ s.memOk := by
  unfold State.tileBatch
  (repeat' split) <;> simp

@[simp] theorem State.armMod_memOk (s : State) (o : Nat) (v : Word) : (s.armMod o v).memOk ↔ s.memOk := by
  unfold State.armMod
  dsimp only
  simp

@[simp] theorem State.syncFails_memOk (s : State) (p st : Nat) (c : SCmd) (n status : Nat) :
    (s.syncFails p st c n status).memOk ↔ s.memOk := by
  simp [State.syncFails]

@[simp] theorem State.streamSync_memOk (s : State) (p st : Nat) (x : Part) (c : SCmd) :
    (s.streamSync p st x c).memOk ↔ s.memOk := by
  unfold State.streamSync
  (repeat' split) <;> simp

@[simp] theorem State.updateParam_memOk (s : State) (p st : Nat) (c : SCmd) : (s.updateParam p st c).memOk ↔ s.memOk := by
  simp [State.updateParam]

@[simp] theorem State.writeRecord_memOk (s : State) (p st : Nat) (c : SCmd) (data : List Byte) (after : State → State)
    (ha : ∀ t, (after t).memOk ↔ t.memOk) (hs : s.memOk) : (s.writeRecord p st c data after).memOk := by
  unfold State.writeRecord
  extract_lets ticket a
  split
  · split
    · rename_i t e
      rw [State.doneCmd_memOk, ha]
      exact State.hostPut_memOk a data e hs
    · simp [hs]
  · refine State.biThen_keeps hs _ (fun t ht => by simp [ht]) ?_
    split
    rename_i t1 e n h
    have h1 : t1.memOk := State.memOk_of_fst h (s.pwrite_memOk _ _ _ _ hs)
    split <;> simp [ha, h1]

@[simp] theorem State.fenceQuery_memOk (s : State) (p st : Nat) (x : Part) (c : SCmd) (hs : s.memOk) :
    (s.fenceQuery p st x c).memOk := by
  simp [State.fenceQuery, hs]

@[simp] theorem State.marker_memOk (s : State) (p st : Nat) (x : Part) (c : SCmd) (hs : s.memOk) :
    (s.marker p st x c).memOk := by
  simp [State.marker, hs]

@[simp] theorem State.memoryCmd_memOk (s : State) (p st : Nat) (x : Part) (c : SCmd) :
    (s.memoryCmd p st x c).memOk ↔ s.memOk := by
  unfold State.memoryCmd
  (repeat' split) <;> simp

@[simp] theorem State.dispatch_memOk (s : State) (p st : Nat) (x : Part) (c : SCmd) (hs : s.memOk) :
    (s.dispatch p st x c).memOk := by
  unfold State.dispatch
  (repeat' split) <;> simp [hs]

@[simp] theorem State.takeEntry_memOk (s : State) (p st : Nat) (bs : List Byte) : (s.takeEntry p st bs).memOk ↔ s.memOk := by
  simp [State.takeEntry]

@[simp] theorem State.fetchEntry_memOk (s : State) (p st : Nat) (ok : Bool) (hs : s.memOk) :
    (s.fetchEntry p st ok).memOk := by
  unfold State.fetchEntry
  dsimp only
  (repeat' split) <;> simp [hs]

@[simp] theorem State.lateWaits_memOk (s : State) (p st : Nat) : (s.lateWaits p st).memOk ↔ s.memOk := by
  unfold State.lateWaits
  (repeat' split) <;> simp

@[simp] theorem State.startCmd_memOk (s : State) (p st : Nat) (want : SCmd → Bool) (hs : s.memOk) :
    (s.startCmd p st want).memOk := by
  unfold State.startCmd
  dsimp only
  (repeat' split) <;> simp [hs]

@[simp] theorem State.endReconf_memOk (s : State) (r : Reconf) : (s.endReconf r).memOk ↔ s.memOk := by
  unfold State.endReconf
  dsimp only
  (repeat' split) <;> simp

@[simp] theorem State.modReconf_memOk (s : State) (id : Nat) (f : Reconf → Reconf) :
    (s.modReconf id f).memOk ↔ s.memOk := Iff.rfl

@[simp] theorem State.tryEnd_memOk (s : State) (id : Nat) : (s.tryEnd id).memOk ↔ s.memOk := by
  unfold State.tryEnd
  (repeat' split) <;> simp

/-! ### Tile and vector operations -/

@[simp] theorem State.writeRuns_memOk (s : State) (g : Nat) (odd : Bool) (outs : List TileOut) (hs : s.memOk) :
    (s.writeRuns g odd outs).memOk := by
  refine State.foldl_keeps (fun t o ht => ?_) outs hs
  dsimp only
  split <;> simp [ht]

@[simp] theorem State.finishTile_memOk (s : State) (g e : Nat) (r : TileRun) (hs : s.memOk) :
    (s.finishTile g e r).memOk := by
  unfold State.finishTile
  extract_lets t es low s1 s2 w
  have h1 : s1.memOk := by simp [s1, hs]
  have h2 : s2.memOk := by
    unfold s2
    split <;> simp [h1]
  simp [h2]

@[simp] theorem State.tileStart_memOk (s : State) (g : Nat) (op : TileOp) (bad : Option Word) :
    (s.tileStart g op bad).1.memOk ↔ s.memOk := by
  unfold State.tileStart
  dsimp only
  (repeat' split) <;> simp

@[simp] theorem State.dropVec_memOk (s : State) (g v : Nat) : (s.dropVec g v).memOk ↔ s.memOk := by
  simp [State.dropVec]

/-- The atoll that a gather answers with is canonical where a is. -/
def Gather.memOk (o : Gather) (a : Atoll) : Prop :=
  match o with
  | .ready b _ => b.memOk ↔ a.memOk
  | .wait b _ => b.memOk ↔ a.memOk
  | _ => True

/-- Taking entries off a queue writes no byte. -/
theorem gatherQueue_memOk (k : Nat) (a : Atoll) (o : VecOp) (v : VecDesc) (i qn : Nat) (rep : Bool) (need : Nat) :
    (gatherQueue k a o v i qn rep need).memOk a := by
  induction k generalizing a o with
  | zero => exact Iff.rfl
  | succ k ih =>
    unfold gatherQueue
    extract_lets have_ skip
    split
    · exact Iff.rfl
    split
    · extract_lets es o1
      cases rep with
      | true => exact ih a o1
      | false => exact ih (a.popQueue qn) o1
    · trivial
    · exact Iff.rfl
    · trivial

@[simp] theorem State.gatherAll_memOk (s : State) (g v : Nat) (d : VecDesc) (i0 n : Nat) (is : List Nat) (o : VecOp)
    (hs : s.memOk) : (s.gatherAll g v d i0 n is o).1.memOk := by
  induction is generalizing s o with
  | nil => exact hs
  | cons i is ih =>
    have ha := State.atoll_memOk hs g
    unfold State.gatherAll
    split
    · exact ih s o hs
    · rename_i q _
      extract_lets a rep
      have h := gatherQueue_memOk (n + 2) a o d i q rep (i0 + n)
      split
      · rename_i a' o' e
        rw [e] at h
        exact ih _ _ (State.setAtoll_memOk hs g ((Atoll.setVecCur_memOk _ _ _).2 (h.2 ha)))
      · rename_i a' o' e
        rw [e] at h
        exact State.setAtoll_memOk hs g ((Atoll.setVecCur_memOk _ _ _).2 (h.2 ha))
      · exact hs

@[simp] theorem State.vecLagoon_memOk (s : State) (g : Nat) (f : Fmt) (addr i0 n : Nat) (hs : s.memOk) :
    (s.vecLagoon g f addr i0 n).1.memOk := by
  unfold State.vecLagoon
  have h := fun a m => s.readRun_memOk g a m hs
  dsimp only
  split
  next e => exact (h _ _).waits e
  next e => exact (h _ _).ends e

@[simp] theorem State.vecSources_memOk (s : State) (g : Nat) (d : VecDesc) (o : VecOp) (i0 n : Nat) (is : List Nat)
    (hs : s.memOk) : (s.vecSources g d o i0 n is).1.memOk := by
  induction is generalizing s with
  | nil => exact hs
  | cons i is ih =>
    have h := fun a => s.vecLagoon_memOk g d.fs a i0 n hs
    unfold State.vecSources
    dsimp only
    (repeat' split) <;> simp [hs, h, ih]

@[simp] theorem State.vecWrite_memOk (s : State) (g : Nat) (v : VecDesc) (o : VecOp) (d : Nat) (es : List Nat)
    (hs : s.memOk) : (s.vecWrite g v o d es).memOk := by
  have h := fun a b => s.cacheWrite_memOk g a b hs
  unfold State.vecWrite
  extract_lets f entry lo len len' data addr
  split
  · split <;> simp [hs]
  · split <;> simp [hs]
  · split
    · split
      · exact (h _ _).waits ‹_›
      · have h1 := (h _ _).ends ‹_›
        split <;> exact h1
    · split
      · exact hs
      · extract_lets data'
        split
        · exact hs
        · simp [hs]

@[simp] theorem State.vecLine_memOk (s : State) (g v : Nat) (o : VecOp) (hs : s.memOk) : (s.vecLine g v o).memOk := by
  unfold State.vecLine
  extract_lets d m srcs
  split
  rename_i i0 n _
  have hg := s.gatherAll_memOk g v d i0 n srcs o hs
  split
  · rename_i e
    exact State.memOk_of_fst e hg
  · rename_i e
    rw [State.seqError_memOk, State.dropVec_memOk]
    exact State.memOk_of_fst e hg
  · rename_i e
    rw [State.modAtoll_memOk _ _ _ fun a => by simp, State.dropVec_memOk]
    exact State.memOk_of_fst e hg
  rename_i s1 _ o1 e
  have h1 : s1.memOk := State.memOk_of_fst e hg
  split
  rename_i s2 w st encs e2
  have h2 : s2.memOk := State.memOk_of_fst e2 (s1.vecSources_memOk g d o1 i0 n srcs h1)
  split
  · exact h2
  split
  · simp [h2]
  extract_lets ctr bs vals out
  have hv := s2.vecWrite_memOk g d o1 o1.done out h2
  split
  · exact hv.waits ‹_›
  · have h3 := hv.fails ‹_›
    simp [h3]
  · have h3 := hv.done ‹_›
    simp [h3]

@[simp] theorem State.vecStart_memOk (s : State) (g v code : Nat) (bad : Option Word) :
    (s.vecStart g v code bad).memOk ↔ s.memOk := by
  unfold State.vecStart
  dsimp only
  (repeat' split) <;> simp

@[simp] theorem State.vecWatchdog_memOk (s : State) (g v : Nat) : (s.vecWatchdog g v).memOk ↔ s.memOk := by
  unfold State.vecWatchdog
  (repeat' split) <;> simp

end Sys2Proof.Machine
end

section
/-! SUPPORT. The rows: each keeps every byte memory in its canonical form. -/

namespace Sys2Proof.Machine

@[simp] theorem State.mbRow_memOk {s : State} (h : s.memOk) (m op : Nat) (go : MbCmd → State) (hgo : ∀ c, (go c).memOk) :
    RowMemOk (s.mbRow m op go) := by
  unfold State.mbRow
  split
  · exact h
  · exact hgo _

@[simp] theorem State.mbHomeRow_memOk {s : State} (h : s.memOk) (m op : Nat) (go : MbCmd → State) (hgo : ∀ c, (go c).memOk) :
    RowMemOk (s.mbHomeRow m op go) := by
  refine State.mbRow_memOk h m op _ fun c => ?_
  split <;> simp [h, hgo]

@[simp] theorem State.mbPartRow_memOk {s : State} (h : s.memOk) (m op : Nat) (go : MbCmd → Nat → Part → State)
    (hgo : ∀ c p x, (go c p x).memOk) : RowMemOk (s.mbPartRow m op go) := by
  refine State.mbRow_memOk h m op _ fun c => ?_
  split <;> simp [h, hgo]

@[simp] theorem State.activateRow_memOk {s : State} (h : s.memOk) (m mode : Nat) (go : MbCmd → State)
    (hgo : ∀ c, (go c).memOk) : RowMemOk (s.activateRow m mode go) := by
  unfold State.activateRow
  (repeat' split) <;> simp [h, hgo]

@[simp] theorem State.catRow_memOk {s : State} (h : s.memOk) (m op : Nat) (bad : Option Nat) :
    RowMemOk (s.catRow m op bad) := by
  refine State.mbPartRow_memOk h m op _ fun c p _ => ?_
  (repeat' split) <;> simp [h]

/-- A long command ends where its `go` ends: canonical when `go` keeps memories canonical. -/
theorem State.mbLong_keeps {s : State} (hs : s.memOk) (m : Nat) (c : MbCmd) {go : State → MbCmd → State}
    (h : ∀ t d, t.memOk → (go t d).memOk) : (s.mbLong m c go).memOk := by
  unfold State.mbLong
  dsimp only
  (repeat' split) <;> simp [hs, h]

/-- A collective's packet changes memory only as its `go` does. -/
theorem State.collPacket_keeps {s : State} (hs : s.memOk) (d kind : Nat) (ctrl : Option Nat)
    {go : State → Coll → CollHdr → List Byte → State × Bool} (h : ∀ t c x bs, t.memOk → (go t c x bs).1.memOk) :
    (s.collPacket d kind ctrl go).memOk := by
  unfold State.collPacket
  dsimp only
  (repeat' split) <;> simp [hs, h]

/-- Changes of a hub's other fields write no byte of its slots. -/
theorem State.modFwHub_slots_memOk (s : State) (k : Nat) (f : FwHub → FwHub) (h0 : ∀ x, (f x).slot0 = x.slot0)
    (h1 : ∀ x, (f x).slot1 = x.slot1) : (s.modFwHub k f).memOk ↔ s.memOk :=
  s.modFwHub_memOk k f fun x => by rw [FwHub.memOk, FwHub.memOk, h0, h1]

@[simp] theorem execLagoonLoad_memOk (g who addr size sgn dec) {s : State} (hs : s.memOk) :
    RowMemOk (execLagoonLoad g who addr size sgn dec s) := by
  unfold execLagoonLoad
  (repeat' split) <;> simp [hs]

@[simp] theorem execLagoonStore_memOk (g who addr tag data) {s : State} (hs : s.memOk) :
    RowMemOk (execLagoonStore g who addr tag data s) := by
  unfold execLagoonStore
  (repeat' split) <;> simp [hs]

@[simp] theorem execNeighbourRequest_memOk (target source offset req dec) {s : State} (hs : s.memOk) :
    RowMemOk (execNeighbourRequest target source offset req dec s) := by
  unfold execNeighbourRequest
  (repeat' split) <;> simp [hs]

@[simp] theorem execCacheFill_memOk (g line dec) {s : State} (hs : s.memOk) : RowMemOk (execCacheFill g line dec s) := by
  simp only [execCacheFill, rowMemOk_next]
  (repeat' split) <;> try exact hs
  refine State.biThen_keeps hs _ (fun t ht => ?_) (State.setLine_keeps ?_ _ _ _ _ ?_)
  · exact State.modAtoll_keeps ht _ (Atoll.dropLines_memOk (State.atoll_memOk ht _) _)
  · split
    · exact State.placeDecode_memOk _ _ _ _ _ _ hs
    · exact hs
  · dsimp only
    split_ifs
    · exact Memory.wf_nil
    · exact Mem.writeBytes_wf Memory.wf_nil _ _

@[simp] theorem execCacheDramTimeout_memOk (g line) {s : State} (hs : s.memOk) :
    RowMemOk (execCacheDramTimeout g line s) := by
  simp only [execCacheDramTimeout, rowMemOk_next]
  (repeat' split) <;> try exact hs
  rw [State.raise_memOk]
  exact State.modAtoll_keeps hs _ (Atoll.dropLines_memOk (State.atoll_memOk hs _) _)

@[simp] theorem execBayFlushTimeout_memOk (g bay) {s : State} (hs : s.memOk) : RowMemOk (execBayFlushTimeout g bay s) := by
  unfold execBayFlushTimeout
  (repeat' split) <;> simp [hs]

@[simp] theorem execBayModeChange_memOk (g bay toCache) {s : State} (hs : s.memOk) :
    RowMemOk (execBayModeChange g bay toCache s) := by
  unfold execBayModeChange
  simp [hs]

@[simp] theorem execBayModeChangeDone_memOk (g bay) {s : State} (hs : s.memOk) :
    RowMemOk (execBayModeChangeDone g bay s) := by
  unfold execBayModeChangeDone
  (repeat' split) <;> simp [hs]

@[simp] theorem execMbDoorbell_memOk (m slots) {s : State} (hs : s.memOk) : RowMemOk (execMbDoorbell m slots s) := by
  unfold execMbDoorbell
  (repeat' split) <;> simp [hs]

@[simp] theorem execMbCqHead_memOk (m head) {s : State} (hs : s.memOk) : RowMemOk (execMbCqHead m head s) := by
  unfold execMbCqHead
  (repeat' split) <;> simp [hs]

@[simp] theorem execMbEqHead_memOk (m head) {s : State} (hs : s.memOk) : RowMemOk (execMbEqHead m head s) := by
  unfold execMbEqHead
  (repeat' split) <;> simp [hs]

@[simp] theorem execCompletionPost_memOk (m) {s : State} (hs : s.memOk) : RowMemOk (execCompletionPost m s) := by
  unfold execCompletionPost
  (repeat' split) <;> simp [hs]

@[simp] theorem execEventPost_memOk {s : State} (hs : s.memOk) : RowMemOk (execEventPost s) := by
  unfold execEventPost
  (repeat' split) <;> simp [hs]

@[simp] theorem execTopIssue_memOk (g core rd rs1 rs2) {s : State} (hs : s.memOk) :
    RowMemOk (execTopIssue g core rd rs1 rs2 s) := by
  simp only [execTopIssue, rowMemOk_next]
  (repeat' split)
  · exact hs
  · simp [hs]
  · simp [hs]
  next h => simpa [hs] using State.issueTile_memOk _ _ _ _ _ h
  · exact hs

@[simp] theorem execTopPoll_memOk (g core rd rs1) {s : State} (hs : s.memOk) : RowMemOk (execTopPoll g core rd rs1 s) := by
  unfold execTopPoll
  (repeat' split) <;> simp [hs]

@[simp] theorem execTessEpoch_memOk (g core rd) {s : State} (hs : s.memOk) : RowMemOk (execTessEpoch g core rd s) := by
  unfold execTessEpoch
  (repeat' split) <;> simp [hs]

@[simp] theorem execTileOpStart_memOk (g e bad) {s : State} (hs : s.memOk) : RowMemOk (execTileOpStart g e bad s) := by
  unfold execTileOpStart
  dsimp only
  (repeat' split) <;> simp [hs]

@[simp] theorem execTileOpComplete_memOk (g e chk) {s : State} (hs : s.memOk) : RowMemOk (execTileOpComplete g e chk s) := by
  unfold execTileOpComplete
  (repeat' split) <;> simp [hs]

@[simp] theorem execMatrixEngineWatchdog_memOk (g e) {s : State} (hs : s.memOk) :
    RowMemOk (execMatrixEngineWatchdog g e s) := by
  unfold execMatrixEngineWatchdog
  (repeat' split) <;> simp [hs]

@[simp] theorem execBankOpComplete_memOk (g) {s : State} (hs : s.memOk) : RowMemOk (execBankOpComplete g s) := by
  unfold execBankOpComplete
  (repeat' split) <;> simp [hs]

@[simp] theorem execLaneEntryArrival_memOk (g src) {s : State} (hs : s.memOk) : RowMemOk (execLaneEntryArrival g src s) := by
  unfold execLaneEntryArrival
  (repeat' split) <;> simp [hs]

@[simp] theorem execEpochHoldExpiry_memOk (g src) {s : State} (hs : s.memOk) : RowMemOk (execEpochHoldExpiry g src s) := by
  unfold execEpochHoldExpiry
  dsimp only
  (repeat' split) <;> simp [hs]

@[simp] theorem execQueueHeadToken_memOk (g q) {s : State} (hs : s.memOk) : RowMemOk (execQueueHeadToken g q s) := by
  simp only [execQueueHeadToken, rowMemOk_next]
  (repeat' split) <;> try exact hs
  · refine (State.modAtoll_memOk _ _ _ fun y => ?_).2 hs
    (repeat' split) <;> simp
  · refine (State.modAtoll_memOk _ _ _ fun y => ?_).2 hs
    split <;> simp

@[simp] theorem execSpillRefill_memOk (g q) {s : State} (hs : s.memOk) : RowMemOk (execSpillRefill g q s) := by
  unfold execSpillRefill
  simp [hs]

@[simp] theorem execLaneCreditReturn_memOk (g lane) {s : State} (hs : s.memOk) :
    RowMemOk (execLaneCreditReturn g lane s) := by
  unfold execLaneCreditReturn
  simp [hs]

@[simp] theorem execVecLineRelease_memOk (g v residueOk) {s : State} (hs : s.memOk) :
    RowMemOk (execVecLineRelease g v residueOk s) := by
  unfold execVecLineRelease
  (repeat' split) <;> simp [hs]

@[simp] theorem execVectorOpComplete_memOk (g v) {s : State} (hs : s.memOk) : RowMemOk (execVectorOpComplete g v s) := by
  unfold execVectorOpComplete
  (repeat' split) <;> simp [hs]

@[simp] theorem execChConnect_memOk (g core rd rs1 rs2) {s : State} (hs : s.memOk) :
    RowMemOk (execChConnect g core rd rs1 rs2 s) := by
  unfold execChConnect
  dsimp only
  (repeat' split) <;> simp [hs]

@[simp] theorem execConnectRequest_memOk (g) {s : State} (hs : s.memOk) : RowMemOk (execConnectRequest g s) := by
  unfold execConnectRequest
  dsimp only
  (repeat' split) <;> simp [hs]

@[simp] theorem execConnectAnswer_memOk (g core) {s : State} (hs : s.memOk) : RowMemOk (execConnectAnswer g core s) := by
  unfold execConnectAnswer
  dsimp only
  (repeat' split) <;> simp [hs]

@[simp] theorem execConnectTimeout_memOk (g core) {s : State} (hs : s.memOk) : RowMemOk (execConnectTimeout g core s) := by
  unfold execConnectTimeout
  (repeat' split) <;> simp [hs]

@[simp] theorem execChSend_memOk (g core rd rs1 rs2) {s : State} (hs : s.memOk) :
    RowMemOk (execChSend g core rd rs1 rs2 s) := by
  unfold execChSend
  (repeat' split) <;> simp [hs]

@[simp] theorem execChSendTuple_memOk (g core wordsM1 rd rs1 rs2) {s : State} (hs : s.memOk) :
    RowMemOk (execChSendTuple g core wordsM1 rd rs1 rs2 s) := by
  unfold execChSendTuple
  (repeat' split) <;> simp [hs]

@[simp] theorem execChSendResume_memOk (g core) {s : State} (hs : s.memOk) : RowMemOk (execChSendResume g core s) := by
  simp only [execChSendResume, rowMemOk_next]
  split
  next rd h words bulk _ _ =>
    split
    · exact hs
    split
    next t ht => simpa using (s.trySend_memOk g core h words bulk.isNone hs).sent ht
    · simp [hs]
    · exact hs
  · exact hs

@[simp] theorem execChannelStall_memOk (g core) {s : State} (hs : s.memOk) : RowMemOk (execChannelStall g core s) := by
  unfold execChannelStall
  (repeat' split) <;> simp [hs]

@[simp] theorem execHandlerDispatch_memOk (g core) {s : State} (hs : s.memOk) : RowMemOk (execHandlerDispatch g core s) := by
  unfold execHandlerDispatch
  dsimp only
  (repeat' split) <;> simp [hs]

@[simp] theorem execChRecv_memOk (g core rd rs1) {s : State} (hs : s.memOk) : RowMemOk (execChRecv g core rd rs1 s) := by
  unfold execChRecv
  (repeat' split) <;> simp [hs]

@[simp] theorem execChHret_memOk (g core) {s : State} (hs : s.memOk) : RowMemOk (execChHret g core s) := by
  unfold execChHret
  (repeat' split) <;> simp [hs]

@[simp] theorem execChQueueDelivery_memOk (g core port) {s : State} (hs : s.memOk) :
    RowMemOk (execChQueueDelivery g core port s) := by
  simp only [execChQueueDelivery, rowMemOk_next]
  split
  · exact hs
  split
  · exact State.handled_memOk _ _ _ _ (State.modAtoll_keeps hs _ (Atoll.pushQueue_memOk (State.atoll_memOk hs _) _ _))
  · exact hs

@[simp] theorem execChPortPublish_memOk (g core v) {s : State} (hs : s.memOk) : RowMemOk (execChPortPublish g core v s) := by
  unfold execChPortPublish
  (repeat' split) <;> simp [hs]

@[simp] theorem execChPortUnpublish_memOk (g core v) {s : State} (hs : s.memOk) :
    RowMemOk (execChPortUnpublish g core v s) := by
  unfold execChPortUnpublish
  (repeat' split) <;> simp [hs]

@[simp] theorem execChClose_memOk (g core v) {s : State} (hs : s.memOk) : RowMemOk (execChClose g core v s) := by
  unfold execChClose
  (repeat' split) <;> simp [hs]

@[simp] theorem execSeqCompletion_memOk (g u) {s : State} (hs : s.memOk) : RowMemOk (execSeqCompletion g u s) := by
  unfold execSeqCompletion
  dsimp only
  (repeat' split) <;> simp [hs]

@[simp] theorem execJoinStarve_memOk (g v) {s : State} (hs : s.memOk) : RowMemOk (execJoinStarve g v s) := by
  unfold execJoinStarve
  dsimp only
  (repeat' split) <;> simp [hs]

@[simp] theorem execMemoryCommandComplete_memOk (h u residueOk) {s : State} (hs : s.memOk) :
    RowMemOk (execMemoryCommandComplete h u residueOk s) := by
  unfold execMemoryCommandComplete
  (repeat' split) <;> simp [hs]

@[simp] theorem execDmaTimeout_memOk (h u) {s : State} (hs : s.memOk) : RowMemOk (execDmaTimeout h u s) := by
  unfold execDmaTimeout
  (repeat' split) <;> simp [hs]

@[simp] theorem execCodewordReceive_memOk (l cw) {s : State} (hs : s.memOk) : RowMemOk (execCodewordReceive l cw s) := by
  unfold execCodewordReceive
  dsimp only
  (repeat' split) <;> simp [hs]

@[simp] theorem execReplayTimeout_memOk (l) {s : State} (hs : s.memOk) : RowMemOk (execReplayTimeout l s) := by
  unfold execReplayTimeout
  simp [hs]

@[simp] theorem execLinkRetryLimit_memOk (l) {s : State} (hs : s.memOk) : RowMemOk (execLinkRetryLimit l s) := by
  unfold execLinkRetryLimit
  simp [hs]

@[simp] theorem execLinkCreditTimeout_memOk (l) {s : State} (hs : s.memOk) : RowMemOk (execLinkCreditTimeout l s) := by
  unfold execLinkCreditTimeout
  simp [hs]

@[simp] theorem execLaneSignalLoss_memOk (l lane) {s : State} (hs : s.memOk) : RowMemOk (execLaneSignalLoss l lane s) := by
  unfold execLaneSignalLoss
  simp [hs]

@[simp] theorem execLaneRetrainDone_memOk (l lane ok) {s : State} (hs : s.memOk) :
    RowMemOk (execLaneRetrainDone l lane ok s) := by
  unfold execLaneRetrainDone
  simp [hs]

@[simp] theorem execLinkTraining_memOk (l lane0 lane1) {s : State} (hs : s.memOk) :
    RowMemOk (execLinkTraining l lane0 lane1 s) := by
  unfold execLinkTraining
  (repeat' split) <;> simp [hs]

@[simp] theorem execLinkControlSend_memOk (l) {s : State} (hs : s.memOk) : RowMemOk (execLinkControlSend l s) := by
  unfold execLinkControlSend
  simp [hs]

@[simp] theorem execLinkControl_memOk (l) {s : State} (hs : s.memOk) : RowMemOk (execLinkControl l s) := by
  unfold execLinkControl
  (repeat' split) <;> simp [hs]

@[simp] theorem execFabricPacketArrival_memOk (d) {s : State} (hs : s.memOk) : RowMemOk (execFabricPacketArrival d s) := by
  unfold execFabricPacketArrival
  (repeat' split) <;> simp [hs]

@[simp] theorem execReassemblyTimeout_memOk (d) {s : State} (hs : s.memOk) : RowMemOk (execReassemblyTimeout d s) := by
  unfold execReassemblyTimeout
  (repeat' split) <;> simp [hs]

@[simp] theorem execMcastBranchTimeout_memOk (l) {s : State} (hs : s.memOk) : RowMemOk (execMcastBranchTimeout l s) := by
  unfold execMcastBranchTimeout
  dsimp only
  (repeat' split) <;> simp [hs]

@[simp] theorem execRemoteWriteArrival_memOk (d) {s : State} (hs : s.memOk) : RowMemOk (execRemoteWriteArrival d s) := by
  unfold execRemoteWriteArrival
  (repeat' split) <;> simp [hs]

@[simp] theorem execSyncSignalArrival_memOk (d) {s : State} (hs : s.memOk) : RowMemOk (execSyncSignalArrival d s) := by
  unfold execSyncSignalArrival
  dsimp only
  (repeat' split) <;> simp [hs]

@[simp] theorem execTelemetrySample_memOk (d port meas) {s : State} (hs : s.memOk) :
    RowMemOk (execTelemetrySample d port meas s) := by
  unfold execTelemetrySample
  (repeat' split) <;> simp [hs]

@[simp] theorem execCollectiveStart_memOk {s : State} (hs : s.memOk) : RowMemOk (execCollectiveStart s) := by
  simp only [execCollectiveStart, rowMemOk_next]
  split
  · exact hs
  split
  · exact hs
  refine State.biThen_keeps hs _ (fun t ht => by simpa using ht) (State.push_memOk _ _ ?_)
  refine (State.memOk_foldl _ _ _ fun _ _ => State.modStrait_memOk _ _ _).2 ?_
  split <;> simp [hs]

@[simp] theorem execCollApex_memOk (d) {s : State} (hs : s.memOk) : RowMemOk (execCollApex d s) := by
  refine State.collPacket_keeps hs _ _ _ fun t c x bs ht => ?_
  dsimp only
  (repeat' split) <;> simp [ht]

@[simp] theorem execCollJoin_memOk (d) {s : State} (hs : s.memOk) : RowMemOk (execCollJoin d s) := by
  refine State.collPacket_keeps hs _ _ _ fun t c x bs ht => ?_
  split <;> simp [ht]

@[simp] theorem execCollGrant_memOk (d) {s : State} (hs : s.memOk) : RowMemOk (execCollGrant d s) := by
  refine State.collPacket_keeps hs _ _ _ fun t c x bs ht => ?_
  dsimp only
  (repeat' split) <;> simp [ht]

@[simp] theorem execCollDone_memOk (d) {s : State} (hs : s.memOk) : RowMemOk (execCollDone d s) := by
  refine State.collPacket_keeps hs _ _ _ fun t c x bs ht => ?_
  split <;> simp [ht]

@[simp] theorem execCollData_memOk (d residueOk) {s : State} (hs : s.memOk) : RowMemOk (execCollData d residueOk s) := by
  simp only [execCollData, rowMemOk_next]
  split
  · simp [hs]
  refine State.collPacket_keeps hs _ _ _ fun t c x bs ht => ?_
  (repeat' split) <;> simp [ht]

@[simp] theorem execEarlyPoolExpiry_memOk (d) {s : State} (hs : s.memOk) : RowMemOk (execEarlyPoolExpiry d s) := by
  unfold execEarlyPoolExpiry
  (repeat' split) <;> simp [hs]

@[simp] theorem execLocalUpdate_memOk (k bad) {s : State} (hs : s.memOk) : RowMemOk (execLocalUpdate k bad s) := by
  simp only [execLocalUpdate, rowMemOk_next]
  split
  · exact hs
  next c _ =>
    have hchecked : ((s.badWord (some c.part) bad (6, 6)).skewCheck k).memOk := by simp [hs]
    have htiles := fun n => State.foldl_keeps
      (f := fun t i => if ((t.coll? k).map Coll.live).getD false then t.runTile k 0 i else t)
      (fun t i ht => by split <;> simp [ht]) (List.range n) hchecked
    (repeat' split) <;> simp [hs, hchecked, htiles]

@[simp] theorem execDensityProfile_memOk (k bad) {s : State} (hs : s.memOk) : RowMemOk (execDensityProfile k bad s) := by
  simp only [execDensityProfile, rowMemOk_next]
  split
  · exact hs
  next c _ =>
    split
    · exact hs
    have hread := (State.readRows_memOk (densityCmd c.img).srcRows.list _ (some c.part)).2
      (State.badWord_memOk s (some c.part) bad (6, 0x10) hs)
    refine State.biThen_keeps hs _ (fun t ht => by simpa using ht) ?_
    split
    · simpa using hread
    split <;> simp [State.writeAll_memOk _ _ _ hread]

@[simp] theorem execCollTimeout_memOk (k) {s : State} (hs : s.memOk) : RowMemOk (execCollTimeout k s) := by
  unfold execCollTimeout
  (repeat' split) <;> simp [hs]

@[simp] theorem execAck_memOk (d) {s : State} (hs : s.memOk) : RowMemOk (execAck d s) := by
  unfold execAck
  dsimp only
  (repeat' split) <;> simp [hs]

@[simp] theorem execFabricAckTimeout_memOk (d) {s : State} (hs : s.memOk) : RowMemOk (execFabricAckTimeout d s) := by
  unfold execFabricAckTimeout
  dsimp only
  (repeat' split) <;> simp [hs]

@[simp] theorem execMcastClose_memOk (d) {s : State} (hs : s.memOk) : RowMemOk (execMcastClose d s) := by
  unfold execMcastClose
  (repeat' split) <;> simp [hs]

@[simp] theorem execPhaseLoss_memOk (node r phase) {s : State} (hs : s.memOk) : RowMemOk (execPhaseLoss node r phase s) := by
  unfold execPhaseLoss
  simp [hs]

@[simp] theorem execRegionCurrentDerate_memOk (d r milliamps) {s : State} (hs : s.memOk) :
    RowMemOk (execRegionCurrentDerate d r milliamps s) := by
  unfold execRegionCurrentDerate
  simp [hs]

@[simp] theorem execLedgerRequest_memOk (node r target) {s : State} (hs : s.memOk) :
    RowMemOk (execLedgerRequest node r target s) := by
  unfold execLedgerRequest
  (repeat' split) <;> simp [hs]

@[simp] theorem execLedgerGrant_memOk {s : State} (hs : s.memOk) : RowMemOk (execLedgerGrant s) := by
  unfold execLedgerGrant
  (repeat' split) <;> simp [hs]

@[simp] theorem execLedgerNeighbourWait_memOk {s : State} (hs : s.memOk) : RowMemOk (execLedgerNeighbourWait s) := by
  unfold execLedgerNeighbourWait
  (repeat' split) <;> simp [hs]

@[simp] theorem execRampStage_memOk (node r) {s : State} (hs : s.memOk) : RowMemOk (execRampStage node r s) := by
  unfold execRampStage
  dsimp only
  (repeat' split) <;> simp [hs]

@[simp] theorem execInputPowerCheck_memOk (deciwatts below10ms) {s : State} (hs : s.memOk) :
    RowMemOk (execInputPowerCheck deciwatts below10ms s) := by
  unfold execInputPowerCheck
  (repeat' split) <;> simp [hs]

@[simp] theorem execThermalSample_memOk (node r eighths cool10ms) {s : State} (hs : s.memOk) :
    RowMemOk (execThermalSample node r eighths cool10ms s) := by
  unfold execThermalSample
  (repeat' split) <;> simp [hs]

@[simp] theorem execThermal_memOk (node r) {s : State} (hs : s.memOk) : RowMemOk (execThermal node r s) := by
  unfold execThermal
  simp [hs]

@[simp] theorem execThermalTrip_memOk {s : State} (hs : s.memOk) : RowMemOk (execThermalTrip s) := by
  unfold execThermalTrip
  (repeat' split) <;> simp [hs]

@[simp] theorem execDroopSignature_memOk (node r before after) {s : State} (hs : s.memOk) :
    RowMemOk (execDroopSignature node r before after s) := by
  unfold execDroopSignature
  simp [hs]

@[simp] theorem execBusConverterLoss_memOk (c) {s : State} (hs : s.memOk) : RowMemOk (execBusConverterLoss c s) := by
  unfold execBusConverterLoss
  (repeat' split) <;> simp [hs]

@[simp] theorem execAgeingSample_memOk (node r slack) {s : State} (hs : s.memOk) :
    RowMemOk (execAgeingSample node r slack s) := by
  unfold execAgeingSample
  simp [hs]

@[simp] theorem execAgeingReplan_memOk {s : State} (hs : s.memOk) : RowMemOk (execAgeingReplan s) := by
  unfold execAgeingReplan
  (repeat' split) <;> simp [hs]

@[simp] theorem execQuery_memOk (m) {s : State} (hs : s.memOk) : RowMemOk (execQuery m s) := by
  unfold execQuery
  (repeat' split) <;> simp [hs]

@[simp] theorem execGetParam_memOk (m) {s : State} (hs : s.memOk) : RowMemOk (execGetParam m s) := by
  refine State.mbHomeRow_memOk hs _ _ _ fun c => ?_
  dsimp only
  (repeat' split) <;> simp [hs]

@[simp] theorem execSetParam_memOk (m) {s : State} (hs : s.memOk) : RowMemOk (execSetParam m s) := by
  refine State.mbRow_memOk hs _ _ _ fun c => ?_
  dsimp only
  (repeat' split) <;> simp [hs]

@[simp] theorem execSuspectRead_memOk (m) {s : State} (hs : s.memOk) : RowMemOk (execSuspectRead m s) := by
  refine State.mbHomeRow_memOk hs _ _ _ fun c => ?_
  (repeat' split) <;> simp [hs]

@[simp] theorem execModuleIdSet_memOk (m) {s : State} (hs : s.memOk) : RowMemOk (execModuleIdSet m s) := by
  unfold execModuleIdSet
  (repeat' split) <;> simp [hs]

@[simp] theorem execScalarInstruction_memOk (g core chk dec) {s : State} (hs : s.memOk) :
    RowMemOk (execScalarInstruction g core chk dec s) := by
  unfold execScalarInstruction
  dsimp only
  (repeat' split) <;> simp [hs]

@[simp] theorem execSyncWait_memOk (g core rd rs1 rs2) {s : State} (hs : s.memOk) :
    RowMemOk (execSyncWait g core rd rs1 rs2 s) := by
  unfold execSyncWait
  (repeat' split) <;> simp [hs]

@[simp] theorem execSyncWaitany_memOk (g core rd rs1 rs2) {s : State} (hs : s.memOk) :
    RowMemOk (execSyncWaitany g core rd rs1 rs2 s) := by
  unfold execSyncWaitany
  (repeat' split) <;> simp [hs]

@[simp] theorem execSyncSignal_memOk (g core rs1 rs2) {s : State} (hs : s.memOk) :
    RowMemOk (execSyncSignal g core rs1 rs2 s) := by
  unfold execSyncSignal
  dsimp only
  (repeat' split) <;> simp [hs]

@[simp] theorem execSyncArm_memOk (g core rs1 rs2) {s : State} (hs : s.memOk) : RowMemOk (execSyncArm g core rs1 rs2 s) := by
  unfold execSyncArm
  (repeat' split) <;> simp [hs]

@[simp] theorem execSyncWaitTimeout_memOk (g core) {s : State} (hs : s.memOk) : RowMemOk (execSyncWaitTimeout g core s) := by
  unfold execSyncWaitTimeout
  (repeat' split) <;> simp [hs]

@[simp] theorem execDramScrub_memOk (ch word dec) {s : State} (hs : s.memOk) : RowMemOk (execDramScrub ch word dec s) := by
  unfold execDramScrub
  (repeat' split) <;> simp [hs]

@[simp] theorem execLagoonScrub_memOk (w dec) {s : State} (hs : s.memOk) : RowMemOk (execLagoonScrub w dec s) := by
  unfold execLagoonScrub
  (repeat' split) <;> simp [hs]

@[simp] theorem execScrubForcedCycle_memOk (w dec) {s : State} (hs : s.memOk) : RowMemOk (execScrubForcedCycle w dec s) := by
  unfold execScrubForcedCycle
  (repeat' split) <;> simp [hs]

@[simp] theorem execBankPower_memOk (m) {s : State} (hs : s.memOk) : RowMemOk (execBankPower m s) := by
  refine State.mbRow_memOk hs _ _ _ fun c => ?_
  dsimp only
  (repeat' split) <;> simp [hs]

@[simp] theorem execBankDrainDone_memOk (h b) {s : State} (hs : s.memOk) : RowMemOk (execBankDrainDone h b s) := by
  unfold execBankDrainDone
  (repeat' split) <;> simp [hs]

@[simp] theorem execBankDrainTimeout_memOk (h b) {s : State} (hs : s.memOk) : RowMemOk (execBankDrainTimeout h b s) := by
  unfold execBankDrainTimeout
  (repeat' split) <;> simp [hs]

@[simp] theorem execBankOffRequest_memOk (h b) {s : State} (hs : s.memOk) : RowMemOk (execBankOffRequest h b s) := by
  unfold execBankOffRequest
  (repeat' split) <;> simp [hs]

@[simp] theorem execBankPowerUpDone_memOk (h b) {s : State} (hs : s.memOk) : RowMemOk (execBankPowerUpDone h b s) := by
  simp only [execBankPowerUpDone, rowMemOk_next]
  (repeat' split) <;> try exact hs
  rw [State.endBankPower_memOk]
  have h1 : (s.grantHead (.bank h b) 0).memOk := by simp [hs]
  exact State.modShoal_keeps h1 _ (Mem.clear_wf (State.staging_wf h1 _) _ _)

@[simp] theorem execWindowOpen_memOk (m) {s : State} (hs : s.memOk) : RowMemOk (execWindowOpen m s) := by
  refine State.mbPartRow_memOk hs _ _ _ fun c p x => ?_
  dsimp only
  (repeat' split) <;> simp [hs]

@[simp] theorem execWindowClose_memOk (m) {s : State} (hs : s.memOk) : RowMemOk (execWindowClose m s) := by
  unfold execWindowClose
  simp [hs]

@[simp] theorem execWindowCloseComplete_memOk (w) {s : State} (hs : s.memOk) : RowMemOk (execWindowCloseComplete w s) := by
  unfold execWindowCloseComplete
  (repeat' split) <;> simp [hs]

@[simp] theorem execWindowQuery_memOk (m) {s : State} (hs : s.memOk) : RowMemOk (execWindowQuery m s) := by
  unfold execWindowQuery
  simp [hs]

@[simp] theorem execChannelRetirementStart_memOk (ch cause) {s : State} (hs : s.memOk) :
    RowMemOk (execChannelRetirementStart ch cause s) := by
  unfold execChannelRetirementStart
  (repeat' split) <;> simp [hs]

@[simp] theorem execRetirementPageMove_memOk (badWords unreadable) {s : State} (hs : s.memOk) :
    RowMemOk (execRetirementPageMove badWords unreadable s) := by
  unfold execRetirementPageMove
  dsimp only
  (repeat' split) <;> simp [hs]

@[simp] theorem execChannelRetirementDone_memOk {s : State} (hs : s.memOk) : RowMemOk (execChannelRetirementDone s) := by
  unfold execChannelRetirementDone
  (repeat' split) <;> simp [hs]

@[simp] theorem execChannelRetire_memOk (m) {s : State} (hs : s.memOk) : RowMemOk (execChannelRetire m s) := by
  refine State.mbRow_memOk hs _ _ _ fun c => ?_
  dsimp only
  (repeat' split) <;> simp [hs]

@[simp] theorem execMeshPacket_memOk (d x y ev) {s : State} (hs : s.memOk) : RowMemOk (execMeshPacket d x y ev s) := by
  unfold execMeshPacket
  (repeat' split) <;> simp [hs]

@[simp] theorem execLinkRetrain_memOk (l) {s : State} (hs : s.memOk) : RowMemOk (execLinkRetrain l s) := by
  unfold execLinkRetrain
  (repeat' split) <;> simp [hs]

@[simp] theorem execLinkRetrainDone_memOk (l ok) {s : State} (hs : s.memOk) : RowMemOk (execLinkRetrainDone l ok s) := by
  unfold execLinkRetrainDone
  (repeat' split) <;> simp [hs]

@[simp] theorem execCausewayRouteRewrite_memOk {s : State} (hs : s.memOk) : RowMemOk (execCausewayRouteRewrite s) := by
  unfold execCausewayRouteRewrite
  (repeat' split) <;> simp [hs]

@[simp] theorem execCausewayMessage_memOk (node header payload crcOk) {s : State} (hs : s.memOk) :
    RowMemOk (execCausewayMessage node header payload crcOk s) := by
  unfold execCausewayMessage
  (repeat' split) <;> simp [hs]

@[simp] theorem execOscFailover_memOk (node) {s : State} (hs : s.memOk) : RowMemOk (execOscFailover node s) := by
  unfold execOscFailover
  (repeat' split) <;> simp [hs]

@[simp] theorem execOscillatorsLost_memOk {s : State} (hs : s.memOk) : RowMemOk (execOscillatorsLost s) := by
  unfold execOscillatorsLost
  (repeat' split) <;> simp [hs]

@[simp] theorem execArithmeticStepChange_memOk (d r) {s : State} (hs : s.memOk) :
    RowMemOk (execArithmeticStepChange d r s) := by
  unfold execArithmeticStepChange
  simp [hs]

@[simp] theorem execArithmeticUngate_memOk (g) {s : State} (hs : s.memOk) : RowMemOk (execArithmeticUngate g s) := by
  unfold execArithmeticUngate
  (repeat' split) <;> simp [hs]

@[simp] theorem execReconfDispatch_memOk (p) {s : State} (hs : s.memOk) : RowMemOk (execReconfDispatch p s) := by
  unfold execReconfDispatch
  dsimp only
  (repeat' split) <;> simp [hs]

@[simp] theorem execReconfArrival_memOk (g) {s : State} (hs : s.memOk) : RowMemOk (execReconfArrival g s) := by
  unfold execReconfArrival
  (repeat' split) <;> simp [hs]

@[simp] theorem execQuiescentReport_memOk (g) {s : State} (hs : s.memOk) : RowMemOk (execQuiescentReport g s) := by
  unfold execQuiescentReport
  dsimp only
  (repeat' split) <;> simp [hs]

@[simp] theorem execCheck_memOk (g) {s : State} (hs : s.memOk) : RowMemOk (execCheck g s) := by
  unfold execCheck
  dsimp only
  (repeat' split) <;> simp [hs]

@[simp] theorem execCheckAnswer_memOk (p) {s : State} (hs : s.memOk) : RowMemOk (execCheckAnswer p s) := by
  unfold execCheckAnswer
  (repeat' split) <;> simp [hs]

@[simp] theorem execDrainTimeout_memOk (p) {s : State} (hs : s.memOk) : RowMemOk (execDrainTimeout p s) := by
  simp only [execDrainTimeout, rowMemOk_next]
  split
  · exact hs
  rw [State.modReconf_memOk]
  refine State.foldl_keeps (fun t e ht => ?_) _ hs
  split
  · refine State.flushAtoll_memOk _ _ ?_
    simp [ht]
  · exact ht

@[simp] theorem execDescriptorInstall_memOk (g bad) {s : State} (hs : s.memOk) :
    RowMemOk (execDescriptorInstall g bad s) := by
  unfold execDescriptorInstall
  dsimp only
  (repeat' split) <;> simp [hs]

@[simp] theorem execReady_memOk (p g) {s : State} (hs : s.memOk) : RowMemOk (execReady p g s) := by
  unfold execReady
  (repeat' split) <;> simp [hs]

@[simp] theorem execGo_memOk (g) {s : State} (hs : s.memOk) : RowMemOk (execGo g s) := by
  unfold execGo
  simp [hs]

@[simp] theorem execStreamStatusWrite_memOk (p st) {s : State} (hs : s.memOk) : RowMemOk (execStreamStatusWrite p st s) := by
  unfold execStreamStatusWrite
  (repeat' split) <;> simp [hs]

@[simp] theorem execPartitionCreate_memOk (m) {s : State} (hs : s.memOk) : RowMemOk (execPartitionCreate m s) := by
  refine State.mbRow_memOk hs _ _ _ fun c => ?_
  dsimp only
  split
  · simp [hs]
  split
  · simp [hs]
  refine State.mbLong_keeps hs _ _ fun t d ht => ?_
  simp [ht]

@[simp] theorem execPartitionResize_memOk (m) {s : State} (hs : s.memOk) : RowMemOk (execPartitionResize m s) := by
  refine State.mbPartRow_memOk hs _ _ _ fun c p x => ?_
  dsimp only
  split
  · simp [hs]
  split
  · simp [hs]
  refine State.mbLong_keeps hs _ _ fun t d ht => ?_
  have hremoved := State.foldl_keeps (f := fun u i => u.removePosition p (x.w * (fld c.img 23 0 3 + 1) + i))
    (fun u _ hu => State.removePosition_memOk u p _ hu) (List.range (x.w * x.h - x.w * (fld c.img 23 0 3 + 1))) ht
  have hsplit := fun banks split => State.setSplit_memOk _ p split (State.zeroBanks_memOk _ banks hremoved)
  rw [State.mbEnd_memOk, State.sendHome_memOk, State.remapPart_memOk]
  exact State.placeRange_memOk _ _ _ _ ((State.modPart_memOk _ _ _).2 (hsplit _ _))

@[simp] theorem execStreamOpen_memOk (m) {s : State} (hs : s.memOk) : RowMemOk (execStreamOpen m s) := by
  unfold execStreamOpen
  simp [hs]

@[simp] theorem execStreamClose_memOk (m) {s : State} (hs : s.memOk) : RowMemOk (execStreamClose m s) := by
  unfold execStreamClose
  (repeat' split) <;> simp [hs]

@[simp] theorem execStreamResume_memOk (m) {s : State} (hs : s.memOk) : RowMemOk (execStreamResume m s) := by
  unfold execStreamResume
  simp [hs]

@[simp] theorem execCatalogueWriteRelease_memOk {s : State} (hs : s.memOk) : RowMemOk (execCatalogueWriteRelease s) := by
  unfold execCatalogueWriteRelease
  (repeat' split) <;> simp [hs]

@[simp] theorem execSyncAlloc_memOk (m) {s : State} (hs : s.memOk) : RowMemOk (execSyncAlloc m s) := by
  refine State.mbPartRow_memOk hs _ _ _ fun c p _ => ?_
  dsimp only
  split <;> simp [hs]

@[simp] theorem execSyncFree_memOk (m) {s : State} (hs : s.memOk) : RowMemOk (execSyncFree m s) := by
  unfold execSyncFree
  simp [hs]

@[simp] theorem execGapPatrolMicrotest_memOk (unit test r) {s : State} (hs : s.memOk) :
    RowMemOk (execGapPatrolMicrotest unit test r s) := by
  unfold execGapPatrolMicrotest
  (repeat' split) <;> simp [hs]

@[simp] theorem execGapPatrolForcedSlot_memOk (unit test r) {s : State} (hs : s.memOk) :
    RowMemOk (execGapPatrolForcedSlot unit test r s) := by
  unfold execGapPatrolForcedSlot
  (repeat' split) <;> simp [hs]

@[simp] theorem execMigrationStart_memOk (p pos) {s : State} (hs : s.memOk) : RowMemOk (execMigrationStart p pos s) := by
  unfold execMigrationStart
  (repeat' split) <;> simp [hs]

@[simp] theorem execMigrationCutOver_memOk (p pos) {s : State} (hs : s.memOk) : RowMemOk (execMigrationCutOver p pos s) := by
  unfold execMigrationCutOver
  (repeat' split) <;> simp [hs]

@[simp] theorem execFullPatrol_memOk (g) {s : State} (hs : s.memOk) : RowMemOk (execFullPatrol g s) := by
  unfold execFullPatrol
  (repeat' split) <;> simp [hs]

@[simp] theorem execFullPatrolComplete_memOk (g atStep raised) {s : State} (hs : s.memOk) :
    RowMemOk (execFullPatrolComplete g atStep raised s) := by
  unfold execFullPatrolComplete
  (repeat' split) <;> simp [hs]

@[simp] theorem execFenceMapWrite_memOk {s : State} (hs : s.memOk) : RowMemOk (execFenceMapWrite s) := by
  unfold execFenceMapWrite
  (repeat' split) <;> simp [hs]

@[simp] theorem execFaultCollectorDrain_memOk (node) {s : State} (hs : s.memOk) :
    RowMemOk (execFaultCollectorDrain node s) := by
  unfold execFaultCollectorDrain
  dsimp only
  (repeat' split) <;> simp [hs]

@[simp] theorem execCoalesceRelease_memOk (node) {s : State} (hs : s.memOk) : RowMemOk (execCoalesceRelease node s) := by
  unfold execCoalesceRelease
  dsimp only
  (repeat' split) <;> simp [hs]

@[simp] theorem execWearScoreUpdate_memOk {s : State} (hs : s.memOk) : RowMemOk (execWearScoreUpdate s) := by
  unfold execWearScoreUpdate
  (repeat' split) <;> simp [hs]

@[simp] theorem execWearCheckpoint_memOk {s : State} (hs : s.memOk) : RowMemOk (execWearCheckpoint s) := by
  unfold execWearCheckpoint
  (repeat' split) <;> simp [hs]

@[simp] theorem execStepRollback_memOk (p) {s : State} (hs : s.memOk) : RowMemOk (execStepRollback p s) := by
  unfold execStepRollback
  (repeat' split) <;> simp [hs]

@[simp] theorem execStepAbortStall_memOk (g) {s : State} (hs : s.memOk) : RowMemOk (execStepAbortStall g s) := by
  unfold execStepAbortStall
  (repeat' split) <;> simp [hs]

@[simp] theorem execRollbackRestart_memOk (p) {s : State} (hs : s.memOk) : RowMemOk (execRollbackRestart p s) := by
  unfold execRollbackRestart
  (repeat' split) <;> simp [hs]

@[simp] theorem execVectorEngineWatchdog_memOk (g w) {s : State} (hs : s.memOk) :
    RowMemOk (execVectorEngineWatchdog g w s) := by
  unfold execVectorEngineWatchdog
  (repeat' split) <;> simp [hs]

@[simp] theorem execScalarWatchdog_memOk (g core) {s : State} (hs : s.memOk) : RowMemOk (execScalarWatchdog g core s) := by
  unfold execScalarWatchdog
  simp [hs]

@[simp] theorem execSeqWaitWatchdog_memOk (g u) {s : State} (hs : s.memOk) : RowMemOk (execSeqWaitWatchdog g u s) := by
  unfold execSeqWaitWatchdog
  (repeat' split) <;> simp [hs]

@[simp] theorem execBlockWatchdog_memOk (unit) {s : State} (hs : s.memOk) : RowMemOk (execBlockWatchdog unit s) := by
  unfold execBlockWatchdog
  (repeat' split) <;> simp [hs]

@[simp] theorem execManagerHeartbeat_memOk (node) {s : State} (hs : s.memOk) : RowMemOk (execManagerHeartbeat node s) := by
  unfold execManagerHeartbeat
  (repeat' split) <;> simp [hs]

@[simp] theorem execHeartbeatMiss_memOk (node) {s : State} (hs : s.memOk) : RowMemOk (execHeartbeatMiss node s) := by
  unfold execHeartbeatMiss
  (repeat' split) <;> simp [hs]

@[simp] theorem execHubLiveness_memOk (h) {s : State} (hs : s.memOk) : RowMemOk (execHubLiveness h s) := by
  unfold execHubLiveness
  (repeat' split) <;> simp [hs]

@[simp] theorem execHubWatchdog_memOk (h) {s : State} (hs : s.memOk) : RowMemOk (execHubWatchdog h s) := by
  unfold execHubWatchdog
  (repeat' split) <;> simp [hs]

@[simp] theorem execHubFailover_memOk {s : State} (hs : s.memOk) : RowMemOk (execHubFailover s) := by
  unfold execHubFailover
  simp [hs]

@[simp] theorem execBothHubsLost_memOk {s : State} (hs : s.memOk) : RowMemOk (execBothHubsLost s) := by
  unfold execBothHubsLost
  simp [hs]

@[simp] theorem execHeartbeatWordUpdate_memOk {s : State} (hs : s.memOk) : RowMemOk (execHeartbeatWordUpdate s) := by
  unfold execHeartbeatWordUpdate
  simp [hs]

@[simp] theorem execStatusReport_memOk {s : State} (hs : s.memOk) : RowMemOk (execStatusReport s) := by
  unfold execStatusReport
  (repeat' split) <;> simp [hs]

@[simp] theorem execAbortFlood_memOk (x) {s : State} (hs : s.memOk) : RowMemOk (execAbortFlood x s) := by
  unfold execAbortFlood
  (repeat' split) <;> simp [hs]

@[simp] theorem execResetUnit_memOk (m) {s : State} (hs : s.memOk) : RowMemOk (execResetUnit m s) := by
  refine State.mbPartRow_memOk hs _ _ _ fun c _ _ => ?_
  dsimp only
  (repeat' split) <;> simp [hs]

@[simp] theorem execResetAtoll_memOk (m) {s : State} (hs : s.memOk) : RowMemOk (execResetAtoll m s) := by
  refine State.mbPartRow_memOk hs _ _ _ fun c p _ => ?_
  dsimp only
  (repeat' split) <;> try simp [hs]
  refine State.mbLong_keeps hs _ _ fun t d ht => ?_
  split <;> simp [ht]

@[simp] theorem execAtollDrainTimeout_memOk (g) {s : State} (hs : s.memOk) : RowMemOk (execAtollDrainTimeout g s) := by
  unfold execAtollDrainTimeout
  (repeat' split) <;> simp [hs]

@[simp] theorem execPartitionResetDone_memOk (p) {s : State} (hs : s.memOk) : RowMemOk (execPartitionResetDone p s) := by
  unfold execPartitionResetDone
  (repeat' split) <;> simp [hs]

@[simp] theorem execServiceClear_memOk (m) {s : State} (hs : s.memOk) : RowMemOk (execServiceClear m s) := by
  unfold execServiceClear
  (repeat' split) <;> simp [hs]

@[simp] theorem execFenceClear_memOk (m) {s : State} (hs : s.memOk) : RowMemOk (execFenceClear m s) := by
  refine State.mbRow_memOk hs _ _ _ fun c => ?_
  dsimp only
  (repeat' split) <;> simp [hs]

@[simp] theorem execUnitFence_memOk (m) {s : State} (hs : s.memOk) : RowMemOk (execUnitFence m s) := by
  unfold execUnitFence
  simp [hs]

@[simp] theorem execDiagRun_memOk (m fail) {s : State} (hs : s.memOk) : RowMemOk (execDiagRun m fail s) := by
  unfold execDiagRun
  (repeat' split) <;> simp [hs]

@[simp] theorem execDump_memOk (m) {s : State} (hs : s.memOk) : RowMemOk (execDump m s) := by
  unfold execDump
  (repeat' split) <;> simp [hs]

@[simp] theorem execDumpUnitTimeout_memOk {s : State} (hs : s.memOk) : RowMemOk (execDumpUnitTimeout s) := by
  unfold execDumpUnitTimeout
  (repeat' split) <;> simp [hs]

@[simp] theorem execDumpRead_memOk (m) {s : State} (hs : s.memOk) : RowMemOk (execDumpRead m s) := by
  refine State.mbRow_memOk hs _ _ _ fun c => ?_
  split
  · simp [hs]
  split
  · exact hs
  refine State.mbLong_keeps hs _ _ fun t d ht => ?_
  dsimp only
  split
  · simp [ht]
  next u hu => simp [State.hostPut_memOk _ _ hu ht]

@[simp] theorem execHostMemRead_memOk (addr cache dec) {s : State} (hs : s.memOk) :
    RowMemOk (execHostMemRead addr cache dec s) := by
  unfold execHostMemRead
  (repeat' split) <;> simp [hs]

@[simp] theorem execHostMemWrite_memOk (addr data) {s : State} (hs : s.memOk) : RowMemOk (execHostMemWrite addr data s) := by
  unfold execHostMemWrite
  (repeat' split) <;> simp [hs]

@[simp] theorem execBirsp_memOk (line) {s : State} (hs : s.memOk) : RowMemOk (execBirsp line s) := by
  unfold execBirsp
  (repeat' split) <;> simp [hs]

@[simp] theorem execHostBiTimeout_memOk (line) {s : State} (hs : s.memOk) : RowMemOk (execHostBiTimeout line s) := by
  unfold execHostBiTimeout
  (repeat' split) <;> simp [hs]

@[simp] theorem execH2dSnoop_memOk (addr) {s : State} (hs : s.memOk) : RowMemOk (execH2dSnoop addr s) := by
  unfold execH2dSnoop
  (repeat' split) <;> simp [hs]

@[simp] theorem execPerst_memOk (level) {s : State} (hs : s.memOk) : RowMemOk (execPerst level s) := by
  unfold execPerst
  (repeat' split) <;> simp [hs]

@[simp] theorem execHostLinkTraining_memOk (rate width) {s : State} (hs : s.memOk) :
    RowMemOk (execHostLinkTraining rate width s) := by
  unfold execHostLinkTraining
  simp [hs]

@[simp] theorem execHdmDecoderCommit_memOk (commit base size ways granularity) {s : State} (hs : s.memOk) :
    RowMemOk (execHdmDecoderCommit commit base size ways granularity s) := by
  unfold execHdmDecoderCommit
  simp [hs]

@[simp] theorem execCxlMailboxCommand_memOk (opcode payload) {s : State} (hs : s.memOk) :
    RowMemOk (execCxlMailboxCommand opcode payload s) := by
  unfold execCxlMailboxCommand
  (repeat' split) <;> simp [hs]

@[simp] theorem execIdeKm_memOk (session c) {s : State} (hs : s.memOk) : RowMemOk (execIdeKm session c s) := by
  unfold execIdeKm
  (repeat' split) <;> simp [hs]

@[simp] theorem execMsixVectorUnmask_memOk (v) {s : State} (hs : s.memOk) : RowMemOk (execMsixVectorUnmask v s) := by
  unfold execMsixVectorUnmask
  (repeat' split) <;> simp [hs]

@[simp] theorem execPowerOn_memOk (tests) {s : State} (hs : s.memOk) : RowMemOk (execPowerOn tests s) := by
  unfold execPowerOn
  (repeat' split) <;> simp [hs]

@[simp] theorem execInputUndervoltage_memOk {s : State} (hs : s.memOk) : RowMemOk (execInputUndervoltage s) := by
  unfold execInputUndervoltage
  simp [hs]

@[simp] theorem execInputOvervoltage_memOk {s : State} (hs : s.memOk) : RowMemOk (execInputOvervoltage s) := by
  unfold execInputOvervoltage
  (repeat' split) <;> simp [hs]

@[simp] theorem execModuleReset_memOk (tests) {s : State} (hs : s.memOk) : RowMemOk (execModuleReset tests s) := by
  unfold execModuleReset
  (repeat' split) <;> simp [hs]

@[simp] theorem execBringupStateDecision_memOk {s : State} (hs : s.memOk) : RowMemOk (execBringupStateDecision s) := by
  unfold execBringupStateDecision
  (repeat' split) <;> simp [hs]

@[simp] theorem execFirmwareBlockReceive_memOk (core last crcOk sealOk) {s : State} (hs : s.memOk) :
    RowMemOk (execFirmwareBlockReceive core last crcOk sealOk s) := by
  unfold execFirmwareBlockReceive
  simp [hs]

@[simp] theorem execStandbyImageSync_memOk {s : State} (hs : s.memOk) : RowMemOk (execStandbyImageSync s) := by
  simp only [execStandbyImageSync, rowMemOk_next]
  split
  · exact hs
  · rw [State.noteChange_memOk, State.modLife_memOk, State.bootFw_memOk]
    exact State.modFwHub_keeps hs _ (FwHub.setSlot_memOk (State.fwHub_memOk hs _) _ (FwHub.slot_wf (State.fwHub_memOk hs _) _))

@[simp] theorem execModResetNFall_memOk {s : State} (hs : s.memOk) : RowMemOk (execModResetNFall s) := by
  unfold execModResetNFall
  simp [hs]

@[simp] theorem execModResetNRise_memOk (tests) {s : State} (hs : s.memOk) : RowMemOk (execModResetNRise tests s) := by
  unfold execModResetNRise
  (repeat' split) <;> simp [hs]

@[simp] theorem execColdResetRequest_memOk {s : State} (hs : s.memOk) : RowMemOk (execColdResetRequest s) := by
  unfold execColdResetRequest
  (repeat' split) <;> simp [hs]

@[simp] theorem execFwStage_memOk (m) {s : State} (hs : s.memOk) : RowMemOk (execFwStage m s) := by
  refine State.mbRow_memOk hs _ _ _ fun c => ?_
  dsimp only
  split
  · simp [hs]
  split
  · simp [hs]
  split
  · simp [hs]
  refine State.mbLong_keeps hs _ _ fun t d ht => ?_
  split
  · simp [ht]
  next bs _ =>
    have hopen : (if flag c.img 32 0 then t.openStage false else t).memOk := by
      split
      · exact State.openStage_memOk _ _ ht
      · exact ht
    have hput := State.putStage_memOk _ (fld c.img 24 0 32) bs hopen
    split
    · simpa using hput
    split
    next e => simpa using State.memOk_of_fst e (State.closeStage_memOk _ _ hput)
    next e => simpa using State.memOk_of_fst e (State.closeStage_memOk _ _ hput)

@[simp] theorem execFwActivateHitless_memOk (m) {s : State} (hs : s.memOk) : RowMemOk (execFwActivateHitless m s) := by
  refine State.activateRow_memOk hs _ _ _ fun c => ?_
  dsimp only
  (repeat' split) <;> simp [hs]

@[simp] theorem execFwActivateReset_memOk (m) {s : State} (hs : s.memOk) : RowMemOk (execFwActivateReset m s) := by
  unfold execFwActivateReset
  (repeat' split) <;> simp [hs]

@[simp] theorem execFwActivateDeferred_memOk (m) {s : State} (hs : s.memOk) : RowMemOk (execFwActivateDeferred m s) := by
  unfold execFwActivateDeferred
  (repeat' split) <;> simp [hs]

@[simp] theorem execFwRaiseFloor_memOk (m) {s : State} (hs : s.memOk) : RowMemOk (execFwRaiseFloor m s) := by
  refine State.activateRow_memOk hs _ _ _ fun c => ?_
  dsimp only
  split
  · simp [hs]
  · exact State.mbLong_keeps hs _ _ fun t d ht => by simp [State.modFwHub_slots_memOk, ht]

@[simp] theorem execStandbyMirrorReady_memOk {s : State} (hs : s.memOk) : RowMemOk (execStandbyMirrorReady s) := by
  unfold execStandbyMirrorReady
  (repeat' split) <;> simp [hs]

@[simp] theorem execHandover_memOk {s : State} (hs : s.memOk) : RowMemOk (execHandover s) := by
  simp only [execHandover, rowMemOk_next]
  (repeat' split) <;> simp [State.modFwHub_slots_memOk, hs]

@[simp] theorem execManagerUpdate_memOk (node resumed) {s : State} (hs : s.memOk) :
    RowMemOk (execManagerUpdate node resumed s) := by
  unfold execManagerUpdate
  (repeat' split) <;> simp [hs]

@[simp] theorem execFwQuietTimeout_memOk (node) {s : State} (hs : s.memOk) : RowMemOk (execFwQuietTimeout node s) := by
  unfold execFwQuietTimeout
  (repeat' split) <;> simp [hs]

@[simp] theorem execSealKeyLoad_memOk (core source roleBit key) {s : State} (hs : s.memOk) :
    RowMemOk (execSealKeyLoad core source roleBit key s) := by
  unfold execSealKeyLoad
  (repeat' split) <;> simp [hs]

@[simp] theorem execMctpMailboxCommand_memOk (req) {s : State} (hs : s.memOk) : RowMemOk (execMctpMailboxCommand req s) := by
  unfold execMctpMailboxCommand
  (repeat' split) <;> simp [hs]

@[simp] theorem execMctpUnsupportedMessage_memOk (type) {s : State} (hs : s.memOk) :
    RowMemOk (execMctpUnsupportedMessage type s) := by
  unfold execMctpUnsupportedMessage
  (repeat' split) <;> simp [hs]

@[simp] theorem execSetEndpointId_memOk (eid) {s : State} (hs : s.memOk) : RowMemOk (execSetEndpointId eid s) := by
  unfold execSetEndpointId
  (repeat' split) <;> simp [hs]

@[simp] theorem execGetTid_memOk {s : State} (hs : s.memOk) : RowMemOk (execGetTid s) := by
  unfold execGetTid
  (repeat' split) <;> simp [hs]

@[simp] theorem execSetTid_memOk (tid) {s : State} (hs : s.memOk) : RowMemOk (execSetTid tid s) := by
  unfold execSetTid
  (repeat' split) <;> simp [hs]

@[simp] theorem execGetPldmTypes_memOk {s : State} (hs : s.memOk) : RowMemOk (execGetPldmTypes s) := by
  unfold execGetPldmTypes
  (repeat' split) <;> simp [hs]

@[simp] theorem execGetPldmCommands_memOk (type) {s : State} (hs : s.memOk) : RowMemOk (execGetPldmCommands type s) := by
  unfold execGetPldmCommands
  (repeat' split) <;> simp [hs]

@[simp] theorem execGetPldmVersion_memOk (type) {s : State} (hs : s.memOk) : RowMemOk (execGetPldmVersion type s) := by
  unfold execGetPldmVersion
  (repeat' split) <;> simp [hs]

@[simp] theorem execSensorRefresh_memOk (id v) {s : State} (hs : s.memOk) : RowMemOk (execSensorRefresh id v s) := by
  unfold execSensorRefresh
  dsimp only
  (repeat' split) <;> simp [hs]

@[simp] theorem execGetPdr_memOk (record) {s : State} (hs : s.memOk) : RowMemOk (execGetPdr record s) := by
  unfold execGetPdr
  (repeat' split) <;> simp [hs]

@[simp] theorem execSetEventReceiver_memOk (enable addr) {s : State} (hs : s.memOk) :
    RowMemOk (execSetEventReceiver enable addr s) := by
  unfold execSetEventReceiver
  (repeat' split) <;> simp [hs]

@[simp] theorem execPollForPlatformEventMessage_memOk {s : State} (hs : s.memOk) :
    RowMemOk (execPollForPlatformEventMessage s) := by
  unfold execPollForPlatformEventMessage
  (repeat' split) <;> simp [hs]

@[simp] theorem execPlatformEventMessage_memOk (answered) {s : State} (hs : s.memOk) :
    RowMemOk (execPlatformEventMessage answered s) := by
  unfold execPlatformEventMessage
  (repeat' split) <;> simp [hs]

@[simp] theorem execPldmFirmwareUpdate_memOk (c) {s : State} (hs : s.memOk) : RowMemOk (execPldmFirmwareUpdate c s) := by
  unfold execPldmFirmwareUpdate
  (repeat' split) <;> simp [hs]

@[simp] theorem execActivateFirmware_memOk {s : State} (hs : s.memOk) : RowMemOk (execActivateFirmware s) := by
  unfold execActivateFirmware
  (repeat' split) <;> simp [hs]

@[simp] theorem execI3cCcc_memOk (c) {s : State} (hs : s.memOk) : RowMemOk (execI3cCcc c s) := by
  unfold execI3cCcc
  simp [hs]

@[simp] theorem execSmbusAlertResponse_memOk {s : State} (hs : s.memOk) : RowMemOk (execSmbusAlertResponse s) := by
  unfold execSmbusAlertResponse
  (repeat' split) <;> simp [hs]

@[simp] theorem execFreeze_memOk (noticeFirst) {s : State} (hs : s.memOk) : RowMemOk (execFreeze noticeFirst s) := by
  unfold execFreeze
  (repeat' split) <;> simp [hs]

@[simp] theorem execTestLogicReset_memOk {s : State} (hs : s.memOk) : RowMemOk (execTestLogicReset s) := by
  unfold execTestLogicReset
  (repeat' split) <;> simp [hs]

@[simp] theorem execIdcode_memOk {s : State} (hs : s.memOk) : RowMemOk (execIdcode s) := by
  unfold execIdcode
  (repeat' split) <;> simp [hs]

@[simp] theorem execSamplePreload_memOk (preload) {s : State} (hs : s.memOk) : RowMemOk (execSamplePreload preload s) := by
  unfold execSamplePreload
  (repeat' split) <;> simp [hs]

@[simp] theorem execExtest_memOk {s : State} (hs : s.memOk) : RowMemOk (execExtest s) := by
  unfold execExtest
  (repeat' split) <;> simp [hs]

@[simp] theorem execDbgSel_memOk (v) {s : State} (hs : s.memOk) : RowMemOk (execDbgSel v s) := by
  unfold execDbgSel
  (repeat' split) <;> simp [hs]

@[simp] theorem execDbgData_memOk (answered) {s : State} (hs : s.memOk) : RowMemOk (execDbgData answered s) := by
  unfold execDbgData
  (repeat' split) <;> simp [hs]

@[simp] theorem execFreezeState_memOk {s : State} (hs : s.memOk) : RowMemOk (execFreezeState s) := by
  unfold execFreezeState
  (repeat' split) <;> simp [hs]

@[simp] theorem execBypass_memOk (code) {s : State} (hs : s.memOk) : RowMemOk (execBypass code s) := by
  unfold execBypass
  (repeat' split) <;> simp [hs]

end Sys2Proof.Machine
end

section
/-! SUPPORT. Every step keeps every byte memory in its canonical form. -/

namespace Sys2Proof.Machine

@[simp] theorem execJobAbort_memOk (m) {s : State} (hs : s.memOk) : RowMemOk (execJobAbort m s) := by
  refine State.mbRow_memOk hs _ _ _ fun c => (State.mbEnd_memOk _ _ _ _ _ _ _).2 ?_
  exact State.foldl_keeps (fun t p ht => State.jobAbort_memOk t p ht) _ ((State.flood_memOk _ _ _ _ _ _).2 hs)

@[simp] theorem execResetPartition_memOk (m) {s : State} (hs : s.memOk) : RowMemOk (execResetPartition m s) :=
  State.mbPartRow_memOk hs _ _ _ fun _ _ _ => State.mbLong_keeps hs _ _ fun t _ ht => t.beginPartReset_memOk _ _ ht

@[simp] theorem execPartitionDestroy_memOk (m) {s : State} (hs : s.memOk) : RowMemOk (execPartitionDestroy m s) :=
  State.mbPartRow_memOk hs _ _ _ fun _ _ _ => State.mbLong_keeps hs _ _ fun t _ ht => t.beginPartReset_memOk _ _ ht

theorem execRegisterWrite_memOk (r v) {s : State} (hs : s.memOk) : RowMemOk (execRegisterWrite r v s) := by
  cases r <;> simp only [execRegisterWrite] <;> (repeat' split) <;> simp [hs]

/-- Every row keeps the memories canonical: it is one shared operation, a mailbox row of one operation, or (the last
alternative) a row with a simp lemma of its own above. -/
theorem exec_memOk (i : Instr) {s : State} (hs : s.memOk) : RowMemOk (exec i s) := by
  cases i with
  | registerWrite r v => exact execRegisterWrite_memOk r v hs
  | bankAdd | bankMax | bankScale | bankConvert | bankApex | bankZero | bayFlush | bayInvalidate | bayFlushInvalidate
  | vecAdd | vecSub | vecMul | vecFma | vecMax | vecMin | vecAbs | vecNeg | vecRecip | vecRsqrt | vecSqrt | vecLdexp
  | vecCmpEq | vecCmpLt | vecCmpLe | vecSelect | vecConvert | vecExp | vecLog | vecSigmoid | vecTanh | vecGelu | vecSilu
  | vecStats | redSum | redSumsq | redDot | redMax | redMin | redArgmax | seqNop | seqIssue | seqLoop | seqEndloop | seqJump
  | seqBrsel | seqTake | seqEmit | seqSignal | seqWait | seqCache | seqOpwait | seqHalt | dmaPortPost | dmaCompletionPop
  | dmaCopy | dmaRemoteWrite | gather | scatter | reduceSum | mxCompress | mxDecompress | factorStats | meshClockStep
  | reduceScatter | allReduce | allGather | reduceUpdate | reduceUpdateGather | streamFetch | streamPoll | streamCommandStart
  | stepBegin | stepCommit | reconfigure | catalogueSwitch | tileBatch | barrier | streamSyncArm | streamSyncSignal
  | streamSyncWait | updateParam | fenceQuery | marker | spdmGetVersion | spdmGetCapabilities | spdmNegotiateAlgorithms
  | spdmGetDigests | spdmGetCertificate | spdmChallenge | spdmGetMeasurements | spdmKeyExchange | spdmFinish | spdmHeartbeat
  | spdmKeyUpdate | spdmEndSession | spdmChunkSend | spdmChunkGet | spdmUnsupported | smbusTimeout | i3cIdleTimeout =>
    exact (rowMemOk_next _).2 (by simp [hs])
  | dumpRelease | resetModule | correlate | logRead | fenceMapRead | telemetryRead | wearRead
  | linkStateRead | routeWrite | mcastWrite | linkConfigWrite | directoryWrite | recordWrite | listWrite
  | fwStatus =>
    simp [exec, execDumpRelease, execResetModule, execCorrelate, execLogRead, execFenceMapRead,
      execTelemetryRead, execWearRead, execLinkStateRead, execRouteWrite, execMcastWrite, execLinkConfigWrite,
      execDirectoryWrite, execRecordWrite, execListWrite, execFwStatus, hs]
  | _ => simp [exec, hs]

theorem idleTick_memOk {s : State} (hs : s.memOk) : (idleTick s).memOk := by
  unfold idleTick
  split
  · exact hs
  · exact hs

/-- Settles O52: an idle step writes no memory, and every row keeps the memories canonical (`exec_memOk`). -/
theorem memoryStaysCanonical : Obligations.MemoryStaysCanonical := by
  unfold Obligations.MemoryStaysCanonical
  intro s t hs h
  rcases hp : s.pending with _ | ⟨c, rest⟩
  · rw [step_nil hp] at h
    cases h
    exact idleTick_memOk hs
  · rw [step_cons hp] at h
    have hrow : RowMemOk (exec c { s with pending := rest }) := exec_memOk c hs
    rwa [h] at hrow

end Sys2Proof.Machine
end

section
/-! SUPPORT. Queues, lanes and completion words of sequencers (04 R80, R83, R88, R92, R93, R102). -/

namespace Sys2Proof.Machine

/-! ### What stops a stream touches no atoll (13 R342, R343) -/

/-- Only the partitions and the events may differ. -/
def State.partsOnly (s t : State) : Prop := t = { s with parts := t.parts, events := t.events }

theorem State.partsOnly_refl (s : State) : s.partsOnly s := rfl

theorem State.partsOnly.trans {s t u : State} (h : s.partsOnly t) (k : t.partsOnly u) : s.partsOnly u := by
  unfold State.partsOnly at *
  rw [k, h]

theorem State.partsOnly.atoll {s t : State} (h : s.partsOnly t) (g : Nat) : t.atoll g = s.atoll g := by rw [h]; rfl

theorem State.partsOnly.flt {s t : State} (h : s.partsOnly t) : t.flt = s.flt := by rw [h]

theorem State.modPart_partsOnly (s : State) (p : Nat) (f : Part → Part) : s.partsOnly (s.modPart p f) := by
  unfold State.modPart
  split <;> rfl

theorem State.notice_partsOnly (s : State) (p kind status : Nat) (seq : Word) (report : Half) :
    s.partsOnly (s.notice p kind status seq report) := rfl

theorem State.stopStream_partsOnly (s : State) (p st status kind at_ off cause : Nat) (word : DWord) (seq : Word) (quiet : Bool) :
    s.partsOnly (s.stopStream p st status kind at_ off cause word seq quiet) := by
  unfold State.stopStream
  split
  · exact s.partsOnly_refl
  · dsimp only
    split
    · exact s.partsOnly_refl
    · split
      · exact s.modPart_partsOnly p _
      · exact (s.modPart_partsOnly p _).trans (State.notice_partsOnly ..)

theorem State.partsOnly_foldl {α : Type} (f : State → α → State) (hf : ∀ (t : State) x, t.partsOnly (f t x)) (l : List α)
    (s : State) : s.partsOnly (l.foldl f s) := by
  induction l generalizing s with
  | nil => exact s.partsOnly_refl
  | cons x l ih => exact (hf s x).trans (ih (f s x))

theorem State.stopAllFenced_partsOnly (s : State) (p cause : Nat) (seq : Word) : s.partsOnly (s.stopAllFenced p cause seq) := by
  unfold State.stopAllFenced
  split
  · exact s.partsOnly_refl
  · refine State.partsOnly_foldl _ (fun t st => ?_) _ s
    dsimp only
    split
    · exact (t.stopStream_partsOnly ..).trans (State.modPart_partsOnly ..)
    · exact t.partsOnly_refl

theorem State.judge_partsOnly (s : State) (p st idx : Nat) (v : Verdict) : s.partsOnly (s.judge p st idx v) := by
  unfold State.judge
  split
  · exact s.partsOnly_refl
  · split
    · exact s.partsOnly_refl
    · exact s.stopStream_partsOnly ..
    · split
      · exact s.modPart_partsOnly ..
      · split
        · exact s.stopStream_partsOnly ..
        · exact s.stopAllFenced_partsOnly ..

/-- A sequencer halts with an error; what else changes is the stream that installed it. -/
theorem State.seqError_partsOnly (s : State) (g u code : Nat) :
    (s.modAtoll g fun a => a.modSeq u fun q => { q with state := .error, error := code, block := .none }).partsOnly
      (s.seqError g u code) := by
  unfold State.seqError
  dsimp only
  split
  · exact State.partsOnly_refl _
  · split
    · exact State.partsOnly_refl _
    · exact State.stopStream_partsOnly ..

theorem State.seqError_atoll (s : State) (g u code : Nat) :
    (s.seqError g u code).atoll g =
      (s.atoll g).modSeq u fun q => { q with state := .error, error := code, block := .none } := by
  rw [(s.seqError_partsOnly g u code).atoll, State.modAtoll_atoll]

theorem State.seqError_flt (s : State) (g u code : Nat) : (s.seqError g u code).flt = s.flt :=
  (s.seqError_partsOnly g u code).flt

/-! ### Open operations of a sequencer (04 R80) -/

/-- What a sequencer still waits for: its completion words, oldest first, and its open operations. -/
def State.seqOps (s : State) (g u : Nat) : List (Nat × DWord) × List Nat :=
  (((s.atoll g).seq u).inbox, ((s.atoll g).seq u).openOps)

theorem State.partsOnly.seqOps {s t : State} (h : s.partsOnly t) (g u : Nat) : t.seqOps g u = s.seqOps g u := by
  rw [State.seqOps, h.atoll]
  rfl

@[simp] theorem State.modSeq_seqOps (s : State) (g u : Nat) (f : Sequencer → Sequencer) (hi : ∀ q, (f q).inbox = q.inbox)
    (ho : ∀ q, (f q).openOps = q.openOps) : (s.modAtoll g fun a => a.modSeq u f).seqOps g u = s.seqOps g u := by
  simp [State.seqOps, hi, ho]

@[simp] theorem State.judge_seqOps (s : State) (p st idx : Nat) (v : Verdict) (g u : Nat) :
    (s.judge p st idx v).seqOps g u = s.seqOps g u := (s.judge_partsOnly p st idx v).seqOps g u

@[simp] theorem State.seqError_seqOps (s : State) (g u code : Nat) : (s.seqError g u code).seqOps g u = s.seqOps g u := by
  rw [(s.seqError_partsOnly g u code).seqOps]
  simp

/-- Going on to the next entry leaves the completion words and the open operations. -/
@[simp] theorem State.seqNext_seqOps (s : State) (g u : Nat) : (s.seqNext g u).seqOps g u = s.seqOps g u := by
  unfold State.seqNext State.seqGo
  split
  · simp
  · simp

/-- SEQ_COMPLETION takes the oldest completion word and closes its operation, whatever its status makes of the sequencer. -/
theorem execSeqCompletion_seqOps {g : Fin 320} {u : Fin 6} {id : Nat} {w : DWord} {rest : List (Nat × DWord)} {s : State}
    (hin : ((s.atoll g).seq u).inbox = (id, w) :: rest) (hrun : s.unitRuns g = true) :
    completes (.seqCompletion g u) s fun t => t.seqOps g u = (rest, ((s.atoll g).seq u).openOps.filter (· != id)) := by
  have htaken : (s.modAtoll g fun a => a.modSeq u fun y =>
      { y with inbox := rest, openOps := ((s.atoll g).seq u).openOps.filter (· != id) }).seqOps g u =
        (rest, ((s.atoll g).seq u).openOps.filter (· != id)) := by
    simp [State.seqOps]
  refine ⟨_, rfl, ?_⟩
  simp only [hin, hrun, Bool.not_true, Bool.false_eq_true, if_false]
  generalize (s.modAtoll g fun a => a.modSeq u fun y =>
    { y with inbox := rest, openOps := ((s.atoll g).seq u).openOps.filter (· != id) }) = taken at htaken ⊢
  rw [← htaken]
  split
  · -- DONE: the sequencer goes on where it waited for this word
    split <;> simp
  · split
    · rfl
    · split
      · simp
      · split
        · -- SYMBOL_UNCORRECTABLE: the error goes to the partition that holds the position
          split <;> simp
        · simp

/-! ### Arrival and the epoch test (04 R92, R102) -/

theorem State.onlyAtoll_setAtoll (s : State) (g : Nat) (a : Atoll) : s.onlyAtoll (s.setAtoll g a) g :=
  s.onlyAtoll_modAtoll g fun _ => a

theorem State.unitRuns_inReset {s : State} {g : Nat} (h : s.unitRuns g = true) : (s.atoll g).inReset = false := by
  simp only [State.unitRuns, Bool.and_eq_true, Bool.not_eq_true'] at h
  obtain ⟨⟨⟨-, hreset⟩, -⟩, -⟩ := h
  exact hreset

@[simp] theorem epochTest_own (e : BitVec 4) : epochTest e e = .accept := if_pos rfl

@[simp] theorem epochTest_next (e : BitVec 4) : epochTest e (e + 1) = .hold := by
  have h : e + 1 ≠ e := by bv_omega
  rw [epochTest, if_neg h, if_pos rfl]

@[simp] theorem Atoll.active_queue (a : Atoll) (n : Nat) : a.active.queue n = a.queue n := rfl

/-- A queue with a free entry and nothing spilled takes a data entry at its end; no lane changes. -/
theorem Atoll.accept_free {a : Atoll} {n : Nat} {e : QEntry} (ht : e.token = false) (hs : (a.queue n).spCount = 0)
    (hl : (a.queue n).ents.length < 16) :
    ∃ b, a.accept n e = some b ∧ (b.queue n).ents = (a.queue n).ents ++ [e] ∧ b.laneIn = a.laneIn := by
  have hroom : (a.queue n).room ≠ 0 := by
    simp only [Queue.room, hs, if_true]
    omega
  refine ⟨a.active.modQueue n fun x => { x with ents := x.ents ++ [e] }, ?_, ?_, rfl⟩
  · simp [Atoll.accept, Atoll.pushQueue, ht, hroom, hs, hl]
  · rw [Atoll.modQueue_queue, Atoll.active_queue]

/-- An own entry under the atoll's epoch enters its queue. -/
theorem State.ownArrival_accepted {s : State} {g n : Nat} {e : QEntry} {rest : List (Nat × QEntry)} {a : Atoll}
    (hin : (s.atoll g).ownIn = (n, e) :: rest) (he : e.epoch = (s.atoll g).epoch) (hen : ((s.atoll g).queue n).enable = true)
    (ha : (s.atoll g).accept n e = some a) :
    s.ownArrival g = (s.setAtoll g a).modAtoll g fun x => { x with ownIn := rest, ownHold := none } := by
  simp [State.ownArrival, hin, he, hen, ha]

/-- An entry of a lane under the atoll's epoch enters its queue and leaves the lane's input stage. -/
theorem State.laneArrival_accepted {s : State} {g i : Nat} {e : QEntry} {rest : List QEntry} {a : Atoll}
    (hin : Tbl.getD (s.atoll g).laneIn i [] = e :: rest) (hpt : (s.atoll g).ptEn.getLsbD i = false)
    (he : e.epoch = (s.atoll g).epoch) (hlane : (s.atoll g).laneEn.getLsbD i = true)
    (hen : ((s.atoll g).queue (24 + i)).enable = true) (ha : (s.atoll g).accept (24 + i) e = some a) :
    s.laneArrival g i = (s.setAtoll g a).leaveLane g i := by
  simp [State.laneArrival, hin, hpt, he, hlane, hen, ha]

/-- A credit on its way back to an atoll changes nothing else of any atoll. -/
theorem State.leaveLane_atoll (s : State) (g i : Nat) :
    ∃ cb, (s.leaveLane g i).atoll g = { s.atoll g with
      laneIn := Tbl.set (s.atoll g).laneIn i ((Tbl.getD (s.atoll g).laneIn i []).drop 1),
      laneHold := Tbl.erase (s.atoll g).laneHold i, creditBack := cb } := by
  unfold State.leaveLane
  dsimp only
  split
  · exact ⟨(s.atoll g).creditBack, State.modAtoll_atoll ..⟩
  · next t _ =>
    by_cases ht : g = t
    · subst ht
      exact ⟨_, by rw [State.modAtoll_atoll, State.modAtoll_atoll]⟩
    · exact ⟨(s.atoll g).creditBack, by rw [State.modAtoll_atoll_ne _ _ ht, State.modAtoll_atoll]⟩

/-- The arrival of an entry at an atoll whose units run is that of its source. -/
theorem execLaneEntryArrival_own {g : Fin 320} {s : State} (hrun : s.unitRuns g = true) :
    execLaneEntryArrival g .own s = .next (s.ownArrival g) := by
  simp [execLaneEntryArrival, hrun, State.unitRuns_inReset hrun]

theorem execLaneEntryArrival_lane {g : Fin 320} (i : Fin 8) {s : State} (hrun : s.unitRuns g = true) :
    execLaneEntryArrival g (.lane i) s = .next (s.laneArrival g i) := by
  simp [execLaneEntryArrival, hrun, State.unitRuns_inReset hrun]

/-- A discard counts, and may leave a record; nothing else of the atoll changes but the mark of that record. -/
theorem State.epochDiscard_atoll (s : State) (g n : Nat) :
    (s.epochDiscard g n).atoll g =
      { s.atoll g with epochDiscard := satAdd32 (s.atoll g).epochDiscard 1, discardNoted := true } := by
  unfold State.epochDiscard
  dsimp only
  split
  · exact State.modAtoll_atoll ..
  · rw [State.raise_atoll, State.modAtoll_atoll]

/-- An own entry of the next epoch whose hold has run out is discarded (04 R102). -/
theorem execEpochHoldExpiry_own {g : Fin 320} {n : Nat} {e : QEntry} {rest : List (Nat × QEntry)} {s : State}
    (hin : (s.atoll g).ownIn = (n, e) :: rest) (hhold : (s.atoll g).ownHold.isSome = true) (hrun : s.unitRuns g = true)
    (he : e.epoch = (s.atoll g).epoch + 1) (ht : e.token = false) :
    execEpochHoldExpiry g .own s =
      .next ((s.modAtoll g fun x => { x with ownIn := rest, ownHold := none }).epochDiscard g n) := by
  obtain ⟨since, hsince⟩ := Option.isSome_iff_exists.1 hhold
  have htest : epochTest (s.atoll g).epoch e.epoch = .hold := by rw [he, epochTest_next]
  simp [execEpochHoldExpiry, hin, hsince, hrun, htest, ht, State.discardEntry]

/-! ### Head tokens (04 R83) -/

/-- The atoll after an EPOCH token leaves the head of queue q, before its reader is told. -/
def Atoll.closeQueue (a : Atoll) (q : Nat) : Atoll := (a.popQueue q).modQueue q fun z => { z with closed := true }

theorem Atoll.closeQueue_queue (a : Atoll) (q : Nat) :
    (a.closeQueue q).queue q = { a.queue q with ents := (a.queue q).ents.drop 1, closed := true } := by
  simp [Atoll.closeQueue, Atoll.popQueue]

@[simp] theorem Atoll.modSeq_queue (a : Atoll) (u : Nat) (f : Sequencer → Sequencer) (n : Nat) :
    (a.modSeq u f).queue n = a.queue n := rfl

/-- Taking the head off a queue changes no sequencer, so the queue's reader stays. -/
@[simp] theorem Atoll.popQueue_readerOf (a : Atoll) (q n : Nat) : (a.popQueue q).readerOf n = a.readerOf n := rfl

/-- An EPOCH token at the head leaves, and its queue is closed. -/
theorem execQueueHeadToken_epoch {g : Fin 320} {q : Fin 32} {e : QEntry} {rest : List QEntry} {s : State}
    (hq : ((s.atoll g).queue q).ents = e :: rest) (hrun : s.unitRuns g = true) (ht : e.token = true) (hk : e.kind = 5) :
    ∃ f : Atoll → Atoll, exec (.queueHeadToken g q) s = .next (s.modAtoll g f) ∧
      ∀ a, (f a).queue q = (a.closeQueue q).queue q := by
  refine ⟨_, by
    simp only [exec, execQueueHeadToken, hq, hrun, ht, hk, Bool.not_true, Bool.false_eq_true, or_self, if_false, if_true]
    rfl, fun a => ?_⟩
  split
  · split <;> rfl
  · rfl

/-- A HALT token at the head leaves, and its reader halts unless in error. -/
theorem execQueueHeadToken_halt {g : Fin 320} {q : Fin 32} {u p : Nat} {e : QEntry} {rest : List QEntry} {s : State}
    (hq : ((s.atoll g).queue q).ents = e :: rest) (hrun : s.unitRuns g = true) (ht : e.token = true) (hk : e.kind = 6)
    (hr : (s.atoll g).readerOf q = some (u, p)) :
    exec (.queueHeadToken g q) s = .next (s.setAtoll g (((s.atoll g).popQueue q).modSeq u fun z =>
      if z.state = .error then z else { z with state := .halted, block := .none })) := by
  simp [exec, execQueueHeadToken, hq, hrun, ht, hk, State.modAtoll, hr]

/-! ### Refills, credits and starved joins (04 R88, R92, R93) -/

/-- A queue with a free entry takes the oldest entry of its spill region. -/
theorem execSpillRefill_moves {g : Fin 320} {q : Fin 32} {s : State} (hrun : s.unitRuns g = true)
    (hs : 0 < ((s.atoll g).queue q).spCount) (hl : ((s.atoll g).queue q).ents.length < 16) :
    execSpillRefill g q s = .next (s.modAtoll g fun b => b.modQueue q fun y => { y with
      ents := y.ents ++ [(s.atoll g).spillGet ((s.atoll g).queue q) ((s.atoll g).queue q).spHead],
      spHead := (y.spHead + 1) % (max 1 y.spillCap), spCount := y.spCount - 1 }) :=
  congrArg Host.Outcome.next (if_pos ⟨hrun, hs, hl⟩)

/-- A credit on its way back reaches its lane. -/
theorem execLaneCreditReturn_adds {g : Fin 320} {l : Fin 8} {s : State} (hc : 0 < Tbl.getD (s.atoll g).creditBack l 0) :
    execLaneCreditReturn g l s = .next (s.modAtoll g fun x => { x with
      creditBack := Tbl.set x.creditBack l.val (Tbl.getD (s.atoll g).creditBack l 0 - 1),
      credits := Tbl.set x.credits l.val (min 16 (x.laneCredits l + 1)) }) :=
  congrArg Host.Outcome.next (if_neg (by omega))

@[simp] theorem Atoll.modSeq_vec (a : Atoll) (u : Nat) (f : Sequencer → Sequencer) (v : Nat) :
    (a.modSeq u f).vec v = a.vec v := rfl

theorem State.dropVec_cur (s : State) (g v : Nat) : (((s.dropVec g v).atoll g).vec v).cur = none := by
  rw [State.dropVec, State.modAtoll_atoll, Atoll.setVecCur, Atoll.modVec_vec]

/-- A starved join leaves its record, drops the operation and halts its sequencer with error 5. -/
theorem execJoinStarve_starved {g : Fin 320} {v : Fin 2} {o : VecOp} {x y : Nat} {s : State}
    (hcur : ((s.atoll g).vec v).cur = some o) (hst : (s.atoll g).starved o = some (x, y)) (hrun : s.unitRuns g = true) :
    ∃ r : RecIn, r.unit = seqUnit g (o.seqOf v) ∧ r.cls = clsStarve ∧
      execJoinStarve g v s = .next (((s.raise r).dropVec g v).seqError g (o.seqOf v) 5) := by
  refine ⟨_, ?_, ?_, by simp only [execJoinStarve, hcur, hst, hrun, Bool.not_true, Bool.false_eq_true, if_false]; rfl⟩
  all_goals rfl

/-- Settles O7: each row acts as the lemmas above say, and the laws of queues, sequencers and tables read its effect back. -/
theorem queuesAndLanes : Obligations.QueuesAndLanes := by
  refine ⟨?completion, ?own, ?lane, ?expiry, ?epoch, ?halt, ?refill, ?credit, ?starve⟩
  case completion =>
    intro g u id w rest s hin hrun
    obtain ⟨t, hrow, hops⟩ := execSeqCompletion_seqOps hin hrun
    exact ⟨t, hrow, congrArg Prod.fst hops, congrArg Prod.snd hops⟩
  case own =>
    intro g n e rest s hin hrun he ht hen hs hl
    obtain ⟨a, ha, hents, -⟩ := Atoll.accept_free ht hs hl
    have hrow := execLaneEntryArrival_own hrun
    rw [State.ownArrival_accepted hin he hen ha] at hrow
    refine ⟨_, hrow, State.onlyAtoll_trans (s.onlyAtoll_setAtoll g a) (State.onlyAtoll_modAtoll _ g _), ?_⟩
    rw [State.modAtoll_atoll, State.setAtoll_atoll]
    exact ⟨rfl, hents⟩
  case lane =>
    intro g i e rest s hin hrun hpt he ht hlane hen hs hl
    obtain ⟨a, ha, hents, hlanes⟩ := Atoll.accept_free ht hs hl
    have hrow := execLaneEntryArrival_lane i hrun
    rw [State.laneArrival_accepted hin hpt he hlane hen ha] at hrow
    obtain ⟨cb, hleft⟩ := (s.setAtoll g a).leaveLane_atoll g i
    rw [State.setAtoll_atoll, hlanes, hin] at hleft
    refine ⟨_, hrow, ?_⟩
    dsimp only
    rw [hleft]
    exact ⟨Tbl.getD_set_self .., hents⟩
  case expiry =>
    intro g n e rest s hin hhold hrun he ht
    refine ⟨_, execEpochHoldExpiry_own hin hhold hrun he ht, ?_⟩
    dsimp only
    rw [State.epochDiscard_atoll, State.modAtoll_atoll]
    exact ⟨rfl, rfl, rfl⟩
  case epoch =>
    intro g q e rest s hq hrun ht hk
    obtain ⟨f, hrow, hf⟩ := execQueueHeadToken_epoch hq hrun ht hk
    refine ⟨_, hrow, s.onlyAtoll_modAtoll g f, ?_⟩
    rw [State.modAtoll_atoll, hf, Atoll.closeQueue_queue, hq]
    exact ⟨rfl, rfl⟩
  case halt =>
    intro g q u p e rest s hq hrun ht hk hr hne
    refine ⟨_, execQueueHeadToken_halt hq hrun ht hk hr, s.onlyAtoll_setAtoll g _, ?_, ?_⟩
    all_goals rw [State.setAtoll_atoll]
    · rw [Atoll.modSeq_queue, Atoll.popQueue, Atoll.modQueue_queue, hq]
      rfl
    · rw [Atoll.modSeq_seq]
      exact congrArg Sequencer.state (if_neg hne)
  case refill =>
    intro g q s hrun hs hl
    refine ⟨_, execSpillRefill_moves hrun hs hl, s.onlyAtoll_modAtoll g _, ?_⟩
    rw [State.modAtoll_atoll, Atoll.modQueue_queue]
    exact ⟨rfl, rfl⟩
  case credit =>
    intro g l s hc
    refine ⟨_, execLaneCreditReturn_adds hc, s.onlyAtoll_modAtoll g _, ?_⟩
    rw [State.modAtoll_atoll]
    exact ⟨Tbl.getD_set_self .., Tbl.getD_set_self ..⟩
  case starve =>
    intro g v o x y s hcur hst hrun
    obtain ⟨r, hu, hcls, hrow⟩ := execJoinStarve_starved hcur hst hrun
    have hflt : (((s.raise r).dropVec g v).seqError g (o.seqOf v) 5).flt = (s.raise r).flt := State.seqError_flt ..
    refine ⟨_, hrow, ?_, ?_, ?_, ?_⟩
    · rw [← hu, ← hcls]
      exact (s.recorded_raise r).mono (congrArg FaultSt.collectors hflt)
    · rw [State.seqError_atoll, Atoll.modSeq_vec, State.dropVec_cur]
    · rw [State.seqError_atoll, Atoll.modSeq_seq]
    · rw [hflt]
      rfl

end Sys2Proof.Machine
end

section
/-! SUPPORT. Catalogue writes and the synchronisation objects of a partition (04 R97, 05 R132, 12 R315, 13 R330, R331). -/

namespace Sys2Proof.Machine

/-! ### Runs of table entries -/

/-- Entries set at the keys first to first + n - 1, in rising order; every other key is left. -/
theorem Tbl.get?_setRange {α : Type} (t : Tbl α) (first n : Nat) (f : Nat → α) (j : Nat) :
    Tbl.get? ((List.range n).foldl (fun d k => Tbl.set d (first + k) (f k)) t) j =
      if first ≤ j ∧ j < first + n then some (f (j - first)) else Tbl.get? t j := by
  induction n with
  | zero => rw [if_neg (by omega)]; rfl
  | succ n ih =>
    rw [List.range_succ, List.foldl_append, List.foldl_cons, List.foldl_nil]
    by_cases hj : j = first + n
    · subst hj
      rw [Tbl.get?_set_self, if_pos (by omega), Nat.add_sub_cancel_left]
    · have hiff : (first ≤ j ∧ j < first + n) ↔ (first ≤ j ∧ j < first + (n + 1)) := by omega
      rw [Tbl.get?_set_ne _ _ hj, ih]
      exact if_congr hiff rfl rfl

/-- Keys removed one after another are those that one filter removes. -/
theorem Tbl.foldl_erase {α : Type} (ks : List Nat) (f : Nat → Nat) (t : Tbl α) :
    ks.foldl (fun d i => Tbl.erase d (f i)) t = t.filter fun e => ks.all fun i => e.1 != f i := by
  induction ks generalizing t with
  | nil => simp
  | cons i ks ih =>
    rw [List.foldl_cons, ih, Tbl.erase, List.filter_filter]
    simp only [List.all_cons, Bool.and_comm]

/-- A key of the keys removed has no entry. -/
theorem Tbl.get?_foldl_erase {α : Type} {ks : List Nat} (f : Nat → Nat) (t : Tbl α) {k : Nat} (h : k ∈ ks) :
    Tbl.get? (ks.foldl (fun d i => Tbl.erase d (f i)) t) (f k) = none := by
  rw [Tbl.foldl_erase]
  refine Tbl.get?_filter_removed _ _ fun v => ?_
  rw [List.all_eq_false]
  exact ⟨k, h, by simp⟩

/-! ### The end of a mailbox command (12 R311, R313) -/

/-- The end of a command changes the mailboxes alone. -/
theorem State.mbEnd_frame (s : State) (m : Nat) (c : MbCmd) (st off result : Nat) (data : List Byte) :
    s.mbEnd m c st off result data = { s with mailboxes := (s.mbEnd m c st off result data).mailboxes } := by
  unfold State.mbEnd State.mbFin
  split <;> rfl

/-- The end of a command is its answer. -/
theorem State.mbEnd_answers (s : State) (m : Nat) (c : MbCmd) (st off result : Nat) (data : List Byte) :
    s.answers (s.mbEnd m c st off result data) m c st off result data := by
  have hleft : ∀ x ∈ (s.mbox m).started.filter (·.order != c.order) ++ (s.mbox m).running.filter (·.order != c.order),
      x.order ≠ c.order := by
    intro x hx
    simp only [List.mem_append, List.mem_filter, bne_iff_ne] at hx
    exact hx.elim And.right And.right
  unfold State.mbEnd State.mbFin
  split
  · next hd =>
    refine ⟨?_, ?_, fun n hn => State.modMbox_mbox_ne s _ hn⟩
    · rw [State.modMbox_mbox]
      exact hleft
    · rw [State.modMbox_mbox, if_pos hd, List.append_nil]
  · next hd =>
    refine ⟨?_, ?_, fun n hn => (State.modMbox_mbox_ne _ _ hn).trans (State.modMbox_mbox_ne s _ hn)⟩
    · rw [State.modMbox_mbox, State.modMbox_mbox]
      exact hleft
    · rw [State.modMbox_mbox, State.modMbox_mbox, if_neg hd]

/-- The end of a command after a change of memory is its answer in the state before. -/
theorem State.modMem_mbEnd_answers (s : State) (f : MemSt → MemSt) (m : Nat) (c : MbCmd) (st off result : Nat)
    (data : List Byte) : s.answers ((s.modMem f).mbEnd m c st off result data) m c st off result data :=
  (s.modMem f).mbEnd_answers m c st off result data

/-- It leaves that change of memory and the mailboxes, and nothing else. -/
theorem State.modMem_mbEnd_frame (s : State) (f : MemSt → MemSt) (m : Nat) (c : MbCmd) (st off result : Nat)
    (data : List Byte) : (s.modMem f).mbEnd m c st off result data =
      { s with mailboxes := ((s.modMem f).mbEnd m c st off result data).mailboxes, mem := f s.mem } :=
  (s.modMem f).mbEnd_frame m c st off result data

/-- The command that a row takes has the row's opcode. -/
theorem State.mbFirst.op {s : State} {m op : Nat} {c : MbCmd} (h : s.mbFirst m op c) : mbOp c.img = op := by
  unfold State.mbFirst State.mbNext at h
  split at h
  · cases h
  · have hc := List.find?_some h
    simp only [Bool.and_eq_true, beq_iff_eq] at hc
    exact hc.1

/-- The row of a command on a partition that exists acts on its first command. -/
theorem State.mbPartRow_first {s : State} {m op : Nat} {c : MbCmd} {x : Part} (go : MbCmd → Nat → Part → State)
    (h : s.mbFirst m op c) (hp : s.part? (mbPartition c.img) = some x) :
    s.mbPartRow m op go = .next (go c (mbPartition c.img) x) := by
  unfold State.mbFirst at h
  simp only [State.mbPartRow, State.mbRow, h, hp]

/-! ### Catalogue writes -/

/-- A catalogue write that no reconfiguration holds is applied. -/
theorem State.catRow_applied {s : State} {m op : Nat} {c : MbCmd} {x : Part} (bad : Option Nat)
    (h : s.mbFirst m op c) (hp : s.part? (mbPartition c.img) = some x) (hw : s.mem.catWaiting = [])
    (hh : s.catHeld c.img = false) : s.catRow m op bad = .next (s.catWrite m c (mbPartition c.img) bad) := by
  rw [State.catRow, State.mbPartRow_first _ h hp]
  simp [hw, hh]

/-- A catalogue write that a reconfiguration holds is put in line (13 R331). -/
theorem State.catRow_held {s : State} {m op : Nat} {c : MbCmd} {x : Part} (bad : Option Nat)
    (h : s.mbFirst m op c) (hp : s.part? (mbPartition c.img) = some x) (hw : s.mem.catWaiting = [])
    (hh : s.catHeld c.img = true) : s.catRow m op bad = .next (s.modMem fun q => { q with catWaiting := [(m, c)] }) := by
  rw [State.catRow, State.mbPartRow_first _ h hp]
  simp [hw, hh, State.modMem]

/-- Each opcode applies its own kind of catalogue write. -/
theorem State.catWrite_directory {c : MbCmd} (h : mbOp c.img = 0x306) (s : State) (m p : Nat) (bad : Option Nat) :
    s.catWrite m c p bad = s.writeDirectory m c p bad := if_pos h

theorem State.catWrite_record {c : MbCmd} (h : mbOp c.img = 0x307) (s : State) (m p : Nat) (bad : Option Nat) :
    s.catWrite m c p bad = s.writeRecordCmd m c p := by simp [State.catWrite, h]

theorem State.catWrite_list {c : MbCmd} (h : mbOp c.img = 0x308) (s : State) (m p : Nat) (bad : Option Nat) :
    s.catWrite m c p bad = s.writeList m c p := by simp [State.catWrite, h]

/-- A directory write of one entry, neither over another partition's nor in the catalogue region, stores it (13 R330). -/
theorem State.writeDirectory_one {s : State} {c : MbCmd} {p : Nat} (m : Nat) (bad : Option Nat) (hn : fld c.img 18 0 8 = 1)
    (hcat : fld (dirEntry c.img 0) 0 0 2 ≠ 2)
    (hown : fld (Tbl.getD s.mem.directory (fld c.img 16 0 16) 0) 0 0 2 = 0 ∨
      fld (Tbl.getD s.mem.directory (fld c.img 16 0 16) 0) 1 0 5 = p) :
    s.writeDirectory m c p bad = (s.modMem fun q =>
      { q with directory := Tbl.set q.directory (fld c.img 16 0 16) (dirEntry c.img 0) }).mbEnd m c mbDone := by
  simp only [BitVec.ofNat_eq_ofNat] at hown
  have hforeign : (fld (Tbl.getD s.mem.directory (fld c.img 16 0 16) 0#128) 0 0 2 != 0 &&
      fld (Tbl.getD s.mem.directory (fld c.img 16 0 16) 0#128) 1 0 5 != p) = false := by
    rcases hown with h | h <;> simp [h]
  have hone : List.range 1 = [0] := rfl
  simp [State.writeDirectory, hn, hone, hcat, hforeign]

/-- A record of another partition keeps its place (04 R97). -/
theorem State.writeRecordCmd_foreign {s : State} {c : MbCmd} {p : Nat} (m : Nat)
    (hv : flag (Tbl.getD s.mem.records (fld c.img 16 0 16) 0) 0 0 = true)
    (hp : fld (Tbl.getD s.mem.records (fld c.img 16 0 16) 0) 3 0 5 ≠ p) : s.writeRecordCmd m c p = s.mbEnd m c mbBusy :=
  if_pos (.inl ⟨hv, hp⟩)

/-- A record over a free one or an own one, whose pairs meet no other partition's list, is stored. -/
theorem State.writeRecordCmd_stored {s : State} {c : MbCmd} {p : Nat} (m : Nat)
    (hown : flag (Tbl.getD s.mem.records (fld c.img 16 0 16) 0) 0 0 = false ∨
      fld (Tbl.getD s.mem.records (fld c.img 16 0 16) 0) 3 0 5 = p)
    (hlist : ∀ l, recordList (BitVec.ofNat 512 (fld c.img 24 0 512)) = some l → (s.foreignLists p).any (rangeMeets l) = false) :
    s.writeRecordCmd m c p = (s.modMem fun q =>
      { q with records := Tbl.set q.records (fld c.img 16 0 16) (BitVec.ofNat 512 (fld c.img 24 0 512)) }).mbEnd m c mbDone := by
  refine if_neg ?_
  rintro (⟨hv, hp⟩ | hmeets)
  · exact hown.elim (fun h => Bool.false_ne_true (h.symm.trans hv)) hp
  · cases hl : recordList (BitVec.ofNat 512 (fld c.img 24 0 512)) with
    | none => simp [hl] at hmeets
    | some l => simp [hl, hlist l hl] at hmeets

/-- A list that meets no other partition's is stored. -/
theorem State.writeList_stored {s : State} {c : MbCmd} {p : Nat} (m : Nat)
    (hfree : (s.foreignLists p).any (rangeMeets (fld c.img 16 0 32, fld c.img 20 0 8)) = false) :
    s.writeList m c p = (s.modMem fun q => { q with
      listMem := (List.range (fld c.img 20 0 8)).foldl
        (fun d k => Tbl.set d (fld c.img 16 0 32 + k) (BitVec.ofNat 32 (fld c.img (24 + 4 * k) 0 32))) q.listMem }).mbEnd
          m c mbDone :=
  if_neg (by simp [hfree])

/-- The state after write c of mailbox m has left the line of held writes. -/
def State.catTaken (s : State) (m : Nat) (c : MbCmd) : State :=
  s.modMem fun q => { q with catWaiting := q.catWaiting.filter fun e => !(e.1 == m && e.2.order == c.order) }

theorem State.catTaken_catWaiting {s : State} {m : Nat} {c : MbCmd} {rest : List (Nat × MbCmd)}
    (hw : s.mem.catWaiting = (m, c) :: rest) :
    (s.catTaken m c).mem.catWaiting = rest.filter fun e => !(e.1 == m && e.2.order == c.order) := by
  simp [State.catTaken, hw]

/-- The first held write, once no reconfiguration holds it, leaves the line and is applied (13 R331). -/
theorem execCatalogueWriteRelease_first {s : State} {m : Nat} {c : MbCmd} {rest : List (Nat × MbCmd)} {x : Part}
    (hrun : s.hubRuns = true) (hw : s.mem.catWaiting = (m, c) :: rest) (hh : s.catHeld c.img = false)
    (hp : s.part? (mbPartition c.img) = some x) :
    execCatalogueWriteRelease s = .next ((s.catTaken m c).catWrite m c (mbPartition c.img) none) := by
  simp [execCatalogueWriteRelease, State.hubServes, hrun, hw, hh, hp, State.catTaken]

/-! ### Synchronisation objects of the module -/

/-- SYNC_ALLOC of named objects that are free gives them to the partition with counts 0. -/
theorem execSyncAlloc_free {m : Fin 34} {s : State} {c : MbCmd} {x : Part} (h : s.mbFirst m 0x30C c)
    (hp : s.part? (mbPartition c.img) = some x) (hname : fld c.img 16 0 16 ≠ 0xFFFF)
    (hfit : fld c.img 16 0 16 + fld c.img 18 0 16 ≤ 8192)
    (hfree : ∀ i, i < fld c.img 18 0 16 → Tbl.get? s.mem.objOwner (fld c.img 16 0 16 + i) = none) :
    execSyncAlloc m s = .next ((s.modMem fun q => { q with
      objOwner := (List.range (fld c.img 18 0 16)).foldl
        (fun t i => Tbl.set t (fld c.img 16 0 16 + i) (mbPartition c.img)) q.objOwner,
      modObjs := (List.range (fld c.img 18 0 16)).foldl
        (fun t i => Tbl.erase t (fld c.img 16 0 16 + i)) q.modObjs }).mbEnd
        m c mbDone 0xFFFF (fld c.img 16 0 16)) := by
  have hall : ((List.range (fld c.img 18 0 16)).all fun i => (Tbl.get? s.mem.objOwner (fld c.img 16 0 16 + i)).isNone) = true := by
    simpa using hfree
  rw [execSyncAlloc, State.mbPartRow_first _ h hp]
  simp only [if_neg hname, hfit, hall, decide_true, Bool.and_self, if_true]

theorem State.ownsObj_some (s : State) (p o : Nat) : s.ownsObj (some p) o = true ↔ Tbl.get? s.mem.objOwner o = some p := by
  simp [State.ownsObj]

/-- SYNC_FREE of owned objects that nobody waits for takes them out of both tables. -/
theorem execSyncFree_owned {m : Fin 34} {s : State} {c : MbCmd} {x : Part} (h : s.mbFirst m 0x30D c)
    (hp : s.part? (mbPartition c.img) = some x) (hw : s.mem.modWaits = [])
    (hown : ∀ i, i < fld c.img 18 0 16 → Tbl.get? s.mem.objOwner (fld c.img 16 0 16 + i) = some (mbPartition c.img)) :
    execSyncFree m s = .next ((s.modMem fun q => { q with
      objOwner := q.objOwner.filter fun e =>
        !(decide (fld c.img 16 0 16 ≤ e.1) && decide (e.1 < fld c.img 16 0 16 + fld c.img 18 0 16)),
      modObjs := q.modObjs.filter fun e =>
        !(decide (fld c.img 16 0 16 ≤ e.1) && decide (e.1 < fld c.img 16 0 16 + fld c.img 18 0 16)) }).mbEnd m c mbDone) := by
  have hall : ((List.range (fld c.img 18 0 16)).all fun i =>
      s.ownsObj (some (mbPartition c.img)) (fld c.img 16 0 16 + i)) = true := by
    simpa [State.ownsObj_some] using hown
  rw [execSyncFree, State.mbPartRow_first _ h hp]
  simp only [hall, hw, List.filter_nil, List.foldl_nil, if_true]

/-- SYNC_FREE of an object that the partition does not own frees nothing. -/
theorem execSyncFree_foreign {m : Fin 34} {s : State} {c : MbCmd} {x : Part} {k : Nat} (h : s.mbFirst m 0x30D c)
    (hp : s.part? (mbPartition c.img) = some x) (hk : k < fld c.img 18 0 16)
    (hown : Tbl.get? s.mem.objOwner (fld c.img 16 0 16 + k) ≠ some (mbPartition c.img)) :
    execSyncFree m s = .next (s.mbEnd m c mbNoResource) := by
  have hall : ¬ ((List.range (fld c.img 18 0 16)).all fun i =>
      s.ownsObj (some (mbPartition c.img)) (fld c.img 16 0 16 + i)) = true :=
    fun hall => hown ((s.ownsObj_some _ _).1 (List.all_eq_true.1 hall k (List.mem_range.2 hk)))
  rw [execSyncFree, State.mbPartRow_first _ h hp]
  dsimp only
  rw [if_neg hall]

/-- Settles O32: each command ends as the lemmas above say, after one change of memory that the laws of tables read back. -/
theorem catalogue : Obligations.Catalogue := by
  refine ⟨?directory, ?record, ?recordForeign, ?held, ?list, ?release, ?alloc, ?free, ?freeForeign⟩
  case directory =>
    intro m c x s p e h hp hw hh hn hcat hown
    have hrow := State.catRow_applied none h hp hw hh
    rw [State.catWrite_directory h.op, State.writeDirectory_one m none hn hcat hown] at hrow
    refine ⟨_, hrow, State.modMem_mbEnd_answers .., ?_, fun n hne => ?_, ?_⟩
    all_goals rw [State.modMem_mbEnd_frame]
    · exact Tbl.get?_set_self _ _ _
    · exact Tbl.get?_set_ne _ _ hne
  case record =>
    intro m c x s p r h hp hw hh hown hlist
    have hrow := State.catRow_applied none h hp hw hh
    rw [State.catWrite_record h.op, State.writeRecordCmd_stored m hown hlist] at hrow
    refine ⟨_, hrow, State.modMem_mbEnd_answers .., ?_, ?_⟩
    all_goals rw [State.modMem_mbEnd_frame]
    exact Tbl.get?_set_self _ _ _
  case recordForeign =>
    intro m c x s h hp hw hh hv hforeign
    have hrow := State.catRow_applied none h hp hw hh
    rw [State.catWrite_record h.op, State.writeRecordCmd_foreign m hv hforeign] at hrow
    refine ⟨_, hrow, s.mbEnd_answers m c mbBusy 0xFFFF 0 [], ?_⟩
    rw [State.mbEnd_frame]
  case held =>
    intro m c x s h hp hw hh
    exact ⟨_, State.catRow_held none h hp hw hh, rfl⟩
  case list =>
    intro m c x k s p h hp hw hh hfree hk
    have hrow := State.catRow_applied none h hp hw hh
    rw [State.catWrite_list h.op, State.writeList_stored m hfree] at hrow
    refine ⟨_, hrow, State.modMem_mbEnd_answers .., ?_, fun n hn => ?_, ?_⟩
    all_goals rw [State.modMem_mbEnd_frame]
    · dsimp only
      rw [Tbl.get?_setRange, if_pos (by omega), Nat.add_sub_cancel_left]
    · dsimp only
      rw [Tbl.get?_setRange, if_neg (by omega)]
  case release =>
    intro m c rest x s r hrun hw hh hop hp hv hlist
    have hrow := execCatalogueWriteRelease_first hrun hw hh hp
    rw [State.catWrite_record hop, State.writeRecordCmd_stored (s := s.catTaken m c) m (.inl hv)
      fun l hl => by cases hlist.symm.trans hl] at hrow
    refine ⟨_, hrow, State.modMem_mbEnd_answers .., ?_, ?_⟩
    all_goals rw [State.modMem_mbEnd_frame]
    · exact Tbl.get?_set_self _ _ _
    · exact State.catTaken_catWaiting hw
  case alloc =>
    intro m c x k s o n h hp hname hfit hfree hk
    refine ⟨_, execSyncAlloc_free h hp hname hfit hfree, State.modMem_mbEnd_answers .., ?_, ?_, ?_⟩
    all_goals rw [State.modMem_mbEnd_frame]
    · dsimp only
      rw [Tbl.get?_setRange _ o n (fun _ => mbPartition c.img), if_pos (by omega)]
    · rw [State.modObj, Tbl.getD, Tbl.get?_foldl_erase (fun i => o + i) _ (List.mem_range.2 hk)]
      rfl
  case free =>
    intro m c x k s o n h hp hw hown hk
    have hhit : (decide (o ≤ o + k) && decide (o + k < o + n)) = true := by simp [hk]
    refine ⟨_, execSyncFree_owned h hp hw hown, State.modMem_mbEnd_answers .., ?_, ?_, ?_⟩
    all_goals rw [State.modMem_mbEnd_frame]
    · exact Tbl.get?_filter_removed _ _ fun _ => by rw [hhit]; rfl
    · rw [State.modObj, Tbl.getD, Tbl.get?_filter_removed _ _ fun _ => by rw [hhit]; rfl]
      rfl
  case freeForeign =>
    intro m c x k s h hp hk hown
    exact ⟨_, execSyncFree_foreign h hp hk hown, s.mbEnd_answers m c mbNoResource 0xFFFF 0 [],
      s.mbEnd_frame m c mbNoResource 0xFFFF 0 []⟩

end Sys2Proof.Machine
end

section
/-! SUPPORT. Waits and signals of a scalar core on the synchronisation objects of its own atoll (05 R130-R133). -/

namespace Sys2Proof.Machine

/-! ### The end of an instruction -/

@[simp] theorem Core.advance_reg (k : Core) (len r : Nat) : (k.advance len).reg r = k.reg r := rfl

@[simp] theorem Core.advance_pc (k : Core) (len : Nat) : (k.advance len).pc = k.pc + BitVec.ofNat 64 len := rfl

@[simp] theorem Core.setReg_pc (k : Core) (r : Nat) (v : DWord) : (k.setReg r v).pc = k.pc := by
  unfold Core.setReg
  split <;> rfl

/-- A core that returns a value has retired the instruction and holds the value in rd. -/
theorem State.coreRet_core (s : State) (g c rd : Nat) (v : DWord) :
    ((s.coreRet g c rd v).atoll g).core c = (((s.atoll g).core c).setReg rd v).advance 4 := by
  rw [State.coreRet, State.modAtoll_atoll, Atoll.modCore_core]

theorem State.coreRet_pc (s : State) (g c rd : Nat) (v : DWord) :
    (((s.coreRet g c rd v).atoll g).core c).pc = ((s.atoll g).core c).pc + 4 := by
  rw [State.coreRet_core, Core.advance_pc, Core.setReg_pc]
  rfl

theorem State.coreRet_block (s : State) (g c rd : Nat) (v : DWord) :
    (((s.coreRet g c rd v).atoll g).core c).block = .none := by
  rw [State.coreRet_core]
  rfl

theorem State.coreRet_rd (s : State) (g c : Nat) {rd : Nat} (v : DWord) (h : rd ≠ 0) :
    (((s.coreRet g c rd v).atoll g).core c).reg rd = v := by
  rw [State.coreRet_core, Core.advance_reg, Core.reg_setReg, if_neg h, if_pos rfl]

theorem State.coreRet_reg_ne (s : State) (g c : Nat) {rd r : Nat} (v : DWord) (h : r ≠ rd) :
    (((s.coreRet g c rd v).atoll g).core c).reg r = ((s.atoll g).core c).reg r := by
  rw [State.coreRet_core, Core.advance_reg, Core.reg_setReg, if_neg h]
  split
  · next h0 => rw [h0]; rfl
  · rfl

theorem State.onlyCore_coreRet (s : State) (g c rd : Nat) (v : DWord) : s.onlyCore (s.coreRet g c rd v) g c :=
  s.onlyCore_modCore g c _

@[simp] theorem State.coreRet_waits (s : State) (g c rd : Nat) (v : DWord) :
    ((s.coreRet g c rd v).atoll g).waits = (s.atoll g).waits := by
  rw [State.coreRet, State.modAtoll_atoll]
  rfl

/-! ### The waiters of a core -/

@[simp] theorem State.modMem_atoll (s : State) (f : MemSt → MemSt) (g : Nat) : (s.modMem f).atoll g = s.atoll g := rfl

/-- A wait entry that stays when core c of atoll g stops waiting. -/
def WaitEntry.kept (g c : Nat) (e : WaitEntry) : Bool :=
  match e.who with
  | .core g' c' _ => !(g' == g && c' == c)
  | _ => true

theorem State.dropWaits_atoll (s : State) (g c : Nat) :
    (s.dropWaits g c).atoll g = { s.atoll g with waits := (s.atoll g).waits.filter (WaitEntry.kept g c) } := by
  rw [State.dropWaits, State.modMem_atoll, State.modAtoll_atoll]
  rfl

/-- A core that holds the only wait entry of its atoll leaves none. -/
theorem State.dropWaits_waits_last {s : State} {g c : Nat} {e : WaitEntry} {k : Nat} (h : (s.atoll g).waits = [e])
    (hwho : e.who = .core g c k) : ((s.dropWaits g c).atoll g).waits = [] := by
  simp [State.dropWaits_atoll, h, WaitEntry.kept, hwho]

/-! ### Waiting on objects of the own atoll -/

theorem State.objCount_own {s : State} {n : DWord} (g : Nat) (h : objScope n = 0) :
    s.objCount g n = (s.atoll g).obj (objNumber n) := if_pos h

/-- The target of a SYNC.WAIT is the low word of rs2. -/
theorem setWidth_word_toNat (v : DWord) : (v.setWidth 32 : Word).toNat = bits v.toNat 0 32 := countOf_toNat v

theorem waitable_own {n : DWord} (hok : objNameOk n = true) (hscope : objScope n = 0) : waitable n = true := by
  simp [waitable, hok, hscope]

/-- Entry m of a list is the first whose object's count has reached its target (05 R130). -/
def State.firstMet (s : State) (g : Nat) (objs : List (DWord × Word)) (m : Nat) : Prop :=
  objs.findIdx? (fun o => decide (o.2.toNat ≤ (s.objCount g o.1).toNat)) = some m

/-- A list of one own object is met when that object's count has reached its target. -/
theorem State.firstMet_one {s : State} {g : Nat} {n : DWord} {v : Word} (hscope : objScope n = 0)
    (h : v.toNat ≤ ((s.atoll g).obj (objNumber n)).toNat) : s.firstMet g [(n, v)] 0 := by
  simp [State.firstMet, State.objCount_own g hscope, h]

/-- A wait on own objects, one of them met, answers at once. -/
theorem State.coreWait_met {s : State} {g m : Nat} {objs : List (DWord × Word)} (c rd : Nat) (any : Bool)
    (hok : ∀ o ∈ objs, objNameOk o.1 = true) (hscope : ∀ o ∈ objs, objScope o.1 = 0) (hm : s.firstMet g objs m) :
    s.coreWait g c rd objs any = s.coreRet g c rd (if any then BitVec.ofNat 64 m else 0) := by
  have hname : (objs.any fun o => !waitable o.1) = false := by
    rw [List.any_eq_false]
    intro o ho
    simp [waitable_own (hok o ho) (hscope o ho)]
  have howner : (objs.any fun o => objScope o.1 == 2 && !s.ownsObj (s.partOf g) (objNumber o.1)) = false := by
    rw [List.any_eq_false]
    intro o ho
    simp [hscope o ho]
  unfold State.firstMet at hm
  simp only [State.coreWait, hname, howner, hm, Bool.false_eq_true, if_false]

/-- A wait on one own object, not met, leaves one waiter and the core blocked. -/
theorem State.coreWait_blocks {s : State} {g : Nat} {n : DWord} {v : Word} (c rd : Nat) (hok : objNameOk n = true)
    (hscope : objScope n = 0) (hroom : s.mem.modWaits.length ≤ 1024)
    (hlt : ((s.atoll g).obj (objNumber n)).toNat < v.toNat) :
    s.coreWait g c rd [(n, v)] false = s.modAtoll g fun a =>
      { a with waits := a.waits ++ [({ obj := objNumber n, target := v, who := .core g c 0 } : WaitEntry)] }.modCore c fun k =>
        { k with block := .wait rd [(n, v)] false s.count } := by
  have hfits : s.waitRoom [n] = true := by simp [State.waitRoom, hscope, hroom]
  have hunmet : ¬ v.toNat ≤ (s.objCount g n).toNat := by rwa [State.objCount_own g hscope, Nat.not_le]
  have hone : List.range 1 = [0] := rfl
  simp [State.coreWait, waitable_own hok hscope, hscope, hunmet, hfits, hone]
  rfl

theorem leNat_lt (bs : List Byte) : leNat bs < 256 ^ bs.length := by
  induction bs with
  | nil => simp [leNat]
  | cons b bs ih =>
    rw [leNat, List.length_cons, pow_succ]
    have hb := b.isLt
    omega

theorem Mem.readNat_lt (m : Mem) (a n : Nat) : Mem.readNat m a n < 256 ^ n := by
  have h := leNat_lt (Mem.readBytes m a n)
  rwa [Mem.readBytes, List.length_map, List.length_range] at h

/-- The n names and targets that a WAITANY reads from private SRAM (05 R130). -/
def Core.waitList (k : Core) (ad n : Nat) : List (DWord × Word) :=
  (List.range n).map fun i =>
    (BitVec.ofNat 64 (Mem.readNat k.sram (ad + 16 * i) 8), BitVec.ofNat 32 (Mem.readNat k.sram (ad + 16 * i + 8) 4))

/-- The target of an entry is the four bytes read. -/
theorem Mem.readNat_word_toNat (m : Mem) (a : Nat) : (BitVec.ofNat 32 (Mem.readNat m a 4)).toNat = Mem.readNat m a 4 := by
  have h := Mem.readNat_lt m a 4
  rw [BitVec.toNat_ofNat]
  omega

/-- Entry m of a WAITANY list of own objects is the first one met when the entries before it are not. -/
theorem State.firstMet_waitList {s : State} {g ad n m : Nat} {k : Core} (hm : m < n)
    (hscope : ∀ i, i < n → objScope (BitVec.ofNat 64 (Mem.readNat k.sram (ad + 16 * i) 8)) = 0)
    (hmet : Mem.readNat k.sram (ad + 16 * m + 8) 4 ≤
      ((s.atoll g).obj (objNumber (BitVec.ofNat 64 (Mem.readNat k.sram (ad + 16 * m) 8)))).toNat)
    (hbefore : ∀ i, i < m → ((s.atoll g).obj (objNumber (BitVec.ofNat 64 (Mem.readNat k.sram (ad + 16 * i) 8)))).toNat <
      Mem.readNat k.sram (ad + 16 * i + 8) 4) :
    s.firstMet g (k.waitList ad n) m := by
  refine List.findIdx?_eq_some_iff_getElem.2 ⟨by simpa [Core.waitList] using hm, ?_, fun i hi => ?_⟩
  · simpa only [Core.waitList, List.getElem_map, List.getElem_range, State.objCount_own g (hscope m hm),
      Mem.readNat_word_toNat, decide_eq_true_eq] using hmet
  · simpa only [Core.waitList, List.getElem_map, List.getElem_range, State.objCount_own g (hscope i (hi.trans hm)),
      Mem.readNat_word_toNat, decide_eq_true_eq, not_le] using hbefore i hi

/-! ### Arming and signalling objects of an atoll -/

theorem signalCount_toNat (c : Word) (inc : Nat) : (signalCount c inc).toNat = min 0xFFFFFFFF (c.toNat + inc) := by
  unfold signalCount satAdd32
  split
  · rw [BitVec.toNat_ofNat]
    omega
  · rw [Nat.min_eq_left (by omega)]
    rfl

/-- The atoll after object o got count v, before any waiter wakes. -/
def Atoll.setObj (a : Atoll) (o : Nat) (v : Word) : Atoll := { a with objs := Tbl.set a.objs o v }

@[simp] theorem Atoll.setObj_obj (a : Atoll) (o : Nat) (v : Word) : (a.setObj o v).obj o = v := Tbl.getD_set_self ..

theorem Atoll.setObj_obj_ne (a : Atoll) {o q : Nat} (v : Word) (h : q ≠ o) : (a.setObj o v).obj q = a.obj q :=
  Tbl.getD_set_ne _ _ _ h

@[simp] theorem Atoll.setObj_core (a : Atoll) (o : Nat) (v : Word) (c : Nat) : (a.setObj o v).core c = a.core c := rfl

@[simp] theorem Atoll.setObj_waits (a : Atoll) (o : Nat) (v : Word) : (a.setObj o v).waits = a.waits := rfl

/-- A signal arms its object with the saturated sum. -/
theorem State.signalAtoll_eq_armAtoll (s : State) (g o inc : Nat) :
    s.signalAtoll g o inc = s.armAtoll g o (signalCount ((s.atoll g).obj o) inc) := rfl

theorem State.armAtoll_eq_wakeAtollObj (s : State) (g o : Nat) (v : Word) :
    s.armAtoll g o v = (s.modAtoll g fun a => a.setObj o v).wakeAtollObj g o := rfl

/-- An object on which nobody waits wakes nobody. -/
theorem State.wakeAtollObj_unwaited {s : State} {g o : Nat} (h : ∀ w ∈ (s.atoll g).waits, w.obj ≠ o) :
    s.wakeAtollObj g o = s := by
  have hmet (v : Word) : ((s.atoll g).waits.filter fun w => w.obj == o && decide (w.target.toNat ≤ v.toNat)) = [] := by
    rw [List.filter_eq_nil_iff]
    intro w hw
    simp [h w hw]
  rw [State.wakeAtollObj, hmet, List.foldl_nil]

/-- A blocked core whose wait is met returns as if it had been met at once, its wait entries gone. -/
theorem State.wakeCore_met {s : State} {g c rd m : Nat} {objs : List (DWord × Word)} {any : Bool} {since : DWord}
    (hb : ((s.atoll g).core c).block = .wait rd objs any since) (hm : s.firstMet g objs m) :
    s.wakeCore g c = (s.dropWaits g c).coreRet g c rd (if any then BitVec.ofNat 64 m else 0) := by
  unfold State.firstMet at hm
  simp only [State.wakeCore, hb, hm, State.coreRet]

/-- A count that has reached the target of the object's only waiter, a core, answers that core's wait. -/
theorem State.wakeAtollObj_core {s : State} {g c rd k : Nat} {n : DWord} {t : Word} {since : DWord} (hscope : objScope n = 0)
    (hb : ((s.atoll g).core c).block = .wait rd [(n, t)] false since)
    (hw : (s.atoll g).waits = [{ obj := objNumber n, target := t, who := .core g c k }])
    (hmet : t.toNat ≤ ((s.atoll g).obj (objNumber n)).toNat) :
    s.wakeAtollObj g (objNumber n) = (s.dropWaits g c).coreRet g c rd 0 := by
  have hwake : s.wakeAtollObj g (objNumber n) = s.wakeCore g c := by simp [State.wakeAtollObj, hw, hmet]
  rw [hwake, State.wakeCore_met hb (State.firstMet_one hscope hmet)]
  rfl

/-- An object on which nobody waits takes its count. -/
theorem State.armAtoll_unwaited {s : State} {g o : Nat} (v : Word) (h : ∀ w ∈ (s.atoll g).waits, w.obj ≠ o) :
    s.armAtoll g o v = s.modAtoll g fun a => a.setObj o v := by
  rw [State.armAtoll_eq_wakeAtollObj, State.wakeAtollObj_unwaited]
  rwa [State.modAtoll_atoll]

/-- A count that meets the target of the object's only waiter, a core, answers that core's wait. -/
theorem State.armAtoll_wakes {s : State} {g c rd k : Nat} {n : DWord} {v t : Word} {since : DWord} (hscope : objScope n = 0)
    (hb : ((s.atoll g).core c).block = .wait rd [(n, t)] false since)
    (hw : (s.atoll g).waits = [{ obj := objNumber n, target := t, who := .core g c k }]) (hmet : t.toNat ≤ v.toNat) :
    s.armAtoll g (objNumber n) v =
      ((s.modAtoll g fun a => a.setObj (objNumber n) v).dropWaits g c).coreRet g c rd 0 := by
  rw [State.armAtoll_eq_wakeAtollObj]
  refine State.wakeAtollObj_core (k := k) (t := t) (since := since) hscope ?_ ?_ ?_
  all_goals rw [State.modAtoll_atoll]
  · rw [Atoll.setObj_core, hb]
  · rw [Atoll.setObj_waits, hw]
  · rwa [Atoll.setObj_obj]

/-! ### The rows -/

/-- The state after core c of atoll g retired a four-byte instruction that returns nothing. -/
def State.coreRetire (s : State) (g c : Nat) : State := s.modAtoll g fun a => a.modCore c fun k => k.advance 4

theorem State.coreRetire_atoll (s : State) (g c : Nat) :
    (s.coreRetire g c).atoll g = (s.atoll g).modCore c fun k => k.advance 4 := State.modAtoll_atoll ..

theorem execSyncWait_runs {g : Fin 320} {core : Fin 2} {s : State} (rd rs1 rs2 : Fin 32) (hrun : s.coreRuns g core = true) :
    execSyncWait g core rd rs1 rs2 s = .next (s.coreWait g core rd
      [(((s.atoll g).core core).reg rs1, (((s.atoll g).core core).reg rs2).setWidth 32)] false) := by
  simp [execSyncWait, hrun]

/-- A WAITANY of 1 to 8 entries within private SRAM, their reserved words 0, waits on the list read. -/
theorem execSyncWaitany_runs {g : Fin 320} {core : Fin 2} {ad n : Nat} {s : State} (rd : Fin 32) {rs1 rs2 : Fin 32}
    (hrun : s.coreRuns g core = true) (had : (((s.atoll g).core core).reg rs1).toNat = ad)
    (hn : (((s.atoll g).core core).reg rs2).toNat = n) (h0 : 0 < n) (h8 : n ≤ 8) (hfit : ad + 16 * n ≤ 0x10000)
    (hres : ∀ i, i < n → Mem.readNat ((s.atoll g).core core).sram (ad + 16 * i + 12) 4 = 0) :
    execSyncWaitany g core rd rs1 rs2 s = .next (s.coreWait g core rd (((s.atoll g).core core).waitList ad n) true) := by
  have hzero : ((List.range n).any fun i => Mem.readNat ((s.atoll g).core core).sram (ad + 16 * i + 12) 4 != 0) = false := by
    rw [List.any_eq_false]
    intro i hi
    simp [hres i (List.mem_range.1 hi)]
  simp only [execSyncWaitany, hrun, had, hn, hzero, Bool.not_true, Bool.false_eq_true, if_false]
  rw [if_neg (by omega), if_neg (by omega)]
  rfl

/-- SYNC.SIGNAL of an own object gives it the saturated sum (05 R130). -/
theorem execSyncSignal_own {g : Fin 320} {core : Fin 2} {rs1 : Fin 32} {s : State} (rs2 : Fin 32)
    (hrun : s.coreRuns g core = true) (hok : objNameOk (((s.atoll g).core core).reg rs1) = true)
    (hscope : objScope (((s.atoll g).core core).reg rs1) = 0) :
    execSyncSignal g core rs1 rs2 s = .next ((s.coreRetire g core).armAtoll g (objNumber (((s.atoll g).core core).reg rs1))
      (signalCount ((s.atoll g).obj (objNumber (((s.atoll g).core core).reg rs1)))
        (bits (((s.atoll g).core core).reg rs2).toNat 0 16))) := by
  have hsum (o inc : Nat) : (s.coreRetire g core).signalAtoll g o inc =
      (s.coreRetire g core).armAtoll g o (signalCount ((s.atoll g).obj o) inc) := by
    rw [State.signalAtoll_eq_armAtoll, State.coreRetire_atoll]
    rfl
  rw [← hsum]
  simp [execSyncSignal, hrun, hok, hscope, State.coreRetire]

theorem execSyncArm_own {g : Fin 320} {core : Fin 2} {rs1 : Fin 32} {s : State} (rs2 : Fin 32)
    (hrun : s.coreRuns g core = true) (hok : objNameOk (((s.atoll g).core core).reg rs1) = true)
    (hscope : objScope (((s.atoll g).core core).reg rs1) = 0) :
    execSyncArm g core rs1 rs2 s = .next ((s.coreRetire g core).armAtoll g (objNumber (((s.atoll g).core core).reg rs1))
      ((((s.atoll g).core core).reg rs2).setWidth 32)) := by
  simp [execSyncArm, hrun, waitable_own hok hscope, hscope, State.coreRetire]

/-- An instruction that gives a count to an own object without waiters does just that and retires. -/
theorem State.coreRetire_armAtoll_unwaited {s : State} {g o : Nat} (c : Nat) (v : Word)
    (h : ∀ w ∈ (s.atoll g).waits, w.obj ≠ o) :
    s.onlyAtoll ((s.coreRetire g c).armAtoll g o v) g ∧
    ((s.coreRetire g c).armAtoll g o v).atoll g = ((s.atoll g).modCore c fun k => k.advance 4).setObj o v := by
  rw [State.armAtoll_unwaited v (by rwa [State.coreRetire_atoll])]
  refine ⟨State.onlyAtoll_trans (s.onlyAtoll_modAtoll g _) (State.onlyAtoll_modAtoll _ g _), ?_⟩
  rw [State.modAtoll_atoll, State.coreRetire_atoll]

/-- A wait that ends by its time-out answers -7 and leaves a record. -/
theorem execSyncWaitTimeout_ends {g : Fin 320} {core : Fin 2} {rd : Nat} {objs : List (DWord × Word)} {any : Bool}
    {since : DWord} {s : State} (hb : ((s.atoll g).core core).block = .wait rd objs any since) (hrun : s.unitRuns g = true) :
    ∃ r : RecIn, r.unit = s.coreUnit g core ∧ r.cls = clsTimeout ∧
      execSyncWaitTimeout g core s = .next (((s.dropWaits g core).coreRet g core rd (negStatus 7)).raise r) := by
  refine ⟨_, ?_, ?_, by simp only [execSyncWaitTimeout, hb, hrun, Bool.not_true, Bool.false_eq_true, if_false]; rfl⟩
  all_goals rfl

/-- Settles O13, instruction by instruction: the wait and signal lemmas above give the state after, and the laws of the core and
of the atoll read it back. -/
theorem synchronisation : Obligations.Synchronisation := by
  refine ⟨?met, ?blocks, ?waitany, ?signal, ?wakes, ?arm, ?timeout⟩
  case met =>
    intro g core rd rs1 rs2 s k hrun hok hscope hcount
    have hmet : s.firstMet g [(k.reg rs1, (k.reg rs2).setWidth 32)] 0 :=
      State.firstMet_one hscope (by rwa [setWidth_word_toNat])
    have hrow := execSyncWait_runs rd rs1 rs2 hrun
    rw [State.coreWait_met core rd false (by simpa using hok) (by simpa using hscope) hmet] at hrow
    exact ⟨_, hrow, s.onlyCore_coreRet .., fun hrd => s.coreRet_rd _ _ _ (by simpa using hrd), s.coreRet_pc ..,
      fun r hr => s.coreRet_reg_ne _ _ _ hr⟩
  case blocks =>
    intro g core rd rs1 rs2 s k hrun hok hscope hroom hcount
    have hrow := execSyncWait_runs rd rs1 rs2 hrun
    rw [State.coreWait_blocks core rd hok hscope hroom (by rwa [setWidth_word_toNat])] at hrow
    refine ⟨_, hrow, s.onlyAtoll_modAtoll g _, ?_⟩
    rw [State.modAtoll_atoll, Atoll.modCore_core]
    exact ⟨rfl, rfl, rfl⟩
  case waitany =>
    intro g core rd rs1 rs2 m s k nm tg hrun h0 h8 hfit hm hlist hmet hbefore
    choose hok hscope hres using hlist
    have hrow := execSyncWaitany_runs rd hrun rfl rfl h0 h8 hfit hres
    rw [State.coreWait_met core rd true (by simpa [Core.waitList] using hok) (by simpa [Core.waitList] using hscope)
      (State.firstMet_waitList hm hscope hmet hbefore)] at hrow
    exact ⟨_, hrow, s.onlyCore_coreRet .., fun hrd => s.coreRet_rd _ _ _ (by simpa using hrd)⟩
  case signal =>
    intro g core rs1 rs2 s k hrun hok hscope hfree
    obtain ⟨honly, hatoll⟩ := State.coreRetire_armAtoll_unwaited core
      (signalCount ((s.atoll g).obj (objNumber (k.reg rs1))) (bits (k.reg rs2).toNat 0 16)) hfree
    refine ⟨_, execSyncSignal_own rs2 hrun hok hscope, honly, ?_, ?_, fun o ho => ?_⟩
    all_goals rw [hatoll]
    · rw [Atoll.setObj_core, Atoll.modCore_core]
      rfl
    · rw [Atoll.setObj_obj, signalCount_toNat]
    · exact Atoll.setObj_obj_ne _ _ ho
  case wakes =>
    intro g core c rs1 rs2 rd nm tgt since s k hrun hnm hok hscope hne hrd hb hw hmet
    subst hnm
    have hrow := execSyncSignal_own rs2 hrun hok hscope
    have hother : (((s.coreRetire g core).atoll g).core c) = (s.atoll g).core c := by
      rw [State.coreRetire_atoll, Atoll.modCore_core_ne _ _ (Fin.val_ne_of_ne hne)]
    have hwaits : ((s.coreRetire g core).atoll g).waits = (s.atoll g).waits := by
      rw [State.coreRetire_atoll]
      rfl
    rw [State.armAtoll_wakes hscope (by rw [hother, hb]) (by rw [hwaits, hw]) (by rwa [signalCount_toNat])] at hrow
    refine ⟨_, hrow, State.coreRet_rd _ _ _ _ hrd, State.coreRet_block .., ?_⟩
    rw [State.coreRet_waits]
    exact State.dropWaits_waits_last (by rw [State.modAtoll_atoll, Atoll.setObj_waits, hwaits, hw]) rfl
  case arm =>
    intro g core rs1 rs2 s k hrun hok hscope hfree
    obtain ⟨honly, hatoll⟩ := State.coreRetire_armAtoll_unwaited core ((k.reg rs2).setWidth 32) hfree
    refine ⟨_, execSyncArm_own rs2 hrun hok hscope, honly, ?_, fun o ho => ?_⟩
    all_goals rw [hatoll]
    · exact Atoll.setObj_obj ..
    · exact Atoll.setObj_obj_ne _ _ ho
  case timeout =>
    intro g core rd objs any since s hb hrun
    obtain ⟨r, hunit, hcls, hrow⟩ := execSyncWaitTimeout_ends hb hrun
    refine ⟨_, hrow, ?_, fun hrd => ?_, ?_⟩
    · rw [← hunit, ← hcls]
      exact (State.recorded_raise _ r).congr rfl rfl
    · rw [State.raise_atoll, State.coreRet_rd _ _ _ _ hrd]
    · rw [State.raise_atoll, State.coreRet_block]

end Sys2Proof.Machine
end

section
/-! SUPPORT. Requests to a staging bank that is not on (06 R155, R156, Table 6-2). -/

namespace Sys2Proof.Machine

/-! ### Where a bank's bytes lie -/

/-- What an address of a bank names, by the bank's state. -/
def bankAnswer (pl : Place) : BankState → Except Nat Place
  | .on => .ok pl
  | .off => .error opBankOff
  | _ => .error opBankClosed

/-- A request that may reach bank b of shoal h is answered by that bank's state. -/
theorem State.place_bank {s : State} {h b : Fin 16} {n : Nat} {who : Option Nat} (wr : Bool) (hn : n < 0x400000)
    (hmap : s.mem.map.size ≤ 0xF000000000)
    (hown : ∀ p, who = some p → ∃ x, s.part? p = some x ∧ x.ownsBank h b = true) :
    s.place who (0xF800000000 + h.val * 0x4000000 + b.val * 0x400000 + n) wr =
      bankAnswer (.staging h (b.val * 0x400000 + n)) (s.bank h b) := by
  have hb := b.isLt
  have hh := h.isLt
  generalize ha : 0xF800000000 + h.val * 0x4000000 + b.val * 0x400000 + n = addr
  have hshoal : (addr - 0xF800000000) / 0x4000000 = h := by omega
  have hoff : (addr - 0xF800000000) % 0x4000000 = b.val * 0x400000 + n := by omega
  have hbank : (b.val * 0x400000 + n) / 0x400000 = b := by omega
  have hreach : (who.isNone ∨ ((who.bind s.part?).map fun p => p.ownsBank h b).getD false = true) := by
    cases who with
    | none => exact .inl rfl
    | some p =>
      obtain ⟨x, hx, ho⟩ := hown p rfl
      exact .inr (by simp [hx, ho])
  have hserved : ¬ (!decide (who.isNone ∨ ((who.bind s.part?).map fun p => p.ownsBank h b).getD false = true)) = true := by
    simpa only [Bool.not_eq_true', decide_eq_false_iff_not, not_not] using hreach
  unfold State.place
  dsimp only
  rw [if_neg (by omega), if_neg (by omega), if_neg (by omega), if_pos (by omega), hshoal, hoff, hbank]
  rw [if_neg hserved]
  cases s.bank h b <;> rfl

/-! ### Late requests are counted -/

/-- The state after shoal h counted a request to its bank b that came too late. -/
def State.countLate (s : State) (h b : Nat) : State :=
  s.modShoal h fun x => { x with
    late := satAdd32 x.late 1, lateNoted := if x.lateNoted.contains b then x.lateNoted else x.lateNoted ++ [b] }

/-- The record of the first late request since bank b of shoal h went off. -/
def lateRecord (h b : Nat) : RecIn :=
  { unit := shoalUnit h 0 0 0x3FF, cls := clsBankOff, actions := actCounted, detail := [(32, b)] }

/-- A late request is counted, and recorded when the bank has none noted (06 R156). -/
theorem State.bankLate_eq (s : State) (h b : Fin 16) :
    s.bankLate (0xF800000000 + h.val * 0x4000000 + b.val * 0x400000) =
      if b.val ∈ (s.shoal h).lateNoted then s.countLate h b else (s.countLate h b).raise (lateRecord h b) := by
  have hb := b.isLt
  generalize ha : 0xF800000000 + h.val * 0x4000000 + b.val * 0x400000 = addr
  have hshoal : (addr - 0xF800000000) / 0x4000000 = h := by omega
  have hbank : (addr - 0xF800000000) % 0x4000000 / 0x400000 = b := by omega
  unfold State.bankLate
  dsimp only
  rw [hshoal, hbank]
  exact if_congr List.contains_iff_mem rfl rfl

theorem execBankOffRequest_off {s : State} {h b : Fin 16} (hc : s.clocked = true) (hoff : s.bank h b = .off) :
    execBankOffRequest h b s = .next (s.bankLate (0xF800000000 + h.val * 0x4000000 + b.val * 0x400000)) :=
  congrArg Host.Outcome.next (if_pos ⟨hc, hoff⟩)

/-- What a late request leaves: all but the count and the note of its shoal, and the records. -/
theorem State.bankLate_frame (s : State) (h b : Fin 16) {t : State}
    (ht : t = s.bankLate (0xF800000000 + h.val * 0x4000000 + b.val * 0x400000)) :
    t.mem = (s.countLate h b).mem ∧ t.flt.fenced = s.flt.fenced ∧ t = { s with mem := t.mem, flt := t.flt } := by
  subst ht
  rw [State.bankLate_eq]
  split <;> exact ⟨rfl, rfl, rfl⟩

/-- A late request to a bank with one noted leaves no record. -/
theorem State.bankLate_noted {s : State} {h b : Fin 16} (hn : b.val ∈ (s.shoal h).lateNoted) :
    (s.bankLate (0xF800000000 + h.val * 0x4000000 + b.val * 0x400000)).flt = s.flt := by
  rw [State.bankLate_eq, if_pos hn]
  rfl

/-- The record of a fault, with its detail, stands in its die's collector. -/
theorem State.raise_collector (s : State) (r : RecIn) :
    ∃ e : ErrRec, e.unit = r.unit ∧ e.cls = r.cls ∧ e.count = s.count ∧ e.detail = detailBits r.detail ∧
      e.seq = s.nextSeq r.unit ∧ (s.raise r).collector (uNode r.unit) =
        { (s.collector (uNode r.unit)).push e with seq := s.nextSeq r.unit + 1 } := by
  refine ⟨{ unit := r.unit, cls := r.cls, opKind := r.opKind, opCode := r.opCode % 4096, count := s.count,
            temp := (s.sensed r.unit).1, volt := (s.sensed r.unit).2,
            jobTag := ((r.part.bind fun p => s.part? p).map Part.jobTag).getD 0, seq := s.nextSeq r.unit, part := r.part,
            scope := r.scope, actions := r.actions, detail := detailBits r.detail, coalesce := 0 },
    rfl, rfl, rfl, rfl, rfl, ?_⟩
  exact Tbl.getD_set_self ..

/-- The record that the first late request leaves names the bank. -/
theorem State.bankLate_record {s : State} {h b : Fin 16} (hn : b.val ∉ (s.shoal h).lateNoted) :
    ∃ r : ErrRec, r.unit = shoalUnit h 0 0 0x3FF ∧ r.cls = clsBankOff ∧ r.count = s.count ∧
      r.detail = detailBits [(32, b.val)] ∧ r.seq = s.nextSeq (shoalUnit h 0 0 0x3FF) ∧
      (s.bankLate (0xF800000000 + h.val * 0x4000000 + b.val * 0x400000)).collector (uNode (shoalUnit h 0 0 0x3FF)) =
        { (s.collector (uNode (shoalUnit h 0 0 0x3FF))).push r with seq := s.nextSeq (shoalUnit h 0 0 0x3FF) + 1 } := by
  obtain ⟨r, hu, hcls, hcount, hdetail, hseq, hcol⟩ := (s.countLate h b).raise_collector (lateRecord h b)
  rw [State.bankLate_eq, if_neg hn]
  exact ⟨r, hu, hcls, hcount, hdetail, hseq, hcol⟩

theorem State.bank_eq_of_mem {s t : State} (h : t.mem = s.mem) (x y : Nat) : t.bank x y = s.bank x y := by
  unfold State.bank State.shoal
  rw [h]

theorem State.shoal_eq_of_mem {s t : State} (h : t.mem = s.mem) (x : Nat) : t.shoal x = s.shoal x := by
  unfold State.shoal
  rw [h]

/-- Settles O49: a request to a bank that is off only counts, the first one also leaves its record, and the address of a bank that
is not on is answered by the bank's state. -/
theorem offBankRule : Obligations.OffBankRule := by
  refine ⟨?late, ?off, ?closed⟩
  case late =>
    intro h b s hc hoff
    refine ⟨_, execBankOffRequest_off hc hoff, ?_⟩
    obtain ⟨hmem, hfenced, hframe⟩ := s.bankLate_frame h b rfl
    have hshoal := State.shoal_eq_of_mem hmem
    have hself : (s.countLate h b).shoal h = _ := State.modShoal_shoal ..
    refine ⟨?_, ?_, ?_, hfenced, by rw [hframe], State.bankLate_record, State.bankLate_noted, hframe,
      hmem.trans ?_, fun k hk => (hshoal k).trans (s.modShoal_shoal_ne _ hk)⟩
    · rw [← hoff, State.bank, hshoal, hself]
      rfl
    · rw [hshoal, hself]
    · rw [hshoal, hself]
    · rw [hmem]
      rfl
  case off =>
    intro h b n who wr s hoff hn hmap hown
    rw [State.place_bank wr hn hmap hown, hoff]
    rfl
  case closed =>
    intro h b n who wr s hst hn hmap hown
    rw [State.place_bank wr hn hmap hown]
    rcases hst with hst | hst <;> rw [hst] <;> rfl

end Sys2Proof.Machine
end

section
/-! SUPPORT. Memory commands at the stream units: posted by an atoll, run, and completed (06 R158-R161). -/

namespace Sys2Proof.Machine

/-! ### Fields of a record -/

/-- A field of a value cut to w bits, where it lies within them. -/
theorem bits_mod_two_pow (v : Nat) {lo n w : Nat} (h : lo + n ≤ w) : bits (v % 2 ^ w) lo n = bits v lo n := by
  have hw : 2 ^ w = 2 ^ lo * 2 ^ (w - lo) := by rw [← pow_add]; congr 1; omega
  have hd : 2 ^ n ∣ 2 ^ (w - lo) := pow_dvd_pow 2 (by omega)
  unfold bits
  rw [hw, Nat.mod_mul_right_div_self, Nat.mod_mod_of_dvd _ hd]

/-- A field reads as it was last set. -/
theorem bits_setBits (v lo n x : Nat) : bits (setBits v lo n x) lo n = x % 2 ^ n := by
  have hlo : v / 2 ^ lo * 2 ^ lo + v % 2 ^ lo = v := Nat.div_add_mod' v (2 ^ lo)
  have hn : v / 2 ^ lo / 2 ^ n * 2 ^ n + v / 2 ^ lo % 2 ^ n = v / 2 ^ lo := Nat.div_add_mod' _ _
  have hset : setBits v lo n x = v % 2 ^ lo + 2 ^ lo * (x % 2 ^ n + 2 ^ n * (v / 2 ^ lo / 2 ^ n)) := by
    rw [setBits, bits]
    generalize v / 2 ^ lo / 2 ^ n = q at *
    generalize v / 2 ^ lo % 2 ^ n = r at *
    rw [← hn, Nat.add_mul] at hlo
    have hsub : v - r * 2 ^ lo = q * 2 ^ n * 2 ^ lo + v % 2 ^ lo := by omega
    rw [hsub]
    ring
  rw [hset, bits, Nat.add_mul_div_left _ _ (by positivity), Nat.div_eq_of_lt (Nat.mod_lt _ (by positivity)), Nat.zero_add,
    Nat.add_mul_mod_self_left, Nat.mod_mod]

/-! ### The state of a stream unit -/

@[simp] theorem State.modUnit_sunit (s : State) (h u : Nat) (f : StreamUnit → StreamUnit) :
    (s.modUnit h u f).sunit h u = f (s.sunit h u) := by
  rw [State.sunit, State.modUnit, State.modShoal_shoal]
  exact Tbl.getD_set_self ..

theorem State.modUnit_sunit_ne (s : State) {h u x v : Nat} (f : StreamUnit → StreamUnit) (hne : ¬(x = h ∧ v = u)) :
    (s.modUnit h u f).sunit x v = s.sunit x v := by
  unfold State.modUnit State.sunit
  by_cases hx : x = h
  · subst hx
    rw [State.modShoal_shoal]
    exact Tbl.getD_set_ne _ _ _ fun hv => hne ⟨rfl, hv⟩
  · rw [State.modShoal_shoal_ne _ _ hx]

/-! ### What the delivery of a completion word leaves (06 R161, 13 R336) -/

/-- The shoal dies, with their stream units and banks, and the fault state. -/
def State.shoalsAndFaults (s : State) : Tbl Shoal × FaultSt := (s.mem.shoals, s.flt)

theorem State.sunit_of_kept {s t : State} (h : t.shoalsAndFaults = s.shoalsAndFaults) (x v : Nat) : t.sunit x v = s.sunit x v := by
  unfold State.sunit State.shoal
  rw [show t.mem.shoals = s.mem.shoals from congrArg Prod.fst h]

theorem State.flt_of_kept {s t : State} (h : t.shoalsAndFaults = s.shoalsAndFaults) : t.flt = s.flt := congrArg Prod.snd h

theorem State.partsOnly.shoalsAndFaults {s t : State} (h : s.partsOnly t) : t.shoalsAndFaults = s.shoalsAndFaults := by
  rw [h]
  rfl

@[simp] theorem State.modAtoll_shoalsAndFaults (s : State) (g : Nat) (f : Atoll → Atoll) :
    (s.modAtoll g f).shoalsAndFaults = s.shoalsAndFaults := rfl

@[simp] theorem State.modPart_shoalsAndFaults (s : State) (p : Nat) (f : Part → Part) :
    (s.modPart p f).shoalsAndFaults = s.shoalsAndFaults := (s.modPart_partsOnly p f).shoalsAndFaults

@[simp] theorem State.judge_shoalsAndFaults (s : State) (p st idx : Nat) (v : Verdict) :
    (s.judge p st idx v).shoalsAndFaults = s.shoalsAndFaults := (s.judge_partsOnly p st idx v).shoalsAndFaults

@[simp] theorem State.finishCmd_shoalsAndFaults (s : State) (p st idx : Nat) :
    (s.finishCmd p st idx).shoalsAndFaults = s.shoalsAndFaults := s.modPart_shoalsAndFaults p _

@[simp] theorem State.dropWaits_shoalsAndFaults (s : State) (g c : Nat) :
    (s.dropWaits g c).shoalsAndFaults = s.shoalsAndFaults := rfl

@[simp] theorem State.wakeSeq_shoalsAndFaults (s : State) (g u : Nat) :
    (s.wakeSeq g u).shoalsAndFaults = s.shoalsAndFaults := rfl

@[simp] theorem State.wakeCore_shoalsAndFaults (s : State) (g c : Nat) :
    (s.wakeCore g c).shoalsAndFaults = s.shoalsAndFaults := by
  unfold State.wakeCore
  split
  · split <;> rfl
  · rfl

/-- A chain of completions, signals and wakes leaves them. -/
theorem State.wakeChain_shoalsAndFaults (k : Nat) :
    (∀ s p st idx v, (State.completeCmdN k s p st idx v).shoalsAndFaults = s.shoalsAndFaults) ∧
    (∀ s o inc, (State.signalModN k s o inc).shoalsAndFaults = s.shoalsAndFaults) ∧
    ∀ s o ws, (State.wakeModN k s o ws).shoalsAndFaults = s.shoalsAndFaults := by
  induction k with
  | zero =>
    exact ⟨fun _ _ _ _ _ => by rw [State.completeCmdN], fun _ _ _ => by rw [State.signalModN], fun _ _ _ => by rw [State.wakeModN]⟩
  | succ k ih =>
    obtain ⟨hcomplete, hsignal, hwake⟩ := ih
    refine ⟨fun s p st idx v => ?_, fun s o inc => ?_, fun s o ws => ?_⟩
    · unfold State.completeCmdN
      split
      · rfl
      · dsimp only
        split <;> simp [hsignal]
    · unfold State.signalModN
      exact (hwake _ _ _).trans rfl
    · cases ws with
      | nil => rw [State.wakeModN]
      | cons w ws =>
        unfold State.wakeModN
        rw [hwake]
        split
        · simp
        · simp
        · exact (hcomplete _ _ _ _ _).trans rfl

@[simp] theorem State.completeCmd_shoalsAndFaults (s : State) (p st idx : Nat) (v : Verdict) :
    (s.completeCmd p st idx v).shoalsAndFaults = s.shoalsAndFaults := (State.wakeChain_shoalsAndFaults _).1 s p st idx v

theorem State.foldl_shoalsAndFaults {α : Type} (f : State → α → State) (l : List α) (s : State)
    (h : ∀ t x, (f t x).shoalsAndFaults = t.shoalsAndFaults) : (l.foldl f s).shoalsAndFaults = s.shoalsAndFaults := by
  induction l generalizing s with
  | nil => rfl
  | cons x l ih => exact (ih (f s x)).trans (h s x)

@[simp] theorem State.signalAtoll_shoalsAndFaults (s : State) (g o inc : Nat) :
    (s.signalAtoll g o inc).shoalsAndFaults = s.shoalsAndFaults := by
  refine (State.foldl_shoalsAndFaults _ _ _ fun t w => ?_).trans rfl
  split
  · simp
  · simp
  · rfl

@[simp] theorem State.deliverMem_shoalsAndFaults (s : State) (r : MemRun) (w : DWord) :
    (s.deliverMem r w).shoalsAndFaults = s.shoalsAndFaults := by
  unfold State.deliverMem
  split
  · split
    · rfl
    · dsimp only
      split <;> simp
  · simp

/-- The end of a run frees its unit. -/
theorem State.endMem_cur (s : State) (h u : Nat) (r : MemRun) : ((s.endMem h u r).sunit h u).cur = none := by
  rw [State.endMem, State.sunit_of_kept (State.deliverMem_shoalsAndFaults ..), State.modUnit_sunit]

theorem State.endMem_flt (s : State) (h u : Nat) (r : MemRun) : (s.endMem h u r).flt = s.flt := by
  rw [State.endMem, State.flt_of_kept (State.deliverMem_shoalsAndFaults ..)]
  rfl

/-! ### The port of an atoll (06 R158, R161) -/

/-- The command that a store of v to offset 0x38 of the DMA port completes. -/
def State.postedCmd (s : State) (g p : Nat) (v : DWord) : MemCmd :=
  { img := BitVec.ofNat 512 (setBits (s.atoll g).dmaBuf.toNat 448 64 v.toNat), src := .port g, part := p, seed := s.stepSeed g,
    order := s.cmdOrder }

/-- Its last eight bytes are v. -/
theorem State.postedCmd_last (s : State) (g p : Nat) (v : DWord) : fld (s.postedCmd g p v).img 56 0 64 = v.toNat := by
  rw [fld, State.postedCmd, BitVec.toNat_ofNat, bits_mod_two_pow _ (by decide), bits_setBits, Nat.mod_eq_of_lt v.isLt]

/-- The atoll after its core c stored the last bytes of a command with image img. -/
def Atoll.posted (a : Atoll) (img : BitVec 512) (c : Nat) : Atoll :=
  ({ a with dmaBuf := img }).modCore c fun k => k.advance k.instrLen

theorem Atoll.posted_pc (a : Atoll) (img : BitVec 512) (c : Nat) :
    ((a.posted img c).core c).pc = (a.core c).pc + BitVec.ofNat 64 (a.core c).instrLen := by
  rw [Atoll.posted, Atoll.modCore_core, Core.advance_pc]
  rfl

theorem State.modAtoll_sunit (s : State) (g : Nat) (f : Atoll → Atoll) (h u : Nat) : (s.modAtoll g f).sunit h u = s.sunit h u := rfl

theorem State.enqueueMem_sunit (s : State) (h u : Nat) (c : MemCmd) :
    (s.enqueueMem h u c).sunit h u = { s.sunit h u with queue := (s.sunit h u).queue ++ [c] } :=
  s.modUnit_sunit h u fun x => { x with queue := x.queue ++ [c] }

theorem State.enqueueMem_atoll (s : State) (h u : Nat) (c : MemCmd) (g : Nat) : (s.enqueueMem h u c).atoll g = s.atoll g := rfl

theorem execDmaPortPost_posts {g : Fin 320} {core : Fin 2} {p h u : Nat} {s : State} (v : DWord) (hp : s.partOf g = some p)
    (hu : s.unitForDie (g.val / 40) = some (h, u)) (hrun : s.coreRuns g ((s.atoll g).coreIdx core) = true)
    (hroom : s.portPosted g < 16) :
    execDmaPortPost g core v s = .next ((s.modAtoll g fun a =>
      a.posted (s.postedCmd g p v).img ((s.atoll g).coreIdx core)).enqueueMem h u (s.postedCmd g p v)) := by
  have hfull : ¬ 16 ≤ s.portPosted g := by omega
  simp [execDmaPortPost, State.postDma, hp, hu, hrun, hfull, State.postedCmd, Atoll.posted]

theorem execDmaCompletionPop_pops {g : Fin 320} {core : Fin 2} {s : State} (rd : Fin 32)
    (hrun : s.coreRuns g ((s.atoll g).coreIdx core) = true) :
    execDmaCompletionPop g core rd s = .next (s.modAtoll g fun a =>
      ({ a with dmaDone := a.dmaDone.drop 1 }).modCore ((s.atoll g).coreIdx core) fun k =>
        (k.setReg rd ((a.dmaDone[0]?).getD 0)).advance k.instrLen) := by
  simp [execDmaCompletionPop, State.popDma, hrun]

/-! ### Starting a command (06 R137, R158) -/

theorem State.touchUnit_sunit (s : State) (w : Word) (p h u : Nat) : (s.touchUnit w p).sunit h u = s.sunit h u := by
  obtain ⟨l, hl⟩ := s.touchUnit_frame w p
  rw [hl]
  rfl

/-- The unit that starts a run holds it. -/
theorem State.startRun_cur (s : State) (h u x v : Nat) (r : MemRun) : ((s.startRun h u x v r).sunit h u).cur = some r := by
  rw [State.startRun, State.touchUnit_sunit, State.modUnit_sunit]

/-- An idle, healthy unit takes a command of the row's operation that passes its checks, with what its read pass computed. -/
theorem State.memLocal_runs {h u code x v : Nat} {plan : State → MemCmd → State × Plan} {c : MemCmd} {q : Plan} {s s1 : State}
    (hrun : s.running = true) (hf : s.isFenced (streamUnitId h u) = false) (hcur : (s.sunit h u).cur = none)
    (hh : s.hostClear) (hq : s.memQueue h u = some (x, v, c)) (hfence : s.memFenced c = false) (hop : fld c.img 0 0 8 = code)
    (hchk : firstBad c.img.toNat (if code = 1 ∨ code = 2 then dmaChecks c.src c.img else suChecks c.src c.img) = none)
    (hplan : plan s c = (s1, q)) : s.memLocal h u code none plan = s1.startRun h u x v (q.run c) := by
  simp [State.memLocal, State.memRow, hrun, hf, hcur, hq, hfence, hop, memOpIs, hchk, State.biThen_hostClear hh, State.badWord,
    hplan]

/-! ### The end of a command (06 R160, R161, 10 R252, R265) -/

/-- With no host line tracked and the residue checks passed, the outputs are written and the run ends. -/
theorem execMemoryCommandComplete_ends {h : Fin 16} {u : Fin 4} {r : MemRun} {s : State} (hcur : (s.sunit h u).cur = some r)
    (hrun : s.running = true) (hf : s.isFenced (streamUnitId h u) = false) (hack : r.unacked = 0)
    (hroom : s.canDeliverMem r.cmd.src = true) (hheld : s.outputsHeld (some r.cmd.part) r.writes = false) (hh : s.hostClear) :
    ∃ t r', execMemoryCommandComplete h u true s = .next (State.endMem t h u r') := by
  exact ⟨_, _, by
    simp only [execMemoryCommandComplete, hcur, hrun, hf, hack, hroom, hheld, State.biThen_hostClear hh]
    rfl⟩

theorem State.trigger_partsOnly (s : State) (p : Nat) (t : Trigger) : s.partsOnly (s.trigger p t) := s.modPart_partsOnly p _

theorem State.rollOrStop_partsOnly (s : State) (p : Nat) (t : Trigger) : s.partsOnly (s.rollOrStop p t) := by
  unfold State.rollOrStop
  split
  · exact s.partsOnly_refl
  · split
    · exact s.trigger_partsOnly p t
    · exact s.stopAllFenced_partsOnly ..

/-- A fenced stream unit runs nothing, whether its command restarts elsewhere or ends; the fault state is that of the fence. -/
theorem State.fenceStreamUnit_spec {s : State} {h u : Nat} {r : MemRun} (cls : Half) (seq : Word)
    (hcur : (s.sunit h u).cur = some r) :
    ((s.fenceStreamUnit h u cls seq).sunit h u).cur = none ∧
      (s.fenceStreamUnit h u cls seq).flt = (s.fenceUnit (streamUnitId h u) cls seq).flt := by
  unfold State.fenceStreamUnit
  simp only [hcur]
  split
  · have hkept := (State.rollOrStop_partsOnly ((s.fenceUnit (streamUnitId h u) cls seq).endMem h u
      { r with status := opAbandoned, writes := [] }) r.cmd.part
        { cls := cls, addr := none, position := none, recordSeq := seq }).shoalsAndFaults
    exact ⟨by rw [State.sunit_of_kept hkept, State.endMem_cur], (State.flt_of_kept hkept).trans (State.endMem_flt ..)⟩
  · exact ⟨by rw [State.modUnit_sunit], rfl⟩

/-- A failed residue check leaves its record, then fences the unit. -/
theorem execMemoryCommandComplete_fails {h : Fin 16} {u : Fin 4} {r : MemRun} {s : State} (hcur : (s.sunit h u).cur = some r)
    (hrun : s.running = true) (hf : s.isFenced (streamUnitId h u) = false) (hack : r.unacked = 0)
    (hroom : s.canDeliverMem r.cmd.src = true) (hheld : s.outputsHeld (some r.cmd.part) r.writes = false) :
    ∃ x : RecIn, x.unit = streamUnitId h u ∧ x.cls = clsResidue ∧ execMemoryCommandComplete h u false s =
      .next ((s.raise x).freshen.fenceStreamUnit h u clsResidue (s.nextSeq (streamUnitId h u))) := by
  refine ⟨_, ?_, ?_, by simp only [execMemoryCommandComplete, hcur, hrun, hf, hack, hroom, hheld]; rfl⟩
  all_goals rfl

/-- A command without progress leaves its record, and its run ends. -/
theorem execDmaTimeout_ends {h : Fin 16} {u : Fin 4} {r : MemRun} {s : State} (hcur : (s.sunit h u).cur = some r)
    (hrun : s.running = true) (hf : s.isFenced (streamUnitId h u) = false) (hroom : s.canDeliverMem r.cmd.src = true) :
    ∃ x : RecIn, x.unit = streamUnitId h u ∧ x.cls = clsTimeout ∧ execDmaTimeout h u s =
      .next (((s.raise x).dropDma r.cmd.order).endMem h u { r with status := opTimeout, unacked := 0, writes := [] }) := by
  refine ⟨_, ?_, ?_, by simp only [execDmaTimeout, hcur, hrun, hf, hroom]; rfl⟩
  all_goals rfl

/-- Settles O10: each row acts as the lemmas above say, and the delivery of a completion word touches no stream unit. -/
theorem memoryCommands : Obligations.MemoryCommands := by
  refine ⟨?post, ?pop, ?start, ?done, ?residue, ?timeout⟩
  case post =>
    intro g core v p h u s hp hu hrun hroom
    refine ⟨_, execDmaPortPost_posts v hp hu hrun hroom, ?_, s.postedCmd g p v, ?_, rfl, rfl, s.postedCmd_last g p v⟩
    · rw [State.enqueueMem_atoll, State.modAtoll_atoll, Atoll.posted_pc]
    · rw [State.enqueueMem_sunit, State.modAtoll_sunit]
  case pop =>
    intro g core rd s hrun
    refine ⟨_, execDmaCompletionPop_pops rd hrun, s.onlyAtoll_modAtoll g _, ?_, fun hrd => ?_⟩
    · rw [State.modAtoll_atoll]
      rfl
    · have hne : rd.val ≠ 0 := fun h => hrd (Fin.ext h)
      rw [State.modAtoll_atoll, Atoll.modCore_core, Core.advance_reg, Core.reg_setReg, if_neg hne, if_pos rfl]
  case start =>
    intro h u i code x v plan c q s s1 hi hrun hf hcur hh hq hfence hop hchk hplan
    have hrow : exec i s = .next (s.memLocal h u code none plan) := by
      rcases hi with ⟨rfl, rfl, rfl⟩ | ⟨rfl, rfl, rfl⟩ | ⟨rfl, rfl, rfl⟩ | ⟨rfl, rfl, rfl⟩ | ⟨rfl, rfl, rfl⟩ | ⟨rfl, rfl, rfl⟩ |
        ⟨rfl, rfl, rfl⟩ <;> rfl
    have hne : code ≠ 2 := by omega
    rw [State.memLocal_runs hrun hf hcur hh hq hfence hop (by simpa only [hne, or_false] using hchk) hplan] at hrow
    exact ⟨_, hrow, s1.startRun_cur ..⟩
  case done =>
    intro h u r s hcur hrun hf hack hroom hheld hh
    obtain ⟨t, r', hrow⟩ := execMemoryCommandComplete_ends hcur hrun hf hack hroom hheld hh
    exact ⟨_, hrow, t.endMem_cur ..⟩
  case residue =>
    intro h u r s hcur hrun hf hack hroom hheld
    obtain ⟨x, hunit, hcls, hrow⟩ := execMemoryCommandComplete_fails hcur hrun hf hack hroom hheld
    obtain ⟨hfree, hflt⟩ := State.fenceStreamUnit_spec (s := (s.raise x).freshen) clsResidue (s.nextSeq (streamUnitId h u)) hcur
    refine ⟨_, hrow, ?_, ?_, hfree⟩
    · have hrec : s.recorded (s.raise x) (streamUnitId h u) clsResidue := by
        rw [← hunit, ← hcls]
        exact s.recorded_raise x
      exact hrec.mono (by rw [hflt, State.fenceUnit_collectors]; rfl)
    · rw [State.isFenced, hflt]
      exact State.fenceUnit_isFenced ..
  case timeout =>
    intro h u r s hcur hrun hf hroom
    obtain ⟨x, hunit, hcls, hrow⟩ := execDmaTimeout_ends hcur hrun hf hroom
    refine ⟨_, hrow, ?_, State.endMem_cur ..⟩
    rw [← hunit, ← hcls]
    exact (s.recorded_raise x).mono (by rw [State.endMem_flt]; rfl)

end Sys2Proof.Machine
end

section
/-! SUPPORT. Ends of mailbox commands that other rows share (12 R311, R312). -/

namespace Sys2Proof.Machine

/-- Only the mailboxes may differ. -/
def State.mailboxesOnly (s t : State) : Prop := t = { s with mailboxes := t.mailboxes }

theorem State.mailboxesOnly_refl (s : State) : s.mailboxesOnly s := rfl

theorem State.mailboxesOnly.trans {s t u : State} (h : s.mailboxesOnly t) (k : t.mailboxesOnly u) : s.mailboxesOnly u := by
  unfold State.mailboxesOnly at *
  rw [k, h]

theorem State.mailboxesOnly.mem {s t : State} (h : s.mailboxesOnly t) : t.mem = s.mem := by rw [h]

theorem State.mailboxesOnly.flt {s t : State} (h : s.mailboxesOnly t) : t.flt = s.flt := by rw [h]

theorem State.mailboxesOnly.power {s t : State} (h : s.mailboxesOnly t) : t.power = s.power := by rw [h]

theorem State.mailboxesOnly_foldl {α : Type} (f : State → α → State) (hf : ∀ (t : State) x, t.mailboxesOnly (f t x)) (l : List α)
    (s : State) : s.mailboxesOnly (l.foldl f s) := by
  induction l generalizing s with
  | nil => exact s.mailboxesOnly_refl
  | cons x l ih => exact (hf s x).trans (ih (f s x))

theorem State.mbEnd_mailboxesOnly (s : State) (m : Nat) (c : MbCmd) (st off result : Nat) (data : List Byte) :
    s.mailboxesOnly (s.mbEnd m c st off result data) := s.mbEnd_frame m c st off result data

theorem State.endBankPower_mailboxesOnly (s : State) (h b : Nat) (on : Bool) (code : Nat) :
    s.mailboxesOnly (s.endBankPower h b on code) :=
  State.mailboxesOnly_foldl _ (fun t _ => State.mailboxesOnly_foldl _ (fun _ _ => State.mbEnd_mailboxesOnly ..) _ t) _ s

theorem State.endRetire_mailboxesOnly (s : State) (c st : Nat) : s.mailboxesOnly (s.endRetire c st) :=
  State.mailboxesOnly_foldl _ (fun t _ => State.mailboxesOnly_foldl _ (fun _ _ => State.mbEnd_mailboxesOnly ..) _ t) _ s

/-- The row of a command acts on its first command. -/
theorem State.mbRow_first {s : State} {m op : Nat} {c : MbCmd} (go : MbCmd → State) (h : s.mbFirst m op c) :
    s.mbRow m op go = .next (go c) := by
  unfold State.mbFirst at h
  simp only [State.mbRow, h]

/-- The state after mailbox m accepted long command c. -/
def State.mbAccept (s : State) (m : Nat) (c : MbCmd) : State :=
  (s.modMbox m fun b => { b with
    started := b.started.filter (·.order != c.order), running := b.running ++ [{ c with accepted := true }] }).mbFin
      m c mbAccepted 0xFFFF false true 0 []

theorem State.mbLong_accepts {s : State} {m : Nat} (c : MbCmd) (go : State → MbCmd → State) (h : s.mbRoom m) :
    s.mbLong m c go = go (s.mbAccept m c) { c with accepted := true } := if_neg (Nat.not_le.2 h)

theorem State.mbAccept_mailboxesOnly (s : State) (m : Nat) (c : MbCmd) : s.mailboxesOnly (s.mbAccept m c) := by
  unfold State.mbAccept State.mbFin
  split <;> rfl

theorem State.mbAccept_taken (s : State) (m : Nat) (c : MbCmd) : (s.mbAccept m c).mbTaken m c := by
  have hleft : ∀ x ∈ (s.mbox m).started.filter (·.order != c.order), x.order ≠ c.order := by
    intro x hx
    simpa using (List.mem_filter.1 hx).2
  unfold State.mbAccept State.mbFin State.mbTaken
  split
  · next hd =>
    rw [State.modMbox_mbox]
    exact ⟨List.mem_append_right _ (List.mem_singleton_self _), hleft, fun h => absurd (hd.symm.trans h) (by decide)⟩
  · rw [State.modMbox_mbox, State.modMbox_mbox]
    exact ⟨List.mem_append_right _ (List.mem_singleton_self _), hleft,
      fun _ => ⟨_, List.mem_append_right _ (List.mem_singleton_self _), rfl, rfl, rfl⟩⟩

theorem State.mbTaken.congr {s t : State} {m : Nat} {c : MbCmd} (h : s.mbTaken m c) (k : t.mailboxes = s.mailboxes) :
    t.mbTaken m c := by
  unfold State.mbTaken State.mbox at *
  rwa [k]

end Sys2Proof.Machine
end

section
/-! SUPPORT. Scrubbed words (06 R152, Table 6-3). -/

namespace Sys2Proof.Machine

/-! ### DRAM -/

theorem State.wantRetire_frame (s : State) (c : Nat) : ∃ q, s.wantRetire c = { s with mem := { s.mem with retireQueue := q } } := by
  unfold State.wantRetire
  split
  · exact ⟨_, rfl⟩
  · exact ⟨s.mem.retireQueue, rfl⟩

/-- A healthy channel that retirement is asked for stands in line. -/
theorem State.wantRetire_queued {s : State} {c : Nat} (h : s.chan c = .healthy) : c ∈ (s.wantRetire c).mem.retireQueue := by
  unfold State.wantRetire
  split
  · exact List.mem_append_right _ (List.mem_singleton_self _)
  · next hn =>
    by_contra hc
    exact hn ⟨h, fun k => hc (List.contains_iff_mem.1 k)⟩

/-- The state after an uncorrectable DRAM word at address a is counted and poisoned. -/
def State.poisonDram (s : State) (a : Nat) : State :=
  (s.modShoal (s.dramChannel a / 8) fun x => { x with uncorrectable := satAdd32 x.uncorrectable 1 }).modMem fun m =>
    { m with dramPoison := if m.dramPoison.contains (a / 64) then m.dramPoison else m.dramPoison ++ [a / 64] }

theorem State.poisonDram_poisoned (s : State) (a : Nat) : a / 64 ∈ (s.poisonDram a).mem.dramPoison := by
  unfold State.poisonDram
  rw [State.modMem_mem]
  dsimp only
  split
  · next h => exact List.contains_iff_mem.1 h
  · exact List.mem_append_right _ (List.mem_singleton_self _)

theorem State.poisonDram_uncorrectable (s : State) (a : Nat) :
    ((s.poisonDram a).shoal (s.dramChannel a / 8)).uncorrectable =
      satAdd32 (s.shoal (s.dramChannel a / 8)).uncorrectable 1 :=
  congrArg Shoal.uncorrectable (s.modShoal_shoal (s.dramChannel a / 8) fun x =>
    { x with uncorrectable := satAdd32 x.uncorrectable 1 })

/-- An uncorrectable DRAM word is poisoned, recorded, and its channel put in line for retirement. -/
theorem State.dramDecode_uncorrectable (s : State) (who : Option Nat) (a n src : Nat) (op : Nat × Nat) :
    ∃ r : RecIn, r.unit = chanUnit (s.dramChannel a) ∧ r.cls = clsUncorrectable ∧
      s.dramDecode who a (.uncorrectable n) src op = ((s.poisonDram a).raise r).wantRetire (s.dramChannel a) :=
  ⟨_, rfl, rfl, rfl⟩

theorem execDramScrub_clean (ch : Fin 128) (word : Nat) (s : State) : execDramScrub ch word .clean s = .next s := by
  refine congrArg Host.Outcome.next ?_
  split
  · rfl
  · split
    · rfl
    · dsimp only
      split <;> rfl

/-- The scrub of a word that a page serves and nothing has poisoned acts on what it decodes. -/
theorem execDramScrub_decodes {ch : Fin 128} {word a : Nat} {s : State} (dec : Decoded) (hc : s.clocked = true)
    (hch : s.chan ch = .healthy) (hpage : s.pageServed ch (word / 64) = some a)
    (hclean : (a + word % 64 * 64) / 64 ∉ s.mem.dramPoison) :
    ∃ who, execDramScrub ch word dec s = .next (s.dramDecode who (a + word % 64 * 64) dec 1) :=
  ⟨(s.parts.find? fun e => e.2.ownsDram (a + word % 64 * 64)).map fun e => e.1,
    by simp [execDramScrub, hc, hch, hpage, hclean]⟩

/-! ### Lagoon and staging words -/

theorem State.scrubWord_clean (s : State) (w : SramWord) : s.scrubWord w .clean = s := by
  cases w with
  | lagoon g k => exact ite_self _
  | staging h k => exact ite_self _

/-- A poisoned word of a lagoon reads as poisoned. -/
theorem Atoll.poisonWord_poisoned (a : Atoll) (k : Nat) : (a.poisonWord k).poisoned (k * 32) 32 = true := by
  have hone : (k * 32 + 32 + 31) / 32 - k * 32 / 32 = 1 := by omega
  have hword : k * 32 / 32 + 0 = k := by omega
  have hmeta : ((a.poisonWord k).meta_ (k / 4)).poison = (a.meta_ (k / 4)).poison ||| BitVec.ofNat 4 (2 ^ (k % 4)) :=
    congrArg LineMeta.poison (Tbl.getD_set_self ..)
  have hbit : (BitVec.ofNat 4 (2 ^ (k % 4))).getLsbD (k % 4) = true := by
    rw [BitVec.getLsbD_ofNat, Nat.testBit_two_pow_self, decide_eq_true (Nat.mod_lt k (by decide))]
    rfl
  unfold Atoll.poisoned
  rw [hone, List.any_eq_true]
  refine ⟨0, List.mem_range.2 Nat.one_pos, ?_⟩
  dsimp only
  rw [hword, hmeta, BitVec.getLsbD_or, hbit, Bool.or_true]

/-- An uncorrectable lagoon word is poisoned; fences, records and the partition's trigger change no atoll. -/
theorem State.lagoonDecode_uncorrectable (s : State) (g off n src : Nat) (op : Nat × Nat) :
    (s.lagoonDecode g off (.uncorrectable n) src op).atoll g = (s.atoll g).poisonWord (off / 32) := by
  unfold State.lagoonDecode
  simp only [sramSettled]
  split
  · rw [(State.trigger_partsOnly ..).atoll, State.fenceUnit_atoll, State.raise_atoll, State.modAtoll_atoll]
  · rw [State.fenceUnit_atoll, State.raise_atoll, State.modAtoll_atoll]

/-- A scrubbed lagoon word that is uncorrectable is poisoned. -/
theorem State.scrubWord_poisons {s : State} {g : Fin 320} {k : Nat} (n : Nat) (hk : k < 786432)
    (hp : (s.atoll g).poisoned (k * 32) 32 = false) :
    ((s.scrubWord (.lagoon g k) (.uncorrectable n)).atoll g).poisoned (k * 32) 32 = true := by
  have hword : k * 32 / 32 = k := by omega
  rw [State.scrubWord, if_pos ⟨hk, by rw [hp]; exact Bool.false_ne_true⟩, State.lagoonDecode_uncorrectable, hword]
  exact Atoll.poisonWord_poisoned ..

end Sys2Proof.Machine
end

section
/-! SUPPORT. Power of the staging banks (06 R155-R157, Table 6-4). -/

namespace Sys2Proof.Machine

/-! ### Changing every run -/

/-- The stream units of the shoal dies alone may differ. -/
def State.unitsOnly (s t : State) : Prop :=
  t = { s with mem := { s.mem with shoals := t.mem.shoals } } ∧ ∀ h, t.shoal h = { s.shoal h with units := (t.shoal h).units }

theorem State.unitsOnly_refl (s : State) : s.unitsOnly s := ⟨rfl, fun _ => rfl⟩

theorem State.unitsOnly.trans {s t u : State} (h : s.unitsOnly t) (k : t.unitsOnly u) : s.unitsOnly u := by
  obtain ⟨h1, h2⟩ := h
  obtain ⟨k1, k2⟩ := k
  exact ⟨by rw [k1, h1], fun x => by rw [k2, h2]⟩

theorem State.unitsOnly_foldl {α : Type} (f : State → α → State) (hf : ∀ (t : State) x, t.unitsOnly (f t x)) (l : List α)
    (s : State) : s.unitsOnly (l.foldl f s) := by
  induction l generalizing s with
  | nil => exact s.unitsOnly_refl
  | cons x l ih => exact (hf s x).trans (ih (f s x))

theorem State.modUnit_unitsOnly (s : State) (h u : Nat) (f : StreamUnit → StreamUnit) : s.unitsOnly (s.modUnit h u f) := by
  refine ⟨rfl, fun x => ?_⟩
  unfold State.modUnit
  by_cases hx : x = h
  · subst hx
    rw [State.modShoal_shoal]
  · rw [State.modShoal_shoal_ne _ _ hx]

theorem State.unitsOnly.bank {s t : State} (k : s.unitsOnly t) (h b : Nat) : t.bank h b = s.bank h b := by
  rw [State.bank, k.2]
  rfl

theorem State.unitsOnly.flt {s t : State} (k : s.unitsOnly t) : t.flt = s.flt := by rw [k.1]

theorem State.unitsOnly.count {s t : State} (k : s.unitsOnly t) : t.count = s.count := by rw [k.1]

theorem State.unitsOnly.mailboxes {s t : State} (k : s.unitsOnly t) : t.mailboxes = s.mailboxes := by rw [k.1]

/-- Change the command running on one stream unit. -/
def State.mapRun (s : State) (f : MemRun → MemRun) (h u : Nat) : State :=
  if (s.sunit h u).cur.isSome then s.modUnit h u fun q => { q with cur := q.cur.map f } else s

/-- Change the commands running on the units of one shoal. -/
def State.mapShoalRuns (s : State) (f : MemRun → MemRun) (h : Nat) : State :=
  (List.range 4).foldl (fun t u => t.mapRun f h u) s

theorem State.mapRuns_eq (s : State) (f : MemRun → MemRun) :
    s.mapRuns f = (List.range 16).foldl (fun t h => t.mapShoalRuns f h) s := rfl

theorem State.mapRun_unitsOnly (s : State) (f : MemRun → MemRun) (h u : Nat) : s.unitsOnly (s.mapRun f h u) := by
  unfold State.mapRun
  split
  · exact s.modUnit_unitsOnly h u _
  · exact s.unitsOnly_refl

theorem State.mapRuns_unitsOnly (s : State) (f : MemRun → MemRun) : s.unitsOnly (s.mapRuns f) :=
  State.unitsOnly_foldl _ (fun t h => State.unitsOnly_foldl _ (fun t u => t.mapRun_unitsOnly f h u) _ t) _ s

theorem State.mapRun_cur (s : State) (f : MemRun → MemRun) (h u x v : Nat) :
    ((s.mapRun f h u).sunit x v).cur = if x = h ∧ v = u then (s.sunit x v).cur.map f else (s.sunit x v).cur := by
  unfold State.mapRun
  by_cases hs : (s.sunit h u).cur.isSome
  · rw [if_pos hs]
    by_cases hxv : x = h ∧ v = u
    · obtain ⟨rfl, rfl⟩ := hxv
      rw [State.modUnit_sunit, if_pos ⟨rfl, rfl⟩]
    · rw [State.modUnit_sunit_ne _ _ hxv, if_neg hxv]
  · rw [if_neg hs]
    split
    · next hxv =>
      obtain ⟨rfl, rfl⟩ := hxv
      rw [Option.not_isSome_iff_eq_none.1 hs]
      rfl
    · rfl

theorem State.mapShoalRuns_cur (s : State) (f : MemRun → MemRun) (h x v : Nat) :
    ((s.mapShoalRuns f h).sunit x v).cur = if x = h ∧ v < 4 then (s.sunit x v).cur.map f else (s.sunit x v).cur := by
  have hfold : ∀ n, (((List.range n).foldl (fun t u => t.mapRun f h u) s).sunit x v).cur =
      if x = h ∧ v < n then (s.sunit x v).cur.map f else (s.sunit x v).cur := by
    intro n
    induction n with
    | zero => rw [if_neg (by omega)]; rfl
    | succ n ih =>
      rw [List.range_succ, List.foldl_append, List.foldl_cons, List.foldl_nil, State.mapRun_cur, ih]
      by_cases hv : x = h ∧ v = n
      · rw [if_pos hv, if_neg (by omega), if_pos (by omega)]
      · rw [if_neg hv]
        exact if_congr (by omega) rfl rfl
  exact hfold 4

/-- Every unit of the module runs the changed command afterwards. -/
theorem State.mapRuns_cur (s : State) (f : MemRun → MemRun) {x v : Nat} (hx : x < 16) (hv : v < 4) :
    ((s.mapRuns f).sunit x v).cur = (s.sunit x v).cur.map f := by
  have hfold : ∀ n, (((List.range n).foldl (fun t h => t.mapShoalRuns f h) s).sunit x v).cur =
      if x < n then (s.sunit x v).cur.map f else (s.sunit x v).cur := by
    intro n
    induction n with
    | zero => rfl
    | succ n ih =>
      rw [List.range_succ, List.foldl_append, List.foldl_cons, List.foldl_nil, State.mapShoalRuns_cur, ih]
      by_cases hn : x = n
      · rw [if_pos ⟨hn, hv⟩, if_neg (by omega), if_pos (by omega)]
      · rw [if_neg fun k => hn k.1]
        exact if_congr (by omega) rfl rfl
  rw [State.mapRuns_eq, hfold, if_pos hx]

/-! ### A bank turns off -/

theorem Mem.read_clear_inside (m : Mem) {a n x : Nat} (h1 : a ≤ x) (h2 : x < a + n) : Mem.read (Mem.clear m a n) x = 0 :=
  Mem.read_filter_removed _ _ fun _ => by simp [h1, h2]

theorem State.bankOff_mem (s : State) (h b : Nat) : (s.bankOff h b).mem = (s.modShoal h fun x => { x with
    banks := Tbl.set x.banks b .off, lateNoted := x.lateNoted.filter (· != b),
    staging := Mem.clear x.staging (b * 0x400000) 0x400000 }).mem := (State.endBankPower_mailboxesOnly ..).mem

theorem State.bankOff_flt (s : State) (h b : Nat) : (s.bankOff h b).flt = s.flt := (State.endBankPower_mailboxesOnly ..).flt

theorem State.bankOff_bank (s : State) (h b : Nat) : (s.bankOff h b).bank h b = .off := by
  rw [State.bank_eq_of_mem (s.bankOff_mem h b), State.bank, State.modShoal_shoal]
  exact Tbl.getD_set_self ..

theorem State.bankOff_staging (s : State) (h b : Nat) :
    ((s.bankOff h b).shoal h).staging = Mem.clear (s.shoal h).staging (b * 0x400000) 0x400000 := by
  rw [State.shoal_eq_of_mem (s.bankOff_mem h b), State.modShoal_shoal]

theorem State.bankOff_sunit (s : State) (h b x v : Nat) : (s.bankOff h b).sunit x v = s.sunit x v := by
  unfold State.sunit
  rw [State.shoal_eq_of_mem (s.bankOff_mem h b)]
  by_cases hx : x = h
  · subst hx
    rw [State.modShoal_shoal]
  · rw [State.modShoal_shoal_ne _ _ hx]

theorem State.raise_sunit (s : State) (r : RecIn) (x v : Nat) : (s.raise r).sunit x v = s.sunit x v := rfl

theorem execBankDrainDone_off {h b : Fin 16} {s : State} (hc : s.clocked = true) (hd : s.bank h b = .draining)
    (ho : s.bankOpen h b = false) : execBankDrainDone h b s = .next (s.bankOff h b) :=
  congrArg Host.Outcome.next (if_pos ⟨hc, hd, by rw [ho]; exact Bool.false_ne_true⟩)

/-- A run whose requests to bank k are given up with TIMEOUT. -/
def MemRun.giveUp (k : Nat) (r : MemRun) : MemRun :=
  if r.accepted.contains k then { r with status := opTimeout, writes := [], accepted := [] } else r

theorem MemRun.giveUp_accepted (k : Nat) (r : MemRun) : (r.giveUp k).accepted.contains k = false := by
  unfold MemRun.giveUp
  split
  · rfl
  · next h => exact Bool.eq_false_iff.2 h

/-- Once every run has given up its requests to a bank, none is open. -/
theorem State.bankOpen_giveUp {s t : State} (h b : Nat)
    (ht : ∀ x v, (t.sunit x v).cur = ((s.mapRuns (MemRun.giveUp (16 * h + b))).sunit x v).cur) : t.bankOpen h b = false := by
  rw [State.bankOpen, List.any_eq_false]
  intro x hx
  rw [Bool.not_eq_true, List.any_eq_false]
  intro v hv
  rw [ht, State.mapRuns_cur _ _ (List.mem_range.1 hx) (List.mem_range.1 hv)]
  cases (s.sunit x v).cur with
  | none => exact Bool.false_ne_true
  | some r => exact Bool.eq_false_iff.1 (MemRun.giveUp_accepted _ r)

/-- A drain past its bound gives up what is open, leaves its record, and turns the bank off. -/
theorem execBankDrainTimeout_off {h b : Fin 16} {s : State} (hc : s.clocked = true) (hd : s.bank h b = .draining)
    (ho : s.bankOpen h b = true) :
    ∃ r : RecIn, r.unit = shoalUnit h 0 0 0x3FF ∧ r.cls = clsTimeout ∧
      execBankDrainTimeout h b s = .next (((s.mapRuns (MemRun.giveUp (16 * h + b))).raise r).bankOff h b) := by
  refine ⟨_, ?_, ?_, congrArg Host.Outcome.next (if_neg ?_)⟩
  · rfl
  · rfl
  · simp [hc, hd, ho]

/-! ### Power commands -/

/-- The state once bank b of shoal h takes no new request, and each run with outputs for it may still write them. -/
def State.startDrain (s : State) (h b : Nat) : State :=
  (s.modShoal h fun x => { x with banks := Tbl.set x.banks b .draining }).mapRuns fun r =>
    if r.writesBank h b then { r with accepted := r.accepted ++ [16 * h + b] } else r

theorem State.startDrain_bank (s : State) (h b : Nat) : (s.startDrain h b).bank h b = .draining := by
  rw [State.startDrain, (State.mapRuns_unitsOnly ..).bank, State.bank, State.modShoal_shoal]
  exact Tbl.getD_set_self ..

theorem State.startDrain_mailboxes (s : State) (h b : Nat) : (s.startDrain h b).mailboxes = s.mailboxes := by
  rw [State.startDrain, (State.mapRuns_unitsOnly ..).mailboxes, State.modShoal_mailboxes]

/-- BANK_POWER off, of an own bank that is on and outside the catalogue region, is accepted and starts its drain. -/
theorem execBankPower_drains {m : Fin 34} {c : MbCmd} {s : State} (hm : s.mbFirst m 0x30E c) (hown : flag c.img 18 1 = false)
    (hmine : ((s.part? (mbPartition c.img)).map fun x => x.ownsBank (bankOf c).1 (bankOf c).2) = some true)
    (hcat : s.bankInCat (bankOf c).2 = false) (hroom : s.mbRoom m) (hoff : flag c.img 18 0 = false)
    (hon : s.bank (bankOf c).1 (bankOf c).2 = .on) :
    execBankPower m s = .next ((s.mbAccept m c).startDrain (bankOf c).1 (bankOf c).2) := by
  obtain ⟨x, hx, hmine⟩ := Option.map_eq_some_iff.1 hmine
  have hbank : (s.mbAccept m c).bank (bankOf c).1 (bankOf c).2 = .on :=
    (State.bank_eq_of_mem (s.mbAccept_mailboxesOnly m c).mem _ _).trans hon
  rw [execBankPower, State.mbRow_first _ hm]
  simp [State.mbLong_accepts _ _ hroom, hown, hx, hmine, hcat, hoff, hbank, State.startDrain]

/-- A granted bank is on, its bytes cleared, and its request has left the ledger's queue. -/
theorem execBankPowerUpDone_on {h b : Fin 16} {rest : List LedgerReq} {s : State} (hq : s.power.queue = .bank h b :: rest)
    (hc : s.clocked = true) (hoff : s.bank h b = .off) (hfits : (s.fits (.bank h b)).isSome = true) :
    execBankPowerUpDone h b s = .next (((s.grantHead (.bank h b) 0).modShoal h fun z => { z with
      banks := Tbl.set z.banks b .on, staging := Mem.clear z.staging (b.val * 0x400000) 0x400000,
      stPoison := z.stPoison.filter fun w => w / 131072 != b.val }).endBankPower h b true 0) := by
  have hnone : (s.fits (.bank h b)).isNone = false := Option.isNone_eq_false_iff.2 hfits
  simp [execBankPowerUpDone, hq, hc, hoff, hnone]

end Sys2Proof.Machine
end

section
/-! SUPPORT. Windows (06 R164-R167). -/

namespace Sys2Proof.Machine

@[simp] theorem State.modWindow_window (s : State) (w : Nat) (f : Window → Window) : (s.modWindow w f).window w = f (s.window w) :=
  Tbl.getD_set_self ..

theorem State.modWindow_window_ne (s : State) {w v : Nat} (f : Window → Window) (h : v ≠ w) :
    (s.modWindow w f).window v = s.window v := Tbl.getD_set_ne _ _ _ h

theorem State.closeWindow_window (s : State) (w : Nat) (keep : Bool) :
    (s.closeWindow w keep).window w = { s.window w with
      open_ := false, generation := (s.window w).generation + 1, noted := false, reserved := keep } := State.modWindow_window ..

theorem State.closeWindow_window_ne (s : State) {w v : Nat} (keep : Bool) (h : v ≠ w) :
    (s.closeWindow w keep).window v = s.window v := State.modWindow_window_ne _ _ h

theorem State.modMbox_window (s : State) (m : Nat) (f : Mailbox → Mailbox) (w : Nat) : (s.modMbox m f).window w = s.window w := rfl

theorem State.window_eq_of_mem {s t : State} (h : t.mem = s.mem) (w : Nat) : t.window w = s.window w := by
  unfold State.window
  rw [h]

/-- A field fits in its own width. -/
theorem ofNat_fld_toNat {w : Nat} (r : BitVec w) (off lo n : Nat) : (BitVec.ofNat n (fld r off lo n)).toNat = fld r off lo n := by
  rw [BitVec.toNat_ofNat]
  exact Nat.mod_eq_of_lt (Nat.mod_lt _ (by positivity))

/-- An open window of a partition over a reach of addresses; what it counted stays. -/
def Window.opened (y : Window) (p base size : Nat) (tag : Word) : Window :=
  { y with open_ := true, partition := p, reserved := false, base := BitVec.ofNat 40 base, size := BitVec.ofNat 40 size,
           jobTag := tag }

/-- WINDOW_OPEN of a named free window over addresses the partition reaches. -/
theorem execWindowOpen_opens {m : Fin 34} {c : MbCmd} {x : Part} {s : State} (hm : s.mbFirst m 0x309 c)
    (hp : s.part? (mbPartition c.img) = some x) (hw : fld c.img 16 0 16 ≠ 0xFFFF)
    (hfree : (s.window (fld c.img 16 0 16)).free (mbPartition c.img) = true)
    (hreach : s.windowReach (mbPartition c.img) (fld c.img 24 0 40) (fld c.img 32 0 40) = true) :
    execWindowOpen m s = .next ((s.modWindow (fld c.img 16 0 16) fun _ =>
      (s.window (fld c.img 16 0 16)).opened (mbPartition c.img) (fld c.img 24 0 40) (fld c.img 32 0 40) x.jobTag).mbEnd m c mbDone
        0xFFFF (fld c.img 16 0 16 + (s.window (fld c.img 16 0 16)).generation.toNat * 2 ^ 32)) := by
  rw [execWindowOpen, State.mbPartRow_first _ hm hp]
  simp only [hreach, not_true_eq_false, if_false, if_neg hw, hfree, if_true]
  rfl

/-- WINDOW_CLOSE of an own open window: its completion waits. -/
theorem execWindowClose_closes {m : Fin 34} {c : MbCmd} {x : Part} {s : State} (hm : s.mbFirst m 0x30A c)
    (hp : s.part? (mbPartition c.img) = some x) (hopen : (s.window (fld c.img 16 0 16)).open_ = true)
    (hmine : (s.window (fld c.img 16 0 16)).partition = mbPartition c.img) :
    execWindowClose m s = .next (((s.closeWindow (fld c.img 16 0 16) false).modWindow (fld c.img 16 0 16) fun z =>
      { z with closing := some s.count }).modMbox m fun b =>
        { b with started := b.started.filter (·.order != c.order), running := b.running ++ [c] }) := by
  rw [execWindowClose, State.mbPartRow_first _ hm hp]
  simp [hopen, hmine]

theorem State.mem_foldl {α : Type} (f : State → α → State) (hf : ∀ t x, (f t x).mem = t.mem) (l : List α) (s : State) :
    (l.foldl f s).mem = s.mem := by
  induction l generalizing s with
  | nil => rfl
  | cons x l ih => exact (ih (f s x)).trans (hf s x)

/-- WINDOW_CLOSE_COMPLETE, 10 µs after the close began: of the windows only this one changes, and it waits no longer. -/
theorem execWindowCloseComplete_completes {w : Fin 1024} {t0 : DWord} {s : State} (hclosing : (s.window w).closing = some t0)
    (hc : s.clocked = true) (hlate : 1000 ≤ s.count.toNat - t0.toNat) :
    ∃ t, execWindowCloseComplete w s = .next t ∧ t.mem = (s.modWindow w fun y => { y with closing := none }).mem := by
  have hearly : ¬ s.count.toNat - t0.toNat < 1000 := by omega
  refine ⟨_, by
    simp only [execWindowCloseComplete, hclosing, hc, hearly, not_true_eq_false, and_false, or_self, if_false]
    rfl, ?_⟩
  refine ((State.mailboxesOnly_foldl _ (fun t _ => ?_) _ _).mem).trans ?_
  · exact State.mailboxesOnly_foldl _ (fun _ _ => State.mbEnd_mailboxesOnly ..) _ t
  · have hstraits (l : List Nat) := State.mem_foldl (fun t d => t.modStrait d fun y => { y with accepted := false })
      (fun _ _ => rfl) l s
    simp only [State.modWindow, State.modMem_mem, State.window, hstraits]

/-- WINDOW_QUERY of a window that is the partition's, or nobody's, answers with its entry. -/
theorem execWindowQuery_answers {m : Fin 34} {c : MbCmd} {x : Part} {s : State} (hm : s.mbFirst m 0x30B c)
    (hp : s.part? (mbPartition c.img) = some x)
    (hmine : (s.window (fld c.img 16 0 16)).partition = mbPartition c.img ∨
      ((s.window (fld c.img 16 0 16)).open_ = false ∧ (s.window (fld c.img 16 0 16)).reserved = false)) :
    execWindowQuery m s = .next (s.mbEnd m c mbDone 0xFFFF 0 (s.window (fld c.img 16 0 16)).bytes) := by
  rw [execWindowQuery, State.mbPartRow_first _ hm hp]
  rcases hmine with h | ⟨ho, hr⟩
  · simp [h]
  · simp [ho, hr]

end Sys2Proof.Machine
end

section
/-! SUPPORT. Retirement of DRAM channels (06 R168-R171, Table 6-10). -/

namespace Sys2Proof.Machine

theorem State.fenceUnit_mem (s : State) (u : Word) (cls : Half) (seq : Word) (source : BitVec 2) (retry : Bool) :
    (s.fenceUnit u cls seq source retry).mem = s.mem := by
  obtain ⟨es, r, fs, q, h⟩ := s.fenceUnit_frame u cls seq source retry
  rw [h]

/-- The state once the first channel in line retires, its pages given the space they need. -/
def State.startRetire (s : State) (r : Retire) : State :=
  (s.modMem fun k => { k with retireQueue := k.retireQueue.drop 1 }).modMem fun k =>
    { k with chanState := Tbl.set k.chanState r.chan .retiring, retiring := some r }

/-- The first in line starts for its corrections, with its record, where the spare slices hold its pages. -/
theorem execChannelRetirementStart_corrections {ch : Fin 128} {rest : List Nat} {s : State} (hc : s.clocked = true)
    (hnone : s.mem.retiring = none) (hq : s.mem.retireQueue = ch.val :: rest)
    (hspace : s.mem.map.pages + (s.hosted ch).length ≤ ((s.spareHomes ch).map s.spareLeft).foldl (· + ·) 0) :
    ∃ (x : RecIn) (r : Retire), x.unit = chanUnit ch ∧ x.cls = clsCorrected ∧ r.chan = ch ∧
      r.pagesLeft = s.mem.map.pages + (s.hosted ch).length ∧
      execChannelRetirementStart ch .corrections s = .next ((s.freshen.raise x).startRetire r) := by
  refine ⟨{ unit := chanUnit ch, cls := clsCorrected, scope := 5, actions := actCounted + actRetiring },
    { chan := ch, moved := 0, pagesLeft := s.mem.map.pages + (s.hosted ch).length, cls := clsCorrected,
      seq := s.nextSeq (chanUnit ch), source := 1 }, rfl, rfl, rfl, rfl, ?_⟩
  simp [execChannelRetirementStart, hc, hnone, hq, hspace, State.startRetire]

/-- One page moves to the channel that takes it; no word of it is newly bad. -/
theorem execRetirementPageMove_moves {r : Retire} {key a home : Nat} {s : State} (hr : s.mem.retiring = some r)
    (hc : s.clocked = true) (hleft : 0 < r.pagesLeft) (hpage : s.retirePage r = some (key, a))
    (hhomes : s.spareHomes r.chan = [home]) (hspare : 0 < s.spareLeft home) :
    execRetirementPageMove [] false s = .next (s.modMem fun k => { k with
      remap := Tbl.set k.remap key (home, s.mem.map.pages + Tbl.getD s.mem.spareUsed home 0),
      spareUsed := Tbl.set k.spareUsed home (Tbl.getD s.mem.spareUsed home 0 + 1),
      retiring := some { r with moved := r.moved + 1, pagesLeft := r.pagesLeft - 1 } }) := by
  have hmore : r.pagesLeft ≠ 0 := by omega
  have horder : List.range 1 = [0] := rfl
  simp [execRetirementPageMove, hr, hc, hmore, hpage, hhomes, horder, Nat.mod_one, hspare]

/-- With no page left the channel is retired and fenced. -/
theorem execChannelRetirementDone_retires {r : Retire} {s : State} (hr : s.mem.retiring = some r) (hc : s.clocked = true)
    (hleft : r.pagesLeft = 0) :
    execChannelRetirementDone s = .next (((s.modMem fun k => { k with
      chanState := Tbl.set k.chanState r.chan .retired, retiring := none }).fenceUnit (chanUnit r.chan) r.cls r.seq
        r.source).endRetire r.chan mbDone) := by
  simp [execChannelRetirementDone, hr, hc, hleft]

/-- CHANNEL_RETIRE of a healthy channel is accepted and asks for its retirement. -/
theorem execChannelRetire_accepts {m : Fin 34} {c : MbCmd} {s : State} (hm : s.mbFirst m 0x207 c)
    (hch : s.chan (fld c.img 16 0 8) = .healthy) (hroom : s.mbRoom m) :
    execChannelRetire m s = .next ((s.mbAccept m c).wantRetire (fld c.img 16 0 8)) := by
  rw [execChannelRetire, State.mbRow_first _ hm]
  simp only [hch, State.mbLong_accepts _ _ hroom]

theorem State.chan_eq_of_mem {s t : State} (h : t.mem = s.mem) (c : Nat) : t.chan c = s.chan c := by
  unfold State.chan
  rw [h]

/-- Settles O18, row by row: each acts as the lemmas above say, and the ends of mailbox commands change the mailboxes alone. -/
theorem memoryRows : Obligations.MemoryRows := by
  refine ⟨?dramClean, ?dramBad, ?sramClean, ?sramBad, ?power, ?drained, ?drainTimeout, ?off, ?powerUp, ?windowOpen, ?windowClose,
    ?windowClosed, ?query, ?retireStart, ?pageMove, ?retireDone, ?retire⟩
  case dramClean =>
    intro ch word s _ _
    exact ⟨s, execDramScrub_clean ch word s, rfl⟩
  case dramBad =>
    intro ch word n a s hc hch hpage _ hchan hclean
    obtain ⟨who, hrow⟩ := execDramScrub_decodes (.uncorrectable n) hc hch hpage hclean
    obtain ⟨r, hunit, hcls, hdec⟩ := s.dramDecode_uncorrectable who (a + word % 64 * 64) n 1 (0, 0)
    obtain ⟨q, hq⟩ := ((s.poisonDram (a + word % 64 * 64)).raise r).wantRetire_frame ch
    rw [hchan] at hunit hdec
    rw [hdec] at hrow
    refine ⟨_, hrow, ?_, ?_, ?_, State.wantRetire_queued hch⟩
    · rw [hq]
      exact s.poisonDram_poisoned _
    · rw [← hunit, ← hcls, hq]
      exact ((State.recorded_raise _ r).congr rfl rfl).mono rfl
    · rw [hq, ← hchan]
      exact s.poisonDram_uncorrectable _
  case sramClean =>
    intro w s hc
    have hclean := s.scrubWord_clean w
    exact ⟨⟨_, congrArg Host.Outcome.next (if_pos hc), hclean⟩, ⟨_, congrArg Host.Outcome.next (if_pos hc), hclean⟩⟩
  case sramBad =>
    intro g k n s hc hk hp
    have hbad := State.scrubWord_poisons n hk hp
    exact ⟨⟨_, congrArg Host.Outcome.next (if_pos hc), hbad⟩, ⟨_, congrArg Host.Outcome.next (if_pos hc), hbad⟩⟩
  case power =>
    intro m c s hm hown hmine hcat hroom hoff hon
    exact ⟨_, execBankPower_drains hm hown hmine hcat hroom hoff hon,
      (s.mbAccept_taken m c).congr (State.startDrain_mailboxes ..), State.startDrain_bank ..⟩
  case drained =>
    intro h b s hc hd ho
    refine ⟨_, execBankDrainDone_off hc hd ho, s.bankOff_bank h b, fun a h1 h2 => ?_, fun a ha hwf => ?_⟩
    all_goals rw [State.bankOff_staging]
    · exact Mem.read_clear_inside _ h1 (by omega)
    · rw [Mem.read_clear hwf, if_neg (by omega)]
  case drainTimeout =>
    intro h b s hc hd ho
    obtain ⟨r, hunit, hcls, hrow⟩ := execBankDrainTimeout_off hc hd ho
    have hunits := s.mapRuns_unitsOnly (MemRun.giveUp (16 * h + b))
    refine ⟨_, hrow, State.bankOff_bank .., State.bankOpen_giveUp (s := s) h b fun x v => ?_, ?_⟩
    · rw [State.bankOff_sunit, State.raise_sunit]
    · rw [← hunit, ← hcls]
      exact ((State.recorded_raise _ r).congr (congrArg FaultSt.collectors hunits.flt) hunits.count).mono
        (by rw [State.bankOff_flt])
  case off =>
    intro h b s hc hoff
    obtain ⟨hmem, -, -⟩ := s.bankLate_frame h b rfl
    refine ⟨_, execBankOffRequest_off hc hoff, ?_, fun hn => ?_, State.bankLate_noted⟩
    · rw [State.shoal_eq_of_mem hmem, State.countLate, State.modShoal_shoal]
    · rw [State.bankLate_eq, if_neg hn]
      exact (State.recorded_raise _ (lateRecord h b)).congr rfl rfl
  case powerUp =>
    intro h b rest s hq hc hoff hfits
    have hend := State.endBankPower_mailboxesOnly ((s.grantHead (.bank h b) 0).modShoal h fun z => { z with
      banks := Tbl.set z.banks b .on, staging := Mem.clear z.staging (b.val * 0x400000) 0x400000,
      stPoison := z.stPoison.filter fun w => w / 131072 != b.val }) h b true 0
    refine ⟨_, execBankPowerUpDone_on hq hc hoff hfits, ?_, ?_, fun a h1 h2 => ?_⟩
    · rw [State.bank_eq_of_mem hend.mem, State.bank, State.modShoal_shoal]
      exact Tbl.getD_set_self ..
    · rw [hend.power]
      exact congrArg (List.drop 1) hq
    · rw [State.shoal_eq_of_mem hend.mem, State.modShoal_shoal]
      exact Mem.read_clear_inside _ h1 (by omega)
  case windowOpen =>
    intro m c x s w hm hp hw hfree hreach
    have hwin := State.window_eq_of_mem (State.mbEnd_mailboxesOnly (s.modWindow w fun _ =>
      (s.window w).opened (mbPartition c.img) (fld c.img 24 0 40) (fld c.img 32 0 40) x.jobTag) m c mbDone 0xFFFF
        (w + (s.window w).generation.toNat * 2 ^ 32) []).mem
    refine ⟨_, execWindowOpen_opens hm hp hw hfree hreach, State.modMem_mbEnd_answers .., ?_⟩
    rw [hwin, State.modWindow_window]
    exact ⟨rfl, rfl, ofNat_fld_toNat .., ofNat_fld_toNat .., rfl, rfl,
      fun v hv => (hwin v).trans (State.modWindow_window_ne _ _ hv)⟩
  case windowClose =>
    intro m c x s w hm hp hopen hmine
    refine ⟨_, execWindowClose_closes hm hp hopen hmine, ?_, ?_, ?_, fun v hv => ?_⟩
    · rw [State.modMbox_window, State.modWindow_window, State.closeWindow_window]
    · rw [State.modMbox_window, State.modWindow_window, State.closeWindow_window]
    · rw [State.modMbox_mbox]
      exact List.mem_append_right _ (List.mem_singleton_self c)
    · rw [State.modMbox_window, State.modWindow_window_ne _ _ hv, State.closeWindow_window_ne _ _ hv]
  case windowClosed =>
    intro w t0 s hclosing hc hlate
    obtain ⟨t, hrow, hmem⟩ := execWindowCloseComplete_completes hclosing hc hlate
    refine ⟨t, hrow, ?_⟩
    dsimp only
    rw [State.window_eq_of_mem hmem, State.modWindow_window]
    exact ⟨rfl, rfl⟩
  case query =>
    intro m c x s w hm hp hmine
    exact ⟨_, execWindowQuery_answers hm hp hmine, s.mbEnd_answers .., s.mbEnd_frame ..⟩
  case retireStart =>
    intro ch rest s hc hnone hq hspace
    obtain ⟨x, r, hunit, hcls, hchan, hpages, hrow⟩ := execChannelRetirementStart_corrections hc hnone hq hspace
    refine ⟨_, hrow, ?_, ?_, ?_, r, rfl, hchan, hpages⟩
    · rw [← hchan]
      exact Tbl.getD_set_self ..
    · exact congrArg (List.drop 1) hq
    · rw [← hunit, ← hcls]
      exact ((State.recorded_raise s.freshen x).congr rfl rfl).mono rfl
  case pageMove =>
    intro r key a home s hr hc hleft hpage hhomes hspare
    exact ⟨_, execRetirementPageMove_moves hr hc hleft hpage hhomes hspare, Tbl.get?_set_self .., rfl, rfl, rfl⟩
  case retireDone =>
    intro r s hr hc hleft
    refine ⟨_, execChannelRetirementDone_retires hr hc hleft, ?_, ?_, ?_⟩
    · rw [State.chan_eq_of_mem (State.endRetire_mailboxesOnly ..).mem, State.chan, State.fenceUnit_mem]
      exact Tbl.getD_set_self ..
    · rw [State.isFenced, (State.endRetire_mailboxesOnly ..).flt]
      exact State.fenceUnit_isFenced ..
    · rw [(State.endRetire_mailboxesOnly ..).mem, State.fenceUnit_mem]
      rfl
  case retire =>
    intro m c s hm hch hroom
    refine ⟨_, execChannelRetire_accepts hm hch hroom, (s.mbAccept_taken m c).congr ?_, State.wantRetire_queued ?_⟩
    · obtain ⟨q, hq⟩ := (s.mbAccept m c).wantRetire_frame (fld c.img 16 0 8)
      rw [hq]
    · rw [State.chan_eq_of_mem (s.mbAccept_mailboxesOnly m c).mem, hch]

end Sys2Proof.Machine
end

section
/-! SUPPORT. The data mesh: injection, the choice of the packet that moves, and one hop (07 R176-R179). -/

namespace Sys2Proof.Machine

/-! ### Buffers -/

/-- A packet of at most 256 bytes is a header flit and four data flits at most, which an empty router has room for. -/
theorem State.meshRoom_empty {s : State} {r : Nat} {p : MPkt} (hq : s.routerQ r = []) (hlen : p.payload.length ≤ 256) :
    s.meshRoom r p = true := by
  have hflits : p.flits ≤ 5 := by
    unfold MPkt.flits
    omega
  have hroom : p.flits ≤ if p.input = 4 then 32 else 8 := by split <;> omega
  simpa [State.meshRoom, hq] using hroom

/-- The one packet of a router is ready if it has a way on, over a link that is not retraining, to a buffer with room. -/
theorem State.meshReady_single {s : State} {d : Fin 8} {x : Fin 10} {y : Fin 4} {p : MPkt} {h : MeshHop}
    (hq : s.routerQ (d.val * 40 + y.val * 10 + x.val) = [p]) (hhop : s.meshHop d x y p.dst = h) (hgo : h ≠ .wait)
    (hlink : ∀ l, hopLink d x y h = some l → l ∉ s.net.retraining)
    (hroom : h = .eject ∨ s.meshRoom (hopTo d x y h) (p.moved y h) = true) : s.meshReady d x y = [(p, h)] := by
  have hopen : ((hopLink d x y h).map fun l => s.net.retraining.contains l).getD false = false := by
    cases hl : hopLink d x y h with
    | none => rfl
    | some l => simpa using hlink l hl
  have hkeep : ¬(h ≠ .eject ∧ ¬ s.meshRoom (hopTo d x y h) (p.moved y h) = true) := by tauto
  subst hhop
  rw [State.meshReady, hq]
  exact List.filterMap_cons_some (if_neg (not_or.2 ⟨hgo, not_or.2 ⟨Bool.eq_false_iff.1 hopen, hkeep⟩⟩))

/-- Going round six inputs from any one of them, a router comes to the input of its one ready packet. -/
theorem findSome?_round_single {e : MPkt × MeshHop} (last : Nat) (hin : e.1.input < 6) :
    ((List.range 6).findSome? fun i => [e].find? fun f => f.1.input == (last + 1 + i) % 6) = some e := by
  have hturn : (last + 1 + (e.1.input + 6 - (last + 1) % 6) % 6) % 6 = e.1.input := by omega
  have hsome : ((List.range 6).findSome? fun i => [e].find? fun f => f.1.input == (last + 1 + i) % 6).isSome = true := by
    rw [List.findSome?_isSome_iff]
    refine ⟨(e.1.input + 6 - (last + 1) % 6) % 6, List.mem_range.2 (Nat.mod_lt _ (by omega)), ?_⟩
    exact List.find?_isSome.2 ⟨e, List.mem_singleton_self e, by rw [hturn, beq_self_eq_true]⟩
  obtain ⟨f, hf⟩ := Option.isSome_iff_exists.1 hsome
  obtain ⟨i, _, hi⟩ := List.exists_of_findSome?_eq_some hf
  rw [hf, List.mem_singleton.1 (List.mem_of_find?_eq_some hi)]

/-- A single ready packet moves, by age at an edge router and in its input's turn at any other (R179). -/
theorem State.meshPick_single {s : State} {d : Fin 8} {x : Fin 10} {y : Fin 4} {e : MPkt × MeshHop}
    (hready : s.meshReady d x y = [e]) (hin : e.1.input < 6) : s.meshPick d x y = some e := by
  unfold State.meshPick
  rw [hready]
  dsimp only
  split
  · rfl
  · exact findSome?_round_single _ hin

/-! ### Routes (R177) -/

/-- At its destination a packet leaves the mesh. -/
theorem State.meshHop_arrived (s : State) (d : Fin 8) (x : Fin 10) (y : Fin 4) :
    s.meshHop d x y (d.val * 40 + y.val * 10 + x.val) = .eject := by
  have hd : (d.val * 40 + y.val * 10 + x.val) / 40 = d.val := by omega
  have hx : (d.val * 40 + y.val * 10 + x.val) % 10 = x.val := by omega
  have hy : (d.val * 40 + y.val * 10 + x.val) % 40 / 10 = y.val := by omega
  simp [State.meshHop, State.meshMove, hd, hx, hy]

theorem State.meshFenced_none {s : State} (hf : s.flt.fenced = []) (hl : s.net.linkFenced = []) (d x y dir : Nat) :
    s.meshFenced d x y dir = false := by
  simp [State.meshFenced, State.isFenced, hf, hl]

/-- On its destination's die, west of it and with nothing fenced, a packet goes east and keeps its buffer class. -/
theorem State.meshHop_east {s : State} (hf : s.flt.fenced = []) (hl : s.net.linkFenced = []) {d x y dst : Nat}
    (hdie : dst / 40 = d) (hx : x < dst % 10) : s.meshHop d x y dst = .dir 2 false := by
  have hne : x ≠ dst % 10 := by omega
  simp [State.meshHop, State.meshMove, State.meshFenced_none hf hl, hdie, hx, hne]

/-! ### MESH_PACKET -/

/-- An injected packet takes its place in its source router's local buffer. -/
theorem execMeshPacket_inject {d : Fin 8} {x : Fin 10} {y : Fin 4} {dst : Nat} {payload : List Byte} {s : State} (cls : Fin 4)
    (hc : s.clocked = true) (hp : (s.region (d.val * 16 + 12)).powered = true) (hdst : dst < 320)
    (hlen : payload.length ≤ 256) (hq : s.routerQ (d.val * 40 + y.val * 10 + x.val) = []) :
    ∃ p : MPkt, p.src = d.val * 40 + y.val * 10 + x.val ∧ p.dst = dst ∧ p.payload = payload ∧ p.since = s.count ∧
      execMeshPacket d x y (.inject (d.val * 40 + y.val * 10 + x.val) dst cls payload) s = .next (s.modNet fun n =>
        { n with routers := Tbl.set n.routers (d.val * 40 + y.val * 10 + x.val)
                              (s.routerQ (d.val * 40 + y.val * 10 + x.val) ++ [p]) }) := by
  let p : MPkt := { src := d.val * 40 + y.val * 10 + x.val, dst := dst, vc := cls, upper := false, input := 5,
                    since := s.count, payload := payload }
  have hroom : s.meshRoom (d.val * 40 + y.val * 10 + x.val) p = true := State.meshRoom_empty hq hlen
  have hruns : ¬(¬ s.clocked = true ∨ ¬ (s.region (d.val * 16 + 12)).powered = true) := by simp [hc, hp]
  have htaken : ¬(p.src ≠ d.val * 40 + y.val * 10 + x.val ∨ dst ≥ 320 ∨ payload.length > 256 ∨
      ¬ s.meshRoom (d.val * 40 + y.val * 10 + x.val) p = true) := by
    simp [p, hdst, hlen, hroom]
  exact ⟨p, rfl, rfl, rfl, rfl, congrArg Host.Outcome.next ((if_neg hruns).trans (if_neg htaken))⟩

/-- The state once a router has given up a packet that leaves over a link. -/
def State.meshTake (s : State) (r : Nat) (p : MPkt) (l : Option OnDieLink) : State :=
  s.modNet fun n => { n with routers := Tbl.set n.routers r ((s.routerQ r).erase p), served := Tbl.set n.served r p.input,
                             failed := n.failed.filter fun e => some e.1 != l }

theorem execMeshPacket_forward {d : Fin 8} {x : Fin 10} {y : Fin 4} {p : MPkt} {h : MeshHop} {s : State}
    (hc : s.clocked = true) (hp : (s.region (d.val * 16 + 12)).powered = true) (hpick : s.meshPick d x y = some (p, h)) :
    execMeshPacket d x y .forward s = .next (
      let r := d.val * 40 + y.val * 10 + x.val
      let s1 := s.meshTake r p (hopLink d x y h)
      if h = .eject then s1.modNet fun n => { n with ejected := Tbl.set n.ejected r (Tbl.getD n.ejected r [] ++ [p]) }
      else s1.modNet fun n => { n with
        routers := Tbl.set n.routers (hopTo d x y h) (s1.routerQ (hopTo d x y h) ++ [p.moved y h]) }) := by
  unfold execMeshPacket
  simp only [hc, hp, hpick]
  rfl

theorem execMeshPacket_crcFail {d : Fin 8} {x : Fin 10} {y : Fin 4} {p : MPkt} {h : MeshHop} {l : OnDieLink} {s : State}
    (hc : s.clocked = true) (hp : (s.region (d.val * 16 + 12)).powered = true) (hpick : s.meshPick d x y = some (p, h))
    (hl : hopLink d x y h = some l) : execMeshPacket d x y .crcFail s = .next (s.retryLink l) := by
  simp [execMeshPacket, hc, hp, hpick, hl]

end Sys2Proof.Machine
end

section
/-! SUPPORT. Links: the counts of retries and retrainings, and their records (07 R180). -/

namespace Sys2Proof.Machine

/-- A count stands in a register of the isle die, of the strait die or of any other die. -/
theorem State.countLink_frame (s : State) (l : OnDieLink) (retrain : Bool) :
    ∃ f a b c, s.countLink l retrain =
      { s with fab := f, net := { s.net with isleRetry := a, isleRetrain := b, dieRetry := c } } := by
  unfold State.countLink
  dsimp only
  split
  · cases retrain <;> exact ⟨_, _, _, _, rfl⟩
  · split <;> exact ⟨_, _, _, _, rfl⟩

/-- A failed flit leaves the local count and the packets where they are, and joins the link's retries of the last second. -/
theorem State.retryLink_retries (s : State) (l : OnDieLink) :
    (s.retryLink l).count = s.count ∧ (s.retryLink l).net.routers = s.net.routers ∧
      (s.retryLink l).net.retries =
        (s.net.retries.filter fun e => decide (s.count.toNat - e.2.toNat < 100000000)) ++ [(l, s.count)] := by
  obtain ⟨f, a, b, c, h⟩ := s.countLink_frame l false
  unfold State.retryLink
  rw [h]
  dsimp only
  split <;> exact ⟨rfl, rfl, rfl⟩

theorem State.retryLink_linkRetries (s : State) (l : OnDieLink) : (s.retryLink l).linkRetries l = s.linkRetries l + 1 := by
  obtain ⟨hcount, _, hretries⟩ := s.retryLink_retries l
  have hrecent (e : OnDieLink × DWord) :
      ((e.1 == l && decide (s.count.toNat - e.2.toNat < 100000000)) && decide (s.count.toNat - e.2.toNat < 100000000)) =
        (e.1 == l && decide (s.count.toNat - e.2.toNat < 100000000)) := by
    rw [Bool.and_assoc, Bool.and_self]
  rw [State.linkRetries, hcount, hretries, List.countP_append, List.countP_filter]
  simp only [hrecent]
  simp [State.linkRetries]

/-- A record of a link names the link's unit. -/
theorem State.recorded_onDieRecord (s : State) (l : OnDieLink) (cls : Half) (scope actions : Nat) :
    s.recorded (s.onDieRecord l cls scope actions) (onDieUnit l) cls := State.recorded_raise s _

theorem execLinkRetrain_starts {l : OnDieLink} {s : State} (hc : s.clocked = true) (hr : l ∉ s.net.retraining)
    (hl : l ∉ s.net.linkFenced) (hf : s.isFenced (onDieUnit l) = false) :
    execLinkRetrain l s = .next (((s.countLink l true).modNet fun n =>
      { n with retraining := n.retraining ++ [l] }).onDieRecord l clsRetrain 0 actCounted) := by
  simp [execLinkRetrain, hc, hr, hl, hf]

/-- The state once a link no longer retrains. -/
def State.endRetrain (s : State) (l : OnDieLink) : State :=
  s.modNet fun n => { n with retraining := n.retraining.filter (· != l), failed := n.failed.filter fun e => e.1 != l }

theorem State.endRetrain_retraining (s : State) (l : OnDieLink) : l ∉ (s.endRetrain l).net.retraining := by
  simp [State.endRetrain]

theorem execLinkRetrainDone_ok {l : OnDieLink} {s : State} (hc : s.clocked = true) (hr : l ∈ s.net.retraining) :
    execLinkRetrainDone l true s = .next (s.endRetrain l) := by
  simp [execLinkRetrainDone, hc, hr, State.endRetrain]

/-- A crossing that fails its retraining leaves its record and its fence. -/
theorem execLinkRetrainDone_port {k : Fin 4} {die : Fin 16} {grp : Fin 7} {m : Fin 6} {s : State} (hc : s.clocked = true)
    (hr : OnDieLink.port k die grp m ∈ s.net.retraining) :
    execLinkRetrainDone (.port k die grp m) false s =
      .next (((s.endRetrain (.port k die grp m)).onDieRecord (.port k die grp m) clsRetrain 6 actFenced).fenceUnit
        (mkUnit k die 0 0 15 grp m) clsRetrain (s.nextSeq (mkUnit k die 0 0 15 grp m))) := by
  unfold execLinkRetrainDone
  exact congrArg Host.Outcome.next (if_neg (by simp [hc, hr]))

theorem State.fenceUnit_net (s : State) (u : Word) (cls : Half) (seq : Word) (source : BitVec 2) (retry : Bool) :
    (s.fenceUnit u cls seq source retry).net = s.net := by
  obtain ⟨es, r, fs, q, h⟩ := s.fenceUnit_frame u cls seq source retry
  rw [h]

end Sys2Proof.Machine
end

section
/-! SUPPORT. The causeway and the clocks (07 R184-R190). -/

namespace Sys2Proof.Machine

/-- A whole message for one node, with a way there, is delivered there. -/
theorem execCausewayMessage_delivers {node : Fin 32} {header : Word} {payload : List Word} {path : List Nat} {s : State}
    (hc : s.clocked = true) (hcls : bits header.toNat 29 3 < 6) (hlen : payload.length = bits header.toNat 12 6 + 1)
    (hbc : bits header.toNat 28 1 = 0) (hpath : s.causePath 33 node (bits header.toNat 23 5) = some path) :
    execCausewayMessage node header payload true s =
      .next (s.causeDeliver (bits header.toNat 23 5) { header := header, payload := payload }) := by
  have hclass : ¬ 6 ≤ bits header.toNat 29 3 := by omega
  simp [execCausewayMessage, State.causeSend, hc, hclass, hlen, hbc, hpath]

/-- A message with a bad CRC or a class that is not used is counted and goes no further. -/
theorem execCausewayMessage_discards {node : Fin 32} {header : Word} (payload : List Word) {crcOk : Bool} {s : State}
    (hc : s.clocked = true) (hbad : crcOk = false ∨ 6 ≤ bits header.toNat 29 3) :
    execCausewayMessage node header payload crcOk s = .next (s.countLink (.causeway node node) false) := by
  unfold execCausewayMessage
  simp only [hc, not_true_eq_false, if_false]
  refine congrArg Host.Outcome.next (if_pos ?_)
  rcases hbad with hcrc | hcls
  · exact .inl (by simp [hcrc])
  · exact .inr (.inl hcls)

/-- With no message waiting, the new tables are all that changes. -/
theorem execCausewayRouteRewrite_tables {s : State} (hr : s.hubRuns = true) (hw : s.net.causeWaiting = []) :
    execCausewayRouteRewrite s = .next (s.modNet fun n => { n with causeRoute := s.causeTables }) := by
  have hsame : ({ s.net with causeRoute := s.causeTables, causeWaiting := [] } : NetSt) =
      { s.net with causeRoute := s.causeTables } := by rw [← hw]
  rw [execCausewayRouteRewrite, if_pos hr, hw]
  exact congrArg (fun n => Host.Outcome.next { s with net := n }) hsame

/-- The state once a die runs from OSC1. -/
def State.switchOsc (s : State) (node : Nat) : State :=
  s.modNet fun n => { n with onOsc1 := n.onOsc1 ++ [node], switchAt := s.count }

theorem execOscFailover_switches {node : Fin 32} {s : State} (hc : s.clocked = true) (hosc : s.net.osc1 = true)
    (hon : node.val ∉ s.net.onOsc1) :
    ∃ r : RecIn, r.unit = dieUnit node ∧ r.cls = clsTimeout ∧
      execOscFailover node s = .next ((s.switchOsc node).raise r) := by
  refine ⟨_, ?_, ?_, congrArg Host.Outcome.next (if_neg (by simp [hc, hosc, hon]))⟩
  · rfl
  · rfl

/-- With both oscillators lost the module stops and its local count with it. -/
theorem execOscillatorsLost_stops {s : State} (hp : s.life.powered = true) :
    execOscillatorsLost s = .next ((s.modNet fun n => { n with osc0 := false, osc1 := false }).modLife fun l =>
      { l with state := .stopped }) :=
  congrArg Host.Outcome.next (if_neg (not_not_intro hp))

theorem State.setMeshStep_takes {s : State} {step : BitVec 4} (d half : Nat) (hc : s.clocked = true) (hs : step.toNat < 4) :
    s.setMeshStep d half step = s.modNet fun n => { n with meshStep := Tbl.set n.meshStep (2 * d + half) step } :=
  if_pos ⟨hc, hs⟩

theorem State.setMeshStep_ignores (s : State) {step : BitVec 4} (d half : Nat) (hs : 4 ≤ step.toNat) :
    s.setMeshStep d half step = s :=
  if_neg fun h => absurd h.2 (Nat.not_lt.2 hs)

/-- A region that no reconfiguration holds takes its new step and a set point. -/
theorem execArithmeticStepChange_steps {d : Fin 8} {r : Fin 10} {s : State} (hc : s.clocked = true)
    (hp : (s.region (d.val * 16 + r.val)).powered = true)
    (hstep : s.stepNow (d.val * 16 + r.val) ≠ s.stepFor (d.val * 16 + r.val))
    (hrec : s.regionReconf (d.val * 16 + r.val) = false) :
    ∃ v, execArithmeticStepChange d r s = .next ((s.modNet fun n =>
      { n with arith := Tbl.set n.arith (d.val * 16 + r.val) (s.stepFor (d.val * 16 + r.val)) }).modPower fun p =>
        { p with setpoint := Tbl.set p.setpoint (d.val * 16 + r.val) v }) :=
  ⟨_, congrArg Host.Outcome.next (if_neg (by simp [hc, hp, hstep, hrec]))⟩

/-- The running arithmetic clocks once atoll g's is set. -/
def ungate (g : Nat) (on : Bool) (l : List Nat) : List Nat :=
  if !on then l.filter (· != g) else if l.contains g then l else l ++ [g]

theorem mem_ungate (g : Nat) (on : Bool) (l : List Nat) : g ∈ ungate g on l ↔ on = true := by
  cases on with
  | false => simp [ungate]
  | true =>
    by_cases h : g ∈ l <;> simp [ungate, h]

theorem execArithmeticUngate_sets {g : Fin 320} {s : State} (hc : s.clocked = true) :
    execArithmeticUngate g s =
      .next (s.modNet fun n => { n with ungated := ungate g ((s.positionOf g).isSome || (s.atoll g).suite) n.ungated }) :=
  congrArg Host.Outcome.next (if_neg (not_not_intro hc))

end Sys2Proof.Machine
end

section
/-! SUPPORT. The rows of the meshes, the links, the causeway and the clocks (07 R176-R190). -/

namespace Sys2Proof.Machine

/-- Settles O17, row by row: each acts as the lemmas above say. -/
theorem networkAndClocks : Obligations.NetworkAndClocks := by
  refine ⟨?inject, ?eject, ?east, ?crcFail, ?retrain, ?retrained, ?fenced, ?delivered, ?discarded, ?tables, ?failover, ?lost,
    ?meshStep, ?arithStep, ?ungated⟩
  case inject =>
    intro d x y dst cls payload s r hc hp hdst hlen hq
    obtain ⟨p, hsrc, hto, hpay, hsince, hrow⟩ := execMeshPacket_inject cls hc hp hdst hlen hq
    exact ⟨_, hrow, rfl, ⟨p, Tbl.getD_set_self .., hsrc, hto, hpay, hsince⟩, fun k hk => Tbl.getD_set_ne _ _ _ hk⟩
  case eject =>
    intro d x y p s r hc hp hq hin hdst
    have hhop : s.meshHop d x y p.dst = .eject := hdst ▸ s.meshHop_arrived d x y
    have hready := State.meshReady_single hq hhop nofun nofun (.inl rfl)
    refine ⟨_, execMeshPacket_forward hc hp (State.meshPick_single hready hin), ?_, Tbl.getD_set_self .., rfl⟩
    calc Tbl.getD (Tbl.set s.net.routers r ((s.routerQ r).erase p)) r []
      _ = (s.routerQ r).erase p := Tbl.getD_set_self ..
      _ = [] := by rw [hq, List.erase_cons_head]
  case east =>
    intro d x y p s r hc hp hq hin hdie hx hf hl hr hnext hlen
    have hhop : s.meshHop d x y p.dst = .dir 2 false := State.meshHop_east hf hl hdie hx
    have hmoved : p.moved y (.dir 2 false) = { p with input := 3 } := by simp [MPkt.moved, hopUpper, hopInput]
    have hready := State.meshReady_single hq hhop nofun (fun l _ => hr ▸ List.not_mem_nil)
      (.inr (State.meshRoom_empty hnext hlen))
    have hne : r ≠ r + 1 := by omega
    refine ⟨_, execMeshPacket_forward hc hp (State.meshPick_single hready hin), ?_, ?_, rfl⟩
    · calc Tbl.getD (Tbl.set (Tbl.set s.net.routers r ((s.routerQ r).erase p)) (r + 1) _) r []
        _ = (s.routerQ r).erase p := by rw [Tbl.getD_set_ne _ _ _ hne, Tbl.getD_set_self]
        _ = [] := by rw [hq, List.erase_cons_head]
    · calc Tbl.getD (Tbl.set (Tbl.set s.net.routers r ((s.routerQ r).erase p)) (r + 1) _) (r + 1) []
        _ = Tbl.getD (Tbl.set s.net.routers r ((s.routerQ r).erase p)) (r + 1) [] ++ [p.moved y (.dir 2 false)] :=
          Tbl.getD_set_self ..
        _ = [{ p with input := 3 }] := by
          rw [Tbl.getD_set_ne _ _ _ hne.symm, hmoved]
          exact congrArg (· ++ [_]) hnext
  case crcFail =>
    intro d x y p h l s hc hp hpick hl
    obtain ⟨_, hrouters, _⟩ := s.retryLink_retries l
    exact ⟨_, execMeshPacket_crcFail hc hp hpick hl, hrouters, s.retryLink_linkRetries l⟩
  case retrain =>
    intro l s hc hr hl hf
    obtain ⟨f, a, b, c, hcount⟩ := s.countLink_frame l true
    refine ⟨_, execLinkRetrain_starts hc hr hl hf, ?_, (State.recorded_onDieRecord ..).congr ?_ ?_⟩
    all_goals rw [hcount]; rfl
  case retrained =>
    intro l s hc hr
    exact ⟨_, execLinkRetrainDone_ok hc hr, s.endRetrain_retraining l, rfl, rfl⟩
  case fenced =>
    intro k die grp m s hc hr
    refine ⟨_, execLinkRetrainDone_port hc hr, ?_, State.fenceUnit_isFenced .., ?_⟩
    · rw [State.fenceUnit_net]
      exact s.endRetrain_retraining _
    · have hrec := (s.endRetrain (.port k die grp m)).recorded_onDieRecord (.port k die grp m) clsRetrain 6 actFenced
      exact (hrec.congr rfl rfl).mono (State.fenceUnit_collectors ..)
  case delivered =>
    intro node header payload path s hc hcls hlen hbc hpath
    exact ⟨_, execCausewayMessage_delivers hc hcls hlen hbc hpath, rfl, Tbl.getD_set_self ..⟩
  case discarded =>
    intro node header payload crcOk s hc hbad
    obtain ⟨f, a, b, c, hcount⟩ := s.countLink_frame (.causeway node node) false
    refine ⟨_, execCausewayMessage_discards payload hc hbad, ?_, ?_⟩
    all_goals rw [hcount]
  case tables =>
    intro s hr hw
    exact ⟨_, execCausewayRouteRewrite_tables hr hw, rfl⟩
  case failover =>
    intro node s hc hosc hon
    obtain ⟨r, hunit, hcls, hrow⟩ := execOscFailover_switches hc hosc hon
    refine ⟨_, hrow, rfl, rfl, ?_⟩
    rw [← hunit, ← hcls]
    exact (State.recorded_raise (s.switchOsc node) r).congr rfl rfl
  case lost =>
    intro s hp
    exact ⟨_, execOscillatorsLost_stops hp, Bool.and_false _, rfl, rfl, rfl⟩
  case meshStep =>
    intro d half step s hc
    refine ⟨s.setMeshStep d half step, rfl, fun hs => ?_, s.setMeshStep_ignores d half⟩
    rw [State.setMeshStep_takes d half hc hs]
    exact Tbl.getD_set_self ..
  case arithStep =>
    intro d r s key hc hp hstep hrec
    obtain ⟨v, hrow⟩ := execArithmeticStepChange_steps hc hp hstep hrec
    exact ⟨_, hrow, Tbl.getD_set_self .., rfl, rfl⟩
  case ungated =>
    intro g s hc
    exact ⟨_, execArithmeticUngate_sets hc, mem_ungate .., rfl⟩

end Sys2Proof.Machine
end

section
/-! SUPPORT. What a strait link sends: codewords, packets, and everything that may leave (08 R195, R196, R202, R209). -/

namespace Sys2Proof.Machine

/-! ### What sending changes -/

/-- Of a link only what its own sending moves may differ: its sequence number, what it owes, what it holds and its allowances. -/
def FLink.onlySends (x y : FLink) : Prop :=
  y = { x with txNext := y.txNext, replay := y.replay, waiting := y.waiting, allowance := y.allowance, tookVc2 := y.tookVc2,
               nakDue := y.nakDue, owed := y.owed }

/-- Only link l may differ, by its sending, and the codewords that left. -/
def State.onlySends (s t : State) (l : Nat) : Prop :=
  t = { s with fab := { s.fab with links := t.fab.links, sent := t.fab.sent } } ∧ (s.link l).onlySends (t.link l)

theorem FLink.onlySends.trans {x y z : FLink} (h : x.onlySends y) (k : y.onlySends z) : x.onlySends z := by
  unfold FLink.onlySends at *
  rw [k, h]

theorem State.onlySends_refl (s : State) (l : Nat) : s.onlySends s l := ⟨rfl, rfl⟩

theorem State.onlySends.trans {s t u : State} {l : Nat} (h : s.onlySends t l) (k : t.onlySends u l) : s.onlySends u l := by
  obtain ⟨ht, hl⟩ := h
  obtain ⟨hu, kl⟩ := k
  refine ⟨?_, hl.trans kl⟩
  rw [hu, ht]

theorem State.onlySends.mem {s t : State} {l : Nat} (h : s.onlySends t l) : t.mem = s.mem := by rw [h.1]
theorem State.onlySends.atolls {s t : State} {l : Nat} (h : s.onlySends t l) : t.atolls = s.atolls := by rw [h.1]
theorem State.onlySends.flt {s t : State} {l : Nat} (h : s.onlySends t l) : t.flt = s.flt := by rw [h.1]
theorem State.onlySends.straits {s t : State} {l : Nat} (h : s.onlySends t l) : t.fab.straits = s.fab.straits := by rw [h.1]

theorem State.strait_of_straits {s t : State} (h : t.fab.straits = s.fab.straits) (d : Nat) : t.strait d = s.strait d := by
  rw [State.strait, h]
  rfl

theorem State.onlySends.strait {s t : State} {l : Nat} (h : s.onlySends t l) (d : Nat) : t.strait d = s.strait d :=
  State.strait_of_straits h.straits d

/-- A change of link l by its sending. -/
theorem State.onlySends_modLink (s : State) (l : Nat) {f : FLink → FLink} (hf : (s.link l).onlySends (f (s.link l))) :
    s.onlySends (s.modLink l f) l := by
  refine ⟨rfl, ?_⟩
  rw [State.modLink_link]
  exact hf

/-- Codewords put on the lanes. -/
def State.putCodewords (s : State) (cs : List (Nat × BitVec 20 × List Byte)) : State :=
  s.modFab fun f => { f with sent := f.sent ++ cs }

theorem State.putCodewords_onlySends (s : State) (l : Nat) (cs : List (Nat × BitVec 20 × List Byte)) :
    s.onlySends (s.putCodewords cs) l := ⟨rfl, rfl⟩

@[simp] theorem State.putCodewords_link (s : State) (cs : List (Nat × BitVec 20 × List Byte)) (l : Nat) :
    (s.putCodewords cs).link l = s.link l := rfl

/-! ### One codeword -/

/-- Link l sends one codeword, which may hold the packet whose last byte it carries. -/
def State.sendCw (s : State) (l : Nat) (body : List Byte) (p : Option OutPkt) : State :=
  (s.modLink l fun _ => ((s.link l).emit body p).1).putCodewords [(l, ((s.link l).emit body p).2)]

@[simp] theorem State.sendCw_link (s : State) (l : Nat) (body : List Byte) (p : Option OutPkt) :
    (s.sendCw l body p).link l = ((s.link l).emit body p).1 := by
  rw [State.sendCw, State.putCodewords_link, State.modLink_link]

theorem State.sendCw_onlySends (s : State) (l : Nat) (body : List Byte) (p : Option OutPkt) :
    s.onlySends (s.sendCw l body p) l := by
  have hlink : s.onlySends (s.modLink l fun _ => ((s.link l).emit body p).1) l := s.onlySends_modLink l rfl
  exact hlink.trans (State.putCodewords_onlySends ..)

theorem State.sendCw_sent (s : State) (l : Nat) (body : List Byte) (p : Option OutPkt) :
    (s.sendCw l body p).fab.sent.length = s.fab.sent.length + 1 := List.length_append ..

theorem State.sendFill_eq (s : State) (l : Nat) :
    s.sendFill l = if (s.link l).replay.length ≥ 255 then s else s.sendCw l (fillBody []) none := rfl

/-- Fill changes a link only by its sending. -/
theorem State.sendFill_onlySends (s : State) (l : Nat) : s.onlySends (s.sendFill l) l := by
  rw [State.sendFill_eq]
  split
  · exact s.onlySends_refl l
  · exact s.sendCw_onlySends ..

/-! ### One packet -/

/-- The codeword of body b of a packet with n bodies: the last one holds the packet. -/
def State.sendBody (l : Nat) (p : OutPkt) (n : Nat) (s : State) (b : List Byte × Nat) : State :=
  s.sendCw l b.1 (if b.2 + 1 = n then some p else none)

theorem State.emitPacket_eq (s : State) (l : Nat) (p : OutPkt) :
    s.emitPacket l p = (bodiesOf p.out.bytes).zipIdx.foldl (State.sendBody l p (bodiesOf p.out.bytes).length) s := rfl

theorem chunks_ne_nil {α : Type} (k n : Nat) {l : List α} (h : l ≠ []) : chunks (k + 1) n l ≠ [] := by
  cases l with
  | nil => exact absurd rfl h
  | cons x l => exact List.cons_ne_nil _ _

/-- A packet leaves in at least one codeword. -/
theorem bodiesOf_ne_nil (p : FPkt) : bodiesOf p.bytes ≠ [] := by
  have hbytes : p.bytes ≠ [] := List.cons_ne_nil _ _
  simp [bodiesOf, chunks_ne_nil _ _ hbytes]

theorem State.emitPacket_onlySends (s : State) (l : Nat) (p : OutPkt) : s.onlySends (s.emitPacket l p) l := by
  rw [State.emitPacket_eq]
  exact List.foldlRecOn (motive := fun t : State => s.onlySends t l) _ _ (s.onlySends_refl l) fun t ht b _ =>
    ht.trans (t.sendCw_onlySends ..)

/-- A packet that leaves takes no other packet from the link's output, and spends nothing by itself. -/
theorem State.emitPacket_link (s : State) (l : Nat) (p : OutPkt) :
    ((s.emitPacket l p).link l).waiting = (s.link l).waiting ∧ ((s.emitPacket l p).link l).allowance = (s.link l).allowance := by
  rw [State.emitPacket_eq]
  refine List.foldlRecOn (motive := fun t : State => (t.link l).waiting = (s.link l).waiting ∧
    (t.link l).allowance = (s.link l).allowance) _ _ ⟨rfl, rfl⟩ fun t ht b _ => ?_
  rw [State.sendBody, State.sendCw_link]
  exact ht

theorem State.foldl_sendBody_sent (l n : Nat) (p : OutPkt) (bs : List (List Byte × Nat)) (s : State) :
    (bs.foldl (State.sendBody l p n) s).fab.sent.length = s.fab.sent.length + bs.length := by
  induction bs generalizing s with
  | nil => rfl
  | cons b bs ih =>
    rw [List.foldl_cons, ih, State.sendBody, State.sendCw_sent, List.length_cons]
    omega

theorem State.emitPacket_sent_lt (s : State) (l : Nat) (p : OutPkt) : s.fab.sent.length < (s.emitPacket l p).fab.sent.length := by
  have hpos := List.length_pos_of_ne_nil (bodiesOf_ne_nil p.out)
  rw [State.emitPacket_eq, State.foldl_sendBody_sent, List.length_zipIdx]
  omega

/-- A codeword sent joins the replay buffer behind those that wait there. -/
theorem State.replay_sendCw (s : State) (l : Nat) (body : List Byte) (p : Option OutPkt) :
    ∃ c, c.pkt = p ∧ ((s.sendCw l body p).link l).replay = (s.link l).replay ++ [c] := by
  rw [State.sendCw_link]
  exact ⟨_, rfl, rfl⟩

theorem State.emitPacket_replay_mono {s : State} {l : Nat} (p : OutPkt) {c : TxCw} (h : c ∈ (s.link l).replay) :
    c ∈ ((s.emitPacket l p).link l).replay := by
  rw [State.emitPacket_eq]
  refine List.foldlRecOn (motive := fun t : State => c ∈ (t.link l).replay) _ _ h fun t ht b _ => ?_
  obtain ⟨c', _, hc'⟩ := t.replay_sendCw l b.1 (if b.2 + 1 = (bodiesOf p.out.bytes).length then some p else none)
  rw [State.sendBody, hc']
  exact List.mem_append_left _ ht

/-- The last codeword of a packet holds it. -/
theorem State.emitPacket_holds (s : State) (l : Nat) (p : OutPkt) : ∃ c ∈ ((s.emitPacket l p).link l).replay, c.pkt = some p := by
  have hsplit := List.dropLast_concat_getLast (bodiesOf_ne_nil p.out)
  rw [State.emitPacket_eq]
  generalize (bodiesOf p.out.bytes).getLast _ = b at hsplit
  generalize (bodiesOf p.out.bytes).dropLast = bs at hsplit
  rw [← hsplit, List.zipIdx_append, List.foldl_append]
  obtain ⟨c, hc, hreplay⟩ := State.replay_sendCw (List.foldl (State.sendBody l p (bs ++ [b]).length) s bs.zipIdx) l b (some p)
  refine ⟨c, ?_, hc⟩
  have hlast : 0 + bs.length + 1 = (bs ++ [b]).length := by simp
  show c ∈ ((State.sendCw _ l b (if 0 + bs.length + 1 = (bs ++ [b]).length then some p else none)).link l).replay
  rw [if_pos hlast, hreplay]
  exact List.mem_append_right _ (List.mem_singleton_self c)

/-! ### Everything that may leave -/

/-- Link x once it serves packet p of its output. -/
def FLink.served (x : FLink) (p : OutPkt) : FLink :=
  { x with waiting := x.waiting.erase p, allowance := Tbl.set x.allowance p.out.code (x.left p.out.code - p.out.units),
           tookVc2 := if p.out.vc = 2 then true else if p.out.vc = 0 then false else x.tookVc2 }

/-- What holds before a link sends and outlasts each packet it serves holds after it sent everything that may leave. -/
theorem State.pumpLink_induct {l : Nat} {P : State → Prop}
    (hserve : ∀ t p, P t → P ((t.modLink l fun x => x.served p).emitPacket l p)) (k : Nat) {s : State} (hs : P s) :
    P (State.pumpLink k s l) := by
  induction k generalizing s with
  | zero => exact hs
  | succ k ih =>
    unfold State.pumpLink
    dsimp only
    split
    · exact hs
    · split
      · exact hs
      · exact ih (hserve s _ hs)

theorem State.flushLink_onlySends (s : State) (l : Nat) : s.onlySends (s.flushLink l) l := by
  refine State.pumpLink_induct (P := fun t => s.onlySends t l) (fun t p ht => ?_) _ (s.onlySends_refl l)
  have hserved : t.onlySends (t.modLink l fun x => x.served p) l := t.onlySends_modLink l rfl
  exact (ht.trans hserved).trans (State.emitPacket_onlySends ..)

/-- Packet p waits at a link's output or is held by a codeword not yet acknowledged. -/
def FLink.holds (x : FLink) (p : OutPkt) : Prop := p ∈ x.waiting ∨ ∃ c ∈ x.replay, c.pkt = some p

/-- Sending loses no packet: one served is held until its acknowledgement. -/
theorem State.flushLink_holds {s : State} {l : Nat} {p : OutPkt} (h : (s.link l).holds p) : ((s.flushLink l).link l).holds p := by
  refine State.pumpLink_induct (P := fun t => (t.link l).holds p) (fun t q ht => ?_) _ h
  rcases ht with hw | ⟨c, hc, hp⟩
  · by_cases hq : p = q
    · exact .inr (hq ▸ State.emitPacket_holds ..)
    · left
      rw [(State.emitPacket_link ..).1, State.modLink_link]
      exact (List.mem_erase_of_ne hq).2 hw
  · refine .inr ⟨c, State.emitPacket_replay_mono q ?_, hp⟩
    rw [State.modLink_link]
    exact hc

/-! ### Replay -/

/-- A codeword sent again from link l: its body as it was, its control field with fresh acknowledgement. -/
def FLink.again (x : FLink) (l : Nat) (c : TxCw × Nat) : Nat × BitVec 20 × List Byte :=
  (l, BitVec.ofNat 20 (c.1.seq * 4096 + (x.rxNext + 255) % 256 * 16 + (if c.2 = 0 then b2n x.nakDue * 8 else 0) + c.1.credit),
    c.1.body)

theorem State.replayLink_eq (s : State) (l : Nat) :
    s.replayLink l = (s.modLink l fun x => if x.replay.isEmpty then x else { x with nakDue := false }).putCodewords
      ((s.link l).replay.zipIdx.map ((s.link l).again l)) := rfl

theorem State.replayLink_onlySends (s : State) (l : Nat) : s.onlySends (s.replayLink l) l := by
  rw [State.replayLink_eq]
  refine (s.onlySends_modLink l ?_).trans (State.putCodewords_onlySends ..)
  split <;> rfl

/-- Replay sends the bodies of every unacknowledged codeword, in order. -/
theorem State.replayLink_sent (s : State) (l : Nat) :
    ((s.replayLink l).fab.sent.map fun w => (w.1, w.2.2)) =
      (s.fab.sent.map fun w => (w.1, w.2.2)) ++ (s.link l).replay.map fun c => (l, c.body) := by
  have hbodies : ((s.link l).replay.zipIdx.map ((s.link l).again l)).map (fun w => (w.1, w.2.2)) =
      (s.link l).replay.map fun c => (l, c.body) := by
    conv_rhs => rw [← List.zipIdx_map_fst 0 (s.link l).replay]
    rw [List.map_map, List.map_map]
    rfl
  rw [← hbodies]
  exact List.map_append ..

theorem State.replayLink_replay (s : State) (l : Nat) : ((s.replayLink l).link l).replay = (s.link l).replay := by
  rw [State.replayLink_eq, State.putCodewords_link, State.modLink_link]
  split <;> rfl

end Sys2Proof.Machine
end

section
/-! SUPPORT. Rows of the strait links (08 R195-R198, R204). -/

namespace Sys2Proof.Machine

/-! ### Records and counts of a link -/

@[simp] theorem State.linkRecord_link (s : State) (l lane : Nat) (cls : Half) (actions scope k : Nat) :
    (s.linkRecord l lane cls actions scope).link k = s.link k := rfl

@[simp] theorem State.linkRecord_strait (s : State) (l lane : Nat) (cls : Half) (actions scope d : Nat) :
    (s.linkRecord l lane cls actions scope).strait d = s.strait d := rfl

/-- A record that names one lane of a link. -/
theorem State.recorded_linkRecord (s : State) (l : Nat) (lane : Fin 2) (cls : Half) (actions scope : Nat) :
    s.recorded (s.linkRecord l lane cls actions scope) (linkUnit l lane) cls := by
  have hlane : lane.val ≠ 0xFF := by omega
  have hrec : s.recorded (s.linkRecord l lane cls actions scope) (linkUnit l (if lane.val = 0xFF then 0x3FF else lane)) cls :=
    s.recorded_raise _
  rwa [if_neg hlane] at hrec

@[simp] theorem State.modLink_strait (s : State) (l : Nat) (f : FLink → FLink) (d : Nat) :
    (s.modLink l f).strait d = s.strait d := rfl

/-- A retry changes link l's account of its retries alone, and its die's counter. -/
theorem State.countRetry_spec (s : State) (l lane : Nat) :
    (s.countRetry l lane).fab.sent = s.fab.sent ∧
    (∃ r q, (s.countRetry l lane).link l = { s.link l with retries := r, lastRetry := q }) ∧
    (s.countRetry l lane).strait (l / 16) =
      { s.strait (l / 16) with retry := satAdd32 (s.strait (l / 16)).retry 1 } := by
  unfold State.countRetry
  dsimp only
  split
  · exact ⟨rfl, ⟨_, _, by rw [State.linkRecord_link, State.modLink_link, State.modStrait_link, State.modLink_link]⟩, by simp⟩
  · exact ⟨rfl, ⟨_, _, by rw [State.modStrait_link, State.modLink_link]⟩, by simp⟩

/-! ### Codewords received (R195, R196) -/

/-- What a codeword from link l moves at its receiving end, and the memories, which no codeword moves. -/
def State.receiver (s : State) (l : Nat) : (Nat × Bool) × Tbl Atoll × MemSt :=
  (((s.link l).rxNext, (s.link l).seeking), s.atolls, s.mem)

theorem State.onlySends.receiver {s t : State} {l : Nat} (h : s.onlySends t l) : t.receiver l = s.receiver l := by
  rw [State.receiver, h.atolls, h.mem, h.2]
  rfl

theorem State.foldl_receiver {α : Type} (f : State → α → State) (l : Nat) (hf : ∀ t x, (f t x).receiver l = t.receiver l)
    (xs : List α) (s : State) : (xs.foldl f s).receiver l = s.receiver l :=
  List.foldlRecOn (motive := fun t : State => t.receiver l = s.receiver l) xs f rfl fun t ht x _ => (hf t x).trans ht

theorem State.free_receiver (s : State) (l : Nat) (p : FPkt) : (s.modLink l fun x => x.free p).receiver l = s.receiver l := by
  rw [State.receiver, State.modLink_link]
  rfl

theorem State.arrive_receiver (s : State) (l d : Nat) (link : Option Nat) (p : FPkt) :
    (s.arrive d link p).receiver l = s.receiver l := rfl

theorem State.countFec_receiver (s : State) (l : Nat) : (s.countFec l).receiver l = s.receiver l := by
  unfold State.countFec
  dsimp only
  split
  · rw [State.receiver, State.linkRecord_link, State.modLink_link]
    rfl
  · rfl

/-- An accepted codeword moves the expected number on and ends a search; no memory changes. -/
theorem State.acceptCodeword_receiver (s : State) (l : Nat) (cw : Codeword) :
    (s.acceptCodeword l cw).receiver l = ((((s.link l).rxNext + 1) % 256, false), s.atolls, s.mem) := by
  unfold State.acceptCodeword
  dsimp only
  have hout (t : State) : (if (t.flushLink l).fab.sent.length = t.fab.sent.length then (t.flushLink l).sendFill l
      else t.flushLink l).receiver l = t.receiver l := by
    split
    · exact ((t.flushLink_onlySends l).trans (State.sendFill_onlySends ..)).receiver
    · exact (t.flushLink_onlySends l).receiver
  have hreplay (b : Prop) [Decidable b] (t : State) : (if b then t.replayLink l else t).receiver l = t.receiver l := by
    split
    · exact (t.replayLink_onlySends l).receiver
    · rfl
  rw [hout, hreplay, State.foldl_receiver _ _ fun t p => t.arrive_receiver l _ _ p,
    State.foldl_receiver _ _ fun t p => t.free_receiver l p, State.receiver, State.modLink_link]
  rfl

/-- A good codeword with the expected number. -/
theorem execCodewordReceive_accepts {l : Fin 96} {cw : Codeword} {n : Nat} {s : State} (ha : (s.link l).alive = true)
    (hf : s.life.frozen = false) (hfec : cw.fec = .good n) (hn : n ≤ 13) (hseq : bits cw.ctrl.toNat 12 8 = (s.link l).rxNext) :
    execCodewordReceive l cw s = .next ((if n > 0 then s.countFec l else s).acceptCodeword l cw) := by
  have hgood : ¬ n > 13 := by omega
  simp [execCodewordReceive, ha, hf, hfec, hgood, hseq]

/-- A codeword that does not decode, or has another number, starts a counted retry. -/
theorem execCodewordReceive_retries {l : Fin 96} {cw : Codeword} {s : State} (ha : (s.link l).alive = true)
    (hf : s.life.frozen = false) (hseek : (s.link l).seeking = false)
    (hbad : cw.fec = .uncorrectable ∨ bits cw.ctrl.toNat 12 8 ≠ (s.link l).rxNext ∧ cw.fec = .good 0) :
    ∃ lane, execCodewordReceive l cw s =
      .next (((s.modLink l fun x => { x with seeking := true, nakDue := true }).countRetry l lane).sendFill l) := by
  rcases hbad with hfec | ⟨hseq, hfec⟩
  · exact ⟨_, by simp [execCodewordReceive, ha, hf, hfec, hseek]; rfl⟩
  · exact ⟨_, by simp [execCodewordReceive, ha, hf, hfec, hseek, hseq]; rfl⟩

theorem execReplayTimeout_replays {l : Fin 96} {s : State} (ha : (s.link l).alive = true) (hf : s.life.frozen = false)
    (hr : (s.link l).replay ≠ []) : ∃ lane, execReplayTimeout l s = .next ((s.countRetry l lane).replayLink l) := by
  have hne : (s.link l).replay.isEmpty = false := by simpa using hr
  exact ⟨_, by simp [execReplayTimeout, ha, hf, hne]; rfl⟩

/-! ### Retraining (R197) -/

/-- A link of two whole lanes that retrains one: the other carries on, and a record names the lane. -/
theorem State.retrain_lane {s : State} {l : Nat} (lane : Fin 2) (hr : (s.link l).retraining = 0)
    (hfence : (s.link l).fencedLanes = 0) :
    ((s.retrain l (2 ^ lane.val) lane).link l).retraining = BitVec.ofNat 2 (2 ^ lane.val) ∧
    ((s.retrain l (2 ^ lane.val) lane).link l).state = 7 + lane.val ∧
    s.recorded (s.retrain l (2 ^ lane.val) lane) (linkUnit l lane) clsRetrain := by
  obtain ⟨st, hst, hbits⟩ : ∃ st : Nat, st = 7 + lane.val ∧
      s.retrain l (2 ^ lane.val) lane = State.linkRecord ((s.modLink l fun x => { x with
        retraining := BitVec.ofNat 2 (2 ^ lane.val), retrains := min 255 (x.retrains + 1), state := st }).modStrait (l / 16)
          fun y => { y with retrain := satAdd32 y.retrain 1 }) l lane clsRetrain actCounted 0 := by
    refine ⟨_, rfl, ?_⟩
    unfold State.retrain
    simp only [hr, hfence]
    fin_cases lane <;> rfl
  rw [hbits]
  refine ⟨?_, ?_, (State.recorded_linkRecord ..).congr rfl rfl⟩
  · simp
  · simp [hst]

/-- Retraining both lanes leaves the link unusable. -/
theorem State.retrain_both (s : State) (l lane : Nat) :
    s.retrain l 3 lane = (State.linkRecord ((s.modLink l fun x => { x with
      retraining := (x.retraining ||| 3#2) &&& ~~~ x.fencedLanes, retrains := min 255 (x.retrains + 1), state := 1 }).modStrait
        (l / 16) fun y => { y with retrain := satAdd32 y.retrain 1 }) l lane clsRetrain actCounted 0).dropLink l := by
  have hall : ∀ r f : BitVec 2, ((r ||| 3#2) &&& ~~~ f) ||| f = 3#2 := by decide
  unfold State.retrain
  simp only [BitVec.ofNat_eq_ofNat, hall, if_true]
  rfl

/-- The packets an unusable link gives back: unacknowledged and waiting ones but for LINK_CONTROL. -/
def FLink.back (x : FLink) : List OutPkt :=
  ((x.replay.filterMap fun c => c.pkt) ++ x.waiting).filter fun p => p.pkt.kind != 15

/-- Packets that keep their link: branches of a multicast, and floods. -/
def OutPkt.stays (p : OutPkt) : Bool := p.pkt.mcast || p.pkt.kind == 7

theorem State.dropLink_link (s : State) (l : Nat) :
    (s.dropLink l).link l = { s.link l with
      replay := [], waiting := (s.link l).back.filter OutPkt.stays, tail := [], seeking := false, nakDue := false, owed := [],
      freed := [], txNext := 0, rxNext := 0, allowance := fullAllowance } := by
  unfold State.dropLink
  rw [State.modStrait_link, State.modLink_link]
  rfl

/-- Every packet given back waits at the link or is an arrival to be routed again. -/
theorem State.dropLink_arrivals (s : State) (l : Nat) :
    ((s.dropLink l).strait (l / 16)).arrivals.length + ((s.dropLink l).link l).waiting.length =
      (s.strait (l / 16)).arrivals.length + (s.link l).back.length := by
  have harr : ((s.dropLink l).strait (l / 16)).arrivals = (((s.link l).back.filter fun p => !p.stays).map fun p =>
      ({ link := p.src, held := false, pkt := p.pkt } : Arrived)) ++ (s.strait (l / 16)).arrivals :=
    congrArg Strait.arrivals (State.modStrait_strait ..)
  have hwait : ((s.dropLink l).link l).waiting = (s.link l).back.filter OutPkt.stays := by rw [State.dropLink_link]
  have hsplit := (s.link l).back.length_eq_length_filter_add OutPkt.stays
  rw [harr, hwait, List.length_append, List.length_map]
  omega

theorem execLinkRetryLimit_retrains {l : Fin 96} {lane : Fin 2} {s : State} (hst : (s.link l).state = 2)
    (hf : s.life.frozen = false) (hlim : s.param 0x0808 ≤ (s.retriesIn l 100000).length)
    (hlane : lane.val = (if ((s.retriesIn l 100000).countP fun e => e.2 == 1) > ((s.retriesIn l 100000).countP fun e => e.2 == 0)
      then 1 else 0)) :
    execLinkRetryLimit l s = .next (s.retrain l (2 ^ lane.val) lane) := by
  have hlt : ¬ (s.retriesIn l 100000).length < s.param 0x0808 := by omega
  rw [hlane]
  simp [execLinkRetryLimit, FLink.carries, hst, hf, hlt]

theorem execLinkCreditTimeout_retrains {l : Fin 96} {s : State} (hc : (s.link l).carries = true)
    (hw : ((s.link l).waiting.any fun p => decide ((s.link l).left p.out.code < p.out.units)) = true)
    (hf : s.life.frozen = false) : execLinkCreditTimeout l s = .next (s.retrain l 3 0xFF) := by
  simp only [execLinkCreditTimeout, hc, hw, hf]
  rfl

theorem execLaneSignalLoss_retrains {l : Fin 96} {lane : Fin 2} {s : State} (hst : (s.link l).state = 2)
    (hr : (s.link l).retraining = 0) (hfence : (s.link l).fencedLanes = 0) :
    execLaneSignalLoss l lane s = .next (s.retrain l (2 ^ lane.val) lane) := by
  simp [execLaneSignalLoss, FLink.carries, hst, hr, hfence]

section
variable {l : Fin 96} {lane : Fin 2} {s : State} (hr : (s.link l).retraining = BitVec.ofNat 2 (2 ^ lane.val))
  (hfence : (s.link l).fencedLanes = 0) (hen : (s.link l).enable = true) (hfmt : (s.link l).peerFormat = some s.cells)
include hr hfence hen hfmt

/-- Of a link whose other lane is whole: a lane that comes back gives the link its width. -/
theorem execLaneRetrainDone_ok : ∃ y : FLink, (y.retraining = 0 ∧ y.state = 2 ∧ y.fencedLanes = 0) ∧
    execLaneRetrainDone l lane true s = .next ((s.modLink l fun _ => y).flushLink l) := by
  fin_cases lane
  all_goals
    refine ⟨_, ?_, by
      simp [execLaneRetrainDone, FLink.widthState, hr, hfence, hen, hfmt]
      rfl⟩
    exact ⟨rfl, rfl, rfl⟩

/-- One that does not come back is fenced, with a record, and the link is left with the other. -/
theorem execLaneRetrainDone_fails :
    ∃ y : FLink, (y.retraining = 0 ∧ y.state = 4 - lane.val ∧ y.fencedLanes = BitVec.ofNat 2 (2 ^ lane.val)) ∧
      execLaneRetrainDone l lane false s =
        .next ((State.linkRecord (s.modLink l fun _ => y) l lane clsNarrow (actCounted + actFenced) 6).flushLink l) := by
  fin_cases lane
  all_goals
    refine ⟨_, ?_, by
      simp [execLaneRetrainDone, FLink.widthState, hr, hfence, hen, hfmt]
      rfl⟩
    exact ⟨rfl, rfl, rfl⟩

end

/-! ### Training (R198) -/

/-- Training brings an enabled link up at the width its lanes give, and touches no other link. -/
theorem State.trainLink_spec {s : State} {l : Nat} (lane0 lane1 : Bool) (hen : (s.link l).enable = true) :
    ((s.trainLink l lane0 lane1).link l).state =
      (match lane0, lane1 with | true, true => 2 | true, false => 3 | false, true => 4 | false, false => 0) ∧
    ((s.trainLink l lane0 lane1).link l).retraining = 0 ∧ ∀ k, k ≠ l → (s.trainLink l lane0 lane1).link k = s.link k := by
  unfold State.trainLink
  dsimp only
  cases lane0 <;> cases lane1
  all_goals
    refine ⟨?_, ?_, fun k hk => ?_⟩
    · simp [b2n, FLink.widthState, hen]
    · simp [b2n]
    · simp [b2n, State.modLink_link_ne _ _ hk]

theorem execLinkTraining_trains {l : Fin 96} {s : State} (lane0 lane1 : Bool) (hp : s.life.powered = true)
    (hst : (s.link l).state ≤ 1) : execLinkTraining l lane0 lane1 s = .next (s.trainLink l lane0 lane1) := by
  have hup : ¬ (s.link l).state > 1 := by omega
  simp [execLinkTraining, hp, hup]

/-! ### LINK_CONTROL (R204) -/

theorem execLinkControlSend_sends {l : Fin 96} {s : State} (ha : (s.link l).alive = true) (hf : s.life.frozen = false)
    (hr : (s.link l).replay.length < 255) (hu : (s.controlPacket l).units ≤ (s.link l).left 7) :
    execLinkControlSend l s = .next ((s.modLink l fun x =>
      { x with allowance := Tbl.set x.allowance 7 (x.left 7 - (s.controlPacket l).units) }).emitPacket l
        { src := none, pkt := s.controlPacket l, out := s.controlPacket l }) := by
  have hroom : ¬ (s.link l).replay.length ≥ 255 := by omega
  have hleft : ¬ (s.link l).left 7 < (s.controlPacket l).units := by omega
  simp [execLinkControlSend, ha, hf, hroom, hleft]

/-- What a link knows of its peer, and the LINK_CONTROL messages that wait. -/
def FLink.peer (x : FLink) : List (List Byte) × (Bool × Bool × Option Bool) × Nat × Nat :=
  (x.controlIn, (x.peerFwd, x.peerIdValid, x.peerFormat), x.peerModule, x.peerLink)

theorem State.flushLink_peer (s : State) (l : Nat) : ((s.flushLink l).link l).peer = (s.link l).peer := by
  rw [(s.flushLink_onlySends l).2]
  rfl

theorem State.dropLink_peer (s : State) (l : Nat) : ((s.dropLink l).link l).peer = (s.link l).peer := by
  rw [State.dropLink_link]
  rfl

/-- The fields of the LINK_CONTROL payload (Table 8-12), and its reserved bits. -/
theorem controlPayload_bits (fwd idv fmt : Bool) {id link : Nat} (hid : id < 8192) (hlink : link < 128) :
    let v := b2n fwd + 2 * b2n idv + 4 * b2n fmt + id * 2 ^ 16 + link * 2 ^ 32
    (bits v 0 1 = b2n fwd ∧ bits v 1 1 = b2n idv ∧ bits v 2 1 = b2n fmt ∧ bits v 16 13 = id ∧ bits v 32 7 = link) ∧
      bits v 3 13 = 0 ∧ bits v 29 3 = 0 ∧ bits v 39 89 = 0 := by
  have hbit (b : Bool) : b2n b < 2 := by cases b <;> decide
  have h0 := hbit fwd
  have h1 := hbit idv
  have h2 := hbit fmt
  generalize b2n fwd = x at *
  generalize b2n idv = y at *
  generalize b2n fmt = z at *
  simp only [bits]
  omega

theorem b2n_beq_one (b : Bool) : (b2n b == 1) = b := by cases b <;> rfl

/-- Link x once it has taken over what its peer says in payload v (Table 8-12). -/
def FLink.hear (x : FLink) (cells : Bool) (v : Nat) : FLink :=
  let y := { x with peerFwd := bits v 0 1 == 1, peerIdValid := bits v 1 1 == 1, peerFormat := some (bits v 2 1 == 1),
                    peerModule := if bits v 1 1 = 1 then bits v 16 13 else 0, peerLink := bits v 32 7 }
  { y with state := if y.carries ∨ y.state = 5 then (if y.retraining = 0 then y.widthState cells else y.state) else y.state }

theorem FLink.hear_peer (x : FLink) (cells : Bool) (v : Nat) :
    (x.hear cells v).peer = (x.controlIn, (bits v 0 1 == 1, bits v 1 1 == 1, some (bits v 2 1 == 1)),
      (if bits v 1 1 = 1 then bits v 16 13 else 0), bits v 32 7) := rfl

/-- The state once link l has taken the first LINK_CONTROL message, with payload v. -/
def State.heard (s : State) (l : Nat) (rest : List (List Byte)) (v : Nat) : State :=
  (s.modLink l fun x => { x with controlIn := rest }).modLink l fun x => x.hear s.cells v

theorem State.heard_link (s : State) (l : Nat) (rest : List (List Byte)) (v : Nat) :
    (s.heard l rest v).link l = ({ s.link l with controlIn := rest }).hear s.cells v := by
  rw [State.heard, State.modLink_link, State.modLink_link]

/-- A LINK_CONTROL message with its header and no reserved bit is taken over; the link then sends, or gives its packets back. -/
theorem execLinkControl_hears {l : Fin 96} {b : List Byte} {rest : List (List Byte)} {v : Nat} {s : State}
    (hin : (s.link l).controlIn = b :: rest) (hhead : leNat (b.take 8) = msgHeader 0 16 0 false false none)
    (hv : leNat ((b.drop 8).take 16) = v) (h3 : bits v 3 13 = 0) (h29 : bits v 29 3 = 0) (h39 : bits v 39 89 = 0) :
    execLinkControl l s = .next (if ((s.heard l rest v).link l).state = 5 ∧ (s.link l).state ≠ 5
      then (s.heard l rest v).dropLink l else (s.heard l rest v).flushLink l) := by
  have hres : bits (msgHeader 0 16 0 false false none) 52 12 = 0 := by decide
  have hlen : bits (msgHeader 0 16 0 false false none) 9 12 = 15 := by decide
  simp only [execLinkControl, hin, hhead, hv, h3, h29, h39, hres, hlen]
  rfl

/-! ### The rows -/

/-- Settles O15, row by row: each acts as the lemmas above say, and what a link sends moves none of what the row set. -/
theorem fabricLinks : Obligations.FabricLinks := by
  refine ⟨?accepted, ?retried, ?replayed, ?limit, ?credit, ?loss, ?retrained, ?trained, ?controlSent, ?control⟩
  case accepted =>
    intro l cw n s ha hf hfec hn hseq
    refine ⟨_, execCodewordReceive_accepts ha hf hfec hn hseq, ?_⟩
    generalize hs1 : (if n > 0 then s.countFec l else s) = s1
    have hcount : s1.receiver l = s.receiver l := by
      subst hs1
      split
      · exact s.countFec_receiver l
      · rfl
    have hrecv := s1.acceptCodeword_receiver l cw
    simp only [State.receiver, Prod.mk.injEq] at hcount hrecv
    obtain ⟨⟨hnext, -⟩, hatolls, hmem⟩ := hcount
    obtain ⟨⟨hnext', hseek'⟩, hatolls', hmem'⟩ := hrecv
    exact ⟨by rw [hnext', hnext], hseek', hatolls'.trans hatolls, hmem'.trans hmem⟩
  case retried =>
    intro l cw s ha hf hseek hbad
    obtain ⟨lane, hrow⟩ := execCodewordReceive_retries ha hf hseek hbad
    generalize hs1 : (s.modLink l fun x => { x with seeking := true, nakDue := true }) = s1 at hrow
    obtain ⟨_, ⟨r, q, hlink⟩, hstrait⟩ := s1.countRetry_spec l lane
    have hfill := (s1.countRetry l lane).sendFill_onlySends l
    refine ⟨_, hrow, ?_, ?_, ?_, ?_⟩
    · rw [hfill.2, hlink, ← hs1, State.modLink_link]
    · rw [hfill.2, hlink, ← hs1, State.modLink_link]
    · rw [hfill.strait, hstrait, ← hs1, State.modLink_strait]
    · rw [hfill.strait, hstrait, ← hs1, State.modLink_strait]
  case replayed =>
    intro l s ha hf hr
    obtain ⟨lane, hrow⟩ := execReplayTimeout_replays ha hf hr
    obtain ⟨hsent, ⟨r, q, hlink⟩, hstrait⟩ := s.countRetry_spec l lane
    refine ⟨_, hrow, ?_, ?_, ?_⟩
    · rw [State.replayLink_sent, hsent, hlink]
    · rw [State.replayLink_replay, hlink]
    · rw [(State.replayLink_onlySends ..).strait, hstrait]
  case limit =>
    intro l lane s hst hr hfence hf hlim hlane
    exact ⟨_, execLinkRetryLimit_retrains hst hf hlim hlane, State.retrain_lane lane hr hfence⟩
  case credit =>
    intro l s hc hw hf
    refine ⟨_, execLinkCreditTimeout_retrains hc hw hf, ?_⟩
    rw [State.retrain_both]
    generalize hs1 : State.linkRecord _ l 0xFF clsRetrain actCounted 0 = s1
    have hlink : ∃ re n, s1.link l = { s.link l with retraining := re, retrains := n, state := 1 } :=
      ⟨_, _, by rw [← hs1, State.linkRecord_link, State.modStrait_link, State.modLink_link]⟩
    have harr : (s1.strait (l / 16)).arrivals = (s.strait (l / 16)).arrivals := by
      rw [← hs1, State.linkRecord_strait, State.modStrait_strait, State.modLink_strait]
    obtain ⟨re, n, hlink⟩ := hlink
    have hback : (s1.link l).back = (s.link l).back := by rw [hlink]; rfl
    refine ⟨?_, ?_, fun p hp => ?_, ?_⟩
    · rw [State.dropLink_link, hlink]
    · rw [State.dropLink_link]
    · rw [State.dropLink_link] at hp
      simpa [OutPkt.stays] using (List.mem_filter.1 hp).2
    · rw [State.dropLink_arrivals, harr, hback]
      rfl
  case loss =>
    intro l lane s hst hr hfence
    exact ⟨_, execLaneSignalLoss_retrains hst hr hfence, State.retrain_lane lane hr hfence⟩
  case retrained =>
    intro l lane s hr hfence hen hfmt
    obtain ⟨y, ⟨hr', hst, hfence'⟩, hok⟩ := execLaneRetrainDone_ok hr hfence hen hfmt
    obtain ⟨z, ⟨kr, kst, kfence⟩, hfail⟩ := execLaneRetrainDone_fails hr hfence hen hfmt
    refine ⟨⟨_, hok, ?_⟩, ⟨_, hfail, ?_⟩⟩
    all_goals dsimp only
    · rw [(State.flushLink_onlySends ..).2, State.modLink_link]
      exact ⟨hr', hst, hfence', (State.flushLink_onlySends ..).flt⟩
    · rw [(State.flushLink_onlySends ..).2, State.linkRecord_link, State.modLink_link]
      have hrec := (State.recorded_linkRecord (s.modLink l fun _ => z) l lane clsNarrow (actCounted + actFenced) 6).congr (s := s)
        rfl rfl
      exact ⟨kr, kst, kfence, hrec.mono (congrArg FaultSt.collectors (State.flushLink_onlySends ..).flt)⟩
  case trained =>
    intro l lane0 lane1 s hp hst hen
    exact ⟨_, execLinkTraining_trains lane0 lane1 hp hst, State.trainLink_spec lane0 lane1 hen⟩
  case controlSent =>
    intro l s ha hf hr hu
    refine ⟨_, execLinkControlSend_sends ha hf hr hu, State.emitPacket_sent_lt (s.modLink l _) l _, ?_⟩
    rw [FLink.left, (State.emitPacket_link ..).2, State.modLink_link]
    exact Tbl.getD_set_self ..
  case control =>
    intro l fwd idv fmt id link b rest s hin hhead hid hlink hpay
    obtain ⟨⟨h0, h1, h2, hid', hlink'⟩, h3, h29, h39⟩ := controlPayload_bits fwd idv fmt hid hlink
    generalize hv : b2n fwd + 2 * b2n idv + 4 * b2n fmt + id * 2 ^ 16 + link * 2 ^ 32 = v at *
    refine ⟨_, execLinkControl_hears hin hhead hpay h3 h29 h39, ?_⟩
    generalize ht : (if ((s.heard l rest v).link l).state = 5 ∧ (s.link l).state ≠ 5 then (s.heard l rest v).dropLink l
      else (s.heard l rest v).flushLink l) = t
    have hpeer : (t.link l).peer = ((s.heard l rest v).link l).peer := by
      rw [← ht]
      split
      · exact State.dropLink_peer ..
      · exact State.flushLink_peer ..
    have hone : b2n idv = 1 ↔ idv = true := by cases idv <;> decide
    simp only [State.heard_link, FLink.hear_peer, h0, h1, h2, hid', hlink', hone, b2n_beq_one] at hpeer
    simp only [FLink.peer, Prod.mk.injEq] at hpeer
    obtain ⟨hin', ⟨hfwd, hidv, hfmt⟩, hmod, hpl⟩ := hpeer
    exact ⟨hin', hfwd, hidv, hfmt, hmod, hpl⟩

end Sys2Proof.Machine
end

section
/-! SUPPORT. Packets that arrive at a strait die (08 R203, R206, R211, R216). -/

namespace Sys2Proof.Machine

/-! ### An arrival leaves its die's list -/

/-- The state once arrival a has left die d's list, with the input buffer it held freed. -/
def State.takeArrival (s : State) (d : Nat) (a : Arrived) (rest : List Arrived) : State :=
  match a.held, a.link with
  | true, some l => (s.modStrait d fun x => { x with arrivals := rest }).modLink l fun x => x.free a.pkt
  | _, _ => s.modStrait d fun x => { x with arrivals := rest }

/-- A freed input buffer changes link l's account of credit alone. -/
theorem State.takeArrival_frame (s : State) (d : Nat) (a : Arrived) (rest : List Arrived) :
    ∃ ls, s.takeArrival d a rest = { s with fab := { s.fab with
        links := ls, straits := Tbl.set s.fab.straits d { s.strait d with arrivals := rest } } } ∧
      ∀ k, ∃ f o, Tbl.getD ls k FLink.reset = { s.link k with freed := f, owed := o } := by
  unfold State.takeArrival
  split
  · next l _ _ =>
    refine ⟨_, rfl, fun k => ?_⟩
    by_cases hk : k = l
    · subst hk
      exact ⟨_, _, Tbl.getD_set_self ..⟩
    · exact ⟨_, _, Tbl.getD_set_ne _ _ _ hk⟩
  · exact ⟨_, rfl, fun k => ⟨_, _, rfl⟩⟩

@[simp] theorem State.takeArrival_strait (s : State) (d : Nat) (a : Arrived) (rest : List Arrived) :
    (s.takeArrival d a rest).strait d = { s.strait d with arrivals := rest } := by
  obtain ⟨ls, h, -⟩ := s.takeArrival_frame d a rest
  rw [h]
  exact Tbl.getD_set_self ..

theorem State.takeArrival_strait_ne (s : State) {d e : Nat} (a : Arrived) (rest : List Arrived) (he : e ≠ d) :
    (s.takeArrival d a rest).strait e = s.strait e := by
  obtain ⟨ls, h, -⟩ := s.takeArrival_frame d a rest
  rw [h]
  exact Tbl.getD_set_ne _ _ _ he

@[simp] theorem State.takeArrival_route (s : State) (d : Nat) (a : Arrived) (rest : List Arrived) (m : Nat) :
    (s.takeArrival d a rest).route m = s.route m := by
  obtain ⟨ls, h, -⟩ := s.takeArrival_frame d a rest
  rw [h]
  rfl

@[simp] theorem State.takeArrival_linkUsable (s : State) (d : Nat) (a : Arrived) (rest : List Arrived) (k : Nat) :
    (s.takeArrival d a rest).linkUsable k = s.linkUsable k := by
  obtain ⟨ls, h, hls⟩ := s.takeArrival_frame d a rest
  obtain ⟨f, o, hk⟩ := hls k
  have hlink : (s.takeArrival d a rest).link k = { s.link k with freed := f, owed := o } := by rw [h]; exact hk
  have hown : (s.takeArrival d a rest).ownId = s.ownId := by rw [h]; rfl
  unfold State.linkUsable
  rw [hlink, hown]
  rfl

@[simp] theorem State.takeArrival_routeLinks (s : State) (d : Nat) (a : Arrived) (rest : List Arrived) (e : Nat) :
    (s.takeArrival d a rest).routeLinks e = s.routeLinks e := by
  simp only [State.routeLinks, State.takeArrival_linkUsable]

/-! ### What becomes of a unicast packet (R211) -/

theorem State.forwards_not_frozen {s : State} (h : s.forwards = true) : s.life.frozen = false := by
  unfold State.forwards at h
  rw [Bool.and_eq_true, Bool.not_eq_true'] at h
  exact h.2

/-- A good unicast packet at a module that forwards: dropped at the hop limit, taken, or routed on. -/
theorem execFabricPacketArrival_unicast {d : Fin 6} {a : Arrived} {rest : List Arrived} {s : State}
    (harr : (s.strait d).arrivals = a :: rest) (hp : s.life.powered = true) (hfw : s.forwards = true)
    (hbad : a.pkt.bad s.cells = false) (hkind : a.pkt.kind ≠ 7) (hm : a.pkt.mcast = false) :
    execFabricPacketArrival d s = .next (
      if a.link.isSome ∧ a.pkt.hops = s.param 0x0805 then
        (s.takeArrival d a rest).modStrait d fun x => { x with hopDrop := satAdd32 x.hopDrop 1 }
      else if s.ownId = some a.pkt.dest ∨ bits (s.route a.pkt.dest) 24 1 = 1 then (s.takeArrival d a rest).takeLocal d a.pkt
      else (s.takeArrival d a rest).routePacket d a.link a.pkt) := by
  have hf := State.forwards_not_frozen hfw
  simp only [execFabricPacketArrival, harr, hp, hf, hbad, hkind, hm, hfw]
  rfl

/-- An ACK frame goes to the interface its packet names (R206, Table 8-14). -/
theorem State.takeLocal_ack {s : State} (d : Nat) {p : FPkt} (hk : p.kind = 1) (hlen : bits (leNat (p.data.take 8)) 9 12 = 15)
    (hbad : msgBad 1 ((p.data.drop 8).take 16) = false) :
    ∃ m : FMsg, m.payload = (p.data.drop 8).take 16 ∧ m.src = p.src ∧
      s.takeLocal d p = s.modStrait (p.dend % 6) fun x => { x with ackIn := x.ackIn ++ [m] } := by
  have hpay : (mkMsg p (leNat (p.data.take 8)) (p.data.drop 8)).1.payload = (p.data.drop 8).take 16 := by
    simp only [mkMsg, hlen]
  refine ⟨(mkMsg p (leNat (p.data.take 8)) (p.data.drop 8)).1, hpay, rfl, ?_⟩
  have hlocal : s.takeLocal d p = s.deliverMsg d (mkMsg p (leNat (p.data.take 8)) (p.data.drop 8)).1
      (mkMsg p (leNat (p.data.take 8)) (p.data.drop 8)).2 := by
    simp [State.takeLocal, hk, singleKind]
  have hkind : (mkMsg p (leNat (p.data.take 8)) (p.data.drop 8)).1.kind = 1 := hk
  rw [hlocal, State.deliverMsg, hkind, hpay, hbad]
  rfl

theorem State.routePacket_none {s : State} (d : Nat) (src : Option Nat) {p : FPkt} (h : s.routeLinks (s.route p.dest) = []) :
    s.routePacket d src p = s.modStrait d fun x => { x with noRoute := satAdd32 x.noRoute 1 } := by
  simp only [State.routePacket, h]

/-- An entry without the spread bit takes its first usable link. -/
theorem State.routePacket_first {s : State} (d : Nat) (src : Option Nat) {p : FPkt} {l : Nat} {ls : List Nat}
    (hspread : bits (s.route p.dest) 25 1 = 0) (h : s.routeLinks (s.route p.dest) = l :: ls) :
    s.routePacket d src p = s.putLink src l p := by
  simp [State.routePacket, h, hspread]

/-- A packet put on a link's output waits there or has left and is held. -/
theorem State.putLink_holds (s : State) (src : Option Nat) (l : Nat) (p : FPkt) :
    ((s.putLink src l p).link l).holds { src := src, pkt := p, out := s.leaving src l p } := by
  refine State.flushLink_holds (.inl ?_)
  rw [State.modLink_link]
  exact List.mem_append_right _ (List.mem_singleton_self _)

theorem State.putLink_straits (s : State) (src : Option Nat) (l : Nat) (p : FPkt) :
    (s.putLink src l p).fab.straits = s.fab.straits := (State.flushLink_onlySends ..).straits

/-- A packet routed on leaves the arrivals of every die as they are. -/
theorem State.routePacket_arrivals (s : State) (d : Nat) (src : Option Nat) (p : FPkt) :
    ((s.routePacket d src p).strait d).arrivals = (s.strait d).arrivals := by
  unfold State.routePacket
  dsimp only
  split
  · rw [State.modStrait_strait]
  · rw [State.strait_of_straits (s.putLink_straits ..)]

/-! ### Time-outs of reassembly and of multicast branches (R206, R216) -/

theorem execReassemblyTimeout_discards {d : Fin 6} {r : Reasm} {rest : List Reasm} {s : State}
    (h : (s.strait d).reasm = r :: rest) :
    execReassemblyTimeout d s = .next ((s.modStrait d fun x => { x with reasm := rest }).badPacket d) := by
  simp only [execReassemblyTimeout, h]

/-- A branch that waits without allowance is dropped and counted. -/
theorem execMcastBranchTimeout_drops {l : Fin 96} {s : State}
    (h : ((s.link l).waiting.any fun p => p.out.mcast && decide ((s.link l).left p.out.code < p.out.units)) = true) :
    ∃ p, execMcastBranchTimeout l s = .next (((s.modLink l fun x => { x with waiting := x.waiting.erase p }).modStrait (l.val / 16)
      fun y => { y with mcastDrop := satAdd32 y.mcastDrop 1 }).flushLink l) := by
  obtain ⟨q, hq, hdry⟩ := List.any_eq_true.1 h
  obtain ⟨hmc, hless⟩ := Bool.and_eq_true_iff.1 hdry
  have hsome : ((s.link l).waiting.find? fun p =>
      p.out.mcast && (!(s.link l).carries || decide ((s.link l).left p.out.code < p.out.units))).isSome = true :=
    List.find?_isSome.2 ⟨q, hq, by simp [hmc, hless]⟩
  obtain ⟨p, hp⟩ := Option.isSome_iff_exists.1 hsome
  exact ⟨p, by simp only [execMcastBranchTimeout, hp]⟩

end Sys2Proof.Machine
end

section
/-! SUPPORT. Messages of the module: injection, acknowledgement, time-outs and completion (08 R205, R207, R217). -/

namespace Sys2Proof.Machine

/-! ### Injection -/

/-- Only the arrivals at the strait dies and the receive filters may differ. -/
def State.onlyArrivals (s t : State) : Prop :=
  t = { s with fab := { s.fab with straits := t.fab.straits, filters := t.fab.filters } } ∧
    ∀ d, t.strait d = { s.strait d with arrivals := (t.strait d).arrivals }

theorem State.onlyArrivals.trans {s t u : State} (h : s.onlyArrivals t) (k : t.onlyArrivals u) : s.onlyArrivals u := by
  obtain ⟨ht, hd⟩ := h
  obtain ⟨hu, kd⟩ := k
  refine ⟨by rw [hu, ht], fun d => ?_⟩
  rw [kd, hd]

theorem State.onlyArrivals.mem {s t : State} (h : s.onlyArrivals t) : t.mem = s.mem := by rw [h.1]
theorem State.onlyArrivals.atolls {s t : State} (h : s.onlyArrivals t) : t.atolls = s.atolls := by rw [h.1]
theorem State.onlyArrivals.flt {s t : State} (h : s.onlyArrivals t) : t.flt = s.flt := by rw [h.1]
theorem State.onlyArrivals.unacked {s t : State} (h : s.onlyArrivals t) : t.fab.unacked = s.fab.unacked := by rw [h.1]

theorem State.arrive_onlyArrivals (s : State) (d : Nat) (link : Option Nat) (p : FPkt) : s.onlyArrivals (s.arrive d link p) := by
  refine ⟨rfl, fun k => ?_⟩
  unfold State.arrive
  by_cases hk : k = d
  · subst hk
    rw [State.modStrait_strait]
  · rw [State.modStrait_strait_ne _ _ hk]

/-- The arrivals a run of packets from one link leaves at its die. -/
theorem State.foldl_arrive (s : State) (d : Nat) (link : Option Nat) (ps : List FPkt) :
    s.onlyArrivals (ps.foldl (fun t p => t.arrive d link p) s) ∧
      ((ps.foldl (fun t p => t.arrive d link p) s).strait d).arrivals.length = (s.strait d).arrivals.length + ps.length := by
  induction ps generalizing s with
  | nil => exact ⟨⟨rfl, fun _ => rfl⟩, rfl⟩
  | cons p ps ih =>
    obtain ⟨honly, hlen⟩ := ih (s.arrive d link p)
    refine ⟨(s.arrive_onlyArrivals d link p).trans honly, ?_⟩
    rw [List.foldl_cons, hlen, State.arrive, State.modStrait_strait, List.length_append, List.length_singleton, List.length_cons]
    omega

theorem packetsOf_ne_nil (cells : Bool) (vc kind : Nat) (mcast : Bool) (dest dend src header : Nat) (payload : List Byte)
    (seq : Nat) : packetsOf cells vc kind mcast dest dend src header payload seq ≠ [] := by
  cases cells with
  | false => exact List.cons_ne_nil _ _
  | true =>
    have hbody (l : List Byte) : leBytes 8 header ++ payload ++ l ≠ [] := List.cons_ne_nil _ _
    simp only [packetsOf, if_true, ne_eq, List.map_eq_nil_iff, List.zipIdx_eq_nil_iff]
    exact chunks_ne_nil _ _ (hbody _)

/-- A message put into the fabric arrives at the die where its packets start, and changes nothing else. -/
theorem State.inject_spec (s : State) (m : TxMsg) (resent : Bool) :
    s.onlyArrivals (s.inject m resent) ∧ (s.strait m.die).arrivals.length < ((s.inject m resent).strait m.die).arrivals.length := by
  obtain ⟨honly, hlen⟩ := s.foldl_arrive m.die none (packetsOf s.cells m.vc m.kind m.mcast m.dest m.dend ((s.ownId).getD 0)
    (msgHeader m.srcEnd m.payload.length m.seq resent m.sync m.copy) m.payload m.seq)
  refine ⟨honly, ?_⟩
  have hpos := List.length_pos_of_ne_nil (packetsOf_ne_nil s.cells m.vc m.kind m.mcast m.dest m.dend ((s.ownId).getD 0)
    (msgHeader m.srcEnd m.payload.length m.seq resent m.sync m.copy) m.payload m.seq)
  unfold State.inject
  dsimp only
  omega

/-- An acknowledgement joins the arrivals of its die; only the receive filters change with it. -/
theorem State.ackMsg_onlyArrivals (s : State) (d : Nat) (m : FMsg) (status nbytes : Nat) :
    s.onlyArrivals (s.ackMsg d m status nbytes) :=
  State.onlyArrivals.trans (t := s.remember m status) ⟨rfl, fun _ => rfl⟩ (State.foldl_arrive ..).1

/-! ### Acknowledgement (R207, R217) -/

theorem State.pumpTx_idle {s : State} (h : s.fab.waiting = []) (n : Nat) : State.pumpTx n s = s := by
  cases n with
  | zero => rfl
  | succ n => simp [State.pumpTx, h]

/-- With no message waiting, a settled message only leaves the list. -/
theorem State.settleMsg_idle {s : State} (h : s.fab.waiting = []) (m : TxMsg) :
    s.settleMsg m = s.modFab fun f => { f with
      unacked := f.unacked.erase m, synced := if m.sync then Tbl.set f.synced m.dest true else f.synced } := by
  unfold State.settleMsg
  dsimp only
  rw [State.pumpTx_idle]
  exact h

/-- An acknowledgement of one unicast signal takes that message off the list. -/
theorem execAck_settles {d : Fin 6} {a : FMsg} {rest : List FMsg} {m : TxMsg} {s : State}
    (hin : (s.strait d).ackIn = a :: rest) (hp : s.life.powered = true) (hf : s.life.frozen = false)
    (hmem : m ∈ s.fab.unacked) (ho : m.owner = .signal) (hmc : m.mcast = false) (hcopy : m.copy = none) (hdest : m.dest = a.src)
    (hseq : m.seq = bits (leNat a.payload) 0 16) (hvc : m.vc = bits (leNat a.payload) 16 2)
    (hgrp : bits (leNat a.payload) 40 1 = 0) (huniq : ∀ x ∈ s.fab.unacked, x.seq = m.seq → x.vc = m.vc → x.dest = m.dest → x = m) :
    execAck d s = .next ((s.modStrait d fun x => { x with ackIn := rest }).settleMsg m) := by
  have hfind : (s.fab.unacked.find? fun x => x.seq == bits (leNat a.payload) 0 16 && x.vc == bits (leNat a.payload) 16 2 &&
      (!x.mcast && x.copy.isNone && x.dest == a.src)) = some m := by
    obtain ⟨x, hx⟩ := Option.isSome_iff_exists.1 (List.find?_isSome (p := fun x => x.seq == bits (leNat a.payload) 0 16 &&
      x.vc == bits (leNat a.payload) 16 2 && (!x.mcast && x.copy.isNone && x.dest == a.src)) |>.2
        ⟨m, hmem, by simp [hseq, hvc, hmc, hcopy, hdest]⟩)
    have hhit := List.find?_some hx
    simp only [Bool.and_eq_true, beq_iff_eq] at hhit
    obtain ⟨⟨hs, hv⟩, -, hd⟩ := hhit
    rw [hx, huniq x (List.mem_of_find?_eq_some hx) (hs.trans hseq.symm) (hv.trans hvc.symm) (hd.trans hdest.symm)]
  have hfab : (s.modStrait d fun x => { x with ackIn := rest }).fab.unacked = s.fab.unacked := rfl
  simp [execAck, hin, hp, hf, hgrp, hfab, hfind, hmc, State.ackOwner, ho]

/-- The oldest message of die d, sent again as long as it has tries left (R207). -/
theorem execFabricAckTimeout_resends {d : Fin 6} {m : TxMsg} {us : List TxMsg} {s : State} (hu : s.fab.unacked = m :: us)
    (hmc : m.mcast = false) (hcopy : m.copy = none) (hd : m.dest % 6 = d.val) (hp : s.life.powered = true)
    (hf : s.life.frozen = false) (htries : m.tries < s.param 0x0802) :
    execFabricAckTimeout d s = .next ((s.modFab fun f => { f with unacked := us ++ [{ m with tries := m.tries + 1 }] }).inject
      { m with tries := m.tries + 1 } true) := by
  simp [execFabricAckTimeout, hu, hmc, hcopy, hd, hp, hf, htries, State.modFab]

/-- A signal without tries left is settled, with a record of the die's interface. -/
theorem execFabricAckTimeout_ends {d : Fin 6} {m : TxMsg} {us : List TxMsg} {s : State} (hu : s.fab.unacked = m :: us)
    (hmc : m.mcast = false) (hcopy : m.copy = none) (hd : m.dest % 6 = d.val) (hp : s.life.powered = true)
    (hf : s.life.frozen = false) (htries : s.param 0x0802 ≤ m.tries) (ho : m.owner = .signal) :
    ∃ r : RecIn, r.unit = niUnit d ∧ r.cls = clsTimeout ∧ execFabricAckTimeout d s = .next ((s.settleMsg m).raise r) := by
  have hlt : ¬ m.tries < s.param 0x0802 := by omega
  refine ⟨_, ?_, ?_, by simp [execFabricAckTimeout, hu, hmc, hcopy, hd, hp, hf, hlt, ho]; rfl⟩
  all_goals rfl

/-- A multicast message that every target acknowledged completes, with its record. -/
theorem execMcastClose_completes {d : Fin 6} {m : TxMsg} {us : List TxMsg} {s : State} (hu : s.fab.unacked = m :: us)
    (hmc : m.mcast = true) (hend : m.srcEnd = d.val) (hp : s.life.powered = true) (hf : s.life.frozen = false)
    (hall : ∀ i, i < m.targets.length → i ∈ m.acked) (hcopies : ∀ u ∈ us, u.copy ≠ some m.dest) (hw : s.fab.waiting = []) :
    execMcastClose d s = .next (s.modFab fun f => { f with
      unacked := us, mcastDone := f.mcastDone ++ [mcastRecord m 0] }) := by
  have hmissing : ((List.range m.targets.length).filter fun i => !m.acked.contains i) = [] :=
    List.filter_eq_nil_iff.2 fun i hi => by simp [hall i (List.mem_range.1 hi)]
  have hkept : (us.filter fun c => !(c.copy == some m.dest && c.seq == m.seq && c.vc == m.vc)) = us :=
    List.filter_eq_self.2 fun u hu => by simp [hcopies u hu]
  have hfind : (s.fab.unacked.find? fun m => m.mcast && m.srcEnd == d.val) = some m := by simp [hu, hmc, hend]
  have hgone : s.fab.unacked.erase m = us := by rw [hu, List.erase_cons_head]
  simp only [execMcastClose, hfind, hp, hf, hmissing, not_true_eq_false, Bool.false_eq_true, or_self, if_false, List.isEmpty_nil,
    if_true]
  rw [State.pumpTx_idle (by exact hw)]
  simp only [State.modFab, hgone, hkept]

end Sys2Proof.Machine
end

section
/-! SUPPORT. Remote writes, scope-3 signals, remote-write commands and telemetry (05 R132, 06 R158-R167, 08 R218). -/

namespace Sys2Proof.Machine

/-! ### Remote writes (06 R165) -/

/-- A write that lies within one line of DRAM. -/
theorem State.pwrite_dram {s : State} {who : Option Nat} {a : Nat} (tag : BitVec 5) {data : List Byte} (h0 : 0 < data.length)
    (hline : a % 128 + data.length ≤ 128) (hplace : s.place who a true = .ok (.dram a)) :
    s.pwrite who a tag data = (s.dramWrite a data, stOk, data.length) := by
  have hne : data ≠ [] := List.ne_nil_of_length_pos h0
  have hmin : min data.length (128 - a % 128) = data.length := by omega
  simp [State.pwrite, State.physWrite, hne, hplace, hmin, State.writePlace]

/-- A write to a backed channel changes memory alone, and of DRAM the bytes it covers. -/
theorem State.dramWrite_backed {s : State} {a : Nat} (data : List Byte) (h : s.chan (s.dramChannel a) ≠ .unbacked) :
    ∃ f, s.dramWrite a data = s.modMem f ∧ (f s.mem).dram = Mem.writeBytes s.mem.dram a data :=
  ⟨_, if_neg h, rfl⟩

/-- Outputs that lie in no lagoon are held by no tile op. -/
theorem State.outputsHeld_offLagoon {s : State} {who : Option Nat} {a : Nat} (tag : Nat) {data : List Byte}
    (hlen : data.length ≤ 128) (h : ∀ i, i < 2 → ∀ g o, s.place who (a + i * 128) true ≠ .ok (.lagoon g o)) :
    s.outputsHeld who [(a, tag, data)] = false := by
  simp only [State.outputsHeld, List.any_cons, List.any_nil, Bool.or_false]
  refine List.any_eq_false.2 fun i hi => ?_
  have hi2 : i < 2 := by
    have := List.mem_range.1 hi
    omega
  split
  · next g off hplace => exact absurd hplace (h i hi2 g off)
  · exact Bool.false_ne_true

/-- The state once die d has taken its first remote write off the list. -/
def State.takeRemote (s : State) (d : Nat) (rest : List FMsg) : State :=
  (s.modStrait d fun y => { y with accepted := true }).modStrait d fun y => { y with remoteIn := rest, accepted := false }

theorem State.takeRemote_remoteIn (s : State) (d : Nat) (rest : List FMsg) :
    ((s.takeRemote d rest).strait d).remoteIn = rest := by
  rw [State.takeRemote, State.modStrait_strait]

/-- A remote write within one DRAM line that its open window admits is written and acknowledged. -/
theorem execRemoteWriteArrival_writes {d : Fin 6} {m : FMsg} {rest : List FMsg} {s : State} {w off : Nat} {data : List Byte}
    (hw : leNat (m.payload.take 2) = w) (hoff : leNat ((m.payload.drop 16).take 5) = off) (hdata : m.payload.drop 32 = data)
    (hin : (s.strait d).remoteIn = m :: rest) (hrun : s.running = true) (hacc : (s.strait d).accepted = false)
    (hh : s.hostClear) (hopen : (s.window w).open_ = true)
    (hpart : ((s.part? (s.window w).partition).map Part.inReset) = some false)
    (hgen : (s.window w).generation.toNat = leNat ((m.payload.drop 8).take 4))
    (htag : (s.window w).jobTag.toNat = leNat ((m.payload.drop 12).take 4))
    (hsize : off + data.length ≤ (s.window w).size.toNat)
    (hheld : s.outputsHeld (some (s.window w).partition) [((s.window w).base.toNat + off, 0, data)] = false)
    (h0 : 0 < data.length) (hline : ((s.window w).base.toNat + off) % 128 + data.length ≤ 128)
    (hplace : s.place (some (s.window w).partition) ((s.window w).base.toNat + off) true =
      .ok (.dram ((s.window w).base.toNat + off))) :
    execRemoteWriteArrival d s =
      .next (((s.takeRemote d rest).dramWrite ((s.window w).base.toNat + off) data).ackMsg d m stOk data.length) := by
  have hfit : ¬ off + data.length > (s.window w).size.toNat := by omega
  have hbi := State.biThen_hostClear (s := s.modStrait d fun y => { y with accepted := true }) hh
  have hheld' : (s.modStrait d fun y => { y with accepted := true }).outputsHeld _ _ = false := hheld
  have hwrite := State.pwrite_dram (s := s.takeRemote d rest) 0 h0 hline hplace
  unfold State.takeRemote at hwrite ⊢
  simp only [execRemoteWriteArrival, hin, hrun, hw, hoff, hdata, hacc, hopen, hpart, hgen, htag, hfit, hbi, hheld', hwrite,
    Option.getD_some, Bool.not_true, Bool.false_eq_true, ne_eq, not_true_eq_false, or_self, and_false, if_false]

/-- The state once die d has taken its first remote write off the list and window w has counted it as dropped. -/
def State.dropRemote (s : State) (d : Nat) (rest : List FMsg) (w : Nat) : State :=
  (s.modStrait d fun y => { y with remoteIn := rest, accepted := false }).modWindow w fun y =>
    { y with dropCount := satAdd32 y.dropCount 1, noted := true }

theorem State.dropRemote_remoteIn (s : State) (d : Nat) (rest : List FMsg) (w : Nat) :
    ((s.dropRemote d rest w).strait d).remoteIn = rest :=
  congrArg Strait.remoteIn (s.modStrait_strait d fun y => { y with remoteIn := rest, accepted := false })

theorem State.dropRemote_dropCount (s : State) (d : Nat) (rest : List FMsg) (w : Nat) :
    ((s.dropRemote d rest w).window w).dropCount = satAdd32 (s.window w).dropCount 1 := by
  rw [State.dropRemote, State.modWindow_window]
  rfl

/-- A remote write at a closed window is counted there, the first since it closed also recorded, and acknowledged. -/
theorem execRemoteWriteArrival_drops {d : Fin 6} {m : FMsg} {rest : List FMsg} {s : State} {w : Nat}
    (hw : leNat (m.payload.take 2) = w) (hin : (s.strait d).remoteIn = m :: rest) (hrun : s.running = true)
    (hacc : (s.strait d).accepted = false) (hopen : (s.window w).open_ = false) :
    ∃ r : RecIn, r.unit = straitUnit d 0 0 0x3FF ∧ r.cls = clsWindow ∧
      execRemoteWriteArrival d s = .next (State.ackMsg (if (s.window w).noted then s.dropRemote d rest w
        else (s.dropRemote d rest w).raise r) d m opWindowClosed 0) := by
  subst hw
  refine ⟨_, ?_, ?_, by
    simp [execRemoteWriteArrival, hin, hrun, hacc, hopen]
    rfl⟩
  all_goals rfl

/-! ### Scope-3 signals (05 R132) -/

/-- With no waiter of the object, a signal only adds to its count. -/
theorem State.signalMod_unawaited {s : State} {o : Nat} (inc : Nat) (h : ∀ w ∈ s.mem.modWaits, w.obj ≠ o) :
    s.signalMod o inc = s.modMem fun m => { m with modObjs := Tbl.set m.modObjs o (signalCount (s.modObj o) inc) } := by
  have hnone (q : WaitEntry → Bool) : (s.mem.modWaits.filter fun w => w.obj == o && q w) = [] :=
    List.filter_eq_nil_iff.2 fun w hw => by simp [h w hw]
  have hfuel : s.wakeFuel = 4 * s.mem.modWaits.length + 6 + 1 + 1 := by
    unfold State.wakeFuel
    omega
  rw [State.signalMod, hfuel, State.signalModN, State.modMem_mem, hnone, State.wakeModN]

/-- A signal of the job that holds the object is acknowledged and added. -/
theorem execSyncSignalArrival_adds {d : Fin 6} {m : FMsg} {rest : List FMsg} {p : Nat} {x : Part} {s : State} {o : Nat}
    (ho : bits (leNat m.payload) 0 13 = o) (hin : (s.strait d).syncIn = m :: rest) (hrun : s.running = true)
    (hown : Tbl.get? s.mem.objOwner o = some p) (hp : s.part? p = some x)
    (htag : x.jobTag.toNat = bits (leNat m.payload) 32 32) (hreset : x.inReset = false) :
    execSyncSignalArrival d s = .next (((s.modStrait d fun y => { y with syncIn := rest }).ackMsg (m.src % 6) m stOk 0).signalMod o
      (bits (leNat m.payload) 16 16)) := by
  subst ho
  simp [execSyncSignalArrival, hin, hrun, hown, hp, htag, hreset]

/-! ### Telemetry (R218) -/

/-- Fields of a record that lie from byte k up leave what stands below. -/
theorem foldl_pack_mod (k : Nat) (fs : List (Nat × Nat)) (h : ∀ f ∈ fs, k ≤ f.1) (a : Nat) :
    fs.foldl (fun a f => a + f.2 * 2 ^ (8 * f.1)) a % 2 ^ (8 * k) = a % 2 ^ (8 * k) := by
  induction fs generalizing a with
  | nil => rfl
  | cons f fs ih =>
    have hk : 8 * k ≤ 8 * f.1 := Nat.mul_le_mul_left 8 (h f List.mem_cons_self)
    obtain ⟨c, hc⟩ := Nat.pow_dvd_pow 2 hk
    rw [List.foldl_cons, ih (fun g hg => h g (List.mem_cons_of_mem _ hg)), hc,
      show f.2 * (2 ^ (8 * k) * c) = 2 ^ (8 * k) * (f.2 * c) by ring, Nat.add_mul_mod_self_left]

/-- A field of a record that lies below byte k, where later fields begin. -/
theorem fld_pack_append {off lo n k w : Nat} (fs gs : List (Nat × Nat)) (hgs : ∀ f ∈ gs, k ≤ f.1) (hfit : 8 * off + lo + n ≤ 8 * k)
    (hw : 8 * k ≤ w) : fld (BitVec.ofNat w (pack (fs ++ gs))) off lo n = bits (pack fs) (8 * off + lo) n := by
  rw [fld, BitVec.toNat_ofNat, bits_mod_two_pow _ (hfit.trans hw), ← bits_mod_two_pow _ hfit, pack, List.foldl_append,
    foldl_pack_mod k gs hgs, bits_mod_two_pow _ hfit, pack]

theorem pack_three (a b c x y z : Nat) :
    pack [(a, x), (b, y), (c, z)] = x * 2 ^ (8 * a) + y * 2 ^ (8 * b) + z * 2 ^ (8 * c) := by
  simp [pack]

/-- A stored record is the newest of the ring. -/
theorem Strait.record_last (x : Strait) (r : BitVec 512) :
    (x.record r).telemetry.getLast? = some r ∧ (x.record r).head = (x.head + 1) % 512 := by
  unfold Strait.record
  split <;> simp

/-- The fields of the 18 ports begin at byte 16 of a record (Table 8-17). -/
def portFields (s : State) (d : Nat) (meas : PortSample) : List (Nat × Nat) :=
  (List.range 18).map fun p => (16 + 2 * p, bits ((meas.words[p]?).getD 0).toNat 4 12 * 16 + s.portState d p)

/-- The time, the die and the sample number stand where Table 8-17 puts them. -/
theorem telemetryRecord_fields (s : State) (d : Fin 6) (meas : PortSample) {n : Nat} :
    let r := BitVec.ofNat 512 (pack ([(0, s.count.toNat), (8, d.val), (10, n)] ++ portFields s d meas))
    fld r 0 0 64 = s.count.toNat ∧ fld r 8 0 8 = d.val ∧ fld r 10 0 16 = n % 65536 := by
  have hports : ∀ f ∈ portFields s d meas, 16 ≤ f.1 := by
    intro f hf
    obtain ⟨p, _, rfl⟩ := List.mem_map.1 hf
    exact Nat.le_add_right 16 (2 * p)
  have hcount := s.count.isLt
  have hd := d.isLt
  refine ⟨?_, ?_, ?_⟩
  all_goals
    rw [fld_pack_append _ _ hports (by omega) (by omega)]
    rw [pack_three]
    unfold bits
    omega

/-- In mode 0 a sample stores one record of the time, the die, the sample number and the ports. -/
theorem execTelemetrySample_stores {d : Fin 6} (port : Fin 18) (meas : PortSample) {s : State} (hp : s.life.powered = true)
    (hf : s.life.frozen = false) (hmode : s.param 0x0806 = 0) :
    execTelemetrySample d port meas s = .next (s.modStrait d fun x =>
      { x.record (BitVec.ofNat 512 (pack ([(0, s.count.toNat), (8, d.val), (10, (s.strait d).sample)] ++ portFields s d meas))) with
        sample := ((s.strait d).sample + 1) % 65536 }) := by
  simp only [execTelemetrySample, hp, hf, hmode]
  rfl

/-! ### DMA_REMOTE_WRITE (06 R158, R159) -/

theorem State.remoteWrite_cmd (s : State) (c : MemCmd) : (s.remoteWrite c).2.cmd = c := by
  unfold State.remoteWrite
  dsimp only
  split <;> rfl

/-- Without an own module ID no remote write can go (R159). -/
theorem State.remoteWrite_noId {s : State} (c : MemCmd) (h : s.ownId = none) : (s.remoteWrite c).2.status = opUnreachable := by
  simp only [State.remoteWrite, h]

/-- An idle, healthy unit takes a remote write that passes its checks. -/
theorem execDmaRemoteWrite_starts {h : Fin 16} {u : Fin 4} {x v : Nat} {c : MemCmd} {s : State} (hrun : s.running = true)
    (hf : s.isFenced (streamUnitId h u) = false) (hcur : (s.sunit h u).cur = none) (hh : s.hostClear)
    (hq : s.memQueue h u = some (x, v, c)) (hfence : s.memFenced c = false) (hop : fld c.img 0 0 8 = 2)
    (hchk : firstBad c.img.toNat (dmaChecks c.src c.img) = none) :
    execDmaRemoteWrite h u none s = .next ((s.remoteWrite c).1.startRun h u x v (s.remoteWrite c).2) := by
  simp [execDmaRemoteWrite, State.memRow, hrun, hf, hcur, hq, hfence, hop, memOpIs, hchk, State.biThen_hostClear hh, State.badWord]

/-! ### The rows -/

/-- Settles O16, row by row: each acts as the lemmas above say. -/
theorem fabricMessages : Obligations.FabricMessages := by
  refine ⟨?delivered, ?routed, ?counted, ?reassembly, ?branch, ?ack, ?resent, ?ended, ?closed, ?written, ?dropped, ?signalled,
    ?sampled, ?started⟩
  case delivered =>
    intro d a rest s harr hp hfw hown hkind hbad hm hhops hlen _ hpay
    have hrow := execFabricPacketArrival_unicast harr hp hfw hbad (by omega) hm
    rw [if_neg fun h => hhops h.1 h.2, if_pos (.inl hown)] at hrow
    obtain ⟨m, hpayload, hsrc, hlocal⟩ := State.takeLocal_ack (s := s.takeArrival d a rest) d hkind hlen hpay
    rw [hlocal] at hrow
    refine ⟨_, hrow, ?_, m, ?_, hpayload, hsrc⟩
    · by_cases hd : d.val = a.pkt.dend % 6
      · rw [← hd, State.modStrait_strait, State.takeArrival_strait]
      · rw [State.modStrait_strait_ne _ _ hd, State.takeArrival_strait]
    · rw [State.modStrait_strait]
      by_cases hd : a.pkt.dend % 6 = d.val
      · rw [hd, State.takeArrival_strait]
      · rw [State.takeArrival_strait_ne _ _ _ hd]
  case routed =>
    intro d a rest l ls s harr hp hfw hown hbad hkind hm hhops hentry hlinks
    have hlocal : bits (s.route a.pkt.dest) 24 1 = 0 := by unfold bits at *; omega
    have hspread : bits (s.route a.pkt.dest) 25 1 = 0 := by unfold bits at *; omega
    have hrow := execFabricPacketArrival_unicast harr hp hfw hbad hkind hm
    rw [if_neg fun h => hhops h.1 h.2, if_neg (by simp [hown, hlocal]),
      State.routePacket_first (l := l) (ls := ls) _ _ (by simpa using hspread) (by simpa using hlinks)] at hrow
    refine ⟨_, hrow, ?_, _, rfl, rfl, State.putLink_holds ..⟩
    rw [State.strait_of_straits (State.putLink_straits ..), State.takeArrival_strait]
  case counted =>
    intro d a rest s harr hp hfw hown hbad hkind hm hlocal
    have hrow := execFabricPacketArrival_unicast harr hp hfw hbad hkind hm
    rw [if_neg (c := s.ownId = some a.pkt.dest ∨ _) (by simp [hown, hlocal])] at hrow
    refine ⟨_, hrow, ?_, fun hlink hhops => ?_, fun hlink hlinks => ?_⟩
    · split
      · rw [State.modStrait_strait, State.takeArrival_strait]
      · rw [State.routePacket_arrivals, State.takeArrival_strait]
    · rw [if_pos ⟨hlink, hhops⟩, State.modStrait_strait, State.takeArrival_strait]
      exact ⟨rfl, rfl⟩
    · rw [if_neg (by simp [hlink]), State.routePacket_none _ _ (by simpa using hlinks), State.modStrait_strait,
        State.takeArrival_strait]
      exact ⟨rfl, rfl⟩
  case reassembly =>
    intro d r rest s h
    refine ⟨_, execReassemblyTimeout_discards h, ?_⟩
    dsimp only
    rw [State.badPacket, State.modStrait_strait, State.modStrait_strait]
    exact ⟨rfl, rfl⟩
  case branch =>
    intro l s h
    obtain ⟨p, hrow⟩ := execMcastBranchTimeout_drops h
    refine ⟨_, hrow, ?_⟩
    dsimp only
    rw [(State.flushLink_onlySends ..).strait, State.modStrait_strait, State.modLink_strait]
  case ack =>
    intro d a rest m s hin hp hf hw hmem ho hmc hcopy hdest hseq hvc hgrp huniq
    refine ⟨_, execAck_settles hin hp hf hmem ho hmc hcopy hdest hseq hvc hgrp huniq, ?_⟩
    rw [State.settleMsg_idle (s := s.modStrait d _) hw]
    exact ⟨congrArg Strait.ackIn (s.modStrait_strait d fun x => { x with ackIn := rest }), rfl⟩
  case resent =>
    intro d m us s hu hmc hcopy hd hp hf htries
    have hrow := execFabricAckTimeout_resends hu hmc hcopy hd hp hf htries
    generalize hs1 : (s.modFab fun f => { f with unacked := us ++ [{ m with tries := m.tries + 1 }] }) = s1 at hrow
    obtain ⟨honly, hlen⟩ := s1.inject_spec { m with tries := m.tries + 1 } true
    have hdie : TxMsg.die { m with tries := m.tries + 1 } = d.val := by simp [TxMsg.die, hmc, hd]
    rw [hdie] at hlen
    refine ⟨_, hrow, ?_, ?_⟩
    · rw [honly.unacked, ← hs1]
      rfl
    · rw [← hs1] at hlen ⊢
      exact hlen
  case ended =>
    intro d m us s hu hmc hcopy hd hp hf htries ho hw
    obtain ⟨r, hunit, hcls, hrow⟩ := execFabricAckTimeout_ends hu hmc hcopy hd hp hf htries ho
    rw [State.settleMsg_idle hw] at hrow
    refine ⟨_, hrow, ?_, ?_⟩
    · show (s.fab.unacked.erase m) = us
      rw [hu, List.erase_cons_head]
    · rw [← hunit, ← hcls]
      exact (State.recorded_raise ..).congr rfl rfl
  case closed =>
    intro d m us s hu hmc hend hp hf hall hcopies hw
    exact ⟨_, execMcastClose_completes hu hmc hend hp hf hall hcopies hw, rfl, rfl⟩
  case written =>
    intro d m rest s w off data a hin hrun hacc hh hopen hpart hgen htag hsize h0 hline hplace hchan hwf hlag
    have hheld := State.outputsHeld_offLagoon (data := data) 0 (by omega) hlag
    obtain ⟨f, hput, hdram⟩ := State.dramWrite_backed (s := s.takeRemote d rest) data hchan
    have hrow := execRemoteWriteArrival_writes rfl rfl rfl hin hrun hacc hh hopen hpart hgen htag hsize hheld h0 hline hplace
    have hack := State.ackMsg_onlyArrivals ((s.takeRemote d rest).dramWrite a data) d m stOk data.length
    have hmem : (((s.takeRemote d rest).dramWrite a data).ackMsg d m stOk data.length).mem.dram =
        Mem.writeBytes s.mem.dram a data := by
      rw [hack.mem, hput]
      exact hdram
    refine ⟨_, hrow, ?_, fun i hi => ?_, fun b hb => ?_, ?_⟩
    · rw [hack.2, hput]
      exact s.takeRemote_remoteIn d rest
    · rw [hmem, Mem.read_writeBytes hwf, if_pos (by omega), Nat.add_sub_cancel_left, List.getD_eq_getElem _ _ hi]
    · rw [hmem, Mem.read_writeBytes hwf, if_neg (by omega)]
    · rw [hack.atolls, hput]
      rfl
  case dropped =>
    intro d m rest s w hin hrun hacc hopen
    obtain ⟨r, hunit, hcls, hrow⟩ := execRemoteWriteArrival_drops rfl hin hrun hacc hopen
    have hack := State.ackMsg_onlyArrivals (if (s.window w).noted then s.dropRemote d rest w
      else (s.dropRemote d rest w).raise r) d m opWindowClosed 0
    refine ⟨_, hrow, ?_, ?_, ?_, ?_, fun hnoted => ?_⟩
    · rw [hack.2]
      split <;> exact s.dropRemote_remoteIn d rest w
    · rw [State.window_eq_of_mem hack.mem]
      split <;> exact s.dropRemote_dropCount d rest w
    · rw [hack.mem]
      split <;> rfl
    · rw [hack.atolls]
      split <;> rfl
    · refine State.recorded.mono (t := (s.dropRemote d rest w).raise r) ?_ (by rw [hack.flt, hnoted]; rfl)
      rw [← hunit, ← hcls]
      exact ((s.dropRemote d rest w).recorded_raise r).congr rfl rfl
  case signalled =>
    intro d m rest p x s o hin hrun hown hp htag hreset hfree
    have hrow := execSyncSignalArrival_adds rfl hin hrun hown hp htag hreset
    have hack := State.ackMsg_onlyArrivals (s.modStrait d fun y => { y with syncIn := rest }) (m.src % 6) m stOk 0
    generalize ((s.modStrait d fun y => { y with syncIn := rest }).ackMsg (m.src % 6) m stOk 0) = t at hrow hack
    have hmem : t.mem = s.mem := hack.mem
    rw [State.signalMod_unawaited _ (by rwa [hmem])] at hrow
    refine ⟨_, hrow, ?_, ?_, fun k hk => ?_⟩
    · show (t.strait d).syncIn = rest
      rw [hack.2, State.modStrait_strait]
    · have hobj : t.modObj o = s.modObj o := by rw [State.modObj, hmem, State.modObj]
      rw [← hobj, ← signalCount_toNat]
      exact congrArg BitVec.toNat (Tbl.getD_set_self ..)
    · have hobj : t.modObj k = s.modObj k := by rw [State.modObj, hmem, State.modObj]
      rw [← hobj]
      exact Tbl.getD_set_ne _ _ _ hk
  case sampled =>
    intro d port meas s hp hf hmode
    refine ⟨_, execTelemetrySample_stores port meas hp hf hmode, ?_⟩
    dsimp only
    rw [State.modStrait_strait]
    obtain ⟨hlast, hhead⟩ := (s.strait d).record_last
      (BitVec.ofNat 512 (pack ([(0, s.count.toNat), (8, d.val), (10, (s.strait d).sample)] ++ portFields s d meas)))
    exact ⟨rfl, hhead, _, hlast, telemetryRecord_fields s d meas⟩
  case started =>
    intro h u x v c s hrun hf hcur hh hq hfence hop hchk
    exact ⟨_, execDmaRemoteWrite_starts hrun hf hcur hh hq hfence hop hchk, _, State.startRun_cur .., s.remoteWrite_cmd c,
      s.remoteWrite_noId c⟩

end Sys2Proof.Machine
end

section
/-! SUPPORT. The collectives and the records: which shared operations leave them, and what ends a collective (09 R236). -/

namespace Sys2Proof.Machine

/-! ### What stops a stream or wakes a waiter leaves the collectives (05 R130, 13 R336, R342, R343) -/

theorem State.partsOnly.coll {s t : State} (h : s.partsOnly t) : t.coll = s.coll := by rw [h]

@[simp] theorem State.judge_coll (s : State) (p st idx : Nat) (v : Verdict) : (s.judge p st idx v).coll = s.coll :=
  (s.judge_partsOnly p st idx v).coll

@[simp] theorem State.finishCmd_coll (s : State) (p st idx : Nat) : (s.finishCmd p st idx).coll = s.coll := s.modPart_coll p _

@[simp] theorem State.wakeSeq_coll (s : State) (g u : Nat) : (s.wakeSeq g u).coll = s.coll := rfl

@[simp] theorem State.wakeCore_coll (s : State) (g c : Nat) : (s.wakeCore g c).coll = s.coll := by
  unfold State.wakeCore
  split
  · split <;> rfl
  · rfl

/-- A chain of completions, signals and wakes leaves the collectives. -/
theorem State.wakeChain_coll (k : Nat) :
    (∀ s p st idx v, (State.completeCmdN k s p st idx v).coll = s.coll) ∧
    (∀ s o inc, (State.signalModN k s o inc).coll = s.coll) ∧
    ∀ s o ws, (State.wakeModN k s o ws).coll = s.coll := by
  induction k with
  | zero =>
    exact ⟨fun _ _ _ _ _ => by rw [State.completeCmdN], fun _ _ _ => by rw [State.signalModN], fun _ _ _ => by rw [State.wakeModN]⟩
  | succ k ih =>
    obtain ⟨hcomplete, hsignal, hwake⟩ := ih
    refine ⟨fun s p st idx v => ?_, fun s o inc => ?_, fun s o ws => ?_⟩
    · unfold State.completeCmdN
      split
      · rfl
      · dsimp only
        split <;> simp [hsignal]
    · unfold State.signalModN
      exact (hwake _ _ _).trans rfl
    · cases ws with
      | nil => rw [State.wakeModN]
      | cons w ws =>
        unfold State.wakeModN
        rw [hwake]
        split
        · simp
        · simp
        · exact (hcomplete _ _ _ _ _).trans rfl

@[simp] theorem State.completeCmd_coll (s : State) (p st idx : Nat) (v : Verdict) : (s.completeCmd p st idx v).coll = s.coll :=
  (State.wakeChain_coll _).1 s p st idx v

@[simp] theorem State.signalMod_coll (s : State) (o inc : Nat) : (s.signalMod o inc).coll = s.coll :=
  (State.wakeChain_coll _).2.1 s o inc

@[simp] theorem State.signalMod_shoalsAndFaults (s : State) (o inc : Nat) :
    (s.signalMod o inc).shoalsAndFaults = s.shoalsAndFaults := (State.wakeChain_shoalsAndFaults _).2.1 s o inc

/-! ### Reads and writes by module address leave the collectives (06 R138, R140) -/

@[simp] theorem State.bankLate_coll (s : State) (addr : Nat) : (s.bankLate addr).coll = s.coll := by
  unfold State.bankLate
  dsimp only
  split <;> rfl

@[simp] theorem State.writePlace_coll (s : State) (pl : Place) (tag : BitVec 5) (data : List Byte) :
    (s.writePlace pl tag data).coll = s.coll := by
  cases pl with
  | dram a =>
    simp only [State.writePlace, State.dramWrite]
    split <;> rfl
  | lagoon g off =>
    simp only [State.writePlace, State.lagoonWrite]
    split <;> rfl
  | staging h off => rfl

@[simp] theorem State.physRead_coll (k : Nat) (s : State) (who : Option Nat) (addr n : Nat) :
    (State.physRead k s who addr n).1.coll = s.coll := by
  induction k generalizing addr n with
  | zero => rfl
  | succ k ih =>
    unfold State.physRead
    dsimp only
    split
    · rfl
    · split
      · split <;> simp
      · split
        · rfl
        · exact ih _ _

@[simp] theorem State.readUnits_coll (k : Nat) (s : State) (who : Option Nat) (a n : Nat) :
    (State.readUnits k s who a n).1.coll = s.coll := by
  induction k generalizing s a n with
  | zero => rfl
  | succ k ih =>
    unfold State.readUnits
    dsimp only
    split
    · rfl
    · split
      · exact s.physRead_coll ..
      · exact (ih _ _ _).trans (s.physRead_coll ..)

@[simp] theorem State.readRows_coll (rs : List (Nat × Nat)) (s : State) (who : Option Nat) :
    (State.readRows rs s who).1.coll = s.coll := by
  induction rs generalizing s with
  | nil => rfl
  | cons r rs ih =>
    unfold State.readRows
    dsimp only
    split
    · exact s.readUnits_coll ..
    · exact (ih _).trans (s.readUnits_coll ..)

@[simp] theorem State.physWrite_coll (k : Nat) (s : State) (who : Option Nat) (addr : Nat) (tag : BitVec 5) (data : List Byte) :
    (State.physWrite k s who addr tag data).1.coll = s.coll := by
  induction k generalizing s addr data with
  | zero => rfl
  | succ k ih =>
    unfold State.physWrite
    dsimp only
    split
    · rfl
    · split
      · split <;> simp
      · exact (ih _ _ _).trans (s.writePlace_coll ..)

@[simp] theorem State.writeAll_coll (ws : List (Nat × Nat × List Byte)) (s : State) (who : Option Nat) :
    (State.writeAll ws s who).1.coll = s.coll := by
  induction ws generalizing s with
  | nil => rfl
  | cons w ws ih =>
    unfold State.writeAll
    dsimp only
    split
    · exact s.physWrite_coll ..
    · exact (ih _).trans (s.physWrite_coll ..)

/-! ### Access -/

theorem State.coll?_congr {s t : State} (h : t.coll = s.coll) (k : CollKey) : t.coll? k = s.coll? k := by
  rw [State.coll?, h, State.coll?]

theorem State.key_of_coll? {s : State} {k : CollKey} {c : Coll} (h : s.coll? k = some c) : c.key = k :=
  beq_iff_eq.1 (List.find?_some (p := fun c : Coll => c.key == k) h)

/-- A change that keeps the key changes the collective that the key names. -/
theorem State.coll?_modColl {s : State} {k : CollKey} {c : Coll} (hc : s.coll? k = some c) {f : Coll → Coll}
    (hf : ∀ x, (f x).key = x.key) : (s.modColl k f).coll? k = some (f c) := by
  have hkey : ((fun c : Coll => c.key == k) ∘ fun c => if c.key == k then f c else c) = fun c => c.key == k := by
    funext c
    dsimp only [Function.comp]
    split <;> simp [hf]
  rw [State.coll?, State.modColl, List.find?_map, hkey, ← State.coll?, hc]
  simp [State.key_of_coll? hc]

/-- A collective shows the chunks last noted as written. -/
theorem State.coll?_written {s : State} {k : CollKey} {c : Coll} (hc : s.coll? k = some c) (xs : List Nat) :
    (s.modColl k fun x => { x with written := xs }).coll? k = some { c with written := xs } :=
  State.coll?_modColl hc (f := fun x => { x with written := xs }) fun _ => rfl

theorem Coll.live_finished {c : Coll} (h : c.live = true) : c.finished = none := by
  simp only [Coll.live, Bool.and_eq_true, Option.isNone_iff_eq_none] at h
  exact h.2

/-! ### The end of a collective (R236, Table 9-9) -/

/-- A collective without a completion word takes one, and its accumulators are freed. -/
theorem State.coll?_endColl {s : State} {k : CollKey} {c : Coll} (hc : s.coll? k = some c) (hf : c.finished = none) (status : Nat) :
    (s.endColl k status).coll? k = some { c with finished := some (c.word status 0), accs := [] } := by
  have hmod := State.coll?_modColl hc (f := fun x => { x with finished := some (c.word status 0), accs := [] }) fun _ => rfl
  simp only [State.endColl, hc, hf, Option.isSome_none, Bool.false_eq_true, if_false]
  split
  · exact (State.coll?_congr ((State.signalMod_coll ..).trans (State.completeCmd_coll ..)) k).trans hmod
  · exact (State.coll?_congr (State.completeCmd_coll ..) k).trans hmod

/-- The end of a collective leaves the fault state, with every record. -/
theorem State.endColl_flt (s : State) (k : CollKey) (status : Nat) : (s.endColl k status).flt = s.flt := by
  unfold State.endColl
  split
  · rfl
  · split
    · rfl
    · dsimp only
      split
      · exact (State.flt_of_kept ((State.signalMod_shoalsAndFaults ..).trans (State.completeCmd_shoalsAndFaults ..))).trans rfl
      · exact (State.flt_of_kept (State.completeCmd_shoalsAndFaults ..)).trans rfl

/-- The collective of a key has ended. -/
def State.collEnded (s : State) (k : CollKey) : Prop := ∃ c, s.coll? k = some c ∧ c.finished.isSome = true

/-- Whether or not it had a completion word, it has one then. -/
theorem State.endColl_collEnded {s : State} {k : CollKey} {c : Coll} (hc : s.coll? k = some c) (status : Nat) :
    (s.endColl k status).collEnded k := by
  by_cases hf : c.finished = none
  · exact ⟨_, State.coll?_endColl hc hf status, rfl⟩
  · have hdone : c.finished.isSome = true := Option.isSome_iff_ne_none.2 hf
    have hsame : s.endColl k status = s := by simp [State.endColl, hc, hdone]
    exact ⟨c, hsame.symm ▸ hc, hdone⟩

theorem State.failColl_collEnded {s : State} {k : CollKey} {c : Coll} (hc : s.coll? k = some c) (status : Nat) :
    (s.failColl k status).collEnded k := State.endColl_collEnded hc _

end Sys2Proof.Machine
end

section
/-! SUPPORT. The rows that start and end collectives (09 R222, R228-R247). -/

namespace Sys2Proof.Machine

/-! ### A collective with nothing left to do -/

/-- A collective that reduces nothing has no chunks to push. -/
theorem State.push_not_reducing {s : State} {k : CollKey} {c : Coll} (hc : s.coll? k = some c) (hr : c.d.reduces = false) :
    s.push k = s := by
  rw [State.push]
  generalize ((s.coll? k).map fun c => 2 * c.d.chunkCount c.d.rank + 4).getD 0 = n
  cases n with
  | zero => rfl
  | succ n => simp [State.pushColl, hc, hr]

/-- With every chunk of every owner asked for, no window moves (R229). -/
theorem State.askWindow_asked {s : State} {k : CollKey} {c : Coll} (hc : s.coll? k = some c)
    (hasked : ∀ r, r < c.d.n → c.d.chunkCount r ≤ Tbl.getD c.asked r 0) : s.askWindow k = s := by
  simp only [State.askWindow, hc]
  refine List.foldlRecOn (motive := (· = s)) _ _ rfl ?_
  rintro _ rfl r hr
  have hnone : min (c.winStart r + c.window) (c.d.chunkCount r) - Tbl.getD c.asked r 0 = 0 := by
    have := hasked r (List.mem_range.1 hr)
    omega
  simp only [hc, hnone, List.range_zero, List.foldl_nil, ite_self]

/-- With every chunk asked for and no chunk accumulating, nothing is pushed. -/
theorem State.push_asked {s : State} {k : CollKey} {c : Coll} (hc : s.coll? k = some c) (haccs : c.accs = [])
    (hasked : ∀ r, r < c.d.n → c.d.chunkCount r ≤ Tbl.getD c.asked r 0) : s.push k = s := by
  rw [State.push]
  generalize ((s.coll? k).map fun c => 2 * c.d.chunkCount c.d.rank + 4).getD 0 = n
  cases n with
  | zero => rfl
  | succ n => simp [State.pushColl, hc, haccs, State.askWindow_asked hc hasked]

/-- A shard that every other member was sent goes to none again (R230). -/
theorem State.gatherSend_sent {s : State} {k : CollKey} {c : Coll} (hc : s.coll? k = some c) (hsent : ∀ r ∈ c.others, r ∈ c.sentTo) :
    s.gatherSend k = s := by
  have hready : (c.others.filter fun r => c.joined.contains r && !c.sentTo.contains r) = [] :=
    List.filter_eq_nil_iff.2 fun r hr => by simp [hsent r hr]
  simp only [State.gatherSend, hc, hready, ite_self, List.isEmpty_nil, true_or, if_true]

/-- With every tile updated, no tile runs (R239, R243). -/
theorem State.runTiles_updated {s : State} {k : CollKey} {c : Coll} (hc : s.coll? k = some c)
    (htiles : ∀ j, j < c.shardSize.2 → j ∈ c.tiles) : s.runTiles k = s := by
  simp only [State.runTiles, hc]
  refine List.foldlRecOn (motive := (· = s)) _ _ rfl ?_
  rintro _ rfl j hj
  simp [hc, htiles j (List.mem_range.1 hj)]

/-- How far a row takes collective c before it asks whether c is complete. -/
def State.collWork (s : State) (k : CollKey) (c : Coll) : State :=
  if c.d.op = 3 then s.gatherSend k else if c.d.updates then ((s.skewCheck k).push k).runTiles k else s.push k

/-- A row whose collective is complete and has nothing left to do ends it with DONE. -/
theorem State.collRow_completes {s : State} {k : CollKey} {c : Coll} {op : Nat} (hc : s.coll? k = some c) (hrun : s.running = true)
    (hlive : c.live = true) (hop : c.d.op = op) (hskew : c.skew = false) (hwork : s.collWork k c = s)
    (hdone : s.collComplete c = true) : s.collRow k op = s.endColl k 0 := by
  subst hop
  unfold State.collWork at hwork
  simp [State.collRow, hc, hrun, hlive, hwork, hdone, hskew]

theorem State.collWork_reducing {s : State} {k : CollKey} {c : Coll} (hop : c.d.op = 1 ∨ c.d.op = 2) (hpush : s.push k = s) :
    s.collWork k c = s := by
  rcases hop with hop | hop <;> simp [State.collWork, CollDesc.updates, hop, hpush]

theorem State.collWork_gathering {s : State} {k : CollKey} {c : Coll} (hop : c.d.op = 3) (hsend : s.gatherSend k = s) :
    s.collWork k c = s := by
  rw [State.collWork, if_pos hop, hsend]

theorem State.collWork_updating {s : State} {k : CollKey} {c : Coll} (hop : c.d.op = 4 ∨ c.d.op = 5) (hskew : s.skewCheck k = s)
    (hpush : s.push k = s) (htiles : s.runTiles k = s) : s.collWork k c = s := by
  rcases hop with hop | hop <;> simp [State.collWork, CollDesc.updates, hop, hskew, hpush, htiles]

/-! ### The start (R222) -/

/-- Changes of the interfaces, such as the hand-over of early packets (R232), leave collectives and atolls. -/
theorem State.foldl_modStrait_frame (s : State) (ds : List Nat) (f : Nat → Strait → Strait) :
    (ds.foldl (fun u d => u.modStrait d (f d)) s).coll = s.coll ∧ (ds.foldl (fun u d => u.modStrait d (f d)) s).atolls = s.atolls :=
  List.foldlRecOn (motive := fun t : State => t.coll = s.coll ∧ t.atolls = s.atolls) _ _ ⟨rfl, rfl⟩ fun _ h _ _ => h

/-- The first waiting collective runs with the window of now; one that neither gathers nor reduces touches nothing else. -/
theorem execCollectiveStart_runs {s : State} {c : Coll} (hfirst : s.coll.list.find? (fun x => !x.running) = some c)
    (hc : s.coll? c.key = some c) (hrun : s.running = true) (hroom : s.coll.list.countP Coll.live < 8) (hh : s.hostClear)
    (hop : c.d.op ≠ 3) (hr : c.d.reduces = false) :
    ∃ t, execCollectiveStart s = .next t ∧ t.coll? c.key = some { c with running := true, window := s.param 0x0900 } ∧
      t.atolls = s.atolls := by
  have hfull : ¬ 8 ≤ s.coll.list.countP Coll.live := Nat.not_le.2 hroom
  have hmod := State.coll?_modColl hc (f := fun y => { y with running := true, window := s.param 0x0900 }) fun _ => rfl
  simp only [execCollectiveStart, hfirst, hrun, hfull, hop, State.biThen_hostClear hh, not_true_eq_false, or_self, if_false]
  generalize hs1 : s.modColl c.key (fun y => { y with running := true, window := s.param 0x0900 }) = s1 at hmod ⊢
  have hatolls : s1.atolls = s.atolls := hs1 ▸ rfl
  have hstarted (f : Nat → Strait → Strait) : ((List.range 6).foldl (fun u d => u.modStrait d (f d)) s1).coll? c.key = _ :=
    (State.coll?_congr (s1.foldl_modStrait_frame ..).1 c.key).trans hmod
  refine ⟨_, rfl, ?_⟩
  rw [State.push_not_reducing (hstarted _) hr]
  exact ⟨hstarted _, (s1.foldl_modStrait_frame ..).2.trans hatolls⟩

/-! ### The operations of one module (R244, R247) -/

/-- LOCAL_UPDATE runs every tile, closes the update and ends with DONE. -/
theorem execLocalUpdate_ends {s s1 s2 : State} {k : CollKey} {c : Coll} (hc : s.coll? k = some c) (hrun : s.running = true)
    (hlive : c.live = true) (hop : c.d.op = 6) (hskew : c.skew = false) (hcheck : s.skewCheck k = s)
    (htiles : (List.range c.shardSize.2).foldl (fun t i =>
      if ((t.coll? k).map Coll.live).getD false then t.runTile k 0 i else t) s = s1)
    (hlive1 : ((s1.coll? k).map Coll.live) = some true) (hend : s1.endUpdate k = s2) :
    execLocalUpdate k none s =
      .next ((s2.modColl k fun y => { y with written := List.range (c.d.chunkCount 0) }).endColl k 0) := by
  simp only [execLocalUpdate, State.badWord, hc, hrun, hlive, hop, hskew, hcheck, htiles, hlive1, hend]
  rfl

/-- DENSITY_PROFILE ends its collective: with DONE, or at the first failing read or write. -/
theorem execDensityProfile_ends {s : State} {k : CollKey} {c : Coll} (hc : s.coll? k = some c) (hrun : s.running = true)
    (hlive : c.live = true) (hop : c.d.op = 0x10) (hh : s.hostClear) :
    ∃ t, execDensityProfile k none s = .next t ∧ t.collEnded k := by
  simp only [execDensityProfile, State.badWord, hc, hrun, hlive, hop, State.biThen_hostClear hh]
  refine ⟨_, rfl, ?_⟩
  rw [if_neg (by simp)]
  have hread : (State.readRows (densityCmd c.img).srcRows.list s (some c.part)).1.coll? k = some c :=
    (State.coll?_congr (State.readRows_coll ..) k).trans hc
  have hwrite ws : (State.writeAll ws (State.readRows (densityCmd c.img).srcRows.list s (some c.part)).1 (some c.part)).1.coll? k =
      some c := (State.coll?_congr (State.writeAll_coll ..) k).trans hread
  exact iteInduction (motive := (State.collEnded · k)) (fun _ => State.failColl_collEnded hread _) fun _ =>
    iteInduction (motive := (State.collEnded · k)) (fun _ => State.failColl_collEnded (hwrite _) _) fun _ =>
      State.endColl_collEnded (State.coll?_written (hwrite _) _) _

/-- COLL_TIMEOUT records and ends with TIMEOUT (R234). -/
theorem execCollTimeout_ends {s : State} {k : CollKey} {c : Coll} (hc : s.coll? k = some c) (hrun : s.running = true)
    (hlive : c.live = true) :
    ∃ r : RecIn, r.unit = niUnit 0 ∧ r.cls = clsTimeout ∧ execCollTimeout k s = .next ((s.raise r).endColl k 11) := by
  refine ⟨_, ?_, ?_, by
    simp only [execCollTimeout, hc, hrun, hlive, not_true_eq_false, or_self, if_false]
    rfl⟩
  all_goals rfl

/-! ### The rows -/

/-- Settles O19, clause by clause: a row without work ends its collective, which then holds its completion word. -/
theorem collectives : Obligations.Collectives := by
  refine ⟨?start, ?reduce, ?gather, ?update, ?localUpdate, ?density, ?timeout⟩
  case start =>
    intro c s hfirst hc hrun hroom hh hop hr
    exact execCollectiveStart_runs hfirst hc hrun hroom hh (by omega) hr
  case reduce =>
    intro k i code c s hi hc hrun hlive hop haccs hasked hskew hdone
    have hcode : code = 1 ∨ code = 2 := hi.imp And.right And.right
    have hwork : s.collWork k c = s := State.collWork_reducing (hop ▸ hcode) (State.push_asked hc haccs hasked)
    have hrow := State.collRow_completes hc hrun hlive hop hskew hwork hdone
    have hword := State.coll?_endColl hc (Coll.live_finished hlive) 0
    rcases hi with ⟨rfl, rfl⟩ | ⟨rfl, rfl⟩
    · exact ⟨_, congrArg Host.Outcome.next hrow, _, hword, rfl⟩
    · exact ⟨_, congrArg Host.Outcome.next hrow, _, hword, rfl⟩
  case gather =>
    intro k c s hc hrun hlive hop hsent hskew hdone
    have hwork : s.collWork k c = s := State.collWork_gathering hop (State.gatherSend_sent hc hsent)
    have hrow := State.collRow_completes hc hrun hlive hop hskew hwork hdone
    exact ⟨_, congrArg Host.Outcome.next hrow, _, State.coll?_endColl hc (Coll.live_finished hlive) 0, rfl⟩
  case update =>
    intro k i code c s hi hc hrun hlive hop haccs hasked htiles hskew hcheck hdone
    have hcode : code = 4 ∨ code = 5 := hi.imp And.right And.right
    have hwork : s.collWork k c = s :=
      State.collWork_updating (hop ▸ hcode) hcheck (State.push_asked hc haccs hasked) (State.runTiles_updated hc htiles)
    have hrow := State.collRow_completes hc hrun hlive hop hskew hwork hdone
    have hword := State.coll?_endColl hc (Coll.live_finished hlive) 0
    rcases hi with ⟨rfl, rfl⟩ | ⟨rfl, rfl⟩
    · exact ⟨_, congrArg Host.Outcome.next hrow, _, hword, rfl⟩
    · exact ⟨_, congrArg Host.Outcome.next hrow, _, hword, rfl⟩
  case localUpdate =>
    intro k c c1 s s1 s2 hc hrun hlive hop hskew hcheck htiles hlive1 hend hc1 hliveEnd
    exact ⟨_, execLocalUpdate_ends hc hrun hlive hop hskew hcheck htiles hlive1 hend, _,
      State.coll?_endColl (State.coll?_written hc1 (List.range (c.d.chunkCount 0))) (Coll.live_finished hliveEnd) 0, rfl⟩
  case density =>
    intro k c s hc hrun hlive hop hh
    exact execDensityProfile_ends hc hrun hlive hop hh
  case timeout =>
    intro k c s hc hrun hlive
    obtain ⟨r, hunit, hcls, hrow⟩ := execCollTimeout_ends hc hrun hlive
    refine ⟨_, hrow, ?_, _, State.coll?_endColl (s := s.raise r) hc (Coll.live_finished hlive) 11, rfl, rfl⟩
    rw [← hunit, ← hcls]
    exact (s.recorded_raise r).mono (congrArg FaultSt.collectors (State.endColl_flt ..))

end Sys2Proof.Machine
end

section
/-! SUPPORT. The fields of a unit identifier (00 R6, Table 0-6). -/

namespace Sys2Proof.Machine

/-- The fields of a unit identifier read back, each within its width. -/
theorem mkUnit_fields {dieKind die half site kind index sub : Nat} (hdk : dieKind < 8) (hdie : die < 32) (hhalf : half < 2)
    (hsite : site < 32) (hkind : kind < 16) (hindex : index < 16) (hsub : sub < 1024) :
    let u := mkUnit dieKind die half site kind index sub
    uDieKind u = dieKind ∧ uDie u = die ∧ uHalf u = half ∧ uSite u = site ∧ uKind u = kind ∧ uIndex u = index ∧ uSub u = sub := by
  have hval : (mkUnit dieKind die half site kind index sub).toNat =
      dieKind * 2 ^ 29 + die * 2 ^ 24 + half * 2 ^ 23 + site * 2 ^ 18 + kind * 2 ^ 14 + index * 2 ^ 10 + sub := by
    rw [mkUnit, BitVec.toNat_ofNat]
    omega
  simp only [uDieKind, uDie, uHalf, uSite, uKind, uIndex, uSub, bits, hval]
  omega

/-- A unit of an atoll names its site, its kind and its index. -/
theorem atollUnit_fields {g kind index sub : Nat} (hg : g < 320) (hkind : kind ≤ 7) (hindex : index < 16) (hsub : sub < 1024) :
    let u := atollUnit g kind index sub
    uAtoll u = some g ∧ uDieKind u = 0 ∧ uKind u = kind ∧ uIndex u = index := by
  obtain ⟨hdk, hdie, hhalf, hsite, hk, hi, -⟩ := mkUnit_fields (dieKind := 0) (die := g / 40) (half := g % 40 / 20) (site := g % 20)
    (kind := kind) (index := index) (sub := sub) (by omega) (by omega) (by omega) (by omega) (by omega) hindex hsub
  refine ⟨?_, hdk, hk, hi⟩
  rw [uAtoll, atollUnit, hdk, hsite, hdie, hk, hhalf, if_pos ⟨rfl, by omega, by omega, hkind⟩]
  exact congrArg some (by omega)

theorem engineUnit_fields (g : Fin 320) (e : Fin 4) :
    uAtoll (engineUnit g e) = some g.val ∧ uDieKind (engineUnit g e) = 0 ∧ uKind (engineUnit g e) = 1 ∧
      uIndex (engineUnit g e) = e.val :=
  atollUnit_fields g.isLt (by omega) (by omega) (by omega)

theorem siteUnit_fields (g : Fin 320) :
    uAtoll (siteUnit g) = some g.val ∧ uDieKind (siteUnit g) = 0 ∧ uKind (siteUnit g) = 0 ∧ uIndex (siteUnit g) = 0 :=
  atollUnit_fields g.isLt (by omega) (by omega) (by omega)

theorem streamUnitId_fields (h : Fin 16) (u : Fin 4) :
    uDieKind (streamUnitId h u) = 1 ∧ uDie (streamUnitId h u) = h.val ∧ uKind (streamUnitId h u) = 9 ∧
      uIndex (streamUnitId h u) = u.val := by
  obtain ⟨hdk, hdie, -, -, hk, hi, -⟩ := mkUnit_fields (dieKind := 1) (die := h.val) (half := 0) (site := 0) (kind := 9)
    (index := u.val) (sub := 0x3FF) (by omega) (by omega) (by omega) (by omega) (by omega) (by omega) (by omega)
  exact ⟨hdk, hdie, hk, hi⟩

end Sys2Proof.Machine
end

section
/-! SUPPORT. The faults and the reset of an atoll: what ends operations and waits in the atolls leaves both (03 R59, R71, 05 R130,
Table 5-11, Table 11-2). -/

namespace Sys2Proof.Machine

/-- The fault state of the module, and whether atoll g is in reset. -/
def State.faultView (s : State) (g : Nat) : FaultSt × Bool := (s.flt, (s.atoll g).inReset)

theorem State.flt_of_faultView {s t : State} {g : Nat} (h : t.faultView g = s.faultView g) : t.flt = s.flt := congrArg Prod.fst h

theorem State.inReset_of_faultView {s t : State} {g : Nat} (h : t.faultView g = s.faultView g) :
    (t.atoll g).inReset = (s.atoll g).inReset := congrArg Prod.snd h

theorem State.partsOnly.faultView {s t : State} (h : s.partsOnly t) (g : Nat) : t.faultView g = s.faultView g := by
  rw [State.faultView, h.flt, h.atoll]
  rfl

@[simp] theorem State.modAtoll_faultView (s : State) (x : Nat) (f : Atoll → Atoll) (hf : ∀ a, (f a).inReset = a.inReset) (g : Nat) :
    (s.modAtoll x f).faultView g = s.faultView g := by
  by_cases e : g = x
  · rw [State.faultView, e, State.modAtoll_atoll, hf]
    rfl
  · rw [State.faultView, State.modAtoll_atoll_ne s f e]
    rfl

@[simp] theorem State.modMem_faultView (s : State) (f : MemSt → MemSt) (g : Nat) : (s.modMem f).faultView g = s.faultView g := rfl

@[simp] theorem Atoll.modCore_inReset (a : Atoll) (c : Nat) (f : Core → Core) : (a.modCore c f).inReset = a.inReset := by rfl
@[simp] theorem Atoll.modSeq_inReset (a : Atoll) (u : Nat) (f : Sequencer → Sequencer) : (a.modSeq u f).inReset = a.inReset := by rfl
@[simp] theorem Atoll.active_inReset (a : Atoll) : a.active.inReset = a.inReset := by rfl

theorem State.foldl_faultView {α : Type} (f : State → α → State) (l : List α) (s : State) (g : Nat)
    (h : ∀ t x, (f t x).faultView g = t.faultView g) : (l.foldl f s).faultView g = s.faultView g := by
  induction l generalizing s with
  | nil => rfl
  | cons x l ih => exact (ih (f s x)).trans (h s x)

/-! ### Waiters and completions (05 R130, 13 R336) -/

@[simp] theorem State.dropWaits_faultView (s : State) (x c g : Nat) : (s.dropWaits x c).faultView g = s.faultView g := by
  simp [State.dropWaits]

@[simp] theorem State.wakeSeq_faultView (s : State) (x u g : Nat) : (s.wakeSeq x u).faultView g = s.faultView g := by
  simp [State.wakeSeq]

@[simp] theorem State.wakeCore_faultView (s : State) (x c g : Nat) : (s.wakeCore x c).faultView g = s.faultView g := by
  unfold State.wakeCore
  split
  · split <;> simp
  · rfl

@[simp] theorem State.modPart_faultView (s : State) (p : Nat) (f : Part → Part) (g : Nat) :
    (s.modPart p f).faultView g = s.faultView g := (s.modPart_partsOnly p f).faultView g

@[simp] theorem State.judge_faultView (s : State) (p st idx : Nat) (v : Verdict) (g : Nat) :
    (s.judge p st idx v).faultView g = s.faultView g := (s.judge_partsOnly p st idx v).faultView g

@[simp] theorem State.finishCmd_faultView (s : State) (p st idx g : Nat) : (s.finishCmd p st idx).faultView g = s.faultView g :=
  s.modPart_faultView p _ g

/-- A chain of completions, signals and wakes leaves the faults and every reset. -/
theorem State.wakeChain_faultView (k g : Nat) :
    (∀ s p st idx v, (State.completeCmdN k s p st idx v).faultView g = s.faultView g) ∧
    (∀ s o inc, (State.signalModN k s o inc).faultView g = s.faultView g) ∧
    ∀ s o ws, (State.wakeModN k s o ws).faultView g = s.faultView g := by
  induction k with
  | zero =>
    exact ⟨fun _ _ _ _ _ => by rw [State.completeCmdN], fun _ _ _ => by rw [State.signalModN], fun _ _ _ => by rw [State.wakeModN]⟩
  | succ k ih =>
    obtain ⟨hcomplete, hsignal, hwake⟩ := ih
    refine ⟨fun s p st idx v => ?complete, fun s o inc => ?signal, fun s o ws => ?wake⟩
    case complete =>
      unfold State.completeCmdN
      split
      · rfl
      · dsimp only
        split <;> simp [hsignal]
    case signal =>
      unfold State.signalModN
      exact hwake _ _ _
    case wake =>
      cases ws with
      | nil => rw [State.wakeModN]
      | cons w ws =>
        unfold State.wakeModN
        rw [hwake]
        split
        · simp
        · simp
        · exact hcomplete _ _ _ _ _

@[simp] theorem State.completeCmd_faultView (s : State) (p st idx : Nat) (v : Verdict) (g : Nat) :
    (s.completeCmd p st idx v).faultView g = s.faultView g := (State.wakeChain_faultView _ g).1 s p st idx v

@[simp] theorem State.signalAtoll_faultView (s : State) (x o inc g : Nat) :
    (s.signalAtoll x o inc).faultView g = s.faultView g := by
  refine (State.foldl_faultView _ _ _ g fun t w => ?_).trans (s.modAtoll_faultView x _ (by simp) g)
  split <;> simp

@[simp] theorem State.batchEnd_faultView (s : State) (p st idx : Nat) (w : DWord) (g : Nat) :
    (s.batchEnd p st idx w).faultView g = s.faultView g := by
  unfold State.batchEnd
  split
  · rfl
  · split <;> simp

/-- The delivery of a completion word leaves the faults and every reset. -/
@[simp] theorem State.deliverOp_faultView (s : State) (x : Nat) (src : OpSource) (origin : Nat) (w : DWord) (notify : Bool)
    (obj g : Nat) : (s.deliverOp x src origin w notify obj).faultView g = s.faultView g := by
  unfold State.deliverOp
  dsimp only
  cases src with
  | seq u id => split <;> simp
  | core c => split <;> simp
  | batch p st idx k => split <;> simp

/-! ### Writes held at the banks (03 R59) -/

theorem Atoll.offLagoon_inReset : Atoll.OffLagoon Atoll.inReset := fun _ _ _ _ => rfl

@[simp] theorem State.lagoonWrite_faultView (s : State) (t off : Nat) (tag : BitVec 5) (data : List Byte) (g : Nat) :
    (s.lagoonWrite t off tag data).faultView g = s.faultView g := by
  rw [State.faultView, s.lagoonWrite_offLagoon Atoll.offLagoon_inReset, (s.onlyAtoll_lagoonWrite t off tag data).1]
  rfl

@[simp] theorem State.releaseHeld_faultView (s : State) (t g : Nat) : (s.releaseHeld t).faultView g = s.faultView g :=
  (State.foldl_faultView _ _ _ g fun _ _ => State.lagoonWrite_faultView ..).trans (s.modAtoll_faultView t _ (by simp) g)

@[simp] theorem State.releaseAround_faultView (s : State) (x g : Nat) : (s.releaseAround x).faultView g = s.faultView g := by
  refine (State.foldl_faultView _ _ _ g fun t d => ?_).trans (s.releaseHeld_faultView x g)
  split
  · exact State.releaseHeld_faultView ..
  · rfl

/-! ### Endpoints (Table 5-11) -/

@[simp] theorem State.modHandle_faultView (s : State) (x c h : Nat) (f : Handle → Handle) (g : Nat) :
    (s.modHandle x c h f).faultView g = s.faultView g := s.modAtoll_faultView x _ (by simp) g

@[simp] theorem State.freeHandle_faultView (s : State) (x c h g : Nat) : (s.freeHandle x c h).faultView g = s.faultView g :=
  s.modAtoll_faultView x _ (by simp) g

@[simp] theorem State.settleClose_faultView (s : State) (p x c h g : Nat) : (s.settleClose p x c h).faultView g = s.faultView g := by
  unfold State.settleClose
  (repeat' split) <;> simp

@[simp] theorem State.closeSendEnd_faultView (s : State) (p : Nat) (x : Handle) (g : Nat) :
    (s.closeSendEnd p x).faultView g = s.faultView g := by
  unfold State.closeSendEnd
  split
  · rfl
  · split
    · rfl
    · simp

@[simp] theorem State.killSender_faultView (s : State) (p : Nat) (x : Handle) (g : Nat) :
    (s.killSender p x).faultView g = s.faultView g := by
  unfold State.killSender
  split <;> simp

@[simp] theorem State.resetEndpoint_faultView (s : State) (x c g : Nat) : (s.resetEndpoint x c).faultView g = s.faultView g := by
  unfold State.resetEndpoint
  split
  · rfl
  · refine (State.modAtoll_faultView _ x _ (by simp) g).trans (State.foldl_faultView _ _ s g fun t e => ?_)
    split <;> simp

/-! ### The reset of an atoll (Table 11-2) -/

@[simp] theorem State.endBatches_faultView (s : State) (x g : Nat) : (s.endBatches x).faultView g = s.faultView g := by
  unfold State.endBatches
  split
  · rfl
  · split
    · rfl
    · exact State.foldl_faultView _ _ s g fun t _ => State.foldl_faultView _ _ t g fun _ _ => State.completeCmd_faultView ..

/-- The reset of an atoll begins: it is in reset, and no fault is noted for it. -/
theorem State.beginAtollReset_faultView (s : State) (g : Nat) : (s.beginAtollReset g).faultView g = (s.flt, true) := by
  unfold State.beginAtollReset
  dsimp only
  rw [State.modAtoll_faultView _ g _ (by simp)]
  simp only [State.resetEndpoint_faultView, State.dropWaits_faultView, State.releaseAround_faultView, State.endBatches_faultView]
  rw [State.faultView, State.modAtoll_atoll]
  rfl

end Sys2Proof.Machine
end

section
/-! SUPPORT. The partitions: what aborts, resets and descriptor installs of the atolls leave of them (10 Table 10-7, 04 R104). -/

namespace Sys2Proof.Machine

theorem State.part?_congr {s t : State} (h : t.parts = s.parts) (p : Nat) : t.part? p = s.part? p := by
  rw [State.part?, State.part?, h]

theorem State.foldl_parts {α : Type} (f : State → α → State) (l : List α) (s : State) (h : ∀ t x, (f t x).parts = t.parts) :
    (l.foldl f s).parts = s.parts := by
  induction l generalizing s with
  | nil => rfl
  | cons x l ih => exact (ih (f s x)).trans (h s x)

theorem State.modAtolls_parts (s : State) (l : Tbl Nat) (f : Atoll → Atoll) :
    (l.foldl (fun t k => t.modAtoll k.2 f) s).parts = s.parts := State.foldl_parts _ l s fun t k => t.modAtoll_parts k.2 f

@[simp] theorem State.notice_parts (s : State) (p kind status : Nat) (seq : Word) (report : Half) :
    (s.notice p kind status seq report).parts = s.parts := rfl

@[simp] theorem State.escalate_parts (s : State) (seq : Word) : (s.escalate seq).parts = s.parts := by
  obtain ⟨ev, es, ft, fq, n, fs, r, h⟩ := s.escalate_frame seq
  rw [h]

@[simp] theorem State.dropMem_parts (s : State) (f : MemCmd → Bool) : (s.dropMem f).parts = s.parts := rfl

/-! ### Lagoons and cache bays -/

@[simp] theorem State.lagoonWrite_parts (s : State) (t off : Nat) (tag : BitVec 5) (data : List Byte) :
    (s.lagoonWrite t off tag data).parts = s.parts := by
  rw [(s.onlyAtoll_lagoonWrite t off tag data).1]

@[simp] theorem State.releaseHeld_parts (s : State) (t : Nat) : (s.releaseHeld t).parts = s.parts :=
  State.foldl_parts _ _ _ fun _ _ => State.lagoonWrite_parts ..

@[simp] theorem State.releaseAround_parts (s : State) (g : Nat) : (s.releaseAround g).parts = s.parts := by
  refine (State.foldl_parts _ _ _ fun t d => ?_).trans (s.releaseHeld_parts g)
  split
  · exact State.releaseHeld_parts ..
  · rfl

@[simp] theorem State.physWrite_parts (k : Nat) (s : State) (who : Option Nat) (addr : Nat) (tag : BitVec 5) (data : List Byte) :
    (State.physWrite k s who addr tag data).1.parts = s.parts := by
  induction k generalizing s addr data with
  | zero => rfl
  | succ k ih =>
    unfold State.physWrite
    split
    · rfl
    · dsimp only
      split
      · unfold State.bankLate
        dsimp only
        (repeat' split) <;> rfl
      · rw [ih]
        unfold State.writePlace State.dramWrite
        dsimp only
        (repeat' split) <;> simp

@[simp] theorem State.flushBay_parts (s : State) (g bay : Nat) : (s.flushBay g bay).parts = s.parts := by
  refine State.foldl_parts _ _ _ fun t e => ?_
  split
  · exact State.physWrite_parts ..
  · rfl

@[simp] theorem State.finishBayChange_parts (s : State) (g : Nat) (c : BayChange) : (s.finishBayChange g c).parts = s.parts := by
  unfold State.finishBayChange
  split <;> simp

@[simp] theorem State.bayUnpublish_parts (s : State) (g bay : Nat) : (s.bayUnpublish g bay).parts = s.parts := by
  rw [(s.baysKept_bayUnpublish g bay).1]

/-! ### Waiters and endpoints of the atolls -/

@[simp] theorem State.dropWaits_parts (s : State) (g c : Nat) : (s.dropWaits g c).parts = s.parts := rfl

@[simp] theorem State.wakeSeq_parts (s : State) (g u : Nat) : (s.wakeSeq g u).parts = s.parts := rfl

@[simp] theorem State.wakeCore_parts (s : State) (g c : Nat) : (s.wakeCore g c).parts = s.parts := by
  unfold State.wakeCore
  split
  · split <;> rfl
  · rfl

@[simp] theorem State.armAtoll_parts (s : State) (g o : Nat) (v : Word) : (s.armAtoll g o v).parts = s.parts := by
  refine (State.foldl_parts _ _ _ fun t w => ?_).trans (s.modAtoll_parts g _)
  split <;> simp

@[simp] theorem State.settleClose_parts (s : State) (p g c h : Nat) : (s.settleClose p g c h).parts = s.parts := by
  unfold State.settleClose
  (repeat' split) <;> rfl

@[simp] theorem State.settleAll_parts (s : State) (p : Nat) (x : Part) : (s.settleAll p x).parts = s.parts := by
  refine State.foldl_parts _ _ s fun t e => State.foldl_parts _ _ t fun t c => State.foldl_parts _ _ t fun t h => ?_
  split <;> simp

/-! ### Aborts and descriptors -/

@[simp] theorem State.abortAtoll_parts (s : State) (g : Nat) : (s.abortAtoll g).parts = s.parts := by
  simp [State.abortAtoll, State.flushAtoll]

@[simp] theorem State.abortAtolls_parts (s : State) (gs : List Nat) : (s.abortAtolls gs).parts = s.parts := by
  refine State.foldl_parts _ _ s fun t g => ?_
  split <;> simp

@[simp] theorem State.sendEpochs_parts (s : State) (g : Nat) (e : BitVec 4) : (s.sendEpochs g e).parts = s.parts := by
  refine State.foldl_parts _ _ s fun t i => ?_
  split
  · unfold State.sendLane
    split <;> rfl
  · rfl

@[simp] theorem State.installDesc_parts (s : State) (g : Nat) (d : Desc) (number : Nat) (record : BitVec 14) (held : Bool) :
    (s.installDesc g d number record held).parts = s.parts := by
  have hbays : ∀ bs : List Nat, (bs.foldl (fun t b =>
      (t.bayUnpublish g b).finishBayChange g { bay := b, toCache := d.f 4 b 1 == 1 }) s).parts = s.parts := fun bs =>
    State.foldl_parts _ bs s fun t b => by simp
  unfold State.installDesc
  dsimp only
  rw [State.foldl_parts _ _ _ fun t o => by split <;> simp, State.foldl_parts _ _ _ fun t i => State.modAtoll_parts ..,
    State.modAtoll_parts, hbays]

/-- The load of a descriptor that meets no uncorrectable word leaves the partitions. -/
@[simp] theorem State.loadDesc_parts (s : State) (g : Nat) (entry : BitVec 128) (number : Nat) (record : BitVec 14)
    (epoch : BitVec 4) (held : Bool) : (s.loadDesc g entry number record epoch held none).1.parts = s.parts := by
  unfold State.loadDesc
  dsimp only
  (repeat' split) <;> simp

@[simp] theorem State.reinstall_parts (s : State) (p q : Nat) (descs : Tbl (Nat × Nat)) (e : BitVec 4) :
    (s.reinstall p q descs e).parts = s.parts := by
  unfold State.reinstall
  split <;> simp

@[simp] theorem State.restoreChannels_parts (s : State) (p q : Nat) (st : StepStart) :
    (s.restoreChannels p q st).parts = s.parts := by
  unfold State.restoreChannels
  split <;> rfl

@[simp] theorem State.restoreObjects_parts (s : State) (p : Nat) (x : Part) (st : StepStart) :
    (s.restoreObjects p x st).parts = s.parts := State.foldl_parts _ _ s fun _ _ => State.modAtoll_parts ..

end Sys2Proof.Machine
end

section
/-! SUPPORT. Step rollback: its begin and its restart (10 R265-R267, Table 10-7; 13 R341, R342). -/

namespace Sys2Proof.Machine

/-! ### Begin -/

/-- The spares that a rollback takes over leave their partition in place. -/
theorem State.takeSpares_part {s : State} {p : Nat} {x : Part} (hx : s.part? p = some x) (rep : List Nat) (seq : Word) :
    ∃ y, (s.takeSpares p rep seq).1.part? p = some y := by
  unfold State.takeSpares
  simp only [hx]
  rw [State.modPart_part, State.part?_congr (State.foldl_parts _ _ s fun t _ => t.escalate_parts seq), hx]
  exact ⟨_, rfl⟩

theorem State.abortPart_part {s : State} {p : Nat} {x : Part} (hx : s.part? p = some x) : ∃ y, (s.abortPart p).part? p = some y := by
  unfold State.abortPart
  dsimp only
  rw [State.modPart_part, State.part?_congr (t := _) (s := s) (by simp), hx]
  exact ⟨_, rfl⟩

/-- A rollback has begun for the triggers that waited, of which none waits any more. -/
theorem State.beginRollback_part {s : State} {p : Nat} {x : Part} (hx : s.part? p = some x) (c : Trigger) :
    ∃ y r, (s.beginRollback p x c).part? p = some y ∧ y.triggers = [] ∧ y.rollback = some r ∧ r.outside = false ∧ r.cause = c ∧
      r.replace = s.replaced p x.triggers ∧ r.stop = x.rollbackStop x.triggers := by
  obtain ⟨y1, h1⟩ := State.takeSpares_part hx (s.replaced p x.triggers) c.recordSeq
  obtain ⟨y2, h2⟩ := State.abortPart_part h1
  unfold State.beginRollback
  dsimp only
  rw [State.modPart_part, State.part?_congr (State.abortAtolls_parts ..), h2]
  exact ⟨_, _, rfl, rfl, rfl, rfl, rfl, rfl, rfl⟩

theorem execStepRollback_begins {p : Fin 32} {x : Part} {c : Trigger} {cs : List Trigger} {s : State} (hx : s.part? p = some x)
    (htr : x.triggers = c :: cs) (hhub : s.hubRuns = true) (hrun : s.running = true) (hreset : x.inReset = false)
    (hroll : x.rollback = none) (hstep : x.inStep = true) : execStepRollback p s = .next (s.beginRollback p x c) := by
  simp [execStepRollback, hx, htr, hhub, hrun, hreset, hroll, hstep]

/-! ### Restart -/

/-- With no position to replace, a rollback moves none, and lacks no spare. -/
theorem State.replaceAll_nil (s : State) (p : Nat) {r : Rollback} (h : r.replace = []) : s.replaceAll p r = (s, true) := by
  rw [State.replaceAll, h]
  rfl

/-- A rollback that stops no stream and replaces no position ends with its step closed and to be run again. -/
theorem State.finishRollback_replays {s : State} {p : Nat} {x : Part} {r : Rollback} (hx : s.part? p = some x) (hrep : r.replace = [])
    (hstop : r.stop = none) (e : BitVec 4) : ∃ y : Part, (s.finishRollback p x r e).part? p = some (y.rewind true) := by
  unfold State.finishRollback
  simp only [State.replaceAll_nil _ p hrep, hstop, if_true]
  generalize hs4 : List.foldl _ (List.foldl _ _ _) _ = s4
  have hparts : s4.part? p = some { x with epoch := e, epochTimes := Tbl.set x.epochTimes e.toNat s.count } := by
    rw [← hs4, State.part?_congr ((State.foldl_parts _ _ _ fun t q => t.restoreChannels_parts p q _).trans
      (State.foldl_parts _ _ _ fun t q => t.reinstall_parts p q _ e)), State.modPart_part, hx]
    rfl
  rw [hparts]
  dsimp only
  rw [State.part?_congr (State.notice_parts ..), State.modPart_part,
    State.part?_congr (State.modAtolls_parts ..),
    State.part?_congr ((State.settleAll_parts ..).trans (State.restoreObjects_parts ..)), hparts]
  exact ⟨_, rfl⟩

/-- A rollback outside a step that replaces no position just ends. -/
theorem State.finishOutside_nil {s : State} {r : Rollback} (p : Nat) (x : Part) (h : r.replace = []) :
    s.finishOutside p x r = s.modPart p fun y => { y with rollback := none } := by
  unfold State.finishOutside
  simp only [State.replaceAll_nil s p h, h, List.foldl_nil]

section
variable {p : Fin 32} {x : Part} {r : Rollback} {s : State} (hx : s.part? p = some x) (hr : x.rollback = some r)
  (hhub : s.hubRuns = true) (hrun : s.running = true) (hreset : x.inReset = false) (htr : x.triggers = [])
  (hatolls : ∀ e ∈ x.posAtoll, (s.atoll e.2).inReset = false)
include hx hr hhub hrun hreset htr hatolls

theorem execRollbackRestart_step (hout : r.outside = false) (hepoch : Tbl.get? x.epochTimes (x.epoch + 1).toNat = none) :
    execRollbackRestart p s = .next (s.finishRollback p x r (x.epoch + 1)) := by
  have hany : (x.posAtoll.any fun k => (s.atoll k.2).inReset) = false := List.any_eq_false.2 fun e he => by simp [hatolls e he]
  simp only [execRollbackRestart, hx, hr, hhub, hrun, hreset, htr, hany, hout, hepoch]
  rfl

theorem execRollbackRestart_outside (hout : r.outside = true) : execRollbackRestart p s = .next (s.finishOutside p x r) := by
  have hany : (x.posAtoll.any fun k => (s.atoll k.2).inReset) = false := List.any_eq_false.2 fun e he => by simp [hatolls e he]
  simp [execRollbackRestart, hx, hr, hhub, hrun, hreset, htr, hany, hout]

end

end Sys2Proof.Machine
end

section
/-! SUPPORT. The watchdogs that roll a step back or fence a unit (11 R279, R284, Table 11-5). -/

namespace Sys2Proof.Machine

@[simp] theorem State.fenceAtoll_atolls (s : State) (g : Nat) (u : Word) (cls : Half) (seq : Word) (addr : Option DWord) :
    (s.fenceAtoll g u cls seq addr).atolls = s.atolls := by
  obtain ⟨-, -, es, r, fs, q, ps, h⟩ := s.fenceAtoll_spec g u cls seq addr
  rw [h]

theorem State.fenceAtoll_atoll (s : State) (g : Nat) (u : Word) (cls : Half) (seq : Word) (addr : Option DWord) (h : Nat) :
    (s.fenceAtoll g u cls seq addr).atoll h = s.atoll h := by
  rw [State.atoll, State.atoll, State.fenceAtoll_atolls]

theorem execScalarWatchdog_fences {g : Fin 320} {core : Fin 2} {s : State} (hruns : s.unitRuns g = true)
    (hrun : ((s.atoll g).core core).running = true) (hblock : ((s.atoll g).core core).block = .none)
    (hsplit : (s.atoll g).split = true ∨ core = 0) :
    ∃ r : RecIn, r.unit = s.coreUnit g core ∧ r.cls = clsTimeout ∧ execScalarWatchdog g core s =
      .next ((s.raise r).fenceAtoll g r.unit clsTimeout (s.nextSeq r.unit)) := by
  have hpair : ¬ ((s.atoll g).split = false ∧ core.val = 1) := by
    rintro ⟨hns, hone⟩
    rcases hsplit with h | rfl
    · simp [h] at hns
    · simp at hone
  refine ⟨_, ?_, ?_, by
    simp only [execScalarWatchdog, hruns, hrun, hblock]
    rw [if_neg (by simpa using hpair)]⟩
  all_goals rfl

theorem execSeqWaitWatchdog_triggers {g : Fin 320} {u : Fin 6} {p pos o : Nat} {n : Word} {s : State}
    (hblock : ((s.atoll g).seq u).block = .sync o n) (hpos : s.positionOf g = some (p, pos)) (hruns : s.unitRuns g = true) :
    ∃ (r : RecIn) (t : Trigger), r.unit = seqUnit g u ∧ r.cls = clsTimeout ∧ t.seqWatch = true ∧
      execSeqWaitWatchdog g u s = .next ((s.raise r).trigger p t) := by
  refine ⟨_, _, ?_, ?_, ?_, by
    simp only [execSeqWaitWatchdog, hblock, hpos, hruns, not_true_eq_false, if_false]
    rfl⟩
  all_goals rfl

/-- A fenced stream unit is contained as a stream unit (Table 10-5). -/
theorem State.contain_streamUnit (s : State) (h : Fin 16) (u : Fin 4) (cls : Half) (seq : Word) :
    s.contain (streamUnitId h u) cls seq = s.fenceStreamUnit h u cls seq := by
  obtain ⟨hdk, hdie, hk, hi⟩ := streamUnitId_fields h u
  simp [State.contain, hdk, hdie, hk, hi]

theorem execBlockWatchdog_fences {h : Fin 16} {u : Fin 4} {s : State} (hrun : s.running = true)
    (hf : s.isFenced (streamUnitId h u) = false) (hcur : (s.sunit h u).cur.isSome = true) :
    ∃ r : RecIn, r.unit = streamUnitId h u ∧ r.cls = clsTimeout ∧ execBlockWatchdog (streamUnitId h u) s =
      .next ((s.raise r).fenceStreamUnit h u clsTimeout (s.nextSeq (streamUnitId h u))) := by
  obtain ⟨hdk, hdie, hk, hi⟩ := streamUnitId_fields h u
  have hblock : patrolBlock (streamUnitId h u) = true := by simp [patrolBlock, hdk, hdie, hk, hi]
  refine ⟨_, ?_, ?_, by
    rw [← State.contain_streamUnit]
    simp only [execBlockWatchdog, hrun, hf, hblock, hk, hdie, hi, if_true, hcur, not_true_eq_false, Bool.false_eq_true, or_self,
      if_false]
    rfl⟩
  all_goals rfl

/-- The record of an atoll of partition p that has not stopped. -/
def stallRecord (g p : Nat) : RecIn :=
  { unit := siteUnit g, cls := clsTimeout, part := some p, scope := 2, actions := actCounted, detail := [(32, 0)] }

/-- The record, and the reset counted against the site's limit (11 R289). -/
def State.noteStall (s : State) (g p : Nat) : State :=
  (s.raise (stallRecord g p)).modFlt fun f => { f with atollResets := f.atollResets ++ [(g, s.count)] }

theorem State.recorded_noteStall (s : State) (g p : Nat) : s.recorded (s.noteStall g p) (siteUnit g) clsTimeout :=
  (s.recorded_raise (stallRecord g p)).mono rfl

/-- An atoll that has not stopped is reset, and at its limit of resets its site is fenced too. -/
theorem execStepAbortStall_resets {g : Fin 320} {p pos : Nat} {x : Part} {r : Rollback} {s : State}
    (hpos : s.positionOf g = some (p, pos)) (hx : s.part? p = some x) (hroll : x.rollback = some r) (hrun : s.running = true)
    (habort : (s.atoll g).aborting = true) (hreset : (s.atoll g).inReset = false) :
    ∃ n, execStepAbortStall g s = .next (if n ≥ s.param 0x0B03 then
      ((s.noteStall g p).beginAtollReset g).fenceAtoll g (siteUnit g) clsTimeout (s.nextSeq (siteUnit g))
        else (s.noteStall g p).beginAtollReset g) := by
  exact ⟨_, by
    simp only [execStepAbortStall, hpos]
    rw [if_neg (by simp [hrun, habort, hreset, hx, hroll])]
    rfl⟩

/-! ### The rows -/

/-- Settles O22, row by row: each acts as the lemmas above say, and what follows a record or a rollback's begin leaves both. -/
theorem rollbackAndWatchdogs : Obligations.RollbackAndWatchdogs := by
  refine ⟨?begins, ?replays, ?outside, ?scalar, ?seqWait, ?block, ?stall⟩
  case begins =>
    intro p x c cs s hx htr hhub hrun hreset hroll hstep
    exact ⟨_, execStepRollback_begins hx htr hhub hrun hreset hroll hstep, State.beginRollback_part hx c⟩
  case replays =>
    intro p x r s hx hr hout hrep hstop hhub hrun hreset htr hatolls hepoch
    obtain ⟨y, hy⟩ := State.finishRollback_replays hx hrep hstop (x.epoch + 1)
    exact ⟨_, execRollbackRestart_step hx hr hhub hrun hreset htr hatolls hout hepoch, _, hy, rfl, rfl, rfl⟩
  case outside =>
    intro p x r s hx hr hout hrep hhub hrun hreset htr hatolls
    refine ⟨_, execRollbackRestart_outside hx hr hhub hrun hreset htr hatolls hout, ?_⟩
    rw [State.finishOutside_nil p x hrep]
    exact ⟨by rw [State.modPart_part, hx]; rfl, State.modPart_atolls ..⟩
  case scalar =>
    intro g core s hruns hrun hblock hsplit
    obtain ⟨r, hunit, hcls, hrow⟩ := execScalarWatchdog_fences hruns hrun hblock hsplit
    obtain ⟨hfu, hfs, -⟩ := (s.raise r).fenceAtoll_spec g r.unit clsTimeout (s.nextSeq r.unit) none
    rw [← hunit, ← hcls]
    exact ⟨_, hrow, (s.recorded_raise r).mono (State.fenceAtoll_collectors ..), hfu, hfs, State.fenceAtoll_atolls ..⟩
  case seqWait =>
    intro g u p pos o n x s hblock hpos hx hruns
    obtain ⟨r, t, hunit, hcls, hwatch, hrow⟩ := execSeqWaitWatchdog_triggers hblock hpos hruns
    rw [← hunit, ← hcls]
    refine ⟨_, hrow, (s.recorded_raise r).mono (by rw [State.trigger_flt]), by rw [State.trigger_flt, State.raise_fenced], ?_⟩
    rw [State.trigger, State.modPart_part, State.part?_congr (s.raise_parts r), hx]
    exact ⟨_, t, rfl, rfl, hwatch⟩
  case block =>
    intro h u s hrun hf hcur
    obtain ⟨run, hsome⟩ := Option.isSome_iff_exists.1 hcur
    obtain ⟨r, hunit, hcls, hrow⟩ := execBlockWatchdog_fences hrun hf hcur
    obtain ⟨hfree, hflt⟩ := State.fenceStreamUnit_spec (s := s.raise r) clsTimeout (s.nextSeq (streamUnitId h u)) hsome
    rw [← hunit] at hflt
    obtain ⟨hrec, hfenced⟩ := State.recorded_and_fenced hflt
    rw [hunit, hcls] at hrec
    rw [hunit] at hfenced
    exact ⟨_, hrow, hrec, hfenced, hfree⟩
  case stall =>
    intro g p pos x r s hpos hx hroll hrun habort hreset
    obtain ⟨n, hrow⟩ := execStepAbortStall_resets hpos hx hroll hrun habort hreset
    obtain ⟨hflt, hin⟩ := Prod.mk.inj ((s.noteStall g p).beginAtollReset_faultView g)
    have hrec : s.recorded ((s.noteStall g p).beginAtollReset g) (siteUnit g) clsTimeout :=
      (s.recorded_noteStall g p).mono (by rw [hflt])
    refine ⟨_, hrow, ?_⟩
    split
    · exact ⟨by rw [State.fenceAtoll_atoll, hin], hrec.mono (State.fenceAtoll_collectors ..)⟩
    · exact ⟨hin, hrec⟩

end Sys2Proof.Machine
end

section
/-! SUPPORT. Gap patrol and the failures of a patrol: what is noted, recorded, fenced and reported (10 R253-R257, R261). -/

namespace Sys2Proof.Machine

/-! ### Micro-tests that pass (R253) -/

/-- An atoll after a micro-test of its engine e passed at a local count: once all 16 have, their set starts again. -/
def Atoll.notePass (a : Atoll) (e test : Nat) (now : DWord) : Atoll :=
  let m := Tbl.getD a.gapDone e 0 ||| 2 ^ test
  if m = 0xFFFF then { a with gapDone := Tbl.set a.gapDone e 0, patrolGap := Tbl.set a.patrolGap e now }
  else { a with gapDone := Tbl.set a.gapDone e m }

theorem Atoll.notePass_last {a : Atoll} {e test : Nat} (now : DWord) (h : Tbl.getD a.gapDone e 0 ||| 2 ^ test = 0xFFFF) :
    a.notePass e test now = { a with gapDone := Tbl.set a.gapDone e 0, patrolGap := Tbl.set a.patrolGap e now } := if_pos h

theorem Atoll.notePass_more {a : Atoll} {e test : Nat} (now : DWord) (h : Tbl.getD a.gapDone e 0 ||| 2 ^ test ≠ 0xFFFF) :
    a.notePass e test now = { a with gapDone := Tbl.set a.gapDone e (Tbl.getD a.gapDone e 0 ||| 2 ^ test) } := if_neg h

theorem patrolIndex_engine {u : Word} {e : Fin 4} (hk : uKind u = 1) (hi : uIndex u = e.val) : patrolIndex u = some e.val := by
  simp [patrolIndex, hk, hi]

theorem State.patrolPass_engine {u : Word} {g : Nat} {e : Fin 4} (s : State) (test : Nat) (ha : uAtoll u = some g)
    (hp : patrolIndex u = some e.val) : s.patrolPass u test = s.modAtoll g fun a => a.notePass e test s.count := by
  simp only [State.patrolPass, ha, hp]
  rfl

/-- In an engine that patrol reaches and that is idle, a micro-test has its result, forced or not. -/
theorem execGapPatrol_tests {u : Word} {test : Fin 16} {r : PatrolResult} {i : Instr} {s : State}
    (hi : i = .gapPatrolMicrotest u test r ∨ i = .gapPatrolForcedSlot u test r) (hp : s.patrols u = true)
    (hb : s.patrolBusy u = (false, false)) : exec i s = .next (s.microtest u test r) := by
  rcases hi with rfl | rfl
  · exact congrArg Host.Outcome.next (if_pos ⟨hp, hb⟩)
  · exact congrArg Host.Outcome.next (if_pos ⟨hp, congrArg Prod.fst hb⟩)

/-! ### Suspect reports (R257) -/

/-- A suspect report is the last of those kept; of the fault state it changes these and the next report's number. -/
theorem State.suspect_flt (s : State) (u : Word) (full : Bool) (seq : Word) :
    ∃ n l r, (s.suspect u full seq).flt = { s.flt with reportNext := n, suspects := l ++ [r] } ∧ r.unit = u ∧ r.full = full := by
  unfold State.suspect
  dsimp only
  rw [(State.partsOnly_foldl _ (fun t p => t.notice_partsOnly p 4 0 seq _) _ _).flt]
  exact ⟨_, _, _, rfl, rfl, rfl⟩

/-! ### Containment of an engine and of a site (R261, R262, Table 10-5) -/

theorem State.escalateAtoll_frame (s : State) (g : Nat) (cls : Half) (seq : Word) :
    (s.escalateAtoll g cls seq).flt.collectors = s.flt.collectors ∧ (s.escalateAtoll g cls seq).flt.fenced = s.flt.fenced := by
  unfold State.escalateAtoll
  split
  · rename_i p pos _
    obtain ⟨ev, es, ft, fq, n, fs, r, h⟩ := (s.trigger p
      { cls := cls, addr := none, position := some pos, recordSeq := seq }).escalate_frame seq
    rw [h, State.trigger_flt]
    exact ⟨rfl, rfl⟩
  · exact ⟨rfl, rfl⟩

theorem State.wantMigration_flt (s : State) (g : Nat) : (s.wantMigration g).flt = s.flt := by
  unfold State.wantMigration
  split
  · exact State.modPart_flt ..
  · rfl

/-- The fence of an engine adds no record, whether a sibling takes up its operations or none can. -/
theorem State.fenceEngine_spec (s : State) (g e : Nat) (cls : Half) (seq : Word) (used : Nat) :
    (s.fenceEngine g e cls seq used).flt.collectors = s.flt.collectors ∧
      (s.fenceEngine g e cls seq used).isFenced (engineUnit g e) = true := by
  have hfence := s.fenceUnit_isFenced (engineUnit g e) cls seq 1 false
  have hcoll := s.fenceUnit_collectors (engineUnit g e) cls seq 1 false
  unfold State.fenceEngine
  dsimp only
  split
  · rw [State.isFenced, State.wantMigration_flt]
    exact ⟨hcoll, hfence⟩
  · have hflt (l : List TileOp) (t : State) : ((l.foldl (fun st op =>
        st.deliverOp g op.src op.origin (opWord op.spent 0 op.replayed false false opAbandoned (tileDesc op.desc).ticket)
          (tileDesc op.desc).notify (tileDesc op.desc).syncObj) t).releaseAround g).flt = t.flt :=
      State.flt_of_faultView (g := g) ((State.releaseAround_faultView ..).trans
        (State.foldl_faultView _ l t g fun _ _ => State.deliverOp_faultView ..))
    obtain ⟨hc, hf⟩ := State.escalateAtoll_frame _ g cls seq
    rw [State.isFenced, hc, hf, hflt]
    exact ⟨hcoll, hfence⟩

theorem State.contain_engine {u : Word} {g e : Nat} (s : State) (cls : Half) (seq : Word) (ha : uAtoll u = some g)
    (hdk : uDieKind u = 0) (hk : uKind u = 1) (hi : uIndex u = e) :
    s.contain u cls seq = s.freshen.fenceEngine g e cls seq ((Config.unstated s.freeCtr 7).toNat % 2 ^ 32) := by
  simp only [State.contain, hk, hdk, ha, hi]
  rw [if_neg (by decide), if_neg (by omega), if_pos trivial]

theorem State.contain_site {u : Word} {g : Nat} (s : State) (cls : Half) (seq : Word) (ha : uAtoll u = some g)
    (hdk : uDieKind u = 0) (hk : uKind u = 0) : s.contain u cls seq = s.fenceAtoll g u cls seq := by
  simp [State.contain, hk, hdk, ha]

/-! ### Patrols that fail (R256) -/

/-- A patrol failure of a residual class is recorded, contained, and reported as suspect. -/
theorem State.patrolFail_residual {s : State} {u : Word} {full : Bool} (h : s.residual u full = true)
    (test word expected observed : Nat) :
    ∃ i : RecIn, i.unit = u ∧ i.cls = clsPatrol ∧ s.patrolFail u test word expected observed full =
      ((s.raise i).contain u clsPatrol (s.nextSeq u)).suspect u full (s.nextSeq u) := by
  exact ⟨_, rfl, rfl, if_pos h⟩

theorem State.residual_engine {u : Word} {g : Nat} {e : Fin 4} (s : State) (ha : uAtoll u = some g)
    (hp : patrolIndex u = some e.val) : s.residual u false = true := by
  simp [State.residual, ha, hp]

theorem State.residual_site {u : Word} {g : Nat} (s : State) (ha : uAtoll u = some g) (hk : uKind u = 0) :
    s.residual u true = true := by
  simp [State.residual, ha, hk]

/-- A failing micro-test leaves its record, the fence of its engine and a suspect report. -/
theorem State.patrolFail_engine (s : State) (g : Fin 320) (e : Fin 4) (test word expected observed : Nat) :
    let t := s.patrolFail (engineUnit g e) test word expected observed false
    s.recorded t (engineUnit g e) clsPatrol ∧ t.isFenced (engineUnit g e) = true ∧
      ∃ r, t.flt.suspects.getLast? = some r ∧ r.unit = engineUnit g e ∧ r.full = false := by
  obtain ⟨ha, hdk, hk, hi⟩ := engineUnit_fields g e
  obtain ⟨i, hunit, hcls, hfail⟩ :=
    State.patrolFail_residual (s.residual_engine ha (patrolIndex_engine hk hi)) test word expected observed
  rw [hfail, State.contain_engine _ _ _ ha hdk hk hi]
  obtain ⟨hcoll, hfence⟩ := (s.raise i).freshen.fenceEngine_spec g e clsPatrol (s.nextSeq (engineUnit g e))
    ((Config.unstated (s.raise i).freeCtr 7).toNat % 2 ^ 32)
  obtain ⟨n, l, r, hflt, hru, hrf⟩ := State.suspect_flt ((s.raise i).freshen.fenceEngine g e clsPatrol
    (s.nextSeq (engineUnit g e)) ((Config.unstated (s.raise i).freeCtr 7).toNat % 2 ^ 32)) (engineUnit g e) false
    (s.nextSeq (engineUnit g e))
  refine ⟨?recorded, ?fenced, r, by rw [hflt, List.getLast?_concat], hru, hrf⟩
  case recorded =>
    have hrec := s.recorded_raise i
    rw [hunit, hcls] at hrec
    exact hrec.mono (by rw [hflt, hcoll]; rfl)
  case fenced =>
    rw [State.isFenced, hflt]
    exact hfence

/-- A failing full patrol leaves its record and the fence of its site; the sites under patrol stay. -/
theorem State.patrolFail_site (s : State) (g : Fin 320) (test word expected observed : Nat) :
    let t := s.patrolFail (siteUnit g) test word expected observed true
    s.recorded t (siteUnit g) clsPatrol ∧ t.isFenced (siteUnit g) = true ∧ t.flt.suites = s.flt.suites := by
  obtain ⟨ha, hdk, hk, -⟩ := siteUnit_fields g
  obtain ⟨i, hunit, hcls, hfail⟩ := State.patrolFail_residual (s.residual_site ha hk) test word expected observed
  rw [hfail, State.contain_site _ _ _ ha hdk hk]
  obtain ⟨hfence, -, es, q, fs, fq, ps, hframe⟩ :=
    (s.raise i).fenceAtoll_spec g (siteUnit g) clsPatrol (s.nextSeq (siteUnit g)) none
  obtain ⟨n, l, r, hflt, -, -⟩ := State.suspect_flt ((s.raise i).fenceAtoll g (siteUnit g) clsPatrol
    (s.nextSeq (siteUnit g))) (siteUnit g) true (s.nextSeq (siteUnit g))
  refine ⟨?recorded, ?fenced, ?suites⟩
  case recorded =>
    have hrec := s.recorded_raise i
    rw [hunit, hcls] at hrec
    exact hrec.mono (by rw [hflt, State.fenceAtoll_collectors])
  case fenced =>
    rw [State.isFenced, hflt]
    exact hfence
  case suites =>
    rw [hflt, hframe]
    rfl

end Sys2Proof.Machine
end

section
/-! SUPPORT. Full patrol of a site (10 R254, R255, R257). -/

namespace Sys2Proof.Machine

theorem execFullPatrol_starts {g : Fin 320} {s : State} (hhub : s.hubRuns = true) (hrun : s.running = true)
    (hhealthy : s.siteHealthy g = true) (hsuite : (s.atoll g).suite = false) (hspare : s.isSpare g = false)
    (hroom : s.flt.suites.length < s.param 0x0A02) (hpos : s.positionOf g = none) :
    execFullPatrol g s = .next (s.startSuite g) := by
  have hfull : ¬ s.flt.suites.length ≥ s.param 0x0A02 := by omega
  simp only [execFullPatrol, hhub, hrun, hhealthy, hsuite, hspare, hfull, hpos]
  rfl

theorem State.startSuite_suite (s : State) (g : Nat) : ((s.startSuite g).atoll g).suite = true :=
  congrArg Atoll.suite (s.modAtoll_atoll g fun a => { a with suite := true })

theorem State.startSuite_atoll_ne (s : State) {g h : Nat} (hne : h ≠ g) : (s.startSuite g).atoll h = s.atoll h :=
  s.modAtoll_atoll_ne (fun a => { a with suite := true }) hne

/-- The suite of a site is over. -/
def State.endSuite (s : State) (g : Nat) : State :=
  (s.modAtoll g fun a => { a with suite := false, frozen := false }).modFlt fun f => { f with suites := f.suites.filter (· != g) }

theorem State.endSuite_atoll (s : State) (g : Nat) : (s.endSuite g).atoll g = { s.atoll g with suite := false, frozen := false } :=
  s.modAtoll_atoll g fun a => { a with suite := false, frozen := false }

theorem State.endSuite_suites (s : State) (g : Nat) : g ∉ (s.endSuite g).flt.suites := by
  simp [State.endSuite]

theorem State.clearTouch_frame (s : State) (g : Nat) : ∃ l, s.clearTouch g = { s with flt := { s.flt with touch := l } } := by
  unfold State.clearTouch
  dsimp only
  split
  · rename_i p _
    obtain ⟨l, h⟩ := (s.modFlt fun f => { f with touch := Tbl.erase f.touch (siteUnit g).toNat }).touchUnit_frame (siteUnit g) p
    exact ⟨l, by rw [h]; rfl⟩
  · exact ⟨_, rfl⟩

/-- The raised run of a suite that passes too counts toward the patrol margin alone. -/
theorem State.patrolMargin_pass (s : State) (g : Nat) : ∃ w, s.patrolMargin g .pass = { s with flt := { s.flt with wear := w } } :=
  ⟨_, rfl⟩

theorem State.suiteReturn_none {s : State} {g : Nat} (h : Tbl.get? s.flt.suiteHome g = none) : s.suiteReturn g = s := by
  rw [State.suiteReturn, h]

/-- The suite of a site is over, and the local count of its pass is noted. -/
def State.passSuite (s : State) (g : Nat) : State := (s.endSuite g).modAtoll g fun a => { a with patrolFull := s.count }

theorem State.passSuite_atoll (s : State) (g : Nat) :
    (s.passSuite g).atoll g = { s.atoll g with suite := false, frozen := false, patrolFull := s.count } := by
  rw [State.passSuite, State.modAtoll_atoll, State.endSuite_atoll]

/-- A suite that passes in place is over; what else it changes are the touch records and the wear counts. -/
theorem execFullPatrolComplete_passes {g : Fin 320} {s : State} (hrun : s.running = true) (hg : g.val ∈ s.flt.suites)
    (hhome : Tbl.get? s.flt.suiteHome g = none) :
    ∃ l w, execFullPatrolComplete g .pass .pass s =
      .next ((s.passSuite g).modFlt fun f => { f with touch := l, wear := w }) := by
  obtain ⟨l, htouch⟩ := (s.passSuite g).clearTouch_frame g
  obtain ⟨w, hwear⟩ := ((s.passSuite g).clearTouch g).patrolMargin_pass g
  have hreturn : (((s.passSuite g).clearTouch g).patrolMargin g .pass).suiteReturn g =
      (s.passSuite g).modFlt fun f => { f with touch := l, wear := w } := by
    rw [hwear, htouch]
    exact State.suiteReturn_none hhome
  refine ⟨l, w, ?_⟩
  rw [← hreturn]
  exact congrArg Host.Outcome.next (if_neg (by simp [hrun, hg]))

/-- The position whose suite moved it off a site no longer goes back to it. -/
def State.forgetHome (s : State) (g : Nat) : State := s.modFlt fun f => { f with suiteHome := Tbl.erase f.suiteHome g }

theorem State.forgetHome_isFenced (s : State) (g : Nat) (u : Word) : (s.forgetHome g).isFenced u = s.isFenced u := rfl
theorem State.forgetHome_suites (s : State) (g : Nat) : (s.forgetHome g).flt.suites = s.flt.suites := rfl
theorem State.forgetHome_collectors (s : State) (g : Nat) : (s.forgetHome g).flt.collectors = s.flt.collectors := rfl

/-- A suite that fails is over, and its failure is that of the unit it names. -/
theorem execFullPatrolComplete_fails {g : Fin 320} {tb : Byte} {word : Word} {ex ob : DWord} {s : State} (raised : PatrolResult)
    (hrun : s.running = true) (hg : g.val ∈ s.flt.suites) :
    execFullPatrolComplete g (.fail (siteUnit g) tb word ex ob) raised s =
      .next (((s.endSuite g).patrolFail (siteUnit g) tb.toNat word.toNat ex.toNat ob.toNat true).forgetHome g) := by
  have hpass : ¬ (¬ s.running = true ∨ ¬ s.flt.suites.contains g.val = true) := by simp [hrun, hg]
  rw [execFullPatrolComplete, if_neg hpass]
  simp only [ite_self]
  rfl

end Sys2Proof.Machine
end

section
/-! SUPPORT. Migration of a position to a spare (10 R263, R264). -/

namespace Sys2Proof.Machine

theorem State.setAtoll_atoll_ne (s : State) {g h : Nat} (a : Atoll) (hne : h ≠ g) : (s.setAtoll g a).atoll h = s.atoll h :=
  s.modAtoll_atoll_ne (fun _ => a) hne

theorem State.atollAt_of_part {s : State} {p : Nat} {x : Part} (hx : s.part? p = some x) (pos : Nat) :
    s.atollAt p pos = Tbl.get? x.posAtoll pos := by rw [State.atollAt, hx, Option.bind_some]

/-- A position that asks for migration, that none moves yet and that has a spare, takes it; the spare's suite is dropped. -/
theorem execMigrationStart_takes {p : Fin 32} {pos : Fin 256} {x : Part} {g h : Nat} {s : State} (hx : s.part? p = some x)
    (hhub : s.hubRuns = true) (hreset : x.inReset = false) (hroll : x.rolling = false) (hwant : pos.val ∈ x.migrateWanted)
    (hnone : ∀ m ∈ x.migrations, m.position ≠ pos.val) (hg : s.atollAt p pos = some g) (hh : s.chooseSpare x pos = some h) :
    execMigrationStart p pos s = .next ((s.dropSuite h).modPart p fun y => { y with
      migrations := y.migrations ++ [{ position := pos, source := g, spare := h, patrol := false, back := false }] }) := by
  simp only [execMigrationStart, hx, hg, hh]
  rw [if_neg (by simpa [hhub, hreset, hroll, hwant] using hnone)]

theorem State.dropSuite_parts (s : State) (g : Nat) : (s.dropSuite g).parts = s.parts := rfl

theorem State.dropSuite_suite (s : State) (g : Nat) : ((s.dropSuite g).atoll g).suite = false :=
  congrArg Atoll.suite (s.modAtoll_atoll g fun a => { a with suite := false })

/-! ### The move of a position -/

theorem State.touchUnit_parts (s : State) (u : Word) (p : Nat) : (s.touchUnit u p).parts = s.parts := by
  obtain ⟨l, h⟩ := s.touchUnit_frame u p
  rw [h]

theorem State.touchUnit_atoll (s : State) (u : Word) (p g : Nat) : (s.touchUnit u p).atoll g = s.atoll g := by
  obtain ⟨l, h⟩ := s.touchUnit_frame u p
  rw [h]
  rfl

theorem State.remapPart_parts (s : State) (p : Nat) : (s.remapPart p).parts = s.parts := by
  unfold State.remapPart
  split
  · rfl
  · exact State.foldl_parts _ _ s fun t e => t.modAtoll_parts e.2 _

theorem State.remapPart_lagoon (s : State) (p h : Nat) : ((s.remapPart p).atoll h).lagoon = (s.atoll h).lagoon := by
  unfold State.remapPart
  split
  · rfl
  · exact List.foldlRecOn (motive := fun t : State => (t.atoll h).lagoon = (s.atoll h).lagoon) _ _ rfl fun t ht e _ =>
      (t.modAtoll_lagoon e.2 (by simp) h).trans ht

/-- The moved position has the spare; the other positions of its partition have what they had. -/
theorem State.movePosition_part {s : State} {p pos g : Nat} {x : Part} (h : Nat) (hx : s.part? p = some x)
    (hg : s.atollAt p pos = some g) : ∃ y, (s.movePosition p pos h).part? p = some y ∧ y.posAtoll = Tbl.set x.posAtoll pos h := by
  have hsite (t : State) (f : MemSt → MemSt) (ht : t.parts = s.parts) : (t.modMem f).part? p = some x :=
    (State.part?_congr ht p).trans hx
  unfold State.movePosition
  simp only [hg]
  rw [State.part?_congr ((State.touchUnit_parts ..).trans (State.remapPart_parts ..)), State.modPart_part, hsite]
  · exact ⟨_, rfl, rfl⟩
  · rfl

/-- The spare has the bytes of the atoll that the position leaves. -/
theorem State.movePosition_lagoon {s : State} {p pos g h : Nat} (hg : s.atollAt p pos = some g) (hne : h ≠ g) :
    ((s.movePosition p pos h).atoll h).lagoon = (s.atoll g).lagoon := by
  unfold State.movePosition
  simp only [hg]
  rw [State.touchUnit_atoll, State.remapPart_lagoon, (State.modPart_partsOnly ..).atoll]
  refine (State.modAtoll_lagoon _ h (f := fun a => { a with waits := a.waits.map fun w => { w with who := w.who.move g h } })
    (fun _ => rfl) h).trans ?_
  rw [State.setAtoll_atoll_ne _ _ hne, State.setAtoll_atoll]
  rfl

/-- An atoll without cache bays has no dirty line to write back: its cache is just emptied. -/
theorem State.emptyCaches_of_noBay {s : State} {g : Nat} (h : (s.atoll g).bayCache = 0) :
    s.emptyCaches g = s.modAtoll g fun a => { a with cache := [], plru := [] } := by
  simp [State.emptyCaches, h]

/-- The atoll of a position once it has moved; no cache bay of the atoll it leaves holds a dirty line. -/
theorem State.cutOver_part {s : State} {p pos g : Nat} {x : Part} (h : Nat) (hbays : (s.atoll g).bayCache = 0)
    (hx : s.part? p = some x) (hg : s.atollAt p pos = some g) :
    ∃ y, ((s.emptyCaches g).movePosition p pos h).part? p = some y ∧ y.posAtoll = Tbl.set x.posAtoll pos h := by
  rw [State.emptyCaches_of_noBay hbays]
  exact State.movePosition_part h hx hg

theorem State.cutOver_lagoon {s : State} {p pos g h : Nat} (hbays : (s.atoll g).bayCache = 0) (hg : s.atollAt p pos = some g)
    (hne : h ≠ g) : (((s.emptyCaches g).movePosition p pos h).atoll h).lagoon = (s.atoll g).lagoon := by
  rw [State.emptyCaches_of_noBay hbays, State.movePosition_lagoon (s := s.modAtoll g _) hg hne, State.modAtoll_atoll]

/-- A migration that can cut over moves its position, and gives notice of it. -/
theorem execMigrationCutOver_moves {p : Fin 32} {pos : Fin 256} {x : Part} {m : Migration} {g : Nat} {s : State}
    (hx : s.part? p = some x) (hm : x.migrations.find? (fun m => m.position == pos.val) = some m) (hg : s.atollAt p pos = some g)
    (hpatrol : m.patrol = false) (hhub : s.hubRuns = true) (hruns : s.unitRuns g = true) (hroll : x.rolling = false)
    (hreconfs : s.reconfs = []) (hops : s.opsInFlight g = false) (hhealthy : s.siteHealthy m.spare = true)
    (hfree : (s.atoll m.spare).assigned = false) :
    execMigrationCutOver p pos s = .next (((s.emptyCaches g).movePosition p pos m.spare).notice p 2 0 (s.siteSeq g)) := by
  simp only [execMigrationCutOver, hx, hm, hg]
  rw [if_neg (by simp [hpatrol, hhub, hruns, hroll, hreconfs, hops]), if_neg (by simp [hhealthy, hfree]),
    if_neg (by simp [hpatrol])]

end Sys2Proof.Machine
end

section
/-! SUPPORT. The fence map, the hub's log and the wear scores (10 R260, R270-R272). -/

namespace Sys2Proof.Machine

/-- With room in the fence map, the oldest fence takes the place of its unit's entry. -/
theorem execFenceMapWrite_writes {e : FenceEntry} {rest : List FenceEntry} {s : State} (hq : s.flt.fenceQueue = e :: rest)
    (hclk : s.clocked = true) (hroom : s.flt.fenceMap.length < 2048) :
    execFenceMapWrite s = .next (s.modFlt fun f => { f with
      fenceQueue := rest, fenceMap := (s.flt.fenceMap.filter fun x => x.unit != e.unit) ++ [e], fenceGen := f.fenceGen + 1 }) := by
  have hlen : (s.flt.fenceMap.filter fun x => x.unit != e.unit).length < 2048 := (List.length_filter_le ..).trans_lt hroom
  simp [execFenceMapWrite, hq, hclk, hlen]

/-- The log ends with the record put last, also where an older one had to make room. -/
theorem logPut_getLast? (l : List (Nat × ErrRec)) (n : Nat) (r : ErrRec) : (logPut l n r).getLast? = some (n, r) := by
  unfold logPut
  dsimp only
  split
  · exact List.getLast?_concat
  · split <;> exact List.getLast?_concat

/-- The oldest record of a collector moves to the log. -/
theorem execFaultCollectorDrain_drains {node : Fin 32} {r : ErrRec} {rest : List ErrRec} {s : State}
    (hring : (s.collector node).ring = r :: rest) (hhub : s.hubRuns = true) :
    ∃ t, execFaultCollectorDrain node s = .next t ∧ t.collector node = { s.collector node with ring := rest } ∧
      t.flt.log = logPut s.flt.log s.flt.logNext r ∧ t.flt.logNext = s.flt.logNext + 1 := by
  refine ⟨s.modFlt fun f => { f with
    collectors := Tbl.set f.collectors node { s.collector node with ring := rest }, log := logPut f.log f.logNext r,
    logNext := f.logNext + 1 }, ?_, Tbl.getD_set_self .., rfl, rfl⟩
  simp [execFaultCollectorDrain, hring, hhub]

/-- The record that ends a coalescing entry: its last one, with the entry's count. -/
def CoalEntry.closing (e : CoalEntry) : ErrRec :=
  { e.last with actions := setBits e.last.actions 10 1 1, coalesce := BitVec.ofNat 32 (min e.count 0xFFFFFFFF) }

theorem CoalEntry.closing_coalesce (e : CoalEntry) : e.closing.coalesce.toNat = min e.count 0xFFFFFFFF := by
  rw [CoalEntry.closing, BitVec.toNat_ofNat]
  omega

/-- The oldest coalescing entry of a collector ends: its first record and its closing one enter the ring. -/
theorem execCoalesceRelease_releases {node : Fin 32} {e : CoalEntry} {rest : List CoalEntry} {s : State}
    (hcoal : (s.collector node).coal = e :: rest) (hclk : s.clocked = true) (hroom : (s.collector node).ring.length ≤ 62) :
    ∃ t, execCoalesceRelease node s = .next t ∧ t.collector node =
      { s.collector node with ring := (s.collector node).ring ++ [e.first, e.closing], coal := rest } := by
  refine ⟨s.modFlt fun f => { f with
    collectors := Tbl.set f.collectors node
      { s.collector node with ring := (s.collector node).ring ++ [e.first, e.closing], coal := rest } }, ?_, Tbl.getD_set_self ..⟩
  simp only [execCoalesceRelease, hcoal]
  rw [if_neg (by simp [hclk, hroom])]
  rfl

/-! ### Wear scores (R272) -/

/-- The wear table once the score of unit u is current. -/
def State.rescore (s : State) (t : Tbl Wear) (u : Word) : Tbl Wear :=
  let w := Tbl.getD t u.toNat Wear.zero
  let n := s.wearPoints u w
  if w = Wear.zero ∧ n = 0 then t
  else Tbl.set t u.toNat { w with corrected := lastDay s.count w.corrected, retries := lastDay s.count w.retries,
                                  retrains := lastDay s.count w.retrains, score := n }

theorem State.wearPoints_le (s : State) (u : Word) (w : Wear) : s.wearPoints u w ≤ 1000 := Nat.min_le_left ..

theorem State.rescore_score_self (s : State) (t : Tbl Wear) (u : Word) :
    (Tbl.getD (s.rescore t u) u.toNat Wear.zero).score ≤ 1000 := by
  unfold State.rescore
  dsimp only
  split
  · next h => rw [h.1]; decide
  · rw [Tbl.getD_set_self]
    exact s.wearPoints_le ..

theorem State.rescore_score_keeps (s : State) {t : Tbl Wear} (u : Word) {k : Nat} (h : (Tbl.getD t k Wear.zero).score ≤ 1000) :
    (Tbl.getD (s.rescore t u) k Wear.zero).score ≤ 1000 := by
  by_cases e : k = u.toNat
  · rw [e]
    exact s.rescore_score_self t u
  · unfold State.rescore
    dsimp only
    split
    · exact h
    · rwa [Tbl.getD_set_ne _ _ _ e]

/-- Once a list of units has been scored, the score of each is at most 1000. -/
theorem State.foldl_rescore_score (s : State) {l : List Word} (t : Tbl Wear) {u : Word} (hu : u ∈ l) :
    (Tbl.getD (l.foldl s.rescore t) u.toNat Wear.zero).score ≤ 1000 := by
  induction l generalizing t with
  | nil => cases hu
  | cons x l ih =>
    rcases List.mem_cons.1 hu with rfl | hul
    · exact List.foldlRecOn (motive := fun t => (Tbl.getD t u.toNat Wear.zero).score ≤ 1000) l s.rescore
        (s.rescore_score_self t u) fun _ ht x _ => s.rescore_score_keeps x ht
    · exact ih _ hul

/-- The scores of a list of units are current. -/
def State.rescoreAll (s : State) (l : List Word) : State := s.modFlt fun f => { f with wear := l.foldl s.rescore f.wear }

theorem State.rescoreAll_frame (s : State) (l : List Word) :
    s.rescoreAll l = { s with flt := { s.flt with wear := (s.rescoreAll l).flt.wear } } := rfl

theorem State.rescoreAll_score (s : State) {l : List Word} {u : Word} (hu : u ∈ l) :
    (Tbl.getD (s.rescoreAll l).flt.wear u.toNat Wear.zero).score ≤ 1000 := s.foldl_rescore_score s.flt.wear hu

theorem execWearScoreUpdate_rescores {s : State} (hhub : s.hubRuns = true) :
    execWearScoreUpdate s = .next (s.rescoreAll scoredUnits) :=
  congrArg Host.Outcome.next (if_neg (by simp [hhub]))

end Sys2Proof.Machine
end

section
/-! O21: patrol, migration, the fence map, the hub's log and wear scores, row by row. -/

namespace Sys2Proof.Machine

/-- Settles O21, row by row: each acts as the lemmas above say. -/
theorem patrolAndMigration : Obligations.PatrolAndMigration := by
  refine ⟨?microPass, ?microFail, ?patrolStarts, ?patrolPasses, ?patrolFails, ?migrationStarts, ?cutOver, ?fenceMap, ?drain,
    ?release, ?wearScore, ?checkpoint⟩
  case microPass =>
    intro g e test i s hi hp hb
    obtain ⟨ha, -, hk, hx⟩ := engineUnit_fields g e
    have hnoted := s.patrolPass_engine test ha (patrolIndex_engine hk hx)
    refine ⟨_, (execGapPatrol_tests hi hp hb).trans (congrArg Host.Outcome.next hnoted), s.onlyAtoll_modAtoll g _, ?last, ?more⟩
    case last =>
      intro h
      rw [State.modAtoll_atoll, Atoll.notePass_last _ h]
      exact ⟨Tbl.getD_set_self .., Tbl.getD_set_self ..⟩
    case more =>
      intro h
      rw [State.modAtoll_atoll, Atoll.notePass_more _ h]
      exact ⟨Tbl.getD_set_self .., rfl⟩
  case microFail =>
    intro g e test u word tb ex ob s hp hb
    exact ⟨_, execGapPatrol_tests (.inl rfl) hp hb, s.patrolFail_engine g e test word.toNat ex.toNat ob.toNat⟩
  case patrolStarts =>
    intro g s hhub hrun hhealthy hsuite hspare hroom hpos
    exact ⟨_, execFullPatrol_starts hhub hrun hhealthy hsuite hspare hroom hpos, s.startSuite_suite g, rfl,
      fun _ => s.startSuite_atoll_ne⟩
  case patrolPasses =>
    intro g s hrun hg hhome
    obtain ⟨l, w, hrow⟩ := execFullPatrolComplete_passes hrun hg hhome
    have hatoll := s.passSuite_atoll g
    exact ⟨_, hrow, congrArg Atoll.suite hatoll, congrArg Atoll.frozen hatoll, congrArg Atoll.patrolFull hatoll,
      s.endSuite_suites g, rfl⟩
  case patrolFails =>
    intro g tb word ex ob raised s hrun hg
    refine ⟨_, execFullPatrolComplete_fails raised hrun hg, ?_⟩
    obtain ⟨hrec, hfenced, hsuites⟩ := (s.endSuite g).patrolFail_site g tb.toNat word.toNat ex.toNat ob.toNat
    refine ⟨?_, (State.forgetHome_isFenced ..).trans hfenced, (hrec.congr rfl rfl).mono (State.forgetHome_collectors ..)⟩
    rw [State.forgetHome_suites, hsuites]
    exact s.endSuite_suites g
  case migrationStarts =>
    intro p pos x g h s hx hhub hreset hroll hwant hnone hg hh
    have hpart := (State.part?_congr (s.dropSuite_parts h) p).trans hx
    exact ⟨_, execMigrationStart_takes hx hhub hreset hroll hwant hnone hg hh, _,
      (State.modPart_part ..).trans (congrArg (Option.map _) hpart), rfl, rfl,
      by rw [(State.modPart_partsOnly ..).atoll, State.dropSuite_suite]⟩
  case cutOver =>
    intro p pos x m g s hx hm hg hpatrol hhub hruns hroll hreconfs hops hhealthy hfree hbays
    obtain ⟨y, hmoved, hatolls⟩ := State.cutOver_part m.spare hbays hx hg
    have hy := (State.part?_congr (State.notice_parts _ p 2 0 (s.siteSeq g) 0) p).trans hmoved
    refine ⟨_, execMigrationCutOver_moves hx hm hg hpatrol hhub hruns hroll hreconfs hops hhealthy hfree, ?moved, ?others, ?bytes⟩
    case moved => rw [State.atollAt_of_part hy, hatolls, Tbl.get?_set_self]
    case others =>
      intro q hq
      rw [State.atollAt_of_part hy, State.atollAt_of_part hx, hatolls, Tbl.get?_set_ne _ _ hq]
    case bytes =>
      rw [(State.notice_partsOnly ..).atoll]
      exact State.cutOver_lagoon hbays hg
  case fenceMap =>
    intro e rest s hq hclk hroom
    refine ⟨_, execFenceMapWrite_writes hq hclk hroom, List.mem_concat_self, rfl, rfl, rfl, fun x hx hne => ?_⟩
    exact List.mem_append_left _ (List.mem_filter.2 ⟨hx, bne_iff_ne.2 hne⟩)
  case drain =>
    intro node r rest s hring hhub
    obtain ⟨t, hrow, hcoll, hlog, hnext⟩ := execFaultCollectorDrain_drains hring hhub
    exact ⟨t, hrow, by rw [hcoll], by rw [hcoll], hlog ▸ logPut_getLast? .., hnext⟩
  case release =>
    intro node e rest s hcoal hclk hroom
    obtain ⟨t, hrow, hcoll⟩ := execCoalesceRelease_releases hcoal hclk hroom
    exact ⟨t, hrow, by rw [hcoll], e.closing, by rw [hcoll], e.closing_coalesce, rfl⟩
  case wearScore =>
    intro s hhub
    exact ⟨_, execWearScoreUpdate_rescores hhub, s.rescoreAll_frame _, fun _ => s.rescoreAll_score⟩
  case checkpoint =>
    intro s hhub
    exact ⟨_, congrArg Host.Outcome.next (if_pos hhub), rfl⟩

end Sys2Proof.Machine
end

section
/-! SUPPORT. The mailboxes, and what a reset changes of a partition: what ends operations, commands and collectives leaves both
(05 R130, 09 Table 9-8, 11 Tables 11-2 and 11-3, 13 R336). -/

namespace Sys2Proof.Machine

/-- Whether partition p is in reset, and its epoch. -/
def State.partReset (s : State) (p : Nat) : Option (Bool × BitVec 4) := (s.part? p).map fun x => (x.inReset, x.epoch)

/-- The mailboxes, and the reset and the epoch of partition p. -/
def State.resetView (s : State) (p : Nat) : Tbl Mailbox × Option (Bool × BitVec 4) := (s.mailboxes, s.partReset p)

theorem State.mailboxes_of_resetView {s t : State} {p : Nat} (h : t.resetView p = s.resetView p) : t.mailboxes = s.mailboxes :=
  congrArg Prod.fst h

theorem State.partReset_of_resetView {s t : State} {p : Nat} (h : t.resetView p = s.resetView p) : t.partReset p = s.partReset p :=
  congrArg Prod.snd h

theorem State.partReset_some {s : State} {p : Nat} {r : Bool} {e : BitVec 4} (h : s.partReset p = some (r, e)) :
    ∃ y, s.part? p = some y ∧ y.inReset = r ∧ y.epoch = e := by
  obtain ⟨y, hy, hre⟩ := Option.map_eq_some_iff.1 h
  exact ⟨y, hy, congrArg Prod.fst hre, congrArg Prod.snd hre⟩

/-- A run of changes that each keep a part of the state keeps it. -/
theorem State.foldl_keepsView {α β : Type} (v : State → β) (f : State → α → State) (h : ∀ t x, v (f t x) = v t) (l : List α)
    (s : State) : v (l.foldl f s) = v s := by
  induction l generalizing s with
  | nil => rfl
  | cons x l ih => exact (ih (f s x)).trans (h s x)

theorem State.modPart_part_ne (s : State) {p q : Nat} (f : Part → Part) (h : p ≠ q) : (s.modPart q f).part? p = s.part? p := by
  unfold State.modPart
  split
  · exact Tbl.get?_set_ne _ _ h
  · rfl

/-- A change of a partition other than of its reset and its epoch. -/
theorem State.modPart_partReset (s : State) (q : Nat) {f : Part → Part} (hf : ∀ x, (f x).inReset = x.inReset ∧ (f x).epoch = x.epoch)
    (p : Nat) : (s.modPart q f).partReset p = s.partReset p := by
  unfold State.partReset
  by_cases h : p = q
  · subst h
    rw [State.modPart_part, Option.map_map]
    exact congrArg (Option.map · _) (funext fun x => Prod.ext (hf x).1 (hf x).2)
  · rw [State.modPart_part_ne _ _ h]

theorem State.modPart_resetView (s : State) (q : Nat) {f : Part → Part} (hf : ∀ x, (f x).inReset = x.inReset ∧ (f x).epoch = x.epoch)
    (p : Nat) : (s.modPart q f).resetView p = s.resetView p := Prod.ext (State.modPart_mailboxes ..) (s.modPart_partReset q hf p)

theorem State.modPart_resetView_self {s : State} {p : Nat} {y : Part} (hy : s.part? p = some y) (f : Part → Part) :
    (s.modPart p f).resetView p = (s.mailboxes, some ((f y).inReset, (f y).epoch)) :=
  Prod.ext (State.modPart_mailboxes ..) (congrArg (Option.map _) ((s.modPart_part p f).trans (congrArg (Option.map f) hy)))

@[simp] theorem State.modAtoll_resetView (s : State) (g : Nat) (f : Atoll → Atoll) (p : Nat) :
    (s.modAtoll g f).resetView p = s.resetView p := rfl

@[simp] theorem State.dropWaits_resetView (s : State) (g c p : Nat) : (s.dropWaits g c).resetView p = s.resetView p := rfl

@[simp] theorem State.closeWindow_resetView (s : State) (w : Nat) (keep : Bool) (p : Nat) :
    (s.closeWindow w keep).resetView p = s.resetView p := rfl

/-! ### Streams that stop and commands that end (13 R340, R342, R343) -/

theorem Part.retire_reset (x : Part) (st : Nat) : (x.retire st).inReset = x.inReset ∧ (x.retire st).epoch = x.epoch := by
  unfold Part.retire
  split <;> exact ⟨rfl, rfl⟩

@[simp] theorem State.finishCmd_resetView (s : State) (q st idx p : Nat) : (s.finishCmd q st idx).resetView p = s.resetView p :=
  s.modPart_resetView q (fun _ => by exact Part.retire_reset ..) p

@[simp] theorem State.stopStream_resetView (s : State) (q st status kind at_ off cause : Nat) (word : DWord) (seq : Word)
    (quiet : Bool) (p : Nat) : (s.stopStream q st status kind at_ off cause word seq quiet).resetView p = s.resetView p := by
  have hstop (f : Stream → Stream) : (s.modPart q fun x => x.modStream st f).resetView p = s.resetView p :=
    s.modPart_resetView q (fun _ => by exact ⟨rfl, rfl⟩) p
  unfold State.stopStream
  split
  · rfl
  · dsimp only
    split
    · rfl
    · split <;> exact hstop _

@[simp] theorem State.stopAllFenced_resetView (s : State) (q cause : Nat) (seq : Word) (p : Nat) :
    (s.stopAllFenced q cause seq).resetView p = s.resetView p := by
  unfold State.stopAllFenced
  split
  · rfl
  · refine State.foldl_keepsView (State.resetView · p) _ (fun t st => ?_) _ s
    dsimp only
    split
    · exact (State.modPart_resetView _ q (fun _ => by exact ⟨rfl, rfl⟩) p).trans (State.stopStream_resetView ..)
    · rfl

@[simp] theorem State.trigger_resetView (s : State) (q : Nat) (t : Trigger) (p : Nat) :
    (s.trigger q t).resetView p = s.resetView p := s.modPart_resetView q (fun _ => by exact ⟨rfl, rfl⟩) p

@[simp] theorem State.judge_resetView (s : State) (q st idx : Nat) (v : Verdict) (p : Nat) :
    (s.judge q st idx v).resetView p = s.resetView p := by
  unfold State.judge
  split
  · rfl
  · split
    · rfl
    · simp
    · split
      · simp
      · split <;> simp

/-! ### Waiters and completions (05 R130, 13 R336) -/

/-- A chain of completions, signals and wakes keeps every part of the state that its single acts keep. -/
theorem State.wakeChain_keepsView {β : Type} (v : State → β) (hmem : ∀ s f, v (s.modMem f) = v s)
    (hcore : ∀ s g c, v (s.wakeCore g c) = v s) (hseq : ∀ s g u, v (s.wakeSeq g u) = v s)
    (hfinish : ∀ s p st idx, v (s.finishCmd p st idx) = v s) (hjudge : ∀ s p st idx w, v (s.judge p st idx w) = v s) (k : Nat) :
    (∀ s p st idx w, v (State.completeCmdN k s p st idx w) = v s) ∧ (∀ s o inc, v (State.signalModN k s o inc) = v s) ∧
      ∀ s o ws, v (State.wakeModN k s o ws) = v s := by
  induction k with
  | zero =>
    exact ⟨fun _ _ _ _ _ => by rw [State.completeCmdN], fun _ _ _ => by rw [State.signalModN], fun _ _ _ => by rw [State.wakeModN]⟩
  | succ k ih =>
    obtain ⟨hcomplete, hsignal, hwake⟩ := ih
    refine ⟨fun s p st idx w => ?complete, fun s o inc => ?signal, fun s o ws => ?wake⟩
    case complete =>
      unfold State.completeCmdN
      split
      · rfl
      · have hone := (hjudge (s.finishCmd p st idx) p st idx w).trans (hfinish s p st idx)
        dsimp only
        split
        · exact (hsignal _ _ _).trans hone
        · exact hone
    case signal =>
      unfold State.signalModN
      exact (hwake _ _ _).trans (hmem _ _)
    case wake =>
      cases ws with
      | nil => rw [State.wakeModN]
      | cons w ws =>
        unfold State.wakeModN
        rw [hwake]
        split
        · exact hcore _ _ _
        · exact hseq _ _ _
        · exact (hcomplete _ _ _ _ _).trans (hmem _ _)

@[simp] theorem State.wakeCore_resetView (s : State) (g c p : Nat) : (s.wakeCore g c).resetView p = s.resetView p := by
  unfold State.wakeCore
  split
  · split <;> rfl
  · rfl

theorem State.wakeChain_resetView (k p : Nat) :
    (∀ s q st idx w, (State.completeCmdN k s q st idx w).resetView p = s.resetView p) ∧
    (∀ s o inc, (State.signalModN k s o inc).resetView p = s.resetView p) ∧
    ∀ s o ws, (State.wakeModN k s o ws).resetView p = s.resetView p :=
  State.wakeChain_keepsView (State.resetView · p) (fun _ _ => rfl) (fun _ _ _ => State.wakeCore_resetView ..) (fun _ _ _ => rfl)
    (fun _ _ _ _ => State.finishCmd_resetView ..) (fun _ _ _ _ _ => State.judge_resetView ..) k

@[simp] theorem State.completeCmd_resetView (s : State) (q st idx : Nat) (v : Verdict) (p : Nat) :
    (s.completeCmd q st idx v).resetView p = s.resetView p := (State.wakeChain_resetView _ p).1 s q st idx v

@[simp] theorem State.signalMod_resetView (s : State) (o inc p : Nat) : (s.signalMod o inc).resetView p = s.resetView p :=
  (State.wakeChain_resetView _ p).2.1 s o inc

@[simp] theorem State.endBatches_resetView (s : State) (g p : Nat) : (s.endBatches g).resetView p = s.resetView p := by
  unfold State.endBatches
  split
  · rfl
  · split
    · rfl
    · exact State.foldl_keepsView (State.resetView · p) _ (fun _ _ => State.foldl_keepsView (State.resetView · p) _
        (fun _ _ => State.completeCmd_resetView ..) _ _) _ s

/-! ### Writes held at the banks, and endpoints (03 R59, Table 5-11) -/

@[simp] theorem State.releaseHeld_resetView (s : State) (g p : Nat) : (s.releaseHeld g).resetView p = s.resetView p :=
  (State.foldl_keepsView (State.resetView · p) _ (fun t _ => by
    rw [(t.onlyAtoll_lagoonWrite ..).1]
    rfl) _ _).trans rfl

@[simp] theorem State.releaseAround_resetView (s : State) (g p : Nat) : (s.releaseAround g).resetView p = s.resetView p := by
  refine (State.foldl_keepsView (State.resetView · p) _ (fun t d => ?_) _ _).trans (s.releaseHeld_resetView g p)
  split
  · exact State.releaseHeld_resetView ..
  · rfl

@[simp] theorem State.settleClose_resetView (s : State) (q g c h p : Nat) :
    (s.settleClose q g c h).resetView p = s.resetView p := by
  unfold State.settleClose
  (repeat' split) <;> rfl

@[simp] theorem State.closeSendEnd_resetView (s : State) (q : Nat) (x : Handle) (p : Nat) :
    (s.closeSendEnd q x).resetView p = s.resetView p := by
  unfold State.closeSendEnd
  (repeat' split) <;> rfl

@[simp] theorem State.killSender_resetView (s : State) (q : Nat) (x : Handle) (p : Nat) :
    (s.killSender q x).resetView p = s.resetView p := by
  unfold State.killSender
  split
  · rfl
  · exact State.settleClose_resetView ..

@[simp] theorem State.resetEndpoint_resetView (s : State) (g c p : Nat) : (s.resetEndpoint g c).resetView p = s.resetView p := by
  unfold State.resetEndpoint
  split
  · rfl
  · refine State.foldl_keepsView (State.resetView · p) _ (fun t e => ?_) _ s
    split <;> simp

/-! ### Resets that begin (Tables 11-2, 11-3) -/

theorem State.beginAtollReset_resetView (s : State) (g p : Nat) : (s.beginAtollReset g).resetView p = s.resetView p := by
  simp [State.beginAtollReset]

theorem State.beginAtollReset_mailboxes (s : State) (g : Nat) : (s.beginAtollReset g).mailboxes = s.mailboxes :=
  State.mailboxes_of_resetView (s.beginAtollReset_resetView g 0)

/-- The resets of a list of atolls begin. -/
theorem State.beginAtollResets_resetView (s : State) (gs : Tbl Nat) (f : Atoll → Atoll) (p : Nat) :
    (gs.foldl (fun t e => (t.modAtoll e.2 f).beginAtollReset e.2) s).resetView p = s.resetView p :=
  State.foldl_keepsView (State.resetView · p) _ (fun t e => by
    rw [State.beginAtollReset_resetView, State.modAtoll_resetView]) gs s

theorem State.beginPartReset_resetView {s : State} {p : Nat} {x : Part} (hx : s.part? p = some x) (hreset : x.inReset = false)
    (abort : Bool) : (s.beginPartReset p abort).resetView p = (s.mailboxes, some (true, x.epoch)) := by
  unfold State.beginPartReset
  simp only [hx, hreset, Bool.false_eq_true, if_false]
  rw [State.beginAtollResets_resetView]
  exact State.modPart_resetView_self hx _

/-! ### The end of a partition's reset (Table 11-3, Table 9-8) -/

@[simp] theorem State.endColl_resetView (s : State) (k : CollKey) (status p : Nat) :
    (s.endColl k status).resetView p = s.resetView p := by
  unfold State.endColl
  split
  · rfl
  · split
    · rfl
    · dsimp only
      split
      · exact (State.signalMod_resetView ..).trans (State.completeCmd_resetView ..)
      · exact State.completeCmd_resetView ..

theorem State.dropColls_resetView (s : State) (q : Nat) (tag : Word) (p : Nat) :
    (s.dropColls q tag).resetView p = s.resetView p :=
  (State.foldl_keepsView (State.resetView · p) _ (fun _ _ => by rfl) _ _).trans
    (State.foldl_keepsView (State.resetView · p) _ (fun _ _ => by exact State.endColl_resetView ..) _ s)

/-- The state once the windows of a partition in reset have closed; they stay reserved. -/
def State.closeWindows (s : State) (p : Nat) : State :=
  (s.mem.windows.filter fun w => w.2.open_ && w.2.partition == p).foldl (fun t w => t.closeWindow w.1 true) s

theorem State.closeWindows_resetView (s : State) (p q : Nat) : (s.closeWindows p).resetView q = s.resetView q :=
  State.foldl_keepsView (State.resetView · q) _ (fun _ _ => by exact State.closeWindow_resetView ..) _ s

/-- A partition whose reset ended is at epoch 0, and no mailbox has changed. -/
theorem State.endPartReset_resetView {s : State} {p : Nat} {x : Part} (hx : s.part? p = some x) :
    (s.endPartReset p).resetView p = (s.mailboxes, some (false, 0)) := by
  have hkept : (((s.dropMem fun c => c.part == p).dropColls p x.jobTag).closeWindows p).resetView p = s.resetView p := by
    rw [State.closeWindows_resetView, State.dropColls_resetView]
    rfl
  obtain ⟨y, hy, -⟩ := State.partReset_some ((State.partReset_of_resetView hkept).trans (congrArg (Option.map _) hx))
  have hends (f : Part → Part) (hf : ∀ z, (f z).inReset = false ∧ (f z).epoch = 0) (k : MemSt → MemSt) (h : Atoll → Atoll) :
      (x.posAtoll.foldl (fun t e => t.modAtoll e.2 h)
        (((((s.dropMem fun c => c.part == p).dropColls p x.jobTag).closeWindows p).modMem k).modPart p f)).resetView p =
        (s.mailboxes, some (false, 0)) := by
    refine (State.foldl_keepsView (State.resetView · p) _ (fun _ _ => by exact State.modAtoll_resetView ..) _ _).trans ?_
    refine (State.modPart_resetView_self (s := State.modMem _ k) hy f).trans ?_
    rw [(hf y).1, (hf y).2]
    exact Prod.ext (State.mailboxes_of_resetView hkept) rfl
  unfold State.endPartReset
  simp only [hx]
  split <;> exact hends _ (fun _ => by exact ⟨rfl, rfl⟩) _ _

end Sys2Proof.Machine
end

section
/-! SUPPORT. The ends of mailbox commands that a reset answers, and the commands that run on (12 R311, R316). -/

namespace Sys2Proof.Machine

theorem State.mailboxesOnly.parts {s t : State} (h : s.mailboxesOnly t) : t.parts = s.parts := by rw [h]

theorem State.mailboxesOnly.count {s t : State} (h : s.mailboxesOnly t) : t.count = s.count := by rw [h]

theorem State.mailboxesOnly.atoll {s t : State} (h : s.mailboxesOnly t) (g : Nat) : t.atoll g = s.atoll g := by
  rw [h]
  rfl

theorem State.answers.mbEnded {s t : State} {m : Nat} {c : MbCmd} {st off result : Nat} {data : List Byte}
    (h : s.answers t m c st off result data) : t.mbEnded m c st := by
  obtain ⟨hleft, hfin, -⟩ := h
  refine ⟨hleft, fun hd => ?_⟩
  rw [hfin, if_neg (by simp [hd])]
  exact ⟨_, List.mem_append_right _ (List.mem_singleton_self _), rfl, off, result, data, rfl⟩

/-- An answer speaks of the mailboxes alone. -/
theorem State.answers.congr {s s' t t' : State} {m : Nat} {c : MbCmd} {st off result : Nat} {data : List Byte}
    (h : s.answers t m c st off result data) (hs : s'.mailboxes = s.mailboxes) (ht : t'.mailboxes = t.mailboxes) :
    s'.answers t' m c st off result data := by
  unfold State.answers State.mbox at *
  rwa [hs, ht]

/-- The end of a command, after changes that leave the mailboxes, is its answer in the state before them. -/
theorem State.mbEnd_answers_of {s t : State} (h : t.mailboxes = s.mailboxes) (m : Nat) (c : MbCmd) (st off result : Nat)
    (data : List Byte) : s.answers (t.mbEnd m c st off result data) m c st off result data :=
  (t.mbEnd_answers m c st off result data).congr h.symm rfl

theorem State.mbEnd_mbEnded (s : State) (m : Nat) (c : MbCmd) (st off result : Nat) (data : List Byte) :
    (s.mbEnd m c st off result data).mbEnded m c st := (s.mbEnd_answers m c st off result data).mbEnded

/-! ### Commands that have not completed -/

/-- A command of a mailbox of the module has started and not completed. -/
theorem State.mem_mbAll_of_mbox {s : State} {m : Nat} {c : MbCmd} (h : c ∈ (s.mbox m).started ++ (s.mbox m).running) :
    (m, c) ∈ s.mbAll := by
  unfold State.mbox Tbl.getD at h
  cases hb : Tbl.get? s.mailboxes m with
  | none =>
    rw [hb] at h
    cases h
  | some b =>
    rw [hb] at h
    exact List.mem_flatten.2 ⟨_, List.mem_map.2 ⟨_, Tbl.mem_of_get? hb, rfl⟩, List.mem_map.2 ⟨c, h, rfl⟩⟩

/-- A change of a mailbox that starts no command leaves every open command among those before. -/
theorem State.mbAll_modMbox {s : State} {m : Nat} {f : Mailbox → Mailbox}
    (hf : ∀ c ∈ (f (s.mbox m)).started ++ (f (s.mbox m)).running, c ∈ (s.mbox m).started ++ (s.mbox m).running) {e : Nat × MbCmd}
    (he : e ∈ (s.modMbox m f).mbAll) : e ∈ s.mbAll := by
  obtain ⟨l, hl, hel⟩ := List.mem_flatten.1 he
  obtain ⟨b, hb, rfl⟩ := List.mem_map.1 hl
  rcases Tbl.mem_set hb with rfl | hb
  · obtain ⟨c, hc, rfl⟩ := List.mem_map.1 hel
    exact State.mem_mbAll_of_mbox (hf c hc)
  · exact List.mem_flatten.2 ⟨_, List.mem_map.2 ⟨b, hb, rfl⟩, hel⟩

/-- The end of a command starts none. -/
theorem State.mbAll_mbEnd {s : State} {m : Nat} {c : MbCmd} {st off result : Nat} {data : List Byte} {e : Nat × MbCmd}
    (he : e ∈ (s.mbEnd m c st off result data).mbAll) : e ∈ s.mbAll := by
  have hleave : ∀ x ∈ (s.mbox m).started.filter (·.order != c.order) ++ (s.mbox m).running.filter (·.order != c.order),
      x ∈ (s.mbox m).started ++ (s.mbox m).running := by
    intro x hx
    rw [← List.filter_append] at hx
    exact List.mem_of_mem_filter hx
  unfold State.mbEnd State.mbFin at he
  split at he
  · exact State.mbAll_modMbox hleave he
  · exact State.mbAll_modMbox hleave (State.mbAll_modMbox (fun _ h => h) he)

/-- A row of ends, each after a change that leaves the mailboxes, starts no command. -/
theorem State.mbAll_foldl_mbEnd {f : State → Nat × MbCmd → State} (hf : ∀ t x, (f t x).mailboxes = t.mailboxes) (st : Nat)
    (l : List (Nat × MbCmd)) {s : State} {e : Nat × MbCmd} (he : e ∈ (l.foldl (fun t x => (f t x).mbEnd x.1 x.2 st) s).mbAll) :
    e ∈ s.mbAll := by
  induction l generalizing s with
  | nil => exact he
  | cons x l ih =>
    have h := State.mbAll_mbEnd (ih he)
    rwa [State.mbAll, hf] at h

/-- Where no command of an opcode runs on a partition, none does once no other command is open. -/
theorem State.mbRunningOn_nil {s t : State} {p op : Nat} (h : ∀ e ∈ t.mbAll, e ∈ s.mbAll) (hnone : s.mbRunningOn p op = []) :
    t.mbRunningOn p op = [] := by
  unfold State.mbRunningOn State.mbOnPart at *
  rw [List.filter_filter, List.filter_eq_nil_iff] at *
  exact fun e he => hnone e (h e he)

end Sys2Proof.Machine
end

section
/-! SUPPORT. The commands that reset a unit, an atoll, a partition or the module, and their ends (11 R277-R281, Tables 11-1 to
11-3). -/

namespace Sys2Proof.Machine

/-! ### One core (R277, Table 11-1) -/

/-- A core after a reset waits for nothing; its pc and registers are those of log entry 10. -/
theorem Core.restart_spec (k : Core) (clear : Bool) : (k.restart clear).pc = 0 ∧ (k.restart clear).running = true ∧
    (k.restart clear).block = .none ∧ ∀ r, (k.restart clear).reg r = 0 := by
  have hreg : ∀ r, (k.restart clear).reg r = 0 := by
    intro r
    unfold Core.restart Core.reg
    cases clear <;> exact ite_self _
  cases clear <;> exact ⟨rfl, rfl, rfl, hreg⟩

theorem State.resetCore_core (s : State) (g c : Nat) :
    ∃ k : Core, ((s.resetCore g c).atoll g).core c = k.restart true := by
  rw [State.resetCore, State.modAtoll_atoll, Atoll.modCore_core]
  exact ⟨_, rfl⟩

/-- Of an atoll whose cores run apart, a reset of one resets it alone. -/
theorem State.resetUnit_core {s : State} {g : Nat} (core : Fin 2) (hsplit : (s.atoll g).split = true) :
    s.resetUnit g 3 core = s.resetCore g core := by
  rw [State.resetUnit, if_neg (by omega), if_neg (by omega), if_pos rfl, if_pos ⟨hsplit, core.isLt⟩]

/-- RESET_UNIT of a core of an atoll that is not in reset. -/
theorem execResetUnit_core {m : Fin 34} {c : MbCmd} {g : Fin 320} {core : Fin 2} {x : Part} {s : State} (hm : s.mbFirst m 0x200 c)
    (hp : s.part? (mbPartition c.img) = some x) (hu : fld c.img 16 0 32 = (atollUnit g 3 core 0x3FF).toNat)
    (hreset : (s.atoll g).inReset = false) (hsplit : (s.atoll g).split = true) :
    execResetUnit m s = .next ((s.resetCore g core).mbEnd m c mbDone) := by
  obtain ⟨ha, -, hk, hi⟩ := atollUnit_fields (g := g) (kind := 3) (index := core) (sub := 0x3FF) g.isLt (by omega) (by omega)
    (by omega)
  rw [execResetUnit, State.mbPartRow_first _ hm hp]
  simp only [hu, BitVec.ofNat_toNat, BitVec.setWidth_eq, ha, hk, hi, hreset, State.resetUnit_core core hsplit]
  rfl

/-! ### One atoll (Table 11-2) -/

/-- RESET_ATOLL of a position that no reconfiguration covers is accepted, and its atoll's reset begins. -/
theorem execResetAtoll_begins {m : Fin 34} {c : MbCmd} {g : Nat} {x : Part} {s : State} (hm : s.mbFirst m 0x201 c)
    (hp : s.part? (mbPartition c.img) = some x) (hg : s.atollAt (mbPartition c.img) (fld c.img 16 0 8) = some g)
    (hcover : s.reconfCovers (mbPartition c.img) (fld c.img 16 0 8) = false) (hroom : s.mbRoom m)
    (hreset : (s.atoll g).inReset = false) : execResetAtoll m s = .next ((s.mbAccept m c).beginAtollReset g) := by
  have hin : ((s.mbAccept m c).atoll g).inReset = false := by
    rw [(s.mbAccept_mailboxesOnly m c).atoll, hreset]
  rw [execResetAtoll, State.mbPartRow_first _ hm hp]
  simp [hg, hcover, State.mbLong_accepts _ _ hroom, hin]

/-- The end of an atoll's reset: UNCONFIGURED, out of reset, with no object, its scratchpad as it was. -/
theorem State.endAtollReset_atoll (s : State) (g : Nat) :
    ((s.endAtollReset g).atoll g).inReset = false ∧ ((s.endAtollReset g).atoll g).tess = .unconfigured ∧
      ((s.endAtollReset g).atoll g).objs = [] ∧ ((s.endAtollReset g).atoll g).lagoon = (s.atoll g).lagoon := by
  have hlanes (t : State) : ((t.clearLanes g).atoll g).lagoon = (t.atoll g).lagoon := by
    refine State.foldl_keepsView (fun u => (u.atoll g).lagoon) _ (fun u i => ?_) _ t
    refine State.foldl_keepsView (fun u => (u.atoll g).lagoon) _ (fun u _ => ?_) _ u
    obtain ⟨cb, h⟩ := u.leaveLane_atoll g i
    exact (congrArg Atoll.lagoon h).trans rfl
  unfold State.endAtollReset
  dsimp only
  rw [State.modAtoll_atoll]
  have hlagoon := hlanes (s.dropMem (MemCmd.ofPort g))
  generalize ((s.dropMem (MemCmd.ofPort g)).clearLanes g).atoll g = a at hlagoon ⊢
  exact ⟨rfl, rfl, rfl, hlagoon⟩

/-- The drain's time-out ends the reset of an atoll and the commands that asked for it. -/
theorem execAtollDrainTimeout_ends {g : Fin 320} {s : State} (hin : (s.atoll g).inReset = true) (hc : s.clocked = true) :
    ∃ t, execAtollDrainTimeout g s = .next t ∧ (s.endAtollReset g).mailboxesOnly t := by
  unfold execAtollDrainTimeout
  rw [if_neg (by simp [hin, hc])]
  dsimp only
  cases s.positionOf g with
  | none => exact ⟨_, rfl, State.mailboxesOnly_refl _⟩
  | some e => exact ⟨_, rfl, State.mailboxesOnly_foldl _ (fun _ _ => State.mbEnd_mailboxesOnly ..) _ _⟩

/-! ### One partition (Table 11-3) -/

/-- RESET_PARTITION is accepted, and the reset of its partition begins. -/
theorem execResetPartition_begins {m : Fin 34} {c : MbCmd} {x : Part} {s : State} (hm : s.mbFirst m 0x202 c)
    (hp : s.part? (mbPartition c.img) = some x) (hroom : s.mbRoom m) :
    execResetPartition m s = .next ((s.mbAccept m c).beginPartReset (mbPartition c.img) false) := by
  rw [execResetPartition, State.mbPartRow_first _ hm hp]
  simp only [State.mbLong_accepts _ _ hroom]

/-- What ends with a partition's reset, where no command destroys it: it is out of reset, at epoch 0. -/
theorem State.settlePartReset_partReset {s : State} {p : Nat} {x : Part} (hx : s.part? p = some x)
    (hnone : s.mbRunningOn p 0x302 = []) : (s.settlePartReset p).partReset p = some (false, 0) := by
  obtain ⟨hboxes, hended⟩ := Prod.mk.inj (State.endPartReset_resetView hx)
  have hnone : (s.endPartReset p).mbRunningOn p 0x302 = [] :=
    State.mbRunningOn_nil (fun e he => by rwa [State.mbAll, hboxes] at he) hnone
  unfold State.settlePartReset
  dsimp only
  rw [State.mbRunningOn_nil (fun e he => State.mbAll_foldl_mbEnd (fun _ _ => by exact State.modPart_mailboxes ..) mbDone _ he) hnone,
    List.foldl_nil]
  refine (State.foldl_keepsView (State.partReset · p) _ (fun t e => ?_) _ _).trans hended
  rw [State.mbEnd_frame]
  exact t.modPart_partReset p (fun _ => by exact ⟨rfl, rfl⟩) p

/-- A partition's reset ends once every atoll of it is out of reset. -/
theorem execPartitionResetDone_settles {p : Fin 32} {x : Part} {s : State} (hx : s.part? p = some x) (hreset : x.inReset = true)
    (hc : s.clocked = true) (hhub : s.hubRuns = true) (hatolls : ∀ e ∈ x.posAtoll, (s.atoll e.2).inReset = false) :
    execPartitionResetDone p s = .next (s.settlePartReset p) := by
  have hall : x.posAtoll.all (fun e => !(s.atoll e.2).inReset) = true := by
    rw [List.all_eq_true]
    intro e he
    rw [hatolls e he]
    rfl
  simp [execPartitionResetDone, hx, hc, hreset, hhub, hall]

/-! ### The module (R281) -/

/-- A reset asked for while none is pending is the one pending; one that is pending stays, and an uncounted one adds nothing. -/
theorem State.askReset_uncounted (s : State) :
    (s.flt.resetPending = none → (s.askReset false).flt.resetPending = some (false, s.count)) ∧
      ∀ k n, s.flt.resetPending = some (k, n) → (s.askReset false).flt.resetPending = some (k, n) := by
  refine ⟨fun h => ?_, fun k n h => ?_⟩
  · simp [State.askReset, h]
  · simp [State.askReset, h]

theorem State.askReset_isSome (s : State) (c : Bool) : (s.askReset c).flt.resetPending.isSome = true := by
  unfold State.askReset
  simp only [State.modFlt_flt]
  split <;> rfl

/-- The state once service has ended a module's time out of service (R290). -/
def State.backInService (s : State) : State := s.modFlt fun f => { f with outOfService := false }

theorem execServiceClear_clears {m : Fin 34} {c : MbCmd} {s : State} (hm : s.mbFirst m 0x208 c) (hout : s.life.state = .outOfService) :
    execServiceClear m s = .next ((s.backInService.mbEnd m c mbAccepted).askReset false) := by
  rw [execServiceClear, State.mbRow_first _ hm]
  simp [hout, State.backInService]

end Sys2Proof.Machine
end

section
/-! SUPPORT. The service commands on fences and diagnostics (10 R258-R260, 12 Table 12-8, 15 R371). -/

namespace Sys2Proof.Machine

/-! ### FENCE_CLEAR (R260) -/

/-- A list with a unit added where it has it not yet. -/
theorem mem_foldl_addUnit (us : List Word) (l : List Word) {u : Word} (h : u ∈ l ∨ u ∈ us) :
    u ∈ us.foldl (fun l u => if l.contains u then l else l ++ [u]) l := by
  induction us generalizing l with
  | nil => exact h.elim id (fun k => nomatch k)
  | cons v us ih =>
    refine ih _ ?_
    dsimp only
    split
    · next hv =>
      rcases h with h | h
      · exact .inl h
      · rcases List.mem_cons.1 h with rfl | h
        · exact .inl (List.contains_iff_mem.1 hv)
        · exact .inr h
    · rcases h with h | h
      · exact .inl (List.mem_append_left _ h)
      · rcases List.mem_cons.1 h with rfl | h
        · exact .inl List.mem_concat_self
        · exact .inr h

theorem State.markClear_pending (s : State) {us : List Word} {u : Word} (h : u ∈ us) : u ∈ (s.markClear us).flt.clearPending :=
  mem_foldl_addUnit us _ (.inr h)

/-- The state once a fenced unit is marked to be tested: one phase's mark is that of its region. -/
def State.clearFence (s : State) (u : Word) : State := if uKind u = 14 then s.clearPhase u else s.markClear [u]

theorem State.clearFence_spec (s : State) (u : Word) : u ∈ (s.clearFence u).flt.clearPending ∧
    (s.clearFence u).flt.fenced = s.flt.fenced ∧ (s.clearFence u).mailboxes = s.mailboxes := by
  unfold State.clearFence
  split
  · exact ⟨s.markClear_pending List.mem_cons_self, rfl, rfl⟩
  · exact ⟨s.markClear_pending (List.mem_singleton_self u), rfl, rfl⟩

section
variable {m : Fin 34} {c : MbCmd} {e : FenceEntry} {s : State} (hm : s.mbFirst m 0x205 c)
  (he : s.fenceEntries.find? (fun e => e.unit == BitVec.ofNat 32 (fld c.img 16 0 32)) = some e)
include hm he

/-- The fence of a unit that failed at the factory stays. -/
theorem execFenceClear_factory (hs : e.source = 0) : execFenceClear m s = .next (s.mbEnd m c mbFenced) := by
  rw [execFenceClear, State.mbRow_first _ hm]
  simp only [he, hs, if_true]

theorem execFenceClear_marks (hs : e.source ≠ 0) :
    execFenceClear m s = .next ((s.clearFence (BitVec.ofNat 32 (fld c.img 16 0 32))).mbEnd m c mbDone) := by
  rw [execFenceClear, State.mbRow_first _ hm, State.clearFence]
  simp only [he, if_neg hs]
  split <;> rfl

end

/-! ### UNIT_FENCE (Table 10-5) -/

/-- The state once a service command has fenced the site of an atoll. -/
def State.serviceFence (s : State) (g : Nat) : State := if s.isFenced (siteUnit g) then s else s.containAs (siteUnit g) 0 0 2

theorem State.serviceFence_spec (s : State) (g : Fin 320) : (s.serviceFence g).isFenced (siteUnit g) = true ∧
    (s.serviceFence g).flt.collectors = s.flt.collectors ∧ (s.serviceFence g).mailboxes = s.mailboxes := by
  unfold State.serviceFence
  split
  · next h => exact ⟨h, rfl, rfl⟩
  · obtain ⟨ha, hdk, hk, -⟩ := siteUnit_fields g
    obtain ⟨hf, -, es, r, fs, q, ps, h⟩ := s.fenceAtoll_spec g (siteUnit g) 0 0 none
    rw [State.containAs, State.contain_site s 0 0 ha hdk hk]
    exact ⟨hf, State.fenceAtoll_collectors .., by rw [h]; rfl⟩

theorem execUnitFence_site {m : Fin 34} {c : MbCmd} {g : Fin 320} {s : State} (hm : s.mbFirst m 0x206 c)
    (hu : fld c.img 16 0 32 = (siteUnit g).toNat) : execUnitFence m s = .next ((s.serviceFence g).mbEnd m c mbDone) := by
  rw [execUnitFence, State.mbRow_first _ hm, hu]
  simp only [BitVec.ofNat_toNat, BitVec.setWidth_eq]
  rfl

/-! ### DIAG_RUN (12 Table 12-8) -/

/-- The result of a test run: whether a test failed, and the first that did. -/
def diagResult : Option Word → Nat
  | none => 0
  | some n => 1 + n.toNat * 2 ^ 32

theorem execDiagRun_answers {m : Fin 34} {c : MbCmd} {s : State} (fail : Option Word) (hm : s.mbFirst m 0x108 c)
    (hpos : (uAtoll (BitVec.ofNat 32 (fld c.img 16 0 32))).bind s.positionOf = none) (hroom : s.mbRoom m) :
    execDiagRun m fail s =
      .next ((s.mbAccept m c).mbEnd m { c with accepted := true } mbDone 0xFFFF (diagResult fail)) := by
  rw [execDiagRun, State.mbRow_first _ hm]
  cases fail <;>
    simp only [hpos, Option.isSome_none, Bool.false_eq_true, if_false, State.mbLong_accepts _ _ hroom, diagResult]

end Sys2Proof.Machine
end

section
/-! O24: the reset commands, their ends, and the service commands on fences, row by row. -/

namespace Sys2Proof.Machine

/-- Settles O24, row by row: each acts as the lemmas above say. -/
theorem resetsAndFences : Obligations.ResetsAndFences := by
  refine ⟨?unit, ?atoll, ?atollEnd, ?partition, ?partitionEnd, ?module, ?serviceClear, ?fenceClear, ?unitFence, ?diag⟩
  case unit =>
    intro m c g core x s hm hp hu hreset hsplit
    obtain ⟨k, hk⟩ := s.resetCore_core g core
    refine ⟨_, execResetUnit_core hm hp hu hreset hsplit, State.mbEnd_mbEnded .., ?_⟩
    rw [(State.mbEnd_mailboxesOnly ..).atoll, hk]
    exact k.restart_spec true
  case atoll =>
    intro m c g x s hm hp hg hcover hroom hreset
    obtain ⟨-, hin⟩ := Prod.mk.inj ((s.mbAccept m c).beginAtollReset_faultView g)
    exact ⟨_, execResetAtoll_begins hm hp hg hcover hroom hreset,
      (s.mbAccept_taken m c).congr (State.beginAtollReset_mailboxes ..), hin⟩
  case atollEnd =>
    intro g s hin hc
    obtain ⟨t, hrow, ht⟩ := execAtollDrainTimeout_ends hin hc
    refine ⟨t, hrow, ?_⟩
    dsimp only
    rw [ht.atoll]
    exact s.endAtollReset_atoll g
  case partition =>
    intro m c x s hm hp hroom hreset
    have hpart : (s.mbAccept m c).part? (mbPartition c.img) = some x :=
      (State.part?_congr (s.mbAccept_mailboxesOnly m c).parts _).trans hp
    obtain ⟨hboxes, hbegun⟩ := Prod.mk.inj (State.beginPartReset_resetView hpart hreset false)
    obtain ⟨y, hy, hin, -⟩ := State.partReset_some hbegun
    exact ⟨_, execResetPartition_begins hm hp hroom, (s.mbAccept_taken m c).congr hboxes, y, hy, hin⟩
  case partitionEnd =>
    intro p x s hx hreset hc hhub hatolls hnone
    exact ⟨_, execPartitionResetDone_settles hx hreset hc hhub hatolls,
      State.partReset_some (State.settlePartReset_partReset hx hnone)⟩
  case module =>
    intro m c s hm
    obtain ⟨es, hes⟩ := (s.mbEnd m c mbAccepted).noticeAll_frame 7 0
    have hends := s.mbEnd_frame m c mbAccepted 0xFFFF 0 []
    obtain ⟨hnone, hsome⟩ := ((s.mbEnd m c mbAccepted).noticeAll 7 0).askReset_uncounted
    have hflt : ((s.mbEnd m c mbAccepted).noticeAll 7 0).flt = s.flt := by rw [hes, hends]
    have hcount : ((s.mbEnd m c mbAccepted).noticeAll 7 0).count = s.count := by rw [hes, hends]
    rw [hflt] at hnone hsome
    rw [hcount] at hnone
    exact ⟨_, State.mbRow_first _ hm, (s.mbEnd_answers m c mbAccepted 0xFFFF 0 []).congr rfl (by rw [hes]; rfl), hnone, hsome⟩
  case serviceClear =>
    intro m c s hm hout
    have hanswer := State.mbEnd_answers_of (s := s) (t := s.backInService) rfl m c mbAccepted 0xFFFF 0 []
    have hflt := (State.mbEnd_mailboxesOnly s.backInService m c mbAccepted 0xFFFF 0 []).flt
    exact ⟨_, execServiceClear_clears hm hout, hanswer.congr rfl rfl, congrArg FaultSt.outOfService hflt,
      State.askReset_isSome ..⟩
  case fenceClear =>
    intro m c e s hm he
    by_cases hs : e.source = 0
    · have hends := State.mbEnd_mailboxesOnly s m c mbFenced 0xFFFF 0 []
      exact ⟨_, execFenceClear_factory hm he hs, fun h => absurd hs h, fun _ => ⟨s.mbEnd_answers .., hends.flt⟩,
        congrArg FaultSt.fenced hends.flt⟩
    · obtain ⟨hmark, hfenced, hboxes⟩ := s.clearFence_spec (BitVec.ofNat 32 (fld c.img 16 0 32))
      have hflt := (State.mbEnd_mailboxesOnly (s.clearFence (BitVec.ofNat 32 (fld c.img 16 0 32))) m c mbDone 0xFFFF 0 []).flt
      refine ⟨_, execFenceClear_marks hm he hs, fun _ => ⟨State.mbEnd_answers_of hboxes .., ?_⟩, fun h => absurd h hs, ?_⟩
      · rw [hflt]
        exact hmark
      · rw [hflt, hfenced]
  case unitFence =>
    intro m c g s hm hu _
    obtain ⟨hfenced, hcoll, hboxes⟩ := s.serviceFence_spec g
    have hflt := (State.mbEnd_mailboxesOnly (s.serviceFence g) m c mbDone 0xFFFF 0 []).flt
    refine ⟨_, execUnitFence_site hm hu, State.mbEnd_answers_of hboxes .., ?_, ?_⟩
    · rw [State.isFenced, hflt]
      exact hfenced
    · rw [hflt, hcoll]
  case diag =>
    intro m c fail s hm hpos hroom
    exact ⟨_, execDiagRun_answers fail hm hpos hroom, State.mbEnd_mbEnded ..,
      (s.mbAccept_mailboxesOnly m c).trans (State.mbEnd_mailboxesOnly ..)⟩

end Sys2Proof.Machine
end

section
/-! SUPPORT. Crash dumps: their sections, their start, and the row that goes on with one (11 R296-R298, Tables 11-13 to 11-15). -/

namespace Sys2Proof.Machine

/-! ### Sections (Table 11-15) -/

theorem sectionHead_unit (u : Word) (status len : Nat) (now : DWord) : fld (sectionHead u status len now) 0 0 32 = u.toNat := by
  refine (fld_pack_append (k := 4) [(0, u.toNat)] [(4, status), (8, len), (12, now.toNat % 2 ^ 32)] (by simp) (by omega)
    (by omega)).trans ?_
  simpa [pack, bits] using u.isLt

theorem pack_two (a b x y : Nat) : pack [(a, x), (b, y)] = x * 2 ^ (8 * a) + y * 2 ^ (8 * b) := by simp [pack]

/-- The second of two fields reads back where the first ends below it. -/
theorem bits_pack_two {x y k n : Nat} (hx : x < 2 ^ (8 * k)) (hy : y < 2 ^ n) : bits (pack [(0, x), (k, y)]) (8 * k) n = y := by
  rw [pack_two, bits, Nat.mul_zero, pow_zero, mul_one, Nat.add_mul_div_right _ _ (Nat.two_pow_pos _), Nat.div_eq_of_lt hx,
    Nat.zero_add, Nat.mod_eq_of_lt hy]

theorem sectionHead_status (u : Word) {status : Nat} (h : status < 2 ^ 8) (len : Nat) (now : DWord) :
    fld (sectionHead u status len now) 4 0 8 = status :=
  (fld_pack_append (k := 8) [(0, u.toNat), (4, status)] [(8, len), (12, now.toNat % 2 ^ 32)] (by simp) (by omega)
    (by omega)).trans (bits_pack_two u.isLt h)

/-- A unit adds one section, headed by its number; nothing else of the dump changes. -/
theorem Dump.add_frame (d : Dump) (u : Word) (status : Nat) (data : List Byte) (now : DWord) :
    ∃ sec, d.add u status data now = { d with sections := d.sections ++ [sec] } ∧ fld sec.1 0 0 32 = u.toNat := by
  unfold Dump.add
  split <;> exact ⟨_, rfl, sectionHead_unit ..⟩

/-- A unit that is not read adds a section of no data with its status, whatever the length of the dump. -/
theorem Dump.add_marked (d : Dump) (u : Word) {status : Nat} (h : status ≠ 0) (now : DWord) :
    d.add u status [] now = { d with sections := d.sections ++ [(sectionHead u status 0 now, [])] } :=
  if_neg fun k => h k.1

theorem Dump.foldl_add_frame {α : Type} (u : α → Word) (data : α → List Byte) (now : DWord) (l : List α) (d : Dump) :
    ∃ secs, l.foldl (fun e n => e.add (u n) 0 (data n) now) d = { d with sections := d.sections ++ secs } ∧
      secs.length = l.length := by
  induction l generalizing d with
  | nil => exact ⟨[], by rw [List.append_nil]; rfl, rfl⟩
  | cons n l ih =>
    obtain ⟨sec, hadd, -⟩ := d.add_frame (u n) 0 (data n) now
    obtain ⟨secs, hl, hlen⟩ := ih (d.add (u n) 0 (data n) now)
    refine ⟨sec :: secs, ?_, congrArg (· + 1) hlen⟩
    rw [List.foldl_cons, hl, hadd, List.append_assoc]
    rfl

/-- A dump that starts has the section of every die's collector. -/
theorem State.startDump_dump (s : State) (cause : Nat) (seq : Word) :
    ∃ e, (s.startDump cause seq).flt.dump = some e ∧ e.taking = true ∧ e.cause = cause ∧ e.start = s.count ∧
      e.sections.length = 32 := by
  obtain ⟨secs, hfold, hlen⟩ := Dump.foldl_add_frame dieUnit (fun n => (s.collector n).bytes) s.count (List.range 32)
    { cause := cause, complete := false, taking := true, start := s.count, stop := 0, recordSeq := seq, sections := [],
      toRead := s.dumpUnits, unread := false }
  refine ⟨_, congrArg some hfold, rfl, rfl, rfl, ?_⟩
  rw [List.nil_append, hlen, List.length_range]

/-! ### The dump in progress (R297) -/

section
variable {d : Dump} {s : State} (hhub : s.hubRuns = true) (hd : s.flt.dump = some d) (htaking : d.taking = true)
include hhub hd htaking

theorem execDump_goesOn (m : Fin 34) : execDump m s = .next (s.dumpStep d) := by
  simp [execDump, hhub, hd, Option.filter_some, htaking]

/-- The dump once the unit it would read does not answer: a die whose first unit it is is skipped whole. -/
def State.markUnit (s : State) (d : Dump) (u : Word) (rest : List Word) : Dump :=
  if s.dumpUnits.find? (fun v => uNode v == uNode u) = some u then
    { d.add (dieUnit (uNode u)) 1 [] s.count with toRead := rest.filter fun v => uNode v != uNode u }
  else { d.add u 1 [] s.count with toRead := rest }

theorem execDumpUnitTimeout_marks {u : Word} {rest : List Word} (hread : d.toRead = u :: rest) (hskip : s.dumpSkips u = false) :
    execDumpUnitTimeout s = .next (s.modFlt fun f => { f with dump := some (s.markUnit d u rest) }) := by
  simp [execDumpUnitTimeout, hhub, hd, Option.filter_some, htaking, hread, hskip, State.markUnit]

end

/-- The next unit, read or skipped, adds its section. -/
theorem State.dumpStep_adds {d : Dump} {u : Word} {rest : List Word} (s : State) (hread : d.toRead = u :: rest) :
    ∃ sec, s.dumpStep d = s.modFlt (fun f => { f with dump := some { d with sections := d.sections ++ [sec], toRead := rest } }) ∧
      fld sec.1 0 0 32 = u.toNat := by
  unfold State.dumpStep
  simp only [hread]
  split
  · obtain ⟨sec, hadd, hsec⟩ := d.add_frame u 2 [] s.count
    exact ⟨sec, by rw [hadd], hsec⟩
  · obtain ⟨sec, hadd, hsec⟩ := d.add_frame u 0 ((s.dumpWords u).map fun w => leBytes 8 w.toNat).flatten s.count
    exact ⟨sec, by rw [hadd], hsec⟩

/-- After the last unit the dump is complete and unread. -/
theorem State.dumpStep_ends {d : Dump} (s : State) (hread : d.toRead = []) :
    (s.dumpStep d).flt.dump = some { d with taking := false, complete := true, stop := s.count, unread := true } := by
  unfold State.dumpStep
  simp only [hread, State.endDump]
  split
  · rw [(State.mbEnd_mailboxesOnly ..).flt]
    rfl
  · rfl

/-- The admin command starts a dump where there is none. -/
theorem execDump_starts {m : Fin 34} {c : MbCmd} {s : State} (hm : s.mbFirst m 0x105 c) (hnone : s.flt.dump = none)
    (hfatal : s.flt.fatal = false) (hroom : s.mbRoom m) : execDump m s = .next ((s.mbAccept m c).startDump 0 0) := by
  have hnext : s.mbNext m (fun c => mbOp c.img == 0x105) = some c := hm
  simp [execDump, hnone, State.dumpDue, hfatal, hnext, State.unreadDump, State.mbLong_accepts _ _ hroom]

/-! ### Reading (R298) -/

/-- A write of host memory changes the host port alone. -/
theorem State.hostPut_frame {s u : State} {a : Nat} {data : List Byte} (h : s.hostPut a data = some u) :
    u = { s with host := u.host } := by
  unfold State.hostPut at h
  split at h
  · cases h
  · rw [← Option.some.inj h]
    rfl

/-- It is the same whatever the mailboxes hold. -/
theorem State.hostPut_mailboxesOnly {s t u : State} {a : Nat} {data : List Byte} (ht : s.mailboxesOnly t)
    (h : s.hostPut a data = some u) : t.hostPut a data = some { u with mailboxes := t.mailboxes } := by
  rw [ht]
  unfold State.hostPut at h ⊢
  split at h
  · cases h
  · next hup =>
    rw [← Option.some.inj h]
    exact if_neg hup

theorem execDumpRead_reads {m : Fin 34} {c : MbCmd} {d : Dump} {u s : State} (hm : s.mbFirst m 0x106 c)
    (hd : s.flt.dump = some d) (htaking : d.taking = false) (hroom : s.mbRoom m)
    (hput : s.hostPut (fld c.img 16 0 64) (((s.dumpBytes d).drop (fld c.img 24 0 32)).take (fld c.img 28 0 32)) = some u) :
    ∃ n, execDumpRead m s =
      .next (({ u with mailboxes := (s.mbAccept m c).mailboxes } : State).mbEnd m { c with accepted := true } mbDone 0xFFFF n) := by
  have hbytes : (s.mbAccept m c).dumpBytes d = s.dumpBytes d := by
    rw [s.mbAccept_mailboxesOnly m c]
    rfl
  refine ⟨(((s.dumpBytes d).drop (fld c.img 24 0 32)).take (fld c.img 28 0 32)).length, ?_⟩
  rw [execDumpRead, State.mbRow_first _ hm]
  simp only [hd, htaking, Bool.false_eq_true, if_false, State.mbLong_accepts _ _ hroom, hbytes,
    State.hostPut_mailboxesOnly (s.mbAccept_mailboxesOnly m c) hput]

theorem execDumpRead_none {m : Fin 34} {c : MbCmd} {s : State} (hm : s.mbFirst m 0x106 c) (hnone : s.flt.dump = none) :
    execDumpRead m s = .next (s.mbEnd m c mbNoResource) := by
  rw [execDumpRead, State.mbRow_first _ hm]
  simp only [hnone]

/-- The state once its dump counts as read. -/
def State.releaseDump (s : State) : State := s.modFlt fun f => { f with dump := f.dump.map fun d => { d with unread := false } }

theorem execDumpRelease_releases {m : Fin 34} {c : MbCmd} {s : State} (hm : s.mbFirst m 0x107 c) :
    execDumpRelease m s = .next (s.releaseDump.mbEnd m c mbDone) := State.mbRow_first _ hm

theorem State.releaseDump_unread (s : State) : s.releaseDump.unreadDump = false := by
  unfold State.unreadDump State.releaseDump
  cases h : s.flt.dump <;> simp [h]

end Sys2Proof.Machine
end

section
/-! O25: crash dumps, row by row. -/

namespace Sys2Proof.Machine

/-- Settles O25, row by row: each acts as the lemmas above say. -/
theorem dumps : Obligations.Dumps := by
  refine ⟨?goesOn, ?ends, ?starts, ?timeout, ?reads, ?none, ?release⟩
  case goesOn =>
    intro m d u rest s hhub hd htaking hread
    obtain ⟨sec, hstep, hsec⟩ := s.dumpStep_adds hread
    exact ⟨_, (execDump_goesOn hhub hd htaking m).trans (congrArg Host.Outcome.next hstep), _, rfl, rfl, htaking,
      ⟨sec, rfl, hsec⟩, rfl⟩
  case ends =>
    intro m d s hhub hd htaking hread
    exact ⟨_, execDump_goesOn hhub hd htaking m, s.dumpStep_ends hread⟩
  case starts =>
    intro m c s hm hnone hfatal hroom
    obtain ⟨e, he, htaking, hcause, hstart, hlen⟩ := (s.mbAccept m c).startDump_dump 0 0
    exact ⟨_, execDump_starts hm hnone hfatal hroom, (s.mbAccept_taken m c).congr rfl, e, he, htaking, hcause,
      hstart.trans (s.mbAccept_mailboxesOnly m c).count, hlen⟩
  case timeout =>
    intro d u rest s hhub hd htaking hread hskip
    refine ⟨_, execDumpUnitTimeout_marks hhub hd htaking hread hskip, ?_⟩
    by_cases hfirst : s.dumpUnits.find? (fun v => uNode v == uNode u) = some u
    · refine ⟨_, (sectionHead (dieUnit (uNode u)) 1 0 s.count, []), rfl, ?_, sectionHead_status _ (by omega) _ _,
        fun _ => ⟨sectionHead_unit .., ?_⟩, fun h => absurd hfirst h⟩
      all_goals rw [State.markUnit, if_pos hfirst]
      rw [Dump.add_marked d _ one_ne_zero]
    · refine ⟨_, (sectionHead u 1 0 s.count, []), rfl, ?_, sectionHead_status _ (by omega) _ _, fun h => absurd h hfirst,
        fun _ => ⟨sectionHead_unit .., ?_⟩⟩
      all_goals rw [State.markUnit, if_neg hfirst]
      rw [Dump.add_marked d _ one_ne_zero]
  case reads =>
    intro m c d u s hm hd htaking hroom hput
    obtain ⟨n, hrow⟩ := execDumpRead_reads hm hd htaking hroom hput
    refine ⟨_, hrow, State.mbEnd_mbEnded .., ?_⟩
    rw [State.mbEnd_frame]
    exact ⟨rfl, by rw [State.hostPut_frame hput]⟩
  case none =>
    intro m c s hm hnone
    exact ⟨_, execDumpRead_none hm hnone, s.mbEnd_answers .., s.mbEnd_frame ..⟩
  case release =>
    intro m c s hm
    have hflt := (State.mbEnd_mailboxesOnly s.releaseDump m c mbDone 0xFFFF 0 []).flt
    refine ⟨_, execDumpRelease_releases hm, State.mbEnd_answers_of (t := s.releaseDump) rfl m c mbDone 0xFFFF 0 [], ?_⟩
    rw [State.unreadDump, hflt]
    exact s.releaseDump_unread

end Sys2Proof.Machine
end

section
/-! SUPPORT. Doorbells, rings, completions and events of the mailboxes (12 R308-R318). -/

namespace Sys2Proof.Machine

/-! ### What a running hub serves -/

theorem State.hubServes_of_hubRuns {s : State} (h : s.hubRuns = true) : s.hubServes = true := by simp [State.hubServes, h]

theorem State.not_frozen_of_hubRuns {s : State} (h : s.hubRuns = true) : s.life.frozen = false := by
  simp only [State.hubRuns, Bool.and_eq_true, Bool.not_eq_true'] at h
  obtain ⟨⟨⟨-, hfrozen⟩, -⟩, -⟩ := h
  exact hfrozen

/-- A hub that runs its firmware is not in recovery holding. -/
theorem State.not_hubRecovers_of_hubRuns {s : State} (h : s.hubRuns = true) : s.hubRecovers = false := by
  simp only [State.hubRuns, Bool.and_eq_true, Bool.or_eq_true, decide_eq_true_eq] at h
  obtain ⟨-, hstate⟩ := h
  have hnot : s.life.state ≠ .recovery := by
    intro hrec
    simp [hrec] at hstate
  simp [State.hubRecovers, hnot]

/-! ### Submission (R309, R313) -/

/-- The command that mailbox slot i submits. -/
def State.submitted (s : State) (i : Nat) (r : BitVec 2048) : MbCmd :=
  { slot := i, img := r, order := s.cmdOrder, accepted := false, discard := false, word := s.count.toNat }

/-- A submitted command starts. -/
def Mailbox.start (c : MbCmd) (b : Mailbox) : Mailbox := { b with started := b.started ++ [c] }

/-- A submitted command that does not start has its completion in line. -/
def Mailbox.refuse (c : MbCmd) (st off : Nat) (b : Mailbox) : Mailbox :=
  { b with fin := b.fin ++
    [{ slot := c.slot, compl := mbCompletion c st off true 0 [], irq := flag c.img 7 0, frees := true, data := [] }] }

/-- What the submission of slot i does to its mailbox (R313): the checks, the reset of its partition, and an executor. -/
def State.submission (s : State) (m i : Nat) (r : BitVec 2048) : Mailbox → Mailbox :=
  match s.mbCheck m r with
  | some (st, off) => Mailbox.refuse (s.submitted i r) st off
  | none =>
    if ((mbActsOn m r).map s.partResetting).getD false then Mailbox.refuse (s.submitted i r) mbInReset 0xFFFF
    else if s.mbExecutorFree m then Mailbox.start (s.submitted i r)
    else Mailbox.refuse (s.submitted i r) mbBusy 0xFFFF

section
variable {s : State} {m : Nat} {r : BitVec 2048} (i : Nat)

theorem State.submission_fails {st off : Nat} (h : s.mbCheck m r = some (st, off)) :
    s.submission m i r = Mailbox.refuse (s.submitted i r) st off := by
  simp only [State.submission, h]

variable (h : s.mbCheck m r = none)
include h

theorem State.submission_inReset (hreset : ((mbActsOn m r).map s.partResetting).getD false = true) :
    s.submission m i r = Mailbox.refuse (s.submitted i r) mbInReset 0xFFFF := by
  simp only [State.submission, h, hreset, if_true]

variable (hreset : ((mbActsOn m r).map s.partResetting).getD false = false)
include hreset

theorem State.submission_starts (hexec : s.mbExecutorFree m = true) :
    s.submission m i r = Mailbox.start (s.submitted i r) := by
  simp only [State.submission, h, hreset, hexec, Bool.false_eq_true, if_false, if_true]

theorem State.submission_noExecutor (hexec : s.mbExecutorFree m = false) :
    s.submission m i r = Mailbox.refuse (s.submitted i r) mbBusy 0xFFFF := by
  simp only [State.submission, h, hreset, hexec, Bool.false_eq_true, if_false]

end

/-- A started slot takes its place in the order of commands, and changes its mailbox. -/
theorem State.mbStart_eq (s : State) (m i : Nat) (r : BitVec 2048) :
    s.mbStart m i r = ({ s with cmdOrder := s.cmdOrder + 1 } : State).modMbox m (s.submission m i r) := by
  unfold State.mbStart
  cases hcheck : s.mbCheck m r with
  | some e => rw [State.submission_fails i hcheck]; rfl
  | none =>
    cases hreset : ((mbActsOn m r).map s.partResetting).getD false with
    | true => rw [State.submission_inReset i hcheck hreset]; rfl
    | false =>
      cases hexec : s.mbExecutorFree m with
      | true => rw [State.submission_starts i hcheck hreset hexec]; rfl
      | false => rw [State.submission_noExecutor i hcheck hreset hexec]; rfl

/-- A submission starts its command or refuses it. -/
theorem State.submission_cases (s : State) (m i : Nat) (r : BitVec 2048) : s.submission m i r = Mailbox.start (s.submitted i r) ∨
    ∃ st off, s.submission m i r = Mailbox.refuse (s.submitted i r) st off := by
  unfold State.submission
  split
  · exact .inr ⟨_, _, rfl⟩
  · split
    · exact .inr ⟨_, _, rfl⟩
    · split
      · exact .inl rfl
      · exact .inr ⟨_, _, rfl⟩

theorem State.submission_busy (s : State) (m i : Nat) (r : BitVec 2048) (b : Mailbox) : (s.submission m i r b).busy = b.busy := by
  rcases s.submission_cases m i r with h | ⟨st, off, h⟩ <;> rw [h] <;> rfl

/-! ### The doorbell (R309) -/

/-- The state in which slot i of mailbox m is busy. -/
def State.ring (s : State) (m i : Nat) : State := s.modMbox m fun b => { b with busy := b.busy ||| BitVec.ofNat 8 (2 ^ i) }

theorem State.ring_started (s : State) (m i n : Nat) : ((s.ring m i).mbox n).started = (s.mbox n).started := by
  by_cases h : n = m
  · rw [h, State.ring, State.modMbox_mbox]
  · rw [State.ring, State.modMbox_mbox_ne _ _ h]

theorem State.ring_running (s : State) (m i n : Nat) : ((s.ring m i).mbox n).running = (s.mbox n).running := by
  by_cases h : n = m
  · rw [h, State.ring, State.modMbox_mbox]
  · rw [State.ring, State.modMbox_mbox_ne _ _ h]

/-- A set that keeps what is listed of its key, where the default lists nothing, keeps what a table lists. -/
theorem Tbl.flatten_map_set {α β : Type} (g : Nat × α → List β) {t : Tbl α} {k : Nat} {v d : α} (hd : g (k, d) = [])
    (hv : g (k, v) = g (k, Tbl.getD t k d)) : ((Tbl.set t k v).map g).flatten = (t.map g).flatten := by
  induction t with
  | nil => simp [Tbl.set, hv, Tbl.getD, Tbl.get?, hd]
  | cons e t ih =>
    obtain ⟨j, w⟩ := e
    unfold Tbl.set
    by_cases hj : j = k
    · simp [hj, hv, Tbl.getD, Tbl.get?]
    · by_cases hk : k < j
      · simp [hj, hk, hv, Tbl.getD, Tbl.get?, hd]
      · have hget : Tbl.getD ((j, w) :: t) k d = Tbl.getD t k d := by simp [Tbl.getD, Tbl.get?, hj, hk]
        simp [hj, hk, ih (hget ▸ hv)]

/-- A slot that becomes busy starts no command. -/
theorem State.ring_mbAll (s : State) (m i : Nat) : (s.ring m i).mbAll = s.mbAll :=
  Tbl.flatten_map_set (fun e : Nat × Mailbox => (e.2.started ++ e.2.running).map fun c => (e.1, c)) (d := Mailbox.reset) rfl rfl

theorem State.ring_partResetting (s : State) (m i : Nat) : (s.ring m i).partResetting = s.partResetting := by
  funext p
  unfold State.partResetting State.mbOnPart
  rw [s.ring_mbAll]
  rfl

theorem State.ring_mbExecutorFree (s : State) (m i n : Nat) : (s.ring m i).mbExecutorFree n = s.mbExecutorFree n := by
  unfold State.mbExecutorFree State.mbBusyCount
  simp only [s.ring_started, s.ring_running]

/-- The checks of a submission look at no mailbox. -/
theorem State.ring_mbCheck (s : State) (m i n : Nat) (r : BitVec 2048) : (s.ring m i).mbCheck n r = s.mbCheck n r := rfl

theorem State.ring_submission (s : State) (m i n j : Nat) (r : BitVec 2048) :
    (s.ring m i).submission n j r = s.submission n j r := by
  unfold State.submission
  rw [s.ring_mbCheck, s.ring_partResetting, s.ring_mbExecutorFree]
  rfl

/-- A fold over 0 to n - 1 that acts at one index alone acts there once. -/
theorem foldl_range_single {σ : Type} (f : σ → Nat → σ) {i : Nat} (h : ∀ t j, j ≠ i → f t j = t) (n : Nat) (s : σ) :
    (List.range n).foldl f s = if i < n then f s i else s := by
  induction n with
  | zero => rfl
  | succ n ih =>
    rw [List.range_succ, List.foldl_append, List.foldl_cons, List.foldl_nil, ih]
    by_cases hn : n = i
    · rw [hn, if_neg (by omega), if_pos (by omega)]
    · rw [h _ n hn]
      exact if_congr (by omega) rfl rfl

theorem getLsbD_slotBit (i j : Nat) : (BitVec.ofNat 8 (2 ^ i)).getLsbD j = (decide (j < 8) && decide (i = j)) := by
  rw [BitVec.getLsbD_ofNat, Nat.testBit_two_pow]

theorem State.mbox_congr {s t : State} (h : t.mailboxes = s.mailboxes) (m : Nat) : t.mbox m = s.mbox m := by
  rw [State.mbox, h, State.mbox]

/-- The state once slot i of mailbox m was submitted. -/
def State.rung (s : State) (m i : Nat) : State :=
  ({ s.ring m i with cmdOrder := s.cmdOrder + 1 } : State).modMbox m (s.submission m i (Tbl.getD (s.mbox m).slots i 0))

/-- A doorbell of one free slot submits it. -/
theorem execMbDoorbell_submits {m : Fin 33} {i : Fin 8} {s : State} (hhub : s.hubRuns = true) (hperst : s.host.perst = false)
    (hfree : (s.mbox m).busy.getLsbD i = false) :
    execMbDoorbell m (BitVec.ofNat 8 (2 ^ i.val)) s = .next (s.rung m i) := by
  have hother (j : Nat) (hj : j ≠ i.val) : (BitVec.ofNat 8 (2 ^ i.val)).getLsbD j = false := by
    rw [getLsbD_slotBit, decide_eq_false (Ne.symm hj), Bool.and_false]
  unfold execMbDoorbell
  rw [if_neg (by simp [State.hubServes_of_hubRuns hhub, hperst, State.not_hubRecovers_of_hubRuns hhub]),
    foldl_range_single _ (i := i.val) (fun t j hj => if_neg (by rw [hother j hj]; exact Bool.false_ne_true)), if_pos i.isLt]
  dsimp only
  rw [if_pos (by rw [getLsbD_slotBit, hfree]; simp)]
  refine congrArg Host.Outcome.next ((State.mbStart_eq (s.ring m i) ..).trans ?_)
  rw [s.ring_submission]
  rfl

theorem State.rung_mbox (s : State) (m i : Nat) : (s.rung m i).mbox m =
    s.submission m i (Tbl.getD (s.mbox m).slots i 0) { s.mbox m with busy := (s.mbox m).busy ||| BitVec.ofNat 8 (2 ^ i) } := by
  unfold State.rung
  rw [State.modMbox_mbox]
  exact congrArg _ ((State.mbox_congr (s := s.ring m i) rfl m).trans (s.modMbox_mbox m _))

theorem State.rung_mbox_ne (s : State) {m n : Nat} (i : Nat) (h : n ≠ m) : (s.rung m i).mbox n = s.mbox n :=
  (State.modMbox_mbox_ne _ _ h).trans ((State.mbox_congr (s := s.ring m i) rfl n).trans (s.modMbox_mbox_ne _ h))

/-! ### Heads (R308) -/

theorem headMove_within {head tail v : Nat} (h : (v + 32 - head) % 32 ≤ (tail + 32 - head) % 32) : headMove head tail v = v := if_pos h

theorem headMove_beyond {head tail v : Nat} (h : (tail + 32 - head) % 32 < (v + 32 - head) % 32) : headMove head tail v = head :=
  if_neg (Nat.not_le.2 h)

theorem State.bar0Open_of_hubRuns {s : State} (hhub : s.hubRuns = true) (hperst : s.host.perst = false) : s.bar0Open = true := by
  simp [State.bar0Open, State.hubServes_of_hubRuns hhub, hperst]

/-! ### Interrupts (R318) -/

/-- An interrupt changes the host port alone. -/
theorem State.msix_frame (s : State) (v : Nat) : ∃ h, s.msix v = { s with host := h } := by
  unfold State.msix
  dsimp only
  split
  · exact ⟨s.host, rfl⟩
  · split <;> exact ⟨_, rfl⟩

/-- An unmasked vector of a link that is up is sent. -/
theorem State.msix_sends {s : State} {v : Nat} (hup : s.host.linkUp = true) (hperst : s.host.perst = false)
    (hfrozen : s.life.frozen = false) (henable : s.host.msixEnable = true) (hmask : s.host.msixMask = false)
    (hv : v ∈ s.host.vecUnmasked) : s.msix v = s.modHost fun h => { h with out := h.out ++ [.msix v] } := by
  simp [State.msix, hup, hperst, hfrozen, henable, hmask, hv]

/-! ### Completions (R311) -/

/-- A mailbox once its oldest completion is in the ring. -/
def Mailbox.posted (b : Mailbox) (f : MbFin) (rest : List MbFin) : Mailbox :=
  { b with fin := rest, cq := Tbl.set b.cq b.cqTail f.compl, cqTail := (b.cqTail + 1) % 32,
           slots := if f.data.isEmpty then b.slots else Tbl.set b.slots f.slot (slotData (Tbl.getD b.slots f.slot 0) f.data),
           busy := if f.frees then b.busy &&& ~~~(BitVec.ofNat 8 (2 ^ f.slot)) else b.busy }

/-- A completion that frees its slot clears its busy bit. -/
theorem Mailbox.posted_busy_freed {f : MbFin} (hfrees : f.frees = true) (hslot : f.slot < 8) (b : Mailbox) (rest : List MbFin) :
    (b.posted f rest).busy.getLsbD f.slot = false := by
  rw [Mailbox.posted, if_pos hfrees, BitVec.getLsbD_and, BitVec.getLsbD_not, getLsbD_slotBit]
  simp [hslot]

theorem Mailbox.posted_busy_held {f : MbFin} (hkeeps : f.frees = false) (b : Mailbox) (rest : List MbFin) :
    (b.posted f rest).busy = b.busy := if_neg (by simp [hkeeps])

/-- The state once mailbox m has posted: its vector is raised where the command asks for it. -/
def State.posted (s : State) (m : Nat) (f : MbFin) (rest : List MbFin) : State :=
  let s1 := s.modMbox m fun b => b.posted f rest
  if f.irq && !(s.mbox m).irqMask.getLsbD 0 then s1.msix (2 * m) else s1

theorem State.posted_frame (s : State) (m : Nat) (f : MbFin) (rest : List MbFin) :
    ∃ h, s.posted m f rest = { s.modMbox m fun b => b.posted f rest with host := h } := by
  unfold State.posted
  dsimp only
  split
  · exact State.msix_frame ..
  · exact ⟨s.host, rfl⟩

section
variable {f : MbFin} {rest : List MbFin} {s : State} (hhub : s.hubRuns = true) (hop : fld f.compl 4 0 16 ≠ 4)
include hhub hop

/-- A completion other than a CORRELATE's enters the ring as it is. -/
theorem execCompletionPost_posts {m : Fin 34} (hm : m.val ≠ 33) (hfin : (s.mbox m).fin = f :: rest)
    (hroom : ((s.mbox m).cqTail + 1) % 32 ≠ (s.mbox m).cqHead) : execCompletionPost m s = .next (s.posted m f rest) := by
  simp only [execCompletionPost, State.hubServes_of_hubRuns hhub, hfin, hop, hm, hroom, Bool.not_true, Bool.false_eq_true,
    false_and, if_false]
  rfl

/-- The management mailbox answers over MCTP. -/
theorem execCompletionPost_management (hfin : (s.mbox 33).fin = f :: rest) : execCompletionPost 33 s =
    .next ((s.modMbox 33 fun b => { b with fin := rest }).modMgmt fun g =>
      { g with out := g.out ++ [.mctp 0x7E (leBytes 32 f.compl.toNat ++ f.data)] }) := by
  have hfin' : (s.mbox (33 : Fin 34).val).fin = f :: rest := hfin
  simp only [execCompletionPost, State.hubServes_of_hubRuns hhub, hfin', hop, Bool.not_true, Bool.false_eq_true, false_and, if_false]
  rfl

end

/-! ### Events (R317) -/

/-- A mailbox with one more event at the tail of its ring. -/
def Mailbox.kept (e : Event) (now : DWord) (b : Mailbox) : Mailbox :=
  { b with eq_ := Tbl.set b.eq_ b.eqTail (eventEntry e b.eqSeq now), eqTail := (b.eqTail + 1) % 32, eqSeq := b.eqSeq + 1 }

theorem Mailbox.putEvent_room {b : Mailbox} (hroom : (b.eqTail + 1) % 32 ≠ b.eqHead) (e : Event) (now : DWord) :
    b.putEvent e now = b.kept e now := if_pos hroom

/-- The mailboxes, the events to post and the count of notices. -/
def State.ringView (s : State) : Tbl Mailbox × List Event × Word := (s.mailboxes, s.events, s.flt.notices)

theorem State.msix_ringView (s : State) (v : Nat) : (s.msix v).ringView = s.ringView := by
  obtain ⟨h, heq⟩ := s.msix_frame v
  rw [heq]
  rfl

/-- An event that finds room enters the ring of its mailbox. -/
theorem State.eventTo_ringView {s : State} {m : Nat} (hroom : ((s.mbox m).eqTail + 1) % 32 ≠ (s.mbox m).eqHead) (e : Event) :
    (s.eventTo e m).ringView = (s.modMbox m (Mailbox.kept e s.count)).ringView := by
  unfold State.eventTo
  dsimp only
  rw [Mailbox.putEvent_room hroom]
  split
  · rfl
  · exact State.msix_ringView ..

/-- A notice is counted. -/
def State.countNotice (s : State) (e : Event) : State :=
  if e.type = 2 then s.modFlt fun f => { f with notices := f.notices + 1 } else s

/-- A change of the module's state raises its own vector. -/
def State.signalChange (s : State) (e : Event) : State := if e.type = 4 then s.msix 66 else s

/-- The report of an event over PLDM (17 R411). -/
def State.reportPldm (s : State) (e : Event) : State :=
  if e.type = 1 then
    if s.param 0x1100 = 0 then s
    else if s.mgmt.statusCount + 1 ≥ s.param 0x1100 then
      (s.modMgmt fun g => { g with statusCount := 0 }).queuePldm 0xF0 (BitVec.ofNat 8 e.type :: e.content) true
    else s.modMgmt fun g => { g with statusCount := s.mgmt.statusCount + 1 }
  else s.queuePldm 0xF0 (BitVec.ofNat 8 e.type :: e.content) false

theorem State.deliverEvent_eq (s : State) (e : Event) : s.deliverEvent e =
    (((e.mailboxes.foldl (fun t m => t.eventTo e m) s).countNotice e).signalChange e).reportPldm e := rfl

theorem State.countNotice_ringView (s : State) (e : Event) : (s.countNotice e).ringView =
    (s.ringView.1, s.ringView.2.1, if e.type = 2 then s.ringView.2.2 + 1 else s.ringView.2.2) := by
  unfold State.countNotice
  split <;> rfl

theorem State.signalChange_ringView (s : State) (e : Event) : (s.signalChange e).ringView = s.ringView := by
  unfold State.signalChange
  split
  · exact s.msix_ringView 66
  · rfl

theorem State.reportPldm_ringView (s : State) (e : Event) : (s.reportPldm e).ringView = s.ringView := by
  unfold State.reportPldm
  split
  · split
    · rfl
    · split <;> rfl
  · rfl

/-- The oldest event, for one mailbox that has room, enters its ring. -/
theorem execEventPost_ringView {m : Nat} {e : Event} {rest : List Event} {s : State} (hhub : s.hubRuns = true)
    (hevents : s.events = e :: rest) (hboxes : e.mailboxes = [m]) (hroom : ((s.mbox m).eqTail + 1) % 32 ≠ (s.mbox m).eqHead) :
    ∃ t, execEventPost s = .next t ∧ t.ringView = ((s.modMbox m (Mailbox.kept e s.count)).mailboxes, rest,
      if e.type = 2 then s.flt.notices + 1 else s.flt.notices) := by
  refine ⟨({ s with events := rest } : State).deliverEvent e, by simp [execEventPost, hhub, hevents], ?_⟩
  have hput := State.eventTo_ringView (s := { s with events := rest }) hroom e
  rw [State.deliverEvent_eq, State.reportPldm_ringView, State.signalChange_ringView, State.countNotice_ringView, hboxes]
  dsimp only [List.foldl_cons, List.foldl_nil]
  rw [hput]
  rfl

end Sys2Proof.Machine
end

section
/-! O26: doorbells, rings, completions and events, row by row. -/

namespace Sys2Proof.Machine

/-- Settles O26, row by row: each acts as the lemmas above say. -/
theorem mailboxRings : Obligations.MailboxRings := by
  refine ⟨?doorbell, ?cqHead, ?eqHead, ?completion, ?management, ?event⟩
  case doorbell =>
    intro m i s hhub hperst hfree
    refine ⟨_, execMbDoorbell_submits hhub hperst hfree, ?_, rfl, rfl, fun n hn => s.rung_mbox_ne i hn, ?_, ?_, ?_, ?_⟩
    all_goals rw [s.rung_mbox]
    · exact State.submission_busy ..
    · intro hcheck hreset hexec
      rw [State.submission_starts i hcheck hreset hexec]
      exact ⟨rfl, rfl⟩
    · intro hcheck hreset
      rw [State.submission_inReset i hcheck hreset]
      exact ⟨rfl, _, rfl, rfl, rfl⟩
    · intro hcheck hreset hexec
      rw [State.submission_noExecutor i hcheck hreset hexec]
      exact ⟨rfl, _, rfl, rfl, rfl⟩
    · intro st off hcheck
      rw [State.submission_fails i hcheck]
      exact ⟨rfl, _, rfl, rfl, rfl⟩
  case cqHead =>
    intro m v s hhub hperst
    have hopen := State.bar0Open_of_hubRuns hhub hperst
    refine ⟨_, congrArg Host.Outcome.next (if_pos hopen), rfl, ?_⟩
    rw [State.modMbox_mbox]
    exact ⟨rfl, rfl, headMove_within, headMove_beyond⟩
  case eqHead =>
    intro m v s hhub hperst
    have hopen := State.bar0Open_of_hubRuns hhub hperst
    refine ⟨_, congrArg Host.Outcome.next (if_pos hopen), rfl, ?_⟩
    rw [State.modMbox_mbox]
    exact ⟨rfl, rfl, headMove_within, headMove_beyond⟩
  case completion =>
    intro m f rest s hhub hfin hroom hop
    have hm : m.val ≠ 33 := by omega
    obtain ⟨h, hframe⟩ := s.posted_frame m f rest
    have hbox : (s.posted m f rest).mbox m = (s.mbox m).posted f rest := by
      rw [hframe]
      exact (State.mbox_congr (s := s.modMbox m fun b => b.posted f rest) rfl m).trans (s.modMbox_mbox m _)
    refine ⟨_, execCompletionPost_posts (m := ⟨m, by omega⟩) hhub hop hm hfin hroom, ?_⟩
    dsimp only
    rw [hbox]
    refine ⟨rfl, Tbl.get?_set_self .., rfl, rfl, fun hfrees hslot => Mailbox.posted_busy_freed hfrees hslot _ _,
      fun hkeeps => Mailbox.posted_busy_held hkeeps _ _, by rw [hframe]; rfl, by rw [hframe]; rfl, ?_, ?_⟩
    · intro hirq hmask hup hperst henable hfunction hvec
      have hsent := State.msix_sends (s := s.modMbox m fun b => b.posted f rest) (v := 2 * m) hup hperst
        (State.not_frozen_of_hubRuns hhub) henable hfunction hvec
      simp only [State.posted, hirq, hmask, Bool.not_false, Bool.and_self, if_true, hsent]
      rfl
    · intro hirq
      simp [State.posted, hirq]
  case management =>
    intro f rest s hhub hfin hop
    refine ⟨_, execCompletionPost_management hhub hop hfin, ?_, rfl⟩
    exact congrArg Mailbox.fin
      ((State.mbox_congr (s := s.modMbox 33 fun b => { b with fin := rest }) rfl 33).trans (s.modMbox_mbox 33 _))
  case event =>
    intro m e rest s hhub hevents hboxes hroom
    obtain ⟨t, hrow, hview⟩ := execEventPost_ringView hhub hevents hboxes hroom
    obtain ⟨hmailboxes, hrest⟩ := Prod.mk.inj hview
    obtain ⟨hevents', hnotices⟩ := Prod.mk.inj hrest
    have hbox : t.mbox m = (s.mbox m).kept e s.count := (State.mbox_congr hmailboxes m).trans (s.modMbox_mbox ..)
    refine ⟨t, hrow, hevents', ?_⟩
    rw [hbox]
    exact ⟨Tbl.get?_set_self .., rfl, rfl, rfl, fun htype => hnotices.trans (if_pos htype)⟩

end Sys2Proof.Machine
end

section
/-! SUPPORT. The commands of the mailboxes that read (12 R315, R320, R321, 10 R257, R270, 17 R413, 18 R425). -/

namespace Sys2Proof.Machine

/-! ### Rows on the mailbox of a partition (R315) -/

/-- The row of a command on its own mailbox acts on its first command where the mailbox's partition exists. -/
theorem State.mbHomeRow_first {s : State} {m op : Nat} {c : MbCmd} (go : MbCmd → State) (h : s.mbFirst m op c)
    (hhome : s.mbAbsent m = false) : s.mbHomeRow m op go = .next (go c) := by
  rw [State.mbHomeRow, State.mbRow_first _ h, if_neg (by simp [hhome])]

/-- The admin mailbox is that of no partition. -/
theorem State.mbAbsent_zero (s : State) : s.mbAbsent 0 = false := rfl

/-! ### Reads that leave a value open (log entry 7) -/

/-- Only the counter of the free values may differ. -/
def State.counterOnly (s t : State) : Prop := t = { s with freeCtr := t.freeCtr }

theorem State.freshen_counterOnly (s : State) : s.counterOnly s.freshen := rfl

theorem State.counterOnly.mailboxes {s t : State} (h : s.counterOnly t) : t.mailboxes = s.mailboxes := by rw [h]

/-- A command that ends after a step of the counter changes that counter and the mailboxes alone. -/
theorem State.counterOnly.thenMailboxes {s t u : State} (h : s.counterOnly t) (k : t.mailboxesOnly u) :
    u = { s with mailboxes := u.mailboxes, freeCtr := u.freeCtr } := by
  rw [k, h]

/-- The state in which a QUERY is answered: the position of the newest record of an empty log is a free value. -/
def State.queried (s : State) : State := if s.flt.log.isEmpty then s.freshen else s

theorem State.queried_counterOnly (s : State) : s.counterOnly s.queried := by
  unfold State.queried
  split <;> rfl

/-! ### CORRELATE (17 R413) -/

theorem leBytes_length (n v : Nat) : (leBytes n v).length = n := by
  induction n generalizing v with
  | zero => rfl
  | succ n ih => exact congrArg (· + 1) (ih (v / 256))

/-- The first k of n little-endian bytes give the value modulo 256 ^ k. -/
theorem leNat_take_leBytes {k n : Nat} (h : k ≤ n) (v : Nat) : leNat ((leBytes n v).take k) = v % 256 ^ k := by
  induction n generalizing k v with
  | zero =>
    obtain rfl := Nat.le_zero.1 h
    exact (Nat.mod_one v).symm
  | succ n ih =>
    cases k with
    | zero => exact (Nat.mod_one v).symm
    | succ k =>
      rw [leBytes, List.take_succ_cons, leNat, ih (Nat.le_of_succ_le_succ h), BitVec.toNat_ofNat, pow_succ' 256 k,
        Nat.mod_mul (x := v) (a := 256)]

/-- The data of a CORRELATE (Table 17-4): the count of the last switch of oscillators, the one in use, and their difference. -/
def State.correlateBytes (s : State) : List Byte :=
  packBytes 16 [(0, s.net.switchAt.toNat), (8, b2n (s.net.onOsc1.contains (30 + s.life.activeHub))),
    (12, (Config.ppb s.freeCtr).toNat)]

theorem State.correlateBytes_switchAt (s : State) : leNat (s.correlateBytes.take 8) = s.net.switchAt.toNat := by
  have hlt := s.net.switchAt.isLt
  rw [State.correlateBytes, packBytes, leNat_take_leBytes (by omega), pack_three]
  omega

theorem execCorrelate_answers {m : Fin 34} {c : MbCmd} {s : State} (hm : s.mbFirst m 4 c) (hhome : s.mbAbsent m = false) :
    execCorrelate m s = .next (s.freshen.mbEnd m c mbDone 0xFFFF c.word s.correlateBytes) :=
  State.mbHomeRow_first _ hm hhome

/-! ### Logs, suspects and telemetry (10 R257, R270, 18 R425) -/

/-- LOG_READ from the oldest record, on the admin mailbox: the first records of the log. -/
theorem execLogRead_oldest {m : Fin 34} {c : MbCmd} {s : State} (hm : s.mbFirst m 0x100 c) (hadmin : m.val = 0)
    (hpos : fld c.img 16 0 32 = 0xFFFFFFFF) : ∃ result, execLogRead m s = .next (s.freshen.mbEnd m c mbDone 0xFFFF result
      ((s.flt.log.take (fld c.img 20 0 8)).map fun e => leBytes 64 e.2.bits.toNat).flatten) := by
  have hhome : s.mbAbsent m = false := by rw [hadmin]; exact s.mbAbsent_zero
  rw [execLogRead, State.mbHomeRow_first _ hm hhome]
  simp only [hadmin, hpos, decide_true, Bool.true_or, beq_self_eq_true, List.filter_true]
  exact ⟨_, rfl⟩

/-- SUSPECT_READ answers with part of the report that it names, or finds none. -/
theorem execSuspectRead_answers {m : Fin 34} {c : MbCmd} {s : State} (hm : s.mbFirst m 0x102 c) (hhome : s.mbAbsent m = false) :
    execSuspectRead m s = .next (match s.flt.suspects.find? fun r => r.reportId.toNat == fld c.img 16 0 16 with
      | none => s.mbEnd m c mbNoResource
      | some r => s.mbEnd m c mbDone 0xFFFF 0
          (r.head ++ (((r.entries.drop (fld c.img 18 0 8)).take 13).map Touch.bytes).flatten)) :=
  State.mbHomeRow_first _ hm hhome

/-- TELEMETRY_READ of one slot answers with its record. -/
theorem execTelemetryRead_one {m : Fin 34} {c : MbCmd} {s : State} (hm : s.mbFirst m 0x103 c) (hone : fld c.img 20 0 8 = 1) :
    execTelemetryRead m s = .next (s.mbEnd m c mbDone 0xFFFF
      ((s.strait (fld c.img 16 0 8)).lost.toNat * 2 ^ 32 + (s.strait (fld c.img 16 0 8)).head % 512)
      (leBytes 64 ((s.strait (fld c.img 16 0 8)).slot (fld c.img 18 0 16 % 512)).toNat)) := by
  rw [execTelemetryRead, State.mbRow_first _ hm, hone]
  simp only [List.range_one, List.map_cons, List.map_nil, List.flatten_cons, List.flatten_nil, List.append_nil, Nat.add_zero]

end Sys2Proof.Machine
end

section
/-! O27: reads of the mailboxes, row by row. -/

namespace Sys2Proof.Machine

/-- Settles O27, row by row: each read ends as the lemmas above say; WEAR_READ lists the units of log entry 40. -/
theorem mailboxReads : Obligations.MailboxReads := by
  refine ⟨?query, ?paramModule, ?paramPart, ?correlate, ?log, ?fenceMap, ?suspect, ?telemetry, ?wear, ?links⟩
  case query =>
    intro m c s hm
    have hq := s.queried_counterOnly
    exact ⟨_, State.mbRow_first _ hm, State.mbEnd_answers_of hq.mailboxes m c mbDone 0xFFFF 0 _,
      hq.thenMailboxes (State.mbEnd_mailboxesOnly ..)⟩
  case paramModule =>
    intro m c s hm hhome hn
    have hrow : execGetParam m s = .next (s.mbEnd m c mbDone 0xFFFF (s.param (fld c.img 16 0 16))) := by
      rw [execGetParam, State.mbHomeRow_first _ hm hhome, if_pos hn]
    exact ⟨_, hrow, s.mbEnd_answers .., s.mbEnd_frame ..⟩
  case paramPart =>
    intro m c x s hm hhome hn hx
    have hrow : execGetParam m s =
        .next (s.mbEnd m c mbDone 0xFFFF (s.pparam (mbPartition c.img) (fld c.img 16 0 16))) := by
      rw [execGetParam, State.mbHomeRow_first _ hm hhome]
      simp only [hn, Bool.false_eq_true, if_false, hx]
    exact ⟨_, hrow, s.mbEnd_answers .., s.mbEnd_frame ..⟩
  case correlate =>
    intro m c s hm hhome
    exact ⟨_, execCorrelate_answers hm hhome, ⟨_, leBytes_length .., s.correlateBytes_switchAt, State.mbEnd_answers_of rfl ..⟩,
      s.freshen_counterOnly.thenMailboxes (State.mbEnd_mailboxesOnly ..)⟩
  case log =>
    intro m c s hm hadmin hpos
    obtain ⟨result, hrow⟩ := execLogRead_oldest hm hadmin hpos
    exact ⟨_, hrow, ⟨result, State.mbEnd_answers_of rfl ..⟩, s.freshen_counterOnly.thenMailboxes (State.mbEnd_mailboxesOnly ..)⟩
  case fenceMap =>
    intro m c s hm
    exact ⟨_, State.mbRow_first _ hm, s.mbEnd_answers .., s.mbEnd_frame ..⟩
  case suspect =>
    intro m c s hm hhome
    refine ⟨_, execSuspectRead_answers hm hhome, ?_⟩
    split
    · next hnone =>
      refine ⟨fun r hr => ?_, fun _ => s.mbEnd_answers .., s.mbEnd_frame ..⟩
      cases hnone.symm.trans hr
    · next r hsome =>
      refine ⟨fun r' hr => ?_, fun hall => ?_, s.mbEnd_frame ..⟩
      · obtain rfl := Option.some.inj (hsome.symm.trans hr)
        exact s.mbEnd_answers ..
      · have hid := List.find?_some hsome
        exact absurd (beq_iff_eq.1 hid) (hall r (List.mem_of_find?_eq_some hsome))
  case telemetry =>
    intro m c s hm hone
    exact ⟨_, execTelemetryRead_one hm hone, s.mbEnd_answers .., s.mbEnd_frame ..⟩
  case wear =>
    intro m c s hm
    exact ⟨_, State.mbRow_first _ hm, s.mbEnd_answers .., s.mbEnd_frame ..⟩
  case links =>
    intro m c s hm
    exact ⟨_, State.mbRow_first _ hm, s.mbEnd_answers .., s.mbEnd_frame ..⟩

end Sys2Proof.Machine
end

section
/-! SUPPORT. Settings by mailbox: parameters, the module ID, routes, multicast groups and links (12 R321, 14 R361, 08 R210-R220). -/

namespace Sys2Proof.Machine

/-! ### SET_PARAM (12 R321) -/

/-- A partition's parameter once it is set. -/
def Part.setParam (x : Part) (n v : Nat) : Part := { x with params := Tbl.set x.params n (BitVec.ofNat 64 v) }

/-- A module parameter once it is set, before what setting it does besides. -/
def State.setParam (s : State) (n v : Nat) : State := { s with params := Tbl.set s.params n (BitVec.ofNat 64 v) }

theorem toNat_ofNat_fld64 {w : Nat} (r : BitVec w) (off : Nat) : (BitVec.ofNat 64 (fld r off 0 64)).toNat = fld r off 0 64 := by
  rw [BitVec.toNat_ofNat]
  exact Nat.mod_eq_of_lt (Nat.mod_lt _ (Nat.two_pow_pos 64))

theorem State.setParam_param (s : State) (n v : Nat) : (s.setParam n v).param n = (BitVec.ofNat 64 v).toNat := by
  rw [State.param, State.setParam, Tbl.getD_set_self]

theorem State.modPart_setParam_pparam {s : State} {p : Nat} {x : Part} (hx : s.part? p = some x) (n v : Nat) :
    (s.modPart p fun y => y.setParam n v).pparam p n = (BitVec.ofNat 64 v).toNat := by
  rw [State.pparam, State.modPart_part, hx, Option.map_some]
  exact congrArg BitVec.toNat (Tbl.getD_set_self ..)

section
variable {m : Fin 34} {c : MbCmd} {s : State} (hm : s.mbFirst m 3 c)
include hm

theorem execSetParam_part {x : Part} (hn : paramModule (fld c.img 16 0 16) = false) (hx : s.part? (mbPartition c.img) = some x) :
    execSetParam m s = .next ((s.modPart (mbPartition c.img) fun y => y.setParam (fld c.img 16 0 16) (fld c.img 24 0 64)).mbEnd
      m c mbDone 0xFFFF (s.pparam (mbPartition c.img) (fld c.img 16 0 16))) := by
  rw [execSetParam, State.mbRow_first _ hm]
  simp only [hn, Bool.false_eq_true, if_false, hx]
  rfl

/-- A module parameter that is neither refused nor has an effect of its own. -/
theorem execSetParam_module (hn : paramModule (fld c.img 16 0 16) = true)
    (hplain : fld c.img 16 0 16 ∉ [0x0402, 0x0600, 0x0601, 0x0800, 0x0806, 0x0F00]) :
    execSetParam m s = .next ((s.setParam (fld c.img 16 0 16) (fld c.img 24 0 64)).mbEnd
      m c mbDone 0xFFFF (s.param (fld c.img 16 0 16))) := by
  simp only [List.mem_cons, List.not_mem_nil, or_false, not_or] at hplain
  obtain ⟨hcat, hspare, hlocal, hformat, htelemetry, hbudget⟩ := hplain
  rw [execSetParam, State.mbRow_first _ hm]
  simp only [hn, if_true, State.paramRefusal, State.paramEffect, hcat, hspare, hlocal, hformat, htelemetry, hbudget, or_self,
    if_false]
  rfl

/-- The parameters that a partition holds fast. -/
theorem execSetParam_busy (hn : fld c.img 16 0 16 ∈ [0x0402, 0x0600, 0x0601, 0x0800]) (hparts : s.parts ≠ []) :
    execSetParam m s = .next (s.mbEnd m c mbBusy) := by
  have hsome : s.parts.isEmpty = false := List.isEmpty_eq_false_iff.2 hparts
  have hmodule : ∀ n ∈ [0x0402, 0x0600, 0x0601, 0x0800], paramModule n = true := by decide
  have hrefused : s.paramRefusal (fld c.img 16 0 16) (fld c.img 24 0 64) = some mbBusy := by
    simp only [List.mem_cons, List.not_mem_nil, or_false] at hn
    rcases hn with h | h | h | h <;> simp [State.paramRefusal, h, hsome]
  rw [execSetParam, State.mbRow_first _ hm]
  simp only [hmodule _ hn, if_true, hrefused]

end

/-- A change of one partition, then the end of a command: what the two leave. -/
theorem State.modPart_mbEnd_frame (s : State) (p : Nat) (f : Part → Part) (m : Nat) (c : MbCmd) (st off result : Nat)
    (data : List Byte) : (s.modPart p f).mbEnd m c st off result data =
      { s with mailboxes := ((s.modPart p f).mbEnd m c st off result data).mailboxes, parts := (s.modPart p f).parts } := by
  have hevents : (s.modPart p f).events = s.events := by
    unfold State.modPart
    split <;> rfl
  have hpart := s.modPart_partsOnly p f
  rw [State.partsOnly, hevents] at hpart
  exact (State.mbEnd_frame ..).trans (congrArg (fun t : State =>
    { t with mailboxes := ((s.modPart p f).mbEnd m c st off result data).mailboxes }) hpart)

/-! ### MODULE_ID_SET (14 R361) -/

theorem State.mailboxesOnly.life {s t : State} (h : s.mailboxesOnly t) : t.life = s.life := by rw [h]

/-- A change of the lifecycle, then of the mailboxes. -/
theorem State.mailboxesOnly.withLife {s t u : State} (h : t.mailboxesOnly u) (k : t = { s with life := t.life }) :
    u = { s with mailboxes := u.mailboxes, life := u.life } := by
  rw [h, k]

/-- The state with a module ID. -/
def State.withId (s : State) (i : BitVec 13) : State := s.modLife fun l => { l with moduleId := some i }

/-- The same ID changes nothing; another is taken where there is none. -/
theorem execModuleIdSet_eq {m : Fin 34} {c : MbCmd} {s : State} (hm : s.mbFirst m 0x400 c) : execModuleIdSet m s =
    .next (if s.life.moduleId = some (BitVec.ofNat 13 (fld c.img 16 0 13)) then s.mbEnd m c mbDone
      else if s.life.moduleId.isSome ∧ ¬ s.parts.isEmpty then s.mbEnd m c mbBusy
      else (s.withId (BitVec.ofNat 13 (fld c.img 16 0 13))).mbEnd m c mbDone) := State.mbRow_first _ hm

/-! ### Links (08 R220) -/

/-- LINK_CONFIG of a disabled link: it trains, or stays disabled; nothing is sent. -/
theorem State.setLinkConfig_disabled {s : State} {l : Nat} (h : (s.link l).enable = false) (v : Nat) :
    ((s.setLinkConfig l v).link l).state = (if bits v 0 1 == 1 then 1 else 6) ∧ (s.setLinkConfig l v).fab.sent = s.fab.sent := by
  have hb : bits v 0 1 = v % 2 := by simp [bits]
  unfold State.setLinkConfig
  dsimp only
  rw [h, hb, if_neg (by simp), State.modLink_link]
  refine ⟨?_, rfl⟩
  cases v % 2 == 1 <;> rfl

theorem State.mailboxesOnly.fab {s t : State} (h : s.mailboxesOnly t) : t.fab = s.fab := by rw [h]

theorem State.setLinkConfig_mailboxes (s : State) (l v : Nat) : (s.setLinkConfig l v).mailboxes = s.mailboxes := by
  unfold State.setLinkConfig
  dsimp only
  split <;> rfl

/-- A field of a record's byte is that field of the record. -/
theorem bits_fld_byte {w : Nat} (r : BitVec w) (off lo n : Nat) (h : lo + n ≤ 8) : bits (fld r off 0 8) lo n = fld r off lo n := by
  have hfld (k l : Nat) : fld r off k l = bits (r.toNat / 2 ^ (8 * off)) k l := by
    rw [fld, bits, bits, Nat.div_div_eq_div_mul, ← pow_add]
  rw [hfld, hfld, bits_low_byte _ _ _ h]

end Sys2Proof.Machine
end

section
/-! O28: settings by mailbox, row by row. -/

namespace Sys2Proof.Machine

/-- Settles O28, row by row: each setting acts as the lemmas above say. -/
theorem mailboxSettings : Obligations.MailboxSettings := by
  refine ⟨?paramPart, ?paramModule, ?paramBusy, ?moduleId, ?routes, ?groups, ?link⟩
  case paramPart =>
    intro m c x s hm hn hx
    refine ⟨_, execSetParam_part hm hn hx, State.mbEnd_answers_of (State.modPart_mailboxes ..) .., ?_, ?_, ?_⟩
    all_goals rw [State.modPart_mbEnd_frame]
    exact (State.modPart_setParam_pparam hx ..).trans (toNat_ofNat_fld64 ..)
  case paramModule =>
    intro m c s hm hn hplain
    refine ⟨_, execSetParam_module hm hn hplain, State.mbEnd_answers_of (t := s.setParam _ _) rfl .., ?_, ?_⟩
    all_goals rw [State.mbEnd_frame]
    · exact (s.setParam_param ..).trans (toNat_ofNat_fld64 ..)
    · rfl
  case paramBusy =>
    intro m c s hm hn hparts
    exact ⟨_, execSetParam_busy hm hn hparts, s.mbEnd_answers .., s.mbEnd_frame ..⟩
  case moduleId =>
    intro m c s hm
    refine ⟨_, execModuleIdSet_eq hm, ?_⟩
    split
    · next hsame =>
      refine ⟨fun hnone => ?_, fun _ => ⟨s.mbEnd_answers .., (s.mbEnd_mailboxesOnly ..).life⟩,
        fun i hi hne => absurd (Option.some.inj (hi.symm.trans hsame)) hne, ?_⟩
      · cases hnone.symm.trans hsame
      · exact (s.mbEnd_mailboxesOnly ..).withLife rfl
    · next hother =>
      split
      · next hheld =>
        refine ⟨fun hnone => ?_, fun hsame => absurd hsame hother,
          fun i hi hne _ => ⟨s.mbEnd_answers .., (s.mbEnd_mailboxesOnly ..).life⟩, (s.mbEnd_mailboxesOnly ..).withLife rfl⟩
        simp [hnone] at hheld
      · next hfree =>
        refine ⟨fun _ => ⟨State.mbEnd_answers_of rfl .., ?_⟩, fun hsame => absurd hsame hother, fun i hi _ hparts => ?_,
          (State.mbEnd_mailboxesOnly ..).withLife rfl⟩
        · rw [(State.mbEnd_mailboxesOnly ..).life]
          rfl
        · exact absurd ⟨by rw [hi]; rfl, by simpa using hparts⟩ hfree
  case routes =>
    intro m c k s hm hk
    have hget := Tbl.get?_setRange s.fab.routes (fld c.img 16 0 16) (fld c.img 18 0 8) fun k =>
      BitVec.ofNat 32 (fld c.img (20 + 4 * k) 0 32)
    refine ⟨_, State.mbRow_first _ hm, State.mbEnd_answers_of (t := s.modFab _) rfl .., ?_, fun d hd => ?_, ?_⟩
    all_goals rw [State.mbEnd_frame]
    · refine (hget _).trans ?_
      rw [if_pos (by omega), Nat.add_sub_cancel_left]
    · exact (hget d).trans (if_neg (by omega))
    · rfl
  case groups =>
    intro m c s hm
    refine ⟨_, State.mbRow_first _ hm, State.mbEnd_answers_of (t := s.modFab _) rfl .., ?_, fun g hg => ?_, ?_⟩
    all_goals rw [State.mbEnd_frame]
    · exact Tbl.get?_set_self ..
    · exact Tbl.get?_set_ne _ _ hg
    · rfl
  case link =>
    intro m c s hm hoff
    have hends := State.mbEnd_mailboxesOnly (s.setLinkConfig (fld c.img 16 0 8) (fld c.img 18 0 8)) m c mbDone 0xFFFF 0 []
    obtain ⟨henable, hdateline, hgroup⟩ := s.setLinkConfig_config (fld c.img 16 0 8) (fld c.img 18 0 8)
    obtain ⟨hstate, hsent⟩ := State.setLinkConfig_disabled hoff (fld c.img 18 0 8)
    rw [bits_fld_byte _ _ _ _ (by omega)] at henable hdateline hgroup hstate
    refine ⟨_, State.mbRow_first _ hm, State.mbEnd_answers_of (State.setLinkConfig_mailboxes ..) .., ?_⟩
    rw [State.link, hends.fab]
    exact ⟨hgroup, hdateline, henable, hstate, hsent⟩

end Sys2Proof.Machine
end

section
/-! SUPPORT. CXL.mem accesses, the snoop filter and back-invalidation (12 R303-R306). -/

namespace Sys2Proof.Machine

/-! ### Host reads (R304, R305) -/

/-- A clean word changes nothing. -/
theorem State.dramDecode_clean (s : State) (who : Option Nat) (a src : Nat) (op : Nat × Nat) :
    s.dramDecode who a .clean src op = s := rfl

/-- What a host read of a line answers. -/
def State.readAnswer (s : State) (line : Nat) : HostOut :=
  if (s.readPlace (.dram (line * 64)) 64).1 = stOk then .memData (line * 64) (s.readPlace (.dram (line * 64)) 64).2
  else .memPoison (line * 64)

theorem State.answerRead_eq (s : State) (line : Nat) :
    s.answerRead line = s.modHost fun h => { h with out := h.out ++ [s.readAnswer line] } := rfl

/-- A read of DRAM that succeeds gives the bytes. -/
theorem State.readPlace_dram_bytes {s : State} {a n : Nat} (h : (s.readPlace (.dram a) n).1 = stOk) :
    (s.readPlace (.dram a) n).2 = Mem.readBytes s.mem.dram a n := by
  unfold State.readPlace at h ⊢
  dsimp only at h ⊢
  split
  · next hbad =>
    rw [if_pos hbad] at h
    cases h
  · rfl

/-- A read that the host will not cache is answered, and nothing is tracked. -/
theorem State.hostRead_uncached (s : State) (line : Nat) : s.hostRead line .uncached .clean = s.answerRead line := rfl

section
variable {a : Nat} {use : HostCacheUse} {s : State} (hreach : s.hdmReach a = true) (hready : s.life.state = .ready)
  (hnone : ∀ w ∈ s.host.biWaits, w.hostRead ≠ some (a / 64, use))
include hreach hready hnone

/-- A read that waits for nothing yet: one that the host may cache and that finds no way of its set asks the victim back. -/
theorem execHostMemRead_new (dec : Decoded) : execHostMemRead a use dec s =
    .next (if use ≠ .uncached ∧ (s.host.way? (a / 64)).isNone ∧ (s.host.freeWay (a / 64)).isNone then
      s.modHost fun h => h.snoop (h.victim (a / 64)) true (some (a / 64, use)) s.count
    else s.hostRead (a / 64) use dec) := by
  have hany : s.host.biWaits.any (fun w => w.hostRead == some (a / 64, use)) = false :=
    List.any_eq_false.2 fun w hw => by simpa using hnone w hw
  rw [execHostMemRead, if_neg (not_not.2 hreach), if_neg (by simp [hready]), if_neg (by simp [hany])]

end

/-- A back-invalidation for a read that waits for none yet is sent. -/
theorem HostSt.snoop_sends {h : HostSt} {host : Option (Nat × HostCacheUse)} (hnone : ∀ w ∈ h.biWaits, w.hostRead ≠ host)
    (line : Nat) (inv : Bool) (now : DWord) : h.snoop line inv host now =
      { h with biWaits := h.biWaits ++ [{ line := line, inv := inv, hostRead := host, since := now, expired := false }],
               out := h.out ++ [if inv then .biSnpInv line else .biSnpData line] } := by
  have hany : h.biWaits.any (fun w => w.line == line && w.hostRead == host && w.inv == inv) = false :=
    List.any_eq_false.2 fun w hw => by simp [hnone w hw]
  rw [HostSt.snoop, if_neg (by simp [hany])]

/-- A cached read of a clean line with a free way of its set is answered and tracked there. -/
theorem State.hostRead_tracks {s : State} {line w : Nat} {use : HostCacheUse} (huse : use ≠ .uncached)
    (hway : s.host.way? line = none) (hfree : s.host.freeWay line = some w) :
    s.hostRead line use .clean = (s.answerRead line).modHost fun h => h.track line w (decide (use = .exclusive)) := by
  have hway' : (s.answerRead line).host.way? line = none := hway
  have hfree' : (s.answerRead line).host.freeWay line = some w := hfree
  unfold State.hostRead
  rw [State.dramDecode_clean]
  cases use with
  | uncached => exact absurd rfl huse
  | shared => simp only [hway', hfree']
  | exclusive => simp only [hway', hfree']

/-! ### Host writes (R303) -/

/-- The hub reaches all DRAM. -/
theorem State.place_hub_dram {s : State} {a : Nat} (h : a < s.mem.map.size) (wr : Bool) : s.place none a wr = .ok (.dram a) := by
  unfold State.place
  dsimp only
  rw [if_pos h, if_pos (.inl rfl)]

/-- A host write of a line is a DRAM write. -/
theorem execHostMemWrite_writes {a : Nat} {data : List Byte} {s : State} (hlen : data.length = 64) (halign : a % 64 = 0)
    (hfirst : s.hdmReach a = true) (hlast : s.hdmReach (a + 63) = true) (hsize : a < s.mem.map.size)
    (hready : s.life.state = .ready) : execHostMemWrite a data s = .next (s.dramWrite a data) := by
  have hend : a + data.length - 1 = a + 63 := by omega
  unfold execHostMemWrite
  rw [hend, if_neg (by simp [hfirst, hlast]), if_neg (by simp [hready]),
    State.pwrite_dram 0 (by omega) (by omega) (State.place_hub_dram hsize true)]

/-! ### Back-invalidation (R305) -/

/-- A line that was given back is not tracked. -/
theorem HostSt.untrack_tracked (h : HostSt) (line : Nat) : (h.untrack line).tracked line = none := by
  unfold HostSt.tracked HostSt.untrack
  rw [Option.map_eq_none_iff, List.find?_eq_none]
  intro e he
  simpa using (List.mem_filter.1 he).2

/-- BIRSP to a back-invalidation that takes the line. -/
theorem execBirsp_inv {line : Nat} {w : BiWait} {s : State} (hw : s.host.biWaits.find? (fun w => w.line == line) = some w)
    (hinv : w.inv = true) :
    execBirsp line s = .next (s.modHost fun h => { h.untrack line with biWaits := h.biWaits.erase w }) := by
  unfold execBirsp
  simp only [hw, hinv, if_true]
  rfl

/-- The host port once a device access has waited too long for the host. -/
def HostSt.expire (h : HostSt) (w : BiWait) : HostSt :=
  { h with biWaits := h.biWaits.map fun x => if x == w then { x with expired := true } else x,
           biTimeouts := satAdd32 h.biTimeouts 1 }

theorem HostSt.expire_mem {h : HostSt} {w : BiWait} (hw : w ∈ h.biWaits) : { w with expired := true } ∈ (h.expire w).biWaits :=
  List.mem_map.2 ⟨w, hw, if_pos (beq_self_eq_true w)⟩

/-- The TIMEOUT record of a back-invalidation, raised for hub 0 (log entry 39). -/
theorem execHostBiTimeout_expires {line : Nat} {w : BiWait} {s : State}
    (hw : s.host.biWaits.find? (fun w => w.line == line && !w.expired) = some w) (hdevice : w.hostRead = none) :
    execHostBiTimeout line s = .next ((s.modHost fun h => h.expire w).raise
      { unit := hubOf 0, cls := clsTimeout, actions := actCounted, detail := [(32, 10), (33, line * 64)] }) := by
  unfold execHostBiTimeout
  simp only [hw, hdevice]
  rfl

end Sys2Proof.Machine
end

section
/-! O29: CXL.mem, row by row. -/

namespace Sys2Proof.Machine

/-- Settles O29, row by row: each access acts as the lemmas above say; the TIMEOUT record names hub 0 (log entry 39). -/
theorem hostMemory : Obligations.HostMemory := by
  refine ⟨?uncached, ?full, ?tracked, ?inReset, ?write, ?birsp, ?timeout, ?snoop⟩
  case uncached =>
    intro a s hreach hready hnone
    have hrow := execHostMemRead_new hreach hready hnone .clean
    rw [if_neg (fun h => h.1 rfl), State.hostRead_uncached, State.answerRead_eq] at hrow
    refine ⟨_, hrow, rfl, fun hok => ?_, fun hbad => ?_⟩
    · have hanswer : s.readAnswer (a / 64) = .memData (a / 64 * 64) (Mem.readBytes s.mem.dram (a / 64 * 64) 64) := by
        rw [State.readAnswer, if_pos hok, State.readPlace_dram_bytes hok]
      exact congrArg (fun o => s.host.out ++ [o]) hanswer
    · exact congrArg (fun o => s.host.out ++ [o]) (if_neg hbad)
  case full =>
    intro a use dec s hreach hready huse hnone hway hfree
    have hrow := execHostMemRead_new hreach hready hnone dec
    rw [if_pos ⟨huse, by rw [hway]; rfl, by rw [hfree]; rfl⟩] at hrow
    refine ⟨_, hrow, ?_⟩
    dsimp only [State.modHost]
    rw [HostSt.snoop_sends hnone]
    exact ⟨rfl, rfl, _, rfl, rfl, rfl⟩
  case tracked =>
    intro a use w s hreach hready huse hnone hway hfree
    have hrow := execHostMemRead_new hreach hready hnone .clean
    rw [if_neg (by simp [hfree]), State.hostRead_tracks huse hway hfree] at hrow
    exact ⟨_, hrow, Tbl.get?_set_self .., rfl⟩
  case inReset =>
    intro a use dec s hreach hreset
    refine ⟨_, rfl, ?_⟩
    rw [if_neg (not_not.2 hreach), if_pos hreset]
    exact ⟨rfl, rfl, rfl⟩
  case write =>
    intro a data i s hwf hlen halign hfirst hlast hsize hready hbacked hi
    refine ⟨_, execHostMemWrite_writes hlen halign hfirst hlast hsize hready, ?_⟩
    rw [State.dramWrite, if_neg hbacked]
    refine ⟨?_, fun b hb => ?_, rfl⟩
    · refine (Mem.read_writeBytes hwf ..).trans ?_
      rw [if_pos (by omega), Nat.add_sub_cancel_left]
    · exact (Mem.read_writeBytes hwf ..).trans (if_neg (by omega))
  case birsp =>
    intro line w s hw hinv
    exact ⟨_, execBirsp_inv hw hinv, s.host.untrack_tracked line, rfl, rfl⟩
  case timeout =>
    intro line w s hw hdevice
    exact ⟨_, execHostBiTimeout_expires hw hdevice, (State.recorded_raise ..).congr rfl rfl, rfl, rfl,
      HostSt.expire_mem (List.mem_of_find?_eq_some hw)⟩
  case snoop =>
    intro a s hup hpower hfrozen
    exact ⟨_, congrArg Host.Outcome.next (if_pos ⟨hup, hpower, by simp [hfrozen]⟩), rfl⟩

end Sys2Proof.Machine
end

section
/-! SUPPORT. The host link: PERST#, the HDM decoder, the CXL mailbox, IDE keys and MSI-X masks (12 R301, R302, R304, R318). -/

namespace Sys2Proof.Machine

/-! ### PERST# (R302) -/

theorem State.mailboxesOnly.host {s t : State} (h : s.mailboxesOnly t) : t.host = s.host := by rw [h]

theorem State.mailboxesOnly.atolls {s t : State} (h : s.mailboxesOnly t) : t.atolls = s.atolls := by rw [h]

/-- One change of the mailboxes below n changes each of them once and no other. -/
theorem State.foldl_modMbox_mbox (f : Mailbox → Mailbox) (n : Nat) (s : State) (m : Nat) :
    ((List.range n).foldl (fun t k => t.modMbox k f) s).mbox m = if m < n then f (s.mbox m) else s.mbox m := by
  induction n with
  | zero => rfl
  | succ n ih =>
    rw [List.range_succ, List.foldl_append, List.foldl_cons, List.foldl_nil]
    by_cases h : m = n
    · subst h
      rw [State.modMbox_mbox, ih, if_neg (by omega), if_pos (by omega)]
    · rw [State.modMbox_mbox_ne _ _ h, ih]
      exact if_congr (by omega) rfl rfl

/-- The state once PERST# is asserted. -/
def State.perstAsserted (s : State) : State :=
  (List.range 33).foldl (fun t m => t.modMbox m Mailbox.perst) (s.modHost fun h => h.controllerReset true)

theorem State.perstAsserted_mailboxesOnly (s : State) :
    (s.modHost fun h => h.controllerReset true).mailboxesOnly s.perstAsserted :=
  State.mailboxesOnly_foldl (fun t m => t.modMbox m Mailbox.perst) (fun _ _ => rfl) _ _

theorem State.perstAsserted_mbox (s : State) (m : Nat) :
    s.perstAsserted.mbox m = if m < 33 then (s.mbox m).perst else s.mbox m :=
  State.foldl_modMbox_mbox _ _ _ m

/-! ### The HDM decoder (R304) -/

section
variable {base k ways gran : Nat} {s : State} (hup : s.host.linkUp = true) (hperst : s.host.perst = false)
  (hfree : s.host.hdmCommitted = false) (hways : ways ∈ [1, 2, 4, 8])
  (hgran : gran ∈ [256, 512, 1024, 2048, 4096, 8192, 16384]) (hk : 0 < k) (hbase : base % 268435456 = 0)
include hup hperst hfree hways hgran hk hbase

/-- A well-formed range commits where this module's share of it, k times 256 MiB, fits the whole 256 MiB of its DRAM. -/
theorem execHdmDecoderCommit_eq : execHdmDecoderCommit true base (k * (ways * 268435456)) ways gran s =
    .next (if s.mem.map.size / 268435456 < k then s
      else s.modHost fun h => { h with hdmCommitted := true, hdmBase := base, hdmSize := k * (ways * 268435456), hdmWays := ways,
                                       hdmGran := gran }) := by
  have hpos : 0 < ways := by
    simp only [List.mem_cons, List.not_mem_nil, or_false] at hways
    omega
  have hsize : k * (ways * 268435456) ≠ 0 := (Nat.mul_pos hk (Nat.mul_pos hpos (by omega))).ne'
  have hshare : k * (ways * 268435456) / ways = k * 268435456 := by
    rw [Nat.mul_left_comm, Nat.mul_div_cancel_left _ hpos]
  have hlimit : k * 268435456 > s.mem.map.size / 268435456 * 268435456 ↔ s.mem.map.size / 268435456 < k := by omega
  have hwaysOk : ways = 1 ∨ ways = 2 ∨ ways = 4 ∨ ways = 8 := by simpa using hways
  have hgranOk : [256, 512, 1024, 2048, 4096, 8192, 16384].contains gran = true := List.contains_iff_mem.2 hgran
  simp only [execHdmDecoderCommit, hup, hperst, hfree, hwaysOk, hgranOk, hsize, hbase, hshare, hlimit, Nat.mul_mod_left,
    not_true_eq_false, Bool.false_eq_true, ne_eq, or_self, false_or, if_false]

end

/-! ### MSI-X masks (R318) -/

/-- The state once a vector is unmasked, before what is pending is sent. -/
def State.unmask (s : State) (v : Nat) : State :=
  s.modHost fun h => { h with vecUnmasked := if h.vecUnmasked.contains v then h.vecUnmasked else h.vecUnmasked ++ [v] }

theorem State.unmask_mem (s : State) (v : Nat) : v ∈ (s.unmask v).host.vecUnmasked := by
  dsimp only [State.unmask, State.modHost]
  split
  · next h => exact List.contains_iff_mem.1 h
  · exact List.mem_concat_self

/-- The one pending vector, once it is unmasked, is sent. -/
theorem State.sendPending_one {s : State} {v : Nat} (hup : s.host.linkUp = true) (hperst : s.host.perst = false)
    (henable : s.host.msixEnable = true) (hmask : s.host.msixMask = false) (hfrozen : s.life.frozen = false)
    (hpending : s.host.vecPending = [v]) (hv : v ∈ s.host.vecUnmasked) :
    s.sendPending = s.modHost fun h => { h with vecPending := [], out := h.out ++ [.msix v] } := by
  simp [State.sendPending, State.modHost, hup, hperst, henable, hmask, hfrozen, hpending, hv]

theorem execMsixVectorUnmask_vector {s : State} (v : Fin 67) (hup : s.host.linkUp = true) (hperst : s.host.perst = false) :
    execMsixVectorUnmask (some v) s = .next (s.unmask v).sendPending :=
  congrArg Host.Outcome.next (if_neg (by simp [hup, hperst]))

/-! ### IDE keys (R301) -/

/-- A finished session is one that IDE_KM may use. -/
theorem SpdmSession.any_finished {x : SpdmSession} {l : List SpdmSession} (hx : x ∈ l) (hfin : x.finished = true) :
    l.any (fun y => y.id == x.id && y.finished) = true :=
  List.any_eq_true.2 ⟨x, hx, by simp [hfin]⟩

/-- The keys once one is programmed: it alone is in its slot. -/
theorem ideKeys_programmed (l : List (Nat × Nat × BitVec 256)) (x n : Nat) (key : BitVec 256) :
    (x, n, key) ∈ l.filter (fun k => k.2.1 != n) ++ [(x, n, key)] ∧
      ∀ k ∈ l.filter (fun k => k.2.1 != n) ++ [(x, n, key)], k.2.1 = n → k = (x, n, key) := by
  refine ⟨List.mem_concat_self, fun k hk hn => ?_⟩
  rcases List.mem_append.1 hk with h | h
  · exact absurd hn (by simpa using (List.mem_filter.1 h).2)
  · exact List.mem_singleton.1 h

end Sys2Proof.Machine
end

section
/-! O30: the host link, row by row. -/

namespace Sys2Proof.Machine

/-- Settles O30, row by row. The HDM commit's limit and its failing case follow log entry 39, the CXL opcodes log entry 10. -/
theorem hostLink : Obligations.HostLink := by
  refine ⟨?perst, ?perstReleased, ?training, ?commit, ?uncommit, ?cxl, ?keyProg, ?setGo, ?unmask⟩
  case perst =>
    intro s
    have hkeeps := s.perstAsserted_mailboxesOnly
    have hhost := hkeeps.host
    refine ⟨s.perstAsserted, rfl, ?_⟩
    dsimp only
    rw [hhost]
    refine ⟨rfl, rfl, rfl, rfl, rfl, rfl, rfl, rfl, rfl, fun m hm => ?_, ?_, hkeeps.atolls, hkeeps.parts, hkeeps.mem⟩
    · rw [s.perstAsserted_mbox, if_pos hm]
      exact ⟨rfl, rfl, rfl, rfl, rfl, rfl⟩
    · exact s.perstAsserted_mbox 33
  case perstReleased =>
    intro s
    exact ⟨_, rfl, rfl⟩
  case training =>
    intro rate width s hpower hfrozen hperst hregion
    refine ⟨_, rfl, fun hw => ?_, fun h16 h8 h4 => ?_⟩
    · rw [if_pos (by simp [hw, hpower, hfrozen, hperst, hregion])]
      rfl
    · rw [if_neg (by simp [h16, h8, h4])]
      rfl
  case commit =>
    intro base k ways gran s hup hperst hfree hways hgran hk hbase
    refine ⟨_, execHdmDecoderCommit_eq hup hperst hfree hways hgran hk hbase, fun hfits => ?_, fun hlarge => if_pos hlarge⟩
    rw [if_neg (Nat.not_lt.2 hfits)]
    exact ⟨rfl, rfl, rfl, rfl, rfl⟩
  case uncommit =>
    intro base size ways gran s hup hperst
    exact ⟨_, rfl, by simp [hup, hperst, State.modHost]⟩
  case cxl =>
    intro op payload s hup hperst hpower hfrozen
    have hopen : ¬ (¬ s.host.linkUp = true ∨ s.host.perst = true ∨ ¬ s.life.powered = true ∨ s.life.frozen = true) := by
      simp [hup, hperst, hpower, hfrozen]
    refine ⟨_, rfl, fun hop => ?_, fun hop => ?_⟩
    · rw [if_neg hopen, if_pos (by simpa using hop)]
      rfl
    · rw [if_neg hopen, if_neg (by simpa using hop)]
      exact ⟨_, rfl⟩
  case keyProg =>
    intro x slot key s hhub hx hfin
    have hses := SpdmSession.any_finished hx hfin
    refine ⟨_, rfl, ?_⟩
    rw [if_neg (by simp [hhub, hses])]
    obtain ⟨hmem, honly⟩ := ideKeys_programmed s.host.ideKeys x.id slot.toNat key
    exact ⟨hmem, honly, rfl⟩
  case setGo =>
    intro x slot s hhub hx hfin hkey
    have hses := SpdmSession.any_finished hx hfin
    have hhas : s.host.ideKeys.any (fun k => k.2.1 == slot.toNat) = true := by simpa using hkey
    refine ⟨_, rfl, ?_⟩
    rw [if_neg (by simp [hhub, hses])]
    dsimp only
    rw [if_pos hhas]
    exact ⟨Tbl.get?_set_self .., rfl⟩
  case unmask =>
    intro v s hup hperst henable hmask hfrozen hpending
    have hunmasked := s.unmask_mem v
    have hsent := State.sendPending_one (s := s.unmask v) hup hperst henable hmask hfrozen hpending hunmasked
    exact ⟨_, (execMsixVectorUnmask_vector v hup hperst).trans (congrArg Host.Outcome.next hsent), hunmasked, rfl, rfl⟩

end Sys2Proof.Machine
end

section
/-! SUPPORT. The lifecycle and the queue of a step (11 R286, 14 R348, 15 R380, 19 R431): each shared operation that moves the
lifecycle keeps its coherence and the queue, then each row does. -/

namespace Sys2Proof.Machine

/-! ### Coherent spines -/

/-- What `State.lifeOk` says, of the lifecycle alone. -/
def LifeSt.coherent (l : LifeSt) : Prop :=
  (l.state = .off ∨ l.state = .tripped → l.powered = false) ∧
  (l.powered = false → l.state = .off ∨ l.state = .tripped ∨ l.state = .stopped) ∧ l.activeHub ≤ 1

theorem lifeOk_iff (s : State) : s.lifeOk ↔ s.spine.2.2.coherent := Iff.rfl

/-- The queue of a spine, and the fields of its lifecycle that coherence speaks of. -/
def lifeKeyOf (x : List Instr × DWord × LifeSt) : List Instr × LifeState × Bool × Nat :=
  (x.1, x.2.2.state, x.2.2.powered, x.2.2.activeHub)

/-- Spine y has the queue of x and a coherent lifecycle if x has one. -/
def SpineOk (x y : List Instr × DWord × LifeSt) : Prop := y.1 = x.1 ∧ (x.2.2.coherent → y.2.2.coherent)

@[simp] theorem SpineOk.refl (x : List Instr × DWord × LifeSt) : SpineOk x x := ⟨rfl, id⟩

theorem SpineOk.trans {x y z : List Instr × DWord × LifeSt} (h : SpineOk x y) (k : SpineOk y z) : SpineOk x z :=
  ⟨k.1.trans h.1, k.2 ∘ h.2⟩

theorem SpineOk.of_life {s t : State} (hq : t.spine.1 = s.spine.1) (h : s.life.coherent → t.life.coherent) :
    SpineOk s.spine t.spine := ⟨hq, h⟩

theorem SpineOk.of_key {x y : List Instr × DWord × LifeSt} (h : lifeKeyOf y = lifeKeyOf x) : SpineOk x y := by
  simp only [lifeKeyOf, Prod.mk.injEq] at h
  obtain ⟨hq, hs, hp, ha⟩ := h
  exact ⟨hq, by simp [LifeSt.coherent, hs, hp, ha]⟩

theorem SpineOk.foldl {α : Type} (f : State → α → State) (l : List α) (s : State)
    (h : ∀ t x, SpineOk t.spine (f t x).spine) : SpineOk s.spine (l.foldl f s).spine := by
  induction l generalizing s with
  | nil => exact .refl _
  | cons x r ih => exact (h s x).trans (ih (f s x))

theorem lifeKeyOf_foldl {α : Type} (f : State → α → State) (l : List α) (s : State)
    (h : ∀ t x, lifeKeyOf (f t x).spine = lifeKeyOf t.spine) : lifeKeyOf (l.foldl f s).spine = lifeKeyOf s.spine := by
  induction l generalizing s with
  | nil => rfl
  | cons x r ih => exact (ih (f s x)).trans (h s x)

theorem powered_of_lifeKey {s t : State} (h : lifeKeyOf t.spine = lifeKeyOf s.spine) : t.life.powered = s.life.powered :=
  congrArg (fun k => k.2.2.1) h

/-- A coherent module in a state that is none of the three without power has power. -/
theorem LifeSt.coherent.powered {l : LifeSt} (h : l.coherent) (hs : l.state ≠ .off ∧ l.state ≠ .tripped ∧ l.state ≠ .stopped) :
    l.powered = true := by
  obtain ⟨-, hoff, -⟩ := h
  obtain ⟨h1, h2, h3⟩ := hs
  by_contra hp
  rcases hoff (by simpa using hp) with h | h | h <;> contradiction

/-- A powered lifecycle that is in none of the states without power is coherent. -/
theorem LifeSt.coherent_of_powered {l : LifeSt} (hp : l.powered = true) (h1 : l.state ≠ .off) (h2 : l.state ≠ .tripped)
    (ha : l.activeHub ≤ 1) : l.coherent := by
  refine ⟨fun h => ?_, fun h => ?_, ha⟩
  · rcases h with h | h <;> contradiction
  · simp [hp] at h

/-! ### Operations that leave queue, state, power and active hub -/

@[simp] theorem State.modLife_lifeKey (s : State) (f : LifeSt → LifeSt)
    (h : ∀ l, (f l).state = l.state ∧ (f l).powered = l.powered ∧ (f l).activeHub = l.activeHub) :
    lifeKeyOf (s.modLife f).spine = lifeKeyOf s.spine := by
  obtain ⟨hs, hp, ha⟩ := h s.life
  exact Prod.ext rfl (Prod.ext hs (Prod.ext hp ha))

@[simp] theorem State.hubLost_lifeKey (s : State) (h : Nat) : lifeKeyOf (s.hubLost h).spine = lifeKeyOf s.spine := by
  unfold State.hubLost
  split <;> simp

@[simp] theorem State.goDark_lifeKey (s : State) (key : Nat) (cls : Half) (seq : Word) (mark : RegionState) :
    lifeKeyOf (s.goDark key cls seq mark).spine = lifeKeyOf s.spine := by
  unfold State.goDark
  dsimp only
  (repeat' split) <;> simp

@[simp] theorem State.spreadFirmware_lifeKey (s : State) : lifeKeyOf s.spreadFirmware.spine = lifeKeyOf s.spine := rfl

@[simp] theorem State.ageingMargin_lifeKey (s : State) (key : Nat) :
    lifeKeyOf (s.ageingMargin key).spine = lifeKeyOf s.spine := by
  unfold State.ageingMargin
  dsimp only
  (repeat' split) <;> simp

@[simp] theorem State.replan_lifeKey (s : State) (key : Nat) : lifeKeyOf (s.replan key).spine = lifeKeyOf s.spine := by
  unfold State.replan
  dsimp only
  (repeat' split) <;> simp

@[simp] theorem State.patrolMargin_lifeKey (s : State) (g : Nat) (raised : PatrolResult) :
    lifeKeyOf (s.patrolMargin g raised).spine = lifeKeyOf s.spine := by
  unfold State.patrolMargin
  dsimp only
  split
  · rw [lifeKeyOf_foldl _ _ _ fun t k => t.replan_lifeKey k, State.modFlt_spine]
  · simp

/-! ### Operations that move the lifecycle -/

theorem State.unpowered_ok (s : State) : SpineOk s.spine s.unpowered.spine :=
  ⟨rfl, fun _ => ⟨fun _ => rfl, fun _ => .inl rfl, Nat.zero_le 1⟩⟩

theorem State.tripOff_ok (s : State) (cause : Nat) : SpineOk s.spine (s.tripOff cause).spine :=
  ⟨rfl, fun _ => ⟨fun _ => rfl, fun _ => .inr (.inl rfl), Nat.zero_le 1⟩⟩

/-- A module reset that begins keeps the active hub and the power, in state moduleReset. -/
theorem State.beginModuleReset_life (s : State) : s.beginModuleReset.life.state = .moduleReset ∧
    s.beginModuleReset.life.powered = s.life.powered ∧ s.beginModuleReset.life.activeHub = s.life.activeHub := by
  unfold State.beginModuleReset
  dsimp only
  rw [State.modFlt_life]
  split
  · rw [State.life_of_spine (State.retrainAll_spine _)]
    exact ⟨rfl, rfl, rfl⟩
  · exact ⟨rfl, rfl, rfl⟩

theorem State.beginModuleReset_ok (s : State) (hp : s.life.powered = true) :
    SpineOk s.spine s.beginModuleReset.spine := by
  obtain ⟨hs, hpow, ha⟩ := s.beginModuleReset_life
  refine .of_life s.beginModuleReset_queue fun h => LifeSt.coherent_of_powered (hpow.trans hp) ?_ ?_ (ha.le.trans h.2.2)
  · simp [hs]
  · simp [hs]

/-- After the choice of the hub the power is as it was, the active hub is 0 or 1, and the state is as it was or one of the two
that no usable hub leaves (14 R350, R351). -/
theorem State.bootHubs_life (s : State) (t : BringUp) : (s.bootHubs t).life.powered = s.life.powered ∧
    (s.bootHubs t).life.activeHub ≤ 1 ∧ ((s.bootHubs t).life.state = s.life.state ∨
      (s.bootHubs t).life.state = .recovery ∨ (s.bootHubs t).life.state = .noProcessor) := by
  unfold State.bootHubs
  extract_lets s1 s2 a b s3 any_
  have h1 : s1.spine = s.spine := State.spine_foldl _ _ _ fun x k => State.testProcessor_spine _ _ _ _
  have h2 : s2.life = s.life := State.life_of_spine (by simp only [s2, State.bootFw_spine, h1])
  have h3 : s3.life.powered = s.life.powered ∧ s3.life.activeHub ≤ 1 ∧ s3.life.state = s.life.state := by
    simp only [s3, State.modLife_life, h2]
    refine ⟨trivial, ?_, trivial⟩
    (repeat' split) <;> simp
  obtain ⟨hp, ha, hs⟩ := h3
  split
  · rw [State.modFw_life, State.life_of_spine (State.noteTrip_spine s3)]
    exact ⟨hp, ha, .inl hs⟩
  · rw [State.modFlt_life, State.modLife_life]
    refine ⟨hp, ha, .inr ?_⟩
    dsimp only
    split <;> simp

theorem State.bootHubs_ok (s : State) (t : BringUp) (hp : s.life.powered = true) : SpineOk s.spine (s.bootHubs t).spine := by
  obtain ⟨hpow, ha, hs⟩ := s.bootHubs_life t
  refine .of_life (s.bootHubs_queue t) fun h => ?_
  obtain ⟨hoff, htrip⟩ : s.life.state ≠ .off ∧ s.life.state ≠ .tripped := by
    have := h.1
    simp_all
  refine LifeSt.coherent_of_powered (hpow.trans hp) ?_ ?_ ha
  · rcases hs with hs | hs | hs <;> simp [hs, hoff]
  · rcases hs with hs | hs | hs <;> simp [hs, htrip]

theorem State.powerOn_ok (s : State) (t : BringUp) : SpineOk s.spine (s.powerOn t).spine := by
  unfold State.powerOn
  have hup : SpineOk s.spine s.powerUp.spine :=
    .of_life rfl fun _ => LifeSt.coherent_of_powered rfl (by simp [State.powerUp]) (by simp [State.powerUp]) (Nat.zero_le 1)
  dsimp only
  split
  · exact hup
  · exact (hup.trans (.of_key (by simp))).trans (State.bootHubs_ok _ t rfl)

theorem State.swapHub_ok (s : State) (h : Nat) (hh : h ≤ 1) : SpineOk s.spine (s.swapHub h).spine :=
  ⟨rfl, fun k => ⟨k.1, k.2.1, hh⟩⟩

/-- A bus converter too few trips the module; any other lost phase leaves the lifecycle (15 R370, R382). -/
theorem State.losePhase_ok (s : State) (key phase : Nat) (cls : Half) (seq : Word) :
    SpineOk s.spine (s.losePhase key phase cls seq).spine := by
  unfold State.losePhase
  dsimp only
  split
  · split
    · simpa using State.tripOff_ok (s.modPower _) 0
    · simp
  · split
    · exact .of_key (by simp)
    · simp

theorem State.contain_ok (s : State) (u : Word) (cls : Half) (seq : Word) : SpineOk s.spine (s.contain u cls seq).spine := by
  unfold State.contain
  dsimp only
  split
  · exact s.losePhase_ok _ _ _ _
  · refine .of_key ?_
    (repeat' split) <;> simp

theorem State.containAs_ok (s : State) (u : Word) (cls : Half) (seq : Word) (source : BitVec 2) :
    SpineOk s.spine (s.containAs u cls seq source).spine := by
  unfold State.containAs
  rw [State.modFlt_spine]
  exact s.contain_ok _ _ _

theorem State.raise_contain_ok (s : State) (r : RecIn) (u : Word) (cls : Half) (seq : Word) :
    SpineOk s.spine ((s.raise r).contain u cls seq).spine := by
  simpa using (s.raise r).contain_ok u cls seq

theorem State.failTest_ok (s : State) (u : Word) (cls : Half) : SpineOk s.spine (s.failTest u cls).spine := by
  unfold State.failTest
  dsimp only
  split
  · exact .refl _
  split
  · split <;> simp
  · exact s.raise_contain_ok _ _ _ _

/-- The containment of a unit that is neither a phase nor a hub leaves the spine. -/
theorem State.contain_spine (s : State) (u : Word) (cls : Half) (seq : Word) (h14 : uKind u ≠ 14) (h13 : uKind u ≠ 13)
    (h0 : uKind u ≠ 0) : (s.contain u cls seq).spine = s.spine := by
  unfold State.contain
  dsimp only
  rw [if_neg h14]
  simp only [h13, h0, false_and, or_self, if_false]
  (repeat' split) <;> simp

theorem uKind_mkUnit (dieKind die half site kind index sub : Nat) (hk : kind < 16) (hi : index < 16) (hs : sub < 1024) : uKind (mkUnit dieKind die half site kind index sub) = kind := by
  simp only [uKind, mkUnit, bits, BitVec.toNat_ofNat]
  omega

theorem managerUnit_kind (n : Nat) : uKind (managerUnit n) = 13 := by
  unfold managerUnit shoalUnit straitUnit
  (repeat' split) <;> exact uKind_mkUnit _ _ _ _ _ _ _ (by omega) (by omega) (by omega)

theorem atollUnit_kind (g kind index sub : Nat) (hk : kind < 16) (hi : index < 16) (hs : sub < 1024) :
    uKind (atollUnit g kind index sub) = kind :=
  uKind_mkUnit _ _ _ _ _ _ _ hk hi hs

/-- A failing test of a manager core or of a unit that is neither a phase nor a hub leaves the spine. -/
theorem State.failTest_spine (s : State) (u : Word) (cls : Half) (h14 : uKind u ≠ 14) (h0 : uKind u ≠ 0) :
    (s.failTest u cls).spine = s.spine := by
  unfold State.failTest
  dsimp only
  split
  · rfl
  split
  · split <;> simp
  · rename_i h13
    rw [State.contain_spine _ _ _ _ h14 h13 h0, State.raise_spine]

/-- The cores that took no image are manager cores and scalar cores: their loss leaves the spine (14 R352). -/
theorem State.failCores_spine (s : State) : s.failCores.spine = s.spine := by
  unfold State.failCores
  refine State.spine_foldl _ _ _ fun t e => ?_
  split
  · rfl
  split
  · exact t.failTest_spine _ _ (by simp [managerUnit_kind]) (by simp [managerUnit_kind])
  · have hk : uKind (atollUnit ((e.1 - 32) / 2) 3 15 0x3FF) = 3 := atollUnit_kind _ _ _ _ (by omega) (by omega) (by omega)
    exact t.failTest_spine _ _ (by simp [hk]) (by simp [hk])

theorem State.patrolFail_ok (s : State) (u : Word) (test word expected observed : Nat) (full : Bool) :
    SpineOk s.spine (s.patrolFail u test word expected observed full).spine := by
  unfold State.patrolFail
  dsimp only
  split
  · rw [State.suspect_spine]
    exact s.raise_contain_ok _ _ _ _
  · exact s.raise_contain_ok _ _ _ _

theorem State.microtest_ok (s : State) (u : Word) (test : Nat) (r : PatrolResult) :
    SpineOk s.spine (s.microtest u test r).spine := by
  unfold State.microtest
  split
  · simp
  · exact s.patrolFail_ok _ _ _ _ _ _

/-- The lifecycle at the end of a timeline that kept its power: the decided state, with the power that the tests left. -/
theorem State.modLife_decided_ok (s : State) (st : LifeState) (f : LifeSt → LifeSt) (hp : s.life.powered = true)
    (hoff : st ≠ .off) (htrip : st ≠ .tripped)
    (hf : ∀ l, (f l).state = st ∧ (f l).powered = l.powered ∧ (f l).activeHub = l.activeHub) :
    SpineOk s.spine (s.modLife f).spine := by
  obtain ⟨hs, hpow, ha⟩ := hf s.life
  refine ⟨rfl, fun h => LifeSt.coherent_of_powered (hpow.trans hp) ?_ ?_ (ha.le.trans h.2.2)⟩
  · exact fun e => hoff (hs.symm.trans e)
  · exact fun e => htrip (hs.symm.trans e)

theorem State.modLife_powered (s : State) (f : LifeSt → LifeSt) (h : ∀ l, (f l).powered = l.powered) :
    (s.modLife f).life.powered = s.life.powered := h s.life

theorem State.endTimeline_ok (s : State) (t : BringUp) : SpineOk s.spine (s.endTimeline t).spine := by
  unfold State.endTimeline
  extract_lets fresh s1 k s2 s3 s4 s5 s6 st s7 s8 s9
  have h1 : s1.spine = s.spine := by
    unfold s1
    simp
  have hk : SpineOk s1.spine k.spine := by
    refine SpineOk.foldl _ _ _ fun x e => ?_
    split
    · exact x.failTest_ok _ _
    · exact .refl _
  rw [h1] at hk
  clear_value k
  split
  · exact hk
  rename_i hpow
  have hpow : k.life.powered = true := by simpa using hpow
  have h3 : s3.spine = k.spine := by
    unfold s3
    rw [State.spine_foldl _ _ _ fun x e => State.modShoal_spine _ _ _]
    exact k.failCores_spine
  have h4 : s4.spine = k.spine := by
    unfold s4
    rw [State.raisedRuns_spine, State.testLinks_spine, State.testChannels_spine, h3]
  have h6 : lifeKeyOf s6.spine = lifeKeyOf k.spine := by
    unfold s6 s5
    rw [State.modNet_spine, State.spreadFirmware_lifeKey, State.stampPatrols_spine, h4]
  clear_value s6
  have hp6 : s6.life.powered = true := (powered_of_lifeKey h6).trans hpow
  have h7 : SpineOk s6.spine s7.spine := by
    refine s6.modLife_decided_ok st _ hp6 ?_ ?_ fun l => ⟨rfl, rfl, rfl⟩
    all_goals
      unfold st
      (repeat' split) <;> simp
  have hp7 : s7.life.powered = s6.life.powered := s6.modLife_powered _ fun _ => rfl
  clear_value s7
  have h9 : s9.spine = s7.spine := by
    unfold s9 s8
    rw [State.postEvent_spine, State.modFlt_spine]
  have hp9 : s9.life.powered = true := by
    rw [State.life_of_spine h9]
    exact hp7.trans hp6
  have hall : SpineOk s.spine s9.spine := by
    rw [h9]
    exact (hk.trans (.of_key h6)).trans h7
  split
  · exact hall
  split
  · exact hall.trans (s9.beginModuleReset_ok hp9)
  · rw [State.askReset_spine, State.modMgmt_spine]
    exact hall

/-! ### Rows that move the lifecycle -/

/-- A row answers a next state with the queue of s, and a coherent lifecycle if s has one. -/
def KeepsLife (s : State) (o : Host.Outcome State Fault Refusal) : Prop := ∃ t, o = .next t ∧ SpineOk s.spine t.spine

theorem keepsLife_next {s t : State} (h : SpineOk s.spine t.spine) : KeepsLife s (.next t) := ⟨t, rfl, h⟩

theorem keepsLife_of_lifeKey {s t : State} (h : lifeKeyOf t.spine = lifeKeyOf s.spine) : KeepsLife s (.next t) :=
  keepsLife_next (.of_key h)

theorem KeepsSpine.keepsLife {s : State} {o : Host.Outcome State Fault Refusal} (h : KeepsSpine s o) : KeepsLife s o := by
  obtain ⟨t, e, k⟩ := h
  exact ⟨t, e, by rw [k]; exact .refl _⟩

theorem State.mbRow_keepsLife (s : State) (m op : Nat) (go : MbCmd → State) (h : ∀ c, SpineOk s.spine (go c).spine) :
    KeepsLife s (s.mbRow m op go) := by
  refine keepsLife_next ?_
  split
  · exact .refl _
  · exact h _

theorem State.mbLong_lifeKey (s : State) (m : Nat) (c : MbCmd) (go : State → MbCmd → State)
    (h : ∀ t d, lifeKeyOf (go t d).spine = lifeKeyOf t.spine) : lifeKeyOf (s.mbLong m c go).spine = lifeKeyOf s.spine := by
  unfold State.mbLong
  dsimp only
  split
  · simp
  · rw [h, State.mbFin_spine, State.modMbox_spine]

theorem execPhaseLoss_keepsLife (node r phase) (s : State) : KeepsLife s (execPhaseLoss node r phase s) := by
  refine keepsLife_next ?_
  dsimp only
  split
  · exact .refl _
  · simpa using State.losePhase_ok (s.raise _) _ _ _ _

theorem execThermalTrip_keepsLife (s : State) : KeepsLife s (execThermalTrip s) := by
  refine keepsLife_next ?_
  split
  · exact s.tripOff_ok 0
  · exact .refl _

theorem execDroopSignature_keepsLife (node r before after) (s : State) :
    KeepsLife s (execDroopSignature node r before after s) := by
  refine keepsLife_of_lifeKey ?_
  dsimp only
  (repeat' split) <;> simp

theorem execBusConverterLoss_keepsLife (c) (s : State) : KeepsLife s (execBusConverterLoss c s) := by
  refine keepsLife_next ?_
  split
  · exact .refl _
  · simpa using State.losePhase_ok (s.raise _) _ _ _ _

theorem execAgeingReplan_keepsLife (s : State) : KeepsLife s (execAgeingReplan s) := by
  refine keepsLife_of_lifeKey ?_
  split
  · exact lifeKeyOf_foldl _ _ _ fun t k => t.replan_lifeKey k
  · rfl

theorem execModuleIdSet_keepsLife (m) (s : State) : KeepsLife s (execModuleIdSet m s) := by
  refine s.mbRow_keepsLife _ _ _ fun c => .of_key ?_
  dsimp only
  (repeat' split) <;> simp

/-- Lost oscillators stop a powered module (07 R187). -/
theorem execOscillatorsLost_keepsLife (s : State) : KeepsLife s (execOscillatorsLost s) := by
  refine keepsLife_next ?_
  split
  · exact .refl _
  · rename_i hp
    exact (s.modNet _).modLife_decided_ok .stopped _ (by simpa using hp) (by simp) (by simp) fun l => ⟨rfl, rfl, rfl⟩

theorem execGapPatrolMicrotest_keepsLife (unit test r) (s : State) : KeepsLife s (execGapPatrolMicrotest unit test r s) := by
  refine keepsLife_next ?_
  split
  · exact s.microtest_ok _ _ _
  · exact .refl _

theorem execGapPatrolForcedSlot_keepsLife (unit test r) (s : State) : KeepsLife s (execGapPatrolForcedSlot unit test r s) := by
  refine keepsLife_next ?_
  split
  · exact s.microtest_ok _ _ _
  · exact .refl _

theorem execFullPatrolComplete_keepsLife (g atStep raised) (s : State) :
    KeepsLife s (execFullPatrolComplete g atStep raised s) := by
  refine keepsLife_next ?_
  split
  · exact .refl _
  extract_lets s1
  have h1 : s1.spine = s.spine := by
    unfold s1
    simp
  split
  · rename_i s2 _
    have h2 : s2.spine = s.spine := (s1.modAtoll_spine _ _).trans h1
    exact .of_key (by simp [h2])
  · rw [State.modFlt_spine, ← h1]
    exact s1.patrolFail_ok _ _ _ _ _ _

theorem execBlockWatchdog_keepsLife (unit) (s : State) : KeepsLife s (execBlockWatchdog unit s) := by
  refine keepsLife_next ?_
  extract_lets cur busy
  split
  · exact .refl _
  · exact s.raise_contain_ok _ _ _ _

theorem execVectorEngineWatchdog_keepsLife (g w) (s : State) : KeepsLife s (execVectorEngineWatchdog g w s) := by
  refine keepsLife_next ?_
  split
  · exact .refl _
  split
  · split <;> simp
  split
  · exact .refl _
  split
  · exact .refl _
  · exact s.raise_contain_ok _ _ _ _

theorem execHubLiveness_keepsLife (h) (s : State) : KeepsLife s (execHubLiveness h s) := by
  refine keepsLife_of_lifeKey ?_
  split <;> simp

theorem execHubWatchdog_keepsLife (h) (s : State) : KeepsLife s (execHubWatchdog h s) := by
  refine keepsLife_of_lifeKey ?_
  (repeat' split) <;> simp

theorem execHubFailover_keepsLife (s : State) : KeepsLife s (execHubFailover s) := by
  refine keepsLife_next ?_
  extract_lets old live u cls seq s1 s2 s3
  split
  · exact .refl _
  have h1 : SpineOk s.spine s1.spine := .of_key (by simp [s1])
  have h2 : SpineOk s1.spine s2.spine := by
    simpa [s2] using s1.swapHub_ok (1 - old) (Nat.sub_le 1 old)
  have h3 : s3.spine = s2.spine := State.spine_foldl _ _ _ fun t e => by split <;> simp
  rw [State.noteChange_spine, State.escalate_spine, h3]
  exact h1.trans h2

theorem execBothHubsLost_keepsLife (s : State) : KeepsLife s (execBothHubsLost s) := by
  refine keepsLife_of_lifeKey ?_
  dsimp only
  split <;> simp

theorem execUnitFence_keepsLife (m) (s : State) : KeepsLife s (execUnitFence m s) := by
  refine s.mbRow_keepsLife _ _ _ fun c => ?_
  rw [State.mbEnd_spine]
  split
  · exact .refl _
  · exact s.containAs_ok _ _ _ _

theorem execInputOvervoltage_keepsLife (s : State) : KeepsLife s (execInputOvervoltage s) := by
  refine keepsLife_next ?_
  split
  · exact .refl _
  · exact s.tripOff_ok 1

theorem execPowerOn_keepsLife (b) (s : State) : KeepsLife s (execPowerOn b s) := by
  refine keepsLife_next ?_
  split
  · exact s.powerOn_ok b
  · exact .refl _

theorem execModuleReset_keepsLife (tests) (s : State) : KeepsLife s (execModuleReset tests s) := by
  refine keepsLife_next ?_
  split
  · exact .refl _
  extract_lets dumping t
  split
  · exact .refl _
  rename_i counted _ _ hgo
  have hp : (s.countReset counted).life.powered = true := by
    rw [State.life_of_spine (s.countReset_spine counted)]
    by_contra h
    exact hgo (.inl h)
  have hpt : t.life.powered = true := (State.beginModuleReset_life _).2.1.trans hp
  have ht : SpineOk s.spine t.spine := by
    simpa [t] using (s.countReset counted).beginModuleReset_ok hp
  split
  · exact ht
  · exact ht.trans (t.bootHubs_ok tests hpt)

theorem execBringupStateDecision_keepsLife (s : State) : KeepsLife s (execBringupStateDecision s) := by
  refine keepsLife_next ?_
  split
  · exact .refl _
  dsimp only
  split
  · exact .refl _
  · exact s.endTimeline_ok _

theorem execStandbyImageSync_keepsLife (s : State) : KeepsLife s (execStandbyImageSync s) := by
  refine keepsLife_of_lifeKey ?_
  dsimp only
  split <;> simp

theorem execModResetNFall_keepsLife (s : State) : KeepsLife s (execModResetNFall s) := by
  refine keepsLife_next ?_
  extract_lets s1 going
  split
  · simp [s1]
  rename_i h
  have hp : s1.life.powered = true := by
    by_contra hp
    exact h (.inr (.inl hp))
  split
  · simp [s1]
  · simpa [s1] using s1.beginModuleReset_ok hp

/-- The rise of MOD_RESET_N ends a cold reset, or starts the timeline of a module that has power (19 R440, R441). -/
theorem execModResetNRise_keepsLife (b) (s : State) : KeepsLife s (execModResetNRise b s) := by
  refine keepsLife_next ?_
  extract_lets s1
  have h1 : s1.spine = s.spine := s.modMgmt_spine _
  rw [← h1]
  split
  · split
    · exact .refl _
    · exact s1.powerOn_ok b
  split
  · exact .refl _
  split
  · rename_i hst
    refine .of_life (by simp) fun h => ?_
    have hp : s1.life.powered = true := h.powered (by simp [s1, hst])
    have hstrap : SpineOk s1.spine (s1.modLife fun l => { l with strap := b.strap }).spine := .of_key (by simp)
    exact (hstrap.trans (State.bootHubs_ok _ b hp)).2 h
  split
  · rename_i hst
    refine .of_life (by simp) fun h => ?_
    exact (s1.bootHubs_ok b (h.powered (by simp [s1, hst]))).2 h
  · exact .refl _

theorem execColdResetRequest_keepsLife (s : State) : KeepsLife s (execColdResetRequest s) := by
  refine keepsLife_next ?_
  split
  · exact .refl _
  · exact .of_life rfl fun _ => ⟨fun _ => rfl, fun _ => .inr (.inr rfl), Nat.zero_le 1⟩

theorem execFwActivateHitless_keepsLife (m) (s : State) : KeepsLife s (execFwActivateHitless m s) := by
  refine keepsLife_of_lifeKey ?_
  dsimp only
  (repeat' split) <;> simp [State.mbLong_lifeKey]

theorem execStandbyMirrorReady_keepsLife (s : State) : KeepsLife s (execStandbyMirrorReady s) := by
  refine keepsLife_of_lifeKey ?_
  dsimp only
  (repeat' split) <;> simp

theorem execHandover_keepsLife (s : State) : KeepsLife s (execHandover s) := by
  refine keepsLife_next ?_
  dsimp only
  split
  · exact .refl _
  split
  · exact .refl _
  · rw [State.noteChange_spine, State.modFw_spine, State.spine_foldl _ _ _ fun t h => State.modFwHub_spine _ _ _]
    exact s.swapHub_ok _ (Nat.sub_le 1 _)

theorem execFreeze_keepsLife (noticeFirst) (s : State) : KeepsLife s (execFreeze noticeFirst s) := by
  refine keepsLife_of_lifeKey ?_
  dsimp only
  split <;> simp

/-- Every row but the register write: it keeps the spine, or moves the lifecycle as its lemma above says. -/
theorem exec_keepsLife {i : Instr} (s : State) (hr : ∀ r v, i ≠ .registerWrite r v) : KeepsLife s (exec i s) := by
  by_cases hm : movesLife i = false
  · exact (exec_keepsSpine i s hm).keepsLife
  cases i with
  | oscillatorsLost => exact execOscillatorsLost_keepsLife s
  | gapPatrolMicrotest unit test r => exact execGapPatrolMicrotest_keepsLife unit test r s
  | gapPatrolForcedSlot unit test r => exact execGapPatrolForcedSlot_keepsLife unit test r s
  | fullPatrolComplete g atStep raised => exact execFullPatrolComplete_keepsLife g atStep raised s
  | vectorEngineWatchdog g w => exact execVectorEngineWatchdog_keepsLife g w s
  | blockWatchdog unit => exact execBlockWatchdog_keepsLife unit s
  | hubLiveness h => exact execHubLiveness_keepsLife h s
  | hubWatchdog h => exact execHubWatchdog_keepsLife h s
  | hubFailover => exact execHubFailover_keepsLife s
  | bothHubsLost => exact execBothHubsLost_keepsLife s
  | moduleReset tests => exact execModuleReset_keepsLife tests s
  | unitFence m => exact execUnitFence_keepsLife m s
  | moduleIdSet m => exact execModuleIdSet_keepsLife m s
  | powerOn b => exact execPowerOn_keepsLife b s
  | bringupStateDecision => exact execBringupStateDecision_keepsLife s
  | standbyImageSync => exact execStandbyImageSync_keepsLife s
  | phaseLoss node r phase => exact execPhaseLoss_keepsLife node r phase s
  | thermalTrip => exact execThermalTrip_keepsLife s
  | droopSignature node r before after => exact execDroopSignature_keepsLife node r before after s
  | busConverterLoss c => exact execBusConverterLoss_keepsLife c s
  | ageingReplan => exact execAgeingReplan_keepsLife s
  | fwActivateHitless m => exact execFwActivateHitless_keepsLife m s
  | handover => exact execHandover_keepsLife s
  | freeze noticeFirst => exact execFreeze_keepsLife noticeFirst s
  | inputUndervoltage => exact keepsLife_next s.unpowered_ok
  | inputOvervoltage => exact execInputOvervoltage_keepsLife s
  | modResetNFall => exact execModResetNFall_keepsLife s
  | modResetNRise b => exact execModResetNRise_keepsLife b s
  | coldResetRequest => exact execColdResetRequest_keepsLife s
  | standbyMirrorReady => exact execStandbyMirrorReady_keepsLife s
  | registerWrite r v => exact absurd rfl (hr r v)
  | _ => exact absurd rfl hm

/-- A command that answers a next state keeps the queue, and a coherent lifecycle. -/
theorem exec_spineOk {i : Instr} {s t : State} (h : exec i s = .next t) : SpineOk s.spine t.spine := by
  by_cases hr : ∃ r v, i = .registerWrite r v
  · obtain ⟨r, v, rfl⟩ := hr
    rw [execRegisterWrite_spine h]
    exact .refl _
  · obtain ⟨u, e, k⟩ := exec_keepsLife s fun r v hi => hr ⟨r, v, hi⟩
    rw [e] at h
    cases h
    exact k

theorem idleTick_spineOk (s : State) : SpineOk s.spine (idleTick s).spine := by
  unfold idleTick
  split
  · exact ⟨rfl, id⟩
  · exact .refl _

/-- A step takes the front command and keeps what is coherent. -/
theorem step_spineOk {s t : State} (h : step s = .next t) : SpineOk { s with pending := s.pending.tail }.spine t.spine := by
  rcases hp : s.pending with _ | ⟨c, rest⟩
  · rw [step_nil hp] at h
    cases h
    have e : { s with pending := ([] : List Instr).tail } = s := by rw [List.tail_nil, ← hp]
    rw [e]
    exact idleTick_spineOk s
  · rw [step_cons hp] at h
    exact exec_spineOk h

/-! ### The statements -/

/-- Settles O53: a step keeps a coherent lifecycle (`step_spineOk`). -/
theorem lifecycleStaysCoherent : Obligations.LifecycleStaysCoherent := by
  unfold Obligations.LifecycleStaysCoherent
  exact fun s t hs h => (step_spineOk h).2 hs

/-- Settles O51: a step leaves the rest of the queue (`step_spineOk`). -/
theorem queueIsTakenInOrder : Obligations.QueueIsTakenInOrder := by
  unfold Obligations.QueueIsTakenInOrder
  exact fun s t h => (step_spineOk h).1

/-- Settles O43: `step` on a queue with a front command. -/
theorem stepRunsCommand : Obligations.StepRunsCommand := by
  unfold Obligations.StepRunsCommand
  exact fun c rest s => step_cons rfl

/-- Settles O45: every row but the register write answers a next state (`exec_keepsLife`). -/
theorem everyOtherCommandCompletes : Obligations.EveryOtherCommandCompletes := by
  unfold Obligations.EveryOtherCommandCompletes
  intro c s hr
  obtain ⟨t, h, -⟩ := exec_keepsLife s hr
  exact ⟨t, h⟩

end Sys2Proof.Machine
end

section
/-! SUPPORT. Streams that a mailbox command opens, closes and resumes (13 R332, R344, R345). -/

namespace Sys2Proof.Machine

/-! ### Streams of a partition -/

/-- The retirement of a stream outside a step sets `retired` alone (13 R340). -/
theorem Part.retire_stream_self (x : Part) (st : Nat) : ∃ r, (x.retire st).stream st = { x.stream st with retired := r } := by
  unfold Part.retire
  split
  · exact ⟨_, rfl⟩
  · exact ⟨_, Part.modStream_stream ..⟩

theorem Part.retire_stream_ne (x : Part) {st k : Nat} (h : k ≠ st) : (x.retire st).stream k = x.stream k := by
  unfold Part.retire
  split
  · rfl
  · exact x.modStream_stream_ne _ h

/-- A partition whose stream goes on at an index (13 R344). -/
def Part.resumeAt (x : Part) (st i : Nat) : Part :=
  (x.modStream st fun q => { q with
    stopped := false, fetched := i, done := i, waiting := [], finished := [], status := 0, causeKind := 0, stoppedAt := 0,
    fieldOffset := 0xFFFF, cause := 0, unitWord := 0, statusDue := true }).retire st

theorem Part.resumeAt_stream_self (x : Part) (st i : Nat) : ∃ r, (x.resumeAt st i).stream st = { x.stream st with
    stopped := false, fetched := i, done := i, waiting := [], finished := [], status := 0, causeKind := 0, stoppedAt := 0,
    fieldOffset := 0xFFFF, cause := 0, unitWord := 0, statusDue := true, retired := r } := by
  obtain ⟨r, h⟩ := Part.retire_stream_self (x.modStream st _) st
  rw [Part.modStream_stream] at h
  exact ⟨r, h⟩

theorem Part.resumeAt_stream_ne (x : Part) {st k : Nat} (i : Nat) (h : k ≠ st) : (x.resumeAt st i).stream k = x.stream k :=
  (Part.retire_stream_ne _ h).trans (x.modStream_stream_ne _ h)

/-- The stream that a STREAM_OPEN with slot image r opens (13 R332). -/
def Stream.opened (r : BitVec 2048) : Stream :=
  { Stream.reset with
    open_ := true, ringHost := flag r 17 0, statusHost := flag r 17 1, sizeLog2 := fld r 18 0 5,
    ring := BitVec.ofNat 64 (fld r 24 0 64), statusAddr := BitVec.ofNat 64 (fld r 32 0 64), fetched := fld r 40 0 32,
    done := fld r 40 0 32, retired := fld r 40 0 32, statusDue := true }

/-- A partition with that stream; while a step is open its index is the recorded one (R338). -/
def Part.openStream (x : Part) (r : BitVec 2048) : Part :=
  { (x.modStream (fld r 16 0 2) fun _ => Stream.opened r) with
    start := x.start.map fun z => { z with indices := Tbl.set z.indices (fld r 16 0 2) (fld r 40 0 32) } }

theorem Part.openStream_stream_self (x : Part) (r : BitVec 2048) : (x.openStream r).stream (fld r 16 0 2) = Stream.opened r :=
  x.modStream_stream (fld r 16 0 2) fun _ => Stream.opened r

theorem Part.openStream_stream_ne (x : Part) (r : BitVec 2048) {k : Nat} (h : k ≠ fld r 16 0 2) :
    (x.openStream r).stream k = x.stream k := x.modStream_stream_ne (fun _ => Stream.opened r) h

/-! ### A change of one partition, then the end of a command -/

theorem State.mailboxesOnly.part {s t : State} (h : s.mailboxesOnly t) (p : Nat) : t.part? p = s.part? p :=
  State.part?_congr h.parts p

theorem State.modPart_mbEnd_part {s : State} {p : Nat} {x : Part} (hx : s.part? p = some x) (f : Part → Part) (m : Nat) (c : MbCmd)
    (st off result : Nat) (data : List Byte) : ((s.modPart p f).mbEnd m c st off result data).part? p = some (f x) := by
  rw [(State.mbEnd_mailboxesOnly ..).part, State.modPart_part, hx]
  rfl

theorem State.modPart_mbEnd_answers (s : State) (p : Nat) (f : Part → Part) (m : Nat) (c : MbCmd) (st off result : Nat)
    (data : List Byte) : s.answers ((s.modPart p f).mbEnd m c st off result data) m c st off result data :=
  State.mbEnd_answers_of (State.modPart_mailboxes ..) m c st off result data

/-- What a change of one partition and the end of a command leave, with the partitions told of the state after both. -/
theorem State.modPart_mbEnd_only (s : State) (p : Nat) (f : Part → Part) (m : Nat) (c : MbCmd) (st off result : Nat)
    (data : List Byte) : (s.modPart p f).mbEnd m c st off result data = { s with
      mailboxes := ((s.modPart p f).mbEnd m c st off result data).mailboxes,
      parts := ((s.modPart p f).mbEnd m c st off result data).parts } := by
  have hparts : ((s.modPart p f).mbEnd m c st off result data).parts = (s.modPart p f).parts :=
    (State.mbEnd_mailboxesOnly ..).parts
  rw [hparts]
  exact s.modPart_mbEnd_frame p f m c st off result data

/-! ### The rows -/

section
variable {m : Fin 34} {c : MbCmd} {x : Part} {s : State} (hx : s.part? (mbPartition c.img) = some x)
include hx

theorem execStreamResume_resumes (hm : s.mbFirst m 0x305 c) (hopen : (x.stream (fld c.img 16 0 2)).open_ = true)
    (hstopped : (x.stream (fld c.img 16 0 2)).stopped = true) (hclosing : (x.stream (fld c.img 16 0 2)).closing = false) :
    execStreamResume m s = .next ((s.modPart (mbPartition c.img) fun z =>
      z.resumeAt (fld c.img 16 0 2) (fld c.img 20 0 32)).mbEnd m c mbDone) := by
  rw [execStreamResume, State.mbPartRow_first _ hm hx]
  dsimp only
  rw [if_neg (by simp [hopen, hstopped, hclosing])]
  rfl

theorem execStreamResume_running (hm : s.mbFirst m 0x305 c) (hrun : (x.stream (fld c.img 16 0 2)).stopped = false) :
    execStreamResume m s = .next (s.mbEnd m c mbNoResource) := by
  rw [execStreamResume, State.mbPartRow_first _ hm hx]
  dsimp only
  rw [if_pos (by simp [hrun])]

theorem execStreamOpen_opens (hm : s.mbFirst m 0x303 c) (hopen : (x.stream (fld c.img 16 0 2)).open_ = false)
    (hring : flag c.img 17 0 = true) (hline : flag c.img 17 1 = true) :
    execStreamOpen m s = .next ((s.modPart (mbPartition c.img) fun y => y.openStream c.img).mbEnd m c mbDone) := by
  rw [execStreamOpen, State.mbPartRow_first _ hm hx]
  dsimp only
  rw [if_neg (by simp [hopen]), if_neg (by simp [hring]), if_neg (by simp [hline])]
  rfl

theorem execStreamOpen_busy (hm : s.mbFirst m 0x303 c) (hopen : (x.stream (fld c.img 16 0 2)).open_ = true) :
    execStreamOpen m s = .next (s.mbEnd m c mbBusy) := by
  rw [execStreamOpen, State.mbPartRow_first _ hm hx]
  dsimp only
  rw [if_pos hopen]

end

/-- Settles O48: the resumed stream stands at the index with nothing waiting. -/
theorem streamResumeRule : Obligations.StreamResumeRule := by
  unfold Obligations.StreamResumeRule
  intro m c x s p st hm hx hopen hstopped hclosing
  obtain ⟨r, hself⟩ := x.resumeAt_stream_self st (fld c.img 20 0 32)
  refine ⟨_, execStreamResume_resumes hx hm hopen hstopped hclosing, State.modPart_mbEnd_answers .., _,
    State.modPart_mbEnd_part hx .., ?_⟩
  rw [hself]
  refine ⟨rfl, rfl, rfl, hopen, rfl, fun k hk => ?_⟩
  rw [x.resumeAt_stream_ne _ hk]
  exact ⟨rfl, rfl⟩

/-! ### STREAM_CLOSE -/

/-- What the end of a command leaves in its mailbox. -/
theorem State.mbEnd_mbox (s : State) (m : Nat) (c : MbCmd) (st off result : Nat) (data : List Byte) :
    ∃ fs, (s.mbEnd m c st off result data).mbox m = { s.mbox m with
      started := (s.mbox m).started.filter (·.order != c.order), running := (s.mbox m).running.filter (·.order != c.order),
      fin := (s.mbox m).fin ++ fs } := by
  unfold State.mbEnd State.mbFin
  split
  · exact ⟨[], by rw [State.modMbox_mbox, List.append_nil]⟩
  · exact ⟨_, by rw [State.modMbox_mbox, State.modMbox_mbox]⟩

/-- The end of another command leaves an accepted one running. -/
theorem State.mbTaken.mbEnd {s : State} {m : Nat} {c d : MbCmd} (h : s.mbTaken m c) (hd : c.order ≠ d.order) (st off result : Nat)
    (data : List Byte) : (s.mbEnd m d st off result data).mbTaken m c := by
  obtain ⟨hrun, hleft, hfin⟩ := h
  obtain ⟨fs, hbox⟩ := s.mbEnd_mbox m d st off result data
  unfold State.mbTaken
  rw [hbox]
  refine ⟨List.mem_filter.2 ⟨hrun, by simpa using hd⟩, fun x hx => hleft x (List.mem_filter.1 hx).1, fun hdis => ?_⟩
  obtain ⟨f, hf, hspec⟩ := hfin hdis
  exact ⟨f, List.mem_append_left _ hf, hspec⟩

theorem State.mbAccept_running (s : State) (m : Nat) (c : MbCmd) :
    ((s.mbAccept m c).mbox m).running = (s.mbox m).running ++ [{ c with accepted := true }] := by
  unfold State.mbAccept State.mbFin
  split
  · rw [State.modMbox_mbox]
  · rw [State.modMbox_mbox, State.modMbox_mbox]

theorem State.mbFirst.hubServes {s : State} {m op : Nat} {c : MbCmd} (h : s.mbFirst m op c) : s.hubServes = true := by
  by_contra hs
  simp [State.mbFirst, State.mbNext, hs] at h

/-- A stream that its close has closed. -/
def Stream.closed (y : Stream) : Stream := { y with open_ := false, closing := false, statusDue := true }

/-- A partition with that stream. -/
def Part.closeStream (x : Part) (st : Nat) : Part :=
  { x.modStream st Stream.closed with
    installer := x.installer.filter fun e => e.2.1 != st }

theorem Part.closeStream_stream_self (x : Part) (st : Nat) : (x.closeStream st).stream st = (x.stream st).closed :=
  x.modStream_stream st Stream.closed

theorem Part.closeStream_stream_ne (x : Part) {st k : Nat} (h : k ≠ st) : (x.closeStream st).stream k = x.stream k :=
  x.modStream_stream_ne Stream.closed h

theorem Part.closeStream_started (x : Part) (st k : Nat) : ((x.closeStream st).stream k).started = (x.stream k).started := by
  by_cases h : k = st
  · subst h
    rw [Part.closeStream_stream_self]
    rfl
  · rw [Part.closeStream_stream_ne _ h]

/-- One close of mailbox m, finished where its stream has no started command. -/
def State.settleStreamClose (m : Nat) (t : State) (c : MbCmd) : State :=
  match t.part? (mbPartition c.img) with
  | none => t.mbEnd m c mbNoResource
  | some x =>
    if (x.stream (fld c.img 16 0 2)).started.isEmpty then
      (t.modPart (mbPartition c.img) fun y => y.closeStream (fld c.img 16 0 2)).mbEnd m c mbDone
    else t

theorem State.settleStreamCloses_eq (s : State) (m : Nat) : s.settleStreamCloses m =
    ((s.mbox m).running.filter fun c => mbOp c.img == 0x304).foldl (State.settleStreamClose m) s := rfl

section
variable {t : State} {m : Nat} {c : MbCmd}

theorem State.settleStreamClose_absent (h : t.part? (mbPartition c.img) = none) :
    t.settleStreamClose m c = t.mbEnd m c mbNoResource := by
  simp only [State.settleStreamClose, h]

theorem State.settleStreamClose_idle {x : Part} (h : t.part? (mbPartition c.img) = some x)
    (hs : (x.stream (fld c.img 16 0 2)).started = []) : t.settleStreamClose m c =
      (t.modPart (mbPartition c.img) fun y => y.closeStream (fld c.img 16 0 2)).mbEnd m c mbDone := by
  simp only [State.settleStreamClose, h, hs, List.isEmpty_nil, if_true]

theorem State.settleStreamClose_busy {x : Part} (h : t.part? (mbPartition c.img) = some x)
    (hs : (x.stream (fld c.img 16 0 2)).started ≠ []) : t.settleStreamClose m c = t := by
  simp only [State.settleStreamClose, h, List.isEmpty_iff, hs, if_false]

end

/-- No close changes what a stream has started. -/
theorem State.settleStreamClose_started (t : State) (m : Nat) (c : MbCmd) (p st : Nat) :
    ((t.settleStreamClose m c).part? p).map (fun y => (y.stream st).started) =
      (t.part? p).map fun y => (y.stream st).started := by
  cases hx : t.part? (mbPartition c.img) with
  | none => rw [State.settleStreamClose_absent hx, (State.mbEnd_mailboxesOnly ..).part]
  | some x =>
    by_cases hs : (x.stream (fld c.img 16 0 2)).started = []
    · rw [State.settleStreamClose_idle hx hs, (State.mbEnd_mailboxesOnly ..).part]
      by_cases hp : p = mbPartition c.img
      · subst hp
        rw [State.modPart_part, Option.map_map]
        exact congrArg (Option.map · _) (funext fun y => y.closeStream_started _ st)
      · rw [State.modPart_part_ne _ _ hp]
    · rw [State.settleStreamClose_busy hx hs]

/-- While its stream has started commands, an accepted close runs on, whatever other closes end. -/
theorem State.settleStreamClose_keeps {t : State} {m : Nat} {c d : MbCmd} {y : Part} (ht : t.mbTaken m c)
    (hy : t.part? (mbPartition c.img) = some y) (hs : (y.stream (fld c.img 16 0 2)).started ≠ [])
    (hd : d.order ≠ c.order ∨ d.img = c.img) : (t.settleStreamClose m d).mbTaken m c ∧
      ∃ z, (t.settleStreamClose m d).part? (mbPartition c.img) = some z ∧
        z.stream (fld c.img 16 0 2) = y.stream (fld c.img 16 0 2) := by
  cases hx : t.part? (mbPartition d.img) with
  | none =>
    have hne : c.order ≠ d.order := by
      rintro h
      rcases hd with hd | hd
      · exact hd h.symm
      · rw [hd, hy] at hx
        cases hx
    rw [State.settleStreamClose_absent hx]
    exact ⟨ht.mbEnd hne .., y, by rw [(State.mbEnd_mailboxesOnly ..).part, hy], rfl⟩
  | some x =>
    by_cases he : (x.stream (fld d.img 16 0 2)).started = []
    · have hother : mbPartition d.img = mbPartition c.img → fld d.img 16 0 2 ≠ fld c.img 16 0 2 := by
        intro hp hst
        rw [hp, hy] at hx
        cases hx
        exact hs (hst ▸ he)
      have hne : c.order ≠ d.order := by
        rintro h
        rcases hd with hd | hd
        · exact hd h.symm
        · exact hother (by rw [hd]) (by rw [hd])
      rw [State.settleStreamClose_idle hx he]
      refine ⟨(ht.congr (State.modPart_mailboxes ..)).mbEnd hne .., ?_⟩
      rw [(State.mbEnd_mailboxesOnly ..).part]
      by_cases hp : mbPartition d.img = mbPartition c.img
      · rw [hp, State.modPart_part, hy]
        exact ⟨_, rfl, Part.closeStream_stream_ne _ (hother hp).symm⟩
      · exact ⟨y, (State.modPart_part_ne _ _ (Ne.symm hp)).trans hy, rfl⟩
    · rw [State.settleStreamClose_busy hx he]
      exact ⟨ht, y, hy, rfl⟩

theorem State.settleStreamClose_foldl_keeps {m : Nat} {c : MbCmd} (l : List MbCmd) (hl : ∀ d ∈ l, d.order ≠ c.order ∨ d.img = c.img)
    {t : State} {y : Part} (ht : t.mbTaken m c) (hy : t.part? (mbPartition c.img) = some y)
    (hs : (y.stream (fld c.img 16 0 2)).started ≠ []) : (l.foldl (State.settleStreamClose m) t).mbTaken m c ∧
      ∃ z, (l.foldl (State.settleStreamClose m) t).part? (mbPartition c.img) = some z ∧
        z.stream (fld c.img 16 0 2) = y.stream (fld c.img 16 0 2) := by
  induction l generalizing t y with
  | nil => exact ⟨ht, y, hy, rfl⟩
  | cons d l ih =>
    obtain ⟨ht', z, hz, hzy⟩ := State.settleStreamClose_keeps ht hy hs (hl d List.mem_cons_self)
    obtain ⟨ht'', w, hw, hwz⟩ := ih (fun e he => hl e (List.mem_cons_of_mem _ he)) ht' hz (by rwa [hzy])
    exact ⟨ht'', w, hw, hwz.trans hzy⟩

/-- A partition whose stream is closing: nothing waits, and what was started runs on. -/
def Part.closingStream (x : Part) (st : Nat) : Part := x.modStream st fun q => { q with closing := true, waiting := [] }

/-- The state after mailbox m accepted close c. -/
def State.closeAccepted (s : State) (m : Nat) (c : MbCmd) : State :=
  (s.mbAccept m c).modPart (mbPartition c.img) fun y => y.closingStream (fld c.img 16 0 2)

theorem execStreamClose_accepts {m : Fin 34} {c : MbCmd} {x : Part} {s : State} (hm : s.mbFirst m 0x304 c) (hroom : s.mbRoom m)
    (hx : s.part? (mbPartition c.img) = some x) (hopen : (x.stream (fld c.img 16 0 2)).open_ = true)
    (hbusy : ((s.mbOnPart (mbPartition c.img)).any fun e =>
      e.2.accepted && mbOp e.2.img == 0x304 && fld e.2.img 16 0 2 == fld c.img 16 0 2) = false) :
    execStreamClose m s = .next ((s.closeAccepted m c).settleStreamCloses m) := by
  have hlife : (s.closeAccepted m c).life = s.life := (State.modPart_life ..).trans (s.mbAccept_mailboxesOnly m c).life
  have hserves : (s.closeAccepted m c).hubServes = true := by
    have h := hm.hubServes
    unfold State.hubServes State.hubRuns State.hubRecovers at *
    rwa [hlife]
  have hlong := State.mbLong_accepts c (fun t _ => t.modPart (mbPartition c.img) fun y => y.modStream (fld c.img 16 0 2) fun q =>
    { q with closing := true, waiting := [] }) hroom
  unfold State.mbFirst at hm
  unfold execStreamClose
  simp only [hm, hx, hopen, hbusy, not_true_eq_false, Bool.false_eq_true, or_self, if_false, hlong]
  exact congrArg Host.Outcome.next (if_pos hserves)

theorem State.closeAccepted_part {s : State} {c : MbCmd} {x : Part} (m : Nat) (hx : s.part? (mbPartition c.img) = some x) :
    (s.closeAccepted m c).part? (mbPartition c.img) = some (x.closingStream (fld c.img 16 0 2)) := by
  rw [State.closeAccepted, State.modPart_part, (s.mbAccept_mailboxesOnly m c).part, hx]
  rfl

theorem State.closeAccepted_running {s : State} {m : Nat} {c : MbCmd} (hop : mbOp c.img = 0x304) :
    ((s.closeAccepted m c).mbox m).running.filter (fun d => mbOp d.img == 0x304) =
      ((s.mbox m).running.filter fun d => mbOp d.img == 0x304) ++ [{ c with accepted := true }] := by
  have hbox : (s.closeAccepted m c).mbox m = (s.mbAccept m c).mbox m := by
    unfold State.mbox
    rw [State.closeAccepted, State.modPart_mailboxes]
  rw [hbox, State.mbAccept_running, List.filter_append]
  simp [hop]

/-- With no started command the close completes, and its stream is closed (13 R332). -/
theorem State.closeAccepted_ends {s : State} {m : Nat} {c : MbCmd} {x : Part} (hop : mbOp c.img = 0x304)
    (hx : s.part? (mbPartition c.img) = some x) (hnone : (x.stream (fld c.img 16 0 2)).started = []) :
    ((s.closeAccepted m c).settleStreamCloses m).mbEnded m c mbDone ∧
      ∃ y, ((s.closeAccepted m c).settleStreamCloses m).part? (mbPartition c.img) = some y ∧
        (y.stream (fld c.img 16 0 2)).open_ = false ∧ (y.stream (fld c.img 16 0 2)).statusDue = true := by
  rw [State.settleStreamCloses_eq, State.closeAccepted_running hop, List.foldl_append, List.foldl_cons, List.foldl_nil]
  generalize hu : ((s.mbox m).running.filter fun d => mbOp d.img == 0x304).foldl (State.settleStreamClose m) (s.closeAccepted m c) = u
  have hstarted : (u.part? (mbPartition c.img)).map (fun y => (y.stream (fld c.img 16 0 2)).started) = some [] := by
    rw [← hu, State.foldl_keepsView (fun t => (t.part? (mbPartition c.img)).map fun y => (y.stream (fld c.img 16 0 2)).started) _
      (fun t d => t.settleStreamClose_started m d _ _), State.closeAccepted_part m hx]
    exact congrArg some ((congrArg Stream.started (x.modStream_stream ..)).trans hnone)
  obtain ⟨y, hy, hys⟩ := Option.map_eq_some_iff.1 hstarted
  rw [State.settleStreamClose_idle (c := { c with accepted := true }) hy hys]
  refine ⟨State.mbEnd_mbEnded .., _, State.modPart_mbEnd_part hy .., ?_⟩
  rw [Part.closeStream_stream_self]
  exact ⟨rfl, rfl⟩

/-- With started commands the close runs on, and its stream is closing. -/
theorem State.closeAccepted_waits {s : State} {m : Nat} {c : MbCmd} {x : Part} (hop : mbOp c.img = 0x304)
    (hx : s.part? (mbPartition c.img) = some x) (hopen : (x.stream (fld c.img 16 0 2)).open_ = true)
    (hsome : (x.stream (fld c.img 16 0 2)).started ≠ []) (horder : ∀ d ∈ (s.mbox m).running, d.order ≠ c.order) :
    ((s.closeAccepted m c).settleStreamCloses m).mbTaken m c ∧
      ∃ y, ((s.closeAccepted m c).settleStreamCloses m).part? (mbPartition c.img) = some y ∧
        (y.stream (fld c.img 16 0 2)).open_ = true ∧ (y.stream (fld c.img 16 0 2)).closing = true ∧
        (y.stream (fld c.img 16 0 2)).started = (x.stream (fld c.img 16 0 2)).started := by
  have hstream : (x.closingStream (fld c.img 16 0 2)).stream (fld c.img 16 0 2) =
      { x.stream (fld c.img 16 0 2) with closing := true, waiting := [] } := x.modStream_stream ..
  rw [State.settleStreamCloses_eq, State.closeAccepted_running hop]
  have hl : ∀ d ∈ ((s.mbox m).running.filter fun d => mbOp d.img == 0x304) ++ [{ c with accepted := true }],
      d.order ≠ c.order ∨ d.img = c.img := by
    intro d hd
    rcases List.mem_append.1 hd with hd | hd
    · exact .inl (horder d (List.mem_filter.1 hd).1)
    · rw [List.mem_singleton.1 hd]
      exact .inr rfl
  obtain ⟨ht, y, hy, hyx⟩ := State.settleStreamClose_foldl_keeps _ hl
    ((s.mbAccept_taken m c).congr (State.modPart_mailboxes ..)) (State.closeAccepted_part m hx) (by rwa [hstream])
  refine ⟨ht, y, hy, ?_⟩
  rw [hyx, hstream]
  exact ⟨hopen, rfl, rfl⟩

end Sys2Proof.Machine
end

section
/-! SUPPORT. Partitions that are created, resized and destroyed: the mailboxes, and what of a partition its placement leaves (13
R324-R328). -/

namespace Sys2Proof.Machine

/-! ### The mailboxes and a part of a partition -/

/-- The mailboxes, and what v tells of partition p. -/
def State.partView {β : Type} (v : Part → β) (p : Nat) (s : State) : Tbl Mailbox × Option β := (s.mailboxes, (s.part? p).map v)

theorem State.partView_congr {β : Type} (v : Part → β) (p : Nat) {s t : State} (hm : t.mailboxes = s.mailboxes)
    (hp : t.parts = s.parts) : t.partView v p = s.partView v p := by
  rw [State.partView, hm, State.part?_congr hp]
  rfl

theorem State.modPart_partView {β : Type} {v : Part → β} {f : Part → Part} (hf : ∀ x, v (f x) = v x) (s : State) (q p : Nat) :
    (s.modPart q f).partView v p = s.partView v p := by
  refine Prod.ext (State.modPart_mailboxes ..) ?_
  dsimp only [State.partView]
  by_cases h : p = q
  · subst h
    rw [State.modPart_part, Option.map_map]
    exact congrArg (Option.map · _) (funext hf)
  · rw [State.modPart_part_ne _ _ h]

/-- What a view of a partition told of it before tells of it after. -/
theorem State.partView_part {β : Type} {v : Part → β} {p : Nat} {s t : State} {x : Part} (h : t.partView v p = s.partView v p)
    (hx : s.part? p = some x) : ∃ y, t.part? p = some y ∧ v y = v x := by
  have hp : (t.part? p).map v = some (v x) := (congrArg Prod.snd h).trans (congrArg (Option.map v) hx)
  exact Option.map_eq_some_iff.1 hp

theorem State.mailboxes_of_partView {β : Type} {v : Part → β} {p : Nat} {s t : State} (h : t.partView v p = s.partView v p) :
    t.mailboxes = s.mailboxes := congrArg Prod.fst h

/-! ### Placement (R324) -/

theorem State.remapPart_mailboxes (s : State) (q : Nat) : (s.remapPart q).mailboxes = s.mailboxes := by
  unfold State.remapPart
  split
  · rfl
  · refine State.foldl_keepsView State.mailboxes _ (fun _ _ => ?_) _ s
    rfl

section
variable {β : Type} {v : Part → β} (hv : ∀ (x : Part) (t : Tbl Nat), v { x with posAtoll := t } = v x)
include hv

theorem State.putPosition_partView (s : State) (q pos g p : Nat) : (s.putPosition q pos g).partView v p = s.partView v p := by
  unfold State.putPosition
  split
  · rfl
  · obtain ⟨l, h⟩ := State.touchUnit_frame (((s.dropSuite g).takeAtoll g q _ _).modPart q fun y =>
      { y with posAtoll := Tbl.set y.posAtoll pos g }) (siteUnit g) q
    rw [h]
    exact State.modPart_partView (fun x => hv x _) _ q p

theorem State.placeRange_partView (s : State) (q lo hi p : Nat) : (s.placeRange q lo hi).partView v p = s.partView v p := by
  unfold State.placeRange
  split
  · rfl
  · dsimp only
    refine (State.partView_congr v p (State.remapPart_mailboxes _ q) (State.remapPart_parts _ q)).trans ?_
    refine (State.foldl_keepsView (State.partView v p) _ (fun t i => ?_) _ _).trans
      (State.foldl_keepsView (State.partView v p) _ (fun t i => ?_) _ s)
    · split
      · rfl
      · split
        · rfl
        · split
          · exact t.putPosition_partView hv ..
          · rfl
    · split
      · exact t.putPosition_partView hv ..
      · rfl

end

/-! ### PARTITION_CREATE (R326) -/

/-- A partition as PARTITION_CREATE with slot image r makes it, before its positions are placed. -/
def State.newPart (s : State) (r : BitVec 2048) : Part :=
  { jobTag := BitVec.ofNat 32 (fld r 16 0 32), x0 := fld r 20 0 6, y0 := fld r 21 0 3, w := fld r 22 0 6 + 1, h := fld r 23 0 3 + 1,
    split := flag r 24 0, staging := BitVec.ofNat 256 (fld r 32 0 256), dram := payloadDram r, posAtoll := [], epoch := 0,
    epochTimes := [(0, s.count)], inReset := false, aborting := false, stepOpen := false, replaying := false, step := 0, seed := 0,
    commitStep := 0, start := none, rollbacks := [], replayLimit := paramDefault 0x0A03, firstSymbol := none, stalled := false,
    seqWatch := false, triggers := [], rollback := none, migrations := [], migrateWanted := [], params := [],
    updSlots := refusingSlots, installer := [], streams := [], runtime := (s.fw.scalars.head?).getD 0 }

/-- The state once that partition stands at its positions. -/
def State.withNewPart (s : State) (p : Nat) (r : BitVec 2048) : State :=
  ({ s with parts := Tbl.set s.parts p (s.newPart r) } : State).placeRange p 0 ((fld r 22 0 6 + 1) * (fld r 23 0 3 + 1))

theorem execPartitionCreate_creates {m : Fin 34} {c : MbCmd} {s : State} (hm : s.mbFirst m 0x300 c) (hroom : s.mbRoom m)
    (hnone : s.part? (mbPartition c.img) = none)
    (hfree : s.resourcesTaken (mbPartition c.img) (fld c.img 20 0 6) (fld c.img 21 0 3) (fld c.img 22 0 6 + 1)
      (fld c.img 23 0 3 + 1) (BitVec.ofNat 256 (fld c.img 32 0 256)) (payloadDram c.img) = false)
    (hsites : s.sitesFor ((fld c.img 22 0 6 + 1) * (fld c.img 23 0 3 + 1)) = true) :
    ∃ result, execPartitionCreate m s =
      .next (((s.mbAccept m c).withNewPart (mbPartition c.img) c.img).mbEnd m { c with accepted := true } mbDone 0xFFFF result) := by
  rw [execPartitionCreate, State.mbRow_first _ hm]
  dsimp only
  rw [if_neg (by simp [hnone, hfree]), if_neg (by simp [hsites]), State.mbLong_accepts c _ hroom]
  exact ⟨_, rfl⟩

/-- The partition that stands at its positions is the one made, but for them. -/
theorem State.withNewPart_part (s : State) (p : Nat) (r : BitVec 2048) :
    ∃ y, (s.withNewPart p r).part? p = some y ∧ { y with posAtoll := [] } = s.newPart r := by
  obtain ⟨y, hy, hyx⟩ := State.partView_part (v := fun x => { x with posAtoll := [] })
    (State.placeRange_partView (fun _ _ => rfl) { s with parts := Tbl.set s.parts p (s.newPart r) } p 0 _ p)
    (Tbl.get?_set_self s.parts p (s.newPart r))
  exact ⟨y, hy, hyx⟩

/-! ### What a resize leaves (R327) -/

/-- The job, place, banks, ranges and epoch of a partition. -/
def Part.place (x : Part) : Word × (Nat × Nat × Nat × Nat) × BitVec 256 × List (Nat × Nat) × BitVec 4 :=
  (x.jobTag, (x.x0, x.y0, x.w, x.h), x.staging, x.dram, x.epoch)

/-- The mailboxes and the place of partition p. -/
abbrev State.placeView (p : Nat) (s : State) := s.partView Part.place p

theorem State.modPart_placeView (s : State) (q : Nat) {f : Part → Part} (hf : ∀ x, (f x).place = x.place) (p : Nat) :
    (s.modPart q f).placeView p = s.placeView p := State.modPart_partView hf s q p

@[simp] theorem State.finishCmd_placeView (s : State) (q st idx p : Nat) : (s.finishCmd q st idx).placeView p = s.placeView p :=
  s.modPart_placeView q (fun x => by unfold Part.retire; split <;> rfl) p

@[simp] theorem State.stopStream_placeView (s : State) (q st status kind at_ off cause : Nat) (word : DWord) (seq : Word)
    (quiet : Bool) (p : Nat) : (s.stopStream q st status kind at_ off cause word seq quiet).placeView p = s.placeView p := by
  have hstop (f : Stream → Stream) : (s.modPart q fun x => x.modStream st f).placeView p = s.placeView p :=
    s.modPart_placeView q (fun _ => by rfl) p
  unfold State.stopStream
  split
  · rfl
  · dsimp only
    split
    · rfl
    · split <;> exact hstop _

@[simp] theorem State.stopAllFenced_placeView (s : State) (q cause : Nat) (seq : Word) (p : Nat) :
    (s.stopAllFenced q cause seq).placeView p = s.placeView p := by
  unfold State.stopAllFenced
  split
  · rfl
  · refine State.foldl_keepsView (State.placeView p) _ (fun t st => ?_) _ s
    dsimp only
    split
    · exact (State.modPart_placeView _ q (fun _ => by rfl) p).trans (State.stopStream_placeView ..)
    · rfl

@[simp] theorem State.judge_placeView (s : State) (q st idx : Nat) (w : Verdict) (p : Nat) :
    (s.judge q st idx w).placeView p = s.placeView p := by
  unfold State.judge
  split
  · rfl
  · split
    · rfl
    · simp
    · split
      · exact s.modPart_placeView q (fun _ => by rfl) p
      · split <;> simp

@[simp] theorem State.completeCmd_placeView (s : State) (q st idx : Nat) (w : Verdict) (p : Nat) :
    (s.completeCmd q st idx w).placeView p = s.placeView p := by
  have hcore (s : State) (g c : Nat) : (s.wakeCore g c).placeView p = s.placeView p := by
    unfold State.wakeCore
    split
    · split <;> rfl
    · rfl
  exact (State.wakeChain_keepsView (State.placeView p) (fun _ _ => rfl) hcore (fun _ _ _ => rfl)
    (fun _ _ _ _ => State.finishCmd_placeView ..) (fun _ _ _ _ _ => State.judge_placeView ..) _).1 s q st idx w

@[simp] theorem State.endBatches_placeView (s : State) (g p : Nat) : (s.endBatches g).placeView p = s.placeView p := by
  unfold State.endBatches
  split
  · rfl
  · split
    · rfl
    · exact State.foldl_keepsView (State.placeView p) _ (fun _ _ => State.foldl_keepsView (State.placeView p) _
        (fun _ _ => State.completeCmd_placeView ..) _ _) _ s

@[simp] theorem State.releaseHeld_placeView (s : State) (g p : Nat) : (s.releaseHeld g).placeView p = s.placeView p :=
  (State.foldl_keepsView (State.placeView p) _ (fun t _ => by
    rw [(t.onlyAtoll_lagoonWrite ..).1]
    rfl) _ _).trans rfl

@[simp] theorem State.releaseAround_placeView (s : State) (g p : Nat) : (s.releaseAround g).placeView p = s.placeView p := by
  refine (State.foldl_keepsView (State.placeView p) _ (fun t d => ?_) _ _).trans (s.releaseHeld_placeView g p)
  split
  · exact State.releaseHeld_placeView ..
  · rfl

@[simp] theorem State.settleClose_placeView (s : State) (q g c h p : Nat) :
    (s.settleClose q g c h).placeView p = s.placeView p := by
  unfold State.settleClose
  (repeat' split) <;> rfl

@[simp] theorem State.closeSendEnd_placeView (s : State) (q : Nat) (x : Handle) (p : Nat) :
    (s.closeSendEnd q x).placeView p = s.placeView p := by
  unfold State.closeSendEnd
  (repeat' split) <;> rfl

@[simp] theorem State.killSender_placeView (s : State) (q : Nat) (x : Handle) (p : Nat) :
    (s.killSender q x).placeView p = s.placeView p := by
  unfold State.killSender
  split
  · rfl
  · exact State.settleClose_placeView ..

@[simp] theorem State.resetEndpoint_placeView (s : State) (g c p : Nat) : (s.resetEndpoint g c).placeView p = s.placeView p := by
  unfold State.resetEndpoint
  split
  · rfl
  · refine State.foldl_keepsView (State.placeView p) _ (fun t e => ?_) _ s
    split <;> simp

@[simp] theorem State.modAtoll_placeView (s : State) (g : Nat) (f : Atoll → Atoll) (p : Nat) :
    (s.modAtoll g f).placeView p = s.placeView p := rfl

@[simp] theorem State.dropWaits_placeView (s : State) (g c p : Nat) : (s.dropWaits g c).placeView p = s.placeView p := rfl

theorem State.beginAtollReset_placeView (s : State) (g p : Nat) : (s.beginAtollReset g).placeView p = s.placeView p := by
  simp [State.beginAtollReset]

@[simp] theorem State.leaveLane_placeView (s : State) (g i p : Nat) : (s.leaveLane g i).placeView p = s.placeView p := by
  unfold State.leaveLane
  dsimp only
  split <;> rfl

theorem State.clearLanes_placeView (s : State) (g p : Nat) : (s.clearLanes g).placeView p = s.placeView p :=
  State.foldl_keepsView (State.placeView p) _ (fun t i => State.foldl_keepsView (State.placeView p) _
    (fun u _ => u.leaveLane_placeView g i p) _ t) _ s

theorem State.endAtollReset_placeView (s : State) (g p : Nat) : (s.endAtollReset g).placeView p = s.placeView p := by
  unfold State.endAtollReset
  dsimp only
  rw [State.modAtoll_placeView, State.clearLanes_placeView]
  rfl

theorem State.resetCores_placeView (s : State) (g p : Nat) : (s.resetCores g).placeView p = s.placeView p := by
  simp [State.resetCores, State.resetCore]

theorem State.zeroAtoll_placeView (s : State) (g p : Nat) : (s.zeroAtoll g).placeView p = s.placeView p := rfl

theorem State.releaseAtoll_placeView (s : State) (g p : Nat) : (s.releaseAtoll g).placeView p = s.placeView p := rfl

theorem State.dropEntries_placeView (s : State) (f : BitVec 128 → Bool) (p : Nat) : (s.dropEntries f).placeView p = s.placeView p := rfl

theorem State.removePosition_placeView (s : State) (q pos p : Nat) : (s.removePosition q pos).placeView p = s.placeView p := by
  unfold State.removePosition
  split
  · rfl
  · rename_i g _
    dsimp only
    rw [State.dropEntries_placeView, State.modPart_placeView _ q (fun _ => by rfl), State.releaseAtoll_placeView,
      State.zeroAtoll_placeView, State.endAtollReset_placeView, State.beginAtollReset_placeView]

theorem State.setSplit_placeView (s : State) (q : Nat) (split : Bool) (p : Nat) :
    (s.setSplit q split).placeView p = s.placeView p := by
  unfold State.setSplit
  split
  · rfl
  · split
    · rfl
    · refine (State.foldl_keepsView (State.placeView p) _ (fun t e => ?_) _ _).trans (s.modPart_placeView q (fun _ => by rfl) p)
      exact t.resetCores_placeView e.2 p

theorem State.zeroBanks_placeView (s : State) (banks : BitVec 256) (p : Nat) : (s.zeroBanks banks).placeView p = s.placeView p :=
  State.foldl_keepsView (State.placeView p) _ (fun t i => by split <;> rfl) _ s

theorem State.sendHome_placeView (s : State) (q p : Nat) : (s.sendHome q).placeView p = s.placeView p := by
  unfold State.sendHome
  split
  · rfl
  · refine State.foldl_keepsView (State.placeView p) _ (fun t e => ?_) _ s
    dsimp only
    split
    · exact t.modPart_placeView q (fun _ => by rfl) p
    · rfl

/-! ### PARTITION_RESIZE (R327) -/

/-- A partition with the job, height, banks and ranges of PARTITION_RESIZE with slot image r. -/
def Part.resized (x : Part) (r : BitVec 2048) : Part :=
  { x with jobTag := BitVec.ofNat 32 (fld r 16 0 32), h := fld r 23 0 3 + 1, staging := BitVec.ofNat 256 (fld r 32 0 256),
           dram := payloadDram r }

/-- The state once partition p, x before, has been resized. -/
def State.resizePart (s : State) (p : Nat) (x : Part) (r : BitVec 2048) : State :=
  let h := fld r 23 0 3 + 1
  let t1 := (List.range (x.w * x.h - x.w * h)).foldl (fun u i => u.removePosition p (x.w * h + i)) s
  let t2 := (t1.zeroBanks (x.staging &&& ~~~BitVec.ofNat 256 (fld r 32 0 256))).setSplit p (flag r 24 0)
  let t3 := (t2.modPart p fun y => y.resized r).placeRange p (x.w * x.h) (x.w * h)
  (t3.remapPart p).sendHome p

theorem State.resizePart_part {s : State} {p : Nat} {x : Part} (hx : s.part? p = some x) (r : BitVec 2048) :
    (s.resizePart p x r).mailboxes = s.mailboxes ∧
      ∃ y, (s.resizePart p x r).part? p = some y ∧ y.place = (x.resized r).place := by
  unfold State.resizePart
  extract_lets h t1 t2 t3
  have h2 : t2.placeView p = s.placeView p := by
    unfold t2 t1
    rw [State.setSplit_placeView, State.zeroBanks_placeView]
    exact State.foldl_keepsView (State.placeView p) _ (fun t i => t.removePosition_placeView p _ p) _ s
  obtain ⟨z, hz, hzx⟩ := State.partView_part h2 hx
  have h3 : ((t3.remapPart p).sendHome p).placeView p = (t2.modPart p fun y => y.resized r).placeView p := by
    rw [State.sendHome_placeView]
    exact (State.partView_congr _ p (State.remapPart_mailboxes t3 p)
      (State.remapPart_parts t3 p)).trans (State.placeRange_partView (fun _ _ => rfl) _ p _ _ p)
  refine ⟨?_, ?_⟩
  · exact (State.mailboxes_of_partView h3).trans ((State.modPart_mailboxes ..).trans (State.mailboxes_of_partView h2))
  · obtain ⟨y, hy, hyz⟩ := State.partView_part h3 ((State.modPart_part t2 p _).trans (congrArg (Option.map _) hz))
    simp only [Part.place, Prod.mk.injEq] at hzx
    obtain ⟨-, ⟨hx0, hy0, hw, -⟩, -, -, he⟩ := hzx
    refine ⟨y, hy, hyz.trans ?_⟩
    simp [Part.place, Part.resized, hx0, hy0, hw, he]

section
variable {m : Fin 34} {c : MbCmd} {x : Part} {s : State} (hm : s.mbFirst m 0x301 c)
  (hx : s.part? (mbPartition c.img) = some x)
include hm hx

theorem execPartitionResize_resizes (hroom : s.mbRoom m) (hstep : x.inStep = false) (hidle : x.idle = true)
    (htag : x.jobTag = BitVec.ofNat 32 (fld c.img 16 0 32))
    (hfree : s.resourcesTaken (mbPartition c.img) x.x0 x.y0 x.w (fld c.img 23 0 3 + 1)
      (BitVec.ofNat 256 (fld c.img 32 0 256) &&& ~~~x.staging) (payloadDram c.img) = false)
    (hsites : s.sitesFor (x.w * (fld c.img 23 0 3 + 1) - x.w * x.h) = true) :
    ∃ result, execPartitionResize m s =
      .next (((s.mbAccept m c).resizePart (mbPartition c.img) x c.img).mbEnd m { c with accepted := true } mbDone 0xFFFF
        result) := by
  rw [execPartitionResize, State.mbPartRow_first _ hm hx]
  dsimp only
  rw [if_neg (by simp [hstep, hidle, ← htag, hfree]), if_neg (by simp [hsites]), State.mbLong_accepts c _ hroom]
  exact ⟨_, rfl⟩

theorem execPartitionResize_busy (hstep : x.inStep = true) : execPartitionResize m s = .next (s.mbEnd m c mbBusy) := by
  rw [execPartitionResize, State.mbPartRow_first _ hm hx]
  dsimp only
  rw [if_pos (.inl hstep)]

end

/-! ### PARTITION_DESTROY (R328) -/

theorem execPartitionDestroy_begins {m : Fin 34} {c : MbCmd} {x : Part} {s : State} (hm : s.mbFirst m 0x302 c) (hroom : s.mbRoom m)
    (hx : s.part? (mbPartition c.img) = some x) :
    execPartitionDestroy m s = .next ((s.mbAccept m c).beginPartReset (mbPartition c.img) false) := by
  rw [execPartitionDestroy, State.mbPartRow_first _ hm hx]
  simp only [State.mbLong_accepts _ _ hroom]

/-- A reset that begins, or that has begun, leaves its partition in reset, and the mailboxes as they are. -/
theorem State.beginPartReset_inReset {s : State} {p : Nat} {x : Part} (hx : s.part? p = some x) (abort : Bool) :
    (s.beginPartReset p abort).mailboxes = s.mailboxes ∧ ∃ y, (s.beginPartReset p abort).part? p = some y ∧ y.inReset = true := by
  cases hreset : x.inReset with
  | true =>
    have heq : s.beginPartReset p abort = s.modPart p fun y => { y with aborting := y.aborting || abort } := by
      simp only [State.beginPartReset, hx, hreset, if_true]
    rw [heq, State.modPart_part, hx]
    exact ⟨State.modPart_mailboxes .., _, rfl, hreset⟩
  | false =>
    obtain ⟨hboxes, hended⟩ := Prod.mk.inj (State.beginPartReset_resetView hx hreset abort)
    obtain ⟨y, hy, hin, -⟩ := State.partReset_some hended
    exact ⟨hboxes, y, hy, hin⟩

end Sys2Proof.Machine
end

section
/-! O31: partitions and streams, row by row. -/

namespace Sys2Proof.Machine

/-- Settles O31, row by row. -/
theorem partitions : Obligations.Partitions := by
  refine ⟨?create, ?existing, ?resize, ?inStep, ?destroy, ?open_, ?openBusy, ?close, ?resume, ?running⟩
  case create =>
    intro m c s p w h hm hroom hnone hfree hsites
    obtain ⟨result, hrow⟩ := execPartitionCreate_creates hm hroom hnone hfree hsites
    obtain ⟨y, hy, hyx⟩ := (s.mbAccept m c).withNewPart_part p c.img
    refine ⟨_, hrow, State.mbEnd_mbEnded .., y, ((State.mbEnd_mailboxesOnly ..).part p).trans hy, ?_⟩
    have hfield {α : Type} (v : Part → α) (hv : ∀ x, v { x with posAtoll := [] } = v x) : v y = v ((s.mbAccept m c).newPart c.img) :=
      (hv y).symm.trans (congrArg v hyx)
    exact ⟨hfield Part.jobTag fun _ => rfl, hfield Part.x0 fun _ => rfl, hfield Part.y0 fun _ => rfl, hfield Part.w fun _ => rfl,
      hfield Part.h fun _ => rfl, hfield Part.split fun _ => rfl, hfield Part.staging fun _ => rfl, hfield Part.dram fun _ => rfl,
      hfield Part.epoch fun _ => rfl, hfield Part.streams fun _ => rfl, hfield Part.inReset fun _ => rfl,
      hfield Part.stepOpen fun _ => rfl⟩
  case existing =>
    intro m c x s hm hx
    refine ⟨_, ?_, s.mbEnd_answers m c mbBusy 0xFFFF 0 [], s.mbEnd_frame m c mbBusy 0xFFFF 0 []⟩
    refine (State.mbRow_first _ hm).trans (congrArg Host.Outcome.next (if_pos (.inl ?_)))
    rw [hx]
    rfl
  case resize =>
    intro m c x s p h banks hm hroom hx hstep hidle htag hfree hsites
    obtain ⟨result, hrow⟩ := execPartitionResize_resizes hm hx hroom hstep hidle htag hfree hsites
    obtain ⟨-, y, hy, hplace⟩ := State.resizePart_part (((s.mbAccept_mailboxesOnly m c).part p).trans hx) c.img
    refine ⟨_, hrow, State.mbEnd_mbEnded .., y, ((State.mbEnd_mailboxesOnly ..).part p).trans hy, ?_⟩
    simp only [Part.place, Prod.mk.injEq] at hplace
    obtain ⟨hj, ⟨hx0, hy0, hw, hh⟩, hbanks, hdram, he⟩ := hplace
    exact ⟨hh, hw, hx0, hy0, hbanks, hdram, hj.trans htag.symm, he⟩
  case inStep =>
    intro m c x s hm hx hstep
    exact ⟨_, execPartitionResize_busy hm hx hstep, s.mbEnd_answers m c mbBusy 0xFFFF 0 [], s.mbEnd_frame m c mbBusy 0xFFFF 0 []⟩
  case destroy =>
    intro m c x s hm hroom hx
    obtain ⟨hboxes, hin⟩ := State.beginPartReset_inReset (((s.mbAccept_mailboxesOnly m c).part _).trans hx) false
    exact ⟨_, execPartitionDestroy_begins hm hroom hx, (s.mbAccept_taken m c).congr hboxes, hin⟩
  case open_ =>
    intro m c x s st hm hx hopen hring hline
    refine ⟨_, execStreamOpen_opens hx hm hopen hring hline, State.modPart_mbEnd_answers .., State.modPart_mbEnd_only .., _,
      State.modPart_mbEnd_part hx .., ?_⟩
    rw [x.openStream_stream_self c.img]
    exact ⟨rfl, rfl, rfl, toNat_ofNat_fld64 .., toNat_ofNat_fld64 .., rfl, rfl, rfl, rfl, rfl, rfl, fun u hu =>
      x.openStream_stream_ne c.img hu⟩
  case openBusy =>
    intro m c x s hm hx hopen
    exact ⟨_, execStreamOpen_busy hx hm hopen, s.mbEnd_answers m c mbBusy 0xFFFF 0 [], s.mbEnd_frame m c mbBusy 0xFFFF 0 []⟩
  case close =>
    intro m c x s st hm hroom hx hopen hbusy horder
    exact ⟨_, execStreamClose_accepts hm hroom hx hopen hbusy, State.closeAccepted_ends hm.op hx, fun hsome =>
      State.closeAccepted_waits hm.op hx hopen hsome horder⟩
  case resume =>
    intro m c x s st hm hx hopen hstopped hclosing
    obtain ⟨r, hself⟩ := x.resumeAt_stream_self st (fld c.img 20 0 32)
    refine ⟨_, execStreamResume_resumes hx hm hopen hstopped hclosing, State.modPart_mbEnd_answers .., State.modPart_mbEnd_only .., _,
      State.modPart_mbEnd_part hx .., ?_⟩
    rw [hself]
    exact ⟨rfl, rfl, rfl, rfl, rfl, rfl⟩
  case running =>
    intro m c x s hm hx hrun
    exact ⟨_, execStreamResume_running hx hm hrun, s.mbEnd_answers m c mbNoResource 0xFFFF 0 [],
      s.mbEnd_frame m c mbNoResource 0xFFFF 0 []⟩

end Sys2Proof.Machine
end

section
/-! SUPPORT. Power on and off, module reset and the reset pin: what the choice of the active hub and the start of a module reset leave
(14 R350, R351; 11 R281-R283; 19 R431, R440, R441). -/

namespace Sys2Proof.Machine

/-! ### The choice of the active hub (14 R350) -/

/-- What the choice of the active hub leaves, but for the lifecycle and a reset that is asked for. -/
def State.bootKept (s : State) :=
  (s.atolls, s.parts, s.mailboxes, s.reconfs, s.mem, s.host, s.mgmt, s.flt.log, s.flt.moduleResets)

/-- The same with the lifecycle, and with the reset asked for where the module is not ready: only a ready module asks for one when
a unit is fenced (14 R359). -/
def State.bootView (s : State) := (s.bootKept, s.life, if s.life.state = .ready then none else s.flt.resetPending)

@[simp] theorem State.checkHealth_bootView (s : State) : s.checkHealth.bootView = s.bootView := by
  unfold State.checkHealth
  split
  · rename_i h
    obtain ⟨es, hes⟩ := s.noticeAll_frame 7 0
    rw [hes]
    simp [State.bootView, State.bootKept, State.askReset, h.1]
  · rfl

@[simp] theorem State.fenceUnit_bootView (s : State) (u : Word) (cls : Half) (seq : Word) (source : BitVec 2) (retry : Bool) :
    (s.fenceUnit u cls seq source retry).bootView = s.bootView := by
  unfold State.fenceUnit
  split
  · rfl
  · exact (State.checkHealth_bootView _).trans rfl

@[simp] theorem State.unfence_bootView (s : State) (u : Word) : (s.unfence u).bootView = s.bootView := by
  unfold State.unfence
  dsimp only
  (repeat' split) <;> rfl

@[simp] theorem State.testProcessor_bootView (s : State) (h i : Nat) (ok : Bool) :
    (s.testProcessor h i ok).bootView = s.bootView := by
  unfold State.testProcessor
  dsimp only
  split
  · split
    · exact State.unfence_bootView ..
    · rfl
  · split
    · rfl
    · exact (State.fenceUnit_bootView ..).trans rfl

@[simp] theorem State.bootFw_bootView (s : State) (h : Nat) : (s.bootFw h).bootView = s.bootView := by
  unfold State.bootFw
  dsimp only
  split <;> rfl

@[simp] theorem State.noteTrip_bootView (s : State) : s.noteTrip.bootView = s.bootView := by
  unfold State.noteTrip
  split <;> rfl

/-- The lifecycle once a hub has been chosen: the usable hubs, the active one, and the state that they leave. -/
def LifeSt.chosen (l : LifeSt) (t : BringUp) (usable : BitVec 2) (active : Nat) (st : LifeState) : LifeSt :=
  { l with state := st, usable := usable, activeHub := active, standby := false, failingHub := false, tests := some t }

/-- The choice of the active hub: the state stays where a hub is usable, and is recovery holding or none where none is. -/
theorem State.bootHubs_chosen (s : State) (t : BringUp) : ∃ u a st, (s.bootHubs t).life = s.life.chosen t u a st ∧
    (u ≠ 0 → st = s.life.state) ∧ (u = 0 → st = .recovery ∨ st = .noProcessor) ∧ (s.bootHubs t).bootKept = s.bootKept ∧
    (s.life.state ≠ .ready → (s.bootHubs t).flt.resetPending = s.flt.resetPending) := by
  unfold State.bootHubs
  extract_lets s1 s2 a b s3 any_
  have h2 : s2.bootView = s.bootView := by
    unfold s2 s1
    rw [State.bootFw_bootView, State.bootFw_bootView]
    exact State.foldl_keepsView State.bootView _ (fun x k => State.testProcessor_bootView ..) _ s
  obtain ⟨hkept, hlife, hask⟩ : s2.bootKept = s.bootKept ∧ s2.life = s.life ∧
      (s.life.state ≠ .ready → s2.flt.resetPending = s.flt.resetPending) := by
    simp only [State.bootView, Prod.mk.injEq] at h2
    obtain ⟨hk, hl, hr⟩ := h2
    refine ⟨hk, hl, fun hs => ?_⟩
    rwa [hl, if_neg hs, if_neg hs] at hr
  clear_value a b s2
  have hl3 : s3.life = s.life.chosen t (BitVec.ofNat 2 (b2n a + 2 * b2n b)) (if a then 0 else if b then 1 else 0) s.life.state := by
    unfold s3
    rw [State.modLife_life, hlife]
    rfl
  split
  case isTrue hab =>
    have h4 : (s3.noteTrip.modFw fun f => { f with role := if a then 1 else 2 }).bootView = s3.bootView :=
      .trans rfl s3.noteTrip_bootView
    simp only [State.bootView, Prod.mk.injEq] at h4
    obtain ⟨hk4, hl4, hr4⟩ := h4
    have hst : s3.life.state = s.life.state := by rw [hl3]; rfl
    refine ⟨_, _, _, hl4.trans hl3, fun _ => rfl, fun h0 => ?_, hk4.trans hkept, fun hs => ?_⟩
    · rcases hab with rfl | rfl
      · cases b <;> simp [b2n] at h0
      · cases a <;> simp [b2n] at h0
    · rw [hl4, hst, if_neg hs, if_neg hs] at hr4
      exact hr4.trans (hask hs)
  case isFalse hab =>
    simp only [not_or, Bool.not_eq_true] at hab
    obtain ⟨rfl, rfl⟩ := hab
    refine ⟨0, 0, if any_ then .recovery else .noProcessor, ?_, fun h => absurd rfl h, fun _ => ?_, hkept, hask⟩
    · rw [State.modFlt_life, State.modLife_life, hl3]
      rfl
    · cases any_ <;> simp

/-! ### Power on (19 R431) -/

/-- With MOD_RESET_N high the straps are sampled and the hub is chosen. -/
theorem State.powerOn_of_high {s : State} (hpin : s.mgmt.modResetLow = false) (t : BringUp) :
    s.powerOn t = (s.powerUp.modLife fun l => { l with strap := t.strap }).bootHubs t := by
  unfold State.powerOn
  exact if_neg (by simp [State.powerUp, State.unpowered, hpin])

/-- With MOD_RESET_N low the timeline waits (R441). -/
theorem State.powerOn_of_low {s : State} (hpin : s.mgmt.modResetLow = true) (t : BringUp) : s.powerOn t = s.powerUp := by
  unfold State.powerOn
  exact if_pos (by simp [State.powerUp, State.unpowered, hpin])

theorem execPowerOn_of_off {s : State} (h : s.life.state = .off) (t : BringUp) : execPowerOn t s = .next (s.powerOn t) := by
  rw [execPowerOn, if_pos h]

/-- The lifecycle and what else a power-on with MOD_RESET_N high leaves. -/
theorem State.powerOn_chosen {s : State} (hpin : s.mgmt.modResetLow = false) (t : BringUp) : ∃ u a st,
    (s.powerOn t).life = ({ LifeSt.reset with state := .bringup, powered := true, strap := t.strap } : LifeSt).chosen t u a st ∧
    (u ≠ 0 → st = .bringup) ∧ (u = 0 → st = .recovery ∨ st = .noProcessor) ∧ (s.powerOn t).bootKept = s.powerUp.bootKept := by
  obtain ⟨u, a, st, hl, hsome, hnone, hkept, -⟩ :=
    State.bootHubs_chosen (s.powerUp.modLife fun l => { l with strap := t.strap }) t
  rw [← State.powerOn_of_high hpin t] at hl hkept
  exact ⟨u, a, st, hl, hsome, hnone, hkept⟩

/-- Power-on never freezes (19 R442). -/
theorem State.powerOn_frozen (s : State) (t : BringUp) : (s.powerOn t).life.frozen = false := by
  cases hpin : s.mgmt.modResetLow with
  | true =>
    rw [State.powerOn_of_low hpin]
    rfl
  | false =>
    obtain ⟨u, a, st, hl, -⟩ := State.powerOn_chosen hpin t
    rw [hl]
    rfl

/-! ### Module reset (11 R281-R283) -/

/-- What the retraining of the links leaves. -/
def State.netLeaves (s : State) := (s.bootKept, s.life, s.flt)

theorem State.modLink_netLeaves (s : State) (l : Nat) (f : FLink → FLink) : (s.modLink l f).netLeaves = s.netLeaves := rfl

theorem State.dropLink_netLeaves (s : State) (l : Nat) : (s.dropLink l).netLeaves = s.netLeaves := rfl

theorem State.retrainAll_netLeaves (s : State) : s.retrainAll.netLeaves = s.netLeaves := by
  unfold State.retrainAll
  refine State.foldl_keepsView State.netLeaves _ (fun t l => ?_) _ s
  split
  · exact (State.dropLink_netLeaves _ _).trans (State.modLink_netLeaves ..)
  · rfl

/-- The links of a frozen module retrain when its module reset begins (17 R416), and the heartbeat word is written. -/
theorem State.retrainedBeat_netLeaves (s : State) (frozen : Bool) (w : DWord) :
    ((if frozen then s.retrainAll else s).modFlt fun f => { f with hbWord := w }).netLeaves =
      (s.bootKept, s.life, { s.flt with hbWord := w }) := by
  have hbeat (u : State) : (u.modFlt fun f => { f with hbWord := w }).netLeaves = (u.bootKept, u.life, { u.flt with hbWord := w }) := rfl
  have hlinks : (if frozen then s.retrainAll else s).netLeaves = s.netLeaves := by
    split
    · exact s.retrainAll_netLeaves
    · rfl
  simp only [State.netLeaves, Prod.mk.injEq] at hlinks
  obtain ⟨hkept, hlife, hflt⟩ := hlinks
  rw [hbeat, hkept, hlife, hflt]

/-- A module reset that begins: atolls, partitions, reconfigurations and mailboxes are gone, memory keeps its DRAM. -/
theorem State.beginModuleReset_begins (s : State) : ∃ w, s.beginModuleReset.netLeaves =
    (([], [], [], [], s.mem.moduleReset, s.host.moduleReset, { s.mgmt with stopped := 0, notice := false, resetHeld := false },
        (s.flt.dumpStops s.count).log, s.flt.moduleResets),
      { s.life with state := .moduleReset, frozen := false, frozenCount := 0, tests := none, failingHub := false, standby := false },
      { s.flt.moduleReset s.count with hbWord := w }) :=
  ⟨_, State.retrainedBeat_netLeaves _ s.life.frozen _⟩

/-- A counted reset joins the history (11 R290); the rest but the out-of-service flag stays. -/
theorem State.countReset_only (s : State) (counted : Bool) : ∃ o, s.countReset counted =
    { s with flt := { s.flt with outOfService := o, moduleResets := s.flt.moduleResets ++ (if counted then [s.count] else []) } } := by
  cases counted with
  | false => exact ⟨s.flt.outOfService, by simp [State.countReset]⟩
  | true =>
    unfold State.countReset
    simp only [not_true_eq_false, if_false]
    split
    · exact ⟨true, rfl⟩
    · exact ⟨s.flt.outOfService, rfl⟩

/-- MODULE_RESET begins the reset that is asked for where nothing holds it up. -/
theorem execModuleReset_begins {s : State} {counted : Bool} {since : DWord} (b : BringUp)
    (hask : s.flt.resetPending = some (counted, since)) (hpow : s.life.powered = true) (hready : s.life.state = .ready)
    (hfrozen : s.life.frozen = false) (hfatal : s.flt.fatal = false) (hdump : s.flt.dump = none)
    (hpin : s.mgmt.modResetLow = false) :
    execModuleReset b s = .next ((s.countReset counted).beginModuleReset.bootHubs b) := by
  have hdue : s.dumpDue = false := by simp [State.dumpDue, hfatal]
  have hpin' : (s.countReset counted).beginModuleReset.mgmt.modResetLow = false := by
    obtain ⟨w, hw⟩ := (s.countReset counted).beginModuleReset_begins
    obtain ⟨o, ho⟩ := s.countReset_only counted
    simp only [State.netLeaves, State.bootKept, Prod.mk.injEq] at hw
    obtain ⟨⟨-, -, -, -, -, -, hmgmt, -⟩, -⟩ := hw
    rw [hmgmt, ho]
    exact hpin
  simp [execModuleReset, hask, hpow, hready, hfrozen, hdue, hdump, hpin']

/-! ### The reset pin (19 R440, R441) -/

/-- A falling edge of a powered module in state ready begins a module reset. -/
theorem execModResetNFall_begins {s : State} (hpin : s.mgmt.modResetLow = false) (hpow : s.life.powered = true)
    (hready : s.life.state = .ready) :
    execModResetNFall s = .next (s.modMgmt fun g => { g with modResetLow := true }).beginModuleReset := by
  simp [execModResetNFall, hpin, hpow, hready]

/-- During a timeline the reset of a falling edge is held. -/
theorem execModResetNFall_held {s : State} (hpin : s.mgmt.modResetLow = false) (hpow : s.life.powered = true)
    (hstate : s.life.state = .bringup ∨ s.life.state = .moduleReset) (hfrozen : s.life.frozen = false) :
    execModResetNFall s = .next (s.modMgmt fun g => { g with modResetLow := true, resetHeld := true }) := by
  have hstop : s.life.state ≠ .stopped := by rcases hstate with h | h <;> simp [h]
  rw [execModResetNFall]
  dsimp only
  rw [if_neg (by simp [hpin, hpow, hstop]), if_pos ⟨hstate, by simp [hfrozen]⟩]
  rfl

theorem State.beginModuleReset_mgmt (s : State) :
    s.beginModuleReset.mgmt = { s.mgmt with stopped := 0, notice := false, resetHeld := false } := by
  obtain ⟨w, hw⟩ := s.beginModuleReset_begins
  simp only [State.netLeaves, State.bootKept, Prod.mk.injEq] at hw
  obtain ⟨⟨-, -, -, -, -, -, hmgmt, -⟩, -⟩ := hw
  exact hmgmt

/-- A falling edge leaves the pin low. -/
theorem execModResetNFall_low (s : State) : ∃ t, execModResetNFall s = .next t ∧ t.mgmt.modResetLow = true := by
  refine ⟨_, rfl, ?_⟩
  dsimp only
  split
  · rfl
  · split
    · rfl
    · rw [State.beginModuleReset_mgmt]
      rfl

/-- The rise that a module reset waits for chooses the hub. -/
theorem execModResetNRise_boots {s : State} (b : BringUp) (hstate : s.life.state = .moduleReset) (hfrozen : s.life.frozen = false)
    (htests : s.life.tests = none) :
    execModResetNRise b s = .next ((s.modMgmt fun g => { g with modResetLow := false }).bootHubs b) := by
  simp [execModResetNRise, hstate, hfrozen, htests]

/-- The rise that ends a cold-reset request switches the module on. -/
theorem execModResetNRise_powers {s : State} (b : BringUp) (hstate : s.life.state = .stopped) (hpow : s.life.powered = false) :
    execModResetNRise b s = .next ((s.modMgmt fun g => { g with modResetLow := false }).powerOn b) := by
  simp [execModResetNRise, hstate, hpow]

end Sys2Proof.Machine
end

section
/-! O35 and O50: power, reset and the freeze edge, row by row. -/

namespace Sys2Proof.Machine

/-- Settles O50: a frozen module, a tripped one and one in a cold-reset request have no freeze edge, and power-on starts a module
that is not frozen. -/
theorem freezeEdgeRule : Obligations.FreezeEdgeRule := by
  have hoff {s : State} (n : Bool) (h : s.life.powered = false) : execFreeze n s = .next s := by
    rw [execFreeze, if_pos (.inl (by simp [h]))]
  refine ⟨fun n s hf => ?frozen, fun n s hlife ht => ?tripped, fun n s t hpin hstate hcold => ?cold, fun b s t hstate hon => ?on⟩
  case frozen => exact congrArg Host.Outcome.next (if_pos (.inr hf))
  case tripped => exact hoff n (hlife.1 (.inr ht))
  case cold =>
    have ht : execColdResetRequest s = .next t := hcold
    rw [execColdResetRequest, if_neg (by simp [hpin, hstate])] at ht
    cases ht
    exact hoff n rfl
  case on =>
    have ht : execPowerOn b s = .next t := hon
    rw [execPowerOn_of_off hstate] at ht
    cases ht
    exact s.powerOn_frozen b

/-- Settles O35, row by row. -/
theorem powerAndReset : Obligations.PowerAndReset := by
  refine ⟨?high, ?low, ?undervoltage, ?overvoltage, ?trip, ?reset, ?fall, ?rise, ?coldRise, ?cold⟩
  case high =>
    intro b s hstate hpin
    obtain ⟨u, a, st, hl, hsome, hnone, hkept⟩ := State.powerOn_chosen hpin b
    obtain ⟨hcount, hboot⟩ := s.powerOn_newBoot b
    simp only [State.bootKept, Prod.mk.injEq] at hkept
    obtain ⟨hatolls, hparts, hmail, -, -, hhost, -⟩ := hkept
    refine ⟨_, execPowerOn_of_off hstate b, ?_⟩
    dsimp only
    rw [hl, hhost]
    exact ⟨rfl, hcount, hboot, rfl, rfl, hatolls, hparts, hmail, rfl, hsome, hnone⟩
  case low =>
    intro b s hstate hpin
    obtain ⟨hcount, hboot⟩ := s.powerOn_newBoot b
    refine ⟨_, execPowerOn_of_off hstate b, ?_⟩
    dsimp only
    rw [State.powerOn_of_low hpin] at *
    exact ⟨rfl, rfl, rfl, hcount, hboot⟩
  case undervoltage => exact fun s => ⟨_, rfl, rfl, rfl, rfl, rfl, rfl, rfl, rfl, rfl, rfl, rfl, rfl, rfl⟩
  case overvoltage =>
    intro s hoff htrip
    exact ⟨_, congrArg Host.Outcome.next (if_neg (by simp [hoff, htrip])), rfl, rfl, rfl, rfl, rfl⟩
  case trip =>
    intro s hpow htemp
    refine ⟨_, congrArg Host.Outcome.next (if_pos ⟨hpow, ?_⟩), rfl, rfl, rfl, rfl⟩
    simpa using htemp
  case reset =>
    intro b counted since s hask hpow hready hfrozen hfatal hdump hpin
    refine ⟨_, execModuleReset_begins b hask hpow hready hfrozen hfatal hdump hpin, ?_⟩
    obtain ⟨o, ho⟩ := s.countReset_only counted
    obtain ⟨w, hw⟩ := (s.countReset counted).beginModuleReset_begins
    obtain ⟨u, a, st, hl, hsome, -, hkept, hpending⟩ := (s.countReset counted).beginModuleReset.bootHubs_chosen b
    rw [ho] at hw hl hsome hkept hpending ⊢
    simp only [State.netLeaves, Prod.mk.injEq] at hw
    obtain ⟨hw, hlife, hflt⟩ := hw
    rw [hw] at hkept
    rw [hlife] at hl hsome hpending
    rw [hflt] at hpending
    simp only [State.bootKept, Prod.mk.injEq] at hkept
    obtain ⟨hatolls, hparts, hmail, hreconfs, hmem, -, -, hlog, hresets⟩ := hkept
    dsimp only
    rw [hl, hmem]
    refine ⟨hparts, hatolls, hmail, hreconfs, hpending (by simp), rfl, rfl, ?_, rfl, hpow, hsome, hresets⟩
    simpa [FaultSt.dumpStops] using hlog
  case fall =>
    intro s hpin hpow
    obtain ⟨t, ht, hlow⟩ := execModResetNFall_low s
    refine ⟨t, ht, hlow, fun hready => ?_, fun hbringup hfrozen => ?_⟩
    · rw [execModResetNFall_begins hpin hpow hready] at ht
      cases ht
      obtain ⟨w, hw⟩ := (s.modMgmt fun g => { g with modResetLow := true }).beginModuleReset_begins
      simp only [State.netLeaves, State.bootKept, Prod.mk.injEq] at hw
      obtain ⟨⟨hatolls, hparts, -, -, hmem, -⟩, hlife, -⟩ := hw
      rw [hlife, hmem]
      exact ⟨rfl, hparts, hatolls, rfl⟩
    · rw [execModResetNFall_held hpin hpow (.inl hbringup) hfrozen] at ht
      cases ht
      exact ⟨rfl, rfl, rfl, rfl⟩
  case rise =>
    intro b s hstate hfrozen htests
    refine ⟨_, execModResetNRise_boots b hstate hfrozen htests, ?_⟩
    obtain ⟨u, a, st, hl, hsome, -, hkept, -⟩ := (s.modMgmt fun g => { g with modResetLow := false }).bootHubs_chosen b
    simp only [State.bootKept, Prod.mk.injEq] at hkept
    obtain ⟨-, -, -, -, -, -, hmgmt, -⟩ := hkept
    rw [hl, hmgmt]
    exact ⟨rfl, rfl, fun hu => (hsome hu).trans hstate, rfl⟩
  case coldRise =>
    intro b s hstate hpow
    refine ⟨_, execModResetNRise_powers b hstate hpow, ?_⟩
    obtain ⟨u, a, st, hl, -, -, hkept⟩ := State.powerOn_chosen (s := s.modMgmt fun g => { g with modResetLow := false }) rfl b
    obtain ⟨hcount, -⟩ := (s.modMgmt fun g => { g with modResetLow := false }).powerOn_newBoot b
    simp only [State.bootKept, Prod.mk.injEq] at hkept
    obtain ⟨-, -, -, -, -, -, hmgmt, -⟩ := hkept
    rw [hl, hmgmt]
    exact ⟨rfl, rfl, rfl, hcount, rfl⟩
  case cold =>
    intro s hpin hstate
    exact ⟨_, congrArg Host.Outcome.next (if_neg (by simp [hpin, hstate])), rfl, rfl, rfl, rfl, rfl⟩

end Sys2Proof.Machine
end

section
/-! SUPPORT. Containment and power: what ends streams, operations and collectives leaves power delivery, the management port and the
faults; what fences units leaves power delivery and lifts no fence (10 R258-R268, Table 10-5; 15 Table 15-2). -/

namespace Sys2Proof.Machine

/-- Power delivery, the management port and the faults. -/
def State.plant (s : State) : PowerSt × MgmtSt × FaultSt := (s.power, s.mgmt, s.flt)

theorem State.partsOnly.plant {s t : State} (h : s.partsOnly t) : t.plant = s.plant := by
  rw [h]
  rfl

@[simp] theorem State.modAtoll_plant (s : State) (g : Nat) (f : Atoll → Atoll) : (s.modAtoll g f).plant = s.plant := rfl
@[simp] theorem State.modMem_plant (s : State) (f : MemSt → MemSt) : (s.modMem f).plant = s.plant := rfl
@[simp] theorem State.modUnit_plant (s : State) (h u : Nat) (f : StreamUnit → StreamUnit) : (s.modUnit h u f).plant = s.plant := rfl
@[simp] theorem State.modColl_plant (s : State) (k : CollKey) (f : Coll → Coll) : (s.modColl k f).plant = s.plant := rfl
@[simp] theorem State.modFab_plant (s : State) (f : FabSt → FabSt) : (s.modFab f).plant = s.plant := rfl
@[simp] theorem State.modLink_plant (s : State) (l : Nat) (f : FLink → FLink) : (s.modLink l f).plant = s.plant := rfl
@[simp] theorem State.dropLink_plant (s : State) (l : Nat) : (s.dropLink l).plant = s.plant := rfl
@[simp] theorem State.modLife_plant (s : State) (f : LifeSt → LifeSt) : (s.modLife f).plant = s.plant := rfl
@[simp] theorem State.freshen_plant (s : State) : s.freshen.plant = s.plant := rfl
@[simp] theorem State.modShoal_plant (s : State) (h : Nat) (f : Shoal → Shoal) : (s.modShoal h f).plant = s.plant := rfl
@[simp] theorem State.modHost_plant (s : State) (f : HostSt → HostSt) : (s.modHost f).plant = s.plant := rfl

@[simp] theorem State.modPart_plant (s : State) (p : Nat) (f : Part → Part) : (s.modPart p f).plant = s.plant :=
  (s.modPart_partsOnly p f).plant

@[simp] theorem State.trigger_plant (s : State) (p : Nat) (t : Trigger) : (s.trigger p t).plant = s.plant := s.modPart_plant p _

@[simp] theorem State.wakeCore_plant (s : State) (g c : Nat) : (s.wakeCore g c).plant = s.plant := by
  unfold State.wakeCore
  split
  · split <;> rfl
  · rfl

theorem State.wakeChain_plant (k : Nat) :
    (∀ s p st idx w, (State.completeCmdN k s p st idx w).plant = s.plant) ∧
    (∀ s o inc, (State.signalModN k s o inc).plant = s.plant) ∧ ∀ s o ws, (State.wakeModN k s o ws).plant = s.plant :=
  State.wakeChain_keepsView State.plant (fun _ _ => rfl) State.wakeCore_plant (fun _ _ _ => rfl)
    (fun s p _ _ => s.modPart_plant p _) (fun s p st idx w => (s.judge_partsOnly p st idx w).plant) k

@[simp] theorem State.completeCmd_plant (s : State) (p st idx : Nat) (w : Verdict) : (s.completeCmd p st idx w).plant = s.plant :=
  (State.wakeChain_plant _).1 s p st idx w

@[simp] theorem State.signalMod_plant (s : State) (o inc : Nat) : (s.signalMod o inc).plant = s.plant :=
  (State.wakeChain_plant _).2.1 s o inc

@[simp] theorem State.signalAtoll_plant (s : State) (g o inc : Nat) : (s.signalAtoll g o inc).plant = s.plant := by
  refine (State.foldl_keepsView State.plant _ (fun t w => ?_) _ _).trans (s.modAtoll_plant g _)
  split
  · exact State.wakeCore_plant ..
  · rfl
  · rfl

@[simp] theorem State.stopAllFenced_plant (s : State) (p cause : Nat) (seq : Word) : (s.stopAllFenced p cause seq).plant = s.plant := by
  unfold State.stopAllFenced
  split
  · rfl
  · refine State.foldl_keepsView State.plant _ (fun t st => ?_) _ s
    dsimp only
    split
    · exact (State.modPart_plant ..).trans (State.stopStream_partsOnly ..).plant
    · rfl

@[simp] theorem State.rollOrStop_plant (s : State) (p : Nat) (t : Trigger) : (s.rollOrStop p t).plant = s.plant := by
  unfold State.rollOrStop
  split
  · rfl
  · split <;> simp

/-! ### Operations, memory commands and collectives -/

@[simp] theorem State.batchEnd_plant (s : State) (p st idx : Nat) (w : DWord) : (s.batchEnd p st idx w).plant = s.plant := by
  unfold State.batchEnd
  split
  · rfl
  · split <;> simp

@[simp] theorem State.deliverOp_plant (s : State) (g : Nat) (src : OpSource) (origin : Nat) (w : DWord) (notify : Bool) (obj : Nat) :
    (s.deliverOp g src origin w notify obj).plant = s.plant := by
  unfold State.deliverOp
  dsimp only
  cases src with
  | seq u id => split <;> simp
  | core c => split <;> simp
  | batch p st idx k => split <;> simp

@[simp] theorem State.endMem_plant (s : State) (h u : Nat) (r : MemRun) : (s.endMem h u r).plant = s.plant := by
  unfold State.endMem State.deliverMem
  split
  · split
    · simp
    · dsimp only
      split <;> simp
  · simp

@[simp] theorem State.endColl_plant (s : State) (k : CollKey) (status : Nat) : (s.endColl k status).plant = s.plant := by
  unfold State.endColl
  split
  · rfl
  · split
    · rfl
    · dsimp only
      split <;> simp

@[simp] theorem State.abortColls_plant (s : State) (cls : Half) (seq : Word) : (s.abortColls cls seq).plant = s.plant :=
  State.foldl_keepsView State.plant _ (fun t c => by rw [State.rollOrStop_plant, State.endColl_plant]) _ s

/-! ### Writes held at the banks, migrations, links, channels and hubs -/

@[simp] theorem State.releaseHeld_plant (s : State) (g : Nat) : (s.releaseHeld g).plant = s.plant :=
  (State.foldl_keepsView State.plant _ (fun t _ => by
    rw [(t.onlyAtoll_lagoonWrite ..).1]
    rfl) _ _).trans rfl

@[simp] theorem State.releaseAround_plant (s : State) (g : Nat) : (s.releaseAround g).plant = s.plant := by
  refine (State.foldl_keepsView State.plant _ (fun t d => ?_) _ _).trans (s.releaseHeld_plant g)
  split
  · exact State.releaseHeld_plant ..
  · rfl

@[simp] theorem State.wantMigration_plant (s : State) (g : Nat) : (s.wantMigration g).plant = s.plant := by
  unfold State.wantMigration
  split
  · exact State.modPart_plant ..
  · rfl

@[simp] theorem State.wantRetire_plant (s : State) (c : Nat) : (s.wantRetire c).plant = s.plant := by
  unfold State.wantRetire
  split <;> rfl

@[simp] theorem State.fenceNeighbour_plant (s : State) (g dir : Nat) : (s.fenceNeighbour g dir).plant = s.plant := by
  unfold State.fenceNeighbour
  dsimp only
  split <;> rfl

@[simp] theorem State.fenceLane_plant (s : State) (l sub : Nat) : (s.fenceLane l sub).plant = s.plant := by
  unfold State.fenceLane
  extract_lets m t
  split
  · exact (State.dropLink_plant ..).trans (State.modLink_plant ..)
  · exact State.modLink_plant ..

@[simp] theorem State.hubLost_plant (s : State) (h : Nat) : (s.hubLost h).plant = s.plant := by
  unfold State.hubLost
  split <;> rfl

/-! ### What fences units (10 R258, R259) -/

/-- A state after containment: power delivery, the management port, the records and the out-of-service flag are as before, and no
fence is lifted. -/
structure State.contained (s t : State) : Prop where
  power : t.power = s.power
  mgmt : t.mgmt = s.mgmt
  records : t.flt.collectors = s.flt.collectors
  service : t.flt.outOfService = s.flt.outOfService
  fenced : ∀ u, s.isFenced u = true → t.isFenced u = true

theorem State.contained.refl (s : State) : s.contained s := ⟨rfl, rfl, rfl, rfl, fun _ h => h⟩

theorem State.contained.trans {s t u : State} (h : s.contained t) (k : t.contained u) : s.contained u :=
  ⟨k.power.trans h.power, k.mgmt.trans h.mgmt, k.records.trans h.records, k.service.trans h.service,
    fun v hv => k.fenced v (h.fenced v hv)⟩

theorem State.contained.of_plant {s t : State} (h : t.plant = s.plant) : s.contained t := by
  simp only [State.plant, Prod.mk.injEq] at h
  obtain ⟨hp, hm, hf⟩ := h
  refine ⟨hp, hm, congrArg FaultSt.collectors hf, congrArg FaultSt.outOfService hf, fun u hu => ?_⟩
  rwa [State.isFenced, hf]

theorem State.contained.foldl {α : Type} {f : State → α → State} (h : ∀ (t : State) (x : α), t.contained (f t x)) (l : List α) (s : State) :
    s.contained (l.foldl f s) := by
  induction l generalizing s with
  | nil => exact .refl s
  | cons x l ih => exact (h s x).trans (ih _)

/-- What follows a contained state and leaves the plant. -/
theorem State.contained.plant {s t u : State} (h : s.contained t) (k : u.plant = t.plant) : s.contained u := h.trans (.of_plant k)

theorem State.fenceUnit_contained (s : State) (u : Word) (cls : Half) (seq : Word) (source : BitVec 2) (retry : Bool) :
    s.contained (s.fenceUnit u cls seq source retry) := by
  obtain ⟨es, r, fs, q, h⟩ := s.fenceUnit_frame u cls seq source retry
  refine ⟨?_, ?_, ?_, ?_, fun v hv => State.fenceUnit_isFenced_of s u cls seq source retry hv⟩ <;> rw [h]

theorem State.escalate_contained (s : State) (seq : Word) : s.contained (s.escalate seq) := by
  obtain ⟨ev, es, ft, fq, n, fs, r, h⟩ := s.escalate_frame seq
  rw [h]
  exact ⟨rfl, rfl, rfl, rfl, fun _ hv => hv⟩

theorem State.goFatal_contained (s : State) (seq : Word) : s.contained (s.goFatal seq) := by
  unfold State.goFatal
  split
  · exact .refl s
  · obtain ⟨n, fs, hflood⟩ := (s.modFlt fun f => { f with fatal := true, fatalSeq := seq }).floodAll_frame 1 true seq
    rw [hflood]
    obtain ⟨es, hnote⟩ := State.noticeAll_frame _ 7 seq
    rw [hnote]
    exact ⟨rfl, rfl, rfl, rfl, fun _ hv => hv⟩

theorem State.escalateAtoll_contained (s : State) (g : Nat) (cls : Half) (seq : Word) : s.contained (s.escalateAtoll g cls seq) := by
  unfold State.escalateAtoll
  split
  · exact (State.contained.of_plant (State.trigger_plant ..)).trans (State.escalate_contained ..)
  · exact .refl s

theorem State.fenceAtoll_contained (s : State) (g : Nat) (u : Word) (cls : Half) (seq : Word) (addr : Option DWord) :
    s.contained (s.fenceAtoll g u cls seq addr) := by
  have hfence := (s.fenceUnit_contained u cls seq 1 false).trans (State.fenceUnit_contained _ (siteUnit g) cls seq 1 false)
  unfold State.fenceAtoll
  split
  · exact hfence.plant (State.trigger_plant ..)
  · exact hfence

theorem State.fenceSites_contained (s : State) (gs : List Nat) (cls : Half) (seq : Word) : s.contained (s.fenceSites gs cls seq) :=
  .foldl (fun t g => t.fenceAtoll_contained g _ cls seq none) gs s

theorem State.fenceEngine_contained (s : State) (g e : Nat) (cls : Half) (seq : Word) (used : Nat) :
    s.contained (s.fenceEngine g e cls seq used) := by
  have hfence := s.fenceUnit_contained (engineUnit g e) cls seq 1 false
  unfold State.fenceEngine
  dsimp only
  split
  · exact hfence.plant (by simp)
  · refine .trans ?_ (State.escalateAtoll_contained ..)
    refine hfence.plant ?_
    rw [State.releaseAround_plant]
    exact (State.foldl_keepsView State.plant _ (fun _ _ => State.deliverOp_plant ..) _ _).trans (State.modAtoll_plant ..)

theorem State.fenceVec_contained (s : State) (g v : Nat) (cls : Half) (seq : Word) : s.contained (s.fenceVec g v cls seq) := by
  have hfence := s.fenceUnit_contained (vecUnit g v) cls seq 1 false
  unfold State.fenceVec
  dsimp only
  split
  · refine .trans ?_ (.foldl (fun t o => ?_) _ _)
    · exact hfence.plant (by simp)
    · exact (State.contained.of_plant (State.deliverOp_plant ..)).trans (State.escalateAtoll_contained ..)
  · refine .trans ?_ (State.escalateAtoll_contained ..)
    exact hfence.plant ((State.foldl_keepsView State.plant _ (fun _ _ => State.deliverOp_plant ..) _ _).trans
      (State.modAtoll_plant ..))

theorem State.fenceStreamUnit_contained (s : State) (h u : Nat) (cls : Half) (seq : Word) :
    s.contained (s.fenceStreamUnit h u cls seq) := by
  have hfence := s.fenceUnit_contained (streamUnitId h u) cls seq 1 false
  unfold State.fenceStreamUnit
  dsimp only
  split
  · exact hfence
  · split
    · exact hfence.plant (by simp)
    · exact hfence.plant (State.modUnit_plant ..)

theorem State.fenceManager_contained (s : State) (node : Nat) (cls : Half) (seq : Word) :
    s.contained (s.fenceManager node cls seq) := by
  unfold State.fenceManager
  dsimp only
  split
  · exact .refl s
  · refine .trans ?_ (State.escalate_contained ..)
    exact (s.fenceUnit_contained _ cls seq 1 false).trans ⟨rfl, rfl, rfl, rfl, fun _ h => h⟩

/-- The containment of any unit but a phase. -/
theorem State.contain_contained (s : State) (u : Word) (cls : Half) (seq : Word) (h14 : uKind u ≠ 14) :
    s.contained (s.contain u cls seq) := by
  have hfence (retry : Bool) := s.fenceUnit_contained u cls seq 1 retry
  unfold State.contain
  dsimp only
  rw [if_neg h14]
  split
  · exact s.fenceManager_contained ..
  split
  case h_1 =>
    split
    · exact (State.contained.of_plant s.freshen_plant).trans (State.fenceEngine_contained ..)
    split
    · exact s.fenceVec_contained ..
    split
    · exact (hfence false).plant (State.wantMigration_plant ..)
    split
    · exact (hfence false).plant (State.fenceNeighbour_plant ..)
    · exact s.fenceAtoll_contained ..
  case h_2 => exact hfence false
  case h_3 =>
    split
    · exact .of_plant (State.wantRetire_plant ..)
    split
    · exact s.fenceStreamUnit_contained ..
    split
    · exact (hfence false).plant (State.abortColls_plant ..)
    · exact hfence false
  case h_4 =>
    split
    · exact (hfence false).plant (State.abortColls_plant ..)
    split
    · exact (hfence true).plant (State.fenceLane_plant ..)
    · exact hfence false
  case h_5 =>
    split
    · exact (hfence false).plant (State.hubLost_plant ..)
    · exact hfence false

end Sys2Proof.Machine
end

section
/-! SUPPORT. The end of a power-on or module-reset timeline (14 R352-R356), and the images that the hubs boot (16 R388-R390). -/

namespace Sys2Proof.Machine

theorem State.ite_keepsView {β : Type} (v : State → β) {p : Prop} [Decidable p] {s t u : State} (ht : v t = v s) (hu : v u = v s) :
    v (if p then t else u) = v s := by
  split <;> assumption

/-! ### What a timeline leaves -/

/-- The out-of-service flag and the management port. -/
def State.standing (s : State) : Bool × MgmtSt := (s.flt.outOfService, s.mgmt)

theorem State.contained.standing {s t : State} (h : s.contained t) : t.standing = s.standing := Prod.ext h.service h.mgmt

@[simp] theorem State.unfence_standing (s : State) (u : Word) : (s.unfence u).standing = s.standing := by
  unfold State.unfence
  dsimp only
  (repeat' split) <;> rfl

@[simp] theorem State.resolveClears_standing (s : State) (t : BringUp) (fresh : Bool) : (s.resolveClears t fresh).standing = s.standing :=
  (rfl : _ = _).trans (State.foldl_keepsView State.standing _ (fun x u => x.unfence_standing u) _ s)

@[simp] theorem State.request_standing (s : State) (q : LedgerReq) : (s.request q).standing = s.standing := by
  unfold State.request
  split
  · rfl
  · dsimp only
    split
    · split <;> rfl
    · rfl

@[simp] theorem State.raiseRegions_standing (s : State) : s.raiseRegions.standing = s.standing := by
  refine State.foldl_keepsView State.standing _ (fun x k => ?_) _ s
  split
  · rfl
  split
  · exact State.request_standing ..
  · exact State.ite_keepsView State.standing rfl rfl

/-- A failing test of any unit but a phase. -/
theorem State.failTest_standing (s : State) (u : Word) (cls : Half) (h14 : uKind u ≠ 14) :
    (s.failTest u cls).standing = s.standing := by
  unfold State.failTest
  dsimp only
  split
  · rfl
  split
  · split
    · exact (State.fenceManager_contained ..).standing
    · exact (State.fenceUnit_contained ..).standing
  · exact (State.contain_contained _ u cls _ h14).standing

@[simp] theorem State.failCores_standing (s : State) : s.failCores.standing = s.standing := by
  refine State.foldl_keepsView State.standing _ (fun x e => ?_) _ s
  split
  · rfl
  split
  · exact x.failTest_standing _ _ (by simp [managerUnit_kind])
  · exact x.failTest_standing _ _ (by rw [atollUnit_kind _ _ _ _ (by omega) (by omega) (by omega)]; decide)

@[simp] theorem State.testChannels_standing (s : State) (t : BringUp) (fresh : Bool) : (s.testChannels t fresh).standing = s.standing := by
  unfold State.testChannels
  split
  · rfl
  · exact State.foldl_keepsView State.standing _ (fun x c => (State.contained.of_plant (x.wantRetire_plant c)).standing) _ s

@[simp] theorem State.trainLink_standing (s : State) (l : Nat) (lane0 lane1 : Bool) : (s.trainLink l lane0 lane1).standing = s.standing := by
  unfold State.trainLink
  dsimp only
  split <;> rfl

@[simp] theorem State.testLinks_standing (s : State) (t : BringUp) : (s.testLinks t).standing = s.standing := by
  unfold State.testLinks
  split
  · exact State.foldl_keepsView State.standing _ (fun _ _ => by rfl) _ s
  · refine State.foldl_keepsView State.standing _ (fun x l => ?_) _ s
    refine (State.foldl_keepsView State.standing _ (fun (z : State) (e : Word × Bool) => z.unfence_standing e.1) _ _).trans ?_
    split
    · rfl
    split
    · exact State.trainLink_standing ..
    · split <;> rfl

@[simp] theorem State.raisedRuns_standing (s : State) (fails : List Word) : (s.raisedRuns fails).standing = s.standing := by
  refine State.foldl_keepsView State.standing _ (fun x g => ?_) _ s
  dsimp only
  split <;> rfl

@[simp] theorem State.stampPatrols_standing (s : State) : s.stampPatrols.standing = s.standing := by
  unfold State.stampPatrols
  extract_lets gap s1
  have h1 : s1.standing = s.standing := by
    refine State.foldl_keepsView State.standing _ (fun x g => ?_) _ s
    exact State.ite_keepsView State.standing rfl rfl
  clear_value s1
  exact .trans rfl h1

/-! ### The end of a timeline (14 R356) -/

/-- The containment of any unit but a phase keeps queue, state, power and active hub. -/
theorem State.contain_lifeKey (s : State) (u : Word) (cls : Half) (seq : Word) (h14 : uKind u ≠ 14) :
    lifeKeyOf (s.contain u cls seq).spine = lifeKeyOf s.spine := by
  unfold State.contain
  dsimp only
  rw [if_neg h14]
  (repeat' split) <;> simp

theorem State.failTest_lifeKey (s : State) (u : Word) (cls : Half) (h14 : uKind u ≠ 14) :
    lifeKeyOf (s.failTest u cls).spine = lifeKeyOf s.spine := by
  unfold State.failTest
  dsimp only
  split
  · rfl
  split
  · split <;> simp
  · rw [State.contain_lifeKey _ _ _ _ h14, State.raise_spine]

/-- Failing tests of units that are no phases keep the power, the out-of-service flag and the management port. -/
theorem State.failTests_kept (l : List (Word × Half)) (h14 : ∀ e ∈ l, uKind e.1 ≠ 14) (s : State) :
    let t := l.foldl (fun x e => if x.life.powered then x.failTest e.1 e.2 else x) s
    t.standing = s.standing ∧ t.life.powered = s.life.powered := by
  induction l generalizing s with
  | nil => exact ⟨rfl, rfl⟩
  | cons e l ih =>
    obtain ⟨hs, hp⟩ := ih (fun x hx => h14 x (List.mem_cons_of_mem e hx)) (if s.life.powered then s.failTest e.1 e.2 else s)
    have h := h14 e List.mem_cons_self
    refine ⟨hs.trans ?_, hp.trans ?_⟩
    · exact State.ite_keepsView State.standing (s.failTest_standing _ _ h) rfl
    · exact State.ite_keepsView (fun t : State => t.life.powered) (powered_of_lifeKey (s.failTest_lifeKey _ _ h)) rfl

/-- The state of the timeline's end: the lifecycle decided, the heartbeat word and the state-change event written. -/
def State.decided (s : State) (f : LifeSt → LifeSt) : State :=
  let t := s.modLife f
  let u := t.modFlt fun g => { g with hbWord := t.heartbeat }
  u.postEvent { type := 4, mailboxes := [0], content := leBytes 8 u.heartbeat.toNat }

theorem State.param_congr {s t : State} (h : t.params = s.params) (n : Nat) : t.param n = s.param n := by
  unfold State.param
  rw [h]

theorem State.healthyCount_congr {s t : State} (h : t.flt.fenced = s.flt.fenced) : t.healthyCount = s.healthyCount := by
  unfold State.healthyCount State.siteHealthy
  rw [h]

theorem State.devicesPassing_congr {s t : State} (h : t.mem = s.mem) : t.devicesPassing = s.devicesPassing := by
  unfold State.devicesPassing
  rw [h]

theorem State.linksTrained_congr {s t : State} (h : t.fab = s.fab) : t.linksTrained = s.linksTrained := by
  unfold State.linksTrained State.link
  rw [h]

theorem State.hubSecure_congr {s t : State} (h : t.fw = s.fw) (k : Nat) (b : BringUp) : t.hubSecure k b = s.hubSecure k b := by
  unfold State.hubSecure State.fwHub
  rw [h]

theorem State.countedResets_congr {s t : State} (h : t.flt.moduleResets = s.flt.moduleResets) (hcount : t.count = s.count)
    (hparams : t.params = s.params) : t.countedResets = s.countedResets := by
  unfold State.countedResets
  rw [h, hcount, State.param_congr hparams]

/-- Table 14-5 asks the fences, the channels, the links, the firmware, the straps and the parameters. -/
theorem State.holds_congr {s t : State} (b : BringUp) (hfence : t.flt.fenced = s.flt.fenced) (hmem : t.mem = s.mem)
    (hfab : t.fab = s.fab) (hfw : t.fw = s.fw) (hstrap : t.life.strap = s.life.strap) (hparams : t.params = s.params) :
    t.holds b = s.holds b := by
  unfold State.holds
  rw [State.healthyCount_congr hfence, State.devicesPassing_congr hmem, State.linksTrained_congr hfab, State.hubSecure_congr hfw,
    State.hubSecure_congr hfw, State.param_congr hparams, State.param_congr hparams, hstrap]

/-- The heartbeat word does not tell itself (Table 11-7). -/
theorem State.heartbeat_congr {s t : State} {w : DWord} (hflt : t.flt = { s.flt with hbWord := w }) (hlife : t.life = s.life)
    (hcount : t.count = s.count) (hparams : t.params = s.params) : t.heartbeat = s.heartbeat := by
  have hhealthy : t.healthyCount = s.healthyCount := State.healthyCount_congr (by rw [hflt])
  have hresets : t.countedResets = s.countedResets := State.countedResets_congr (by rw [hflt]) hcount hparams
  unfold State.heartbeat State.reducedNow State.unreadDump
  rw [hhealthy, hresets, hlife, hflt]

theorem State.modLife_holds (s : State) (b : BringUp) {f : LifeSt → LifeSt} (hf : ∀ l, (f l).strap = l.strap) :
    (s.modLife f).holds b = s.holds b := State.holds_congr b rfl rfl rfl rfl (hf s.life) rfl

theorem State.written_holds (t : State) (w : DWord) (e : Event) (b : BringUp) :
    ((t.modFlt fun g => { g with hbWord := w }).postEvent e).holds b = t.holds b := State.holds_congr b rfl rfl rfl rfl rfl rfl

theorem State.decided_holds (s : State) (b : BringUp) {f : LifeSt → LifeSt} (hf : ∀ l, (f l).strap = l.strap) :
    (s.decided f).holds b = s.holds b := by
  unfold State.decided
  extract_lets t u
  rw [State.written_holds, State.modLife_holds s b hf]

/-- The word written at the end of a timeline is the word of every state with the same lifecycle. -/
theorem State.written_heartbeat (t : State) (w : DWord) (e : Event) :
    ((t.modFlt fun g => { g with hbWord := w }).postEvent e).heartbeat = t.heartbeat :=
  State.heartbeat_congr (w := w) rfl rfl rfl rfl

theorem State.setBeat_heartbeat (t : State) (w : DWord) : (t.modFlt fun g => { g with hbWord := w }).heartbeat = t.heartbeat :=
  State.heartbeat_congr (w := w) rfl rfl rfl rfl

theorem State.written_hbWord (t : State) (w : DWord) (e : Event) :
    ((t.modFlt fun g => { g with hbWord := w }).postEvent e).flt.hbWord = w := rfl

theorem State.written_events (t : State) (w : DWord) (e : Event) :
    ((t.modFlt fun g => { g with hbWord := w }).postEvent e).events = t.events ++ [e] := rfl

theorem State.decided_hbWord (s : State) (f : LifeSt → LifeSt) : (s.decided f).flt.hbWord = (s.decided f).heartbeat := by
  unfold State.decided
  extract_lets t u
  rw [State.written_heartbeat, State.written_hbWord]

theorem State.decided_events (s : State) (f : LifeSt → LifeSt) : (s.decided f).events =
    s.events ++ [{ type := 4, mailboxes := [0], content := leBytes 8 (s.decided f).heartbeat.toNat }] := by
  unfold State.decided
  extract_lets t u
  rw [State.written_heartbeat, State.setBeat_heartbeat, State.written_events, State.modLife_events]

/-- A timeline whose failing units are no phases ends in the state of Table 14-5. -/
theorem State.endTimeline_decided {s : State} {b : BringUp} (hpow : s.life.powered = true) (hheld : s.mgmt.resetHeld = false)
    (h14 : ∀ e ∈ b.failingUnits, uKind e.1 ≠ 14) : ∃ (u : State) (f : LifeSt → LifeSt), s.endTimeline b = u.decided f ∧
    (∀ l, (f l).strap = l.strap ∧ (f l).tests = none ∧
      (f l).state = if s.flt.outOfService then .outOfService else if u.holds b then .holding else .ready) := by
  unfold State.endTimeline
  extract_lets fresh s1 k s2 s3 s4 s5 s6 st s7 s8 s9
  have h1 : s1.standing = s.standing ∧ s1.life.powered = s.life.powered := by
    unfold s1
    exact ⟨by simp, congrArg LifeSt.powered (State.life_of_spine (by simp))⟩
  have hk : k.standing = s.standing ∧ k.life.powered = true := by
    obtain ⟨hs, hp⟩ := State.failTests_kept b.failingUnits h14 s1
    exact ⟨hs.trans h1.1, hp.trans (h1.2.trans hpow)⟩
  clear_value k
  obtain ⟨hk, hp⟩ := hk
  rw [if_neg (by simp [hp])]
  have h4 : s4.standing = s.standing := by
    unfold s4 s3 s2
    rw [State.raisedRuns_standing, State.testLinks_standing, State.testChannels_standing,
      State.foldl_keepsView State.standing _ (fun _ _ => by rfl), State.failCores_standing, hk]
  have h6 : s6.standing = s.standing := by
    have hspread (x : State) (f : NetSt → NetSt) : (x.spreadFirmware.modNet f).standing = x.standing := rfl
    rw [hspread, State.stampPatrols_standing, h4]
  clear_value s6
  simp only [State.standing, Prod.mk.injEq] at h6
  obtain ⟨hservice, hmgmt⟩ := h6
  have hheld9 : s9.mgmt.resetHeld = false := by
    unfold s9 s8 s7
    rw [State.postEvent_mgmt, State.modFlt_mgmt, State.modLife_mgmt, hmgmt, hheld]
  rw [if_pos (by simp [hheld9])]
  refine ⟨s6, _, rfl, fun l => ⟨rfl, rfl, ?_⟩⟩
  dsimp only [st]
  rw [hservice]

/-! ### Firmware images (16 R390) -/

@[simp] theorem FwHub.setSlot_slot (x : FwHub) (n : Nat) (v : FwSlot) : (x.setSlot n v).slot n = v := by
  unfold FwHub.setSlot FwHub.slot
  split <;> rfl

@[simp] theorem FwHub.setSlot_floor (x : FwHub) (n : Nat) (v : FwSlot) : (x.setSlot n v).floor = x.floor := by
  unfold FwHub.setSlot
  split <;> rfl

@[simp] theorem State.modFwHub_fwHub (s : State) (h : Nat) (f : FwHub → FwHub) : (s.modFwHub h f).fwHub h = f (s.fwHub h) :=
  Tbl.getD_set_self ..

theorem State.modFwHub_fwHub_ne (s : State) {h k : Nat} (f : FwHub → FwHub) (hk : k ≠ h) : (s.modFwHub h f).fwHub k = s.fwHub k :=
  Tbl.getD_set_ne _ _ _ hk

/-- A hub whose slot record names a good image boots it. -/
theorem State.bootFw_good {s : State} {h : Nat} {i : FwInfo} (hg : (s.fwHub h).good (s.fwHub h).next = some i) :
    s.bootFw h = s.modFwHub h fun y => { y with booted := (s.fwHub h).next, running := i } := by
  unfold State.bootFw
  simp only [hg]

theorem State.noteChange_only (s old : State) : ∃ es, s.noteChange old = { s with events := es } := by
  unfold State.noteChange
  split
  · exact ⟨s.events, rfl⟩
  · exact ⟨_, rfl⟩

/-- A hub's firmware with image v in slot n, which it boots next. -/
def FwHub.takes (x : FwHub) (n : Nat) (v : FwSlot) : FwHub := { x.setSlot n v with next := n }

theorem FwHub.takes_good {x : FwHub} {v : FwSlot} {i : FwInfo} (n : Nat) (hinfo : v.info = some i) (hfloor : x.floor ≤ i.security) :
    (x.takes n v).good n = some i := by
  have hslot : (x.takes n v).slot n = v := x.setSlot_slot n v
  have hfl : (x.takes n v).floor = x.floor := x.setSlot_floor n v
  rw [FwHub.good, hslot, hfl, hinfo, Option.filter_some, if_pos (decide_eq_true hfloor)]

/-- The state once hub b boots image v from the slot that it does not run. -/
def State.imageSynced (s : State) (b : Nat) (v : FwSlot) : State :=
  (s.modFwHub b fun z => z.takes (1 - (s.fwHub b).booted) v).bootFw b

theorem State.imageSynced_boots {s : State} {b : Nat} {v : FwSlot} {i : FwInfo} (hinfo : v.info = some i)
    (hfloor : (s.fwHub b).floor ≤ i.security) : ((s.imageSynced b v).fwHub b).running = i ∧
      ((s.imageSynced b v).fwHub b).booted = 1 - (s.fwHub b).booted ∧
      (∀ k, k ≠ b → (s.imageSynced b v).fwHub k = s.fwHub k) ∧ (s.imageSynced b v).life = s.life := by
  unfold State.imageSynced
  rw [State.bootFw_good (by rw [State.modFwHub_fwHub]; exact FwHub.takes_good _ hinfo hfloor)]
  refine ⟨?_, ?_, fun k hk => ?_, rfl⟩
  · rw [State.modFwHub_fwHub]
  · rw [State.modFwHub_fwHub, State.modFwHub_fwHub]
    rfl
  · rw [State.modFwHub_fwHub_ne _ _ hk, State.modFwHub_fwHub_ne _ _ hk]

/-- Two usable hubs that run the same version. -/
theorem State.standbyNow_of_same {s : State} {a : Nat} (husable : s.life.usable = 3) (ha : a < 2)
    (hv : (s.fwHub a).running.version = (s.fwHub (1 - a)).running.version) : s.standbyNow = true := by
  rw [State.standbyNow, husable]
  rcases Nat.le_one_iff_eq_zero_or_eq_one.1 (Nat.le_of_lt_succ ha) with rfl | rfl
  · simp [hv]
  · simp [← hv]

end Sys2Proof.Machine
end

section
/-! O36: the end of bring-up, row by row. -/

namespace Sys2Proof.Machine

theorem execBringupStateDecision_ends {b : BringUp} {s : State} (htests : s.life.tests = some b)
    (hstate : s.life.state = .bringup ∨ s.life.state = .moduleReset) (hfrozen : s.life.frozen = false) (hticks : s.ticks = true) :
    execBringupStateDecision s = .next (s.endTimeline b) := by
  simp [execBringupStateDecision, htests, hstate, hfrozen, hticks]

/-- What a core that still takes blocks has after one more. -/
def FwCoreSt.afterBlock (x : FwCoreSt) (last crcOk sealOk : Bool) : FwCoreSt :=
  if ¬ crcOk then { x with asks := x.asks + 1, failed := decide (x.asks ≥ 3) }
  else if ¬ last then { x with blocks := x.blocks + 1, asks := 0 }
  else { x with blocks := x.blocks + 1, asks := 0, running := sealOk, failed := !sealOk }

theorem execFirmwareBlockReceive_takes {core : FwCore} {x : FwCoreSt} {s : State} (last crcOk sealOk : Bool)
    (hstate : s.life.state = .bringup) (hfrozen : s.life.frozen = false) (htests : s.life.tests.isSome = true)
    (hx : Tbl.getD s.fw.cores (fwCoreNum core) { blocks := 0, asks := 0, running := false, failed := false } = x)
    (hrun : x.running = false) (hfail : x.failed = false) :
    execFirmwareBlockReceive core last crcOk sealOk s = .next (s.modFw fun w =>
      { w with cores := Tbl.set w.cores (fwCoreNum core) (x.afterBlock last crcOk sealOk) }) := by
  have hsome : ¬ s.life.tests.isNone = true := by simpa [Option.isSome_iff_ne_none] using htests
  rw [execFirmwareBlockReceive]
  dsimp only
  rw [hx, if_neg (by simp [hstate, hfrozen, hsome, hrun, hfail])]
  rfl

theorem execStandbyImageSync_boots {s : State} (hruns : s.hubRuns = true) (husable : s.life.usable = 3)
    (hstandby : s.life.standby = false) (hact : s.fw.activation = none)
    (hver : (s.fwHub s.life.activeHub).running.version ≠ (s.fwHub (1 - s.life.activeHub)).running.version) :
    let t := s.imageSynced (1 - s.life.activeHub) ((s.fwHub s.life.activeHub).slot (s.fwHub s.life.activeHub).booted)
    execStandbyImageSync s = .next ((t.modLife fun l => { l with standby := t.standbyNow }).noteChange s) := by
  rw [execStandbyImageSync]
  dsimp only
  rw [if_neg (by simp [hruns, husable, hstandby, hact, hver])]
  rfl

/-- Settles O36, row by row. -/
theorem bringUpEnds : Obligations.BringUpEnds := by
  refine ⟨?decision, ?last, ?bad, ?sync, ?key⟩
  case decision =>
    intro b s htests hstate hfrozen hticks hheld h14
    have hpow : s.life.powered = true := by
      simp only [State.ticks, Bool.and_eq_true] at hticks
      exact hticks.1
    obtain ⟨u, f, hu, hf⟩ := State.endTimeline_decided hpow hheld h14
    obtain ⟨-, htests', hstate'⟩ := hf u.life
    refine ⟨u.decided f, (execBringupStateDecision_ends htests hstate hfrozen hticks).trans (congrArg Host.Outcome.next hu), ?_⟩
    dsimp only
    rw [State.decided_holds u b fun l => (hf l).1, State.decided_events]
    exact ⟨htests', hstate', u.decided_hbWord f, _, List.getLast?_concat .., rfl, rfl⟩
  case last =>
    intro core sealOk x s hstate hfrozen htests hx hrun hfail
    refine ⟨_, execFirmwareBlockReceive_takes true true sealOk hstate hfrozen htests hx hrun hfail, rfl, _, Tbl.get?_set_self .., ?_⟩
    exact ⟨rfl, rfl, rfl⟩
  case bad =>
    intro core last sealOk x s hstate hfrozen htests hx hrun hfail
    refine ⟨_, execFirmwareBlockReceive_takes last false sealOk hstate hfrozen htests hx hrun hfail, _, Tbl.get?_set_self .., ?_⟩
    exact ⟨hrun, rfl, rfl, rfl⟩
  case sync =>
    intro i s b hruns husable hstandby hact hhub hver hbooted hinfo hfloor hversion
    have hne : s.life.activeHub ≠ b := by omega
    obtain ⟨hrun, hboot, hothers, hlife⟩ := State.imageSynced_boots (s := s) (b := b) hinfo hfloor
    have hnow := State.standbyNow_of_same ((congrArg LifeSt.usable hlife).trans husable) hhub
      ((congrArg (·.running.version) (hothers _ hne)).trans (hversion.symm.trans (congrArg FwInfo.version hrun.symm)))
    refine ⟨_, execStandbyImageSync_boots hruns husable hstandby hact hver, ?_⟩
    dsimp only
    obtain ⟨es, hes⟩ := State.noteChange_only ((s.imageSynced b ((s.fwHub s.life.activeHub).slot
      (s.fwHub s.life.activeHub).booted)).modLife fun l => { l with standby := (s.imageSynced b ((s.fwHub s.life.activeHub).slot
      (s.fwHub s.life.activeHub).booted)).standbyNow }) s
    rw [hes]
    exact ⟨hrun, hboot, hnow, hothers _ hne⟩
  case key =>
    intro core h key s hpow hfrozen
    refine ⟨_, rfl, fun hrole => ?_, fun hrole => ?_⟩
    · rw [if_neg (by simp [hpow, hfrozen, hrole])]
      exact ⟨rfl, Tbl.get?_set_self ..⟩
    · exact if_pos (by simp [hrole])

end Sys2Proof.Machine
end

section
/-! SUPPORT. Power delivery: phases and dark regions, the ledger, ramps, the thermal response, bus converters and ageing (15
R368-R384). -/

namespace Sys2Proof.Machine

/-! ### Dark regions (Table 15-2) -/

/-- Power delivery once region key is switched off for good. -/
def PowerSt.darkened (p : PowerSt) (key : Nat) (mark : RegionState) : PowerSt :=
  { p with
    state := Tbl.set p.state key mark, ramping := p.ramping.filter fun e => e.1 != key,
    queue := p.queue.filter fun q => match q with
      | .region k _ => k != key
      | .bank .. => true }

theorem State.fenceUnits_contained (us : List Word) (cls : Half) (seq : Word) (s : State) :
    s.contained (us.foldl (fun t u => t.fenceUnit u cls seq) s) := .foldl (fun t u => t.fenceUnit_contained u cls seq 1 false) us s

/-- Beyond its own switching-off a dark region is contained. -/
theorem State.goDark_contained (s : State) (key : Nat) (cls : Half) (seq : Word) (mark : RegionState) :
    (s.modPower fun p => p.darkened key mark).contained (s.goDark key cls seq mark) := by
  unfold State.goDark
  dsimp only
  split
  · split
    · exact State.fenceSites_contained ..
    split
    · exact State.fenceSites_contained ..
    · exact (State.fenceSites_contained ..).trans (State.fenceUnits_contained ..)
  split
  · split
    · refine .trans ?_ (State.fenceManager_contained ..)
      refine State.contained.plant ?_ (State.abortColls_plant ..)
      exact (State.contained.foldl (fun t u => t.fenceStreamUnit_contained _ u cls seq) _ _).trans
        (State.fenceUnit_contained _ _ cls seq 1 false)
    split
    · exact .of_plant (State.modShoal_plant ..)
    · exact .foldl (fun t c => .of_plant (t.wantRetire_plant _)) _ _
  split
  · refine State.contained.plant ?_ (State.abortColls_plant ..)
    have hunit (t : State) (u : Word) := t.fenceUnit_contained u cls seq 1 false
    exact ((((State.contained.foldl (fun t i => .of_plant (t.fenceLane_plant _ _)) _ _).trans (hunit _ _)).trans (hunit _ _)).trans
      (hunit _ _)).trans (hunit _ _)
  split
  · exact (State.contained.foldl (fun t i => t.fenceUnit_contained _ cls seq 1 false) _ _).plant (State.hubLost_plant ..)
  split
  · exact (State.contained.of_plant (State.modHost_plant ..)).trans (State.goFatal_contained ..)
  · exact .of_plant (State.modLife_plant ..)

theorem State.goDark_region (s : State) (key : Nat) (cls : Half) (seq : Word) (mark : RegionState) :
    (s.goDark key cls seq mark).region key = mark := by
  rw [State.region, (s.goDark_contained key cls seq mark).power]
  exact Tbl.getD_set_self ..

/-- Every site of a list that is fenced is fenced. -/
theorem State.fenceSites_isFenced (gs : List Nat) (cls : Half) (seq : Word) (s : State) {g : Nat} (hg : g ∈ gs) :
    (s.fenceSites gs cls seq).isFenced (siteUnit g) = true := by
  induction gs generalizing s with
  | nil => cases hg
  | cons a gs ih =>
    rcases List.mem_cons.1 hg with rfl | hg
    · obtain ⟨-, hfenced, -⟩ := s.fenceAtoll_spec g (siteUnit g) cls seq none
      exact (State.fenceSites_contained _ gs cls seq).fenced _ hfenced
    · exact ih _ hg

theorem regionKey_div (n r : Nat) (hr : r < 13) : (n * 16 + r) / 16 = n := by omega

theorem regionKey_mod (n r : Nat) (hr : r < 13) : (n * 16 + r) % 16 = r := by omega

theorem keyLogic_iff (n r : Nat) (hr : r < 13) : keyLogic (n * 16 + r) = true ↔ n < 8 ∧ r < 10 := by
  rw [keyLogic, regionKey_div n r hr, regionKey_mod n r hr]
  simp

/-- A logic region that goes dark takes its four sites with it. -/
theorem State.goDark_sites (s : State) {n r : Nat} (cls : Half) (seq : Word) (hr : r < 13) (hlogic : keyLogic (n * 16 + r) = true)
    {g : Nat} (hg : g ∈ regionSites n r) : (s.goDark (n * 16 + r) cls seq).isFenced (siteUnit g) = true := by
  obtain ⟨hn, hr'⟩ := (keyLogic_iff n r hr).1 hlogic
  unfold State.goDark
  dsimp only
  rw [regionKey_div n r hr, regionKey_mod n r hr, if_pos hn, if_pos hr']
  exact State.fenceSites_isFenced _ _ _ _ hg

/-! ### Lost phases (R368-R370) -/

/-- Power delivery once phase k of a region other than the module's bus is lost. -/
def PowerSt.loses (p : PowerSt) (key phase : Nat) : PowerSt :=
  { p with lost := Tbl.set p.lost key (Tbl.getD p.lost key 0 ||| BitVec.ofNat 9 (2 ^ phase)) }

theorem State.losePhase_eq (s : State) {key : Nat} (phase : Nat) (cls : Half) (seq : Word) (hkey : key ≠ 482) :
    s.losePhase key phase cls seq =
      let s1 := s.modPower fun p => p.loses key phase
      let s2 := s1.fenceUnit (phaseUnit key phase) cls seq
      if s1.phasesOk key < (phasesOf key).2 ∧ ¬ (s1.region key).gone then s2.goDark key cls seq else s2 := by
  unfold State.losePhase
  dsimp only
  simp only [if_neg hkey]
  rfl

theorem State.loses_phasesOk (s : State) (key phase : Nat) : (s.modPower fun p => p.loses key phase).phasesOk key =
    (List.range (phasesOf key).1).countP fun k => !(Tbl.getD s.power.lost key 0 ||| BitVec.ofNat 9 (2 ^ phase)).getLsbD k := by
  unfold State.phasesOk
  rw [State.modPower_power, PowerSt.loses, Tbl.getD_set_self]

/-- The lost phase is fenced, whatever becomes of its region. -/
theorem State.losePhase_fences (s : State) {key : Nat} (phase : Nat) (cls : Half) (seq : Word) (hkey : key ≠ 482) :
    Tbl.get? (s.losePhase key phase cls seq).power.lost key = some (Tbl.getD s.power.lost key 0 ||| BitVec.ofNat 9 (2 ^ phase)) ∧
      (s.losePhase key phase cls seq).isFenced (phaseUnit key phase) = true := by
  have hfence := (s.modPower fun p => p.loses key phase).fenceUnit_contained (phaseUnit key phase) cls seq 1 false
  have hfenced := (s.modPower fun p => p.loses key phase).fenceUnit_isFenced (phaseUnit key phase) cls seq 1 false
  have hlost : Tbl.get? ((s.modPower fun p => p.loses key phase).fenceUnit (phaseUnit key phase) cls seq).power.lost key =
      some (Tbl.getD s.power.lost key 0 ||| BitVec.ofNat 9 (2 ^ phase)) := by
    rw [hfence.power]
    exact Tbl.get?_set_self ..
  rw [s.losePhase_eq phase cls seq hkey]
  dsimp only
  split
  · have hdark := State.goDark_contained ((s.modPower fun p => p.loses key phase).fenceUnit (phaseUnit key phase) cls seq) key cls
      seq .dark
    refine ⟨?_, hdark.fenced _ hfenced⟩
    rw [hdark.power]
    exact hlost
  · exact ⟨hlost, hfenced⟩

/-- With enough phases left the region stays as it is. -/
theorem State.losePhase_spare (s : State) {key phase : Nat} (cls : Half) (seq : Word) (hkey : key ≠ 482)
    (h : (phasesOf key).2 ≤ (List.range (phasesOf key).1).countP fun k =>
      !(Tbl.getD s.power.lost key 0 ||| BitVec.ofNat 9 (2 ^ phase)).getLsbD k) :
    s.losePhase key phase cls seq = (s.modPower fun p => p.loses key phase).fenceUnit (phaseUnit key phase) cls seq := by
  rw [s.losePhase_eq phase cls seq hkey]
  dsimp only
  rw [s.loses_phasesOk, if_neg (by omega)]

/-- Short of phases the region goes dark. -/
theorem State.losePhase_short (s : State) {key phase : Nat} (cls : Half) (seq : Word) (hkey : key ≠ 482)
    (h : ((List.range (phasesOf key).1).countP fun k =>
      !(Tbl.getD s.power.lost key 0 ||| BitVec.ofNat 9 (2 ^ phase)).getLsbD k) < (phasesOf key).2)
    (hon : (s.region key).gone = false) : s.losePhase key phase cls seq =
      ((s.modPower fun p => p.loses key phase).fenceUnit (phaseUnit key phase) cls seq).goDark key cls seq := by
  rw [s.losePhase_eq phase cls seq hkey]
  dsimp only
  rw [s.loses_phasesOk, if_pos ⟨h, by rw [Bool.not_eq_true]; exact hon⟩]

theorem RegionState.gone_of_powered {x : RegionState} (h : x.powered = true) : x.gone = false := by
  cases x <;> simp_all [RegionState.powered, RegionState.gone]

/-! ### The budget (R382) -/

theorem State.shed_only (k : Nat) (s : State) : ∃ g, State.shed k s = { s with power := { s.power with granted := g } } := by
  induction k generalizing s with
  | zero => exact ⟨_, rfl⟩
  | succ k ih =>
    unfold State.shed
    split
    · exact ⟨_, rfl⟩
    · dsimp only
      split
      · exact ⟨_, rfl⟩
      · obtain ⟨g, hg⟩ := ih (s.stepDown _)
        exact ⟨g, hg⟩

/-- The loss of a healthy converter leaves one less. -/
theorem converters_less : ∀ (c : Fin 5) (v : BitVec 5), v.getLsbD c = true →
    (List.range 5).countP (fun i => (v &&& ~~~ BitVec.ofNat 5 (2 ^ c.val)).getLsbD i) + 1 = (List.range 5).countP fun i => v.getLsbD i := by
  decide

/-! ### The rows of phases (R368-R370) -/

/-- The record of a lost phase. -/
def State.phaseRecord (s : State) (key phase : Nat) : RecIn :=
  let a := if s.phasesOk key ≤ (phasesOf key).2 ∧ ¬ (s.region key).gone then darkRecord key else (1, actFenced)
  { unit := phaseUnit key phase, cls := clsPhase, scope := a.1, actions := a.2 }

theorem execPhaseLoss_loses {node : Fin 32} {r : Fin 13} {phase : Fin 9} {s : State} (hpow : s.life.powered = true)
    (hphase : phase.val < (phasesOf (node.val * 16 + r.val)).1)
    (hlost : (Tbl.getD s.power.lost (node.val * 16 + r.val) 0).getLsbD phase = false) (hbus : ¬(r.val = 2 ∧ node.val = 30)) :
    execPhaseLoss node r phase s = .next ((s.raise (s.phaseRecord (node.val * 16 + r.val) phase)).losePhase (node.val * 16 + r.val)
      phase clsPhase (s.nextSeq (phaseUnit (node.val * 16 + r.val) phase))) := by
  rw [execPhaseLoss]
  dsimp only
  rw [if_neg (by simp only [hpow, hlost, hbus]; simp; omega)]
  rfl

/-! ### The ledger (R373, R374) -/

/-- What a request that is not in the queue yet does for region k. -/
theorem State.request_region {s : State} {k st : Nat} (h : LedgerReq.region k st ∉ s.power.queue) :
    s.request (.region k st) = s.modPower fun p => { p with
      queue := p.queue ++ [.region k st], state := if s.region k = .off then Tbl.set p.state k .waiting else p.state } := by
  unfold State.request
  rw [if_neg (by simpa using h)]
  dsimp only
  split <;> rfl

theorem State.request_queued {s : State} {q : LedgerReq} (h : q ∈ s.power.queue) : s.request q = s := by
  unfold State.request
  exact if_pos (by simpa using h)

/-- The head of the queue is granted. -/
theorem State.grantHead_region (s : State) (k st step : Nat) :
    (s.grantHead (.region k st) step).power.queue = s.power.queue.drop 1 ∧
      (s.grantHead (.region k st) step).region k = .ramping ∧
      Tbl.get? (s.grantHead (.region k st) step).power.granted k = some step ∧
      (k, if (s.region k).powered then 4 else 0) ∈ (s.grantHead (.region k st) step).power.ramping ∧
      (s.grantHead (.region k st) step).power.capped = s.power.capped := by
  unfold State.grantHead
  dsimp only
  split
  · next hp => exact ⟨rfl, Tbl.getD_set_self .., Tbl.get?_set_self .., by simp, rfl⟩
  · next hp => exact ⟨rfl, Tbl.getD_set_self .., Tbl.get?_set_self .., by simp, rfl⟩

section
variable {node : Fin 32} {r : Fin 13} {s : State} (hpow : s.life.powered = true) (hphases : (phasesOf (node.val * 16 + r.val)).1 ≠ 0)
  (hfrozen : s.life.frozen = false)
include hpow hphases hfrozen

theorem execLedgerRequest_on (hoff : s.region (node.val * 16 + r.val) = .off) :
    execLedgerRequest node r .on s = .next (s.request (.region (node.val * 16 + r.val) 0)) := by
  rw [execLedgerRequest]
  dsimp only
  rw [hoff, if_neg (by simp [hpow, hphases, hfrozen, RegionState.gone]), if_neg (by simp [RegionState.powered])]

theorem execLedgerRequest_step {level : Fin 4} (hlogic : keyLogic (node.val * 16 + r.val) = true)
    (hon : (s.region (node.val * 16 + r.val)).powered = true) :
    execLedgerRequest node r (.step level) s = .next (if level.val < Tbl.getD s.power.granted (node.val * 16 + r.val) 0 then
        s.request (.region (node.val * 16 + r.val) level)
      else s.modPower fun p => { p with granted := Tbl.set p.granted (node.val * 16 + r.val) level }) := by
  rw [execLedgerRequest]
  dsimp only
  rw [if_neg (by simp [hpow, hphases, hfrozen, RegionState.gone_of_powered hon]), if_neg (by simp [hlogic, hon])]

end

/-- RAMP_STAGE ends a ramp, or advances it. -/
theorem execRampStage_advances {node : Fin 32} {r : Fin 13} {stage : Nat} {s : State}
    (hfind : s.power.ramping.find? (fun e => e.1 == node.val * 16 + r.val) = some (node.val * 16 + r.val, stage))
    (hfrozen : s.life.frozen = false) : execRampStage node r s = .next (
      if 5 ≤ stage ∨ keyLogic (node.val * 16 + r.val) = false then
        s.modPower fun p => { p with
          ramping := p.ramping.filter (· != (node.val * 16 + r.val, stage)),
          state := Tbl.set p.state (node.val * 16 + r.val) .on,
          capped := p.capped.filter fun c => !(edgeAdjacent (node.val * 16 + r.val)).contains c }
      else s.modPower fun p => { p with ramping := p.ramping.map fun x =>
        if x == (node.val * 16 + r.val, stage) then (node.val * 16 + r.val, stage + 1) else x }) := by
  rw [execRampStage]
  simp only [hfind, hfrozen, Bool.false_eq_true, if_false, ge_iff_le, Bool.not_eq_true]

section
variable {k st step : Nat} {rest : List LedgerReq} {s : State} (hq : s.power.queue = .region k st :: rest)
  (hpow : s.life.powered = true) (hfrozen : s.life.frozen = false) (hroom : s.power.ramping.length < s.param 0x0F03)
  (hfits : s.fits (.region k st) = some step)
include hq hpow hfrozen hroom hfits

theorem execLedgerGrant_grants (hlow : ∀ n ∈ edgeAdjacent k, s.drawsHigh n = false) :
    execLedgerGrant s = .next (s.grantHead (.region k st) step) := by
  rw [execLedgerGrant]
  simp only [hq, hfits]
  rw [if_neg (by simpa [hpow, hfrozen] using hroom), if_neg (by simpa using hlow)]

theorem execLedgerNeighbourWait_grants {n : Nat} (hn : n ∈ edgeAdjacent k) (hhigh : s.drawsHigh n = true) :
    execLedgerNeighbourWait s = .next ((s.modPower fun p =>
      { p with capped := p.capped ++ (edgeAdjacent k).filter s.drawsHigh }).grantHead (.region k st) step) := by
  have hsome : ((edgeAdjacent k).filter s.drawsHigh).isEmpty = false := by
    rw [List.isEmpty_eq_false_iff_exists_mem]
    exact ⟨n, List.mem_filter.2 ⟨hn, hhigh⟩⟩
  rw [execLedgerNeighbourWait]
  simp only [hq, hfits]
  rw [if_neg (by simpa [hpow, hfrozen, hsome] using hroom)]

end

end Sys2Proof.Machine
end

section
/-! O37: power delivery, row by row. -/

namespace Sys2Proof.Machine

/-- Settles O37, row by row. -/
theorem powerDelivery : Obligations.PowerDelivery := by
  refine ⟨?phase, ?derate, ?on, ?level, ?grant, ?wait, ?ramp, ?input⟩
  case phase =>
    intro node r phase s key lost hpow hphase hlost hbus
    have hkey : key ≠ 482 := by omega
    have hrow : execPhaseLoss node r phase s = .next ((s.raise (s.phaseRecord key phase)).losePhase key phase clsPhase
        (s.nextSeq (phaseUnit key phase))) := execPhaseLoss_loses hpow hphase hlost hbus
    obtain ⟨hlost', hfenced⟩ := (s.raise (s.phaseRecord key phase)).losePhase_fences phase clsPhase
      (s.nextSeq (phaseUnit key phase)) hkey
    refine ⟨_, hrow, hlost', hfenced, fun henough => ?_, fun hfew hon hlogic => ?_⟩
    · rw [(s.raise (s.phaseRecord key phase)).losePhase_spare _ _ hkey henough]
      have hfence := ((s.raise (s.phaseRecord key phase)).modPower fun p => p.loses key phase).fenceUnit_contained
        (phaseUnit key phase) clsPhase (s.nextSeq (phaseUnit key phase)) 1 false
      exact ⟨(s.recorded_raise (s.phaseRecord key phase)).mono hfence.records, (congrArg PowerSt.state hfence.power).trans rfl⟩
    · rw [(s.raise (s.phaseRecord key phase)).losePhase_short _ _ hkey hfew (RegionState.gone_of_powered hon)]
      exact ⟨State.goDark_region .., fun g hg => State.goDark_sites _ _ _ r.isLt hlogic hg⟩
  case derate =>
    intro d r ma s key hon hlost hma
    refine ⟨_, rfl, ?_⟩
    rw [if_neg (by simpa using hon)]
    dsimp only
    rw [if_pos ⟨hlost, hma⟩]
    exact ⟨Tbl.get?_set_self .., rfl⟩
  case on =>
    intro node r s key hpow hphases hoff hfrozen hq
    refine ⟨_, execLedgerRequest_on hpow hphases hfrozen hoff, ?_⟩
    rw [State.request_region hq]
    refine ⟨rfl, ?_, rfl⟩
    rw [State.region, State.modPower_power, if_pos hoff]
    exact Tbl.getD_set_self ..
  case level =>
    intro node r level s key hpow hphases hfrozen hlogic hon
    refine ⟨_, execLedgerRequest_step hpow hphases hfrozen hlogic hon, fun h => ?_, fun h => ?_⟩
    · rw [if_neg (Nat.not_lt.2 h)]
      exact ⟨Tbl.get?_set_self .., rfl⟩
    · rw [if_pos h]
      by_cases hq : LedgerReq.region key level.val ∈ s.power.queue
      · rw [State.request_queued hq]
        exact ⟨hq, rfl⟩
      · rw [State.request_region hq]
        exact ⟨List.mem_append_right _ (List.mem_singleton.2 rfl), rfl⟩
  case grant =>
    intro k st step rest s hq hpow hfrozen hroom hfits hlow
    obtain ⟨hqueue, hramp, hgranted, hstage, -⟩ := s.grantHead_region k st step
    exact ⟨_, execLedgerGrant_grants hq hpow hfrozen hroom hfits hlow, hqueue.trans (by rw [hq]; rfl), hramp, hgranted, hstage⟩
  case wait =>
    intro k st step n rest s hq hpow hfrozen hroom hfits hn hhigh
    obtain ⟨hqueue, hramp, -, -, hcapped⟩ := (s.modPower fun p =>
      { p with capped := p.capped ++ (edgeAdjacent k).filter s.drawsHigh }).grantHead_region k st step
    refine ⟨_, execLedgerNeighbourWait_grants hq hpow hfrozen hroom hfits hn hhigh, ?_, hqueue.trans ?_, hramp⟩
    · rw [hcapped]
      exact List.mem_append_right _ (List.mem_filter.2 ⟨hn, hhigh⟩)
    · rw [State.modPower_power, hq]
      rfl
  case ramp =>
    intro node r stage s key hfind hfrozen
    have hmem := List.mem_of_find?_eq_some hfind
    refine ⟨_, execRampStage_advances hfind hfrozen, fun hend => ?_, fun hstage hlogic => ?_⟩
    · rw [if_pos hend]
      exact ⟨Tbl.getD_set_self .., fun h => by simpa [key] using (List.mem_filter.1 h).2⟩
    · rw [if_neg (by rw [not_or, Bool.not_eq_false]; exact ⟨Nat.not_le.2 hstage, hlogic⟩)]
      exact ⟨List.mem_map.2 ⟨_, hmem, by simp [key]⟩, rfl⟩
  case input =>
    intro dw below s hpow hfrozen
    refine ⟨_, congrArg Host.Outcome.next (if_neg (by simp [hpow, hfrozen])), rfl, fun h => ?_, fun h => ?_, fun h h' => ?_⟩
    · exact if_pos h
    · have hle : ¬ dw.toNat > s.budget / 100 := by omega
      refine (if_neg hle).trans ?_
      cases below <;> simp [h]
    · have hle : ¬ dw.toNat > s.budget / 100 := by omega
      exact (if_neg hle).trans (if_neg (by omega))

end Sys2Proof.Machine
end

section
/-! SUPPORT. Heat, droop, converters and ageing (15 R378-R384). -/

namespace Sys2Proof.Machine

/-! ### Temperature (R378, R379) -/

/-- A logic region that can go one step lower does (Table 15-4). -/
theorem State.throttleUp_step (s : State) {key : Nat} (hlogic : keyLogic key = true) (h : s.stepFor key < 3) :
    s.throttleUp key = s.modPower fun p => { p with
      thermal := Tbl.set p.thermal key (s.stepFor key + 1), granted := Tbl.set p.granted key (s.stepFor key + 1) } := by
  simp only [State.throttleUp, hlogic, if_true, h]

/-- A logic region at the lowest step loses duty. -/
theorem State.throttleUp_duty (s : State) {key : Nat} (hlogic : keyLogic key = true) (h : 3 ≤ s.stepFor key) :
    s.throttleUp key = s.modPower fun p => { p with thDuty := Tbl.set p.thDuty key (min 3 (Tbl.getD p.thDuty key 0 + 1)) } := by
  simp only [State.throttleUp, hlogic, if_true, if_neg (Nat.not_lt.2 h)]

/-- The step rises with the grant and the thermal step, which the ceiling does not pass. -/
theorem State.stepFor_raised (s : State) (key : Nat) : (s.modPower fun p => { p with
    thermal := Tbl.set p.thermal key (s.stepFor key + 1),
    granted := Tbl.set p.granted key (s.stepFor key + 1) }).stepFor key = s.stepFor key + 1 := by
  have hceil : Tbl.getD s.power.ceiling key 0 ≤ s.stepFor key := Nat.le_max_left ..
  rw [State.stepFor, State.modPower_power]
  simp only [Tbl.getD_set_self, Nat.max_self]
  exact Nat.max_eq_right (Nat.le_succ_of_le hceil)

theorem phasesOf_logic {n r : Nat} (hr : r < 13) (h : keyLogic (n * 16 + r) = true) : phasesOf (n * 16 + r) = (9, 8) := by
  obtain ⟨hn, hr'⟩ := (keyLogic_iff n r hr).1 h
  rw [phasesOf, regionKey_div n r hr, regionKey_mod n r hr, if_pos hn, if_pos (by omega)]

/-- The state once a temperature is kept. -/
def State.heated (s : State) (key : Nat) (v : BitVec 12) : State := s.modPower fun p => { p with temp := Tbl.set p.temp key v }

section
variable {node : Fin 32} {r : Fin 13} {v : BitVec 12} {s : State} (hpow : s.life.powered = true)
include hpow

theorem execThermalSample_hot (cool : Bool) (hfrozen : s.life.frozen = false) (hlogic : keyLogic (node.val * 16 + r.val) = true)
    (hon : (s.region (node.val * 16 + r.val)).powered = true) (hhot : 8 * (s.param 0x0F01 : Int) ≤ v.toInt) :
    execThermalSample node r v cool s = .next
      ((s.heated (node.val * 16 + r.val) v).throttleUp (node.val * 16 + r.val)) := by
  have hlimit : v.toInt ≥ s.throttle := hhot
  rw [execThermalSample]
  dsimp only
  rw [if_neg (by simp [hpow, phasesOf_logic r.isLt hlogic]), if_neg (by simp [hfrozen, hon]), if_pos hlimit]
  rfl

theorem execThermalSample_cool (hphases : (phasesOf (node.val * 16 + r.val)).1 ≠ 0) (hcool : v.toInt < 8 * (s.param 0x0F01 : Int)) :
    execThermalSample node r v false s = .next (s.heated (node.val * 16 + r.val) v) := by
  have hlow : ¬ v.toInt ≥ s.throttle := Int.not_le.2 hcool
  rw [execThermalSample]
  dsimp only
  rw [if_neg (by simp [hpow, hphases])]
  split
  · rfl
  · rw [if_neg (by simp)]
    rfl

end

theorem execThermal_fatal {node : Fin 32} {r : Fin 13} {s : State} (hpow : s.life.powered = true) (hfrozen : s.life.frozen = false)
    (hhot : 840 ≤ (Tbl.getD s.power.temp (node.val * 16 + r.val) 0).toInt) (hall : s.throttled (node.val * 16 + r.val) = true)
    (hfatal : s.flt.fatal = false) : execThermal node r s = .next
      ((s.raise { unit := phaseUnit (node.val * 16 + r.val) 0, cls := clsThermal, scope := 10, actions := actFatal }).goFatal
        (s.nextSeq (phaseUnit (node.val * 16 + r.val) 0))) := by
  rw [execThermal]
  dsimp only
  rw [if_neg (by simp [hpow, hfrozen, hall, hfatal]; omega)]

/-- A module that becomes fatal asks for a counted reset. -/
theorem State.goFatal_asks (s : State) (seq : Word) (h : s.flt.fatal = false) :
    (s.goFatal seq).flt.fatal = true ∧ ∃ n, (s.goFatal seq).flt.resetPending = some (true, n) := by
  obtain ⟨n, fs, hflood⟩ := (s.modFlt fun f => { f with fatal := true, fatalSeq := seq }).floodAll_frame 1 true seq
  have heq : s.goFatal seq =
      (((s.modFlt fun f => { f with fatal := true, fatalSeq := seq }).floodAll 1 true seq).noticeAll 7 seq).askReset true :=
    if_neg (by simp [h])
  obtain ⟨es, hnote⟩ := State.noticeAll_frame ((s.modFlt fun f => { f with fatal := true, fatalSeq := seq }).floodAll 1 true seq) 7 seq
  rw [heq, hnote, hflood]
  refine ⟨rfl, ?_⟩
  rw [State.askReset, State.modFlt_flt]
  dsimp only
  split
  · next c t _ => exact ⟨t, by simp⟩
  · exact ⟨_, rfl⟩

/-! ### Droop and bus converters (R381, R382) -/

/-- The record of a droop. -/
def State.droopRecord (s : State) (key : Nat) (a b : Word) : RecIn :=
  let last := keyLogic key && decide (s.stepFor key = 3)
  { unit := phaseUnit key 0, cls := clsDroop, scope := if last then 2 else 0,
    actions := if last then actFenced + actReplaced + actRolled else actCounted, detail := [(32, a.toNat), (36, b.toNat)] }

/-- The state once a droop is recorded, with the slack that it leaves. -/
def State.drooped (s : State) (key : Nat) (a b : Word) : State :=
  (s.raise (s.droopRecord key a b)).modPower fun p => { p with droop := Tbl.set p.droop key b.toNat }

theorem State.drooped_recorded (s : State) (key : Nat) (a b : Word) : s.recorded (s.drooped key a b) (phaseUnit key 0) clsDroop :=
  (s.recorded_raise (s.droopRecord key a b)).mono rfl

theorem execDroopSignature_logic {node : Fin 32} {r : Fin 13} {s : State} (a b : Word)
    (hon : (s.region (node.val * 16 + r.val)).powered = true) (hfrozen : s.life.frozen = false)
    (hlogic : keyLogic (node.val * 16 + r.val) = true) : execDroopSignature node r a b s = .next (
      if s.stepFor (node.val * 16 + r.val) = 3 then
        (s.drooped (node.val * 16 + r.val) a b).goDark (node.val * 16 + r.val) clsDroop
          (s.nextSeq (phaseUnit (node.val * 16 + r.val) 0))
      else (s.drooped (node.val * 16 + r.val) a b).modPower fun p => { p with
        ceiling := Tbl.set p.ceiling (node.val * 16 + r.val) (min 3 (Tbl.getD p.ceiling (node.val * 16 + r.val) 0 + 1)) }) := by
  rw [execDroopSignature]
  dsimp only
  rw [if_neg (by simp [hon, hfrozen])]
  simp only [hlogic, if_true, Bool.true_and, decide_eq_true_eq]
  simp only [State.drooped, State.droopRecord, hlogic, Bool.true_and, decide_eq_true_eq]

/-- The record of a lost converter. -/
def converterRecord (c : Nat) : RecIn := { unit := phaseUnit 482 c, cls := clsPhase, scope := 1, actions := actFenced }

/-- The state once converter c of a module is lost, but for what follows. -/
def State.losesConverter (s : State) (c : Nat) : State :=
  (s.raise (converterRecord c)).modPower fun p => { p with
    lost := Tbl.set p.lost 482 (Tbl.getD p.lost 482 0 ||| BitVec.ofNat 9 (2 ^ c)),
    converters := p.converters &&& ~~~ BitVec.ofNat 5 (2 ^ c) }

theorem execBusConverterLoss_loses {c : Fin 5} {s : State} (hpow : s.life.powered = true)
    (hc : s.power.converters.getLsbD c = true) : execBusConverterLoss c s = .next (
      if (s.losesConverter c).convertersOk < 3 then (s.losesConverter c).tripOff 0
      else ((s.losesConverter c).fenceUnit (phaseUnit 482 c) clsPhase (s.nextSeq (phaseUnit 482 c))).fitBudget) := by
  rw [execBusConverterLoss]
  dsimp only
  rw [if_neg (by simp [hpow, hc])]
  rfl

theorem State.losesConverter_ok {s : State} {c : Fin 5} (hc : s.power.converters.getLsbD c = true) :
    (s.losesConverter c).convertersOk + 1 = s.convertersOk := converters_less c s.power.converters hc

/-! ### Ageing (R383) -/

theorem State.replan_none {s : State} {key : Nat} (h : Tbl.get? s.power.slack key = none) : s.replan key = s := by
  simp only [State.replan, h]

theorem State.replans_none (l : List Nat) {s : State} (h : s.power.slack = []) : l.foldl (fun t k => t.replan k) s = s := by
  induction l with
  | nil => rfl
  | cons k l ih => rwa [List.foldl_cons, State.replan_none (by rw [h]; rfl)]

/-- A low slack of a region whose window holds 5 mV more. -/
theorem State.replan_raises {s : State} {key sl : Nat} (h : Tbl.get? s.power.slack key = some sl) (hlow : sl < 4)
    (hfits : Tbl.getD s.power.setpoint key (regionWindow key (s.stepNow key)).1 + 5 ≤ (regionWindow key (s.stepNow key)).2) :
    s.replan key = s.modPower fun p => { p with
      slack := Tbl.erase p.slack key, highRuns := Tbl.set p.highRuns key 0,
      setpoint := Tbl.set p.setpoint key (Tbl.getD s.power.setpoint key (regionWindow key (s.stepNow key)).1 + 5) } := by
  simp only [State.replan, h, if_pos hlow, if_pos hfits, if_neg (Nat.not_le.2 (Nat.lt_trans hlow (by decide : 4 < 8)))]
  rfl

/-- Where one region alone has a slack, a re-plan of all is a re-plan of that one. -/
theorem State.replans_one {l : List Nat} {s : State} {key sl : Nat} (hkey : key ∈ l) (h : s.power.slack = [(key, sl)])
    (hleft : (s.replan key).power.slack = []) : l.foldl (fun t k => t.replan k) s = s.replan key := by
  induction l with
  | nil => cases hkey
  | cons k l ih =>
    rw [List.foldl_cons]
    by_cases e : k = key
    · rw [e]
      exact State.replans_none l hleft
    · rw [State.replan_none (by rw [h]; simp [Tbl.get?, Ne.symm e])]
      exact ih ((List.mem_cons.1 hkey).resolve_left (Ne.symm e))

end Sys2Proof.Machine
end

section
/-! O38: heat and ageing, row by row. -/

namespace Sys2Proof.Machine

/-- Settles O38, row by row. -/
theorem heatAndAgeing : Obligations.HeatAndAgeing := by
  refine ⟨?hot, ?cool, ?fatal, ?droop, ?converter, ?sample, ?idle, ?replan⟩
  case hot =>
    intro node r v cool s key hpow hfrozen hlogic hon hhot
    refine ⟨_, execThermalSample_hot hpow cool hfrozen hlogic hon hhot, ?_⟩
    rcases Nat.lt_or_ge (s.stepFor key) 3 with hstep | hstep
    · rw [(s.heated key v).throttleUp_step hlogic hstep]
      exact ⟨Tbl.get?_set_self .., fun _ => ⟨Tbl.get?_set_self .., (s.heated key v).stepFor_raised key⟩,
        fun h => absurd hstep (Nat.not_lt.2 h), rfl⟩
    · rw [(s.heated key v).throttleUp_duty hlogic hstep]
      exact ⟨Tbl.get?_set_self .., fun h => absurd hstep (Nat.not_le.2 h), fun _ => Tbl.get?_set_self .., rfl⟩
  case cool =>
    intro node r v s key hpow hphases hcool
    exact ⟨_, execThermalSample_cool hpow hphases hcool, Tbl.get?_set_self .., rfl⟩
  case fatal =>
    intro node r s key hpow hfrozen hhot hall hfatal
    refine ⟨_, execThermal_fatal hpow hfrozen hhot hall hfatal, (s.recorded_raise _).mono (State.goFatal_contained ..).records, ?_⟩
    exact State.goFatal_asks _ _ hfatal
  case droop =>
    intro node r a b s key hon hfrozen hlogic
    refine ⟨_, execDroopSignature_logic a b hon hfrozen hlogic, ?_⟩
    split
    · next h3 =>
      have hdark := (s.drooped key a b).goDark_contained key clsDroop (s.nextSeq (phaseUnit key 0)) .dark
      exact ⟨(s.drooped_recorded key a b).mono hdark.records, fun h => absurd h3 h, fun _ => State.goDark_region ..⟩
    · next h3 => exact ⟨(s.drooped_recorded key a b).mono rfl, fun _ => Tbl.get?_set_self .., fun h => absurd h h3⟩
  case converter =>
    intro c s hpow hc
    have hless := State.losesConverter_ok hc
    refine ⟨_, execBusConverterLoss_loses hpow hc, fun hfew => ?_, fun hmany => ?_⟩
    · rw [if_pos (by omega)]
      exact ⟨rfl, rfl, rfl⟩
    · rw [if_neg (by omega)]
      obtain ⟨g, hg⟩ := State.shed_only 240 ((s.losesConverter c).fenceUnit (phaseUnit 482 c) clsPhase
        (s.nextSeq (phaseUnit 482 c)))
      have hfence := (s.losesConverter c).fenceUnit_contained (phaseUnit 482 c) clsPhase (s.nextSeq (phaseUnit 482 c)) 1 false
      rw [State.fitBudget, hg]
      refine ⟨congrArg PowerSt.converters hfence.power, ?_, ?_, ?_⟩
      · exact (s.recorded_raise (converterRecord c)).mono hfence.records
      · exact State.fenceUnit_isFenced ..
      · have hspine : ((s.losesConverter c).fenceUnit (phaseUnit 482 c) clsPhase (s.nextSeq (phaseUnit 482 c))).spine = s.spine := by
          simp [State.losesConverter]
        exact (congrArg LifeSt.powered (State.life_of_spine hspine)).trans hpow
  case sample =>
    intro node r slack s key hon hfrozen
    exact ⟨_, congrArg Host.Outcome.next (if_neg (by simpa [hfrozen] using hon)), Tbl.get?_set_self .., rfl⟩
  case idle =>
    intro s hpow hfrozen hslack
    exact ⟨_, congrArg Host.Outcome.next (if_pos ⟨hpow, by simp [hfrozen]⟩), State.replans_none _ hslack⟩
  case replan =>
    intro key sl s hpow hfrozen hkey hslack hlow hfits
    have hone := State.replan_raises (s := s) (key := key) (sl := sl) (by rw [hslack]; simp [Tbl.get?]) hlow hfits
    have hleft : (s.replan key).power.slack = [] := by
      rw [hone, State.modPower_power, hslack]
      simp [Tbl.erase]
    refine ⟨_, congrArg Host.Outcome.next (if_pos ⟨hpow, by simp [hfrozen]⟩), ?_⟩
    rw [State.replans_one hkey hslack hleft]
    refine ⟨?_, hleft, ?_⟩
    · rw [hone]
      exact Tbl.get?_set_self ..
    · rw [hone]
      rfl

end Sys2Proof.Machine
end

section
/-! SUPPORT. Freeze and the test access port (17 R414-R418). -/

namespace Sys2Proof.Machine

/-- Without a dump there is none to stop. -/
theorem FaultSt.dumpStops_none {f : FaultSt} (h : f.dump = none) (now : DWord) : f.dumpStops now = f := by
  unfold FaultSt.dumpStops
  rw [h]
  cases f
  simp_all

/-- The fields of a value that DBG_SEL shifts in (Table 17-7). -/
theorem dbgSel_fields (u : Word) (first n : Half) :
    BitVec.ofNat 32 (bits (n ++ first ++ u).toNat 0 32) = u ∧ bits (n ++ first ++ u).toNat 32 16 = first.toNat ∧
      bits (n ++ first ++ u).toNat 48 16 = n.toNat := by
  have hval : (n ++ first ++ u).toNat = n.toNat * 2 ^ 48 + first.toNat * 2 ^ 32 + u.toNat := by
    rw [BitVec.toNat_append, BitVec.toNat_append, ← Nat.shiftLeft_add_eq_or_of_lt first.isLt, ← Nat.shiftLeft_add_eq_or_of_lt u.isLt,
      Nat.shiftLeft_eq, Nat.shiftLeft_eq]
    omega
  rw [hval]
  have hu := u.isLt
  have hf := first.isLt
  have hn := n.isLt
  refine ⟨?_, ?_, ?_⟩
  · refine BitVec.eq_of_toNat_eq ?_
    simp only [bits, BitVec.toNat_ofNat]
    omega
  · simp only [bits]
    omega
  · simp only [bits]
    omega

/-- What FREEZE_STATE shifts out (Table 17-7). -/
theorem freezeWord_fields (frozen : Bool) (count : DWord) (stopped : Word) (notice : Bool) :
    let v := BitVec.ofNat 128 ((if frozen then count.toNat else 0) * 2 ^ 64 + stopped.toNat * 2 ^ 32 + 2 * b2n notice + b2n frozen)
    v.getLsbD 0 = frozen ∧ (frozen = true → fld v 8 0 64 = count.toNat) := by
  have hs := stopped.isLt
  have hc := count.isLt
  have hn : b2n notice ≤ 1 := by cases notice <;> decide
  generalize b2n notice = k at hn ⊢
  intro v
  refine ⟨?_, fun hf => ?_⟩
  · rw [BitVec.getLsbD_ofNat]
    cases frozen <;> simp [Nat.testBit_zero, b2n] <;> omega
  · subst hf
    simp only [fld, bits, v, BitVec.toNat_ofNat, b2n, if_true]
    omega

section
variable {s : State} (hpow : s.life.powered = true)
include hpow

theorem execDbgData_word {u : Word} {next left : Nat} {w : DWord} (hdbg : s.mgmt.dbg = some (u, next, left)) (hleft : 0 < left)
    (hskip : s.dumpSkips u = false) (hvalid : unitValid u = true) (hw : (s.dumpWords u)[next]? = some w) :
    execDbgData true s = .next (((s.tapIr 0x11).modMgmt fun g => { g with dbg := some (u, next + 1, left - 1) }).tap 66
      (w.setWidth 128)) := by
  have hout : BitVec.ofNat 128 (0 * 2 ^ 64 + w.toNat) = w.setWidth 128 := by
    refine BitVec.eq_of_toNat_eq ?_
    simp
  rw [execDbgData]
  simp only [hpow, hdbg, hskip, hvalid, hw, hout, if_neg (Nat.ne_of_gt hleft)]
  simp

theorem execDbgData_skipped {u : Word} {next left : Nat} (answered : Bool) (hdbg : s.mgmt.dbg = some (u, next, left))
    (hleft : 0 < left) (hskip : s.dumpSkips u = true) :
    execDbgData answered s = .next ((s.tapIr 0x11).tap 66 (BitVec.ofNat 128 (2 * 2 ^ 64))) := by
  rw [execDbgData]
  simp only [hpow, hdbg, hskip, if_neg (Nat.ne_of_gt hleft)]
  simp

end

end Sys2Proof.Machine
end

section
/-! O42: freeze and the test access port, row by row. -/

namespace Sys2Proof.Machine

/-- Settles O42, row by row. -/
theorem freezeAndTap : Obligations.FreezeAndTap := by
  refine ⟨?freeze, ?idcode, ?logicReset, ?sample, ?extest, ?select, ?data, ?skipped, ?state, ?bypass⟩
  case freeze =>
    intro n s hpow hfrozen hdump
    refine ⟨_, congrArg Host.Outcome.next (if_neg (by simp [hpow, hfrozen])), ?_⟩
    rw [State.modFlt, FaultSt.dumpStops_none (by exact hdump)]
    rfl
  case idcode => exact fun s hpow => ⟨_, congrArg Host.Outcome.next (if_pos hpow), rfl⟩
  case logicReset => exact fun s hpow => ⟨_, congrArg Host.Outcome.next (if_pos hpow), rfl⟩
  case sample =>
    exact fun v s hpow => ⟨_, congrArg Host.Outcome.next (if_neg (by simp [hpow])), rfl, rfl, rfl, ⟨_, rfl⟩, rfl⟩
  case extest =>
    intro s hpow
    refine ⟨_, congrArg Host.Outcome.next (if_neg (by simp [hpow])), ?_⟩
    dsimp only
    cases hfrozen : s.life.frozen with
    | true => exact ⟨rfl, rfl, fun _ => ⟨rfl, rfl⟩, fun h => Bool.noConfusion h⟩
    | false => exact ⟨rfl, rfl, fun h => Bool.noConfusion h, fun _ => ⟨rfl, rfl⟩⟩
  case select =>
    intro u first n s hpow
    obtain ⟨hu, hfirst, hn⟩ := dbgSel_fields u first n
    refine ⟨_, congrArg Host.Outcome.next (if_neg (by simp [hpow])), ?_, rfl, rfl, rfl⟩
    exact congrArg some (Prod.ext hu (Prod.ext hfirst hn))
  case data =>
    intro u next left w s hpow hdbg hleft hskip hvalid hw
    exact ⟨_, execDbgData_word hpow hdbg hleft hskip hvalid hw, rfl, rfl⟩
  case skipped =>
    intro u next left answered s hpow hdbg hleft hskip
    exact ⟨_, execDbgData_skipped hpow answered hdbg hleft hskip, rfl, rfl⟩
  case state =>
    intro s hpow
    obtain ⟨hlow, hcount⟩ := freezeWord_fields s.life.frozen s.life.frozenCount s.mgmt.stopped s.mgmt.notice
    exact ⟨_, congrArg Host.Outcome.next (if_neg (by simp [hpow])), ⟨_, rfl, hlow, hcount⟩, rfl⟩
  case bypass =>
    intro code s hpow hcode
    refine ⟨_, congrArg Host.Outcome.next (if_neg ?_), rfl⟩
    simpa [hpow] using hcode

end Sys2Proof.Machine
end

section
/-! SUPPORT. Firmware staging, activation and the hitless update (16 R396-R401). -/

namespace Sys2Proof.Machine

theorem State.mailboxesOnly.fw {s t : State} (h : s.mailboxesOnly t) : t.fw = s.fw := by rw [h]

theorem State.mailboxesOnly.fwHub {s t : State} (h : s.mailboxesOnly t) (k : Nat) : t.fwHub k = s.fwHub k := by
  unfold State.fwHub
  rw [h.fw]

theorem State.mailboxesOnly.hostGet {s t : State} (h : s.mailboxesOnly t) (a n : Nat) : t.hostGet a n = s.hostGet a n := by
  unfold State.hostGet State.hostUp
  rw [h.host]

theorem State.mailboxesOnly.stageHubs {s t : State} (h : s.mailboxesOnly t) : t.stageHubs = s.stageHubs := by
  unfold State.stageHubs State.hubRecovers
  rw [h.life]

/-! ### One change of several hubs -/

theorem State.foldl_modFwHub_other (f : FwHub → FwHub) {l : List Nat} {k : Nat} (hk : k ∉ l) (s : State) :
    (l.foldl (fun t h => t.modFwHub h f) s).fwHub k = s.fwHub k := by
  induction l generalizing s with
  | nil => rfl
  | cons h l ih =>
    rw [List.foldl_cons, ih (fun hm => hk (List.mem_cons_of_mem h hm))]
    exact State.modFwHub_fwHub_ne s f (fun e => hk (e ▸ List.mem_cons_self))

/-- Each hub of a list is changed once. -/
theorem State.foldl_modFwHub_self (f : FwHub → FwHub) {l : List Nat} (hl : l.Nodup) {k : Nat} (hk : k ∈ l) (s : State) :
    (l.foldl (fun t h => t.modFwHub h f) s).fwHub k = f (s.fwHub k) := by
  induction l generalizing s with
  | nil => cases hk
  | cons h l ih =>
    obtain ⟨hnot, hl⟩ := List.nodup_cons.1 hl
    rw [List.foldl_cons]
    by_cases e : k = h
    · subst e
      rw [State.foldl_modFwHub_other f hnot, State.modFwHub_fwHub]
    · rw [ih hl ((List.mem_cons.1 hk).resolve_left e), State.modFwHub_fwHub_ne s f e]

/-- Changes of hubs are changes of the hubs alone. -/
theorem State.foldl_modFwHub_only (f : FwHub → FwHub) (l : List Nat) (s : State) :
    ∃ hs, l.foldl (fun t h => t.modFwHub h f) s = { s with fw := { s.fw with hubs := hs } } := by
  induction l generalizing s with
  | nil => exact ⟨_, rfl⟩
  | cons h l ih =>
    obtain ⟨hs, e⟩ := ih (s.modFwHub h f)
    exact ⟨hs, e⟩

theorem State.stageHubs_nodup (s : State) : s.stageHubs.Nodup := by
  unfold State.stageHubs
  split
  · decide
  · exact List.nodup_range.filter _

/-! ### Staging (R396) -/

theorem FwHub.setSlot_kept (x : FwHub) (n : Nat) (v : FwSlot) : (x.setSlot n v).booted = x.booted ∧
    (x.setSlot n v).floor = x.floor ∧ (x.setSlot n v).running = x.running := by
  unfold FwHub.setSlot
  split <;> exact ⟨rfl, rfl, rfl⟩

/-- A hub with one image in its idle slot. -/
def FwHub.setIdle (x : FwHub) (v : FwSlot) : FwHub := x.setSlot x.idle v

/-- What the idle slot takes changes that slot alone. -/
theorem FwHub.setIdle_kept (x : FwHub) (v : FwSlot) : (x.setIdle v).slot (x.setIdle v).idle = v ∧
    (x.setIdle v).booted = x.booted ∧ (x.setIdle v).floor = x.floor ∧ (x.setIdle v).running = x.running := by
  obtain ⟨hboot, hfloor, hrun⟩ := x.setSlot_kept x.idle v
  have hidle : (x.setIdle v).idle = x.idle := congrArg (1 - ·) hboot
  exact ⟨by rw [hidle]; exact x.setSlot_slot x.idle v, hboot, hfloor, hrun⟩

/-- The idle slot with image bytes written at an offset. -/
def FwHub.putIdle (x : FwHub) (off : Nat) (data : List Byte) : FwHub :=
  x.setIdle { mem := Mem.writeBytes (x.slot x.idle).mem off data, info := none }

theorem State.openStage_fwHub (s : State) (pldm : Bool) {h : Nat} (hh : h ∈ s.stageHubs) :
    (s.openStage pldm).fwHub h = (s.fwHub h).setIdle { mem := [], info := none } :=
  State.foldl_modFwHub_self (fun x => x.setIdle { mem := [], info := none }) s.stageHubs_nodup hh s

theorem State.openStage_kept (s : State) (pldm : Bool) : (s.openStage pldm).stageHubs = s.stageHubs ∧
    (s.openStage pldm).fw.session = some (pldm, 0) ∧ (s.openStage pldm).fw.staged = none := by
  obtain ⟨hs, e⟩ := State.foldl_modFwHub_only (fun x => x.setIdle { mem := [], info := none }) s.stageHubs s
  have hopen : s.openStage pldm = (s.stageHubs.foldl (fun t h => t.modFwHub h fun x => x.setIdle { mem := [], info := none }) s).modFw
    fun w => { w with session := some (pldm, 0), staged := none, doneDeferred := false } := rfl
  rw [hopen, e]
  exact ⟨rfl, rfl, rfl⟩

theorem State.putStage_fwHub (s : State) (off : Nat) (data : List Byte) {h : Nat} (hh : h ∈ s.stageHubs) :
    (s.putStage off data).fwHub h = (s.fwHub h).putIdle off data :=
  State.foldl_modFwHub_self (fun x => x.putIdle off data) s.stageHubs_nodup hh s

theorem State.putStage_kept (s : State) (off : Nat) (data : List Byte) :
    (s.putStage off data).fw.session = s.fw.session.map (fun e => (e.1, max e.2 (off + data.length))) ∧
      (s.putStage off data).fw.staged = s.fw.staged := by
  obtain ⟨hs, e⟩ := State.foldl_modFwHub_only (fun x => x.putIdle off data) s.stageHubs s
  have hput : s.putStage off data = (s.stageHubs.foldl (fun t h => t.modFwHub h fun x => x.putIdle off data) s).modFw
    fun w => { w with session := w.session.map fun e => (e.1, max e.2 (off + data.length)) } := rfl
  rw [hput, e]
  exact ⟨rfl, rfl⟩

/-- The bytes written to a store in its canonical form are read back. -/
theorem Mem.readBytes_writeBytes {m : Mem} (hm : Memory.wf m) (a : Nat) (bs : List Byte) :
    Mem.readBytes (Mem.writeBytes m a bs) a bs.length = bs := by
  refine List.ext_getElem (by simp [Mem.readBytes]) fun i h1 h2 => ?_
  simp only [Mem.readBytes, List.getElem_map, List.getElem_range]
  rw [Mem.read_writeBytes hm, if_pos (by omega), Nat.add_sub_cancel_left, List.getD_eq_getElem _ _ h2]

/-- A fresh session's first piece: what an idle slot holds after it, and what stays. -/
theorem State.firstPiece {s : State} (off : Nat) (bs : List Byte) {h : Nat} (hh : h ∈ s.stageHubs) :
    let x := ((s.openStage false).putStage off bs).fwHub h
    Mem.readBytes (x.slot x.idle).mem off bs.length = bs ∧ (x.slot x.idle).info = none ∧ x.running = (s.fwHub h).running ∧
      x.booted = (s.fwHub h).booted ∧ x.floor = (s.fwHub h).floor := by
  obtain ⟨hhubs, -, -⟩ := s.openStage_kept false
  have hx := (s.openStage false).putStage_fwHub off bs (h := h) (hhubs.symm ▸ hh)
  rw [s.openStage_fwHub false hh] at hx
  intro x
  obtain ⟨hempty, hboot, hfloor, hrun⟩ := (s.fwHub h).setIdle_kept { mem := [], info := none }
  obtain ⟨hslot, hboot', hfloor', hrun'⟩ := ((s.fwHub h).setIdle { mem := [], info := none }).setIdle_kept
    { mem := Mem.writeBytes [] off bs, info := none }
  have hput : x = ((s.fwHub h).setIdle { mem := [], info := none }).setIdle { mem := Mem.writeBytes [] off bs, info := none } := by
    rw [show x = _ from hx, FwHub.putIdle, hempty]
  rw [hput, hslot]
  exact ⟨Mem.readBytes_writeBytes Memory.wf_nil off bs, rfl, hrun'.trans hrun, hboot'.trans hboot, hfloor'.trans hfloor⟩

section
variable {m : Fin 34} {c : MbCmd} {s : State} (hm : s.mbFirst m 0x500 c)
include hm

theorem execFwStage_busy (hact : s.fw.activation.isSome = true) : execFwStage m s = .next (s.mbEnd m c mbBusy) := by
  rw [execFwStage, State.mbRow_first _ hm]
  dsimp only
  rw [if_pos (.inl hact)]

theorem execFwStage_first {bs : List Byte} (hroom : s.mbRoom m) (hact : s.fw.activation = none) (hsess : s.fw.session = none)
    (hfirst : flag c.img 32 0 = true) (hlast : flag c.img 32 1 = false)
    (hget : s.hostGet (fld c.img 16 0 64) (fld c.img 28 0 32) = some bs) : ∃ held, execFwStage m s =
      .next ((((s.mbAccept m c).openStage false).putStage (fld c.img 24 0 32) bs).mbEnd m { c with accepted := true } mbDone 0xFFFF
        held) := by
  rw [execFwStage, State.mbRow_first _ hm]
  dsimp only
  rw [if_neg (by simp [hact, hsess]), if_neg (by simp [hfirst]), if_neg (by simp [hfirst]), State.mbLong_accepts _ _ hroom,
    (s.mbAccept_mailboxesOnly m c).hostGet, hget]
  simp only [hfirst, hlast, if_true, Bool.false_eq_true, not_false_eq_true]
  exact ⟨_, rfl⟩

end

/-! ### Activation (R397) -/

theorem State.activateRow_first {s : State} {m mode : Nat} {c : MbCmd} (go : MbCmd → State) (h : s.activateFirst m mode c)
    (hact : s.fw.activation = none) : s.activateRow m mode go = .next (go c) := by
  unfold State.activateFirst at h
  simp only [State.activateRow, h, hact]
  rfl

/-- What naming the staged slot does to a hub. -/
def FwHub.names (x : FwHub) (staged : Option FwInfo) : FwHub :=
  if (x.slot x.idle).info.isSome ∧ (x.slot x.idle).info = staged then { x with next := x.idle } else x

theorem State.nameStaged_only (s : State) : ∃ hs, s.nameStaged = { s with fw := { s.fw with hubs := hs } } :=
  State.foldl_modFwHub_only (fun x => x.names s.fw.staged) (List.range 2) s

/-- The hubs whose idle slot holds the staged image boot it next. -/
theorem State.nameStaged_next {s : State} {i : FwInfo} (hstaged : s.fw.staged = some i) {h : Nat} (hh : h < 2)
    (hinfo : ((s.fwHub h).slot (s.fwHub h).idle).info = some i) : (s.nameStaged.fwHub h).next = (s.fwHub h).idle := by
  have hname : s.nameStaged.fwHub h = (s.fwHub h).names s.fw.staged :=
    State.foldl_modFwHub_self (fun x => x.names s.fw.staged) List.nodup_range (List.mem_range.2 hh) s
  rw [hname, FwHub.names, if_pos ⟨by rw [hinfo]; rfl, hinfo.trans hstaged.symm⟩]

/-! ### The rows of FW_ACTIVATE (R397) -/

/-- The state in which a hitless activation of an image has begun. -/
def State.activationBegun (s : State) (i : FwInfo) : State :=
  (s.modFw fun w => { w with
    activation := some { info := i, step := 1, todo := [], deferred := [], second := false, updated := 0 },
    doneDeferred := false }).modLife fun l => { l with standby := false }

/-- The state in which the rollback floors of both hubs are raised. -/
def State.floorsRaised (s : State) : State :=
  (s.modFwHub 0 fun x => { x with floor := max x.floor x.running.security }).modFwHub 1 fun x =>
    { x with floor := max x.floor x.running.security }

theorem State.floorsRaised_fwHub (s : State) {h : Nat} (hh : h < 2) :
    s.floorsRaised.fwHub h = { s.fwHub h with floor := max (s.fwHub h).floor (s.fwHub h).running.security } := by
  unfold State.floorsRaised
  rcases Nat.le_one_iff_eq_zero_or_eq_one.1 (Nat.le_of_lt_succ hh) with rfl | rfl
  · rw [State.modFwHub_fwHub_ne _ _ (by decide), State.modFwHub_fwHub]
  · rw [State.modFwHub_fwHub, State.modFwHub_fwHub_ne _ _ (by decide)]

section
variable {m : Fin 34} {c : MbCmd} {s : State}

theorem execFwActivateHitless_begins {i : FwInfo} (hm : s.activateFirst m 0 c) (hroom : s.mbRoom m) (hact : s.fw.activation = none)
    (hstaged : s.fw.staged = some i) (hready : s.life.state = .ready)
    (hother : s.life.usable.getLsbD (1 - s.life.activeHub) = true) (hdump : s.flt.dump = none) (hsess : s.fw.session = none)
    (hmeets : i.meets s.fwActive = true) (hscalar : i.scalar ∈ s.scalarsHeld) :
    execFwActivateHitless m s = .next (((s.mbAccept m c).activationBegun i).noteChange s) := by
  rw [execFwActivateHitless, State.activateRow_first _ hm hact]
  simp only [hstaged]
  rw [if_neg (by simp [hready, hother]), if_neg (by simp [hdump, hsess]), if_neg (by simp [hmeets]),
    if_neg (by simp [hscalar]), State.mbLong_accepts _ _ hroom]
  rfl

theorem execFwActivateReset_names {i : FwInfo} (hm : s.activateFirst m 1 c) (hact : s.fw.activation = none)
    (hstaged : s.fw.staged = some i) :
    execFwActivateReset m s = .next (((s.nameStaged.mbEnd m c mbAccepted).noticeAll 7 0).askReset false) := by
  rw [execFwActivateReset, State.activateRow_first _ hm hact]
  rw [if_neg (by simp [hstaged])]

theorem execFwActivateDeferred_names {i : FwInfo} (hm : s.activateFirst m 2 c) (hroom : s.mbRoom m) (hact : s.fw.activation = none)
    (hstaged : s.fw.staged = some i) : ∃ result, execFwActivateDeferred m s =
      .next ((s.nameStaged.mbAccept m c).mbEnd m { c with accepted := true } mbDone 0xFFFF result) := by
  have hroom' : s.nameStaged.mbRoom m := by
    obtain ⟨hs, e⟩ := s.nameStaged_only
    rw [e]
    exact hroom
  rw [execFwActivateDeferred, State.activateRow_first _ hm hact]
  rw [if_neg (by simp [hstaged]), State.mbLong_accepts _ _ hroom']
  exact ⟨_, rfl⟩

/-- No mode of FW_ACTIVATE but the floor's goes on without a staged image. -/
theorem fwActivate_unstaged {r : Instr} {mode : Nat}
    (hr : (r, mode) ∈ [(Instr.fwActivateHitless m, 0), (.fwActivateReset m, 1), (.fwActivateDeferred m, 2)])
    (hm : s.activateFirst m mode c) (hact : s.fw.activation = none) (hstaged : s.fw.staged = none) :
    exec r s = .next (s.mbEnd m c mbNoResource) := by
  simp only [List.mem_cons, Prod.mk.injEq, List.mem_nil_iff, or_false] at hr
  rcases hr with ⟨rfl, rfl⟩ | ⟨rfl, rfl⟩ | ⟨rfl, rfl⟩
  · refine (State.activateRow_first _ hm hact).trans ?_
    simp only [hstaged]
  · refine (State.activateRow_first _ hm hact).trans ?_
    simp [hstaged]
  · refine (State.activateRow_first _ hm hact).trans ?_
    simp [hstaged]

theorem execFwRaiseFloor_raises (hm : s.activateFirst m 3 c) (hroom : s.mbRoom m) (hact : s.fw.activation = none)
    (husable : s.life.usable = 3) (hsame : (s.fwHub 0).running = (s.fwHub 1).running)
    (h0 : (s.fwHub 0).floor < (s.fwHub 0).running.security) (h1 : (s.fwHub 1).floor < (s.fwHub 1).running.security) :
    ∃ result, execFwRaiseFloor m s =
      .next ((s.mbAccept m c).floorsRaised.mbEnd m { c with accepted := true } mbDone 0xFFFF result) := by
  rw [execFwRaiseFloor, State.activateRow_first _ hm hact]
  dsimp only
  rw [if_neg (by simp only [husable, hsame]; rw [hsame] at h0; simp; omega), State.mbLong_accepts _ _ hroom]
  exact ⟨_, rfl⟩

end

/-! ### The hitless update (Table 16-7) -/

theorem State.restartHub_fwHub (s : State) (h : Nat) (i : FwInfo) : ((s.restartHub h i).fwHub h).running = i := by
  unfold State.restartHub
  rw [State.modFwHub_fwHub]

/-- The state in which the restarted standby mirrors the active hub. -/
def State.mirrored (s : State) (a : Activation) : State :=
  ((s.restartHub (1 - s.life.activeHub) a.info).modFw fun w => { w with activation := some { a with step := 2 } }).modLife fun l =>
    { l with standby := true }

theorem execStandbyMirrorReady_mirrors {a : Activation} {s : State} (hruns : s.hubRuns = true)
    (hother : s.life.usable.getLsbD (1 - s.life.activeHub) = true) (hstandby : s.life.standby = false)
    (hact : s.fw.activation = some a) (hstep : a.step = 1) : execStandbyMirrorReady s = .next ((s.mirrored a).noteChange s) := by
  rw [execStandbyMirrorReady]
  dsimp only
  rw [if_neg (by simp [hruns, hother, hstandby])]
  simp only [hact, hstep, if_true]
  rfl

/-- What handover leaves of each hub's slot record. -/
def FwHub.handsOver (x : FwHub) (old : Bool) (i : FwInfo) : FwHub :=
  { x with next := if old then (if (x.slot x.idle).info = some i then x.idle else x.next) else x.booted }

/-- The state once the roles are changed and the image is handed over. -/
def State.handedOver (s : State) (a : Activation) : State :=
  let old := s.life.activeHub
  ((List.range 2).foldl (fun t h => t.modFwHub h fun x =>
    { x with next := if h = old then (if (x.slot x.idle).info = some a.info then x.idle else x.next) else x.booted })
      (s.swapHub (1 - old))).modFw fun w => { w with
    activation := some { a with step := 5 }, staged := none,
    scalars := a.info.scalar :: s.scalarsHeld.filter fun v => v != a.info.scalar }

theorem execHandover_hands {a : Activation} {s : State} (hruns : s.hubRuns = true) (hact : s.fw.activation = some a)
    (hstep : a.step = 2) (hstandby : s.life.standby = true) : execHandover s = .next ((s.handedOver a).noteChange s) := by
  rw [execHandover]
  simp only [hact]
  rw [if_neg (by simp [hruns, hstep, hstandby])]
  rfl

/-! ### The dies (R399, R400) -/

/-- The next die leaves the faults and what the manager cores run. -/
theorem State.nextDie_kept (s : State) (a : Activation) :
    (s.nextDie a).flt = s.flt ∧ (s.nextDie a).fw.managers = s.fw.managers := by
  unfold State.nextDie
  split
  · exact ⟨rfl, rfl⟩
  split
  · exact ⟨rfl, rfl⟩
  · unfold State.finishActivation
    dsimp only
    split
    · exact ⟨(State.mbEnd_mailboxesOnly ..).flt, (congrArg FwSt.managers (State.mbEnd_mailboxesOnly ..).fw).trans rfl⟩
    · exact ⟨rfl, rfl⟩

theorem State.nextDie_more (s : State) {a : Activation} (h : a.todo ≠ []) :
    s.nextDie a = s.modFw fun w => { w with activation := some a } := by
  unfold State.nextDie
  exact if_pos (by simpa using h)

/-- The record of a manager core that does not resume (11 R285). -/
def managerRecord (node : Nat) : RecIn :=
  { unit := managerUnit node, cls := clsHeartbeat, scope := 8, actions := actFenced + actEscalated }

section
variable {node : Fin 32} {a : Activation} {rest : List Nat} {s : State} (hruns : s.hubRuns = true)
  (hact : s.fw.activation = some a) (hstep : a.step = 6) (htodo : a.todo = node.val :: rest)
include hruns hact hstep htodo

theorem execManagerUpdate_resumed (hquiet : s.quietDie node = true) : execManagerUpdate node true s =
    .next ((s.modFw fun w => { w with managers := Tbl.set w.managers node a.info.manager }).nextDie
      { a with todo := rest, updated := a.updated + 1 }) := by
  rw [execManagerUpdate]
  simp only [hact]
  rw [if_neg (by simp [hruns, hstep, htodo, hquiet])]
  simp [htodo]

theorem execManagerUpdate_lost (hquiet : s.quietDie node = true) : execManagerUpdate node false s =
    .next (((s.raise (managerRecord node)).fenceManager node clsHeartbeat (s.nextSeq (managerUnit node))).nextDie
      { a with todo := rest }) := by
  rw [execManagerUpdate]
  simp only [hact]
  rw [if_neg (by simp [hruns, hstep, htodo, hquiet])]
  simp [htodo, managerRecord]

theorem execFwQuietTimeout_defers (hloud : s.quietDie node = false) : execFwQuietTimeout node s =
    .next (s.nextDie { a with todo := rest, deferred := a.deferred ++ [node.val] }) := by
  rw [execFwQuietTimeout]
  simp only [hact]
  rw [if_neg (by simp [hruns, hstep, htodo, hloud])]
  simp [htodo]

end

/-- A manager core that is lost is no manager core any more (11 R285). -/
theorem State.fenceManager_mgrFenced {s : State} {node : Nat} (cls : Half) (seq : Word) (h : node ∉ s.flt.mgrFenced) :
    node ∈ (s.fenceManager node cls seq).flt.mgrFenced := by
  unfold State.fenceManager
  dsimp only
  rw [if_neg (by simpa using h)]
  obtain ⟨ev, es, ft, fq, n, fs, r, e⟩ := State.escalate_frame ((s.fenceUnit (if node < 8 then mkUnit 0 node 0 0 13 0 0x3FF
    else if node < 24 then shoalUnit (node - 8) 13 0 0x3FF else straitUnit (node - 24) 13 0 0x3FF) cls seq).modFlt fun f =>
      { f with mgrFenced := f.mgrFenced ++ [node] }) seq
  rw [e]
  exact List.mem_append_right _ (List.mem_singleton_self node)

end Sys2Proof.Machine
end

section
/-! O39: firmware update, row by row. -/

namespace Sys2Proof.Machine

/-- Settles O39, row by row. -/
theorem firmwareUpdate : Obligations.FirmwareUpdate := by
  refine ⟨?stage, ?stageBusy, ?hitless, ?reset, ?deferred, ?unstaged, ?raiseFloor, ?status, ?mirror, ?handover, ?resumed, ?lost, ?quiet⟩
  case stage =>
    intro m c bs h s hm hroom hact hsess hfirst hlast hget hh
    obtain ⟨held, hrow⟩ := execFwStage_first hm hroom hact hsess hfirst hlast hget
    have honly := s.mbAccept_mailboxesOnly m c
    have hh' : h ∈ (s.mbAccept m c).stageHubs := honly.stageHubs.symm ▸ hh
    obtain ⟨hbytes, hinfo, hrun, hboot, hfloor⟩ := State.firstPiece (fld c.img 24 0 32) bs hh'
    obtain ⟨-, hopen, hstaged⟩ := (s.mbAccept m c).openStage_kept false
    obtain ⟨hput, hstaged'⟩ := ((s.mbAccept m c).openStage false).putStage_kept (fld c.img 24 0 32) bs
    refine ⟨_, hrow, State.mbEnd_mbEnded .., ?_⟩
    rw [(State.mbEnd_mailboxesOnly ..).fw, (State.mbEnd_mailboxesOnly ..).fwHub, hput, hopen, hstaged', hstaged, hrun, hboot, hfloor,
      honly.fwHub]
    exact ⟨congrArg (fun n => some (false, n)) (Nat.zero_max _), rfl, hbytes, hinfo, rfl, rfl, rfl⟩
  case stageBusy =>
    intro m c s hm hact
    exact ⟨_, execFwStage_busy hm hact, s.mbEnd_answers m c mbBusy 0xFFFF 0 [], s.mbEnd_frame m c mbBusy 0xFFFF 0 []⟩
  case hitless =>
    intro m c i s hm hroom hact hstaged hready hother hdump hsess hmeets hscalar
    obtain ⟨es, hes⟩ := ((s.mbAccept m c).activationBegun i).noteChange_only s
    refine ⟨_, execFwActivateHitless_begins hm hroom hact hstaged hready hother hdump hsess hmeets hscalar, ?_⟩
    rw [hes]
    have hhub : (s.mbAccept m c).life.activeHub = s.life.activeHub := congrArg _ (s.mbAccept_mailboxesOnly m c).life
    have hhubs : (s.mbAccept m c).fw.hubs = s.fw.hubs := congrArg _ (s.mbAccept_mailboxesOnly m c).fw
    exact ⟨(s.mbAccept_taken m c).congr rfl, ⟨_, rfl, rfl, rfl⟩, rfl, hhub, hhubs⟩
  case reset =>
    intro m c i s hm hact hstaged
    obtain ⟨hs, hname⟩ := s.nameStaged_only
    obtain ⟨es, hes⟩ := (s.nameStaged.mbEnd m c mbAccepted).noticeAll_frame 7 0
    refine ⟨_, execFwActivateReset_names hm hact hstaged, ?_, State.askReset_isSome .., fun h hh hinfo => ?_⟩
    · refine (State.mbEnd_answers_of (s := s) (t := s.nameStaged) (by rw [hname]) m c mbAccepted 0xFFFF 0 []).congr rfl ?_
      rw [hes]
      rfl
    · rw [hes]
      exact (congrArg FwHub.next ((State.mbEnd_mailboxesOnly ..).fwHub h)).trans (State.nameStaged_next hstaged hh hinfo)
  case deferred =>
    intro m c i s hm hroom hact hstaged
    obtain ⟨result, hrow⟩ := execFwActivateDeferred_names hm hroom hact hstaged
    have honly : s.nameStaged.mailboxesOnly _ := (s.nameStaged.mbAccept_mailboxesOnly m c).trans
      (State.mbEnd_mailboxesOnly _ m { c with accepted := true } mbDone 0xFFFF result [])
    obtain ⟨hs, hname⟩ := s.nameStaged_only
    refine ⟨_, hrow, State.mbEnd_mbEnded .., honly.flt.trans (by rw [hname]), fun h hh hinfo => ?_⟩
    rw [honly.fwHub]
    exact State.nameStaged_next hstaged hh hinfo
  case unstaged =>
    intro m c r mode s hr hm hact hstaged
    exact ⟨_, fwActivate_unstaged hr hm hact hstaged, s.mbEnd_answers m c mbNoResource 0xFFFF 0 [],
      s.mbEnd_frame m c mbNoResource 0xFFFF 0 []⟩
  case raiseFloor =>
    intro m c s hm hroom hact husable hsame h0 h1
    obtain ⟨result, hrow⟩ := execFwRaiseFloor_raises hm hroom hact husable hsame h0 h1
    refine ⟨_, hrow, State.mbEnd_mbEnded .., ?_⟩
    rw [(State.mbEnd_mailboxesOnly ..).fwHub, (State.mbEnd_mailboxesOnly ..).fwHub, State.floorsRaised_fwHub _ (by decide),
      State.floorsRaised_fwHub _ (by decide), (s.mbAccept_mailboxesOnly m c).fwHub, (s.mbAccept_mailboxesOnly m c).fwHub]
    exact ⟨Nat.max_eq_right h0.le, Nat.max_eq_right h1.le, rfl⟩
  case status =>
    intro m c s hm
    exact ⟨_, State.mbRow_first _ hm, s.mbEnd_answers m c mbDone 0xFFFF 0 s.fwStatusBytes,
      s.mbEnd_frame m c mbDone 0xFFFF 0 s.fwStatusBytes⟩
  case mirror =>
    intro a s b hruns hother hstandby hact hstep
    obtain ⟨es, hes⟩ := (s.mirrored a).noteChange_only s
    refine ⟨_, execStandbyMirrorReady_mirrors hruns hother hstandby hact hstep, ?_⟩
    rw [hes]
    exact ⟨rfl, rfl, s.restartHub_fwHub b a.info, rfl⟩
  case handover =>
    intro a s hruns hact hstep hstandby hhub
    obtain ⟨es, hes⟩ := (s.handedOver a).noteChange_only s
    refine ⟨_, execHandover_hands hruns hact hstep hstandby, ?_⟩
    rw [hes]
    exact ⟨rfl, rfl, rfl, rfl, rfl, rfl, rfl⟩
  case resumed =>
    intro node a rest s hruns hact hstep htodo hquiet
    obtain ⟨hflt, hmgr⟩ := (s.modFw fun w => { w with managers := Tbl.set w.managers node a.info.manager }).nextDie_kept
      { a with todo := rest, updated := a.updated + 1 }
    refine ⟨_, execManagerUpdate_resumed hruns hact hstep htodo hquiet, ?_, hflt, fun hrest => ?_⟩
    · rw [hmgr]
      exact Tbl.get?_set_self ..
    · rw [State.nextDie_more _ hrest]
      rfl
  case lost =>
    intro node a rest s hruns hact hstep htodo hquiet hnode hfenced
    refine ⟨_, execManagerUpdate_lost hruns hact hstep htodo hquiet, ?_⟩
    obtain ⟨hflt, -⟩ := ((s.raise (managerRecord node)).fenceManager node clsHeartbeat
      (s.nextSeq (managerUnit node))).nextDie_kept { a with todo := rest }
    refine ⟨(s.recorded_raise (managerRecord node)).mono ?_, ?_⟩
    · rw [hflt]
      exact (State.fenceManager_contained ..).records
    · rw [hflt]
      exact State.fenceManager_mgrFenced _ _ hfenced
  case quiet =>
    intro node a x rest s hruns hact hstep htodo hloud
    refine ⟨_, execFwQuietTimeout_defers hruns hact hstep htodo hloud, ?_⟩
    rw [State.nextDie_more _ (by simp)]
    rfl

end Sys2Proof.Machine
end

section
/-! SUPPORT. The SPDM responder (16 R402-R404): what one answer does, once for all requests. -/

namespace Sys2Proof.Machine

theorem State.mgmtServes_of_hubRuns {s : State} (h : s.hubRuns = true) : s.mgmtServes = true := by
  have h' := h
  unfold State.hubRuns at h'
  simp only [Bool.and_eq_true] at h'
  simp_all [State.mgmtServes]

/-- An open request is taken by its row. -/
theorem State.spdmAnswer_open {s : State} {r : SpdmRequest} (ho : s.spdmOpen r) (go : State → SpdmRequest → State × SpdmRsp) :
    s.spdmAnswer r go = (go s r).1.freshen.spdmSend r.session (go s r).2.bytes := by
  obtain ⟨hruns, hsession⟩ := ho
  unfold State.spdmAnswer
  rw [if_neg (by simp [State.mgmtServes_of_hubRuns hruns])]
  rcases hsession with h0 | ⟨⟨x, hx, hid⟩, hauth⟩
  · rw [if_neg (by simp [h0]), if_neg (by simp [h0])]
  · rw [if_neg (by simp only [List.any_eq_true, beq_iff_eq]; exact fun h => h.2 ⟨x, hx, hid⟩), if_neg (by simp [hauth])]

/-- A message that the requester takes whole is sent. -/
theorem State.spdmSend_whole {s : State} {session : Nat} {bs : List Byte}
    (h : s.fw.spdmTransfer = 0 ∨ bs.length ≤ s.fw.spdmTransfer) : s.spdmSend session bs =
      s.modMgmt fun g => { g with out := g.out ++ [.mctp (if session = 0 then 0x05 else 0x06) bs] } := by
  unfold State.spdmSend
  exact if_neg (by omega)

/-- The state after an open request whose row leaves t and answers rsp whole. -/
theorem State.spdmAnswer_sends {s t : State} {r : SpdmRequest} {go : State → SpdmRequest → State × SpdmRsp} {rsp : SpdmRsp}
    (ho : s.spdmOpen r) (hgo : go s r = (t, rsp)) (hfit : t.fw.spdmTransfer = 0 ∨ rsp.bytes.length ≤ t.fw.spdmTransfer) :
    s.spdmAnswer r go = t.freshen.modMgmt fun g =>
      { g with out := g.out ++ [.mctp (if r.session = 0 then 0x05 else 0x06) rsp.bytes] } := by
  rw [State.spdmAnswer_open ho, hgo]
  exact State.spdmSend_whole hfit

/-- Every answer but VERSION is one message of version 1.3 with its code. -/
theorem State.spdmSaid_of_sends {s t : State} {r : SpdmRequest} {rsp : SpdmRsp} (hcode : rsp.code ≠ 0x04) (hmgmt : t.mgmt = s.mgmt) :
    s.spdmSaid (t.freshen.modMgmt fun g => { g with out := g.out ++ [.mctp (if r.session = 0 then 0x05 else 0x06) rsp.bytes] }) r
      rsp.code := by
  refine ⟨rsp.p1, rsp.p2, rsp.body, ?_⟩
  rw [State.modMgmt_mgmt, State.freshen_mgmt, hmgmt, SpdmRsp.bytes, if_neg hcode]

/-- The same, told of the answer: what has been said, the firmware state that the row leaves, and what else changes. -/
theorem State.spdmAnswer_said {s t : State} {r : SpdmRequest} {go : State → SpdmRequest → State × SpdmRsp} {rsp : SpdmRsp}
    (ho : s.spdmOpen r) (hgo : go s r = (t, rsp)) (hfit : t.fw.spdmTransfer = 0 ∨ rsp.bytes.length ≤ t.fw.spdmTransfer)
    (code : Byte) (hcode : rsp.code = code) (hne : code ≠ 0x04) (hmgmt : t.mgmt = s.mgmt) :
    s.spdmSaid (s.spdmAnswer r go) r code ∧ (s.spdmAnswer r go).fw = t.fw ∧
      s.spdmAnswer r go = { t with mgmt := (s.spdmAnswer r go).mgmt, freeCtr := (s.spdmAnswer r go).freeCtr } := by
  subst hcode
  rw [State.spdmAnswer_sends ho hgo hfit]
  exact ⟨State.spdmSaid_of_sends hne hmgmt, rfl, rfl⟩

theorem State.inSession_of_mem {s : State} {r : SpdmRequest} {x : SpdmSession} (hx : x ∈ s.fw.sessions) (hid : x.id = r.session)
    (hfin : x.finished = true) : s.inSession r = true := by
  unfold State.inSession
  rw [List.any_eq_true]
  exact ⟨x, hx, by simp [hid, hfin]⟩

/-- Requests that change nothing of the module, each with its answer, once algorithms are negotiated. -/
theorem spdmQuery_answers {r : SpdmRequest} {i : Instr} {code : Byte} {s : State}
    (hi : (i, code) ∈ [(Instr.spdmGetDigests r, 0x01), (.spdmGetCertificate r, 0x02), (.spdmChallenge r, 0x03),
      (.spdmGetMeasurements r, 0x60)])
    (hstage : 3 ≤ s.fw.spdmStage) (h1 : r.param1 = 0) (h2 : r.param2.toNat ≤ 6) :
    ∃ go rsp, exec i s = .next (s.spdmAnswer r go) ∧ go s r = (s, rsp) ∧ rsp.code = code := by
  have hlate : ¬ s.fw.spdmStage < 3 := by omega
  simp only [List.mem_cons, Prod.mk.injEq, List.mem_nil_iff, or_false] at hi
  rcases hi with ⟨rfl, rfl⟩ | ⟨rfl, rfl⟩ | ⟨rfl, rfl⟩ | ⟨rfl, rfl⟩
  · exact ⟨spdmDigests, _, rfl, if_neg hlate, rfl⟩
  · exact ⟨spdmCertificate, _, rfl, (if_neg hlate).trans (if_neg (by simp [h1])), rfl⟩
  · exact ⟨spdmChallenge, _, rfl, (if_neg hlate).trans (if_neg (by simp [h1])), rfl⟩
  · exact ⟨spdmMeasurements, _, rfl, (if_neg hlate).trans (if_neg (by omega)), rfl⟩

/-- The first piece of a large request. -/
theorem spdmChunkSend_first {s : State} {r : SpdmRequest} (hmore : r.param1.getLsbD 0 = false) (hn : spdmField r 0 2 = 0) :
    ∃ body, spdmChunkSend s r = (s.modFw fun w =>
      { w with chunkIn := some (r.param2.toNat, (r.payload.drop 12).take (spdmField r 4 4)) },
      { code := 0x05, p1 := 0, p2 := r.param2, body := body }) := by
  unfold spdmChunkSend
  simp only [hn, hmore]
  cases s.fw.chunkIn with
  | none => exact ⟨_, rfl⟩
  | some e => exact ⟨_, rfl⟩

/-- The answer that carries the first piece of a large response. -/
def firstChunk (r : SpdmRequest) (bs : List Byte) (room : Nat) : SpdmRsp :=
  { code := 0x06, p1 := BitVec.ofNat 8 (b2n (decide (bs.length ≤ room))), p2 := r.param2,
    body := leBytes 2 0 ++ [0, 0] ++ leBytes 4 (bs.take room).length ++ leBytes 4 bs.length ++ bs.take room }

theorem firstChunk_length (r : SpdmRequest) (bs : List Byte) (room : Nat) : (firstChunk r bs room).bytes.length ≤ 16 + room := by
  have hpiece : (bs.take room).length ≤ room := List.length_take_le ..
  have hlen : (firstChunk r bs room).bytes.length = 16 + (bs.take room).length := by
    simp only [SpdmRsp.bytes, firstChunk, List.length_append, leBytes_length, List.length_cons, List.length_nil]
    omega
  omega

theorem spdmChunkGet_first {s : State} {r : SpdmRequest} {bs : List Byte} (hsize : 17 ≤ s.fw.spdmTransfer)
    (hout : s.fw.chunkOut = some (0, bs)) (hn : spdmField r 0 2 = 0) : spdmChunkGet s r = (s.modFw fun w =>
      { w with chunkOut := if bs.length ≤ s.fw.spdmTransfer - 16 then none else some (1, bs) },
      firstChunk r bs (s.fw.spdmTransfer - 16)) := by
  have hroom : max 1 (s.fw.spdmTransfer - 16) = s.fw.spdmTransfer - 16 := by omega
  simp only [spdmChunkGet, hout, hn, hroom, firstChunk, Nat.zero_mul, List.drop_zero, decide_eq_true_eq, if_true, ne_eq,
    not_true_eq_false, if_false, Nat.zero_add]

end Sys2Proof.Machine
end

section
/-! O40: attestation, row by row. -/

namespace Sys2Proof.Machine

/-- Settles O40, row by row. -/
theorem attestation : Obligations.Attestation := by
  refine ⟨?version, ?capabilities, ?algorithms, ?query, ?exchange, ?finish, ?heartbeat, ?update, ?close, ?send, ?get, ?unsupported⟩
  case version =>
    intro r s hruns h0
    refine ⟨_, rfl, ?_⟩
    rw [State.spdmAnswer_sends ⟨hruns, .inl h0⟩ (rfl : spdmVersion s r = _) (.inl rfl), h0]
    exact ⟨rfl, rfl, rfl, rfl, rfl⟩
  case capabilities =>
    intro r s ho hstage h0
    have hrow : spdmCapabilities s r = _ := if_neg hstage
    obtain ⟨hsaid, hfw, -⟩ := State.spdmAnswer_said ho hrow (.inl h0) 0x61 rfl (by decide) rfl
    refine ⟨_, rfl, hsaid, ?_⟩
    rw [hfw]
    exact ⟨rfl, h0⟩
  case algorithms =>
    intro r s ho h0 hstage hsign hhash
    have hrow : spdmAlgorithms s r = _ := (if_neg (by omega)).trans (if_neg (by rw [hsign, hhash]; decide))
    obtain ⟨hsaid, hfw, -⟩ := State.spdmAnswer_said ho hrow (.inl h0) 0x63 rfl (by decide) rfl
    exact ⟨_, rfl, hsaid, congrArg FwSt.spdmStage hfw⟩
  case query =>
    intro r i code s hi ho h0 hstage h1 h2
    obtain ⟨go, rsp, hexec, hgo, hcode⟩ := spdmQuery_answers hi hstage h1 h2
    have hversion : code ≠ 0x04 := by
      simp only [List.mem_cons, Prod.mk.injEq, List.mem_nil_iff, or_false] at hi
      rcases hi with ⟨-, rfl⟩ | ⟨-, rfl⟩ | ⟨-, rfl⟩ | ⟨-, rfl⟩ <;> decide
    obtain ⟨hsaid, -, honly⟩ := State.spdmAnswer_said ho hgo (.inl h0) code hcode hversion rfl
    exact ⟨_, hexec, hsaid, honly⟩
  case exchange =>
    intro r s ho h0 hstage h2
    refine ⟨_, rfl, fun hroom => ?_, fun hfull => ?_⟩
    · have hrow : spdmKeyExchange s r = _ := (if_neg (by omega)).trans ((if_neg (by simp [h2])).trans (if_neg (by omega)))
      obtain ⟨hsaid, hfw, -⟩ := State.spdmAnswer_said ho hrow (.inl h0) 0x64 rfl (by decide) rfl
      exact ⟨hsaid, congrArg FwSt.sessionNext hfw, congrArg FwSt.sessions hfw⟩
    · have hrow : spdmKeyExchange s r = _ := (if_neg (by omega)).trans ((if_neg (by simp [h2])).trans (if_pos hfull))
      obtain ⟨hsaid, hfw, -⟩ := State.spdmAnswer_said ho hrow (.inl h0) 0x7F rfl (by decide) rfl
      exact ⟨hsaid, congrArg FwSt.sessions hfw⟩
  case finish =>
    intro r x s ho h0 hx hid hfin
    have hrow : spdmFinish s r = _ := if_pos (List.any_eq_true.2 ⟨x, hx, by simp [hid, hfin]⟩)
    obtain ⟨hsaid, hfw, -⟩ := State.spdmAnswer_said ho hrow (.inl h0) 0x65 rfl (by decide) rfl
    refine ⟨_, rfl, hsaid, ?_, ?_⟩
    · rw [hfw]
      exact List.mem_map.2 ⟨x, hx, if_pos hid⟩
    · rw [hfw]
      exact List.length_map ..
  case heartbeat =>
    intro r x s ho h0 hx hid hfin hperiod
    have hrow : spdmHeartbeat s r = _ := if_pos ⟨State.inSession_of_mem hx hid hfin, hperiod⟩
    obtain ⟨hsaid, hfw, -⟩ := State.spdmAnswer_said ho hrow (.inl h0) 0x68 rfl (by decide) rfl
    exact ⟨_, rfl, hsaid, hfw⟩
  case update =>
    intro r x s ho h0 hx hid hfin hlow hhigh
    have hne : r.param1 ≠ 0 := fun h => by simp [h] at hlow
    have hrow : spdmKeyUpdate s r = _ :=
      (if_neg (by simp [State.inSession_of_mem hx hid hfin])).trans (if_neg (not_or.2 ⟨hne, by omega⟩))
    by_cases h3 : r.param1 = 3
    · rw [if_pos h3] at hrow
      obtain ⟨hsaid, hfw, -⟩ := State.spdmAnswer_said ho hrow (.inl h0) 0x69 rfl (by decide) rfl
      refine ⟨_, rfl, hsaid, ?_⟩
      rw [hfw, if_pos h3]
      exact hx
    · rw [if_neg h3] at hrow
      obtain ⟨hsaid, hfw, -⟩ := State.spdmAnswer_said ho hrow (.inl h0) 0x69 rfl (by decide) rfl
      refine ⟨_, rfl, hsaid, ?_⟩
      rw [hfw, if_neg h3]
      exact List.mem_map.2 ⟨x, hx, if_pos hid⟩
  case close =>
    intro r x s ho h0 hx hid hfin
    have hrow : spdmEndSession s r = _ := if_pos (State.inSession_of_mem hx hid hfin)
    obtain ⟨hsaid, hfw, -⟩ := State.spdmAnswer_said ho hrow (.inl h0) 0x6C rfl (by decide) rfl
    refine ⟨_, rfl, hsaid, fun y hy => ?_⟩
    rw [hfw] at hy
    simpa using (List.mem_filter.1 hy).2
  case send =>
    intro r s ho h0 hmore hn
    obtain ⟨body, hrow⟩ := spdmChunkSend_first (s := s) hmore hn
    obtain ⟨hsaid, hfw, -⟩ := State.spdmAnswer_said ho hrow (.inl h0) 0x05 rfl (by decide) rfl
    exact ⟨_, rfl, hsaid, congrArg FwSt.chunkIn hfw⟩
  case get =>
    intro r bs s ho hsize hout hn
    have hfit := firstChunk_length r bs (s.fw.spdmTransfer - 16)
    obtain ⟨hsaid, hfw, -⟩ := State.spdmAnswer_said ho (spdmChunkGet_first hsize hout hn) (.inr (by
      rw [State.modFw_fw]
      dsimp only
      omega)) 0x06 rfl (by decide) rfl
    refine ⟨_, rfl, hsaid, fun h => ?_, fun h => ?_⟩
    · exact (congrArg FwSt.chunkOut hfw).trans (if_pos h)
    · exact (congrArg FwSt.chunkOut hfw).trans (if_neg (by omega))
  case unsupported =>
    intro r s ho h0
    obtain ⟨hsaid, hfw, -⟩ := State.spdmAnswer_said ho (rfl : spdmUnsupported s r = _) (.inl h0) 0x7F rfl (by decide) rfl
    exact ⟨_, rfl, hsaid, hfw⟩

end Sys2Proof.Machine
end

section
/-! SUPPORT. The management plane (17 R406-R412): submission over MCTP, queries, sensor events. -/

namespace Sys2Proof.Machine

theorem State.mgmtBasic_of_mgmtServes {s : State} (h : s.mgmtServes = true) : s.mgmtBasic = true := by
  simp [State.mgmtBasic, h]

/-- A mailbox command over MCTP is a submission to the management mailbox (R409). -/
theorem execMctpMailboxCommand_submits {r : BitVec 2048} {s : State} (h : s.hubRuns = true) :
    exec (.mctpMailboxCommand r) s =
      .next (({ s with cmdOrder := s.cmdOrder + 1 } : State).modMbox 33 (s.submission 33 0 r)) := by
  rw [← State.mbStart_eq]
  exact congrArg Host.Outcome.next (if_pos h)

/-- Whether a state is s but for what it has said to the management bus and the free values it has used. -/
def State.onlySays (s t : State) : Prop := t = { s with mgmt := { s.mgmt with out := t.mgmt.out }, freeCtr := t.freeCtr }

/-- A PLDM response says one message and does nothing else. -/
theorem State.pldm_says (s : State) (type cmd cc : Nat) (data : List Byte) :
    (∃ data', (s.pldm type cmd cc data).mgmt.out = s.mgmt.out ++ [.mctp 0x01 data']) ∧ s.onlySays (s.pldm type cmd cc data) :=
  ⟨⟨_, rfl⟩, rfl⟩

/-- Each query is one PLDM response, after at most one free value. -/
theorem pldmQuery_responds {type : Byte} {record : Word} {i : Instr} {s : State}
    (hi : i ∈ [.getPldmTypes, .getPldmCommands type, .getPldmVersion type, .getPdr record]) (h : s.mgmtServes = true) :
    ∃ s', (s' = s ∨ s' = s.freshen) ∧ ∃ type cmd cc data, exec i s = .next (s'.pldm type cmd cc data) := by
  have hb : ¬¬s.mgmtBasic = true := not_not.2 (State.mgmtBasic_of_mgmtServes h)
  simp only [List.mem_cons, List.mem_nil_iff, or_false] at hi
  rcases hi with rfl | rfl | rfl | rfl
  · exact ⟨s, .inl rfl, _, _, _, _, congrArg Host.Outcome.next (if_pos (State.mgmtBasic_of_mgmtServes h))⟩
  · cases hc : pldmCommands type.toNat with
    | some l => exact ⟨s, .inl rfl, _, _, _, _, congrArg Host.Outcome.next ((if_neg hb).trans (by rw [hc]))⟩
    | none => exact ⟨s, .inl rfl, _, _, _, _, congrArg Host.Outcome.next ((if_neg hb).trans (by rw [hc]))⟩
  · change ∃ s', _ ∧ ∃ _ _ _ _, execGetPldmVersion type s = _
    unfold execGetPldmVersion
    rw [if_neg hb]
    split
    · exact ⟨s.freshen, .inr rfl, _, _, _, _, rfl⟩
    · split
      · exact ⟨s, .inl rfl, _, _, _, _, rfl⟩
      · split
        · exact ⟨s, .inl rfl, _, _, _, _, rfl⟩
        · exact ⟨s, .inl rfl, _, _, _, _, rfl⟩
  · change ∃ s', _ ∧ ∃ _ _ _ _, execGetPdr record s = _
    unfold execGetPdr
    rw [if_neg (not_not.2 h)]
    by_cases hid : sensorIds.contains (if record = 0 then 1 else record.toNat) = true
    · exact ⟨s, .inl rfl, _, _, _, _, congrArg Host.Outcome.next (if_neg (not_not.2 hid))⟩
    · exact ⟨s, .inl rfl, _, _, _, _, congrArg Host.Outcome.next (if_pos hid)⟩

/-- A PLDM event joins a queue that is not full at its end (R412). -/
theorem State.queuePldm_room {s : State} (h : s.mgmt.queue.length < 64) (cls : Nat) (data : List Byte) (status : Bool) :
    (s.queuePldm cls data status).mgmt.queue =
      s.mgmt.queue ++ [{ cls := cls, data := data, status := status, tries := 0, id := s.mgmt.eventId }] :=
  congrArg (· ++ _) (if_pos h)

theorem State.queuePldm_sensors (s : State) (cls : Nat) (data : List Byte) (status : Bool) :
    (s.queuePldm cls data status).mgmt.sensors = s.mgmt.sensors := rfl

/-- The state after a sensor has been read. -/
def State.sensorRead (s : State) (id : Nat) (v : Int) : State := s.modMgmt fun g => { g with
  available := Tbl.set g.available id true, sensors := Tbl.set g.sensors id (s.sensorValue id v),
  levels := Tbl.set g.levels id (s.sensorLevel id (s.sensorValue id v)) }

/-- A state sensor that changes its state queues a sensor event (R411). -/
theorem execSensorRefresh_changed {id : Nat} {v y : Int} {s : State} (h : s.mgmtServes = true) (hlo : 100 ≤ id) (hhi : id ≤ 103)
    (hold : Tbl.get? s.mgmt.sensors id = some y) (hy : y ≠ s.sensorValue id v) :
    ∃ data, exec (.sensorRefresh id v) s = .next ((s.sensorRead id v).queuePldm 0 data false) := by
  have hid : id ∈ sensorIds := by
    have : id = 100 ∨ id = 101 ∨ id = 102 ∨ id = 103 := by omega
    simpa [sensorIds] using Or.inr this
  have hup : s.sensorUp id = true := by
    unfold State.sensorUp
    rw [if_neg (by omega), if_neg (by omega)]
  change ∃ data, execSensorRefresh id v s = _
  unfold execSensorRefresh
  rw [if_neg (by simp [h, hid]), if_neg (by simp [hup]), if_pos hlo, hold]
  exact ⟨_, congrArg Host.Outcome.next (if_neg hy)⟩

theorem State.openStage_mgmt (s : State) (pldm : Bool) : (s.openStage pldm).mgmt = s.mgmt := by
  obtain ⟨hs, e⟩ := State.foldl_modFwHub_only (fun x => x.setIdle { mem := [], info := none }) s.stageHubs s
  have hopen : (s.openStage pldm).mgmt =
      (s.stageHubs.foldl (fun t h => t.modFwHub h fun x => x.setIdle { mem := [], info := none }) s).mgmt := rfl
  rw [hopen, e]

/-- CANCEL_UPDATE ends the terminus's own session. -/
theorem execPldmFirmwareUpdate_cancels {payload : List Byte} {n : Nat} {s : State} (h : s.mgmtServes = true)
    (hsession : s.fw.session = some (true, n)) (hpldm : s.mgmt.pldmFw ≠ 0) :
    exec (.pldmFirmwareUpdate { code := 0x1D, payload := payload }) s =
      .next (((s.modFw fun w => { w with session := none }).modMgmt fun g => { g with pldmFw := 0 }).pldm 5 0x1D 0 []) := by
  have hmine : ((s.fw.session.map fun e => e.1).getD false) = true := by simp [hsession]
  change execPldmFirmwareUpdate { code := 0x1D, payload := payload } s = _
  unfold execPldmFirmwareUpdate
  rw [if_neg (not_not.2 (State.mgmtBasic_of_mgmtServes h)), if_pos hmine]
  exact congrArg Host.Outcome.next (if_neg hpldm)

/-- Direct code SETDASA gives a target without a dynamic address the one it names. -/
theorem execI3cCcc_setdasa {a : Byte} {s : State} (hup : s.busUp = true) (hnone : s.mgmt.dynAddr = none) :
    exec (.i3cCcc { code := 0x87, data := [s.staticAddr, a] }) s =
      .next (s.modMgmt fun g => { g with i3c := true, dynAddr := some a }) := by
  change execI3cCcc _ s = _
  unfold execI3cCcc
  simp [hup, hnone]

/-- Changing the elements equal to a head that stands once changes the head alone. -/
theorem map_update_head {α : Type} [DecidableEq α] {e : α} {l : List α} (h : e ∉ l) (f : α → α) :
    ((e :: l).map fun x => if x = e then f x else x) = f e :: l := by
  rw [List.map_cons, if_pos rfl]
  have hrest : (l.map fun x => if x = e then f x else x) = l.map id :=
    List.map_congr_left fun x hx => if_neg (ne_of_mem_of_not_mem hx h)
  rw [hrest, List.map_id]

end Sys2Proof.Machine
end

section
/-! O41: the management plane, row by row. -/

namespace Sys2Proof.Machine

/-- Settles O41, row by row. -/
theorem managementPlane : Obligations.ManagementPlane := by
  refine ⟨?starts, ?fails, ?unsupported, ?endpoint, ?terminus, ?query, ?receiver, ?poll, ?event, ?changed, ?down, ?update, ?cancel,
    ?activate, ?address, ?alert, fun s => ⟨s, rfl, rfl⟩, fun s => ⟨s, rfl, rfl⟩⟩
  case starts =>
    intro r s hruns hcheck hreset hfree
    refine ⟨_, execMctpMailboxCommand_submits hruns, rfl, s.submitted 0 r, ?_, rfl, rfl, rfl⟩
    rw [State.modMbox_mbox, State.submission_starts 0 hcheck hreset hfree]
    rfl
  case fails =>
    intro r st off s hruns hcheck
    refine ⟨_, execMctpMailboxCommand_submits hruns, ?_⟩
    dsimp only
    rw [State.modMbox_mbox, State.submission_fails 0 hcheck]
    exact ⟨rfl, _, s.submitted 0 r, rfl, rfl, rfl⟩
  case unsupported =>
    intro type s hb htype
    exact ⟨_, congrArg Host.Outcome.next (if_neg (by simpa [hb] using htype)), rfl⟩
  case endpoint =>
    intro eid s hb
    by_cases h : eid = 0 ∨ eid = 0xFF
    · exact ⟨_, congrArg Host.Outcome.next ((if_neg (not_not.2 hb)).trans (if_pos h)),
        fun h0 hF => absurd h (not_or.2 ⟨h0, hF⟩), fun _ => rfl, rfl⟩
    · exact ⟨_, congrArg Host.Outcome.next ((if_neg (not_not.2 hb)).trans (if_neg h)), fun _ _ => rfl, fun h' => absurd h' h, rfl⟩
  case terminus =>
    intro tid s hb
    by_cases h : tid = 0 ∨ tid = 0xFF
    · exact ⟨_, congrArg Host.Outcome.next ((if_neg (not_not.2 hb)).trans (if_pos h)),
        fun h0 hF => absurd h (not_or.2 ⟨h0, hF⟩), fun _ => ⟨rfl, rfl⟩⟩
    · exact ⟨_, congrArg Host.Outcome.next ((if_neg (not_not.2 hb)).trans (if_neg h)), fun _ _ => ⟨rfl, rfl⟩,
        fun h' => absurd h' h⟩
  case query =>
    intro type record i s hi hserves
    rcases List.mem_cons.1 hi with rfl | hi
    · exact ⟨_, congrArg Host.Outcome.next (if_pos (State.mgmtBasic_of_mgmtServes hserves)), ⟨_, rfl, fun _ => rfl⟩, rfl⟩
    · have htid : i ≠ .getTid := by
        rintro rfl
        simp at hi
      obtain ⟨s', hs', ty, cmd, cc, data, hrow⟩ := pldmQuery_responds hi hserves
      obtain ⟨⟨data', hout⟩, honly⟩ := s'.pldm_says ty cmd cc data
      refine ⟨_, hrow, ?_⟩
      rcases hs' with rfl | rfl
      · exact ⟨⟨data', hout, fun h => absurd h htid⟩, honly⟩
      · exact ⟨⟨data', hout, fun h => absurd h htid⟩, honly⟩
  case receiver =>
    intro enable addr s hserves
    exact ⟨_, congrArg Host.Outcome.next (if_pos hserves), rfl, rfl⟩
  case poll =>
    intro e rest s hserves hqueue
    exact ⟨_, congrArg Host.Outcome.next ((if_neg (not_not.2 hserves)).trans (by rw [hqueue])), rfl, rfl⟩
  case event =>
    intro addr e rest answered s hserves hreceiver hqueue htries hrest
    have hfind : (s.mgmt.queue.find? fun e => decide (e.tries < 4)) = some e := by simp [hqueue, htries]
    refine ⟨_, congrArg Host.Outcome.next ((if_neg (by simp [hserves, hreceiver])).trans (by rw [hfind])), ?_, rfl⟩
    change (if answered then s.mgmt.queue.erase e else s.mgmt.queue.map fun x => if x = e then { x with tries := x.tries + 1 } else x) = _
    rw [hqueue, List.erase_cons_head, map_update_head hrest]
  case changed =>
    intro id v y s hserves hlo hhi hold hy hroom
    obtain ⟨data, hrow⟩ := execSensorRefresh_changed hserves hlo hhi hold hy
    exact ⟨_, hrow, Tbl.get?_set_self .., _, State.queuePldm_room hroom 0 data false, rfl, rfl⟩
  case down =>
    intro id v s hserves hid hdown
    exact ⟨_, congrArg Host.Outcome.next ((if_neg (by simp [hserves, hid])).trans (if_pos (by simp [hdown]))),
      Tbl.get?_set_self .., rfl⟩
  case update =>
    intro payload s hserves hsession hactivation
    obtain ⟨-, hopen, -⟩ := s.openStage_kept true
    exact ⟨_, congrArg Host.Outcome.next ((if_neg (not_not.2 (State.mgmtBasic_of_mgmtServes hserves))).trans
      (if_neg (by simp [hsession, hactivation]))), hopen, rfl, congrArg (fun g => g.out ++ _) (s.openStage_mgmt true)⟩
  case cancel =>
    intro payload n s hserves hsession hpldm
    exact ⟨_, execPldmFirmwareUpdate_cancels hserves hsession hpldm, rfl, rfl, rfl⟩
  case activate =>
    intro i s hserves hactivation hstaged
    obtain ⟨hs, hname⟩ := s.nameStaged_only
    refine ⟨_, congrArg Host.Outcome.next ((if_neg (not_not.2 (State.mgmtBasic_of_mgmtServes hserves))).trans
      (if_neg (by simp [hactivation, hstaged]))), ?_, rfl, fun h hh hinfo => State.nameStaged_next hstaged hh hinfo⟩
    rw [hname]
    rfl
  case address =>
    intro a s hup hnone
    exact ⟨_, execI3cCcc_setdasa hup hnone, rfl⟩
  case alert =>
    intro s hup hi3c hqueue
    exact ⟨_, congrArg Host.Outcome.next (if_pos ⟨hup, by simp [hi3c], by simpa using hqueue⟩), rfl⟩

end Sys2Proof.Machine
end

section
/-! SUPPORT. Command streams (13 R332-R343): a stream that stops, an entry that is fetched, a status line, and the start of the next
command. -/

namespace Sys2Proof.Machine

/-! ### One partition -/

/-- A change of one partition changes the partitions alone. -/
theorem State.modPart_partsFrame (s : State) (p : Nat) (f : Part → Part) : s.modPart p f = { s with parts := (s.modPart p f).parts } := by
  unfold State.modPart
  split <;> rfl

theorem State.modPart_part_some {s : State} {p : Nat} {x : Part} (hx : s.part? p = some x) (f : Part → Part) :
    (s.modPart p f).part? p = some (f x) := by
  rw [State.modPart_part, hx]
  rfl

theorem State.partsOnly.atolls {s t : State} (h : s.partsOnly t) : t.atolls = s.atolls := by rw [h]
theorem State.partsOnly.mem {s t : State} (h : s.partsOnly t) : t.mem = s.mem := by rw [h]
theorem State.partsOnly.reconfs {s t : State} (h : s.partsOnly t) : t.reconfs = s.reconfs := by rw [h]

theorem State.partsOnly.sunit {s t : State} (h : s.partsOnly t) (i u : Nat) : t.sunit i u = s.sunit i u := by
  rw [h]
  rfl

/-! ### A stream that stops (R343) -/

/-- A stream that stops with a status, a cause kind, an index, an offset, a cause and a word. -/
def Stream.stop (y : Stream) (status kind at_ off cause : Nat) (word : DWord) : Stream := { y with
  stopped := true, waiting := [], status := BitVec.ofNat 16 status, causeKind := kind, stoppedAt := at_,
  fieldOffset := BitVec.ofNat 16 off, cause := BitVec.ofNat 16 cause, unitWord := word, statusDue := true }

theorem State.stopStream_part {s : State} {p st : Nat} {x : Part} (hx : s.part? p = some x) (hopen : (x.stream st).open_ = true)
    (hstopped : (x.stream st).stopped = false) (status kind at_ off cause : Nat) (word : DWord) :
    (s.stopStream p st status kind at_ off cause word).part? p =
      some (x.modStream st fun y => y.stop status kind at_ off cause word) := by
  have hstop : s.stopStream p st status kind at_ off cause word = (s.modPart p fun z => z.modStream st fun y =>
      y.stop status kind at_ off cause word).notice p 3 status 0 := by
    unfold State.stopStream
    simp only [hx, hopen, hstopped]
    rfl
  rw [hstop, State.part?_congr (State.notice_parts ..), State.modPart_part_some hx]

/-- A command that fails a check stops its stream there, and nothing else happens (R336). -/
theorem State.failCmd_stops {s : State} {p st : Nat} {x : Part} (hx : s.part? p = some x) (hopen : (x.stream st).open_ = true)
    (hstopped : (x.stream st).stopped = false) (c : SCmd) (status off cause : Nat) (word : DWord) :
    (s.failCmd p st c status off cause word).cmdStopped p st c status 1 ∧ s.partsOnly (s.failCmd p st c status off cause word) ∧
      ∃ f, (s.failCmd p st c status off cause word).part? p = some (x.modStream st f) := by
  have hpart := State.stopStream_part hx hopen hstopped status 1 c.idx off cause word
  refine ⟨⟨_, hpart, ?_⟩, State.stopStream_partsOnly .., _, hpart⟩
  rw [Part.modStream_stream]
  exact ⟨rfl, rfl, rfl, rfl, rfl⟩

/-! ### Fetch (R334) -/

/-- A stream after the 64 bytes at its next index have been read. -/
def Stream.take (y : Stream) (now : DWord) (bs : List Byte) : Stream :=
  if flag (BitVec.ofNat 512 (leNat bs)) 1 7 = ringPhase y.sizeLog2 y.fetched then
    { y with waiting := y.waiting ++ [{ idx := y.fetched, img := BitVec.ofNat 512 (leNat bs), toIssue := [], left := 0, waitsFor := [],
                                        since := now }],
             fetched := (y.fetched + 1) % 2 ^ 32 }
  else y

theorem State.takeEntry_part {s : State} {p : Nat} {x : Part} (hx : s.part? p = some x) (st : Nat) (bs : List Byte) :
    (s.takeEntry p st bs).part? p = some (x.modStream st fun y => y.take s.count bs) :=
  State.modPart_part_some hx fun x => x.modStream st fun y => y.take s.count bs

theorem State.fetchEntry_host {s : State} {p st : Nat} {x : Part} (hx : s.part? p = some x) (hopen : (x.stream st).open_ = true)
    (hstopped : (x.stream st).stopped = false) (hclosing : (x.stream st).closing = false) (hruns : s.streamsRun x = true)
    (hhost : (x.stream st).ringHost = true) (ok : Bool) : s.fetchEntry p st ok =
      match (if ok then s.hostGet ((x.stream st).ring.toNat + 64 * ringSlot (x.stream st).sizeLog2 (x.stream st).fetched) 64
        else none) with
      | none => s.stopStream p st mbTimeout 4 (x.stream st).fetched 0xFFFF 0 0
      | some bs => s.takeEntry p st bs := by
  unfold State.fetchEntry
  simp only [hx, hopen, hstopped, hclosing, hruns, hhost, not_true_eq_false, Bool.false_eq_true, or_self, if_false, if_true]
    <;> rfl

/-- A poll reads as a fetch does. -/
theorem exec_fetch {i : Instr} {p : Fin 32} {st : Fin 4} {ok : Bool} (hi : i = .streamFetch p st ok ∨ i = .streamPoll p st ok)
    (s : State) : exec i s = .next (s.fetchEntry p st ok) := by
  rcases hi with rfl | rfl
  · rfl
  · rfl

/-! ### Status line (R335) -/

/-- A write of host memory on a path that works. -/
theorem State.hostPut_up {s : State} (h : s.hostUp = true) (a : Nat) (data : List Byte) :
    ∃ host : HostSt, s.hostPut a data = some { s with host := host } ∧ host.mem = Mem.writeBytes s.host.mem a data := by
  unfold State.hostPut
  rw [if_neg (by simp [h])]
  exact ⟨_, rfl, rfl⟩

theorem packBytes_length (n : Nat) (fs : List (Nat × Nat)) : (packBytes n fs).length = n := leBytes_length ..

theorem execStreamStatusWrite_host {s : State} {p : Fin 32} {st : Fin 4} {x : Part} (hx : s.part? p = some x)
    (hdue : (x.stream st).statusDue = true) (hrun : s.running = true) (hhub : s.life.failingHub = false)
    (hline : (x.stream st).statusHost = true) {t : State}
    (hput : s.hostPut (x.stream st).statusAddr.toNat (s.statusLine x (x.stream st)) = some t) :
    exec (.streamStatusWrite p st) s =
      .next (t.modPart p fun z => z.modStream st fun q => { q with statusDue := false }) := by
  change execStreamStatusWrite p st s = _
  unfold execStreamStatusWrite State.putStatus
  simp only [hx, hdue, hrun, hhub, hline, hput, Bool.false_eq_true, not_false_eq_true, and_self, if_true]

/-! ### The next command (R336, R337) -/

section
variable {s : State} {p st : Nat} {x : Part} {c : SCmd} {want : SCmd → Bool}

/-- A stream that may dispatch and has c as its next command. -/
def State.faces (s : State) (p st : Nat) (x : Part) (c : SCmd) : Prop :=
  s.part? p = some x ∧ s.streamsRun x = true ∧ (x.stream st).open_ = true ∧ (x.stream st).stopped = false ∧
    (x.stream st).closing = false ∧ (x.stream st).waiting.head? = some c

theorem State.startCmd_faces (h : s.faces p st x c) (hw : want c = true) : s.startCmd p st want =
    if ¬ streamOpcode c.op then s.failCmd p st c mbBadOpcode 0
    else match firstBad c.body.toNat (c.checks p st) with
      | some k => s.failCmd p st c (if k.range then mbOutOfRange else mbBadField) k.off
      | none => if ¬ s.mayStart p st x c then s
        else match s.cmdOwn p x c with
          | some (status, off) => s.failCmd p st c status off
          | none => s.dispatch p st x c := by
  obtain ⟨hx, hruns, hopen, hstopped, hclosing, hhead⟩ := h
  obtain ⟨rest, hrest⟩ := List.head?_eq_some_iff.1 hhead
  unfold State.startCmd
  simp only [hx, hrest]
  exact if_neg (by simp [hopen, hstopped, hclosing, hruns, hw])

theorem State.startCmd_badOpcode (h : s.faces p st x c) (hw : want c = true) (hop : streamOpcode c.op = false) :
    s.startCmd p st want = s.failCmd p st c mbBadOpcode 0 := by
  rw [State.startCmd_faces h hw, if_pos (by simp [hop])]

theorem State.startCmd_badField (h : s.faces p st x c) (hw : want c = true) (hop : streamOpcode c.op = true) {k : Chk}
    (hk : firstBad c.body.toNat (c.checks p st) = some k) :
    s.startCmd p st want = s.failCmd p st c (if k.range then mbOutOfRange else mbBadField) k.off := by
  rw [State.startCmd_faces h hw, if_neg (by simp [hop]), hk]

theorem State.nextCmd.part (h : s.nextCmd p st x c) : s.part? p = some x := by
  obtain ⟨hx, -⟩ := h
  exact hx

theorem State.nextCmd.streams (h : s.nextCmd p st x c) : (x.stream st).open_ = true ∧ (x.stream st).stopped = false := by
  obtain ⟨-, -, hopen, hstopped, -⟩ := h
  exact ⟨hopen, hstopped⟩

theorem State.nextCmd.fresh (h : s.nextCmd p st x c) : ∀ d ∈ (x.stream st).started, d.idx ≠ c.idx := by
  obtain ⟨-, -, -, -, -, -, hfresh, -⟩ := h
  exact hfresh

theorem State.nextCmd.faces (h : s.nextCmd p st x c) : s.faces p st x c := by
  obtain ⟨hx, hruns, hopen, hstopped, hclosing, hhead, -⟩ := h
  exact ⟨hx, hruns, hopen, hstopped, hclosing, hhead⟩

/-- A command that is checked and free to start is dispatched. -/
theorem State.startCmd_next (h : s.nextCmd p st x c) (hw : want c = true) : s.startCmd p st want = s.dispatch p st x c := by
  have hfaces := h.faces
  obtain ⟨-, -, -, -, -, -, -, hop, hfields, hmay, hown⟩ := h
  rw [State.startCmd_faces hfaces hw, if_neg (by simp [hop]), hfields]
  dsimp only
  rw [if_neg (by simp [hmay]), hown]

/-- A memory command goes to a stream unit. -/
theorem State.dispatch_memory (hop : memOpcode c.op = true) : s.dispatch p st x c = s.memoryCmd p st x c := by
  have hlist : c.op = 1 ∨ c.op = 2 ∨ c.op = 0x10 ∨ c.op = 0x11 ∨ c.op = 0x20 ∨ c.op = 0x30 ∨ c.op = 0x31 ∨ c.op = 0x40 := by
    simpa [memOpcode] using hop
  rcases hlist with h | h | h | h | h | h | h | h <;> simp only [State.dispatch, h]

/-! ### A command that starts -/

/-- A stream whose next command has started. -/
def Stream.startOf (y : Stream) (c : SCmd) : Stream := { y with waiting := y.waiting.drop 1, started := y.started ++ [c] }

theorem State.takeCmd_partsOnly (s : State) (p st : Nat) (c : SCmd) : s.partsOnly (s.takeCmd p st c) := s.modPart_partsOnly p _

theorem State.takeCmd_part (hx : s.part? p = some x) (st : Nat) (c : SCmd) :
    (s.takeCmd p st c).part? p = some (x.modStream st fun y => y.startOf c) := State.modPart_part_some hx _

/-- A command that has been taken runs. -/
theorem State.takeCmd_runs (h : s.nextCmd p st x c) {d : SCmd} (hidx : d.idx = c.idx) (himg : d.img = c.img) :
    (s.takeCmd p st d).cmdRuns p st x c := by
  obtain ⟨-, hstopped⟩ := h.streams
  refine ⟨_, State.takeCmd_part h.part st d, ?_⟩
  rw [Part.modStream_stream]
  exact ⟨rfl, hstopped, d, by simp [Stream.startOf], hidx, himg⟩

theorem State.cmdRuns.congr {t u : State} (h : t.cmdRuns p st x c) (hparts : u.parts = t.parts) : u.cmdRuns p st x c := by
  obtain ⟨y, hy, hrest⟩ := h
  exact ⟨y, (State.part?_congr hparts p).trans hy, hrest⟩

end

end Sys2Proof.Machine
end

section
/-! O33: the fetching of streams and the start of their commands, row by row. -/

namespace Sys2Proof.Machine

/-- Settles O33, row by row. -/
theorem streamFetching : Obligations.StreamFetching := by
  refine ⟨?fetch, ?fails, ?status, ?opcode, ?field, ?memory⟩
  case fetch =>
    intro p st x bs i s hi hx hopen hstopped hclosing hruns hhost hget
    have hrow := exec_fetch hi s
    rw [State.fetchEntry_host hx hopen hstopped hclosing hruns hhost, if_pos rfl, ringSlot, hget] at hrow
    refine ⟨_, hrow, State.modPart_partsFrame .., _, State.takeEntry_part hx st bs, fun hphase => ?_, fun hphase => ?_,
      fun u hu => x.modStream_stream_ne _ hu⟩
    · rw [Part.modStream_stream, Stream.take, if_pos hphase]
      exact ⟨rfl, _, rfl, rfl, rfl⟩
    · rw [Part.modStream_stream, Stream.take, if_neg hphase]
  case fails =>
    intro p st x i s hi hx hopen hstopped hclosing hruns hhost
    have hrow := exec_fetch hi s
    rw [State.fetchEntry_host hx hopen hstopped hclosing hruns hhost, if_neg Bool.false_ne_true] at hrow
    refine ⟨_, hrow, _, State.stopStream_part hx hopen hstopped .., ?_⟩
    rw [Part.modStream_stream]
    exact ⟨rfl, rfl, rfl, rfl, rfl⟩
  case status =>
    intro p st x s hx hdue hrun hhub hline hup hwf
    obtain ⟨host, hput, hmem⟩ := State.hostPut_up hup (x.stream st).statusAddr.toNat (s.statusLine x (x.stream st))
    have hbytes := Mem.readBytes_writeBytes hwf (x.stream st).statusAddr.toNat (s.statusLine x (x.stream st))
    rw [State.statusLine, packBytes_length] at hbytes
    have hx' : ({ s with host := host } : State).part? p = some x := hx
    refine ⟨_, execStreamStatusWrite_host hx hdue hrun hhub hline hput, ?_, _, State.modPart_part_some hx' _, x.modStream_stream ..⟩
    rw [State.modPart_host, hmem]
    exact hbytes
  case opcode =>
    intro p st x c s hx hruns hopen hstopped hclosing hhead hop
    obtain ⟨hstops, honly, -⟩ := State.failCmd_stops hx hopen hstopped c mbBadOpcode 0 0 0
    exact ⟨_, congrArg Host.Outcome.next (State.startCmd_badOpcode ⟨hx, hruns, hopen, hstopped, hclosing, hhead⟩ rfl hop), hstops,
      honly.atolls, honly.mem⟩
  case field =>
    intro p st x c k s hx hruns hopen hstopped hclosing hhead hop hk
    obtain ⟨hstops, honly, -⟩ := State.failCmd_stops hx hopen hstopped c (if k.range then mbOutOfRange else mbBadField) k.off 0 0
    exact ⟨_, congrArg Host.Outcome.next (State.startCmd_badField ⟨hx, hruns, hopen, hstopped, hclosing, hhead⟩ rfl hop hk), hstops,
      honly.atolls, honly.mem⟩
  case memory =>
    intro p st x c h u s hnext hop hunit
    have hrow : s.memoryCmd p st x c = (s.takeCmd p st c).enqueueMem h u
        { img := c.body, src := .stream p st c.idx, part := p, seed := x.seed, order := s.cmdOrder } := by
      rw [State.memoryCmd, hunit]
    have hqueue := (s.takeCmd p st c).enqueueMem_sunit h u
      { img := c.body, src := .stream p st c.idx, part := p, seed := x.seed, order := s.cmdOrder }
    rw [(s.takeCmd_partsOnly p st c).sunit] at hqueue
    exact ⟨_, congrArg Host.Outcome.next ((State.startCmd_next hnext rfl).trans ((State.dispatch_memory hop).trans hrow)),
      (State.takeCmd_runs hnext rfl rfl).congr rfl, _, congrArg StreamUnit.queue hqueue, rfl, rfl, rfl⟩

end Sys2Proof.Machine
end

section
/-! SUPPORT. A barrier that names its own stream, behind a barrier whose commands have completed (13 R336). -/

namespace Sys2Proof.Machine

/-- A BARRIER at an index that names the streams of a mask. -/
def barrierCmd (idx mask : Nat) (waitsFor : List (Nat × Nat)) : SCmd :=
  { idx := idx, img := BitVec.ofNat 512 (0x85 + mask * 2 ^ 16), toIssue := [], left := 0, waitsFor := waitsFor, since := 0 }

/-- Command 4, a barrier that has waited for command 9 of stream 1. -/
def earlierBarrier : SCmd := barrierCmd 4 2 [(1, 9)]

/-- Command 5, a barrier that names stream 0. -/
def laterBarrier : SCmd := barrierCmd 5 1 []

/-- A partition that has started the first on stream 0 and has the second as the next command of it; stream 1 runs nothing any
more. -/
def barrierPart : Part :=
  { jobTag := 0, x0 := 0, y0 := 0, w := 1, h := 1, split := false, staging := 0, dram := [], posAtoll := [], epoch := 0,
    epochTimes := [], inReset := false, aborting := false, stepOpen := false, replaying := false, step := 0, seed := 0,
    commitStep := 0, start := none, rollbacks := [], replayLimit := 0, firstSymbol := none, stalled := false, seqWatch := false,
    triggers := [], rollback := none, migrations := [], migrateWanted := [], params := [], updSlots := [], installer := [],
    streams := [(0, { Stream.reset with
      open_ := true, ringHost := true, waiting := [laterBarrier], started := [earlierBarrier] })], runtime := 0 }

/-- It as partition 0 of a ready module. -/
def barrierState : State :=
  { State.reset with life := { LifeSt.reset with state := .ready, powered := true, usable := 3 }, parts := [(0, barrierPart)] }

theorem barrierState_next : barrierState.nextCmd 0 0 barrierPart laterBarrier := by
  unfold State.nextCmd
  decide +kernel

/-- The earlier barrier ends as the later one starts, and then the later one has no command left to wait for: one BARRIER row ends
both. -/
theorem exec_barrier_endsBoth : ∃ t, exec (.barrier 0 0) barrierState = .next t ∧
    (t.part? 0).map (fun y => (y.stream 0).started) = some [] := ⟨_, rfl, by decide +kernel⟩

end Sys2Proof.Machine
end

section
/-! O34: stream commands; the clause of the barrier that waits fails. -/

namespace Sys2Proof.Machine

/-- Refutes O34: its clause on the BARRIER that waits takes a started command of a named stream for a reason to run on. Where that
command is a barrier of the same stream whose own commands have completed, the row completes it first, and with it gone the new
barrier completes too. -/
theorem not_streamCommands : ¬ Obligations.StreamCommands := by
  intro h
  obtain ⟨-, -, -, -, -, -, -, hwaits, -⟩ := h
  obtain ⟨t, ht, y, hy, -, -, d, hd, -⟩ := hwaits 0 0 barrierPart laterBarrier earlierBarrier 0 barrierState barrierState_next
    (by decide +kernel) (by decide +kernel) (by decide +kernel) rfl
  obtain ⟨u, hu, hnone⟩ := exec_barrier_endsBoth
  obtain rfl : t = u := Host.Outcome.next.inj (ht.symm.trans hu)
  have hstarted : (y.stream 0).started = [] := Option.some.inj ((congrArg (Option.map _) hy).symm.trans hnone)
  exact absurd hd (by simp [hstarted])

end Sys2Proof.Machine
end
